-- ==== Sys2Proof/Word.lean ====
section
/-! DEFINITION. The word types of the Stohepra S8 and their plainest arithmetic. -/

namespace Sys2Proof

/-- A memory-mapped register or scalar register: 32 bits (R6, R130). -/
abbrev Word := BitVec 32

/-- One byte of memory (R5). -/
abbrev Byte := BitVec 8

/-- A vector register: 512 bits (R130). -/
abbrev Vec := BitVec 512

/-- A sparse table: entries with strictly rising keys, none equal to what an unlisted key holds. -/
abbrev SMap (α : Type) := List (Nat × α)

/-- Bits [lo+w-1:lo] of a number. -/
def bitsOf (n lo w : Nat) : Nat := (n >>> lo) % 2 ^ w

/-- Bit i of a number. -/
def bitOf (n i : Nat) : Bool := (n >>> i) % 2 == 1

/-- Bits [lo+w-1:lo] of n replaced by the low w bits of v. -/
def setBits (n lo w v : Nat) : Nat :=
  n - (bitsOf n lo w <<< lo) + ((v % 2 ^ w) <<< lo)

/-- A Boolean as the number it reads as in a register. -/
def b2n (b : Bool) : Nat := if b then 1 else 0

/-- The signed value of the low w bits of n. -/
def sgn (w n : Nat) : Int :=
  let m := n % 2 ^ w
  if m < 2 ^ (w - 1) then (m : Int) else (m : Int) - (2 ^ w : Nat)

/-- An integer wrapped to w bits of two's complement. -/
def wrap (w : Nat) (i : Int) : Nat := (i % ((2 ^ w : Nat) : Int)).toNat

/-- Ceiling of a division. -/
def cdiv (a b : Nat) : Nat := (a + b - 1) / b

/-- A count that saturates at the largest w-bit value. -/
def satAdd (w a b : Nat) : Nat := min (a + b) (2 ^ w - 1)

end Sys2Proof
end

