-- ==== Sys2Proof/Config.lean ====
section
/-! DEFINITION. What the spec leaves open, as constants without a body (free values), and the fixed figures of the
module that the model names. -/

namespace Sys2Proof.Config

/-- What pow of R222 picks within the 2 units in the last place that the spec allows, of FP32 patterns: a free value (log 8). -/
opaque powFree : BitVec 32 → BitVec 32 → BitVec 32

/-- cos(pi x) of R222, likewise free (log 8). -/
opaque cosPiFree : BitVec 32 → BitVec 32

/-- A fresh value the spec does not state, drawn with the counter State.free (log 8). -/
opaque fresh : Nat → BitVec 64

/-- Bits [31:16] of sD after a VRED in FP16 or BF16, of the format code and the result's pattern: the spec states the
pattern alone (log 8). -/
opaque redHigh : Nat → Nat → BitVec 16

/-- Bytes of the root of trust and inventory that are outside the manual: identity, certificates, FRU contents
(R415, R419, R420): index space of the caller (log 9). -/
opaque secretByte : Nat → Nat → BitVec 8

/-- SLH-DSA verification of R417 and R422, a free predicate of key, message and signature (log 9). -/
opaque slhVerify : List (BitVec 8) → List (BitVec 8) → List (BitVec 8) → Bool

/-- The bytes of the two vendor public keys (R414). -/
opaque vendorByte : Bool → Nat → BitVec 8

/-- The boot code and helper data of the mask ROM (R414, R415). -/
opaque bootCode : List (BitVec 8)

/-- The module's identity public key (R415). -/
opaque identityKey : List (BitVec 8)

/-- The identity certificate (R419). -/
opaque identityCert : List (BitVec 8)

/-- The digest of the identity key that a certificate holds (R415). -/
opaque certDigest : List (BitVec 8) → BitVec 256

/-- The vendor key that signed the identity certificate: K1's or K0's (R419, R420). -/
opaque certKey : Bool

/-- The attestation certificate, signed anew at each cold reset (R415, R418). -/
opaque attestCert : Nat → List (BitVec 8)

/-- The bytes of a signature made in an epoch on a request (R420). -/
opaque signedByte : Nat → List Nat → Nat → BitVec 8

/-- The bytes that measurement 5 digests, of straps, DBG_OPEN and IDERR (R421). -/
opaque configImage : Nat → Bool → Bool → List (BitVec 8)

/-- Bytes that an SPDM chunk carries, as far as a transmission unit has room for them (R420). -/
opaque chunkBytes : Nat

/-- The board's serial number (R407). -/
opaque serial : Nat

/-- Holtermund's MIPI manufacturer code (R407). -/
opaque mipiCode : Nat

/-- CRC-64 of a flit's bytes: the manual names no polynomial for it, so a free function (R348, log 55). -/
opaque flitCrc : List (BitVec 8) → BitVec 64

/-- One step of the audit generator of R368, whose rule the manual leaves out (log 9). -/
opaque auditNext : BitVec 64 → BitVec 64

/-- Core sites of the module (R16). -/
def sites : Nat := 1568

/-- Core sites of one die (R15). -/
def sitesPerDie : Nat := 196

/-- Bytes of one HBM stack (R22). -/
def stackBytes : Nat := 0x1400000000

/-- Bytes of payload of a cue signal's packet on the mesh (R257, R289): not stated, free (log 51). -/
opaque cueBytes : Nat

end Sys2Proof.Config
end

