-- ==== Sys2Proof/Machine/RegMap.lean ====
section
/-! DEFINITION. The memory-mapped register map: every register and field of the spec's register tables with its
access code, reset value and level (R7, R9, R12, R60), and a name for each field.
Core-scope state registers that R249 and R308 place in the core control block stand at 0x200 + 4 x (number - 0x080). -/

namespace Sys2Proof.Machine

/-- Access codes of R7. A thread-0-written field of a core-scope state register is `rw` here: a write through the
control block counts as thread 0 (R249). -/
inductive Acc where
  | rw
  | ro
  | wo
  | w1c
  | w1s
  deriving DecidableEq, Repr

/-- A field of a register table row (R7): bits [hi:lo], reset value (R9), and whether its level is E (R12). -/
structure Fld where
  acc : Acc
  hi : Nat
  lo : Nat
  rst : Nat
  expert : Bool
  deriving DecidableEq, Repr

/-- A register, or an array of `count` registers `stride` bytes apart, at offset `base` of a die's register block. -/
structure RegRow where
  base : Nat
  stride : Nat
  count : Nat
  fields : List Fld
  deriving DecidableEq, Repr

/-- A named field: register offset and bits [hi:lo]. -/
structure RF where
  off : Nat
  hi : Nat
  lo : Nat
  deriving DecidableEq, Repr

/-- Curtain unit (R60, R452), die 0. -/
def curRegs : List RegRow :=
  [
  ⟨0x10000, 4, 1, [⟨.wo, 3, 3, 0, false⟩, ⟨.rw, 2, 2, 1, false⟩, ⟨.rw, 1, 0, 0, false⟩]⟩,
  ⟨0x10004, 4, 1, [⟨.ro, 9, 8, 0, false⟩, ⟨.ro, 5, 4, 0, false⟩, ⟨.ro, 3, 3, 0, false⟩, ⟨.ro, 0, 0, 0, false⟩]⟩,
  ⟨0x10008, 4, 1, [⟨.w1c, 3, 3, 0, false⟩, ⟨.w1c, 2, 2, 0, false⟩, ⟨.w1c, 1, 1, 0, false⟩, ⟨.w1c, 0, 0, 0, false⟩]⟩,
  ⟨0x1000C, 4, 1, [⟨.ro, 29, 0, 400000, false⟩]⟩,
  ⟨0x10010, 4, 1, [⟨.rw, 11, 8, 0, false⟩, ⟨.ro, 7, 4, 0, false⟩, ⟨.ro, 3, 0, 0, false⟩]⟩,
  ⟨0x10014, 4, 1, [⟨.ro, 31, 0, 0, false⟩]⟩,
  ⟨0x10018, 4, 1, [⟨.ro, 31, 0, 0, false⟩]⟩,
  ⟨0x1001C, 4, 1, [⟨.ro, 31, 0, 0, true⟩]⟩,
  ⟨0x10020, 4, 1, [⟨.ro, 31, 0, 0, true⟩]⟩,
  ⟨0x10024, 4, 1, [⟨.ro, 31, 0, 2147483648, false⟩]⟩,
  ⟨0x10028, 4, 1, [⟨.ro, 31, 0, 0, false⟩]⟩,
  ⟨0x1002C, 4, 1, [⟨.ro, 31, 0, 0, false⟩]⟩,
  ⟨0x1080C, 4, 1, [⟨.rw, 29, 0, 400000, false⟩]⟩]

/-- Box office (R60). -/
def boxRegs : List RegRow :=
  [
  ⟨0x20000, 4, 1, [⟨.rw, 0, 0, 0, false⟩]⟩,
  ⟨0x20004, 4, 1, [⟨.ro, 7, 0, 40, false⟩]⟩,
  ⟨0x20008, 4, 1, [⟨.ro, 31, 0, 477675520, true⟩]⟩,
  ⟨0x2000C, 4, 1, [⟨.ro, 31, 16, 7372, true⟩, ⟨.ro, 15, 0, 7372, true⟩]⟩,
  ⟨0x20010, 4, 1, [⟨.ro, 31, 0, 28224000, true⟩]⟩,
  ⟨0x20014, 4, 1, [⟨.ro, 31, 0, 3136000, true⟩]⟩,
  ⟨0x20018, 4, 1, [⟨.ro, 15, 0, 4096, true⟩]⟩,
  ⟨0x20020, 4, 8, [⟨.ro, 8, 0, 256, false⟩]⟩,
  ⟨0x20040, 4, 1, [⟨.ro, 17, 0, 0, false⟩]⟩,
  ⟨0x20044, 4, 1, [⟨.ro, 17, 0, 0, false⟩]⟩,
  ⟨0x20048, 4, 1, [⟨.rw, 3, 0, 0, true⟩]⟩,
  ⟨0x2004C, 4, 1, [⟨.ro, 17, 0, 0, true⟩]⟩,
  ⟨0x20050, 4, 1, [⟨.ro, 31, 0, 0, true⟩]⟩,
  ⟨0x20054, 4, 1, [⟨.ro, 31, 24, 0, false⟩, ⟨.ro, 23, 20, 0, false⟩, ⟨.ro, 11, 0, 0, false⟩]⟩,
  ⟨0x20058, 4, 1, [⟨.w1c, 2, 2, 0, false⟩, ⟨.w1c, 1, 1, 0, false⟩, ⟨.w1c, 0, 0, 0, false⟩]⟩,
  ⟨0x2005C, 4, 1, [⟨.wo, 11, 0, 0, false⟩]⟩,
  ⟨0x20804, 4, 1, [⟨.rw, 7, 0, 40, false⟩]⟩,
  ⟨0x20808, 4, 1, [⟨.rw, 31, 0, 477675520, true⟩]⟩,
  ⟨0x2080C, 4, 1, [⟨.rw, 31, 16, 7372, true⟩, ⟨.rw, 15, 0, 7372, true⟩]⟩,
  ⟨0x20810, 4, 1, [⟨.rw, 31, 0, 28224000, true⟩]⟩] ++ [
  ⟨0x20814, 4, 1, [⟨.rw, 31, 0, 3136000, true⟩]⟩,
  ⟨0x20818, 4, 1, [⟨.rw, 15, 0, 4096, true⟩]⟩,
  ⟨0x20820, 4, 8, [⟨.rw, 8, 0, 256, false⟩]⟩]

/-- Callboard (R87). -/
def cbRegs : List RegRow :=
  [
  ⟨0x30000, 4, 1, [⟨.ro, 31, 31, 0, false⟩, ⟨.wo, 27, 24, 0, false⟩, ⟨.rw, 17, 0, 0, false⟩]⟩,
  ⟨0x30004, 4, 1, [⟨.ro, 7, 0, 0, false⟩]⟩,
  ⟨0x30008, 4, 1, [⟨.rw, 31, 6, 0, true⟩]⟩,
  ⟨0x3000C, 4, 1, [⟨.rw, 31, 0, 0, true⟩]⟩,
  ⟨0x30010, 4, 1, [⟨.ro, 31, 16, 0, true⟩, ⟨.rw, 15, 0, 1, true⟩]⟩,
  ⟨0x30014, 4, 1, [⟨.ro, 31, 16, 0, false⟩, ⟨.ro, 15, 0, 0, false⟩]⟩,
  ⟨0x30040, 4, 16, [⟨.rw, 31, 0, 0, false⟩]⟩]

/-- Intake (R87). -/
def itkRegs : List RegRow :=
  [
  ⟨0x40000, 4, 1, [⟨.rw, 0, 0, 0, false⟩]⟩,
  ⟨0x40004, 4, 1, [⟨.rw, 31, 0, 8388608, true⟩]⟩,
  ⟨0x40008, 4, 1, [⟨.ro, 31, 0, 0, true⟩]⟩,
  ⟨0x4000C, 4, 1, [⟨.rw, 3, 0, 0, true⟩]⟩,
  ⟨0x40010, 4, 1, [⟨.ro, 31, 0, 0, true⟩]⟩,
  ⟨0x40014, 4, 1, [⟨.w1c, 4, 4, 0, false⟩, ⟨.w1c, 3, 3, 0, false⟩, ⟨.w1c, 2, 2, 0, false⟩, ⟨.w1c, 1, 1, 0, false⟩, ⟨.w1c, 0, 0, 0, false⟩]⟩,
  ⟨0x40018, 4, 1, [⟨.ro, 2, 0, 0, false⟩]⟩,
  ⟨0x40100, 32, 8, [⟨.rw, 31, 12, 0, false⟩]⟩,
  ⟨0x40104, 32, 8, [⟨.rw, 31, 0, 0, false⟩]⟩,
  ⟨0x40108, 32, 8, [⟨.rw, 31, 31, 0, false⟩, ⟨.rw, 13, 8, 0, false⟩, ⟨.rw, 4, 0, 7, false⟩]⟩,
  ⟨0x4010C, 32, 8, [⟨.rw, 31, 0, 0, false⟩]⟩,
  ⟨0x40110, 32, 8, [⟨.ro, 31, 0, 0, false⟩]⟩]

/-- Stream director (R87). -/
def sdRegs : List RegRow :=
  [
  ⟨0x50000, 4, 1, [⟨.ro, 15, 0, 0, false⟩]⟩,
  ⟨0x50004, 4, 1, [⟨.ro, 31, 16, 0, false⟩, ⟨.ro, 15, 0, 0, false⟩]⟩,
  ⟨0x50008, 4, 1, [⟨.ro, 17, 0, 0, false⟩]⟩,
  ⟨0x5000C, 4, 1, [⟨.w1c, 1, 1, 0, false⟩, ⟨.w1c, 0, 0, 0, false⟩]⟩]

/-- Egress (R87). -/
def egrRegs : List RegRow :=
  [
  ⟨0x60000, 4, 1, [⟨.rw, 31, 31, 0, false⟩, ⟨.rw, 13, 0, 1000, true⟩]⟩,
  ⟨0x60004, 4, 1, [⟨.ro, 31, 0, 0, true⟩]⟩,
  ⟨0x60008, 4, 1, [⟨.ro, 31, 0, 0, false⟩]⟩,
  ⟨0x6000C, 4, 1, [⟨.w1c, 3, 3, 0, false⟩, ⟨.w1c, 2, 2, 0, false⟩, ⟨.w1c, 1, 1, 0, false⟩, ⟨.w1c, 0, 0, 0, false⟩]⟩,
  ⟨0x60100, 32, 64, [⟨.rw, 31, 12, 0, false⟩]⟩,
  ⟨0x60104, 32, 64, [⟨.rw, 31, 0, 0, false⟩]⟩,
  ⟨0x60108, 32, 64, [⟨.rw, 31, 31, 0, false⟩, ⟨.rw, 26, 16, 0, false⟩, ⟨.rw, 15, 15, 0, false⟩, ⟨.rw, 13, 8, 0, false⟩, ⟨.rw, 4, 0, 6, false⟩]⟩,
  ⟨0x6010C, 32, 64, [⟨.rw, 31, 0, 0, false⟩]⟩,
  ⟨0x60110, 32, 64, [⟨.ro, 31, 0, 0, false⟩]⟩,
  ⟨0x60114, 32, 64, [⟨.rw, 31, 4, 0, false⟩]⟩,
  ⟨0x60118, 32, 64, [⟨.rw, 31, 0, 0, false⟩]⟩]

/-- Core control block, offsets within the block (R111, R249, R308, R309, R323, R345). -/
def coreRegs : List RegRow :=
  [
  ⟨0x0, 4, 1, [⟨.ro, 31, 30, 0, false⟩, ⟨.ro, 21, 11, 0, false⟩, ⟨.ro, 10, 0, 0, false⟩]⟩,
  ⟨0x4, 4, 1, [⟨.rw, 12, 12, 1, true⟩, ⟨.rw, 11, 11, 0, true⟩, ⟨.rw, 9, 8, 0, true⟩, ⟨.wo, 7, 4, 0, true⟩, ⟨.rw, 3, 0, 15, true⟩]⟩,
  ⟨0x8, 4, 1, [⟨.w1c, 17, 17, 0, false⟩, ⟨.w1c, 16, 16, 0, false⟩, ⟨.ro, 11, 8, 0, false⟩, ⟨.ro, 7, 0, 0, false⟩]⟩,
  ⟨0xC, 4, 1, [⟨.rw, 31, 0, 0, false⟩]⟩,
  ⟨0x10, 4, 1, [⟨.w1s, 3, 0, 0, false⟩]⟩,
  ⟨0x14, 4, 1, [⟨.rw, 29, 24, 0, true⟩, ⟨.rw, 21, 16, 0, true⟩, ⟨.rw, 13, 8, 0, true⟩, ⟨.rw, 5, 0, 0, true⟩]⟩,
  ⟨0x18, 4, 1, [⟨.rw, 31, 16, 0, true⟩, ⟨.rw, 15, 0, 0, true⟩]⟩,
  ⟨0x1C, 4, 1, [⟨.rw, 31, 16, 0, true⟩, ⟨.rw, 15, 0, 0, true⟩]⟩,
  ⟨0x20, 4, 1, [⟨.ro, 31, 0, 0, true⟩]⟩,
  ⟨0x24, 4, 1, [⟨.ro, 31, 0, 0, true⟩]⟩,
  ⟨0x28, 4, 1, [⟨.ro, 31, 0, 0, true⟩]⟩,
  ⟨0x400, 4, 256, [⟨.rw, 7, 7, 0, true⟩, ⟨.rw, 6, 6, 0, true⟩, ⟨.rw, 5, 0, 0, true⟩]⟩,
  ⟨0x800, 4, 64, [⟨.rw, 15, 0, 0, true⟩]⟩,
  ⟨0x900, 4, 4, [⟨.rw, 31, 31, 0, true⟩, ⟨.rw, 5, 0, 0, true⟩]⟩,
  ⟨0x910, 4, 1, [⟨.ro, 31, 30, 0, false⟩, ⟨.ro, 21, 16, 0, false⟩, ⟨.ro, 5, 0, 0, false⟩]⟩,
  ⟨0x914, 4, 1, [⟨.w1c, 1, 1, 0, false⟩, ⟨.w1c, 0, 0, 0, false⟩]⟩,
  ⟨0xA00, 64, 2, [⟨.rw, 19, 11, 256, true⟩, ⟨.rw, 10, 5, 0, true⟩, ⟨.rw, 4, 2, 3, true⟩, ⟨.rw, 1, 0, 0, true⟩]⟩,
  ⟨0xA04, 64, 2, [⟨.rw, 19, 0, 400, true⟩]⟩,
  ⟨0xA08, 64, 2, [⟨.ro, 31, 31, 0, false⟩, ⟨.w1c, 30, 30, 0, false⟩, ⟨.ro, 29, 29, 0, false⟩, ⟨.ro, 28, 26, 0, false⟩, ⟨.ro, 25, 25, 0, false⟩, ⟨.ro, 24, 21, 0, false⟩, ⟨.ro, 17, 16, 0, false⟩, ⟨.ro, 15, 0, 0, false⟩]⟩,
  ⟨0xA0C, 64, 2, [⟨.ro, 15, 0, 65535, false⟩]⟩] ++ [
  ⟨0xA10, 64, 2, [⟨.ro, 31, 0, 0, false⟩]⟩,
  ⟨0xA14, 64, 2, [⟨.ro, 31, 0, 0, false⟩]⟩,
  ⟨0xA18, 64, 2, [⟨.ro, 31, 0, 0, false⟩]⟩,
  ⟨0xA1C, 64, 2, [⟨.wo, 1, 0, 0, false⟩]⟩,
  ⟨0x2C, 4, 1, [⟨.rw, 31, 16, 0, true⟩, ⟨.w1c, 15, 12, 0, true⟩, ⟨.wo, 11, 8, 0, true⟩, ⟨.wo, 7, 4, 0, true⟩]⟩,
  ⟨0x1000, 4, 1, [⟨.w1c, 16, 16, 0, true⟩, ⟨.ro, 15, 12, 0, true⟩, ⟨.wo, 11, 8, 0, true⟩, ⟨.wo, 7, 4, 0, true⟩, ⟨.wo, 3, 0, 0, true⟩]⟩,
  ⟨0x1004, 4, 1, [⟨.ro, 15, 0, 0, true⟩]⟩,
  ⟨0x1010, 4, 4, [⟨.rw, 31, 31, 0, true⟩, ⟨.rw, 19, 16, 0, true⟩, ⟨.rw, 15, 0, 0, true⟩]⟩,
  ⟨0x1020, 4, 1, [⟨.rw, 21, 20, 0, true⟩, ⟨.rw, 19, 16, 0, true⟩, ⟨.rw, 9, 0, 0, true⟩]⟩,
  ⟨0x1024, 4, 1, [⟨.rw, 31, 0, 0, true⟩]⟩,
  ⟨0x200, 4, 1, [⟨.rw, 31, 0, 4294967295, true⟩]⟩,
  ⟨0x204, 4, 1, [⟨.rw, 15, 0, 0, true⟩]⟩,
  ⟨0x208, 4, 1, [⟨.rw, 31, 0, 0, false⟩]⟩,
  ⟨0x20C, 4, 1, [⟨.ro, 2, 0, 0, false⟩]⟩,
  ⟨0x210, 4, 1, [⟨.ro, 3, 3, 0, true⟩, ⟨.wo, 2, 2, 0, true⟩, ⟨.wo, 1, 1, 0, true⟩, ⟨.rw, 0, 0, 0, true⟩]⟩,
  ⟨0x214, 4, 1, [⟨.rw, 31, 0, 0, false⟩]⟩,
  ⟨0x240, 16, 8, [⟨.rw, 31, 31, 0, true⟩, ⟨.rw, 30, 29, 0, true⟩, ⟨.rw, 28, 16, 0, true⟩, ⟨.rw, 12, 0, 0, true⟩]⟩,
  ⟨0x244, 16, 8, [⟨.ro, 28, 16, 0, false⟩, ⟨.ro, 12, 0, 0, false⟩]⟩,
  ⟨0x248, 16, 8, [⟨.ro, 31, 31, 0, false⟩, ⟨.ro, 29, 16, 0, false⟩, ⟨.ro, 13, 0, 0, false⟩]⟩,
  ⟨0x24C, 16, 8, [⟨.wo, 31, 31, 0, false⟩, ⟨.wo, 13, 0, 0, false⟩]⟩] ++ [
  ⟨0x300, 8, 8, [⟨.rw, 31, 31, 0, true⟩, ⟨.ro, 30, 30, 0, false⟩, ⟨.rw, 29, 29, 0, true⟩, ⟨.rw, 28, 28, 0, true⟩, ⟨.rw, 27, 26, 0, true⟩, ⟨.rw, 25, 20, 0, true⟩, ⟨.rw, 19, 17, 0, true⟩]⟩,
  ⟨0x304, 8, 8, [⟨.ro, 31, 16, 0, false⟩, ⟨.ro, 15, 0, 0, false⟩]⟩,
  ⟨0x340, 4, 1, [⟨.rw, 31, 30, 0, true⟩, ⟨.rw, 29, 29, 0, true⟩, ⟨.rw, 27, 22, 1, true⟩, ⟨.rw, 15, 0, 1, true⟩]⟩,
  ⟨0x344, 4, 1, [⟨.ro, 31, 16, 0, false⟩, ⟨.ro, 15, 0, 0, false⟩]⟩]

/-- Site map (R114). -/
def siteRegs : List RegRow :=
  [
  ⟨0x70000, 4, 14, [⟨.ro, 13, 0, 0, false⟩]⟩,
  ⟨0x70040, 4, 14, [⟨.ro, 13, 0, 0, false⟩]⟩,
  ⟨0x70080, 4, 14, [⟨.ro, 13, 0, 0, false⟩]⟩,
  ⟨0x700C0, 4, 1, [⟨.ro, 23, 16, 0, false⟩, ⟨.ro, 15, 8, 0, false⟩, ⟨.ro, 7, 0, 0, false⟩]⟩,
  ⟨0x700C4, 4, 1, [⟨.ro, 31, 30, 0, false⟩, ⟨.ro, 29, 29, 0, false⟩, ⟨.ro, 10, 0, 0, false⟩]⟩]

/-- Update engine (R226). -/
def updRegs : List RegRow :=
  [
  ⟨0x80000, 4, 1, [⟨.rw, 0, 0, 0, false⟩]⟩,
  ⟨0x80004, 4, 1, [⟨.ro, 31, 31, 0, false⟩, ⟨.wo, 27, 24, 0, false⟩, ⟨.rw, 9, 0, 0, false⟩]⟩,
  ⟨0x80008, 4, 1, [⟨.ro, 7, 0, 0, false⟩]⟩,
  ⟨0x8000C, 4, 1, [⟨.ro, 31, 0, 0, false⟩]⟩,
  ⟨0x80010, 4, 1, [⟨.ro, 31, 0, 0, false⟩]⟩,
  ⟨0x80014, 4, 1, [⟨.ro, 31, 16, 0, false⟩, ⟨.ro, 15, 0, 0, false⟩]⟩,
  ⟨0x80018, 4, 1, [⟨.ro, 31, 28, 0, false⟩, ⟨.ro, 9, 0, 0, false⟩]⟩,
  ⟨0x8001C, 4, 1, [⟨.w1c, 2, 2, 0, false⟩, ⟨.w1c, 1, 1, 0, false⟩, ⟨.w1c, 0, 0, 0, false⟩]⟩,
  ⟨0x80020, 4, 1, [⟨.rw, 3, 0, 0, true⟩]⟩,
  ⟨0x80024, 4, 1, [⟨.ro, 31, 0, 0, true⟩]⟩,
  ⟨0x80028, 4, 1, [⟨.rw, 5, 5, 0, true⟩, ⟨.rw, 4, 0, 0, true⟩]⟩,
  ⟨0x8002C, 4, 1, [⟨.rw, 31, 0, 0, true⟩]⟩,
  ⟨0x80040, 4, 32, [⟨.rw, 31, 0, 0, false⟩]⟩]

/-- Mesh and program-memory copy (R272). -/
def mshRegs : List RegRow :=
  [
  ⟨0x90000, 4, 1, [⟨.rw, 0, 0, 1, true⟩]⟩,
  ⟨0x90004, 4, 1, [⟨.rw, 15, 0, 20, true⟩]⟩,
  ⟨0x90008, 4, 1, [⟨.ro, 31, 16, 0, false⟩, ⟨.ro, 15, 0, 0, false⟩]⟩,
  ⟨0x9000C, 4, 1, [⟨.w1c, 2, 2, 0, false⟩, ⟨.w1c, 1, 1, 0, false⟩, ⟨.w1c, 0, 0, 0, false⟩]⟩,
  ⟨0x90010, 4, 1, [⟨.ro, 31, 0, 0, false⟩]⟩,
  ⟨0x90014, 4, 1, [⟨.ro, 31, 0, 0, false⟩]⟩,
  ⟨0x90018, 4, 1, [⟨.ro, 31, 0, 0, true⟩]⟩,
  ⟨0x9001C, 4, 1, [⟨.ro, 31, 0, 0, true⟩]⟩,
  ⟨0x90040, 4, 1, [⟨.ro, 31, 31, 0, true⟩, ⟨.wo, 27, 24, 0, true⟩, ⟨.rw, 23, 23, 0, true⟩, ⟨.rw, 10, 0, 0, true⟩]⟩,
  ⟨0x90044, 4, 1, [⟨.rw, 31, 6, 0, true⟩]⟩,
  ⟨0x90048, 4, 1, [⟨.rw, 31, 0, 0, true⟩]⟩,
  ⟨0x9004C, 4, 1, [⟨.rw, 26, 16, 1, true⟩, ⟨.rw, 9, 0, 0, true⟩]⟩,
  ⟨0x90050, 4, 1, [⟨.ro, 31, 16, 0, true⟩, ⟨.ro, 7, 0, 0, true⟩]⟩]

/-- HBM controller (R272). -/
def hbcRegs : List RegRow :=
  [
  ⟨0xA0000, 4, 1, [⟨.ro, 1, 1, 0, false⟩, ⟨.ro, 0, 0, 0, false⟩]⟩,
  ⟨0xA0004, 4, 1, [⟨.rw, 8, 8, 1, true⟩, ⟨.rw, 7, 0, 64, true⟩]⟩,
  ⟨0xA0008, 4, 1, [⟨.ro, 31, 0, 0, false⟩]⟩,
  ⟨0xA000C, 4, 1, [⟨.ro, 31, 0, 0, false⟩]⟩,
  ⟨0xA0010, 4, 1, [⟨.ro, 31, 6, 0, false⟩]⟩,
  ⟨0xA0014, 4, 1, [⟨.ro, 31, 0, 0, false⟩]⟩,
  ⟨0xA0018, 4, 1, [⟨.ro, 31, 0, 0, true⟩]⟩,
  ⟨0xA001C, 4, 1, [⟨.ro, 31, 0, 0, true⟩]⟩,
  ⟨0xA0020, 4, 1, [⟨.w1c, 1, 1, 0, false⟩, ⟨.w1c, 0, 0, 0, false⟩]⟩]

/-- Bulk DMA (R324). -/
def bdmaRegs : List RegRow :=
  [
  ⟨0xC0000, 4, 1, [⟨.w1s, 31, 0, 0, true⟩]⟩,
  ⟨0xC0004, 4, 1, [⟨.w1c, 31, 16, 0, false⟩, ⟨.w1c, 15, 0, 0, false⟩]⟩,
  ⟨0xC0008, 4, 1, [⟨.w1c, 15, 0, 0, false⟩]⟩,
  ⟨0xC0100, 64, 16, [⟨.rw, 31, 6, 0, true⟩]⟩,
  ⟨0xC0104, 64, 16, [⟨.rw, 31, 0, 0, true⟩]⟩,
  ⟨0xC0108, 64, 16, [⟨.rw, 31, 31, 0, true⟩, ⟨.rw, 30, 30, 0, true⟩, ⟨.rw, 29, 24, 0, true⟩, ⟨.rw, 23, 15, 256, true⟩, ⟨.rw, 14, 10, 0, true⟩, ⟨.rw, 9, 7, 3, true⟩, ⟨.rw, 6, 5, 0, true⟩, ⟨.rw, 4, 0, 4, true⟩]⟩,
  ⟨0xC010C, 64, 16, [⟨.rw, 31, 0, 0, true⟩]⟩,
  ⟨0xC0110, 64, 16, [⟨.ro, 31, 0, 0, false⟩]⟩,
  ⟨0xC0114, 64, 16, [⟨.rw, 19, 0, 100000, true⟩]⟩,
  ⟨0xC0118, 64, 16, [⟨.ro, 31, 31, 0, false⟩, ⟨.ro, 30, 30, 0, false⟩, ⟨.ro, 4, 4, 0, false⟩, ⟨.ro, 3, 0, 0, false⟩]⟩,
  ⟨0xC011C, 64, 16, [⟨.ro, 31, 0, 0, false⟩]⟩,
  ⟨0xC0120, 64, 16, [⟨.ro, 31, 0, 0, false⟩]⟩,
  ⟨0xC0124, 64, 16, [⟨.ro, 31, 0, 0, false⟩]⟩,
  ⟨0xC0128, 64, 16, [⟨.wo, 1, 0, 0, false⟩]⟩]

/-- Event gatherer (R340). -/
def evgRegs : List RegRow :=
  [
  ⟨0xB0000, 4, 1, [⟨.rw, 0, 0, 0, false⟩]⟩,
  ⟨0xB0004, 4, 1, [⟨.w1c, 0, 0, 0, false⟩]⟩,
  ⟨0xB0100, 4, 8, [⟨.rw, 31, 31, 0, false⟩, ⟨.rw, 10, 0, 0, false⟩]⟩,
  ⟨0xB0200, 4, 64, [⟨.ro, 28, 24, 23, true⟩, ⟨.rw, 23, 0, 0, false⟩]⟩,
  ⟨0xB0300, 8, 24, [⟨.rw, 31, 31, 0, false⟩, ⟨.ro, 28, 24, 0, false⟩, ⟨.ro, 20, 16, 16, false⟩, ⟨.ro, 9, 0, 0, false⟩]⟩,
  ⟨0xB0304, 8, 24, [⟨.wo, 31, 0, 0, false⟩]⟩,
  ⟨0xB0400, 4, 64, [⟨.ro, 31, 31, 0, false⟩, ⟨.rw, 15, 0, 0, false⟩]⟩,
  ⟨0xB0500, 4, 32, [⟨.ro, 31, 0, 0, true⟩]⟩,
  ⟨0xB0600, 4, 1, [⟨.wo, 9, 0, 0, false⟩]⟩,
  ⟨0xB1000, 4, 1024, [⟨.rw, 31, 31, 0, false⟩, ⟨.w1c, 30, 30, 0, false⟩, ⟨.rw, 19, 16, 15, false⟩, ⟨.rw, 13, 8, 0, false⟩]⟩]

/-- Management, root of trust, power, rehearsal (18, R345, R440), die 0. -/
def mgtRegs : List RegRow :=
  [
  ⟨0x12F000, 4, 1, [⟨.rw, 31, 0, 0, true⟩]⟩,
  ⟨0x12F004, 4, 1, [⟨.rw, 31, 0, 0, true⟩]⟩,
  ⟨0x12F008, 4, 1, [⟨.w1c, 1, 1, 0, true⟩, ⟨.ro, 0, 0, 0, true⟩]⟩,
  ⟨0x100000, 4, 1, [⟨.ro, 2, 2, 0, false⟩, ⟨.ro, 1, 1, 0, false⟩, ⟨.ro, 0, 0, 0, false⟩]⟩,
  ⟨0x100004, 4, 1, [⟨.ro, 31, 31, 0, false⟩, ⟨.wo, 1, 0, 0, false⟩]⟩,
  ⟨0x100008, 4, 1, [⟨.ro, 7, 0, 0, false⟩]⟩,
  ⟨0x10000C, 4, 1, [⟨.rw, 21, 16, 0, false⟩]⟩,
  ⟨0x100010, 4, 1, [⟨.ro, 31, 0, 0, false⟩]⟩,
  ⟨0x100014, 4, 1, [⟨.ro, 31, 0, 0, false⟩]⟩,
  ⟨0x100018, 4, 1, [⟨.wo, 31, 0, 0, false⟩]⟩,
  ⟨0x10001C, 4, 1, [⟨.w1c, 2, 2, 0, false⟩, ⟨.w1c, 1, 1, 0, false⟩, ⟨.w1c, 0, 0, 0, false⟩]⟩,
  ⟨0x108000, 4, 1, [⟨.ro, 15, 8, 0, false⟩, ⟨.ro, 3, 3, 0, false⟩, ⟨.ro, 2, 2, 0, false⟩, ⟨.ro, 1, 1, 0, false⟩, ⟨.ro, 0, 0, 0, false⟩]⟩,
  ⟨0x108004, 4, 1, [⟨.wo, 1, 0, 0, true⟩]⟩,
  ⟨0x108010, 4, 8, [⟨.ro, 31, 0, 0, true⟩]⟩,
  ⟨0x108030, 4, 1, [⟨.w1c, 1, 1, 0, false⟩, ⟨.w1c, 0, 0, 0, false⟩]⟩,
  ⟨0x10C000, 4, 1, [⟨.ro, 31, 28, 0, false⟩, ⟨.ro, 3, 3, 0, false⟩, ⟨.ro, 2, 2, 0, false⟩, ⟨.ro, 1, 0, 0, false⟩]⟩,
  ⟨0x10C004, 4, 1, [⟨.wo, 9, 8, 0, true⟩, ⟨.rw, 1, 0, 0, false⟩]⟩,
  ⟨0x10C008, 4, 1, [⟨.rw, 10, 0, 1300, true⟩]⟩,
  ⟨0x10C00C, 4, 1, [⟨.ro, 13, 0, 10000, false⟩]⟩,
  ⟨0x10C010, 4, 1, [⟨.ro, 31, 16, 0, false⟩, ⟨.ro, 15, 0, 0, false⟩]⟩] ++ [
  ⟨0x10C014, 4, 1, [⟨.w1c, 6, 6, 0, false⟩, ⟨.w1c, 5, 5, 0, false⟩, ⟨.w1c, 4, 4, 0, false⟩, ⟨.w1c, 3, 3, 0, false⟩, ⟨.w1c, 2, 2, 0, false⟩, ⟨.w1c, 1, 1, 0, false⟩, ⟨.w1c, 0, 0, 0, false⟩]⟩]

/-- Fabric port (R362). -/
def alfRegs : List RegRow :=
  [
  ⟨0xD0000, 4, 1, [⟨.wo, 1, 1, 0, true⟩, ⟨.rw, 0, 0, 0, false⟩]⟩,
  ⟨0xD0004, 4, 1, [⟨.ro, 31, 16, 0, false⟩, ⟨.ro, 4, 1, 0, false⟩, ⟨.ro, 0, 0, 0, false⟩]⟩,
  ⟨0xD0008, 4, 1, [⟨.rw, 11, 0, 0, false⟩]⟩,
  ⟨0xD000C, 4, 1, [⟨.rw, 15, 0, 100, false⟩]⟩,
  ⟨0xD0010, 4, 1, [⟨.rw, 9, 0, 100, true⟩]⟩,
  ⟨0xD0014, 4, 1, [⟨.rw, 9, 0, 200, true⟩]⟩,
  ⟨0xD0018, 4, 1, [⟨.rw, 1, 1, 0, false⟩, ⟨.rw, 0, 0, 0, false⟩]⟩,
  ⟨0xD001C, 4, 1, [⟨.ro, 15, 0, 0, true⟩]⟩,
  ⟨0xD0020, 4, 1, [⟨.ro, 31, 0, 0, false⟩]⟩,
  ⟨0xD0024, 4, 1, [⟨.w1c, 6, 6, 0, false⟩, ⟨.w1c, 5, 5, 0, false⟩, ⟨.w1c, 4, 4, 0, false⟩, ⟨.w1c, 3, 3, 0, false⟩, ⟨.w1c, 2, 2, 0, false⟩, ⟨.w1c, 1, 1, 0, false⟩, ⟨.w1c, 0, 0, 0, false⟩]⟩,
  ⟨0xD0028, 4, 1, [⟨.ro, 31, 0, 0, false⟩]⟩,
  ⟨0xD002C, 4, 1, [⟨.ro, 31, 0, 0, false⟩]⟩,
  ⟨0xD0030, 4, 1, [⟨.rw, 3, 0, 0, true⟩]⟩,
  ⟨0xD0034, 4, 1, [⟨.ro, 31, 0, 0, true⟩]⟩,
  ⟨0xD0040, 16, 4, [⟨.rw, 31, 6, 0, true⟩]⟩,
  ⟨0xD0044, 16, 4, [⟨.rw, 0, 0, 0, true⟩]⟩,
  ⟨0xD0048, 16, 4, [⟨.rw, 31, 6, 0, true⟩]⟩,
  ⟨0xD004C, 16, 4, [⟨.rw, 19, 10, 0, true⟩, ⟨.rw, 9, 0, 0, true⟩]⟩,
  ⟨0xD0100, 4, 64, [⟨.rw, 31, 31, 0, true⟩, ⟨.rw, 29, 24, 0, true⟩, ⟨.rw, 23, 12, 0, true⟩, ⟨.rw, 11, 0, 0, true⟩]⟩]

/-- Ledger (R388). -/
def lgrRegs : List RegRow :=
  [
  ⟨0xE0000, 4, 1, [⟨.rw, 31, 31, 0, false⟩, ⟨.rw, 4, 0, 18, false⟩]⟩,
  ⟨0xE0004, 4, 1, [⟨.rw, 31, 6, 0, false⟩]⟩,
  ⟨0xE0008, 4, 1, [⟨.rw, 31, 0, 0, false⟩]⟩,
  ⟨0xE000C, 4, 1, [⟨.ro, 31, 0, 0, false⟩]⟩,
  ⟨0xE0010, 4, 1, [⟨.rw, 31, 0, 0, false⟩]⟩,
  ⟨0xE0014, 4, 1, [⟨.ro, 31, 0, 0, false⟩]⟩,
  ⟨0xE0018, 4, 1, [⟨.w1c, 2, 2, 0, false⟩, ⟨.w1c, 1, 1, 0, false⟩, ⟨.w1c, 0, 0, 0, false⟩]⟩]

/-- Integrity (R388). -/
def chkRegs : List RegRow :=
  [
  ⟨0xF0000, 4, 1, [⟨.rw, 0, 0, 1, true⟩]⟩,
  ⟨0xF0004, 4, 1, [⟨.ro, 3, 0, 4, false⟩]⟩,
  ⟨0xF0008, 4, 1, [⟨.ro, 31, 0, 16859136, true⟩]⟩,
  ⟨0xF000C, 4, 1, [⟨.rw, 3, 0, 3, true⟩]⟩,
  ⟨0xF0010, 4, 1, [⟨.rw, 31, 6, 0, true⟩]⟩,
  ⟨0xF0014, 4, 1, [⟨.rw, 31, 0, 0, true⟩]⟩,
  ⟨0xF0018, 4, 1, [⟨.rw, 31, 0, 0, true⟩]⟩,
  ⟨0xF001C, 4, 1, [⟨.rw, 31, 0, 0, true⟩]⟩,
  ⟨0xF0020, 4, 1, [⟨.ro, 31, 16, 0, false⟩, ⟨.ro, 7, 0, 0, false⟩]⟩,
  ⟨0xF0024, 4, 1, [⟨.w1c, 10, 10, 0, false⟩, ⟨.w1c, 9, 9, 0, false⟩, ⟨.w1c, 8, 8, 0, false⟩, ⟨.w1c, 7, 7, 0, false⟩, ⟨.w1c, 6, 6, 0, false⟩, ⟨.w1c, 5, 5, 0, false⟩, ⟨.w1c, 4, 4, 0, false⟩, ⟨.w1c, 3, 3, 0, false⟩, ⟨.w1c, 2, 2, 0, false⟩, ⟨.w1c, 1, 1, 0, false⟩, ⟨.w1c, 0, 0, 0, false⟩]⟩,
  ⟨0xF0028, 4, 1, [⟨.ro, 31, 28, 0, false⟩, ⟨.ro, 10, 0, 0, false⟩]⟩,
  ⟨0xF002C, 4, 1, [⟨.ro, 17, 0, 0, false⟩]⟩,
  ⟨0xF0030, 4, 1, [⟨.rw, 3, 0, 0, true⟩]⟩,
  ⟨0xF0034, 4, 1, [⟨.ro, 31, 0, 0, true⟩]⟩,
  ⟨0xF0804, 4, 1, [⟨.rw, 3, 0, 4, false⟩]⟩,
  ⟨0xF0808, 4, 1, [⟨.rw, 31, 0, 16859136, true⟩]⟩]

/-- Host interface and settings sets (R404, R452), die 0. -/
def cfgRegs : List RegRow :=
  [
  ⟨0x120000, 4, 1, [⟨.ro, 9, 9, 0, false⟩, ⟨.ro, 8, 4, 0, false⟩, ⟨.ro, 3, 0, 0, false⟩]⟩,
  ⟨0x120004, 4, 1, [⟨.rw, 2, 0, 0, true⟩]⟩,
  ⟨0x120008, 4, 1, [⟨.rw, 9, 0, 0, true⟩]⟩,
  ⟨0x120010, 4, 1, [⟨.ro, 31, 31, 0, false⟩, ⟨.wo, 1, 0, 0, false⟩]⟩,
  ⟨0x120014, 4, 1, [⟨.w1c, 9, 9, 0, false⟩, ⟨.ro, 8, 8, 0, false⟩, ⟨.ro, 7, 0, 0, false⟩]⟩,
  ⟨0x120018, 4, 1, [⟨.ro, 31, 0, 0, false⟩]⟩,
  ⟨0x12001C, 4, 1, [⟨.ro, 31, 0, 0, false⟩]⟩,
  ⟨0x120020, 4, 1, [⟨.ro, 3, 0, 3, false⟩]⟩,
  ⟨0x120040, 4, 1, [⟨.ro, 31, 31, 0, false⟩, ⟨.wo, 27, 24, 0, false⟩, ⟨.ro, 23, 16, 0, false⟩, ⟨.rw, 11, 0, 0, false⟩]⟩,
  ⟨0x120048, 4, 1, [⟨.ro, 31, 31, 0, true⟩, ⟨.wo, 27, 24, 0, true⟩, ⟨.ro, 23, 16, 0, true⟩, ⟨.rw, 14, 12, 0, true⟩, ⟨.rw, 7, 0, 0, true⟩]⟩,
  ⟨0x12004C, 4, 1, [⟨.rw, 31, 0, 0, true⟩]⟩,
  ⟨0x120060, 4, 1, [⟨.ro, 31, 31, 0, false⟩, ⟨.ro, 30, 30, 0, false⟩, ⟨.wo, 27, 24, 0, false⟩, ⟨.ro, 23, 16, 0, false⟩, ⟨.rw, 13, 8, 0, false⟩, ⟨.rw, 5, 0, 0, false⟩]⟩,
  ⟨0x120064, 4, 1, [⟨.rw, 5, 5, 0, false⟩, ⟨.rw, 4, 4, 0, false⟩, ⟨.rw, 3, 3, 0, false⟩, ⟨.rw, 2, 0, 0, false⟩]⟩,
  ⟨0x120068, 4, 1, [⟨.rw, 31, 12, 0, false⟩]⟩,
  ⟨0x12006C, 4, 1, [⟨.rw, 31, 0, 0, false⟩]⟩,
  ⟨0x120070, 4, 1, [⟨.rw, 31, 12, 0, false⟩, ⟨.rw, 3, 3, 0, false⟩, ⟨.rw, 2, 2, 0, false⟩, ⟨.rw, 1, 1, 0, false⟩, ⟨.rw, 0, 0, 0, false⟩]⟩,
  ⟨0x120074, 4, 1, [⟨.rw, 31, 0, 0, false⟩]⟩,
  ⟨0x120100, 4, 32, [⟨.rw, 31, 0, 0, false⟩]⟩,
  ⟨0x120080, 4, 1, [⟨.ro, 3, 0, 0, false⟩]⟩,
  ⟨0x120820, 4, 1, [⟨.rw, 3, 0, 3, false⟩]⟩]

abbrev CUR_CTRL_ARM : RF := ⟨0x10000, 3, 3⟩
abbrev CUR_CTRL_OUT_EN : RF := ⟨0x10000, 2, 2⟩
abbrev CUR_CTRL_SRC : RF := ⟨0x10000, 1, 0⟩
abbrev CUR_STATUS_MISS_CNT : RF := ⟨0x10004, 9, 8⟩
abbrev CUR_STATUS_ACT_SRC : RF := ⟨0x10004, 5, 4⟩
abbrev CUR_STATUS_FALLBACK : RF := ⟨0x10004, 3, 3⟩
abbrev CUR_STATUS_RUN : RF := ⟨0x10004, 0, 0⟩
abbrev CUR_EVENT_LATE : RF := ⟨0x10008, 3, 3⟩
abbrev CUR_EVENT_FALLBACK : RF := ⟨0x10008, 2, 2⟩
abbrev CUR_EVENT_PERIOD_ERR : RF := ⟨0x10008, 1, 1⟩
abbrev CUR_EVENT_MISS : RF := ⟨0x10008, 0, 0⟩
abbrev CUR_PERIOD_PERIOD : RF := ⟨0x1000C, 29, 0⟩
abbrev CUR_CLK_CAP : RF := ⟨0x10010, 11, 8⟩
abbrev CUR_CLK_NEXT : RF := ⟨0x10010, 7, 4⟩
abbrev CUR_CLK_CUR : RF := ⟨0x10010, 3, 0⟩
abbrev CUR_FRAME_LO_FRAME : RF := ⟨0x10014, 31, 0⟩
abbrev CUR_FRAME_HI_FRAME : RF := ⟨0x10018, 31, 0⟩
abbrev CUR_TIME_LO_TIME : RF := ⟨0x1001C, 31, 0⟩
abbrev CUR_TIME_HI_TIME : RF := ⟨0x10020, 31, 0⟩
abbrev CUR_DELIV_LAST : RF := ⟨0x10024, 31, 0⟩
abbrev BOX_CTRL_EN : RF := ⟨0x20000, 0, 0⟩
abbrev BOX_CLOSE_CLOSE : RF := ⟨0x20004, 7, 0⟩
abbrev BOX_HBM_CAP_CAP : RF := ⟨0x20008, 31, 0⟩
abbrev BOX_CUT_SHARE_WEST : RF := ⟨0x2000C, 31, 16⟩
abbrev BOX_CUT_SHARE_EAST : RF := ⟨0x2000C, 15, 0⟩
abbrev BOX_FAB_CAP_CAP : RF := ⟨0x20010, 31, 0⟩
abbrev BOX_EGR_CAP_CAP : RF := ⟨0x20014, 31, 0⟩
abbrev BOX_QENT_CAP_CAP : RF := ⟨0x20018, 15, 0⟩
abbrev BOX_CLASS_SHARE_SHARE (k : Nat) : RF := ⟨0x20020 + 4 * k, 8, 0⟩
abbrev BOX_ADMIT_COUNT : RF := ⟨0x20040, 17, 0⟩
abbrev BOX_REFUSE_COUNT : RF := ⟨0x20044, 17, 0⟩
abbrev BOX_RSN_IDX_IDX : RF := ⟨0x20048, 3, 0⟩
abbrev BOX_RSN_CNT_COUNT : RF := ⟨0x2004C, 17, 0⟩
abbrev BOX_HBM_LEFT_BYTES : RF := ⟨0x20050, 31, 0⟩
abbrev BOX_BREACH_CNT : RF := ⟨0x20054, 31, 24⟩
abbrev BOX_BREACH_KIND : RF := ⟨0x20054, 23, 20⟩
abbrev BOX_BREACH_ACT : RF := ⟨0x20054, 11, 0⟩
abbrev BOX_EVENT_BREACH : RF := ⟨0x20058, 2, 2⟩
abbrev BOX_EVENT_REFUSED : RF := ⟨0x20058, 1, 1⟩
abbrev BOX_EVENT_DONE : RF := ⟨0x20058, 0, 0⟩
abbrev BOX_ACT_RELEASE_ACT : RF := ⟨0x2005C, 11, 0⟩
abbrev CB_CMD_BUSY : RF := ⟨0x30000, 31, 31⟩
abbrev CB_CMD_OP : RF := ⟨0x30000, 27, 24⟩
abbrev CB_CMD_STREAM : RF := ⟨0x30000, 17, 0⟩
abbrev CB_STATUS_RESULT : RF := ⟨0x30004, 7, 0⟩
abbrev CB_COPY_LO_ADDR : RF := ⟨0x30008, 31, 6⟩
abbrev CB_COPY_HI_ADDR : RF := ⟨0x3000C, 31, 0⟩
abbrev CB_COPY_CNT_DONE : RF := ⟨0x30010, 31, 16⟩
abbrev CB_COPY_CNT_COUNT : RF := ⟨0x30010, 15, 0⟩
abbrev CB_LIVE_SUSP : RF := ⟨0x30014, 31, 16⟩
abbrev CB_LIVE_ACTIVE : RF := ⟨0x30014, 15, 0⟩
abbrev CB_DATA_DATA (k : Nat) : RF := ⟨0x30040 + 4 * k, 31, 0⟩
abbrev ITK_CTRL_EN : RF := ⟨0x40000, 0, 0⟩
abbrev ITK_HBM_CAP_CAP : RF := ⟨0x40004, 31, 0⟩
abbrev ITK_USED_BYTES : RF := ⟨0x40008, 31, 0⟩
abbrev ITK_CNT_IDX_IDX : RF := ⟨0x4000C, 3, 0⟩
abbrev ITK_CNT_COUNT : RF := ⟨0x40010, 31, 0⟩
abbrev ITK_EVENT_PTR_ERR : RF := ⟨0x40014, 4, 4⟩
abbrev ITK_EVENT_RING_ERR : RF := ⟨0x40014, 3, 3⟩
abbrev ITK_EVENT_CAP : RF := ⟨0x40014, 2, 2⟩
abbrev ITK_EVENT_FOREIGN : RF := ⟨0x40014, 1, 1⟩
abbrev ITK_EVENT_MALFORMED : RF := ⟨0x40014, 0, 0⟩
abbrev ITK_ERR_RING_RING : RF := ⟨0x40018, 2, 0⟩
abbrev ITK_RING_BASE_LO_ADDR (k : Nat) : RF := ⟨0x40100 + 32 * k, 31, 12⟩
abbrev ITK_RING_BASE_HI_ADDR (k : Nat) : RF := ⟨0x40104 + 32 * k, 31, 0⟩
abbrev ITK_RING_CTL_EN (k : Nat) : RF := ⟨0x40108 + 32 * k, 31, 31⟩
abbrev ITK_RING_CTL_CTX (k : Nat) : RF := ⟨0x40108 + 32 * k, 13, 8⟩
abbrev ITK_RING_CTL_LOG2 (k : Nat) : RF := ⟨0x40108 + 32 * k, 4, 0⟩
abbrev ITK_RING_TAIL_TAIL (k : Nat) : RF := ⟨0x4010C + 32 * k, 31, 0⟩
abbrev ITK_RING_HEAD_HEAD (k : Nat) : RF := ⟨0x40110 + 32 * k, 31, 0⟩
abbrev SD_STAGED_COUNT : RF := ⟨0x50000, 15, 0⟩
abbrev SD_STRUCK_HELD : RF := ⟨0x50004, 31, 16⟩
abbrev SD_STRUCK_COMMIT : RF := ⟨0x50004, 15, 0⟩
abbrev SD_FAULT_STREAM : RF := ⟨0x50008, 17, 0⟩
abbrev SD_EVENT_POISON : RF := ⟨0x5000C, 1, 1⟩
abbrev SD_EVENT_ADDR_FAULT : RF := ⟨0x5000C, 0, 0⟩
abbrev EGR_CTRL_EN : RF := ⟨0x60000, 31, 31⟩
abbrev EGR_CTRL_COAL : RF := ⟨0x60000, 13, 0⟩
abbrev EGR_BACKLOG_BYTES : RF := ⟨0x60004, 31, 0⟩
abbrev EGR_DISCARD_COUNT : RF := ⟨0x60008, 31, 0⟩
abbrev EGR_EVENT_PTR_ERR : RF := ⟨0x6000C, 3, 3⟩
abbrev EGR_EVENT_PCIE_ERR : RF := ⟨0x6000C, 2, 2⟩
abbrev EGR_EVENT_DISCARD : RF := ⟨0x6000C, 1, 1⟩
abbrev EGR_EVENT_FULL : RF := ⟨0x6000C, 0, 0⟩
abbrev EGR_RING_BASE_LO_ADDR (k : Nat) : RF := ⟨0x60100 + 32 * k, 31, 12⟩
abbrev EGR_RING_BASE_HI_ADDR (k : Nat) : RF := ⟨0x60104 + 32 * k, 31, 0⟩
abbrev EGR_RING_CTL_EN (k : Nat) : RF := ⟨0x60108 + 32 * k, 31, 31⟩
abbrev EGR_RING_CTL_MSIX (k : Nat) : RF := ⟨0x60108 + 32 * k, 26, 16⟩
abbrev EGR_RING_CTL_MSI_EN (k : Nat) : RF := ⟨0x60108 + 32 * k, 15, 15⟩
abbrev EGR_RING_CTL_CTX (k : Nat) : RF := ⟨0x60108 + 32 * k, 13, 8⟩
abbrev EGR_RING_CTL_LOG2 (k : Nat) : RF := ⟨0x60108 + 32 * k, 4, 0⟩
abbrev EGR_RING_HEAD_HEAD (k : Nat) : RF := ⟨0x6010C + 32 * k, 31, 0⟩
abbrev EGR_RING_TAIL_TAIL (k : Nat) : RF := ⟨0x60110 + 32 * k, 31, 0⟩
abbrev EGR_RING_CPL_LO_ADDR (k : Nat) : RF := ⟨0x60114 + 32 * k, 31, 4⟩
abbrev EGR_RING_CPL_HI_ADDR (k : Nat) : RF := ⟨0x60118 + 32 * k, 31, 0⟩
abbrev CFG_CORE_ID_ROLE : RF := ⟨0x0, 31, 30⟩
abbrev CFG_CORE_ID_LNUM : RF := ⟨0x0, 21, 11⟩
abbrev CFG_CORE_ID_SITE : RF := ⟨0x0, 10, 0⟩
abbrev CFG_CORE_CTRL_SAFE : RF := ⟨0x4, 12, 12⟩
abbrev CFG_CORE_CTRL_HP_EN : RF := ⟨0x4, 11, 11⟩
abbrev CFG_CORE_CTRL_HP_THREAD : RF := ⟨0x4, 9, 8⟩
abbrev CFG_CORE_CTRL_START : RF := ⟨0x4, 7, 4⟩
abbrev CFG_CORE_CTRL_HALT : RF := ⟨0x4, 3, 0⟩
abbrev CFG_CORE_STATUS_CTX_ERR : RF := ⟨0x8, 17, 17⟩
abbrev CFG_CORE_STATUS_CTRL_ERR : RF := ⟨0x8, 16, 16⟩
abbrev CFG_CORE_STATUS_TRAP : RF := ⟨0x8, 11, 8⟩
abbrev CFG_CORE_STATUS_STATE : RF := ⟨0x8, 7, 0⟩
abbrev CFG_CORE_GROUP_GROUP : RF := ⟨0xC, 31, 0⟩
abbrev CFG_CORE_SWI_SWI : RF := ⟨0x10, 3, 0⟩
abbrev CFG_CORE_CTX_CTX3 : RF := ⟨0x14, 29, 24⟩
abbrev CFG_CORE_CTX_CTX2 : RF := ⟨0x14, 21, 16⟩
abbrev CFG_CORE_CTX_CTX1 : RF := ⟨0x14, 13, 8⟩
abbrev CFG_CORE_CTX_CTX0 : RF := ⟨0x14, 5, 0⟩
abbrev CFG_CORE_ENTRY01_ENTRY1 : RF := ⟨0x18, 31, 16⟩
abbrev CFG_CORE_ENTRY01_ENTRY0 : RF := ⟨0x18, 15, 0⟩
abbrev CFG_CORE_ENTRY23_ENTRY3 : RF := ⟨0x1C, 31, 16⟩
abbrev CFG_CORE_ENTRY23_ENTRY2 : RF := ⟨0x1C, 15, 0⟩
abbrev CFG_CORE_CYC_LO_CYC : RF := ⟨0x20, 31, 0⟩
abbrev CFG_CORE_CYC_HI_CYC : RF := ⟨0x24, 31, 0⟩
abbrev CFG_CORE_BUD_LEFT : RF := ⟨0x28, 31, 0⟩
abbrev CFG_SITE_MAP_GOOD (k : Nat) : RF := ⟨0x70000 + 4 * k, 13, 0⟩
abbrev CFG_SITE_UND_UND (k : Nat) : RF := ⟨0x70040 + 4 * k, 13, 0⟩
abbrev CFG_SITE_QUAR_QUAR (k : Nat) : RF := ⟨0x70080 + 4 * k, 13, 0⟩
abbrev CFG_SITE_COUNT_QUAR : RF := ⟨0x700C0, 23, 16⟩
abbrev CFG_SITE_COUNT_UND : RF := ⟨0x700C0, 15, 8⟩
abbrev CFG_SITE_COUNT_GOOD : RF := ⟨0x700C0, 7, 0⟩
abbrev CFG_GRADE_GRADE : RF := ⟨0x700C4, 31, 30⟩
abbrev CFG_GRADE_BELOW : RF := ⟨0x700C4, 29, 29⟩
abbrev CFG_GRADE_GOOD : RF := ⟨0x700C4, 10, 0⟩
abbrev UPD_CTRL_EN : RF := ⟨0x80000, 0, 0⟩
abbrev UPD_GRP_CMD_BUSY : RF := ⟨0x80004, 31, 31⟩
abbrev UPD_GRP_CMD_OP : RF := ⟨0x80004, 27, 24⟩
abbrev UPD_GRP_CMD_GROUP : RF := ⟨0x80004, 9, 0⟩
abbrev UPD_GRP_STATUS_RESULT : RF := ⟨0x80008, 7, 0⟩
abbrev UPD_ROWS_DONE_ROWS : RF := ⟨0x8000C, 31, 0⟩
abbrev UPD_ROWS_CARRY_ROWS : RF := ⟨0x80010, 31, 0⟩
abbrev UPD_LAST_INSTALLED : RF := ⟨0x80014, 31, 16⟩
abbrev UPD_LAST_DISCARDED : RF := ⟨0x80014, 15, 0⟩
abbrev UPD_DISC_CAUSE : RF := ⟨0x80018, 31, 28⟩
abbrev UPD_DISC_GROUP : RF := ⟨0x80018, 9, 0⟩
abbrev UPD_EVENT_POISON : RF := ⟨0x8001C, 2, 2⟩
abbrev UPD_EVENT_CARRY : RF := ⟨0x8001C, 1, 1⟩
abbrev UPD_EVENT_DISCARD : RF := ⟨0x8001C, 0, 0⟩
abbrev UPD_CNT_IDX_IDX : RF := ⟨0x80020, 3, 0⟩
abbrev UPD_CNT_COUNT : RF := ⟨0x80024, 31, 0⟩
abbrev UPD_SEED_IDX_AINC : RF := ⟨0x80028, 5, 5⟩
abbrev UPD_SEED_IDX_IDX : RF := ⟨0x80028, 4, 0⟩
abbrev UPD_SEED_STATE : RF := ⟨0x8002C, 31, 0⟩
abbrev UPD_GRP_DATA_DATA (k : Nat) : RF := ⟨0x80040 + 4 * k, 31, 0⟩
abbrev MSH_CTRL_MERGE_EN : RF := ⟨0x90000, 0, 0⟩
abbrev MSH_TIMEOUT_US : RF := ⟨0x90004, 15, 0⟩
abbrev MSH_ERR_CNT_HDR : RF := ⟨0x90008, 31, 16⟩
abbrev MSH_ERR_CNT_DATA : RF := ⟨0x90008, 15, 0⟩
abbrev MSH_EVENT_TIMEOUT : RF := ⟨0x9000C, 2, 2⟩
abbrev MSH_EVENT_PARITY : RF := ⟨0x9000C, 1, 1⟩
abbrev MSH_EVENT_UNMAPPED : RF := ⟨0x9000C, 0, 0⟩
abbrev MSH_ERR_ADDR_LO_ADDR : RF := ⟨0x90010, 31, 0⟩
abbrev MSH_ERR_ADDR_HI_ADDR : RF := ⟨0x90014, 31, 0⟩
abbrev MSH_CUT_E_BYTES : RF := ⟨0x90018, 31, 0⟩
abbrev MSH_CUT_W_BYTES : RF := ⟨0x9001C, 31, 0⟩
abbrev MSH_PMC_CMD_BUSY : RF := ⟨0x90040, 31, 31⟩
abbrev MSH_PMC_CMD_OP : RF := ⟨0x90040, 27, 24⟩
abbrev MSH_PMC_CMD_GRP : RF := ⟨0x90040, 23, 23⟩
abbrev MSH_PMC_CMD_TARGET : RF := ⟨0x90040, 10, 0⟩
abbrev MSH_PMC_HBM_LO_ADDR : RF := ⟨0x90044, 31, 6⟩
abbrev MSH_PMC_HBM_HI_ADDR : RF := ⟨0x90048, 31, 0⟩
abbrev MSH_PMC_RANGE_UNITS : RF := ⟨0x9004C, 26, 16⟩
abbrev MSH_PMC_RANGE_FIRST : RF := ⟨0x9004C, 9, 0⟩
abbrev MSH_PMC_STATUS_DONE : RF := ⟨0x90050, 31, 16⟩
abbrev MSH_PMC_STATUS_RESULT : RF := ⟨0x90050, 7, 0⟩
abbrev HBC_STATUS_HOT : RF := ⟨0xA0000, 1, 1⟩
abbrev HBC_STATUS_READY : RF := ⟨0xA0000, 0, 0⟩
abbrev HBC_SCRUB_EN : RF := ⟨0xA0004, 8, 8⟩
abbrev HBC_SCRUB_RATE : RF := ⟨0xA0004, 7, 0⟩
abbrev HBC_CE_CNT_COUNT : RF := ⟨0xA0008, 31, 0⟩
abbrev HBC_UE_CNT_COUNT : RF := ⟨0xA000C, 31, 0⟩
abbrev HBC_ERR_ADDR_LO_ADDR : RF := ⟨0xA0010, 31, 6⟩
abbrev HBC_ERR_ADDR_HI_ADDR : RF := ⟨0xA0014, 31, 0⟩
abbrev HBC_MERGED_COUNT : RF := ⟨0xA0018, 31, 0⟩
abbrev HBC_BYTES_BYTES : RF := ⟨0xA001C, 31, 0⟩
abbrev HBC_EVENT_HOT : RF := ⟨0xA0020, 1, 1⟩
abbrev HBC_EVENT_UE : RF := ⟨0xA0020, 0, 0⟩
abbrev CFG_CUE_MAP_V (k : Nat) : RF := ⟨0x400 + 4 * k, 7, 7⟩
abbrev CFG_CUE_MAP_REM (k : Nat) : RF := ⟨0x400 + 4 * k, 6, 6⟩
abbrev CFG_CUE_MAP_CNT (k : Nat) : RF := ⟨0x400 + 4 * k, 5, 0⟩
abbrev CFG_CUE_CNT_COUNT (k : Nat) : RF := ⟨0x800 + 4 * k, 15, 0⟩
abbrev CFG_CUE_BIND_V (k : Nat) : RF := ⟨0x900 + 4 * k, 31, 31⟩
abbrev CFG_CUE_BIND_CTX (k : Nat) : RF := ⟨0x900 + 4 * k, 5, 0⟩
abbrev CFG_CUE_ERR_KIND : RF := ⟨0x910, 31, 30⟩
abbrev CFG_CUE_ERR_CTX : RF := ⟨0x910, 21, 16⟩
abbrev CFG_CUE_ERR_IDX : RF := ⟨0x910, 5, 0⟩
abbrev CFG_CUE_EVENT_UNMAP : RF := ⟨0x914, 1, 1⟩
abbrev CFG_CUE_EVENT_OVF : RF := ⟨0x914, 0, 0⟩
abbrev CDMA_CFG_RATE (k : Nat) : RF := ⟨0xA00 + 64 * k, 19, 11⟩
abbrev CDMA_CFG_REQ (k : Nat) : RF := ⟨0xA00 + 64 * k, 10, 5⟩
abbrev CDMA_CFG_BURST (k : Nat) : RF := ⟨0xA00 + 64 * k, 4, 2⟩
abbrev CDMA_CFG_PACE (k : Nat) : RF := ⟨0xA00 + 64 * k, 1, 0⟩
abbrev CDMA_TO_US (k : Nat) : RF := ⟨0xA04 + 64 * k, 19, 0⟩
abbrev CDMA_STATUS_HALT (k : Nat) : RF := ⟨0xA08 + 64 * k, 31, 31⟩
abbrev CDMA_STATUS_EVT (k : Nat) : RF := ⟨0xA08 + 64 * k, 30, 30⟩
abbrev CDMA_STATUS_BUSY (k : Nat) : RF := ⟨0xA08 + 64 * k, 29, 29⟩
abbrev CDMA_STATUS_QUEUED (k : Nat) : RF := ⟨0xA08 + 64 * k, 28, 26⟩
abbrev CDMA_STATUS_DIR (k : Nat) : RF := ⟨0xA08 + 64 * k, 25, 25⟩
abbrev CDMA_STATUS_CAUSE (k : Nat) : RF := ⟨0xA08 + 64 * k, 24, 21⟩
abbrev CDMA_STATUS_THREAD (k : Nat) : RF := ⟨0xA08 + 64 * k, 17, 16⟩
abbrev CDMA_STATUS_TICKET (k : Nat) : RF := ⟨0xA08 + 64 * k, 15, 0⟩
abbrev CDMA_COMP_LAST (k : Nat) : RF := ⟨0xA0C + 64 * k, 15, 0⟩
abbrev CDMA_DONE_COUNT (k : Nat) : RF := ⟨0xA10 + 64 * k, 31, 0⟩
abbrev CDMA_ERR_ADDR_LO_ADDR (k : Nat) : RF := ⟨0xA14 + 64 * k, 31, 0⟩
abbrev CDMA_ERR_ADDR_HI_ADDR (k : Nat) : RF := ⟨0xA18 + 64 * k, 31, 0⟩
abbrev CDMA_RESTART_ACTION (k : Nat) : RF := ⟨0xA1C + 64 * k, 1, 0⟩
abbrev BDMA_REQ_LINE : RF := ⟨0xC0000, 31, 0⟩
abbrev BDMA_EVENT_DONE : RF := ⟨0xC0004, 31, 16⟩
abbrev BDMA_EVENT_HALT : RF := ⟨0xC0004, 15, 0⟩
abbrev BDMA_PTR_ERR_CHAN : RF := ⟨0xC0008, 15, 0⟩
abbrev BDMA_CH_RING_LO_ADDR (k : Nat) : RF := ⟨0xC0100 + 64 * k, 31, 6⟩
abbrev BDMA_CH_RING_HI_ADDR (k : Nat) : RF := ⟨0xC0104 + 64 * k, 31, 0⟩
abbrev BDMA_CH_CTL_EN (k : Nat) : RF := ⟨0xC0108 + 64 * k, 31, 31⟩
abbrev BDMA_CH_CTL_HOSTOK (k : Nat) : RF := ⟨0xC0108 + 64 * k, 30, 30⟩
abbrev BDMA_CH_CTL_CTX (k : Nat) : RF := ⟨0xC0108 + 64 * k, 29, 24⟩
abbrev BDMA_CH_CTL_RATE (k : Nat) : RF := ⟨0xC0108 + 64 * k, 23, 15⟩
abbrev BDMA_CH_CTL_REQSEL (k : Nat) : RF := ⟨0xC0108 + 64 * k, 14, 10⟩
abbrev BDMA_CH_CTL_BURST (k : Nat) : RF := ⟨0xC0108 + 64 * k, 9, 7⟩
abbrev BDMA_CH_CTL_PACE (k : Nat) : RF := ⟨0xC0108 + 64 * k, 6, 5⟩
abbrev BDMA_CH_CTL_LOG2 (k : Nat) : RF := ⟨0xC0108 + 64 * k, 4, 0⟩
abbrev BDMA_CH_TAIL_TAIL (k : Nat) : RF := ⟨0xC010C + 64 * k, 31, 0⟩
abbrev BDMA_CH_HEAD_HEAD (k : Nat) : RF := ⟨0xC0110 + 64 * k, 31, 0⟩
abbrev BDMA_CH_TO_US (k : Nat) : RF := ⟨0xC0114 + 64 * k, 19, 0⟩
abbrev BDMA_CH_STATUS_HALT (k : Nat) : RF := ⟨0xC0118 + 64 * k, 31, 31⟩
abbrev BDMA_CH_STATUS_BUSY (k : Nat) : RF := ⟨0xC0118 + 64 * k, 30, 30⟩
abbrev BDMA_CH_STATUS_DIR (k : Nat) : RF := ⟨0xC0118 + 64 * k, 4, 4⟩
abbrev BDMA_CH_STATUS_CAUSE (k : Nat) : RF := ⟨0xC0118 + 64 * k, 3, 0⟩
abbrev BDMA_CH_DONE_COUNT (k : Nat) : RF := ⟨0xC011C + 64 * k, 31, 0⟩
abbrev BDMA_CH_ERR_ADDR_LO_ADDR (k : Nat) : RF := ⟨0xC0120 + 64 * k, 31, 0⟩
abbrev BDMA_CH_ERR_ADDR_HI_ADDR (k : Nat) : RF := ⟨0xC0124 + 64 * k, 31, 0⟩
abbrev BDMA_CH_RESTART_ACTION (k : Nat) : RF := ⟨0xC0128 + 64 * k, 1, 0⟩
abbrev EVG_CTRL_EN : RF := ⟨0xB0000, 0, 0⟩
abbrev EVG_ERR_EOI_EMPTY : RF := ⟨0xB0004, 0, 0⟩
abbrev EVG_MSI_EN (k : Nat) : RF := ⟨0xB0100 + 4 * k, 31, 31⟩
abbrev EVG_MSI_VECTOR (k : Nat) : RF := ⟨0xB0100 + 4 * k, 10, 0⟩
abbrev EVG_TSET_LAST (k : Nat) : RF := ⟨0xB0200 + 4 * k, 28, 24⟩
abbrev EVG_TSET_MASK (k : Nat) : RF := ⟨0xB0200 + 4 * k, 23, 0⟩
abbrev EVG_TGT_EN (k : Nat) : RF := ⟨0xB0300 + 8 * k, 31, 31⟩
abbrev EVG_TGT_DEPTH (k : Nat) : RF := ⟨0xB0300 + 8 * k, 28, 24⟩
abbrev EVG_TGT_RPRI (k : Nat) : RF := ⟨0xB0300 + 8 * k, 20, 16⟩
abbrev EVG_TGT_SRC (k : Nat) : RF := ⟨0xB0300 + 8 * k, 9, 0⟩
abbrev EVG_EOI_EOI (k : Nat) : RF := ⟨0xB0304 + 8 * k, 31, 0⟩
abbrev EVG_GRP_HOLDING (k : Nat) : RF := ⟨0xB0400 + 4 * k, 31, 31⟩
abbrev EVG_GRP_HOLD (k : Nat) : RF := ⟨0xB0400 + 4 * k, 15, 0⟩
abbrev EVG_PEND_PEND (k : Nat) : RF := ⟨0xB0500 + 4 * k, 31, 0⟩
abbrev EVG_SWSET_SRC : RF := ⟨0xB0600, 9, 0⟩
abbrev EVG_SRC_EN (k : Nat) : RF := ⟨0xB1000 + 4 * k, 31, 31⟩
abbrev EVG_SRC_PEND (k : Nat) : RF := ⟨0xB1000 + 4 * k, 30, 30⟩
abbrev EVG_SRC_PRIO (k : Nat) : RF := ⟨0xB1000 + 4 * k, 19, 16⟩
abbrev EVG_SRC_TSET (k : Nat) : RF := ⟨0xB1000 + 4 * k, 13, 8⟩
abbrev CFG_CORE_TRAP_VEC2 : RF := ⟨0x2C, 31, 16⟩
abbrev CFG_CORE_TRAP_L2FLT : RF := ⟨0x2C, 15, 12⟩
abbrev CFG_CORE_TRAP_RUN2 : RF := ⟨0x2C, 11, 8⟩
abbrev CFG_CORE_TRAP_RESUME : RF := ⟨0x2C, 7, 4⟩
abbrev CFG_CORE_DBG_CTL_ERR : RF := ⟨0x1000, 16, 16⟩
abbrev CFG_CORE_DBG_CTL_STOPPED : RF := ⟨0x1000, 15, 12⟩
abbrev CFG_CORE_DBG_CTL_STEP : RF := ⟨0x1000, 11, 8⟩
abbrev CFG_CORE_DBG_CTL_RESUME : RF := ⟨0x1000, 7, 4⟩
abbrev CFG_CORE_DBG_CTL_STOP : RF := ⟨0x1000, 3, 0⟩
abbrev CFG_CORE_DBG_WHY_WHY : RF := ⟨0x1004, 15, 0⟩
abbrev CFG_CORE_DBG_BP_EN (k : Nat) : RF := ⟨0x1010 + 4 * k, 31, 31⟩
abbrev CFG_CORE_DBG_BP_THREADS (k : Nat) : RF := ⟨0x1010 + 4 * k, 19, 16⟩
abbrev CFG_CORE_DBG_BP_PC (k : Nat) : RF := ⟨0x1010 + 4 * k, 15, 0⟩
abbrev CFG_CORE_DBG_SEL_THREAD : RF := ⟨0x1020, 21, 20⟩
abbrev CFG_CORE_DBG_SEL_WORD : RF := ⟨0x1020, 19, 16⟩
abbrev CFG_CORE_DBG_SEL_ITEM : RF := ⟨0x1020, 9, 0⟩
abbrev CFG_CORE_DBG_DATA_DATA : RF := ⟨0x1024, 31, 0⟩
abbrev MGT_REH_LO_CTX : RF := ⟨0x12F000, 31, 0⟩
abbrev MGT_REH_HI_CTX : RF := ⟨0x12F004, 31, 0⟩
abbrev MGT_DBG_STATUS_ERR : RF := ⟨0x12F008, 1, 1⟩
abbrev MGT_DBG_STATUS_OPEN : RF := ⟨0x12F008, 0, 0⟩
abbrev ALF_CTRL_RETRAIN : RF := ⟨0xD0000, 1, 1⟩
abbrev ALF_CTRL_EN : RF := ⟨0xD0000, 0, 0⟩
abbrev ALF_STATUS_PEER : RF := ⟨0xD0004, 31, 16⟩
abbrev ALF_STATUS_LANES : RF := ⟨0xD0004, 4, 1⟩
abbrev ALF_STATUS_UP : RF := ⟨0xD0004, 0, 0⟩
abbrev ALF_NODE_NODE : RF := ⟨0xD0008, 11, 0⟩
abbrev ALF_TIMEOUT_US : RF := ⟨0xD000C, 15, 0⟩
abbrev ALF_ING_HBM_RATE : RF := ⟨0xD0010, 9, 0⟩
abbrev ALF_ING_PORT_RATE : RF := ⟨0xD0014, 9, 0⟩
abbrev ALF_TIME_RECV : RF := ⟨0xD0018, 1, 1⟩
abbrev ALF_TIME_SEND : RF := ⟨0xD0018, 0, 0⟩
abbrev ALF_DELAY_NS : RF := ⟨0xD001C, 15, 0⟩
abbrev ALF_TIME_OFS_FRAMES : RF := ⟨0xD0020, 31, 0⟩
abbrev ALF_EVENT_MARK_MISS : RF := ⟨0xD0024, 6, 6⟩
abbrev ALF_EVENT_POISON : RF := ⟨0xD0024, 5, 5⟩
abbrev ALF_EVENT_REFUSED : RF := ⟨0xD0024, 4, 4⟩
abbrev ALF_EVENT_HOLD : RF := ⟨0xD0024, 3, 3⟩
abbrev ALF_EVENT_TIMEOUT : RF := ⟨0xD0024, 2, 2⟩
abbrev ALF_EVENT_UP : RF := ⟨0xD0024, 1, 1⟩
abbrev ALF_EVENT_DOWN : RF := ⟨0xD0024, 0, 0⟩
abbrev ALF_ERR_ADDR_LO_ADDR : RF := ⟨0xD0028, 31, 0⟩
abbrev ALF_ERR_ADDR_HI_ADDR : RF := ⟨0xD002C, 31, 0⟩
abbrev ALF_CNT_IDX_IDX : RF := ⟨0xD0030, 3, 0⟩
abbrev ALF_CNT_COUNT : RF := ⟨0xD0034, 31, 0⟩
abbrev ALF_FADD_BASE_LO_ADDR (k : Nat) : RF := ⟨0xD0040 + 16 * k, 31, 6⟩
abbrev ALF_FADD_BASE_HI_V (k : Nat) : RF := ⟨0xD0044 + 16 * k, 0, 0⟩
abbrev ALF_FADD_LIM_LO_ADDR (k : Nat) : RF := ⟨0xD0048 + 16 * k, 31, 6⟩
abbrev ALF_FADD_HI_LIM (k : Nat) : RF := ⟨0xD004C + 16 * k, 19, 10⟩
abbrev ALF_FADD_HI_BASE (k : Nat) : RF := ⟨0xD004C + 16 * k, 9, 0⟩
abbrev ALF_ICTX_V (k : Nat) : RF := ⟨0xD0100 + 4 * k, 31, 31⟩
abbrev ALF_ICTX_LCTX (k : Nat) : RF := ⟨0xD0100 + 4 * k, 29, 24⟩
abbrev ALF_ICTX_NHI (k : Nat) : RF := ⟨0xD0100 + 4 * k, 23, 12⟩
abbrev ALF_ICTX_NLO (k : Nat) : RF := ⟨0xD0100 + 4 * k, 11, 0⟩
abbrev LGR_CTRL_EN : RF := ⟨0xE0000, 31, 31⟩
abbrev LGR_CTRL_LOG2 : RF := ⟨0xE0000, 4, 0⟩
abbrev LGR_BASE_LO_ADDR : RF := ⟨0xE0004, 31, 6⟩
abbrev LGR_BASE_HI_ADDR : RF := ⟨0xE0008, 31, 0⟩
abbrev LGR_TAIL_TAIL : RF := ⟨0xE000C, 31, 0⟩
abbrev LGR_HEAD_HEAD : RF := ⟨0xE0010, 31, 0⟩
abbrev LGR_MARK_TAIL : RF := ⟨0xE0014, 31, 0⟩
abbrev LGR_EVENT_STOP : RF := ⟨0xE0018, 2, 2⟩
abbrev LGR_EVENT_LOW : RF := ⟨0xE0018, 1, 1⟩
abbrev LGR_EVENT_FRAME : RF := ⟨0xE0018, 0, 0⟩
abbrev CHK_CTRL_AUD_EN : RF := ⟨0xF0000, 0, 0⟩
abbrev CHK_AUDIT_LOG2 : RF := ⟨0xF0004, 3, 0⟩
abbrev CHK_RPL_HBM_CAP : RF := ⟨0xF0008, 31, 0⟩
abbrev CHK_QUAR_LIMIT : RF := ⟨0xF000C, 3, 0⟩
abbrev CHK_HOLD_LO_ADDR : RF := ⟨0xF0010, 31, 6⟩
abbrev CHK_HOLD_HI_ADDR : RF := ⟨0xF0014, 31, 0⟩
abbrev CHK_SEED_LO_SEED : RF := ⟨0xF0018, 31, 0⟩
abbrev CHK_SEED_HI_SEED : RF := ⟨0xF001C, 31, 0⟩
abbrev CHK_STATUS_HELD : RF := ⟨0xF0020, 31, 16⟩
abbrev CHK_STATUS_RPL : RF := ⟨0xF0020, 7, 0⟩
abbrev CHK_EVENT_LOAD_ERR : RF := ⟨0xF0024, 10, 10⟩
abbrev CHK_EVENT_CB_ECC : RF := ⟨0xF0024, 9, 9⟩
abbrev CHK_EVENT_MCHK : RF := ⟨0xF0024, 8, 8⟩
abbrev CHK_EVENT_RESIDUE : RF := ⟨0xF0024, 7, 7⟩
abbrev CHK_EVENT_NO_RPL : RF := ⟨0xF0024, 6, 6⟩
abbrev CHK_EVENT_AUD_DROP : RF := ⟨0xF0024, 5, 5⟩
abbrev CHK_EVENT_DARK : RF := ⟨0xF0024, 4, 4⟩
abbrev CHK_EVENT_PROMOTE : RF := ⟨0xF0024, 3, 3⟩
abbrev CHK_EVENT_QUAR : RF := ⟨0xF0024, 2, 2⟩
abbrev CHK_EVENT_DISAGREE : RF := ⟨0xF0024, 1, 1⟩
abbrev CHK_EVENT_SUSPECT : RF := ⟨0xF0024, 0, 0⟩
abbrev CHK_LAST_KIND : RF := ⟨0xF0028, 31, 28⟩
abbrev CHK_LAST_SITE : RF := ⟨0xF0028, 10, 0⟩
abbrev CHK_LAST_STREAM_STREAM : RF := ⟨0xF002C, 17, 0⟩
abbrev CHK_CNT_IDX_IDX : RF := ⟨0xF0030, 3, 0⟩
abbrev CHK_CNT_COUNT : RF := ⟨0xF0034, 31, 0⟩
abbrev CFG_PCIE_STATUS_DEGRADED : RF := ⟨0x120000, 9, 9⟩
abbrev CFG_PCIE_STATUS_WIDTH : RF := ⟨0x120000, 8, 4⟩
abbrev CFG_PCIE_STATUS_GEN : RF := ⟨0x120000, 3, 0⟩
abbrev CFG_BAR0_CWIN_DIE : RF := ⟨0x120004, 2, 0⟩
abbrev CFG_BAR2_WIN_BASE : RF := ⟨0x120008, 9, 0⟩
abbrev CFG_SS_CMD_BUSY : RF := ⟨0x120010, 31, 31⟩
abbrev CFG_SS_CMD_OP : RF := ⟨0x120010, 1, 0⟩
abbrev CFG_SS_STATUS_WERR : RF := ⟨0x120014, 9, 9⟩
abbrev CFG_SS_STATUS_PEND : RF := ⟨0x120014, 8, 8⟩
abbrev CFG_SS_STATUS_RESULT : RF := ⟨0x120014, 7, 0⟩
abbrev CFG_SS_FRAME_LO_FRAME : RF := ⟨0x120018, 31, 0⟩
abbrev CFG_SS_FRAME_HI_FRAME : RF := ⟨0x12001C, 31, 0⟩
abbrev CFG_SS_UND_COUNT : RF := ⟨0x120020, 3, 0⟩
abbrev CFG_ACT_CMD_BUSY : RF := ⟨0x120040, 31, 31⟩
abbrev CFG_ACT_CMD_OP : RF := ⟨0x120040, 27, 24⟩
abbrev CFG_ACT_CMD_RESULT : RF := ⟨0x120040, 23, 16⟩
abbrev CFG_ACT_CMD_ACT : RF := ⟨0x120040, 11, 0⟩
abbrev CFG_ASN_CMD_BUSY : RF := ⟨0x120048, 31, 31⟩
abbrev CFG_ASN_CMD_OP : RF := ⟨0x120048, 27, 24⟩
abbrev CFG_ASN_CMD_RESULT : RF := ⟨0x120048, 23, 16⟩
abbrev CFG_ASN_CMD_DIE : RF := ⟨0x120048, 14, 12⟩
abbrev CFG_ASN_CMD_SITE : RF := ⟨0x120048, 7, 0⟩
abbrev CFG_ASN_DATA_WORD : RF := ⟨0x12004C, 31, 0⟩
abbrev CFG_CTX_CMD_BUSY : RF := ⟨0x120060, 31, 31⟩
abbrev CFG_CTX_CMD_PUB : RF := ⟨0x120060, 30, 30⟩
abbrev CFG_CTX_CMD_OP : RF := ⟨0x120060, 27, 24⟩
abbrev CFG_CTX_CMD_RESULT : RF := ⟨0x120060, 23, 16⟩
abbrev CFG_CTX_CMD_ENTRY : RF := ⟨0x120060, 13, 8⟩
abbrev CFG_CTX_CMD_CTX : RF := ⟨0x120060, 5, 0⟩
abbrev CFG_CTX_ATTR_EXPERT : RF := ⟨0x120064, 5, 5⟩
abbrev CFG_CTX_ATTR_CBACC : RF := ⟨0x120064, 4, 4⟩
abbrev CFG_CTX_ATTR_PLACC : RF := ⟨0x120064, 3, 3⟩
abbrev CFG_CTX_ATTR_MINCLASS : RF := ⟨0x120064, 2, 0⟩
abbrev CFG_RGN_BASE_LO_ADDR : RF := ⟨0x120068, 31, 12⟩
abbrev CFG_RGN_BASE_HI_ADDR : RF := ⟨0x12006C, 31, 0⟩
abbrev CFG_RGN_LAST_LO_ADDR : RF := ⟨0x120070, 31, 12⟩
abbrev CFG_RGN_LAST_LO_V : RF := ⟨0x120070, 3, 3⟩
abbrev CFG_RGN_LAST_LO_A : RF := ⟨0x120070, 2, 2⟩
abbrev CFG_RGN_LAST_LO_W : RF := ⟨0x120070, 1, 1⟩
abbrev CFG_RGN_LAST_LO_R : RF := ⟨0x120070, 0, 0⟩
abbrev CFG_RGN_LAST_HI_ADDR : RF := ⟨0x120074, 31, 0⟩
abbrev CFG_ACT_DATA_DATA (k : Nat) : RF := ⟨0x120100 + 4 * k, 31, 0⟩
abbrev MGT_STATUS_ACTIVE : RF := ⟨0x100000, 2, 2⟩
abbrev MGT_STATUS_FW_OK : RF := ⟨0x100000, 1, 1⟩
abbrev MGT_STATUS_BANK : RF := ⟨0x100000, 0, 0⟩
abbrev MGT_FW_CMD_BUSY : RF := ⟨0x100004, 31, 31⟩
abbrev MGT_FW_CMD_OP : RF := ⟨0x100004, 1, 0⟩
abbrev MGT_FW_STATUS_RESULT : RF := ⟨0x100008, 7, 0⟩
abbrev MGT_FW_OFS_OFS : RF := ⟨0x10000C, 21, 16⟩
abbrev MGT_FW_SVN_SVN : RF := ⟨0x100010, 31, 0⟩
abbrev MGT_LOG_LOST_COUNT : RF := ⟨0x100014, 31, 0⟩
abbrev MGT_LOG_ACK_ACK : RF := ⟨0x100018, 31, 0⟩
abbrev MGT_EVENT_TAKEOVER : RF := ⟨0x10001C, 2, 2⟩
abbrev MGT_EVENT_FW_FAIL : RF := ⟨0x10001C, 1, 1⟩
abbrev MGT_EVENT_LOG : RF := ⟨0x10001C, 0, 0⟩
abbrev ROT_STATUS_RESULT : RF := ⟨0x108000, 15, 8⟩
abbrev ROT_STATUS_DBG_OPEN : RF := ⟨0x108000, 3, 3⟩
abbrev ROT_STATUS_IDERR : RF := ⟨0x108000, 2, 2⟩
abbrev ROT_STATUS_ATT_READY : RF := ⟨0x108000, 1, 1⟩
abbrev ROT_STATUS_MAP_OK : RF := ⟨0x108000, 0, 0⟩
abbrev ROT_CMD_OP : RF := ⟨0x108004, 1, 0⟩
abbrev ROT_DBG_NONCE_NONCE (k : Nat) : RF := ⟨0x108010 + 4 * k, 31, 0⟩
abbrev ROT_EVENT_DBG : RF := ⟨0x108030, 1, 1⟩
abbrev ROT_EVENT_TOKEN_FAIL : RF := ⟨0x108030, 0, 0⟩
abbrev PWR_STATUS_CAUSE : RF := ⟨0x10C000, 31, 28⟩
abbrev PWR_STATUS_LIMIT : RF := ⟨0x10C000, 3, 3⟩
abbrev PWR_STATUS_READY : RF := ⟨0x10C000, 2, 2⟩
abbrev PWR_STATUS_STATE : RF := ⟨0x10C000, 1, 0⟩
abbrev PWR_CTRL_RESET : RF := ⟨0x10C004, 9, 8⟩
abbrev PWR_CTRL_PREQ : RF := ⟨0x10C004, 1, 0⟩
abbrev PWR_LIMIT_WATTS : RF := ⟨0x10C008, 10, 0⟩
abbrev PWR_EXC_US : RF := ⟨0x10C00C, 13, 0⟩
abbrev PWR_MEAS_WATTS : RF := ⟨0x10C010, 31, 16⟩
abbrev PWR_MEAS_VIN : RF := ⟨0x10C010, 15, 0⟩
abbrev PWR_EVENT_CFG : RF := ⟨0x10C014, 6, 6⟩
abbrev PWR_EVENT_SOFT_DONE : RF := ⟨0x10C014, 5, 5⟩
abbrev PWR_EVENT_OVERPOWER : RF := ⟨0x10C014, 4, 4⟩
abbrev PWR_EVENT_LIMIT : RF := ⟨0x10C014, 3, 3⟩
abbrev PWR_EVENT_HOT : RF := ⟨0x10C014, 2, 2⟩
abbrev PWR_EVENT_OV_WARN : RF := ⟨0x10C014, 1, 1⟩
abbrev PWR_EVENT_UV_WARN : RF := ⟨0x10C014, 0, 0⟩
abbrev CFG_STRAP_MID : RF := ⟨0x120080, 3, 0⟩
abbrev CUR_PPS_LO_TIME : RF := ⟨0x10028, 31, 0⟩
abbrev CUR_PPS_HI_TIME : RF := ⟨0x1002C, 31, 0⟩
abbrev SP_BMAP_MAP : RF := ⟨0x200, 31, 0⟩
abbrev SP_CTL_STRICT : RF := ⟨0x204, 15, 0⟩
abbrev SP_CONF_COUNT : RF := ⟨0x208, 31, 0⟩
abbrev SP_MOP_PEND : RF := ⟨0x20C, 2, 0⟩
abbrev DC_CTL_INVD : RF := ⟨0x210, 3, 3⟩
abbrev DC_CTL_INV : RF := ⟨0x210, 2, 2⟩
abbrev DC_CTL_CLEAN : RF := ⟨0x210, 1, 1⟩
abbrev DC_CTL_EN : RF := ⟨0x210, 0, 0⟩
abbrev DC_MISS_COUNT : RF := ⟨0x214, 31, 0⟩
abbrev CR_CFG_EN (k : Nat) : RF := ⟨0x240 + 16 * k, 31, 31⟩
abbrev CR_CFG_OWNER (k : Nat) : RF := ⟨0x240 + 16 * k, 30, 29⟩
abbrev CR_CFG_SIZEM1 (k : Nat) : RF := ⟨0x240 + 16 * k, 28, 16⟩
abbrev CR_CFG_BASE (k : Nat) : RF := ⟨0x240 + 16 * k, 12, 0⟩
abbrev CR_PTR_TAIL (k : Nat) : RF := ⟨0x244 + 16 * k, 28, 16⟩
abbrev CR_PTR_HEAD (k : Nat) : RF := ⟨0x244 + 16 * k, 12, 0⟩
abbrev CR_FILL_FAIL (k : Nat) : RF := ⟨0x248 + 16 * k, 31, 31⟩
abbrev CR_FILL_WRAP (k : Nat) : RF := ⟨0x248 + 16 * k, 29, 16⟩
abbrev CR_FILL_FILL (k : Nat) : RF := ⟨0x248 + 16 * k, 13, 0⟩
abbrev CR_OP_KIND (k : Nat) : RF := ⟨0x24C + 16 * k, 31, 31⟩
abbrev CR_OP_N (k : Nat) : RF := ⟨0x24C + 16 * k, 13, 0⟩
abbrev QQ_CFG_EN (k : Nat) : RF := ⟨0x300 + 8 * k, 31, 31⟩
abbrev QQ_CFG_CLOSED (k : Nat) : RF := ⟨0x300 + 8 * k, 30, 30⟩
abbrev QQ_CFG_COMB (k : Nat) : RF := ⟨0x300 + 8 * k, 29, 29⟩
abbrev QQ_CFG_ANY (k : Nat) : RF := ⟨0x300 + 8 * k, 28, 28⟩
abbrev QQ_CFG_READER (k : Nat) : RF := ⟨0x300 + 8 * k, 27, 26⟩
abbrev QQ_CFG_CTX (k : Nat) : RF := ⟨0x300 + 8 * k, 25, 20⟩
abbrev QQ_CFG_REGION (k : Nat) : RF := ⟨0x300 + 8 * k, 19, 17⟩
abbrev QQ_CNT_DISC (k : Nat) : RF := ⟨0x304 + 8 * k, 31, 16⟩
abbrev QQ_CNT_SEQ (k : Nat) : RF := ⟨0x304 + 8 * k, 15, 0⟩
abbrev CQ_CFG_TYPE : RF := ⟨0x340, 31, 30⟩
abbrev CQ_CFG_OVF : RF := ⟨0x340, 29, 29⟩
abbrev CQ_CFG_LEN : RF := ⟨0x340, 27, 22⟩
abbrev CQ_CFG_N : RF := ⟨0x340, 15, 0⟩
abbrev CQ_STAT_ARRIVED : RF := ⟨0x344, 31, 16⟩
abbrev CQ_STAT_ROUNDS : RF := ⟨0x344, 15, 0⟩

end Sys2Proof.Machine
end

