-- ==== Sys2Proof/Machine/Sha.lean ====
section
/-! DEFINITION. SHA-256, the digest that R411 to R422 name. The manual names the standard and not its text: what stands here is FIPS 180-4
(PRESUMED, log 9). -/

namespace Sys2Proof.Machine

/-- The initial hash value of SHA-256. -/
def shaInit : List (BitVec 32) :=
  [0x6A09E667, 0xBB67AE85, 0x3C6EF372, 0xA54FF53A, 0x510E527F, 0x9B05688C, 0x1F83D9AB, 0x5BE0CD19]

/-- The round constants of SHA-256. -/
def shaK : List (BitVec 32) :=
  [0x428A2F98, 0x71374491, 0xB5C0FBCF, 0xE9B5DBA5, 0x3956C25B, 0x59F111F1, 0x923F82A4, 0xAB1C5ED5,
   0xD807AA98, 0x12835B01, 0x243185BE, 0x550C7DC3, 0x72BE5D74, 0x80DEB1FE, 0x9BDC06A7, 0xC19BF174,
   0xE49B69C1, 0xEFBE4786, 0x0FC19DC6, 0x240CA1CC, 0x2DE92C6F, 0x4A7484AA, 0x5CB0A9DC, 0x76F988DA,
   0x983E5152, 0xA831C66D, 0xB00327C8, 0xBF597FC7, 0xC6E00BF3, 0xD5A79147, 0x06CA6351, 0x14292967,
   0x27B70A85, 0x2E1B2138, 0x4D2C6DFC, 0x53380D13, 0x650A7354, 0x766A0ABB, 0x81C2C92E, 0x92722C85,
   0xA2BFE8A1, 0xA81A664B, 0xC24B8B70, 0xC76C51A3, 0xD192E819, 0xD6990624, 0xF40E3585, 0x106AA070,
   0x19A4C116, 0x1E376C08, 0x2748774C, 0x34B0BCB5, 0x391C0CB3, 0x4ED8AA4A, 0x5B9CCA4F, 0x682E6FF3,
   0x748F82EE, 0x78A5636F, 0x84C87814, 0x8CC70208, 0x90BEFFFA, 0xA4506CEB, 0xBEF9A3F7, 0xC67178F2]

/-- Bits moved to the right round a word. -/
def rotr (n : Nat) (x : BitVec 32) : BitVec 32 := x.rotateRight n

/-- The two small functions of the message schedule. -/
def shaSmall0 (x : BitVec 32) : BitVec 32 := rotr 7 x ^^^ rotr 18 x ^^^ (x >>> 3)

/-- The second small function. -/
def shaSmall1 (x : BitVec 32) : BitVec 32 := rotr 17 x ^^^ rotr 19 x ^^^ (x >>> 10)

/-- The message schedule, newest word first: n words added to those given. -/
def shaSchedule : Nat → List (BitVec 32) → List (BitVec 32)
  | 0, w => w
  | n + 1, w =>
    let at_ (i : Nat) : BitVec 32 := (w[i]?).getD 0
    shaSchedule n ((shaSmall1 (at_ 1) + at_ 6 + shaSmall0 (at_ 14) + at_ 15) :: w)

/-- One round on the eight working words, with its constant and schedule word added. -/
def shaRound (v : List (BitVec 32)) (kw : BitVec 32) : List (BitVec 32) :=
  match v with
  | [a, b, c, d, e, f, g, h] =>
    let s1 := rotr 6 e ^^^ rotr 11 e ^^^ rotr 25 e
    let ch := (e &&& f) ^^^ (~~~e &&& g)
    let t1 := h + s1 + ch + kw
    let s0 := rotr 2 a ^^^ rotr 13 a ^^^ rotr 22 a
    let maj := (a &&& b) ^^^ (a &&& c) ^^^ (b &&& c)
    [t1 + (s0 + maj), a, b, c, d + t1, e, f, g]
  | _ => v

/-- The big-endian word that four bytes spell. -/
def beWord (l : List (BitVec 8)) : BitVec 32 := BitVec.ofNat 32 (l.foldl (fun n b => n * 256 + b.toNat) 0)

/-- The 16 words of a block. -/
def blockWords (l : List (BitVec 8)) : List (BitVec 32) := (List.range 16).map (fun i => beWord ((l.drop (4 * i)).take 4))

/-- A block of 64 bytes taken into the hash. -/
def shaBlock (h : List (BitVec 32)) (l : List (BitVec 8)) : List (BitVec 32) :=
  let w := (shaSchedule 48 (blockWords l).reverse).reverse
  ((shaK.zip w).foldl (fun v p => shaRound v (p.1 + p.2)) h).zipWith (fun x y => x + y) h

/-- n blocks taken into the hash. -/
def shaBlocks : Nat → List (BitVec 32) → List (BitVec 8) → List (BitVec 32)
  | 0, h, _ => h
  | n + 1, h, l => shaBlocks n (shaBlock h (l.take 64)) (l.drop 64)

/-- A message padded to whole blocks: one bit, zeros, and the length in bits as eight big-endian bytes. -/
def shaPad (l : List (BitVec 8)) : List (BitVec 8) :=
  let n := l.length
  let zeros := (119 - n % 64) % 64
  l ++ [0x80] ++ List.replicate zeros 0 ++ (List.range 8).map (fun i => BitVec.ofNat 8 (8 * n / 2 ^ (8 * (7 - i))))

/-- SHA-256 of a byte string. -/
def sha256 (l : List (BitVec 8)) : BitVec 256 :=
  let p := shaPad l
  BitVec.ofNat 256 ((shaBlocks (p.length / 64) shaInit p).foldl (fun n w => n * 2 ^ 32 + w.toNat) 0)

/-- The 32 bytes of a digest, the most significant first. -/
def digestBytes (d : BitVec 256) : List (BitVec 8) := (List.range 32).map (fun i => BitVec.ofNat 8 (d.toNat / 2 ^ (8 * (31 - i))))

-- what the module's constants make of it

/-- A vendor public key, K0's or K1's: 32 bytes (R414). -/
def vendorKey (k : Bool) : List (BitVec 8) := (List.range 32).map (Config.vendorByte k)

/-- The vendor key digests K0 and K1 (R414). -/
def keyDigest (k : Bool) : BitVec 256 := sha256 (vendorKey k)

/-- The mask ROM: the boot code with its helper data, and the two vendor key digests (R414, R415). -/
def maskRom : List (BitVec 8) := Config.bootCode ++ digestBytes (keyDigest false) ++ digestBytes (keyDigest true)

/-- Whether the identity certificate holds the identity key's digest (R415). -/
def identityOk : Bool := sha256 Config.identityKey == Config.certDigest Config.identityCert

/-- Measurement 5: the digest of straps, DBG_OPEN and IDERR (R421). -/
def configDigest (mid : Nat) (dbgOpen idErr : Bool) : BitVec 256 := sha256 (Config.configImage mid dbgOpen idErr)

/-- The certificate chain of slot 0 (R420): the vendor key at its root, the identity certificate, and the attestation certificate of an epoch. -/
def certChain (epoch : Nat) : List (BitVec 8) := vendorKey Config.certKey ++ Config.identityCert ++ Config.attestCert epoch

/-- A signature of 17,088 bytes made in an epoch on a request (R420). -/
def signature (epoch : Nat) (req : List Nat) : List (BitVec 8) := (List.range 17088).map (Config.signedByte epoch req)

end Sys2Proof.Machine
end

