-- ==== Sys2Proof/Syntax.lean ====
section
/-! DEFINITION. The commands of the block: one constructor of Instr per row of spec/opcode_table.json,
with the operands each row needs. -/

namespace Sys2Proof

/-- One prefix syllable before an operation (R117). `ill` stands for a prefix that is illegal in itself:
payload bits [9:7] = 0b111, or the stop bit set on a prefix (R122). -/
inductive Pfx where
  | imm (data : BitVec 9)
  | reg (b : BitVec 4) (dh ah : Bool) (p : BitVec 2)
  | fmt (code : BitVec 4) (rnd : BitVec 3)
  | ill
  deriving DecidableEq, Repr

/-- The thread that issues an operation, the prefixes before it and the stop bit of its syllable (R116).
With `stop` false the operation joins the bundle being fetched; with `stop` true the bundle is whole.
What the core's hardware meets on the way is the sender's to say: `residue` is what the residue check beside the arithmetic found
(R367), true for a mismatch; `met` is for how many cycles the operation's scratchpad access and the requests of other port classes it
met in a shared bank refused one another (R231, R232), 0 where it met none; `badRow` names one of the resources of R161 that the operation
reads, in the order it names them, and a row of its tile whose element storage or scale side holds a byte SECDED cannot correct (R155); `broken` is whether a register or a word of program memory that it reads holds an error
beyond correction (R363). -/
structure Iss where
  site : Nat
  th : Fin 4
  pfx : List Pfx
  stop : Bool
  residue : Bool
  met : Nat
  badRow : Option (Nat × Nat)
  broken : Bool
  deriving DecidableEq, Repr

/-- The requesters of R11 and R12. `bulk` is a bulk channel, `ring` one unit of a die's I/O ring, `stage` one of a die's
stage-manager cores, `mgmt` the management core, `debug` the debug access path (R341). -/
inductive Requester where
  | host
  | thread (site : Nat) (th : Fin 4)
  | chan (site : Nat) (c : Fin 2)
  | bulk (die : Nat) (c : Nat)
  | ring (die unit : Nat)
  | stage (m : Nat)
  | mgmt
  | debug
  | posted (by_ : Requester) (ctx : Nat)
  deriving DecidableEq, Repr

/-- A DMA channel: core channel c of a site, or bulk channel c of a die (R310). -/
inductive ChanId where
  | core (site : Nat) (c : Fin 2)
  | bulk (die : Nat) (c : Nat)
  deriving DecidableEq, Repr

/-- What the data of a load or of a unit's read brings besides its value (R331): nothing, a mesh timeout, an access error or
fabric status of the target, a payload parity error on the mesh (R253), or a granule, row or line that holds a byte which its
memory's code cannot correct (R227, R248, R269); or that the host refused the write of a burst (R395).
Unmapped status and other poison follow from the state. -/
inductive Arrival where
  | ok
  | busError
  | accessError
  | parity
  | uncorrectable
  | refused
  deriving DecidableEq, Repr

/-- A core-register or register-image write of the broadcast block (R109): the all-cores image or a group. -/
inductive Image where
  | all
  | group (g : Nat)
  deriving DecidableEq, Repr

/-- Outcome of a stack read at the controller (R269). -/
inductive EccOutcome where
  | clean
  | corrected
  | uncorrectable
  deriving DecidableEq, Repr

/-- What the patrol scrubber found at a granule (R272): a local address and the outcome. -/
structure Scrubbed where
  addr : Nat
  ecc : EccOutcome
  deriving DecidableEq, Repr

/-- An operand of an event, with what the event's data brings besides its value. -/
structure Meeting (α : Type) where
  val : α
  what : Arrival
  deriving DecidableEq, Repr

/-- A turn of a thread's long tile operation (R163): the thread, and what its next row meets, as in `Arrival`, at which line or granule of it. -/
structure TileTurn where
  th : Fin 4
  what : Arrival
  met : Nat
  deriving DecidableEq, Repr

/-- A turn of a core's memory engine (R236): the core, and how many rows it writes. -/
structure MemTurn where
  site : Nat
  rows : Nat
  deriving DecidableEq, Repr

/-- The guard band's start (R39): the instant, and what the patrol scrubber meets (R272). -/
structure GuardTurn where
  at_ : Nat
  found : List Scrubbed
  deriving DecidableEq, Repr

/-- Why a core is quarantined (R376, CHK_LAST.KIND). -/
inductive QuarCause where
  | disagreement
  | coreError
  | checkFailures
  | understudyDisagreement
  deriving DecidableEq, Repr

/-- Kinds of fabric transaction (R354). -/
inductive FabKind where
  | read
  | write
  | landing
  | atomicAdd
  | cue
  deriving DecidableEq, Repr

/-- A flit as it arrives (R348): SEQ, ACK with its retry request apart, the slot credits returned to each class, the kind and payload of CTL, and the
288 bytes of SLOTS. -/
structure Flit where
  seq : Nat
  ack : Nat
  retry : Bool
  reqCredit : Nat
  respCredit : Nat
  kind : Nat
  payload : Nat
  slots : List Byte
  deriving DecidableEq, Repr

/-- What training a port's link brings (R350, R361): the one-way delay measured, and the slot credits of each class that the peer's buffers give. -/
structure Trained where
  delay : Nat
  reqCredit : Nat
  respCredit : Nat
  deriving DecidableEq, Repr

/-- An outstanding request's tag, and the instant at which its time is looked at (R359). -/
structure TagTurn where
  tag : Nat
  at_ : Nat
  deriving DecidableEq, Repr

/-- A pulse of an input pin (R445, R447): the instant of its rising edge, for how long the pin was low before it, and for how long it then stays
high, in ns. -/
structure Pulse where
  at_ : Nat
  low : Nat
  high : Nat
  deriving DecidableEq, Repr

/-- SETDASA as the bus owner sends it (R407): the static address it names and the dynamic address it gives. -/
structure Dasa where
  target : Nat
  dyn : Nat
  deriving DecidableEq, Repr

/-- What a requester offers in NEGOTIATE_ALGORITHMS (R420): both ExtAsym entries, and the hash TPM_ALG_SHA_256. -/
structure AlgOffer where
  extAsym : Bool
  sha256 : Bool
  deriving DecidableEq, Repr

/-- An incoming fabric transaction (R354): sender's node and context, local address, data, and for a cue signal
the handle, increment and site. Bit g of `poison` marks the g-th granule that it touches (R354, R358). -/
structure FabReq where
  kind : FabKind
  node : Nat
  ctx : Nat
  addr : Nat
  len : Nat
  data : List Byte
  poison : BitVec 5
  site : Nat
  handle : Nat
  inc : Nat
  deriving DecidableEq, Repr

/-- A measured sample of every sensor (R410), in the units of its table. -/
structure Sensors where
  vin : Nat
  iin : Nat
  watts : Nat
  inlet : Int
  dieTemp : List Int
  stackTemp : List Int
  deriving DecidableEq, Repr

/-- A boundary-scan instruction of the test access port (R341). -/
inductive TapInstr where
  | bypass
  | samplePreload
  | extest
  deriving DecidableEq, Repr

/-- A scan of the test access port (R341): the instruction, and what is shifted into the boundary-scan register, one cell for each of the 18
sideband signals of R442 from PERST_N to MID3 in that table's order. -/
structure TapScan where
  instr : TapInstr
  cells : BitVec 18
  deriving DecidableEq, Repr

/-- A warm reset's cause (R432, PWR_STATUS.CAUSE). -/
inductive WarmCause where
  | perst
  | hotReset
  | command
  deriving DecidableEq, Repr

/-- The commands. -/
inductive Instr where
  -- class 0b000, scalar (R131): payload D and A
  | mov (i : Iss) (d a : BitVec 3)
  | add (i : Iss) (d a : BitVec 3)
  | sub (i : Iss) (d a : BitVec 3)
  | and (i : Iss) (d a : BitVec 3)
  | or (i : Iss) (d a : BitVec 3)
  | xor (i : Iss) (d a : BitVec 3)
  | shl (i : Iss) (d a : BitVec 3)
  | shr (i : Iss) (d a : BitVec 3)
  | sar (i : Iss) (d a : BitVec 3)
  | mul (i : Iss) (d a : BitVec 3)
  | mulh (i : Iss) (d a : BitVec 3)
  | mulhu (i : Iss) (d a : BitVec 3)
  | slt (i : Iss) (d a : BitVec 3)
  | sltu (i : Iss) (d a : BitVec 3)
  | min (i : Iss) (d a : BitVec 3)
  | max (i : Iss) (d a : BitVec 3)
  -- class 0b001 (R132)
  | addi (i : Iss) (d : BitVec 4) (imm : BitVec 2)
  | li (i : Iss) (d : BitVec 4) (imm : BitVec 2)
  | lih (i : Iss) (d : BitVec 4) (imm : BitVec 2)
  | andi (i : Iss) (d : BitVec 4) (imm : BitVec 2)
  | branch (i : Iss) (cond : BitVec 2) (a : BitVec 4) (off : BitVec 2)
  | br (i : Iss) (off : BitVec 7)
  | call (i : Iss) (off : BitVec 7)
  | jr (i : Iss) (a : BitVec 4) (z : BitVec 2)
  | callr (i : Iss) (a : BitVec 4) (z : BitVec 2)
  | ret (i : Iss) (z : BitVec 6)
  | loop (i : Iss) (k : BitVec 1) (a : BitVec 4) (off : BitVec 1)
  -- class 0b010, vector (R143)
  | vmov (i : Iss) (d a : BitVec 3)
  | vadd (i : Iss) (d a : BitVec 3)
  | vsub (i : Iss) (d a : BitVec 3)
  | vmul (i : Iss) (d a : BitVec 3)
  | vfma (i : Iss) (d a : BitVec 3)
  | vmin (i : Iss) (d a : BitVec 3)
  | vmax (i : Iss) (d a : BitVec 3)
  | vand (i : Iss) (d a : BitVec 3)
  | vor (i : Iss) (d a : BitVec 3)
  | vxor (i : Iss) (d a : BitVec 3)
  | vshift (i : Iss) (d a : BitVec 3)
  | vcmp (i : Iss) (d a : BitVec 3)
  | vsel (i : Iss) (d a : BitVec 3)
  | vcvt (i : Iss) (d a : BitVec 3)
  | vredSum (i : Iss) (d a : BitVec 3)
  | vredMax (i : Iss) (d a : BitVec 3)
  | vredMin (i : Iss) (d a : BitVec 3)
  | vbc (i : Iss) (d a : BitVec 3)
  -- class 0b100, load/store (R146)
  | ldw (i : Iss) (d a : BitVec 3)
  | ldh (i : Iss) (d a : BitVec 3)
  | ldhu (i : Iss) (d a : BitVec 3)
  | ldb (i : Iss) (d a : BitVec 3)
  | ldbu (i : Iss) (d a : BitVec 3)
  | stw (i : Iss) (d a : BitVec 3)
  | sth (i : Iss) (d a : BitVec 3)
  | stb (i : Iss) (d a : BitVec 3)
  | vld (i : Iss) (d a : BitVec 3)
  | vst (i : Iss) (d a : BitVec 3)
  | ldu (i : Iss) (d a : BitVec 3)
  | vldu (i : Iss) (d a : BitVec 3)
  | aadd (i : Iss) (d a : BitVec 3)
  | acas (i : Iss) (d a : BitVec 3)
  | aswp (i : Iss) (d a : BitVec 3)
  | dcClean (i : Iss) (d a : BitVec 3)
  | dcInvalidate (i : Iss) (d a : BitVec 3)
  | dcCleanInvalidate (i : Iss) (d a : BitVec 3)
  -- class 0b011, matrix and tile (R164): payload [5:3] and [2:0]
  | tcfg (i : Iss) (d a : BitVec 3)
  | trel (i : Iss) (d z : BitVec 3)
  | tld (i : Iss) (d a : BitVec 3)
  | tst (i : Iss) (d a : BitVec 3)
  | tmmaAcc0 (i : Iss) (a b : BitVec 3)
  | tmmaAcc1 (i : Iss) (a b : BitVec 3)
  | tcvt (i : Iss) (d a : BitVec 3)
  | tcvta (i : Iss) (d a : BitVec 3)
  | tza (i : Iss) (acc : BitVec 3) (a : BitVec 3)
  | tmova (i : Iss) (d a : BitVec 3)
  | trd (i : Iss) (t v : BitVec 3)
  | twr (i : Iss) (t v : BitVec 3)
  | tlds (i : Iss) (d a : BitVec 3)
  | tsts (i : Iss) (d a : BitVec 3)
  | twa (i : Iss) (d a : BitVec 3)
  | tileOpComplete (site : Nat) (th : TileTurn)
  | tileOpStop (site : Nat) (th : TileTurn) (boundary : Nat)
  -- class 0b101 (R286, R314, R234): payload [5:3] and [2:0]
  | csig (i : Iss) (a b : BitVec 3)
  | cwait (i : Iss) (a b : BitVec 3)
  | ctake (i : Iss) (a b : BitVec 3)
  | carm (i : Iss) (a b : BitVec 3)
  | carmDisarm (i : Iss) (a b : BitVec 3)
  | qsend (i : Iss) (a b : BitVec 3)
  | qsendCommit (i : Iss) (a b : BitVec 3)
  | qrecv (i : Iss) (a b : BitVec 3)
  | qrecvRelease (i : Iss) (a b : BitVec 3)
  | qrecvReleaseReceive (i : Iss) (a b : BitVec 3)
  | qclose (i : Iss) (a b : BitVec 3)
  | qopen (i : Iss) (a b : BitVec 3)
  | dmago (i : Iss) (a b : BitVec 3)
  | dmawait (i : Iss) (a b : BitVec 3)
  | dmawaitDrain (i : Iss) (a b : BitVec 3)
  | mfill (i : Iss) (a b : BitVec 3)
  | mcopy (i : Iss) (a b : BitVec 3)
  | memoryOpComplete (site : MemTurn)
  -- class 0b111, system (R150): payload A and B
  | nop (i : Iss) (a b : BitVec 3)
  | sleep (i : Iss) (a b : BitVec 3)
  | trap (i : Iss) (a b : BitVec 3)
  | brk (i : Iss) (a b : BitVec 3)
  | eret (i : Iss) (a b : BitVec 3)
  | mfs (i : Iss) (a b : BitVec 3)
  | mts (i : Iss) (a b : BitVec 3)
  | mfsD (i : Iss) (a b : BitVec 3)
  | mtsD (i : Iss) (a b : BitVec 3)
  | mtb (i : Iss) (a b : BitVec 3)
  | mfb (i : Iss) (a b : BitVec 3)
  | stepend (i : Iss) (a b : BitVec 3)
  | stependc (i : Iss) (a b : BitVec 3)
  | batchend (i : Iss) (a b : BitVec 3)
  -- events of a core
  | loadDataArrival (site : Nat) (th : Fin 4) (k : Nat) (what : Arrival)
  | cacheLineFill (site : Nat) (addr : Nat) (demand : Meeting Bool)
  | wake (site : Nat) (th : Fin 4)
  | timerFire (site : Nat) (th : Fin 4) (at_ : Nat)
  | waitBound (site : Nat) (th : Fin 4) (at_ : Nat)
  | thread0L1Entry (site : Nat)
  | interruptTake (site : Nat) (th : Fin 4)
  | breakpointStop (site : Nat) (th : Fin 4)
  | budgetCut (site : Nat) (at_ : Nat)
  | cueSignalArrival (k : Nat)
  | queueMessageCommit (site : Nat) (q : Meeting (Fin 8))
  | queueSendRetry (site : Nat) (th : Fin 4)
  | threadStart (r : Requester) (site : Nat) (th : Fin 4)
  | threadHalt (r : Requester) (site : Nat) (th : Fin 4)
  | threadResume (r : Requester) (site : Nat) (th : Fin 4)
  | safeWrite (r : Requester) (site : Nat) (v : Bool)
  | ctxChange (r : Requester) (site : Nat) (th : Fin 4) (ctx : Nat)
  | swi (r : Requester) (site : Nat) (th : Fin 4)
  | broadcastWrite (r : Requester) (img : Image) (off : Nat) (v : Word)
  | cueCountWrite (r : Requester) (site : Nat) (n : Fin 64) (v : Word)
  | regionEnable (site : Nat) (k : Fin 8) (v : Word)
  | claim (site : Nat) (k : Fin 8) (n : Nat)
  | release (site : Nat) (k : Fin 8) (n : Nat)
  | queueEnable (site : Nat) (q : Fin 8) (v : Word)
  | stagingDiscard (site : Nat) (th : Fin 4)
  | cacheInv (site : Nat)
  | cacheClean (site : Nat)
  | cacheEnable (r : Requester) (site : Nat)
  | cacheDisable (site : Nat)
  | numSeedAccess (site : Nat) (th : Fin 4) (w : Option Word)
  | l2Resume (r : Requester) (site : Nat) (th : Fin 4)
  | l2Run2 (r : Requester) (site : Nat) (th : Fin 4)
  | debugStop (r : Requester) (site : Nat) (th : Fin 4)
  | debugResume (r : Requester) (site : Nat) (th : Fin 4)
  | debugStep (r : Requester) (site : Nat) (th : Fin 4)
  | debugRegAccess (r : Requester) (site : Nat) (w : Option Word)
  -- DMA (13)
  | dmaCommandStart (ch : ChanId)
  | dmaBurst (ch : ChanId) (what : Arrival)
  | dmaDone (ch : ChanId)
  | dmaErrorHalt (ch : ChanId)
  | dmaTimeout (ch : ChanId) (at_ : Nat)
  | dmaRetry (r : Requester) (ch : ChanId)
  | dmaResume (r : Requester) (ch : ChanId)
  | dmaSkip (r : Requester) (ch : ChanId)
  | dmaFlush (r : Requester) (ch : ChanId)
  | bdmaDoorbell (r : Requester) (die : Nat) (c : Nat) (v : Word)
  | bdmaDescriptorFetch (die : Nat) (c : Nat) (what : Arrival)
  | bdmaReq (r : Requester) (die : Nat) (line : Nat)
  -- memory, mesh, program memory
  | writeLand (k : Nat) (what : Arrival)
  | hbmRead (die : Nat) (addr : Nat) (ecc : EccOutcome) (cycle : Nat)
  | meshTimeout (die : Nat) (addr : Nat) (hdr : Bool)
  | pmcLoad (r : Requester) (die : Nat) (grp : Bool) (target : Meeting Nat)
  | pmcSave (r : Requester) (die : Nat) (grp : Bool) (target : Meeting Nat)
  -- curtain and box office (02)
  | curtain (at_ : Nat)
  | curtainInEdge (at_ : Pulse)
  | flywheelCurtain (at_ : Nat)
  | acquisitionTimeout (at_ : Nat)
  | arm (r : Requester)
  | sourceSwitch (r : Requester) (src : Nat)
  | ppsEdge (at_ : Pulse)
  | clockFix (at_ : Nat)
  | boxOfficeClose (at_ : Nat)
  | guardBandStart (at_ : GuardTurn)
  | refreshBurst (at_ : Nat)
  | deliveryDeadline (at_ : Nat)
  | actRelease (r : Requester) (die : Nat) (act : Nat)
  | boxEnable (r : Requester) (die : Nat) (v : Bool)
  -- intake, callboard, stream director, egress (03)
  | intakeDoorbell (r : Requester) (die : Nat) (ring : Nat) (v : Word)
  | intakeFetch (die : Nat) (ring : Nat) (at_ : Nat) (what : Arrival)
  | forwardedRecord (die : Nat) (at_ : Meeting Nat)
  | cbRead (r : Requester) (die : Nat) (stream : Nat)
  | cbWrite (r : Requester) (die : Nat) (stream : Nat)
  | cbSuspend (r : Requester) (die : Nat) (stream : Nat)
  | cbResume (r : Requester) (die : Nat) (stream : Nat)
  | cbFree (r : Requester) (die : Nat) (stream : Nat)
  | cbCopyIn (r : Requester) (die : Nat) (stream : Meeting Nat)
  | cbCopyOut (r : Requester) (die : Nat) (stream : Meeting Nat)
  | callboardEccError (stream : Nat)
  | stageBatch (site : Nat) (at_ : Meeting Nat)
  | strike (site : Nat) (slot : Nat) (at_ : Meeting Nat)
  | egressRecord (die : Nat) (at_ : Nat) (refused : Meeting Bool)
  | egressCompletion (die : Nat) (ring : Nat) (at_ : Nat) (refused : Meeting Bool)
  | egressHeadWrite (r : Requester) (die : Nat) (ring : Nat) (v : Word)
  -- integrity and ledger (16)
  | replayPrepare (site : Nat) (act : Nat)
  | replayStage (die : Nat) (at_ : Meeting Nat)
  | quarantine (site : Nat) (why : QuarCause) (at_ : Nat)
  | promotion (site : Nat) (at_ : Nat)
  | machineCheckHandling (site : Nat) (th : Fin 4) (at_ : Nat)
  | ledgerGranuleLand (die : Nat)
  | ledgerEnable (r : Requester) (die : Nat)
  | ledgerDisable (r : Requester) (die : Nat)
  -- update engine (08)
  | updateBoundary (die : Nat)
  | grpReadActive (r : Requester) (die : Nat) (g : Nat)
  | grpReadShadow (r : Requester) (die : Nat) (g : Nat)
  | writeShadow (r : Requester) (die : Nat) (g : Nat)
  | grpReadEta (r : Requester) (die : Nat) (g : Nat)
  -- event gatherer (14)
  | eventDelivery (die : Nat) (at_ : Nat)
  | holdoffExpiry (die : Nat) (g : Nat) (at_ : Nat)
  | eoi (r : Requester) (die : Nat) (t : Nat)
  | evgSwset (r : Requester) (die : Nat) (src : Nat)
  -- fabric (15)
  | fabricLinkUp (die : Nat) (peerNode peerPort : Nat) (delay : Trained)
  | fabricLinkDown (die : Nat)
  | retrain (r : Requester) (die : Nat)
  | flitReceive (die : Nat) (seq : Flit) (corrected : Nat) (crcOk : BitVec 64)
  | fabricRequest (die : Nat) (q : FabReq)
  | ingressAdmit (die : Nat) (at_ : Nat)
  | fabricResponse (tag : Nat) (status : Nat) (data : List Byte) (poison : BitVec 5)
  | fabricTimeout (tag : TagTurn)
  | timeMarkSend (at_ : Nat)
  | timeMarkReceive (die : Nat) (lead frame : Nat) (at_ : Nat)
  | nodeWrite (r : Requester) (v : Nat)
  -- host interface and settings sets (17)
  | hostRead (bar : Nat) (off : Nat) (len : Meeting Nat)
  | hostWrite (bar : Nat) (off : Nat) (data : List Byte) (ep : Meeting Bool)
  | msixUnmask (v : Nat)
  | ctxReadEntry (r : Requester) (ctx entry : Nat)
  | ctxWriteEntry (r : Requester) (ctx entry : Nat)
  | ctxReadAttr (r : Requester) (ctx : Nat)
  | ctxWriteAttr (r : Requester) (ctx : Nat)
  | publish (r : Requester) (ctx : Nat)
  | publishComplete
  | swapRequest (r : Requester)
  | swapValidation (at_ : Nat)
  | swapCancel (r : Requester)
  | ssCopy (r : Requester)
  | actReadActive (r : Requester) (act : Nat)
  | actReadShadow (r : Requester) (act : Nat)
  | actWriteShadow (r : Requester) (act : Nat)
  | asnReadActive (r : Requester) (die site : Nat)
  | asnReadShadow (r : Requester) (die site : Nat)
  | asnWriteShadow (r : Requester) (die site : Nat)
  | d3hotEntry
  | d0Return
  | pmeTurnOff
  -- management and trust (18)
  | heartbeat
  | takeover
  | sensorSample (x : Sensors)
  | eventRetry (port : Fin 2)
  | pldmEventAck (port : Fin 2)
  | logAck (r : Requester)
  | entdaa (port : Fin 2) (addr : Nat)
  | setdasa (port : Fin 2) (addr : Dasa)
  | mctpControl (port : Fin 2) (cmd : Nat) (arg : Nat)
  | pldmDiscovery (port : Fin 2) (type cmd : Nat)
  | pldmSensorRead (port : Fin 2) (id : Nat)
  | pldmFruRead (port : Fin 2) (off len : Nat)
  | requestUpdate (port : Fin 2) (bundle : List Byte)
  | getVersion (port : Fin 2)
  | getCapabilities (port : Fin 2)
  | negotiateAlgorithms (port : Fin 2) (extAsym : AlgOffer)
  | getDigests (port : Fin 2)
  | getCertificate (port : Fin 2) (slot off len : Nat)
  | challenge (port : Fin 2) (nonce : Nat)
  | getMeasurements (port : Fin 2) (index : Nat) (sign : Bool) (nonce : Nat)
  | chunkSend (port : Fin 2) (handle seq : Nat) (data : List Byte) (last : Bool)
  | chunkGet (port : Fin 2) (handle seq : Nat)
  | signingComplete
  | fwVerify (r : Requester)
  | fwDiscard (r : Requester)
  | attestationReady
  | debugTokenSubmit (r : Requester)
  | dbgacc (addr : Nat) (w : Option Word)
  | rehearsalSet (r : Requester) (mask : BitVec 64)
  -- power and resets (19, 20)
  | undervoltageWarning
  | undervoltageLockout (at_ : Nat)
  | railsOff
  | overcurrent (at_ : Nat)
  | overvoltageWarning
  | overvoltageTrip
  | lossOf56v
  | thermalTrip
  | overpower
  | pwrEnRise
  | pwrEnFall (at_ : Nat)
  | perstNAssert
  | perstNRelease
  | powerOnReset
  | coldReset (selfTestFail : List Nat) (straps : Nat)
  | warmReset (why : WarmCause)
  | softReset
  | pwrResetSoft (r : Requester)
  | pwrResetWarm (r : Requester)
  | softDone
  | ready
  | preqSet (r : Requester)
  | preqClear (r : Requester)
  -- registers and links
  | readLo (r : Requester) (addr : Nat)
  | writeHi (r : Requester) (addr : Nat) (v : Word)
  | registerWrite (r : Requester) (addr : Nat) (v : Word)
  | pcieLinkDown
  | pcieLinkUp (gen width : Nat)
  | busMasterEnable (v : Bool)
  | stackHot (die : Nat) (hot : Bool)
  | pmcCopyComplete (die : Nat)
  | cbCopyComplete (die : Nat)
  | ssCopyComplete
  | fwVerifyComplete
  | enableEvents (port : Fin 2) (on : Bool)
  | extest (i : TapScan)
  deriving DecidableEq, Repr

end Sys2Proof
end

