-- ==== Sys2Proof/Machine/State.lean ====
section
/-! DEFINITION. The state of the block: plain data holding every piece of state the spec gives the module, the
faults and refusals of a step, and the state after reset. -/

namespace Sys2Proof.Machine

/-- Faults of a step. No command of this block stops the machine: a thread's fault is a trap entry (R328), a DMA
error a halted channel (R320), and both are next states. Nothing raises `halted`; it is safe. -/
inductive Fault where
  | halted
  deriving DecidableEq, Repr

/-- Refusals of a step. `notModelled` is raised by exec alone for a command without a meaning, and is safe. -/
inductive Refusal where
  | notModelled (mnemonic : String)
  deriving DecidableEq, Repr

/-- Execution levels (R325). -/
inductive Level where
  | l0
  | l1
  | l2
  deriving DecidableEq, Repr

/-- Slots of a bundle (R116), in the order R124 records faults. -/
inductive Slot where
  | S
  | V
  | M
  | T
  deriving DecidableEq, Repr

/-- A fault found by an operation: cause code (R331), address, software code, whether it is a decode fault of R120,
R122 or R123, and the global address of an unmapped access (R264). -/
structure Flt where
  cause : Nat
  addr : Nat := 0
  tcode : Nat := 0
  decode : Bool := false
  loc : Option Nat := none
  deriving DecidableEq, Repr

/-- Kinds of load (R146), and TLDS of n scale bytes from memory out of the core's reach (R164). -/
inductive LdKind where
  | w
  | h
  | hu
  | b
  | bu
  | vec
  | aadd
  | acas
  | aswp
  | scale (tile n : Nat)
  deriving DecidableEq, Repr

/-- A load or atomic that has retired and whose data has not arrived (R331). `loc` is the global address,
`own` marks the core's own scratchpad, `tag` a fabric request, `resp` its data where it is in hand, with poison and a status, and `seen` the
observed sets of the landing writes whose value that data is (R282). -/
structure Load where
  kind : LdKind
  dst : Nat
  ea : Nat
  loc : Nat
  own : Bool
  cached : Bool
  opnd : Word
  cmp : Word
  tag : Option Nat
  resp : Option (List Byte × Bool × Nat)
  cmd : Nat
  seen : List Nat
  deriving DecidableEq, Repr

/-- A long tile operation in flight (R163): code of R164, tiles, base address, stride, FMT operand, rounding, the next
row or k, and the quadrant (R177); `ovf` is the overflow mode its bundle issued under (R197), and `bk`, `slice` and `spill` the registers that its
rows resolve under (R128); `tag` and `resp` are a row's read over the fabric and what it brought. -/
structure TileOp where
  code : Nat
  d : Nat
  s : Nat
  base : Nat
  stride : Nat
  rnd : Nat
  ovf : Bool
  row : Nat
  k : Nat
  quad : Nat
  tag : Option Nat
  resp : Option (List Byte × Bool × Nat)
  bk : Vector (BitVec 64) 8
  slice : Word
  spill : Word
  deriving DecidableEq, Repr

/-- A queue message or sum being sent or written (R299, R300): payload words, sender, its context and observed set. -/
structure QMsg where
  kind : Nat
  words : List (BitVec 64)
  site : Nat
  th : Nat
  ctx : Nat
  start : Nat
  units : Nat
  seq : Nat
  obs : List Nat
  deriving DecidableEq, Repr

/-- What a thread waits for (R95, R247, R292, R300, R303, R315). `sent` is a commit whose message is written, while an operation
beside it in the bundle still waits. -/
inductive WaitKind where
  | sleep
  | cwait (counter : Nat)
  | qrecv (q : Nat)
  | qsend (site q : Nat)
  | dma (c : Nat) (ticket : Nat)
  | drain
  | batchEnd
  | sent
  deriving DecidableEq, Repr

/-- A wait in progress: its kind, the register that takes the status, the bound in core cycles of the frame (none:
the curtain only), and the frame in which it began (R97, R292); `keep` is the counter that a CWAIT of the bundle was translated to when it
issued, while something else of the bundle is waited for (R288). -/
structure Wait where
  kind : WaitKind
  dst : Nat
  bound : Option Nat
  frame : Nat
  order : Nat
  keep : Option Nat
  deriving DecidableEq, Repr

/-- The effects an operation has when its bundle retires (R123, R124). -/
inductive Eff where
  | s (r : Fin 16) (x : Word)
  | v (r : Fin 16) (x : Vec)
  | p (r : Fin 4) (x : BitVec 64)
  | bank (b : Fin 8) (x : BitVec 64)
  | streg (num : Nat) (t : Fin 4) (x : BitVec 64)
  | seedStep (t : Fin 4)
  | jump (pc : BitVec 16)
  | push (ret : BitVec 16)
  | pop
  | loopStart (k : Fin 2) (beg last : BitVec 16) (count : Word)
  | counts (sat flush nan : Nat)
  | gens (g : List (Nat × Word))
  | suspect
  | conf (n : Nat)
  | store (loc : Nat) (own cached : Bool) (bytes : List Byte) (psn : Bool)
  | seen (l : List Nat)
  | load (l : Load)
  | dc (op : Nat) (loc : Nat)
  | tcfg (t : Nat) (w : Nat)
  | trel (t : Nat)
  | twr (t row : Nat) (x : Vec)
  | tza (a : Nat) (w : Nat)
  | twa (a row : Nat) (x y : Vec)
  | drained (a : Nat)
  | scaleSet (t : Nat) (bytes : List Byte)
  | long (o : TileOp)
  | cueSignal (counter : Option Nat) (word handle inc : Nat)
  | cueTake (counter : Nat)
  | cueArm (handle : Nat) (counter : Nat)
  | cueDisarm
  | stage (ws : List (BitVec 64))
  | qrelease (q : Nat)
  | qclose (q : Nat)
  | qopen (q : Nat)
  | dmago (c : Nat) (desc : BitVec 512)
  | mem (fill : Bool) (dst src len : Nat) (pat : Word) (cue : Option Nat)
  | wait (w : Wait)
  | trap (cause : Nat) (tcode : Nat)
  | brkStop
  | eret (t : Fin 4)
  | stepEnd (slot len : Nat) (cont : Bool)
  | batchEnd
  deriving DecidableEq, Repr

/-- A bundle being fetched: its first syllable, the syllables and slots so far, and its operations in order. -/
structure Fetched where
  start : BitVec 16
  syl : Nat
  slots : List Slot
  ops : List Instr
  deriving DecidableEq, Repr

/-- Where a bundle whose long tile operation is under way, or was stopped, goes on (R125, R139): the bundle's first syllable, the PC
its transfer or loop-back gave at first issue, the loop registers that change, and the TRAP or ERET of the bundle, which follows the
operation (log 42). -/
structure Onward where
  start : BitVec 16
  pc : BitVec 16
  loops : List (Nat × Word)
  acts : List Eff
  deriving DecidableEq, Repr

/-- Save registers of one level (R328, R330). `went` is the model's own: where the bundle of a stopped long operation goes on once
the operation is done (R125; log 42). -/
structure Save where
  pc : BitVec 16
  st : Word
  cause : Word
  addr : Word
  prog : Word
  scr : Word
  went : Option Onward
  deriving DecidableEq, Repr

/-- One hardware thread (R88, R130). `armed` is the counter that cue.arm was translated to (R288, R295). `hold` names the commands its next bundle waits for (R246).
`after` is where the thread goes, and which loop registers change, when its long tile operation is done (R125, R139); `late` the errors of load
data that wait for its boundary, oldest first (R331). -/
structure Thread where
  pc : BitVec 16
  level : Level
  s : Vector Word 16
  v : Vector Vec 16
  p : Vector (BitVec 64) 4
  bk : Vector (BitVec 64) 8
  ctx : Nat
  slice : Word
  spill : Word
  cmp : BitVec 64
  wake : Word
  mwait : Word
  numSat : Word
  numFlush : Word
  numNan : Word
  numCtl : Word
  numSidx : Word
  seeds : Vector Word 64
  lc0 : Word
  lc1 : Word
  lp0beg : Word
  lp0end : Word
  lp1beg : Word
  lp1end : Word
  lpctl : Word
  ss : List (BitVec 16)
  ssDepth : Nat
  ssIdx : Nat
  sv1 : Save
  sv2 : Save
  prog : Word
  syncCtl : Word
  cueArm : Word
  armed : Option Nat
  staging : List (BitVec 64)
  bun : Option Fetched
  wait : Option Wait
  long : Option TileOp
  loads : List Load
  late : List (Nat × Nat)
  l2wait : Bool
  dbgStop : Bool
  stepping : Bool
  bpSkip : Bool
  obs : List Nat
  hold : List Nat
  after : Option Onward
  deriving DecidableEq, Repr

/-- A tile register (R155, R156): rows, scale side, poison bits, configuration word of tN.cfg. -/
structure Tile where
  rows : SMap Vec
  scale : BitVec 1024
  psn : Word
  cfg : Word
  deriving DecidableEq, Repr

/-- An accumulator (R169) with its checksum lines (R182): sums and magnitude sums per row and column. -/
structure Acc32 where
  el : SMap Word
  cfg : Word
  rowSum : SMap Word
  colSum : SMap Word
  rowMag : SMap Word
  colMag : SMap Word
  deriving DecidableEq, Repr

/-- A data-cache line (R242): address of the line, way, dirty, poison, its 64 bytes, and the observed sets that landing writes had left on
them when they were fetched, by byte (R282). -/
structure Line where
  addr : Nat
  way : Nat
  dirty : Bool
  poison : Bool
  data : Vec
  seen : SMap (List Nat)
  deriving DecidableEq, Repr

/-- A slot of the running batch (R79, R151). -/
structure SlotRec where
  stream : Nat
  off : Nat
  len : Nat
  nchan : Nat
  units : Nat
  ended : Bool
  payload : Nat
  cont : Bool
  struck : Bool
  suspect : Nat
  deriving DecidableEq, Repr

/-- The batch running on a core (R57, R151, R370): act, frame, home die of a replay, its slots and the numeric
counters at its start (R209). -/
structure Running where
  act : Nat
  frame : Nat
  ctx : Nat
  replay : Bool
  home : Nat
  slots : List SlotRec
  claimed : Nat
  started : Bool
  num0 : List (Nat × Nat × Nat)
  deriving DecidableEq, Repr

/-- A batch placed on a cast member and not yet staged (R45): the streams whose slots it stages here and the count of steps its
budget is loaded for (R57). -/
structure Placed where
  act : Nat
  frame : Nat
  streams : List Nat
  n : Nat
  replay : Bool
  home : Nat
  deriving DecidableEq, Repr

/-- A batch staged on a cast member behind the one that runs there (R79, R80): the first unit of its slots and the budget it will be loaded
with. -/
structure Ready where
  run : Running
  base : Nat
  bud : Nat
  deriving DecidableEq, Repr

/-- A DMA command (R312): descriptor, ticket or ring index, issuer and context, the act its traffic is part of (R310), command number,
the issuer's observed set, bytes
read so far, the holding register with the poison of each byte (R316), an index entry fetched over the fabric (R317), the least
byte whose write did not land (R320), and the start time. -/
structure DmaCmd where
  desc : BitVec 512
  ticket : Nat
  th : Nat
  ctx : Nat
  act : Option Nat
  cmd : Nat
  obs : List Nat
  done : Nat
  buf : List (Byte × Bool)
  idx : Option Nat
  bad : Option Nat
  started : Nat
  deriving DecidableEq, Repr

/-- An error that a channel has met and not yet halted for (R320): cause, whether a write met it, the failing address, and the instant. -/
structure ChanErr where
  cause : Nat
  dir : Bool
  addr : Nat
  seen : Nat
  deriving DecidableEq, Repr

/-- A DMA channel (R310, R318, R320). `credit` is the rate limit's credit in quarters of a byte as it stood at `creditAt`, none while it
is full; `left` is what is left of the burst under way; `want` is the counter whose request a core channel waits for before its next burst,
with its place among what waits there (R291); `dead` marks a running command that a budget cut ended (R322). -/
structure Chan where
  run : Option DmaCmd
  queue : List DmaCmd
  next : Nat
  credit : Option Nat
  creditAt : Nat
  left : Nat
  want : Option (Nat × Nat)
  err : Option ChanErr
  halt : Bool
  dead : Bool
  deriving DecidableEq, Repr

/-- A long accumulator of a combining queue (R307): the exact sum in units of 2^-149, and the special flags. -/
structure LongAcc where
  sum : Int
  nan : Bool
  pinf : Bool
  ninf : Bool
  deriving DecidableEq, Repr

/-- A memory-side operation (R236): `left` is the rows it has still to write, once it has started, with their poison, and `done` the rows
written. -/
structure MemOp where
  cmd : Nat
  fill : Bool
  dst : Nat
  src : Nat
  len : Nat
  pat : Word
  cue : Option Nat
  ctx : Nat
  th : Nat
  obs : List Nat
  left : Option (List (List Byte × Bool))
  done : Nat
  deriving DecidableEq, Repr

/-- Roles of a core (CFG_CORE_ID.ROLE, R113, R114). -/
inductive Role where
  | worker
  | understudy
  | quarantined
  deriving DecidableEq, Repr

/-- One core site (R18). Its memory-mapped registers are in State.regs, its scratchpad in State.mem. `ended` holds the
batches past their BATCHEND with slots the stream director has not struck (R80, R81), and `queued` those staged behind the running one.
`demand` is the line of the outstanding demand
miss and `ahead` the line being prefetched (R244); `lineErr` is the line and status of a fetch that ended in error for a bundle that
waits (R331). -/
structure Core where
  role : Role
  th : Vector Thread 4
  pm : SMap (BitVec 14)
  tiles : Vector Tile 8
  acc : Vector Acc32 2
  mxTol : Nat
  mxCnt : Nat
  mxLast : Nat
  lines : List Line
  demand : Option Nat
  ahead : Option Nat
  lineErr : Option (Nat × Nat)
  ptrs : SMap Nat
  trapCtl : Word
  trapPend : Word
  stgBase : Word
  stgCount : Word
  bud : Nat
  batch : Option Running
  ended : List Running
  placed : List Placed
  queued : List Ready
  memOps : List MemOp
  chans : Vector Chan 2
  qWriting : Vector (List QMsg) 8
  qReady : Vector (List QMsg) 8
  qHeld : Vector (Option QMsg) 8
  comb : List LongAcc
  combObs : List Nat
  combSum : Option QMsg
  cueObs : SMap (List (List Nat))
  resident : Option Nat
  fails : List Nat
  waits : Nat
  deriving DecidableEq, Repr

/-- A write issued and not yet landed (R274, R275): command, issuer, its context, global address, bytes, poison, landing flag, the
observed set it carries, whether it is held for that set (R280, R282), the fabric tag when it was sent out, the thread that issued
the command, its place in the command's byte stream, whether it is the write-back of a cache line, the act it is metered for (R59), and
whether it was made of beats that each cover a part of a granule (R316). -/
structure PWrite where
  cmd : Nat
  req : Requester
  ctx : Nat
  loc : Nat
  data : List Byte
  poison : Bool
  landing : Bool
  obs : List Nat
  tag : Option Nat
  orel : Bool
  iss : Option (Nat × Nat)
  off : Nat
  back : Bool
  act : Option Nat
  part : Bool
  deriving DecidableEq, Repr

/-- A cue signal under way (R288, R289); `node` is the target's node, 0 for this one. -/
structure Signal where
  site : Nat
  counter : Option Nat
  handle : Nat
  ctx : Nat
  rem : Bool
  inc : Nat
  obs : List Nat
  node : Nat
  deriving DecidableEq, Repr

/-- A request pending in a box office slice (R49, R50): each part is class and arrival; the host part adds LATEST and TAG. -/
structure Req where
  stream : Nat
  trig : Option (Nat × Nat)
  cont : Option (Nat × Nat)
  host : Option (Nat × Nat × Nat × Nat)
  deriving DecidableEq, Repr

/-- Where an accepted step stands (R64, R81, R386). -/
inductive StepPhase where
  | accepted
  | running
  | held
  | replaying
  deriving DecidableEq, Repr

/-- An accepted step without an outcome (R30, R81): `suspect` is the hold cause, `rpl` the frame it was last placed for replay in. -/
structure Step where
  stream : Nat
  act : Nat
  frame : Nat
  ctx : Nat
  cls : Nat
  host : Bool
  tag : Nat
  arrival : Nat
  req : Req
  site : Nat
  phase : StepPhase
  slot : Nat
  suspect : Nat
  tries : Nat
  lastUnd : Nat
  rpl : Nat
  late : Bool
  reh : Bool
  deriving DecidableEq, Repr

/-- A committed step whose delivery is owed (R27-R30): whether its LATE record is written, whether its egress record is, and when its completion became visible. -/
structure Delivery where
  stream : Nat
  act : Nat
  frame : Nat
  cls : Nat
  ctx : Nat
  host : Bool
  reh : Bool
  held : Bool
  ring : Nat
  die : Nat
  late : Bool
  written : Bool
  visible : Option Nat
  deriving DecidableEq, Repr

/-- An egress record on its way to its ring (R83, R84). -/
structure EgrRec where
  ring : Nat
  stream : Nat
  status : Nat
  ctx : Nat
  act : Nat
  flags : Nat
  len : Nat
  frame : Nat
  stepCnt : Nat
  seql : Nat
  tag : Nat
  commit : Nat
  payload : List Byte
  fresh : Bool
  deriving DecidableEq, Repr

/-- An intake record on its way to its home die (R67): its 32 bytes, the context of its ring, and the die that fetched it. -/
structure Fwd where
  bytes : List Byte
  ctx : Nat
  src : Nat
  deriving DecidableEq, Repr

/-- One die's event gatherer target stack entry (R337). -/
structure GEntry where
  prio : Nat
  src : Nat
  deriving DecidableEq, Repr

/-- What a group's run at a boundary left for the guard band (R218, R223). -/
structure GrpRun where
  g : Nat
  boundary : Nat
  copy : Nat
  poisoned : Bool
  allDone : Bool
  eta : Word
  installable : Bool
  deriving DecidableEq, Repr

/-- Outstanding fabric requests of this module, by tag (R354, R359). `stale` is a line's fill that an invalidation has overtaken: it serves the
loads that waited for it and is not kept (R281). -/
inductive FabOwner where
  | load (site : Nat) (th : Nat)
  | fill (site : Nat) (addr : Nat)
  | stale (site : Nat) (addr : Nat)
  | write
  | dmaRead (ch : ChanId)
  | signal
  deriving DecidableEq, Repr

/-- A request sent over the fabric and not answered, with the act that it and its response are metered for (R59) and the instant it
left its requester (R359). -/
structure FabOut where
  tag : Nat
  owner : FabOwner
  kind : FabKind
  addr : Nat
  len : Nat
  port : Nat
  act : Option Nat
  left : Nat
  deriving DecidableEq, Repr

/-- An incoming request waiting at a port's ingress buffer, with the local context it was given, whether it has waited for credit (R355, R360),
and whether its link has gone down since, so that its response is discarded (R351). -/
structure FabIn where
  q : FabReq
  lctx : Nat
  waited : Bool
  lost : Bool
  deriving DecidableEq, Repr

/-- An answer sent to another node (R354), bit g of `poison` for the g-th granule. -/
structure FabAns where
  die : Nat
  node : Nat
  status : Nat
  data : List Byte
  poison : BitVec 5
  deriving DecidableEq, Repr

/-- A record of the error log (R411), with a number of the model's own for acknowledgement by a port. -/
structure LogRec where
  time : Nat
  frame : Nat
  source : Nat
  die : Nat
  site : Nat
  stream : Nat
  sev : Nat
  cause : Nat
  rep : Nat
  acked : Bool
  id : Nat
  deriving DecidableEq, Repr

/-- One I3C port and its MCTP endpoint (R407, R408, R412, R420): `unit` is its transmission unit in bytes, `spdm` is how far the requester has come:
0 nothing, 1 version, 2 capabilities, 3 algorithms with the ExtAsym entries, 4 algorithms without; `response` a signed response awaiting CHUNK_GET.
-/
structure Port where
  dynAddr : Option Nat
  eid : Nat
  unit : Nat
  events : Bool
  queue : List LogRec
  spdm : Nat
  chunks : List Byte
  response : List Byte
  deriving DecidableEq, Repr

/-- Kinds of answer to a request over the management network (R409, R416, R420). -/
inductive Answer where
  | success
  | unsupportedPldmCmd
  | invalidSensor
  | retryRequestUpdate
  | unsupportedRequest
  | unexpectedRequest
  | invalidRequest
  | responseNotReady
  | largeResponse
  deriving DecidableEq, Repr

/-- Messages the module sends outward, in order: MSI-X vectors, answers and event messages over the management network, PCI Express
messages, fabric requests and time marks, pulses and in-band interrupts; `aer` reports a refused host write through Advanced Error
Reporting (R389, R393). -/
inductive Out where
  | msix (v : Nat)
  | pldm (port : Nat) (ans : Answer) (data : List Int)
  | mctp (port : Nat) (data : List Nat)
  | spdm (port : Nat) (ans : Answer) (data : List Nat)
  | event (port : Nat) (r : LogRec)
  | pmeToAck
  | curtainOut
  | fabric (die node : Nat) (q : FabReq)
  | flit (die seq ack reqCredit respCredit : Nat)
  | provisionedId (port : Nat) (pid : Nat)
  | mark (die : Nat) (lead frame : Nat)
  | inBand (port : Nat)
  | retry (die seq : Nat)
  | aer (addr : Nat)
  deriving DecidableEq, Repr

/-- How the curtain unit takes its source (R32-R35). -/
inductive CurMode where
  | internal
  | locked
  | acquiring
  | fallback
  deriving DecidableEq, Repr

/-- A reset in progress (R425, R431, R434, R435, R436): `cold` awaits the cold reset, `coldRun` has begun it;
`d0` is the start of the execution domain after D3hot, `stopped` an orderly
stop, a trip, or P3 after it. -/
inductive Resetting where
  | none
  | cold
  | coldRun
  | warm
  | soft
  | d0
  | stopped
  deriving DecidableEq, Repr

/-- Sideband pins and input rails (R341, R423-R425, R442, R444, R445, R447): `clkreq` is CLKREQ_N held low, `rose` PWR_EN risen during a stop that
still runs, `curArmed` and `ppsArmed` whether CURTAIN_IN and PPS_IN have been low long enough since their last qualifying edge; `captured` is what
the boundary-scan register last took of the pins, and `cells` what was last shifted into it. -/
structure Pins where
  input : Bool
  pwrEn : Bool
  pwrgd : Bool
  perst : Bool
  thermtrip : Bool
  alert : Bool
  clkreq : Bool
  rose : Bool
  curArmed : Bool
  ppsArmed : Bool
  tap : TapInstr
  captured : BitVec 18
  cells : BitVec 18
  deriving DecidableEq, Repr

/-- The host link and its function (R389-R395, R431). -/
structure Pcie where
  up : Bool
  bme : Bool
  d3 : Bool
  bar2Log : Nat
  fmask : Bool
  msixTab : SMap (BitVec 128)
  msixPend : List Nat
  deriving DecidableEq, Repr

/-- A pending settings-set swap (R401). -/
structure Swap where
  frame : Nat
  closed : Bool
  deriving DecidableEq, Repr

/-- Root of trust and firmware banks (R414-R422): `active` the active bank, `next` whether the inactive bank holds a verified
bundle that becomes active at the next reset, `loading` a PLDM load that holds the bank, `signing` the port and the request of the signature being
made, `m5` measurement 5. -/
structure Rot where
  bank0 : SMap Byte
  bank1 : SMap Byte
  active : Option Bool
  next : Bool
  loading : Bool
  verifying : Bool
  signing : Option (Nat × List Nat)
  epoch : Nat
  m5 : BitVec 256
  deriving DecidableEq, Repr

/-- A fabric port's link layer and limiters (R348-R350, R360): the next sequence numbers received and sent, the replay buffer with how often each flit
has been resent, the instant of the last acknowledgement, the slot credits held and those to be returned, the requests (with their node) and the
responses (with their slot bytes) that wait for credits, and the limiters' credit. -/
structure PortLink where
  rxSeq : Nat
  txSeq : Nat
  replay : List (Nat × Nat)
  ackAt : Nat
  reqCredit : Nat
  respCredit : Nat
  owedReq : Nat
  owedResp : Nat
  reqQ : List (Nat × FabReq)
  respQ : List (Nat × FabAns)
  hbmCredit : Nat
  portCredit : Nat
  creditAt : Nat
  deriving DecidableEq, Repr

/-- The state of the block. `itkTurn` is the ring whose turn comes next at a die's intake unit, and `itkKept` the records that a unit fetched
and keeps, by die and ring (R67); `itkNext` is what stopped a die's fetching and goes first at the curtain: a ring, or 8 for a
forwarded record (R78). `ueRead` holds the granules whose last read at their stack came back uncorrectable (R269); `landObs` the observed set
that a landing write left with each byte it wrote (R282). `softOwed` are the DARK records that a soft reset owes, `softStage` what it has still to do:
2 the drop of DMA commands, 1 the execution domain's reset, 0 nothing (R436); `execOff` is the execution domain powered down or held in reset,
`selfRefresh` the stacks' self-refresh and `clkGated` the cores' clocks gated (R429 to R431); `wattSum` is the input power since the curtain in tenths
of a watt times ns, as far as `wattAt`, and `exc` the excursion account in ninths of a ns (R426); `beatAt` is when the last heartbeat came (R406), and
`sampled` the clock step and the frames as last sampled (R410). -/
structure State where
  pending : List Instr
  now : Nat
  upTime : Nat
  frame : Nat
  curtainAt : Nat
  nominal : Nat
  curMode : CurMode
  edgeAt : Option Nat
  clockFixed : Bool
  overpower : Bool
  closedFor : Nat
  guardOn : Bool
  refreshOn : Bool
  regs : SMap Word
  hiCap : List (Requester × Nat × Word)
  loWr : List (Requester × Nat × Word)
  cnt : SMap Nat
  mem : SMap Byte
  poison : List Nat
  ueRead : List Nat
  host : SMap Byte
  hostPoison : List Nat
  inflight : List PWrite
  signals : List Signal
  nextCmd : Nat
  landObs : SMap (List Nat)
  errCmds : List Nat
  cores : SMap Core
  cb : SMap (BitVec 512)
  cbForce : SMap Nat
  reqs : List Req
  steps : List Step
  deliveries : List Delivery
  heldActs : List (Nat × Nat)
  used : List (Nat × Nat × Nat × Nat)
  admitted : List (Nat × Nat × Nat × Nat)
  fwd : List (Nat × Fwd)
  gapPend : List Nat
  doomed : List Nat
  deferSyn : List Nat
  postponed : List Nat
  itkStop : List Nat
  itkTurn : SMap Nat
  itkKept : List (Nat × Fwd)
  itkNext : List (Nat × Nat)
  backlog : List (Nat × EgrRec)
  egrDropped : SMap Nat
  egrSeq : SMap Nat
  egrCount : SMap Nat
  egrOwed : List (Nat × Nat × Nat)
  actA : SMap (BitVec 1024)
  actS : SMap (BitVec 1024)
  asnA : SMap Word
  asnS : SMap Word
  grpA : SMap (BitVec 1024)
  grpS : SMap (BitVec 1024)
  swap : Option Swap
  swapReq : Bool
  rgnLive : SMap (BitVec 128)
  rgnPend : SMap (BitVec 128)
  attrLive : SMap Nat
  attrPend : SMap Nat
  publishing : Option Nat
  updSeeds : SMap Word
  etas : SMap Word
  grpRuns : List (Nat × GrpRun)
  uncommitted : List (Nat × Nat)
  numTot : List (Nat × Nat × Nat × Nat × Nat)
  lgrBuf : List (Nat × BitVec 128)
  lgrSerial : SMap Nat
  lgrMark : SMap Nat
  lgrOwing : List Nat
  prioStk : List (Nat × List GEntry)
  holdoff : List (Nat × Nat)
  loadErr : List (Nat × Nat)
  replaced : List (Nat × Nat × Nat)
  merges : List (Nat × Nat × Nat)
  copies : SMap (Nat × Nat)
  scrub : SMap Nat
  bdma : SMap Chan
  bdmaReq : SMap Nat
  fabIn : List (Nat × FabIn)
  fabOut : List FabOut
  fabAns : List FabAns
  nextTag : Nat
  links : List PortLink
  log : List LogRec
  logNext : Nat
  ports : List Port
  sensors : Sensors
  secAt : Nat
  committedSec : Nat
  lateSec : Nat
  deadlineFor : Nat
  beatAt : Nat
  sampled : Nat × Nat
  rot : Rot
  prodBad : List Nat
  grade : Nat
  siteBad : List Nat
  mid : Nat
  pcie : Pcie
  pins : Pins
  resetting : Resetting
  resetAt : Nat
  softOwed : Bool
  softStage : Nat
  execOff : Bool
  selfRefresh : Bool
  clkGated : Bool
  wattSum : Nat
  wattAt : Nat
  exc : Nat
  preqPend : Option Nat
  d3Pend : Nat
  rehOff : List Nat
  disag : List (Nat × Nat × Nat)
  quarDue : List (Nat × Nat)
  rplUsed : SMap Nat
  rdData : List Byte
  rdStatus : Nat
  out : List Out
  free : Nat
  deriving DecidableEq, Repr

/-- The value generator i starts from: the low 32 bits of (i + 1) × 0x9E37_79B9 (R199, R220). -/
def seedOf (i : Nat) : Word := BitVec.ofNat 32 ((i + 1) * 0x9E3779B9)

/-- Save registers at reset (R330). -/
def Save.reset : Save := ⟨0, 0, 0, 0, 0, 0, none⟩

/-- A thread after reset: halted (its HALT bit is in CFG_CORE_CTRL), every table field at its reset value (R111, R153,
R210, R308, R330), bank registers invalid (R102). Registers the spec gives no reset value hold 0 (DESIGN CHOICE, log 6). -/
def Thread.reset : Thread where
  pc := 0
  level := .l0
  s := Vector.replicate 16 0
  v := Vector.replicate 16 0
  p := Vector.replicate 4 0
  bk := Vector.replicate 8 0
  ctx := 0
  slice := 0x7F0000
  spill := 0
  cmp := 0
  wake := 0
  mwait := 0
  numSat := 0
  numFlush := 0
  numNan := 0
  numCtl := 1
  numSidx := 0
  seeds := Vector.ofFn (fun i : Fin 64 => seedOf i.val)
  lc0 := 0
  lc1 := 0
  lp0beg := 0
  lp0end := 0
  lp1beg := 0
  lp1end := 0
  lpctl := 0
  ss := []
  ssDepth := 0
  ssIdx := 0
  sv1 := Save.reset
  sv2 := Save.reset
  prog := 0
  syncCtl := 0
  cueArm := 0
  armed := none
  staging := []
  bun := none
  wait := none
  long := none
  loads := []
  late := []
  l2wait := false
  dbgStop := false
  stepping := false
  bpSkip := false
  obs := []
  hold := []
  after := none

/-- An empty tile (R156, R158): configuration 0x079F. -/
def Tile.reset : Tile := ⟨[], 0, 0, 0x79F⟩

/-- An empty accumulator (R169): 32 x 32, FP32, zero, unowned. -/
def Acc32.reset : Acc32 := ⟨[], 0x3FF, [], [], [], []⟩

/-- A channel with nothing queued (R322); the first ticket follows COMP.LAST = 0xFFFF (R323). -/
def Chan.reset : Chan := ⟨none, [], 0, none, 0, 0, none, none, false, false⟩

/-- A core after reset (R88, R156, R169, R186, R249, R345). -/
def Core.reset : Core where
  role := .worker
  th := Vector.replicate 4 Thread.reset
  pm := []
  tiles := Vector.replicate 8 Tile.reset
  acc := Vector.replicate 2 Acc32.reset
  mxTol := 16
  mxCnt := 0
  mxLast := 0
  lines := []
  demand := none
  ahead := none
  lineErr := none
  ptrs := []
  trapCtl := 0
  trapPend := 0
  stgBase := 0
  stgCount := 0
  bud := 0
  batch := none
  ended := []
  placed := []
  queued := []
  memOps := []
  chans := Vector.replicate 2 Chan.reset
  qWriting := Vector.replicate 8 []
  qReady := Vector.replicate 8 []
  qHeld := Vector.replicate 8 none
  comb := []
  combObs := []
  combSum := none
  cueObs := []
  resident := none
  fails := []
  waits := 0

/-- A port before its bus owner has spoken to it (R407, R408). -/
def Port.reset : Port := ⟨none, 0, 64, false, [], 0, [], []⟩

/-- Sensors before the first sample (R410); the values are the model's (DESIGN CHOICE, log 11). -/
def Sensors.reset : Sensors := ⟨0, 0, 0, 0, List.replicate 8 0, List.replicate 8 0⟩

/-- A port's link before it trains (R346, R348, R350): nothing sent, received or held, no credits. -/
def PortLink.reset : PortLink := ⟨0, 0, [], 0, 0, 0, 0, 0, [], [], 0, 0, 0⟩

/-- The state right after the release of a cold reset, before READY (R435, R437): every register at its table value,
memory zero-filled (R433), every unit empty. The good sites and grade are the model's choice (log 5), and so is the module's position `mid`, which
R9 leaves to the straps: 0 until COLD_RESET brings their levels (DESIGN CHOICE, log 54). -/
def State.reset : State where
  pending := []
  now := 0
  upTime := 0
  frame := 0
  curtainAt := 0
  nominal := 400000
  curMode := .internal
  edgeAt := none
  clockFixed := false
  overpower := false
  closedFor := 0
  guardOn := false
  refreshOn := false
  regs := []
  hiCap := []
  loWr := []
  cnt := []
  mem := []
  poison := []
  ueRead := []
  host := []
  hostPoison := []
  inflight := []
  signals := []
  nextCmd := 1
  landObs := []
  errCmds := []
  cores := []
  cb := []
  cbForce := []
  reqs := []
  steps := []
  deliveries := []
  heldActs := []
  used := []
  admitted := []
  fwd := []
  gapPend := []
  doomed := []
  deferSyn := []
  postponed := []
  itkStop := []
  itkTurn := []
  itkKept := []
  itkNext := []
  backlog := []
  egrDropped := []
  egrSeq := []
  egrCount := []
  egrOwed := []
  actA := []
  actS := []
  asnA := []
  asnS := []
  grpA := []
  grpS := []
  swap := none
  swapReq := false
  rgnLive := []
  rgnPend := []
  attrLive := []
  attrPend := []
  publishing := none
  updSeeds := []
  etas := []
  grpRuns := []
  uncommitted := []
  numTot := []
  lgrBuf := []
  lgrSerial := []
  lgrMark := []
  lgrOwing := []
  prioStk := []
  holdoff := []
  loadErr := []
  replaced := []
  merges := []
  copies := []
  scrub := []
  bdma := []
  bdmaReq := []
  fabIn := []
  fabOut := []
  fabAns := []
  nextTag := 0
  links := List.replicate 8 PortLink.reset
  log := []
  logNext := 0
  ports := [Port.reset, Port.reset]
  sensors := Sensors.reset
  secAt := 0
  committedSec := 0
  lateSec := 0
  deadlineFor := 0
  beatAt := 0
  sampled := (0, 0)
  rot := ⟨[], [], none, false, false, false, none, 0, configDigest 0 false false⟩
  prodBad := []
  grade := 0
  siteBad := []
  mid := 0
  pcie := ⟨false, false, false, 40, false, [], []⟩
  pins := ⟨true, true, true, true, false, false, true, false, true, true, .bypass, 0, 0⟩
  resetting := .cold
  resetAt := 0
  softOwed := false
  softStage := 0
  execOff := false
  selfRefresh := false
  clkGated := false
  wattSum := 0
  wattAt := 0
  exc := 90000000
  preqPend := none
  d3Pend := 0
  rehOff := []
  disag := []
  quarDue := []
  rplUsed := []
  rdData := []
  rdStatus := 0
  out := []
  free := 0

end Sys2Proof.Machine
end

