-- ==== Sys2Proof/Machine/Ops.lean ====
section
/-! DEFINITION. The shared operations of the block: sparse tables, registers and their fields, memory and poison,
cores and threads, event sources, time, and the entry to and return from a trap level. -/

namespace Sys2Proof.Machine

/-- The three outcomes of a command on this machine. -/
abbrev Res := Host.Outcome State Fault Refusal

-- sparse tables

/-- The entry of a key, if listed. -/
def look {α : Type} : SMap α → Nat → Option α
  | [], _ => none
  | (a, x) :: t, k => if a = k then some x else look t k

/-- What a table holds at a key; an unlisted key holds d. -/
def get {α : Type} (d : α) (m : SMap α) (k : Nat) : α := (look m k).getD d

/-- A table with key k holding x, keys kept rising. -/
def insertAt {α : Type} : SMap α → Nat → α → SMap α
  | [], k, x => [(k, x)]
  | (a, y) :: t, k, x =>
    if k < a then (k, x) :: (a, y) :: t
    else if k = a then (k, x) :: t
    else (a, y) :: insertAt t k x

/-- A table without key k. -/
def removeAt {α : Type} (m : SMap α) (k : Nat) : SMap α := m.filter (fun p => p.1 != k)

/-- A table with key k holding x; the value an unlisted key holds is not listed. -/
def put {α : Type} [DecidableEq α] (d : α) (m : SMap α) (k : Nat) (x : α) : SMap α :=
  if x = d then removeAt m k else insertAt m k x

/-- Keys above n strictly rising and no entry equal to what an unlisted key holds. -/
def risingFrom {α : Type} [DecidableEq α] (d : α) : Option Nat → SMap α → Bool
  | _, [] => true
  | lo, (a, x) :: t =>
    (match lo with
      | none => true
      | some n => decide (n < a)) && decide (x ≠ d) && risingFrom d (some a) t

/-- The canonical form of a sparse table. -/
def SMapWf {α : Type} [DecidableEq α] (d : α) (m : SMap α) : Bool := risingFrom d none m

/-- What a byte reads as where nothing is listed: zero (R433 for HBM; log 6 for scratchpads). -/
def memDefault : Byte := 0

/-- Memory's canonical form. -/
def Memory.wf (m : SMap Byte) : Bool := SMapWf memDefault m

/-- List update at an index; nothing outside the list. -/
def lset {α : Type} (l : List α) (i : Nat) (x : α) : List α := l.set i x

/-- A number removed from and put into a sorted list without repeats. -/
def setAdd (l : List Nat) (n : Nat) : List Nat :=
  match l with
  | [] => [n]
  | a :: t => if n < a then n :: a :: t else if n = a then a :: t else a :: setAdd t n

/-- A sorted list without n. -/
def setDel (l : List Nat) (n : Nat) : List Nat := l.filter (· != n)

/-- The union of two sets held as sorted lists. -/
def setUnion (l m : List Nat) : List Nat := m.foldl setAdd l

-- the end of every command

/-- The signal pins follow the state: the module asserts ALERT_N while a record of SEV 2 or 3 has not been acknowledged, unless EXTEST has taken
the pins (R341, R412). -/
def State.settle (s : State) : State :=
  { s with pins := { s.pins with alert := s.pins.tap != .extest && s.log.any (fun r => decide (2 ≤ r.sev) && !r.acked) } }

/-- The end of every command: the next state, its signal pins following it. -/
def done (s : State) : Res := .next s.settle

-- register map

/-- Byte offset, in a flat numbering of all dies, of offset off of die d's register block (R262). -/
def dkey (d off : Nat) : Nat := d * 0x4000000 + off

/-- Key of offset off of site's core control block (R109). -/
def ckey (site off : Nat) : Nat :=
  dkey (site / Config.sitesPerDie) (0x1000000 + (site % Config.sitesPerDie) * 0x10000 + off)

/-- The unit tables a die-block offset may fall in (R263). -/
def unitRegs (off : Nat) : List RegRow :=
  match off / 0x10000 with
  | 0x1 => curRegs
  | 0x2 => boxRegs
  | 0x3 => cbRegs
  | 0x4 => itkRegs
  | 0x5 => sdRegs
  | 0x6 => egrRegs
  | 0x7 => siteRegs
  | 0x8 => updRegs
  | 0x9 => mshRegs
  | 0xA => hbcRegs
  | 0xB => evgRegs
  | 0xC => bdmaRegs
  | 0xD => alfRegs
  | 0xE => lgrRegs
  | 0xF => chkRegs
  | 0x10 => mgtRegs
  | 0x11 => cfgRegs
  | 0x12 => cfgRegs ++ mgtRegs
  | _ => []

/-- Whether offset off is a register of the row. -/
def RegRow.covers (r : RegRow) (off : Nat) : Bool :=
  decide (r.base ≤ off) && decide (off < r.base + r.stride * r.count) && decide ((off - r.base) % r.stride = 0)

/-- The row of the register at an offset of a die's block, if the register exists there (R10, R263: the curtain unit, the
management units and the settings unit stand in die 0's block alone). -/
def regRow (d off : Nat) : Option RegRow :=
  if 0x1000000 ≤ off then
    if off < 0x1000000 + Config.sitesPerDie * 0x10000 then coreRegs.find? (fun r => r.covers (off % 0x10000)) else none
  else if d ≠ 0 ∧ (off / 0x10000 = 1 ∨ 0x10 ≤ off / 0x10000) then none
  else (unitRegs off).find? (fun r => r.covers off)

/-- The reset value of a row (R9). -/
def RegRow.rst (r : RegRow) : Word :=
  r.fields.foldl (fun acc f => acc ||| BitVec.ofNat 32 (f.rst <<< f.lo)) 0

/-- What a register holds while nothing has written it. -/
def rstOf (k : Nat) : Word :=
  match regRow (k / 0x4000000) (k % 0x4000000) with
  | some r => r.rst
  | none => 0

/-- A register's stored value. -/
def State.rg (s : State) (k : Nat) : Nat := (get (rstOf k) s.regs k).toNat

/-- A register's stored value replaced. -/
def State.setRg (s : State) (k v : Nat) : State :=
  { s with regs := put (rstOf k) s.regs k (BitVec.ofNat 32 v) }

/-- A field of the register at key k. -/
def State.fldAt (s : State) (k : Nat) (f : RF) : Nat := bitsOf (s.rg k) f.lo (f.hi - f.lo + 1)

/-- A field of the register at key k replaced. -/
def State.setFldAt (s : State) (k : Nat) (f : RF) (v : Nat) : State :=
  s.setRg k (setBits (s.rg k) f.lo (f.hi - f.lo + 1) v)

/-- A field of a register of die d. -/
def State.fld (s : State) (d : Nat) (f : RF) : Nat := s.fldAt (dkey d f.off) f

/-- A field of a register of die d replaced. -/
def State.setFld (s : State) (d : Nat) (f : RF) (v : Nat) : State := s.setFldAt (dkey d f.off) f v

/-- A field of a site's core control block. -/
def State.cfld (s : State) (site : Nat) (f : RF) : Nat := s.fldAt (ckey site f.off) f

/-- A field of a site's core control block replaced. -/
def State.setCfld (s : State) (site : Nat) (f : RF) (v : Nat) : State := s.setFldAt (ckey site f.off) f v

/-- A one-bit field. -/
def State.flag (s : State) (d : Nat) (f : RF) : Bool := s.fld d f == 1

/-- A one-bit field of a core control block. -/
def State.cflag (s : State) (site : Nat) (f : RF) : Bool := s.cfld site f == 1

/-- A field counting upward and holding at its largest value. -/
def State.countFld (s : State) (d : Nat) (f : RF) (n : Nat) : State :=
  s.setFld d f (satAdd (f.hi - f.lo + 1) (s.fld d f) n)

/-- A 64-bit quantity in a _LO and _HI pair at key k (R11). -/
def State.rg64 (s : State) (k : Nat) : Nat := s.rg k + (s.rg (k + 4)) <<< 32

/-- A _LO and _HI pair replaced. -/
def State.setRg64 (s : State) (k v : Nat) : State := (s.setRg k (v % 2 ^ 32)).setRg (k + 4) (v >>> 32 % 2 ^ 32)

-- counters behind an index register

/-- Key of counter idx of a unit of a die: unit 0 intake, 1 box office reasons, 2 update engine, 3 fabric port,
4 integrity (R77, R56, R223, R362, R387). -/
def cntKey (unit d idx : Nat) : Nat := (unit * 8 + d) * 16 + idx

/-- A counter behind an index register. -/
def State.counter (s : State) (unit d idx : Nat) : Nat := get 0 s.cnt (cntKey unit d idx)

/-- A counter set. -/
def State.setCounter (s : State) (unit d idx v : Nat) : State := { s with cnt := put 0 s.cnt (cntKey unit d idx) v }

/-- A counter of w bits counting, saturating. -/
def State.count (s : State) (unit d idx w n : Nat) : State :=
  s.setCounter unit d idx (satAdd w (s.counter unit d idx) n)

-- event gatherer sources

/-- Whether a source number is one that a unit or software raises (R335, R362, R386, R413, R440). -/
def srcListed (n : Nat) : Bool :=
  decide (n < 196) || (decide (208 ≤ n) && decide (n < 404)) || (decide (416 ≤ n) && decide (n < 612)) ||
  (decide (640 ≤ n) && decide (n ≤ 647)) || (decide (656 ≤ n) && decide (n ≤ 670)) ||
  (decide (672 ≤ n) && decide (n ≤ 677)) || (decide (688 ≤ n) && decide (n ≤ 730)) ||
  (decide (736 ≤ n) && decide (n ≤ 738)) || (decide (768 ≤ n) && decide (n ≤ 774)) ||
  (decide (800 ≤ n) && decide (n ≤ 802)) || (decide (808 ≤ n) && decide (n ≤ 809)) ||
  (decide (816 ≤ n) && decide (n ≤ 822)) || (decide (896 ≤ n) && decide (n < 1024))

/-- A source of die d's gatherer raised: it becomes pending (R335, R338). -/
def State.raise (s : State) (d n : Nat) : State :=
  if srcListed n then s.setFld d (EVG_SRC_PEND n) 1 else s

/-- The source that an event bit raises (R335), by register offset and bit; none where the spec lists none. -/
def eventSrc (off bit : Nat) : Option Nat :=
  if off = 0x10008 then some (640 + bit)
  else if off = 0x20058 then some (644 + bit)
  else if off = 0x40014 then some (if bit = 4 then 668 else 656 + bit)
  else if off = 0x5000C then some (660 + bit)
  else if off = 0x6000C then some (if bit = 3 then 669 else 662 + bit)
  else if off = 0x8001C then some (665 + bit)
  else if off = 0x9000C then some (672 + bit)
  else if off = 0xA0020 then some (675 + bit)
  else if off = 0xC0004 then some (688 + bit)
  else if off = 0xC0008 then some 670
  else if off = 0xD0024 then some (768 + bit)
  else if off = 0xE0018 then some (736 + bit)
  else if off = 0xF0024 then some (720 + bit)
  else if off = 0x10001C then some (800 + bit)
  else if off = 0x108030 then some (808 + bit)
  else if off = 0x10C014 then some (816 + bit)
  else none

/-- An event bit of die d set by hardware: the bit ends set (R8), and its source is raised when the bit goes from 0 to 1
(R335). -/
def State.eventBit (s : State) (d off bit : Nat) : State :=
  let f : RF := ⟨off, bit, bit⟩
  if s.fld d f = 1 then s
  else
    let t := s.setFld d f 1
    match eventSrc off bit with
    | some n => t.raise d n
    | none => t

/-- A named event bit set by hardware. -/
def State.event (s : State) (d : Nat) (f : RF) : State := s.eventBit d f.off f.lo

/-- The access-violation source of a die (R12, R266, R344). -/
def State.violation (s : State) (d : Nat) : State := s.raise d 647

-- sites, cores and threads

/-- Whether a site is good (R112). -/
def State.good (s : State) (site : Nat) : Bool := decide (site < Config.sites) && !s.siteBad.contains site

/-- The die of a core: core sites by R16; stage-manager core m of die d stands at 1568 + 2d + m, the primary and standby
management cores at 1584 and 1585 (numbers of the model's own, log 18). -/
def dieOf (site : Nat) : Nat :=
  if site < Config.sites then site / Config.sitesPerDie
  else if site < 1584 then (site - 1568) / 2
  else if site = 1584 then 0
  else 4

/-- Whether a core exists: a good site, or a stage-manager or management core (R20, R21). -/
def State.present (s : State) (site : Nat) : Bool :=
  s.good site || (decide (Config.sites ≤ site) && decide (site < 1586))

/-- A core. -/
def State.core (s : State) (site : Nat) : Core := get Core.reset s.cores site

/-- A core replaced. -/
def State.setCore (s : State) (site : Nat) (c : Core) : State :=
  { s with cores := put Core.reset s.cores site c }

/-- A core changed. -/
def State.modCore (s : State) (site : Nat) (f : Core → Core) : State := s.setCore site (f (s.core site))

/-- A thread. -/
def State.thr (s : State) (site : Nat) (t : Fin 4) : Thread := (s.core site).th[t]

/-- A thread changed. -/
def State.modThr (s : State) (site : Nat) (t : Fin 4) (f : Thread → Thread) : State :=
  s.modCore site (fun c => { c with th := c.th.set t (f c.th[t]) })

/-- Whether thread t's HALT bit is 1 (R107). -/
def State.halted (s : State) (site : Nat) (t : Fin 4) : Bool := bitOf (s.cfld site CFG_CORE_CTRL_HALT) t.val

/-- A HALT bit set or cleared. -/
def State.setHalt (s : State) (site : Nat) (t : Fin 4) (v : Bool) : State :=
  s.setCfld site CFG_CORE_CTRL_HALT (setBits (s.cfld site CFG_CORE_CTRL_HALT) t.val 1 (b2n v))

/-- Safe mode of a core (R108). -/
def State.safe (s : State) (site : Nat) : Bool := s.cflag site CFG_CORE_CTRL_SAFE

/-- CTRL_ERR set (R107). -/
def State.ctrlErr (s : State) (site : Nat) : State := s.setCfld site CFG_CORE_STATUS_CTRL_ERR 1

/-- CTX_ERR set (R99, R105). -/
def State.ctxErr (s : State) (site : Nat) : State := s.setCfld site CFG_CORE_STATUS_CTX_ERR 1

/-- All threads. -/
def threads : List (Fin 4) := [0, 1, 2, 3]

/-- The STATE field of one thread (CFG_CORE_STATUS): 0 halted, 1 running, 2 asleep, 3 stopped at L2. -/
def State.thState (s : State) (site : Nat) (t : Fin 4) : Nat :=
  let x := s.thr site t
  if x.l2wait then 3 else if s.halted site t then 0 else if x.wait.isSome then 2 else 1

/-- Whether a thread is at L1 or L2 (CFG_CORE_STATUS.TRAP). -/
def Thread.trapped (x : Thread) : Bool := x.level != .l0

/-- Wake source bits set in thN.wake.PEND (R95, R96). -/
def Thread.pendSet (x : Thread) (bit : Nat) : Thread :=
  { x with wake := BitVec.ofNat 32 (setBits x.wake.toNat (16 + bit) 1 1) }

/-- PEND bits of thN.wake. -/
def Thread.pendBits (x : Thread) : Nat := bitsOf x.wake.toNat 16 5

/-- MASK bits of thN.wake. -/
def Thread.maskBits (x : Thread) : Nat := bitsOf x.wake.toNat 0 5

-- time

/-- Tenths of a GHz of a clock code: CUR_CLK codes 0 to 5 (R43). -/
def clockTenths (code : Nat) : Nat :=
  match code with
  | 0 => 17
  | 1 => 16
  | 2 => 15
  | 3 => 14
  | 4 => 12
  | _ => 10

/-- Core cycles in ns nanoseconds at the running frame's clock (R43). -/
def State.cyclesIn (s : State) (ns : Nat) : Nat := ns * clockTenths (s.fld 0 CUR_CLK_CUR) / 10

/-- Core cycles since the last curtain. -/
def State.cycNow (s : State) : Nat := s.cyclesIn (s.now - s.curtainAt)

/-- cyc of every core: frame bits [31:0] above the cycles since the curtain (R36, R93). -/
def State.cyc (s : State) : Nat := (s.frame % 2 ^ 32) <<< 32 + s.cycNow % 2 ^ 32

/-- Budgets running down by n cycles on every core whose batch has started; they hold during a refresh
burst (R57). -/
def State.spend (s : State) (n : Nat) : State :=
  if s.refreshOn then s else
  { s with cores := s.cores.map (fun (k, c) =>
      match c.batch with
      | some b => if b.started then (k, { c with bud := c.bud - n }) else (k, c)
      | none => (k, c)) }

/-- Whether the host link carries anything now: it is up, and an orderly stop takes it down after 20 µs (R425). -/
def State.linkUp (s : State) : Bool := s.pcie.up && !(s.resetting == .stopped && decide (s.resetAt + 20000 ≤ s.now))

/-- Whether a core does not run: its clock is gated in P1, or the execution domain is down (R429 to R431, R436); the management cores run on. -/
def State.gated (s : State) (site : Nat) : Bool := (s.clkGated || s.execOff) && decide (site < 1584)

-- memory

/-- Where a local address lives (R262). -/
inductive Home where
  | hbm (die : Nat)
  | pad (site off : Nat)
  | reg (die off : Nat)
  | bcast (off : Nat)
  | unmapped
  deriving DecidableEq, Repr

/-- Base of site s's scratchpad window (R16). -/
def padBase (site : Nat) : Nat := 0x010000000000 + site * 0x100000

/-- The home of a local address (R262, R264; windows of mapped-out sites are unmapped, R17). -/
def State.home (s : State) (a : Nat) : Home :=
  if a < 0x00A000000000 then .hbm (a / Config.stackBytes)
  else if 0x010000000000 ≤ a ∧ a < 0x010062000000 then
    let site := (a - 0x010000000000) / 0x100000
    let off := (a - 0x010000000000) % 0x100000
    if s.good site ∧ off < 0x80000 then .pad site off else .unmapped
  else if 0x020000000000 ≤ a ∧ a < 0x020020000000 then
    .reg ((a - 0x020000000000) / 0x4000000) ((a - 0x020000000000) % 0x4000000)
  else if 0x020020000000 ≤ a ∧ a < 0x020024000000 then .bcast (a - 0x020020000000)
  else .unmapped

/-- The node of a global address (R261). -/
def nodeOf (g : Nat) : Nat := g >>> 52

/-- The local part of a global address. -/
def localOf (g : Nat) : Nat := g % 2 ^ 52

/-- The module's own node number (ALF_NODE of die 0; R261, R347). -/
def State.ownNode (s : State) : Nat := s.fld 0 ALF_NODE_NODE

/-- Whether a global address is carried out on this module (R261). -/
def State.isLocal (s : State) (g : Nat) : Bool := nodeOf g == 0 || nodeOf g == s.ownNode

/-- One byte of memory. -/
def State.byte (s : State) (a : Nat) : Byte := get memDefault s.mem a

/-- One byte of memory written. -/
def memPut (m : SMap Byte) (a : Nat) (b : Byte) : SMap Byte := put memDefault m a b

/-- Bytes of memory written from address a upward. -/
def memPutAll (m : SMap Byte) (a : Nat) : List Byte → SMap Byte
  | [] => m
  | b :: t => memPutAll (memPut m a b) (a + 1) t

/-- n bytes of memory from address a. -/
def State.bytes (s : State) (a n : Nat) : List Byte := (List.range n).map (fun i => s.byte (a + i))

/-- The bytes written. -/
def State.setBytes (s : State) (a : Nat) (l : List Byte) : State := { s with mem := memPutAll s.mem a l }

/-- The number that little-endian bytes spell (R5). -/
def leNat : List Byte → Nat
  | [] => 0
  | b :: t => b.toNat + 256 * leNat t

/-- The n little-endian bytes of a number (R5). -/
def leBytes : Nat → Nat → List Byte
  | 0, _ => []
  | n + 1, v => BitVec.ofNat 8 v :: leBytes n (v / 256)

/-- A little-endian number of n bytes at an address of memory. -/
def State.le (s : State) (a n : Nat) : Nat := leNat (s.bytes a n)

/-- Granules touched by n bytes from address a: a 64-byte granule is numbered by its address over 64 (R274). -/
def granules (a n : Nat) : List Nat :=
  if n = 0 then [] else (List.range ((a + n - 1) / 64 - a / 64 + 1)).map (fun i => a / 64 + i)

/-- The home of n bytes from a local address (R262). Bytes that nothing occupies, at the end of an access that begins where something is, make
the whole of it unmapped: R103 and R264 name no status for such an access (DESIGN CHOICE, log 54). -/
def State.homeOf (s : State) (a n : Nat) : Home := if s.home (a + n - 1) = .unmapped then .unmapped else s.home a

/-- The sets that a table of bytes holds at n bytes from an address, joined. -/
def setsAt (m : SMap (List Nat)) (a n : Nat) : List Nat :=
  (m.filter (fun p => decide (a ≤ p.1) && decide (p.1 < a + n))).foldl (fun l p => setUnion l p.2) []

/-- A table of bytes with nothing at n bytes from an address. -/
def clearAt {α : Type} (m : SMap α) (a n : Nat) : SMap α := m.filter (fun p => !(decide (a ≤ p.1) && decide (p.1 < a + n)))

/-- Whether any granule of the bytes reads as poison: one stored poisoned (R270), or one whose read came back uncorrectable (R269). -/
def State.poisoned (s : State) (a n : Nat) : Bool := (granules a n).any (fun g => s.poison.contains g || s.ueRead.contains g)

/-- A write reaching memory (R270): poisoned data poisons the granules it touches; clean data that fills a granule clears
its poison; a partial write keeps it. A write closes the merge entry of its line (R259). The values that landing writes left are gone (R282). -/
def State.writeMem (s : State) (a : Nat) (l : List Byte) (psn : Bool) : State :=
  let t := s.setBytes a l
  let gs := granules a l.length
  let full := gs.filter (fun g => decide (a ≤ g * 64) && decide (g * 64 + 64 ≤ a + l.length))
  { t with
    poison := if psn then setUnion t.poison gs else t.poison.filter (fun g => !full.contains g)
    ueRead := t.ueRead.filter (fun g => !full.contains g)
    landObs := clearAt t.landObs a l.length
    merges := t.merges.filter (fun m => !gs.contains m.2.1) }

/-- Charge of an access in whole granules (R268): 64 a granule read or fully written, 128 a granule partly written. -/
def chargeOf (a n : Nat) (write : Bool) : Nat :=
  ((granules a n).map (fun g =>
    if write && !(decide (a ≤ g * 64) && decide (g * 64 + 64 ≤ a + n)) then 128 else 64)).foldl (· + ·) 0

/-- An act's use of a metered resource in this frame grows (R59): kinds as BOX_BREACH.KIND codes them, at a die or site. -/
def State.meter (s : State) (act kind place n : Nat) : State :=
  if n = 0 then s
  else if s.used.any (fun u => u.1 == act && u.2.1 == kind && u.2.2.1 == place) then
    { s with used := s.used.map (fun u =>
        if u.1 = act ∧ u.2.1 = kind ∧ u.2.2.1 = place then (act, kind, place, u.2.2.2 + n) else u) }
  else { s with used := s.used ++ [(act, kind, place, n)] }

/-- The act whose batch runs on a core, if any, for its metered use (R59). A replay's use falls under the replay capacity (R372). -/
def State.actOf (s : State) (site : Nat) : Option Nat :=
  match (s.core site).batch with
  | some b => if b.replay then none else some b.act
  | none => none

/-- The plane of a remote local address: the die that holds it on its node (R353). -/
def planeOf (a : Nat) : Option Nat :=
  if a < 0x00A000000000 then some (a / Config.stackBytes)
  else if 0x010000000000 ≤ a ∧ a < 0x010062000000 then some ((a - 0x010000000000) / 0x100000 / Config.sitesPerDie)
  else none

/-- The die a global address is reached at: its home's, or the port's of its plane. -/
def State.homeDie (s : State) (g : Nat) : Nat :=
  if s.isLocal g then
    match s.home (localOf g) with
    | .hbm d => d
    | .pad site _ => dieOf site
    | .reg d _ => d % 8
    | _ => 0
  else (planeOf (localOf g)).getD 0

/-- Payload carried from one die to another (R257): where it crosses between columns 27 and 28 the bridge counts it, for
the act as well (R59). The packet crosses along its source's row, so the source's die names the bridge. -/
def State.carry (s : State) (act : Option Nat) (src dst n : Nat) : State :=
  let east := decide (src % 4 < 2) && decide (2 ≤ dst % 4)
  let west := decide (2 ≤ src % 4) && decide (dst % 4 < 2)
  if !east && !west then s
  else if n = 0 then s
  else
    let d := (if east then 1 else 2) + (if src % 8 < 4 then 0 else 4)
    let s1 := s.count 7 d 0 32 n
    match act with
    | some a => s1.meter a 2 d n
    | none => s1

/-- Payload sent to every die over the mesh, one packet to each (R109, R257; log 51). -/
def State.carryAll (s : State) (act : Option Nat) (src n : Nat) : State := (List.range 8).foldl (fun s d => s.carry act src d n) s

/-- Bytes charged to a die's stack: a running count that HBC_BYTES shows a frame later (R268). Kept behind counter 15 of
unit 5. -/
def State.charge (s : State) (g n : Nat) (write : Bool) : State :=
  if s.isLocal g then
    match s.home (localOf g) with
    | .hbm d => s.count 5 d 15 32 (chargeOf (localOf g) n write)
    | _ => s
  else s

/-- An access performed at its home: the stack's charge (R268), the act's HBM use (R59) and the way over the mesh (R257).
`die` is where the requester stands. -/
def State.access (s : State) (act : Option Nat) (die g n : Nat) (write : Bool) : State :=
  let s1 := s.charge g n write
  let h := s.homeDie g
  let s2 := if write then s1.carry act die h n else s1.carry act h die n
  match s.isLocal g, s.home (localOf g), act with
  | true, .hbm d, some a => s2.meter a 1 d (chargeOf (localOf g) n write)
  | _, _, _ => s2

/-- An access that an act's core makes. -/
def State.chargeBy (s : State) (site g n : Nat) (write : Bool) : State :=
  s.access (s.actOf site) (dieOf site) g n write

/-- An unmapped access (R264): the event and the latched address of the die that saw it. -/
def State.unmappedAt (s : State) (d a : Nat) : State :=
  (s.event d MSH_EVENT_UNMAPPED).setRg64 (dkey d MSH_ERR_ADDR_LO_ADDR.off) a

/-- A core's spill units that are enabled (R99). -/
def Core.spillUnits (c : Core) : List Nat :=
  (threads.map (fun t => c.th[t].spill.toNat)).filterMap (fun w => if bitOf w 7 then some (bitsOf w 0 7) else none)

/-- Whether bytes of a scratchpad touch an enabled spill unit (R99). -/
def Core.hitsSpill (c : Core) (off n : Nat) : Bool :=
  c.spillUnits.any (fun u => decide (off < (u + 1) * 4096) && decide (u * 4096 < off + n))

-- host memory

/-- n bytes of host memory. -/
def State.hostBytes (s : State) (a n : Nat) : List Byte := (List.range n).map (fun i => get 0 s.host (a + i))

/-- Whether any granule of bytes of host memory was written with EP set (R389). -/
def State.hostPoisoned (s : State) (a n : Nat) : Bool := (granules a n).any (fun g => s.hostPoison.contains g)

/-- Host memory written by the module, with EP set where the data is poisoned (R83, R85, R389). Clean data that fills a granule takes its mark
away (DESIGN CHOICE, log 55). -/
def State.setHostBytes (s : State) (a : Nat) (l : List Byte) (psn : Bool) : State :=
  let gs := granules a l.length
  let full := gs.filter (fun g => decide (a ≤ g * 64) && decide (g * 64 + 64 ≤ a + l.length))
  { s with
    host := (l.zip (List.range l.length)).foldl (fun m (b, i) => put 0 m (a + i) b) s.host
    hostPoison := if psn then setUnion s.hostPoison gs else s.hostPoison.filter (fun g => !full.contains g) }

-- requesters

/-- The requester that a posted write comes from. -/
def whoOf : Requester → Requester
  | .posted r _ => whoOf r
  | r => r

/-- The context a requester acts in, for a posted write that of its command (R12, R310); none for the host, the ring, the stage-manager and
management cores and the debug path. -/
def State.reqCtx (s : State) (r : Requester) : Option Nat :=
  match r with
  | .thread site t => if site < Config.sites then some (s.thr site t).ctx else none
  | .chan site c =>
    match ((s.core site).chans[c]).run with
    | some x => some x.ctx
    | none => none
  | .bulk d c => some (s.fld d (BDMA_CH_CTL_CTX c))
  | .posted _ ctx => some ctx
  | _ => none

/-- Attributes of a context in force (R396): MINCLASS [2:0], PLACC [3], CBACC [4], EXPERT [5]. -/
def State.attr (s : State) (ctx : Nat) : Nat := get 0 s.attrLive ctx

/-- Whether a requester may write E fields (R12). The host, ring units, stage-manager and management cores and the debug
path may (DEDUCED, log 16). -/
def State.expert (s : State) (r : Requester) : Bool :=
  match s.reqCtx r with
  | some c => bitOf (s.attr c) 5
  | none => true

/-- Whether a context that a requester acts in holds an attribute bit: a thread has its own, a channel that of its command. -/
def State.ctxGrants (s : State) (r : Requester) (bit : Nat) : Bool :=
  match r with
  | .thread site t => bitOf (s.attr (s.thr site t).ctx) bit
  | _ => match s.reqCtx r with | some c => bitOf (s.attr c) bit | none => false

/-- Whether a requester may use the program-memory copy: the host or a context granted program-load access (R266). -/
def State.loader (s : State) (r : Requester) : Bool := r == .host || s.ctxGrants r 3

/-- Whether a requester may use the callboard commands: the host or a thread of a context granted callboard access (R65). -/
def State.cbUser (s : State) (r : Requester) : Bool :=
  match whoOf r with
  | .host => true
  | .thread _ _ => s.ctxGrants r 4
  | _ => false

/-- The die a requester stands on, for errors it reports. -/
def reqDie (r : Requester) : Nat :=
  match r with
  | .thread site _ => dieOf site
  | .chan site _ => dieOf site
  | .bulk d _ => d
  | .ring d _ => d
  | .stage m => m / 2
  | .posted q _ => reqDie q
  | _ => 0

-- messages and free values

/-- Whether EXTEST has taken the sideband pins from the module's logic (R341). -/
def State.pinsTaken (s : State) : Bool := s.pins.tap == .extest

/-- A message sent outward. -/
def State.emit (s : State) (o : Out) : State := { s with out := s.out ++ [o] }

/-- A fresh free value (log 8) and the counter advanced. -/
def State.fresh (s : State) : Nat × State := ((Config.fresh s.free).toNat, { s with free := s.free + 1 })

-- MSI-X

/-- Whether a vector's message may leave: unmasked, with bus mastering on a link that is up (R394, R395). -/
def State.msixOpen (s : State) (v : Nat) : Bool :=
  !bitOf (get 0 s.pcie.msixTab v).toNat 96 && !s.pcie.fmask && s.pcie.bme && s.linkUp

/-- A vector made pending. -/
def State.msixPend (s : State) (v : Nat) : State := { s with pcie := { s.pcie with msixPend := setAdd s.pcie.msixPend v } }

/-- A vector raised by a unit of a die: its message goes over the mesh to die 0, one word of data (R257, R394, R395; log 51). -/
def State.msix (s : State) (d v : Nat) : State :=
  let s := s.carry none d 0 4
  if (get 0 s.pcie.msixTab v).toNat % 2 ^ 64 = 0 then (s.msixPend v).event 0 MSH_EVENT_UNMAPPED
  else if s.msixOpen v then s.emit (.msix v)
  else s.msixPend v

-- egress completions

/-- Key of a die's egress ring. -/
def egrKey (d k : Nat) : Nat := d * 64 + k

/-- A completion written now, the records it covers visible, and the ring's vector sent (R21, R27, R85); `psn` is whether its way over the
mesh has poisoned it (R253). -/
def State.egrComplete (s : State) (die ring : Nat) (psn : Bool) : State :=
  if s.egrOwed.any (fun (a, b, _) => a == die && b == ring) && s.pcie.bme && s.linkUp then
    let key := egrKey die ring
    let b := leBytes 8 (get 0 s.egrCount key) ++ leBytes 4 (get 0 s.egrSeq key + 2 ^ 32 - 1) ++ leBytes 4 0
    let s := (s.carry none die 0 16).setHostBytes (s.rg64 (dkey die (EGR_RING_CPL_LO_ADDR ring).off)) b psn
    let s := { s with
      egrOwed := s.egrOwed.filter (fun (a, b, _) => !(a == die && b == ring))
      deliveries := s.deliveries.map (fun (v : Delivery) =>
        if v.die = die ∧ v.ring = ring ∧ v.written ∧ v.visible.isNone then { v with visible := some s.now } else v) }
    if s.flag die (EGR_RING_CTL_MSI_EN ring) then s.msix die (s.fld die (EGR_RING_CTL_MSIX ring)) else s
  else s

/-- The completion coalescing limit of a die in ns (R87). -/
def State.egrCoal (s : State) (d : Nat) : Nat := min 10000 (s.fld d EGR_CTRL_COAL)

/-- The completions whose limit lies no later than an instant written, each at its limit (R85). -/
def State.egrForce (s : State) (at_ : Nat) : State :=
  let t := (s.egrOwed.filter (fun (d, _, t) => decide (t + s.egrCoal d ≤ at_))).foldl
    (fun u (d, k, t) => { u with now := max s.now (t + s.egrCoal d) }.egrComplete d k false) s
  { t with now := s.now }

-- the execution domain

/-- Registers that a condition on die and offset leaves. -/
def State.keepRegs (s : State) (p : Nat → Nat → Bool) : State :=
  { s with regs := s.regs.filter (fun (k, _) => p (k / 0x4000000) (k % 0x4000000)) }

/-- Whether a register is of the control block of a management core, which belongs to the management domain (R405): sites 1584 and 1585. -/
def mgmtBlock (d off : Nat) : Bool := d == 8 && decide (0x1100000 ≤ off) && decide (off < 0x1120000)

/-- Whether a register survives the loss of the execution domain with the ring registers and bulk channels (R437): the control
blocks keep CFG_CORE_GROUP alone, those of the management cores all, and intake and egress return disabled (R405, R436; DEDUCED, log 38). -/
def execKept (d off : Nat) : Bool :=
  if 0x1000000 ≤ off then mgmtBlock d off || off % 0x10000 == 0x00C
  else !((decide (0x40100 ≤ off) && decide (off < 0x40200)) || (decide (0x60100 ≤ off) && decide (off < 0x60900)) ||
    off / 0x10000 == 0xC || off == 0x40000)

/-- Whether an address of memory is a scratchpad's of the execution domain. -/
def inPads (a : Nat) : Bool := decide (0x010000000000 ≤ a) && decide (a < padBase 1584)

/-- Whether an address of memory is a management core's scratchpad (R405). -/
def inMgmtPads (a : Nat) : Bool := decide (padBase 1584 ≤ a) && decide (a < padBase 1586)

/-- The execution domain, ring registers, egress backlog and bulk channels lost (R436, R437), with rehearsal and the state of debug (R342, R345).
Roles stay (R114); the management cores are of another domain. -/
def State.execReset (s : State) : State :=
  let s := s.keepRegs execKept
  let s := (s.setRg64 (dkey 0 MGT_REH_LO_CTX.off) 0).setFld 0 MGT_DBG_STATUS_ERR 0
  let s := (List.range 8).foldl (fun s d => s.setFld d EGR_CTRL_EN 0) s
  let cores := s.cores.filterMap (fun (k, c) =>
    if 1584 ≤ k then some (k, c)
    else
      let r := { Core.reset with role := c.role }
      if r = Core.reset then none else some (k, r))
  { s with
    cores := cores
    mem := s.mem.filter (fun (a, _) => !inPads a)
    poison := s.poison.filter (fun g => !inPads (g * 64))
    inflight := []
    signals := []
    landObs := []
    errCmds := []
    fwd := []
    itkStop := []
    itkTurn := []
    itkKept := []
    itkNext := []
    backlog := []
    egrDropped := []
    egrSeq := []
    egrCount := []
    egrOwed := []
    bdma := []
    bdmaReq := []
    merges := []
    hiCap := []
    loWr := []
    copies := s.copies.filter (fun (k, _) => decide (8 ≤ k))
    fabOut := []
    rehOff := [] }

/-- Every command of every DMA channel dropped, with its writes not yet landed, without record or cue (R436; the running one too: DEDUCED,
log 38). -/
def State.dropDma (s : State) : State :=
  let idle (k : Chan) : Chan :=
    { k with
      run := none
      queue := []
      want := none }
  { s with
    cores := s.cores.map (fun (n, c) => (n, { c with chans := c.chans.map idle }))
    bdma := s.bdma.map (fun (n, k) => (n, idle k))
    inflight := s.inflight.filter (fun w => match w.req with
      | .chan _ _ => false
      | .bulk _ _ => false
      | _ => true) }

/-- What a soft reset does by itself as time passes (R436): 20 µs after its start DMA commands are dropped, 30 µs after it the execution domain is
reset and stays down until the runtime is restarted. -/
def State.softPass (s : State) (at_ : Nat) : State :=
  let s := if s.softStage = 2 ∧ s.resetAt + 20000 ≤ at_ then { (s.egrForce (s.resetAt + 19999)).dropDma with softStage := 1 } else s
  if s.softStage = 1 ∧ s.resetAt + 30000 ≤ at_ then
    { (s.egrForce (s.resetAt + 29999)).execReset with
      softStage := 0
      execOff := true }
  else s

-- fabric links

/-- A port's link layer and limiters. -/
def State.link (s : State) (d : Nat) : PortLink := (s.links[d]?).getD PortLink.reset

/-- A port's link layer replaced. -/
def State.setLink (s : State) (d : Nat) (l : PortLink) : State := { s with links := s.links.set d l }

/-- A link down (R351): the event, the count; requests that wait keep their timeout, responses not yet sent are discarded, and so are those to
requests taken in and not yet answered. Flits and credits are gone with the link (R348 to R350). -/
def State.linkDown (s : State) (d : Nat) : State :=
  if s.flag d ALF_STATUS_UP then
    let s := (s.setFld d ALF_STATUS_UP 0).setFld d ALF_STATUS_LANES 0
    let l := s.link d
    let s := s.setLink d { PortLink.reset with
      hbmCredit := l.hbmCredit
      portCredit := l.portCredit
      creditAt := l.creditAt }
    let s := { s with fabIn := s.fabIn.map (fun (p : Nat × FabIn) => if p.1 = d then (p.1, { p.2 with lost := true }) else p) }
    (s.event d ALF_EVENT_DOWN).count 3 d 2 32 1
  else s

/-- Links down for want of an acknowledgement: 20 µs without one while flits wait for it (R349). -/
def State.ackLimits (s : State) (at_ : Nat) : State :=
  (List.range 8).foldl (fun s d =>
    if !(s.link d).replay.isEmpty && decide ((s.link d).ackAt + 20000 < at_) then s.linkDown d else s) s

-- time passing

/-- Time moves to at_, never backward: budgets run, a soft reset goes on, the completions that fall due before at_ are written, and links that no
acknowledgement reaches go down (R57, R85, R349, R436). -/
def State.tick (s : State) (at_ : Nat) : State :=
  if at_ ≤ s.now then s
  else
    let n := s.cyclesIn (at_ - s.curtainAt) - s.cyclesIn (s.now - s.curtainAt)
    let t := (((s.spend n).softPass at_).egrForce (at_ - 1)).ackLimits at_
    { t with now := at_, upTime := s.upTime + (at_ - s.now) }

-- the error log

/-- Whether the management firmware can send over the ports now: it runs (R418), has its supply, and EXTEST has not taken the pins (R341). -/
def State.portSends (s : State) : Bool := s.flag 0 MGT_STATUS_FW_OK && s.pins.input && !s.pinsTaken

/-- A port to which records are sent: its bus owner has enabled events, and it has not gone silent with the primary (R406, R412). -/
def State.portOpen (s : State) (i : Nat) (p : Port) : Bool := p.events && !(i == 0 && s.flag 0 MGT_STATUS_ACTIVE)

/-- A record of SEV 1 or higher queued at every open port until it is acknowledged, and sent at once where it can be, each port raising an in-band
interrupt (R341, R412, R418). -/
def State.report (s : State) (r : LogRec) : State :=
  if r.sev = 0 then s
  else
    let ps := s.ports.zip (List.range 2)
    { s with
      ports := ps.map (fun (p, i) => if s.portOpen i p then { p with queue := p.queue ++ [r] } else p)
      out := s.out ++ (if s.portSends then (ps.filter (fun (p, i) => s.portOpen i p)).flatMap (fun (_, i) => [Out.event i r, Out.inBand i]) else []) }

/-- A record of the log laid out in its 32 bytes (R411). -/
def LogRec.bytes (r : LogRec) : List Byte :=
  leBytes 8 r.time ++ leBytes 8 r.frame ++ leBytes 2 (r.source % 1024 + 1024 * (r.die % 8)) ++ leBytes 2 (r.site % 2048) ++
  leBytes 4 (if r.stream < 2 ^ 18 then r.stream else 2 ^ 32 - 1) ++ leBytes 1 r.sev ++ leBytes 1 r.cause ++ leBytes 2 r.rep ++ leBytes 4 0

/-- A state with what another has logged: the log, its counts and event, and what was sent and queued for the ports. -/
def State.logged (s t : State) : State :=
  { s with log := t.log, logNext := t.logNext, regs := t.regs, ports := t.ports, out := t.out }

/-- An event logged (R411, R412): merged into the newest record where source, site and cause match within 1 ms; otherwise a new
record, the oldest overwritten when the ring of 4,096 is full. -/
def State.logRec (s : State) (source die site stream sev cause : Nat) : State :=
  let same (r : LogRec) : Bool :=
    r.source == source && r.die == die && r.site == site && r.cause == cause && decide (s.upTime ≤ r.time + 1000000)
  s.logged (match s.log.getLast? with
    | some r =>
      if same r then { s with log := s.log.dropLast ++ [{ r with rep := satAdd 16 r.rep 1 }] }
      else logNew s source die site stream sev cause
    | none => logNew s source die site stream sev cause)
where
  /-- A new record. -/
  logNew (s : State) (source die site stream sev cause : Nat) : State :=
    let frame := if s.flag 0 CUR_STATUS_RUN then s.frame else 2 ^ 64 - 1
    let r : LogRec := ⟨s.upTime, frame, source, die, site, stream, sev, cause, 0, decide (sev < 2), s.logNext⟩
    let full := decide (4096 ≤ s.log.length)
    let s := { s with log := (if full then s.log.tail else s.log) ++ [r], logNext := s.logNext + 1 }
    let s := if full then s.countFld 0 MGT_LOG_LOST_COUNT 1 else s
    let s := if 2 ≤ sev then s.event 0 MGT_EVENT_LOG else s
    s.report r

/-- An integrity event (R387): its bit and its source, and the management core's record of it with its site, stream and cause, whichever target
the source goes to. The severity is free: the spec gives none (log 40). -/
def State.integrity (s : State) (d : Nat) (f : RF) (site stream cause : Nat) : State :=
  let (x, s) := (s.event d f).fresh
  s.logRec (720 + f.lo) d site stream (x % 4) cause

/-- No stream, in a record of the log (R411). -/
def noStream : Nat := 0xFFFFFFFF

-- rehearsal

/-- Whether a context is in rehearsal mode (R342): a bit cleared counts until the next close. -/
def State.rehearsal (s : State) (ctx : Nat) : Bool :=
  bitOf (s.rg64 (dkey 0 MGT_REH_LO_CTX.off)) ctx || s.rehOff.contains ctx

-- taking a trap

/-- The value of svN.st (R330). -/
def stWord (slot : Nat) (dec retry imp : Bool) (plev : Nat) : Word :=
  BitVec.ofNat 32 (slot <<< 10 + b2n dec <<< 9 + b2n retry <<< 8 + b2n imp <<< 7 + plev <<< 4)

/-- A level as a number (R325). -/
def Level.num : Level → Nat
  | .l0 => 0
  | .l1 => 1
  | .l2 => 2

/-- The level a PLEV field names; 2 and 3 are not used (R330). -/
def levelOf (n : Nat) : Level := if n = 1 then .l1 else .l0

/-- What an entry records about its cause (R328, R331). -/
structure TrapInfo where
  cause : Nat
  addr : Nat
  tcode : Nat
  slot : Nat
  dec : Bool
  retry : Bool
  imp : Bool
  deriving DecidableEq, Repr

/-- Save registers written by an entry from the thread's present state (R328). -/
def saveOf (x : Thread) (i : TrapInfo) (inner : Nat) (old : Save) : Save :=
  { old with
    pc := x.pc
    st := stWord i.slot i.dec i.retry i.imp (if x.level = .l1 then 1 else 0)
    cause := BitVec.ofNat 32 (i.tcode <<< 16 + inner <<< 8 + i.cause)
    addr := BitVec.ofNat 32 i.addr
    prog := x.prog
    went := x.after }

/-- A thread with nothing pending of its bundle: a bundle not retired is dropped, a wait abandoned (R293). -/
def Thread.drop (x : Thread) : Thread := { x with bun := none, wait := none, long := none, after := none }

/-- Entry to L2 (R329): sv2 written, the thread stops with STATE 3, the die's L2 source is raised. -/
def State.enterL2 (s : State) (site : Nat) (t : Fin 4) (i : TrapInfo) (inner : Nat) : State :=
  let s := s.modThr site t (fun x => { x.drop with sv2 := saveOf x i inner x.sv2, prog := 0, level := .l2, l2wait := true })
  if site < Config.sites then s.raise (dieOf site) (site % Config.sitesPerDie) else s

/-- A fault or machine check met while running at L2 (R329): the thread stops at once, sv2 stands, L2FLT is set. -/
def State.l2Fault (s : State) (site : Nat) (t : Fin 4) : State :=
  let s := s.modThr site t (fun x => { x.drop with l2wait := true })
  s.setCfld site CFG_CORE_TRAP_L2FLT (setBits (s.cfld site CFG_CORE_TRAP_L2FLT) t.val 1 1)

/-- A delivery to thread 0 (R326, R327): its pend bit, and thread 0 is woken from a SLEEP. Any other wait of thread 0 is
abandoned at its entry (R293). -/
def State.deliverTrap (s : State) (site : Nat) (t : Fin 4) : State :=
  let s := s.modCore site (fun c => { c with trapPend := BitVec.ofNat 32 (setBits c.trapPend.toNat t.val 1 1) })
  s.modThr site 0 (fun x =>
    match x.wait with
    | some w => if w.kind = .sleep then { x with wait := none } else x
    | none => x)

/-- Entry to L1 (R326, R328): thread 0 goes on at VEC1; a thread among 1 to 3 stops and is delivered to thread 0. -/
def State.enterL1 (s : State) (site : Nat) (t : Fin 4) (i : TrapInfo) : State :=
  let c := s.core site
  let s := s.modThr site t (fun x =>
    { x.drop with
      sv1 := saveOf x i 0 x.sv1
      prog := 0
      level := .l1
      pc := if t = 0 then BitVec.ofNat 16 (bitsOf c.trapCtl.toNat 16 16) else x.pc })
  if t = 0 then s else (s.setHalt site t true).deliverTrap site t

/-- Taking a fault, a trap, an interrupt or a machine check (R325 to R329). -/
def State.takeTrap (s : State) (site : Nat) (t : Fin 4) (i : TrapInfo) : State :=
  match (s.thr site t).level with
  | .l2 => s.l2Fault site t
  | .l1 =>
    if i.cause = 0x30 ∨ i.cause = 0x31 then s.enterL2 site t i 0
    else s.enterL2 site t { i with cause := 0x32 } i.cause
  | .l0 =>
    if i.cause = 0x30 ∨ i.cause = 0x31 then s.enterL2 site t i 0 else s.enterL1 site t i

/-- Return of a thread from L1 to its sv1 state (R332). -/
def Thread.returnL1 (x : Thread) (lev : Level) : Thread :=
  { x with pc := x.sv1.pc, level := lev, prog := x.sv1.prog, after := x.sv1.went }

/-- Return of a thread from L2 (RESUME, R329). -/
def Thread.returnL2 (x : Thread) : Thread :=
  { x with
    pc := x.sv2.pc
    level := levelOf (bitsOf x.sv2.st.toNat 4 2)
    prog := x.sv2.prog
    after := x.sv2.went
    l2wait := false }

/-- A thread started (R107, R295, R299, R326): entry PC, L0, empty shadow stack, banks invalid, arm and staging cleared,
the trap state at its start values. -/
def Thread.start (x : Thread) (entry : BitVec 16) : Thread :=
  { x.drop with
    pc := entry
    level := .l0
    ss := []
    ssDepth := 0
    bk := x.bk.map (fun b => b &&& ~~~1#64)
    cueArm := BitVec.ofNat 32 (setBits x.cueArm.toNat 31 1 0)
    armed := none
    staging := []
    prog := 0
    late := []
    l2wait := false }

end Sys2Proof.Machine
end

