-- ==== Sys2Proof/Machine/Operands.lean ====
section
/-! DEFINITION. Operand forms: prefixes, immediates, register names, bank resolution and the checks of an address. -/

namespace Sys2Proof.Machine

/-- What the prefixes of an operation hold (R117). -/
structure Pre where
  imms : List (BitVec 9)
  regs : List (BitVec 4 × Bool × Bool × BitVec 2)
  fmts : List (Nat × Nat)
  bad : Bool
  deriving DecidableEq, Repr

/-- Prefixes gathered in syllable order (R117, R122); more than three, an illegal one or a FMT rounding of 6 or 7 is bad. -/
def Iss.pre (i : Iss) : Pre where
  imms := i.pfx.filterMap (fun p => match p with | .imm x => some x | _ => none)
  regs := i.pfx.filterMap (fun p => match p with | .reg b dh ah q => some (b, dh, ah, q) | _ => none)
  fmts := i.pfx.filterMap (fun p => match p with | .fmt c r => some (c.toNat, r.toNat) | _ => none)
  bad := decide (3 < i.pfx.length) || i.pfx.any (fun p =>
    match p with
    | .ill => true
    | .fmt _ r => decide (6 ≤ r.toNat)
    | _ => false)

/-- The prefixes an operation accepts (R120): IMM, REG, and how many FMT. -/
structure Accepts where
  imm : Bool
  reg : Bool
  fmt : Nat
  deriving DecidableEq, Repr

/-- Accepts nothing. -/
def Accepts.none : Accepts := ⟨false, false, 0⟩

/-- Whether the prefixes are ones the operation accepts (R120). -/
def Pre.legal (p : Pre) (a : Accepts) : Bool :=
  !p.bad && (a.imm || p.imms.isEmpty) && (p.regs.isEmpty || (a.reg && p.regs.length == 1)) &&
  decide (p.fmts.length ≤ a.fmt)

/-- Whether a REG prefix is present. -/
def Pre.hasReg (p : Pre) : Bool := !p.regs.isEmpty

/-- REG.B, 0 without a REG prefix. -/
def Pre.b (p : Pre) : Nat := match p.regs with | (b, _, _, _) :: _ => b.toNat | [] => 0

/-- REG.DH as a number. -/
def Pre.dh (p : Pre) : Nat := match p.regs with | (_, dh, _, _) :: _ => b2n dh | [] => 0

/-- REG.AH as a number. -/
def Pre.ah (p : Pre) : Nat := match p.regs with | (_, _, ah, _) :: _ => b2n ah | [] => 0

/-- REG.P: the predicate, p0 without a REG prefix (R119). -/
def Pre.p (p : Pre) : Nat := match p.regs with | (_, _, _, q) :: _ => q.toNat | [] => 0

/-- An immediate read unsigned: IMM data most significant first, the operation's own field of w bits below (R118). -/
def Pre.immU (p : Pre) (own w : Nat) : Nat :=
  (p.imms.foldl (fun acc x => acc * 512 + x.toNat) 0) * 2 ^ w + own

/-- Total width of an immediate (R118). -/
def Pre.immW (p : Pre) (w : Nat) : Nat := 9 * p.imms.length + w

/-- An immediate read signed and taken to 32 bits (R118). -/
def Pre.immS (p : Pre) (own w : Nat) : Nat :=
  if p.immW w = 0 then 0 else wrap 32 (sgn (p.immW w) (p.immU own w))

/-- A register number of a 3-bit field extended by a high bit (R119). -/
def extReg (hi : Nat) (x : BitVec 3) : Fin 16 := Fin.ofNat 16 (hi * 8 + x.toNat)

/-- An illegal operation found while decoding (R120, R122). -/
def illegalOp : Flt := ⟨0x01, 0, 0, true, none⟩

/-- An illegal operation found at execution. -/
def illegalExec : Flt := ⟨0x01, 0, 0, false, none⟩

/-- An illegal operand. -/
def illegalOperand : Flt := ⟨0x02, 0, 0, false, none⟩

-- address resolution

/-- Whether two byte ranges overlap. -/
def overlaps (a n b m : Nat) : Bool := decide (a < b + m) && decide (b < a + n)

/-- Port classes (R228). -/
inductive PortCls where
  | n
  | t
  | d
  deriving DecidableEq, Repr

/-- How an access reaches a bank: its port's class, and the cycles of refusal it shares with requests of other classes that it meets
there (R231, R232). -/
structure Via where
  cls : PortCls
  met : Nat
  deriving DecidableEq, Repr

/-- What an access needs of the region table (R103). -/
structure Need where
  r : Bool
  w : Bool
  a : Bool
  deriving DecidableEq, Repr

/-- Kinds of access: R, W and atomic permissions. -/
def needR : Need := ⟨true, false, false⟩
/-- A store. -/
def needW : Need := ⟨false, true, false⟩
/-- An atomic operation. -/
def needA : Need := ⟨true, true, true⟩

/-- A region entry of a context (R396): base and last 4 KiB page, permissions and validity, packed as CFG_RGN holds it:
BASE in [63:0], LAST in [127:76], V in [64], A in [67], W in [66], R in [65]. -/
structure Region where
  base : Nat
  last : Nat
  v : Bool
  r : Bool
  w : Bool
  a : Bool
  deriving DecidableEq, Repr

/-- The entry as the table holds it: low half CFG_RGN_BASE, high half CFG_RGN_LAST. -/
def regionOf (e : BitVec 128) : Region where
  base := bitsOf e.toNat 12 52 * 4096
  last := bitsOf e.toNat 76 52 * 4096 + 4095
  v := bitOf e.toNat (64 + CFG_RGN_LAST_LO_V.lo)
  r := bitOf e.toNat (64 + CFG_RGN_LAST_LO_R.lo)
  w := bitOf e.toNat (64 + CFG_RGN_LAST_LO_W.lo)
  a := bitOf e.toNat (64 + CFG_RGN_LAST_LO_A.lo)

/-- The region table in force of a context: its 64 entries (R396). -/
def State.regions (s : State) (ctx : Nat) : List Region :=
  (List.range 64).map (fun k => regionOf (get 0 s.rgnLive (ctx * 64 + k)))

/-- Whether one entry covers every byte and grants what the access needs (R103). -/
def State.permitted (s : State) (ctx g n : Nat) (need : Need) : Bool :=
  (s.regions ctx).any (fun e => e.v && decide (e.base ≤ g) && decide (g + n ≤ e.last + 1) &&
    (!need.r || e.r) && (!need.w || e.w) && (!need.a || e.a))

/-- The same for a line, whichever form of its address an entry is written for: node 0 and the own node number name one place (R261). -/
def State.lineAllowed (s : State) (ctx g : Nat) (need : Need) : Bool :=
  s.permitted ctx g 64 need || (s.isLocal g && s.permitted ctx (s.ownNode <<< 52 + localOf g) 64 need)

/-- Where a checked access goes. -/
inductive Target where
  | own (off : Nat)
  | glob (g : Nat)
  deriving DecidableEq, Repr

/-- Class of a scratchpad bank in sp.bmap (R229): 0 N, 1 T, 2 D, 3 shared. -/
def State.bankCls (s : State) (site b : Nat) : Nat := bitsOf (s.cfld site SP_BMAP_MAP) (2 * b) 2

/-- Banks that bytes of a scratchpad touch (R227). -/
def banksOf (off n : Nat) : List Nat := (List.range ((off + n - 1) / 0x8000 - off / 0x8000 + 1)).map (fun i => off / 0x8000 + i)

/-- Whether bytes of a scratchpad may be reached through a port (R229). -/
def State.bankOk (s : State) (site off n : Nat) (p : PortCls) : Bool :=
  let c := match p with | .n => 0 | .t => 1 | .d => 2
  (banksOf off n).all (fun b => s.bankCls site b == 3 || s.bankCls site b == c)

/-- Whether bytes of a scratchpad touch a shared bank. -/
def State.sharedAt (s : State) (site off n : Nat) : Bool := (banksOf off n).any (fun b => s.bankCls site b == 3)

/-- Whether an N or T access meets another class's request in a strict bank (R232). -/
def State.strictMeet (s : State) (site off n : Nat) (v : Via) : Bool :=
  v.met != 0 && (banksOf off n).any (fun b => s.bankCls site b == 3 && bitOf (s.cfld site SP_CTL_STRICT) b)

/-- Refusals counted in sp.conf for an access to the core's own scratchpad that met other classes' requests in a shared bank (R231). -/
def State.confOf (s : State) (site off n : Nat) (v : Via) : Nat := if s.sharedAt site off n then v.met else 0

/-- Whether bytes lie in the thread's slice and outside every enabled spill unit (R98, R99). -/
def State.sliceOk (s : State) (site : Nat) (t : Fin 4) (off n : Nat) : Bool :=
  let sl := (s.thr site t).slice.toNat
  decide (bitsOf sl 0 7 ≤ off / 4096) && decide ((off + n - 1) / 4096 ≤ bitsOf sl 16 7) &&
  !(s.core site).hitsSpill off n

/-- Batches with slots that may stand unstruck: those past their BATCHEND, the running one, and those staged behind it. -/
def Core.batches (c : Core) : List Running := c.ended ++ c.batch.toList ++ c.queued.map Ready.run

/-- Whether bytes touch the header or a channel block of a staged slot, which are read-only until its strike (R369). -/
def State.slotRo (s : State) (site off n : Nat) : Bool :=
  (s.core site).batches.any (fun b => b.slots.any (fun r => !r.struck && overlaps r.off (64 * (1 + r.nchan)) off n))

/-- A scratchpad access checked (R98, R99, R101, R229, R232, R369), through a port. Where a bank 0 access ends past the window too, R101
and R104 both name a fault and no order: the model takes R101's unmapped address (DESIGN CHOICE, log 43). -/
def State.checkOwn (s : State) (site : Nat) (t : Fin 4) (ea off n : Nat) (need : Need) (p : Via) :
    Except Flt Target :=
  if 0x80000 < off + n then .error ⟨0x0A, ea, 0, false, none⟩
  else if !s.sliceOk site t off n then .error ⟨0x04, ea, 0, false, none⟩
  else if !s.bankOk site off n p.cls || s.strictMeet site off n p || (need.w && s.slotRo site off n) then .error ⟨0x05, ea, 0, false, none⟩
  else .ok (.own off)

/-- An effective address resolved through the banks and checked (R98 to R104, R229, R239). An address nothing occupies
faults here (R103, R264) unless `late`: a load or atomic brings the unmapped status with its data (R331). -/
def State.resolve (s : State) (site : Nat) (t : Fin 4) (ea n : Nat) (need : Need) (p : Via) (late : Bool) :
    Except Flt Target :=
  let x := s.thr site t
  let b := ea / 2 ^ 29 % 8
  let off := ea % 2 ^ 29
  if b = 0 then s.checkOwn site t ea off n need p
  else
    let bk := (x.bk[Fin.ofNat 8 b]).toNat
    if bk % 2 = 0 then .error ⟨0x06, ea, 0, false, none⟩
    else if 2 ^ 29 < off + n then .error ⟨0x08, ea, 0, false, none⟩
    else
      let g := bk / 2 ^ 29 * 2 ^ 29 + off
      if !s.permitted x.ctx g n need then .error ⟨0x03, ea, 0, false, none⟩
      else if s.isLocal g then
        match s.homeOf (localOf g) n with
        | .unmapped => if late then .ok (.glob (localOf g)) else .error ⟨0x0A, ea, 0, false, some g⟩
        | .pad st o => if st = site then s.checkOwn site t ea o n need p else .ok (.glob (localOf g))
        | _ => .ok (.glob (localOf g))
      else .ok (.glob g)

/-- Whether a target is register space (R145). -/
def State.isRegSpace (s : State) (g : Nat) : Bool :=
  s.isLocal g &&
  match s.home (localOf g) with
  | .reg _ _ => true
  | .bcast _ => true
  | _ => false

/-- Whether an address of another node is one of its memory: not a site's window and not its register space (R241, R262). -/
def farMemory (g : Nat) : Bool := decide (localOf g < 0x010000000000) || decide (0x020024000000 ≤ localOf g)

/-- Whether a target goes through the data cache (R241): HBM and other nodes' memory, with the cache on and the core out of safe
mode. -/
def State.cacheable (s : State) (site g : Nat) : Bool :=
  s.cflag site DC_CTL_EN && !s.safe site &&
  (if s.isLocal g then
    match s.home (localOf g) with
    | .hbm _ => true
    | _ => false
   else farMemory g)

/-- Set of a global address in the data cache (R242). -/
def cacheSet (g : Nat) : Nat := (bitsOf g 6 6) ^^^ (bitsOf g 12 6) ^^^ (bitsOf g 18 6)

/-- The line of the core's cache holding an address. -/
def Core.line (c : Core) (g : Nat) : Option Line := c.lines.find? (fun l => l.addr == g / 64 * 64)

end Sys2Proof.Machine
end

