-- ==== Sys2Proof/Machine/Descr.lean ====
section
/-! DEFINITION. DMA descriptors and target words: their fields, ranges and checks (R289, R312, R313). -/

namespace Sys2Proof.Machine

/-- A target word (R289): LOCAL, NODE, SITE, and whether its reserved bits are 0. -/
structure Tgt where
  isLocal : Bool
  node : Nat
  site : Nat
  clean : Bool
  deriving DecidableEq, Repr

/-- The fields of a target word (R289). -/
def tgtOf (w : Nat) : Tgt :=
  ⟨bitOf w 31, bitsOf w 12 12, bitsOf w 0 11, bitsOf w 24 7 == 0 && !bitOf w 11⟩

/-- Whether a target word names this node (R289). -/
def State.tgtHere (s : State) (g : Tgt) : Bool := g.isLocal || g.node == 0 || g.node == s.ownNode

/-- A descriptor's fields (R312). -/
structure Desc where
  mode : Nat
  bar : Bool
  land : Bool
  orel : Bool
  crec : Bool
  ccue : Bool
  sfix : Bool
  dfix : Bool
  sw : Nat
  dw : Nat
  shost : Bool
  dhost : Bool
  irq : Bool
  cue : Nat
  len : Nat
  src : Nat
  dst : Nat
  idx : Nat
  cpl : Nat
  cueTgt : Nat
  tag : Nat
  swc : Nat
  dwc : Nat
  clean : Bool
  deriving DecidableEq, Repr

/-- Bytes of a width code (R312). -/
def dmaWidth (c : Nat) : Nat := 4 * 2 ^ c

/-- The fields of a 64-byte descriptor (R312). -/
def descOf (e : BitVec 512) : Desc :=
  let n := e.toNat
  let c := bitsOf n 0 32
  { mode := bitsOf c 30 2
    bar := bitOf c 29
    land := bitOf c 28
    orel := bitOf c 27
    crec := bitOf c 26
    ccue := bitOf c 25
    sfix := bitOf c 24
    dfix := bitOf c 23
    sw := dmaWidth (bitsOf c 20 3)
    dw := dmaWidth (bitsOf c 17 3)
    shost := bitOf c 16
    dhost := bitOf c 15
    irq := bitOf c 14
    cue := bitsOf c 0 6
    len := bitsOf n 32 32
    src := bitsOf n 64 64
    dst := bitsOf n 128 64
    idx := bitsOf n 192 64
    cpl := bitsOf n 256 64
    cueTgt := bitsOf n 320 32
    tag := bitsOf n 352 32
    swc := bitsOf c 20 3
    dwc := bitsOf c 17 3
    clean := bitsOf c 6 8 == 0 && bitsOf n 384 128 == 0 }

/-- Whether a descriptor is a gather. -/
def Desc.gather (x : Desc) : Bool := x.mode == 1

/-- Bytes a command moves (R312). -/
def Desc.total (x : Desc) : Nat := if x.gather then x.len * x.sw else x.len

/-- Bytes of the source range of a copy. -/
def Desc.srcLen (x : Desc) : Nat := if x.len = 0 then 0 else if x.sfix then x.sw else x.len

/-- Bytes of the destination range. -/
def Desc.dstLen (x : Desc) : Nat := if x.total = 0 then 0 else if x.dfix then x.dw else x.total

/-- Fields of check 1 of R313: every CTRL and LEN value valid, reserved bits 0; `bulk` admits the bulk-only
bits. A completion target word's reserved bits must be 0 as well (R289). -/
def Desc.valid (x : Desc) (bulk : Bool) : Bool :=
  decide (x.mode ≤ 1) && decide (x.swc ≤ 4) && decide (x.dwc ≤ 4) && x.clean &&
  (bulk || (!x.shost && !x.dhost && !x.irq)) && (!x.ccue || (tgtOf x.cueTgt).clean) &&
  (if x.gather then
    !x.sfix && x.len * x.sw % x.dw == 0 && decide (x.len * x.sw ≤ 2 ^ 32)
   else
    x.idx == 0 && x.len % x.sw == 0 && x.len % x.dw == 0)

/-- An address of this module as its local one, whether or not it names its own node (R262). -/
def State.spaceOf (s : State) (g : Nat) : Nat := if s.isLocal g then localOf g else g

/-- Check 1 of R313: valid fields, and in a copy a source and a destination that do not overlap. -/
def State.descValid (s : State) (x : Desc) (bulk : Bool) : Bool :=
  x.valid bulk &&
  (x.gather || x.shost != x.dhost ||
    !(if x.shost then overlaps x.src x.srcLen x.dst x.dstLen
      else overlaps (s.spaceOf x.src) x.srcLen (s.spaceOf x.dst) x.dstLen))

/-- Check 2 of R313: alignment. -/
def Desc.aligned (x : Desc) : Bool :=
  x.src % x.sw == 0 && x.dst % x.dw == 0 && x.idx % 4 == 0 && (!x.crec || x.cpl % 16 == 0)

/-- The ranges a command names, each with its length, whether it is written, its beat width and whether it is a host
address: index table, source of a copy, destination, completion record. -/
def Desc.ranges (x : Desc) : List (Nat × Nat × Bool × Nat × Bool) :=
  (if x.gather then [(x.idx, 4 * x.len, false, 4, false)] else [(x.src, x.srcLen, false, x.sw, x.shost)]) ++
  [(x.dst, x.dstLen, true, x.dw, x.dhost)] ++
  (if x.crec then [(x.cpl, 16, true, 16, false)] else [])

/-- The part of n bytes that lies in a site's own window, as a scratchpad offset and a length (R313 check 3). -/
def State.ownPart (s : State) (site g n : Nat) : Option (Nat × Nat) :=
  let a := localOf g
  let lo := max a (padBase site)
  let hi := min (a + n) (padBase site + 0x80000)
  if s.isLocal g && decide (lo < hi) then some (lo - padBase site, hi - lo) else none

/-- Check 4 of R313 for one range: one region entry with the permission, and register space only with a width of 4 (R6). A host
range is admitted where host addresses are. -/
def State.rangeOk (s : State) (ctx : Nat) (r : Nat × Nat × Bool × Nat × Bool) (hostOk : Bool) : Bool :=
  let (g, n, w, width, host) := r
  if n = 0 then true
  else if host then hostOk
  else s.permitted ctx g n (if w then needW else needR) && (!s.isRegSpace g || width == 4)

/-- Check 5 of R313: a completion cue names a good site of this node, or a remote node. -/
def State.cueTgtOk (s : State) (x : Desc) : Bool :=
  let g := tgtOf x.cueTgt
  !x.ccue || g.isLocal || !s.tgtHere g || s.good g.site

/-- Check 3 of R313: the first range that reaches the issuer's own window outside its slice or in a spill unit, as a scratchpad
offset. -/
def State.sliceBreak (s : State) (site : Nat) (t : Fin 4) (x : Desc) : Option Nat :=
  x.ranges.findSome? (fun (g, n, _, _, host) =>
    match (if host then none else s.ownPart site g n) with
    | some (o, m) => if s.sliceOk site t o m then none else some o
    | none => none)

/-- The checks of R313 on a DMAGO; `ea` is the descriptor's offset. -/
def State.checkDesc (s : State) (site : Nat) (t : Fin 4) (ea : Nat) (x : Desc) : Option Flt :=
  if !s.descValid x false then some illegalOperand
  else if !x.aligned then some ⟨0x09, ea, 0, false, none⟩
  else
    match s.sliceBreak site t x with
    | some o => some ⟨0x04, o, 0, false, none⟩
    | none =>
      if !(x.ranges.all (fun r => s.rangeOk (s.thr site t).ctx r false)) then some ⟨0x03, ea, 0, false, none⟩
      else if !s.cueTgtOk x then some ⟨0x0A, x.cueTgt, 0, false, none⟩
      else none

/-- The checks of R313 made for a channel, of a thread of a site or a bulk one, and again at a restart (R321). A bulk channel stands on no
core, so LOCAL names no site there; the elements of a gather from the host need HOSTOK as a copy's source does. -/
def State.checkRun (s : State) (ctx : Nat) (own : Option (Nat × Fin 4)) (hostOk : Bool) (x : Desc) : Bool :=
  s.descValid x own.isNone && x.aligned && x.ranges.all (fun r => s.rangeOk ctx r hostOk) && s.cueTgtOk x &&
  (!x.gather || !x.shost || hostOk) &&
  (match own with
    | some (site, t) => (s.sliceBreak site t x).isNone
    | none => !(x.ccue && (tgtOf x.cueTgt).isLocal))

end Sys2Proof.Machine
end

