-- ==== Sys2Proof/Machine/Num.lean ====
section
/-! DEFINITION. Number formats, exact values, rounding, conversion and quantisation (spec/07_number_formats.md). -/

namespace Sys2Proof.Machine

/-- A value as the formats of R187 and R188 hold it: NaN, an infinity, or (-1)^neg x m x 2^e with m = 0 a signed zero. -/
inductive Val where
  | nan
  | inf (neg : Bool)
  | fin (neg : Bool) (m : Nat) (e : Int)
  deriving DecidableEq, Repr

/-- Classes of R194: the counter an element increments, if any. -/
inductive Cls where
  | none
  | nan
  | sat
  | flush
  deriving DecidableEq, Repr

/-- Increases of num.sat, num.flush and num.nan. -/
structure Counts where
  sat : Nat
  flush : Nat
  nan : Nat
  deriving DecidableEq, Repr

/-- No increase. -/
def Counts.zero : Counts := ⟨0, 0, 0⟩

/-- Counts added. -/
def Counts.add (a b : Counts) : Counts := ⟨a.sat + b.sat, a.flush + b.flush, a.nan + b.nan⟩

/-- One element's count (R194). -/
def Cls.counts : Cls → Counts
  | .none => ⟨0, 0, 0⟩
  | .nan => ⟨0, 0, 1⟩
  | .sat => ⟨1, 0, 0⟩
  | .flush => ⟨0, 1, 0⟩

/-- The counts of a list of elements. -/
def countAll (l : List Cls) : Counts := l.foldl (fun a c => a.add c.counts) Counts.zero

/-- Rounding modes (R197). -/
inductive Rnd where
  | nearest
  | zero
  | up
  | down
  | stoch
  deriving DecidableEq, Repr

/-- The mode a rounding code names (R117, R197); codes outside 1 to 5 never reach here. -/
def Rnd.ofCode (n : Nat) : Rnd :=
  match n with
  | 2 => .zero
  | 3 => .up
  | 4 => .down
  | 5 => .stoch
  | _ => .nearest

/-- A floating-point format of R187: exponent and mantissa bits, bias, largest finite value as maxM x 2^maxE, and which
specials it has. -/
structure FloatFmt where
  eb : Nat
  mb : Nat
  bias : Int
  maxM : Nat
  maxE : Int
  hasInf : Bool
  hasNan : Bool
  deriving DecidableEq, Repr

/-- The floating-point formats by code (R121, R187). -/
def floatFmt (code : Nat) : Option FloatFmt :=
  match code with
  | 0x1 => some ⟨8, 23, 127, 2 ^ 24 - 1, 104, true, true⟩
  | 0x2 => some ⟨5, 10, 15, 2 ^ 11 - 1, 5, true, true⟩
  | 0x3 => some ⟨8, 7, 127, 2 ^ 8 - 1, 120, true, true⟩
  | 0x4 => some ⟨4, 3, 7, 14, 5, false, true⟩
  | 0x5 => some ⟨5, 2, 15, 7, 13, true, true⟩
  | 0x6 => some ⟨3, 2, 3, 7, 2, false, false⟩
  | 0x7 => some ⟨2, 3, 1, 15, -1, false, false⟩
  | 0x8 => some ⟨2, 1, 1, 3, 1, false, false⟩
  | _ => none

/-- Element width in bits of a format code (R159, R187, R188). -/
def fmtWidth (code : Nat) : Nat :=
  match code with
  | 0x1 => 32
  | 0x2 => 16
  | 0x3 => 16
  | 0x6 => 6
  | 0x7 => 6
  | 0x8 => 4
  | 0xA => 32
  | 0xB => 16
  | 0xE => 4
  | 0xF => 16
  | _ => 8

/-- Least and greatest integer of an integer format (R188). -/
def intRange (code : Nat) : Option (Int × Int) :=
  match code with
  | 0xA => some (-2147483648, 2147483647)
  | 0xB => some (-32768, 32767)
  | 0xC => some (-128, 127)
  | 0xD => some (0, 255)
  | 0xE => some (-8, 7)
  | _ => none

/-- Floor of the base-2 logarithm of m x 2^e, for m ≠ 0. -/
def log2Of (m : Nat) (e : Int) : Int := (Nat.log2 m : Int) + e

/-- m x 2^e in units of 2^q, truncated, with the remainder and its denominator. -/
def scaleTo (m : Nat) (e q : Int) : Nat × Nat × Nat :=
  if q ≤ e then (m * 2 ^ (e - q).toNat, 0, 1)
  else
    let d := 2 ^ (q - e).toNat
    (m / d, m % d, d)

/-- Whether a truncated magnitude a with remainder r of d goes to the neighbour away from zero (R197, R198). -/
def roundsUp (mode : Rnd) (neg : Bool) (rnd16 a r d : Nat) : Bool :=
  if r = 0 then false
  else
    match mode with
    | .nearest => decide (d < 2 * r) || (decide (2 * r = d) && a % 2 == 1)
    | .zero => false
    | .up => !neg
    | .down => neg
    | .stoch => decide (rnd16 < 65536 * r / d)

/-- m x 2^e rounded to a multiple of 2^q. -/
def roundTo (mode : Rnd) (neg : Bool) (rnd16 : Nat) (m : Nat) (e q : Int) : Nat :=
  let (a, r, d) := scaleTo m e q
  if roundsUp mode neg rnd16 a r d then a + 1 else a

/-- Whether m x 2^e exceeds n x 2^f. -/
def exceeds (m : Nat) (e : Int) (n : Nat) (f : Int) : Bool :=
  let q := if e ≤ f then e else f
  decide (n * 2 ^ (f - q).toNat < m * 2 ^ (e - q).toNat)

/-- Sign bit of a format. -/
def signBit (f : FloatFmt) (neg : Bool) : Nat := if neg then 2 ^ (f.eb + f.mb) else 0

/-- The encoding of magnitude a x 2^q, representable in the format. -/
def encodeMag (f : FloatFmt) (a : Nat) (q : Int) : Nat :=
  if a < 2 ^ f.mb then a
  else
    let l := Nat.log2 a
    let frac := if f.mb ≤ l then a / 2 ^ (l - f.mb) else a * 2 ^ (f.mb - l)
    ((l : Int) + q + f.bias).toNat * 2 ^ f.mb + (frac - 2 ^ f.mb)

/-- The encoding of the largest finite value. -/
def maxBits (f : FloatFmt) : Nat := encodeMag f f.maxM f.maxE

/-- The canonical NaN (R187). -/
def nanBits (f : FloatFmt) : Nat :=
  if f.hasInf then (2 ^ f.eb - 1) * 2 ^ f.mb + 2 ^ (f.mb - 1) else 2 ^ (f.eb + f.mb) - 1

/-- The infinity of a format. -/
def infBits (f : FloatFmt) : Nat := (2 ^ f.eb - 1) * 2 ^ f.mb

/-- The value of a floating-point pattern (R187). -/
def decodeFloat (f : FloatFmt) (bits : Nat) : Val :=
  let neg := bitOf bits (f.eb + f.mb)
  let ex := bitsOf bits f.mb f.eb
  let man := bitsOf bits 0 f.mb
  if f.hasInf && ex == 2 ^ f.eb - 1 then (if man = 0 then .inf neg else .nan)
  else if f.hasNan && !f.hasInf && ex == 2 ^ f.eb - 1 && man == 2 ^ f.mb - 1 then .nan
  else if ex = 0 then .fin neg man (1 - f.bias - f.mb)
  else .fin neg (2 ^ f.mb + man) ((ex : Int) - f.bias - f.mb)

/-- Whether the IEEE overflow result is the infinity for a mode and sign (R195). -/
def overflowsToInf (mode : Rnd) (neg : Bool) : Bool :=
  match mode with
  | .nearest => true
  | .zero => false
  | .up => !neg
  | .down => neg
  | .stoch => true

/-- A finite exact value rounded once into a floating-point format (R192, R194, R195, R198). -/
def roundFloat (f : FloatFmt) (mode : Rnd) (ieee : Bool) (rnd16 : Nat) (neg : Bool) (m : Nat) (e : Int) : Nat × Cls :=
  if m = 0 then (signBit f neg, .none)
  else
    let emin := 1 - f.bias
    let l := log2Of m e
    let q := (if emin ≤ l then l else emin) - f.mb
    let a := roundTo mode neg rnd16 m e q
    if exceeds m e f.maxM f.maxE then
      let toInf := ieee && f.hasInf && overflowsToInf mode neg && exceeds a q f.maxM f.maxE
      (signBit f neg + (if toInf then infBits f else maxBits f), .sat)
    else if a = 0 then (signBit f neg, .flush)
    else (signBit f neg + encodeMag f a q, .none)

/-- A finite exact value rounded into an integer format of range lo to hi (R195, R203). A value beyond the range on its
side is delivered as the extreme and counted saturated. A negative value in an unsigned format is delivered as 0: counted saturated where
its magnitude is beyond the largest value, else flushed (R194, log 17). -/
def roundInt (lo hi : Int) (mode : Rnd) (rnd16 : Nat) (neg : Bool) (m : Nat) (e : Int) : Int × Cls :=
  if m = 0 then (0, .none)
  else
    let a : Int := roundTo mode neg rnd16 m e 0
    let x := if neg then -a else a
    let beyond := exceeds m e (if neg && lo != 0 then lo else hi).natAbs 0
    if beyond then (if neg then lo else hi, .sat)
    else if x ≤ 0 ∧ lo = 0 then (0, .flush)
    else if x = 0 then (0, .flush)
    else (x, .none)

/-- Conversion of a value to UE8M0 (R196, R203). -/
def toUE8M0 (v : Val) : Nat × Cls :=
  match v with
  | .nan => (0xFF, .nan)
  | .inf _ => (0xFE, .sat)
  | .fin _ m e =>
    if m = 0 then (0, .none)
    else
      let x := log2Of m e + 127
      if 0xFE < x then (0xFE, .sat) else if x < 0 then (0, .flush) else (x.toNat, .none)

/-- A value delivered in a format other than SBF16 (R194 to R198, R203): the pattern and its class. -/
def deliver (code : Nat) (mode : Rnd) (ieee : Bool) (rnd16 : Nat) (v : Val) : Nat × Cls :=
  match floatFmt code with
  | some f =>
    match v with
    | .nan => (if f.hasNan then nanBits f else 0, .nan)
    | .inf neg => if f.hasInf then (signBit f neg + infBits f, .none) else (signBit f neg + maxBits f, .sat)
    | .fin neg m e => roundFloat f mode ieee rnd16 neg m e
  | none =>
    match intRange code with
    | some (lo, hi) =>
      match v with
      | .nan => (0, .nan)
      | .inf neg => (wrap (fmtWidth code) (if neg then lo else hi), .sat)
      | .fin neg m e =>
        let (x, c) := roundInt lo hi mode rnd16 neg m e
        (wrap (fmtWidth code) x, c)
    | none => toUE8M0 v

/-- The value of an integer as a Val. -/
def Val.ofInt (i : Int) : Val := .fin (decide (i < 0)) i.natAbs 0

/-- The value of a pattern in a format other than SBF16 (R187, R188). -/
def value (code bits : Nat) : Val :=
  match floatFmt code with
  | some f => decodeFloat f bits
  | none =>
    match code with
    | 0x9 => if bits % 256 = 0xFF then .nan else .fin false 1 ((bits % 256 : Nat) - 127)
    | 0xD => .fin false (bits % 256) 0
    | _ => .ofInt (sgn (fmtWidth code) bits)

/-- A value times 2^k. -/
def Val.scale (v : Val) (k : Int) : Val :=
  match v with
  | .fin neg m e => .fin neg m (e + k)
  | x => x

/-- Sign inverted. -/
def Val.neg : Val → Val
  | .nan => .nan
  | .inf n => .inf (!n)
  | .fin n m e => .fin (!n) m e

/-- A finite value as an integer in units of 2^q, q at most its exponent. -/
def unitsOf (neg : Bool) (m : Nat) (e q : Int) : Int :=
  let a : Int := (m * 2 ^ (e - q).toNat : Nat)
  if neg then -a else a

/-- Exact sum. An exact zero from operands of opposite sign is -0 under the downward mode and +0 otherwise (R192). -/
def Val.add (down : Bool) (a b : Val) : Val :=
  match a, b with
  | .nan, _ => .nan
  | _, .nan => .nan
  | .inf x, .inf y => if x = y then .inf x else .nan
  | .inf x, _ => .inf x
  | _, .inf y => .inf y
  | .fin x m e, .fin y n f =>
    if m = 0 ∧ n = 0 then .fin (if x = y then x else down) 0 0
    else
      let q := if e ≤ f then e else f
      let t := unitsOf x m e q + unitsOf y n f q
      if t = 0 then .fin down 0 0 else .fin (decide (t < 0)) t.natAbs q

/-- Exact product (R192). -/
def Val.mul (a b : Val) : Val :=
  match a, b with
  | .nan, _ => .nan
  | _, .nan => .nan
  | .inf x, .inf y => .inf (x != y)
  | .inf x, .fin y n _ => if n = 0 then .nan else .inf (x != y)
  | .fin x m _, .inf y => if m = 0 then .nan else .inf (x != y)
  | .fin x m e, .fin y n f => .fin (x != y) (m * n) (e + f)

/-- a < b, for values of which neither is NaN; -0 and +0 are equal. -/
def Val.lt (a b : Val) : Bool :=
  match a, b with
  | .inf x, .inf y => x && !y
  | .inf x, _ => x
  | _, .inf y => !y
  | .fin x m e, .fin y n f =>
    let q := if e ≤ f then e else f
    decide (unitsOf x m e q < unitsOf y n f q)
  | _, _ => false

/-- Whether a value is NaN. -/
def Val.isNan (v : Val) : Bool := v == .nan

/-- Whether a value is negative, zeros and infinities by their sign. -/
def Val.sign : Val → Bool
  | .nan => false
  | .inf n => n
  | .fin n _ _ => n

/-- IEEE minimum: NaN if either is, -0 below +0 (R192). -/
def Val.min (a b : Val) : Val :=
  if a.isNan || b.isNan then .nan
  else if a.lt b then a
  else if b.lt a then b
  else if a.sign then a else b

/-- IEEE maximum (R192). -/
def Val.max (a b : Val) : Val :=
  if a.isNan || b.isNan then .nan
  else if a.lt b then b
  else if b.lt a then a
  else if a.sign then b else a

/-- Conditions of VCMP (R143): 0 EQ, 1 NE, 2 LT, 3 LE, 4 GT, 5 GE. Against NaN only NE holds (R192). -/
def Val.cmp (cond : Nat) (a b : Val) : Bool :=
  if a.isNan || b.isNan then cond == 1
  else
    match cond with
    | 0 => !(a.lt b) && !(b.lt a)
    | 1 => a.lt b || b.lt a
    | 2 => a.lt b
    | 3 => !(b.lt a)
    | 4 => b.lt a
    | _ => !(a.lt b)

/-- One step of a stochastic generator (R199). -/
def xorshift (g : BitVec 32) : BitVec 32 :=
  let g := g ^^^ (g <<< 13)
  let g := g ^^^ (g >>> 17)
  g ^^^ (g <<< 5)

/-- The 16 bits drawn from a generator after its step. -/
def drawOf (g : BitVec 32) : Nat := g.toNat >>> 16

-- element packing

/-- Element j of width w of a packed string (R189): elements of 4 and 6 bits lie in the bit string, wider ones by byte. -/
def elemAt (w n j : Nat) : Nat := bitsOf n (w * j) w

/-- Elements of width w packed from element 0 upward (R189). -/
def packElems (w : Nat) : List Nat → Nat
  | [] => 0
  | x :: t => x % 2 ^ w + 2 ^ w * packElems w t

-- SBF16

/-- The value of SBF16 mantissa m under exponent code x (R190). -/
def sbf16Value (m x : Nat) : Val :=
  let i := sgn 16 m
  .fin (decide (i < 0)) i.natAbs ((x : Int) - 142)

/-- A value delivered as an SBF16 mantissa under exponent code x (R190, R195, R196). -/
def toSBF16 (x : Nat) (mode : Rnd) (rnd16 : Nat) (v : Val) : Nat × Cls :=
  match v with
  | .nan => (0, .nan)
  | .inf neg => (wrap 16 (if neg then -32767 else 32767), .sat)
  | .fin neg m e =>
    let (i, c) := roundInt (-32767) 32767 mode rnd16 neg m (e - ((x : Int) - 142))
    (wrap 16 i, c)

-- quantisation

/-- emax of R204 by element format: FP8 E4M3, E5M2, FP6 E3M2, E2M3, FP4, MXINT8, SBF16. -/
def quantEmax (code : Nat) : Int :=
  match code with
  | 0x4 => 8
  | 0x5 => 15
  | 0x6 => 4
  | 0x7 => 2
  | 0x8 => 2
  | 0xC => 0
  | _ => -1

/-- The greater of two non-negative magnitudes. -/
def maxMag (a b : Nat × Int) : Nat × Int := if exceeds b.1 b.2 a.1 a.2 then b else a

/-- The scale code a block receives (R204, R206). -/
def blockScale (code : Nat) (vs : List Val) : Nat :=
  if vs.any Val.isNan then 0xFF
  else
    let m := vs.foldl (fun acc v => match v with | .fin _ m e => maxMag acc (m, e) | _ => acc) (0, 0)
    if m.1 = 0 then
      if vs.any (fun v => match v with | .inf _ => true | _ => false) then 0xFE else 0
    else
      let x := log2Of m.1 m.2 - quantEmax code + 127
      if x < 0 then 0 else if 0xFE < x then 0xFE else x.toNat

/-- A finite value rounded to a signed integer and clamped to ±lim without a count (R205). -/
def quantInt (lim : Int) (mode : Rnd) (rnd16 : Nat) (neg : Bool) (m : Nat) (e : Int) : Int × Cls :=
  if m = 0 then (0, .none)
  else
    let a : Int := roundTo mode neg rnd16 m e 0
    let a := if lim < a then lim else a
    if a = 0 then (0, .flush) else (if neg then -a else a, .none)

/-- One element of a scaled block (R205, R206): the scale code is the block's. -/
def quantElem (code scale : Nat) (mode : Rnd) (rnd16 : Nat) (v : Val) : Nat × Cls :=
  let k : Int := if code = 0xF then (scale : Int) - 142 else if code = 0xC then (scale : Int) - 127 - 6 else (scale : Int) - 127
  let lim : Int := if code = 0xF then 32767 else 127
  let w := fmtWidth code
  if scale = 0xFF then (0, if v.isNan then .nan else .none)
  else
    match floatFmt code with
    | some f =>
      match v with
      | .nan => (0, .nan)
      | .inf neg => if f.hasInf then (signBit f neg + infBits f, .none) else (signBit f neg + maxBits f, .sat)
      | .fin neg m e =>
        let (b, c) := roundFloat f mode false rnd16 neg m (e - k)
        (b, if c = .sat then .none else c)
    | none =>
      match v with
      | .nan => (0, .nan)
      | .inf neg => (wrap w (if neg then -lim else lim), .sat)
      | .fin neg m e =>
        let (i, c) := quantInt lim mode rnd16 neg m (e - k)
        (wrap w i, c)

end Sys2Proof.Machine
end

