-- ==== Sys2Proof/Machine/Flags.lean ====
section
/-! DEFINITION. A thread's numeric state: its counters, its rounding and overflow modes and its stochastic generators
(R194 to R199, R208). The block has no condition flags; these counters take their place (R192). -/

namespace Sys2Proof.Machine

/-- num.ctl.RND (R210). -/
def Thread.rnd (x : Thread) : Nat := bitsOf x.numCtl.toNat 0 3

/-- num.ctl.OVF: true is the IEEE mode (R195). -/
def Thread.ieee (x : Thread) : Bool := bitOf x.numCtl.toNat 3

/-- The mode in force: the prefix's rounding field, or the thread's when that is 0 (R197). -/
def Thread.mode (x : Thread) (code : Nat) : Rnd := Rnd.ofCode (if code = 0 then x.rnd else code)

/-- Counts added, each counter saturating (R208). -/
def Thread.addCounts (x : Thread) (c : Counts) : Thread :=
  { x with
    numSat := BitVec.ofNat 32 (satAdd 32 x.numSat.toNat c.sat)
    numFlush := BitVec.ofNat 32 (satAdd 32 x.numFlush.toNat c.flush)
    numNan := BitVec.ofNat 32 (satAdd 32 x.numNan.toNat c.nan) }

/-- The state of generator i modulo 64. -/
def Thread.gen (x : Thread) (i : Nat) : Word := x.seeds[Fin.ofNat 64 i]

/-- A generator's state replaced; 0 is stored as 1 (R199). -/
def Thread.setGen (x : Thread) (i : Nat) (g : Word) : Thread :=
  { x with seeds := x.seeds.set (Fin.ofNat 64 i) (if g = 0 then 1 else g) }

/-- The 16 bits generator i draws at its next step. -/
def Thread.draw (x : Thread) (i : Nat) : Nat := drawOf (xorshift (x.gen i))

/-- Generators stepped, in order. -/
def Thread.stepGens (x : Thread) (l : List Nat) : Thread :=
  l.foldl (fun x i => x.setGen i (xorshift (x.gen i))) x

/-- The generators as a list of pairs after stepping those listed: what a bundle writes back. -/
def Thread.gensAfter (x : Thread) (l : List Nat) : List (Nat × Word) :=
  let y := x.stepGens l
  l.map (fun i => (i % 64, y.gen i))

end Sys2Proof.Machine
end

