-- ==== Sys2Proof/Machine/Cache.lean ====
section
/-! DEFINITION. Commands in flight, the data cache and the accesses of a core to its scratchpad
(spec/09_scratchpad_and_cache.md, spec/11_memory_model.md). -/

namespace Sys2Proof.Machine

-- commands and writes in flight

/-- A new command number (R275). -/
def State.newCmd (s : State) : Nat × State := (s.nextCmd, { s with nextCmd := s.nextCmd + 1 })

/-- Whether a channel holds a command that is running or queued. -/
def Chan.holds (c : Chan) (id : Nat) : Bool :=
  c.queue.any (fun x => x.cmd == id) || (match c.run with | some x => x.cmd == id | none => false)

/-- Whether a load of a thread is an unfinished command of that number. -/
def Thread.loading (x : Thread) (id : Nat) : Bool := x.loads.any (fun l => l.cmd == id)

/-- Whether a core holds an unfinished command: a DMA command, a memory-side operation or an atomic. -/
def Core.holds (c : Core) (id : Nat) : Bool :=
  c.chans[0].holds id || c.chans[1].holds id || c.memOps.any (fun o => o.cmd == id) ||
  threads.any (fun t => c.th[t].loading id)

/-- Whether a command is unfinished: a write of it has not landed, or it still runs (R275, R279). -/
def State.cmdOpen (s : State) (id : Nat) : Bool :=
  s.inflight.any (fun w => w.cmd == id) || s.cores.any (fun (_, c) => c.holds id) ||
  s.bdma.any (fun (_, c) => c.holds id)

/-- A write sent on its way (R274, R275). -/
def State.send (s : State) (w : PWrite) : State := { s with inflight := s.inflight ++ [w] }

/-- A thread's observed set grows (R282). -/
def Thread.observe (x : Thread) (l : List Nat) : Thread := { x with obs := setUnion x.obs l }

/-- A one-write command of a thread sent on its way, entering its observed set (R275, R282); `back` marks a line's write-back. -/
def State.threadWrite (s : State) (site : Nat) (t : Fin 4) (loc : Nat) (data : List Byte) (psn back : Bool) : State :=
  let (id, s) := s.newCmd
  let s := s.send ⟨id, .thread site t, (s.thr site t).ctx, loc, data, psn, false, [], none, false, some (site, t.val), 0, back,
    s.actOf site, false⟩
  s.modThr site t (fun x => x.observe [id])

/-- Writes in flight of commands that a thread issued, its DMA commands' among them. -/
def State.ownWrites (s : State) (site : Nat) (t : Fin 4) : List PWrite :=
  s.inflight.filter (fun w => w.iss == some (site, t.val))

/-- Whether a DMA command touches bytes of the global address space: reading them, or writing them (R277); `at_` is where an address of its
descriptor lies. -/
def Desc.touches (x : Desc) (at_ : Nat → Nat) (g n : Nat) (write : Bool) : Bool :=
  let rd := if x.gather then overlaps (at_ x.idx) (4 * x.len) g n else overlaps (at_ x.src) x.srcLen g n
  let wr := overlaps (at_ x.dst) x.dstLen g n || (x.crec && overlaps (at_ x.cpl) 16 g n)
  wr || (write && rd)

/-- Whether a gather's reads are still owed: its source range is unknown, so a thread's later global writes wait (R277). -/
def DmaCmd.gathering (c : DmaCmd) : Bool := (descOf c.desc).gather && decide (c.done < (descOf c.desc).total)

/-- DMA commands of a core issued by a thread and unfinished. -/
def Core.dmaOf (c : Core) (t : Fin 4) : List DmaCmd :=
  ((c.chans[0].run.toList ++ c.chans[0].queue) ++ (c.chans[1].run.toList ++ c.chans[1].queue)).filter
    (fun x => x.th == t.val)

/-- Bytes a load brings (R146). -/
def LdKind.size : LdKind → Nat
  | .h => 2
  | .hu => 2
  | .b => 1
  | .bu => 1
  | .vec => 64
  | .scale _ n => n
  | _ => 4

/-- Whether a load is an atomic operation. -/
def LdKind.atomic : LdKind → Bool
  | .aadd => true
  | .acas => true
  | .aswp => true
  | _ => false

/-- Whether a load still reads, or an atomic still writes, bytes that a later access touches (R277). -/
def Load.blocks (l : Load) (loc n : Nat) (write : Bool) : Bool :=
  l.resp.isNone && (write || l.kind.atomic) && overlaps l.loc l.kind.size loc n

/-- How an access is made: whether it writes, whether its bytes are the core's own scratchpad's, and whether its address is a global
one, not of bank 0. -/
structure Reach where
  write : Bool
  own : Bool
  glob : Bool
  deriving DecidableEq, Repr

/-- An access through an effective address: bank 0 is the core's own scratchpad, every other bank a window of the global space (R100). -/
def reachOf (write own : Bool) (ea : Nat) : Reach := ⟨write, own, ea / 2 ^ 29 % 8 != 0⟩

/-- Whether a thread's access must wait for an unfinished command of its own (R277): loc is the global address. -/
def State.hazard (s : State) (site : Nat) (t : Fin 4) (loc n : Nat) (a : Reach) : Bool :=
  let c := s.core site
  (s.ownWrites site t).any (fun w => overlaps w.loc w.data.length loc n) ||
  c.th[t].loads.any (fun l => l.blocks loc n a.write) ||
  (c.dmaOf t).any (fun x => (descOf x.desc).touches s.spaceOf loc n a.write || (a.write && a.glob && x.gathering)) ||
  (a.own && c.memOps.any (fun o => o.th == t.val &&
    (overlaps (padBase site + o.dst) o.len loc n ||
     (a.write && !o.fill && overlaps (padBase site + o.src) o.len loc n))))

/-- Unfinished commands of a thread: at most 16 are tracked (R277). -/
def State.openCount (s : State) (site : Nat) (t : Fin 4) : Nat :=
  let dma := ((s.core site).dmaOf t).map DmaCmd.cmd
  (setUnion dma ((s.ownWrites site t).map PWrite.cmd)).length + (s.thr site t).loads.length +
  ((s.core site).memOps.filter (fun o => o.th == t.val)).length

/-- Whether every command the thread has issued is complete: what the drain waits for (R284). -/
def State.drained (s : State) (site : Nat) (t : Fin 4) : Bool :=
  (s.ownWrites site t).isEmpty && ((s.core site).dmaOf t).isEmpty &&
  (s.thr site t).loads.all (fun l => l.cmd == 0) && (s.core site).memOps.all (fun o => o.th != t.val)

-- the data cache

/-- A line's bytes. -/
def Line.bytes (l : Line) : List Byte := leBytes 64 l.data.toNat

/-- A line with bytes replaced from offset o (R243, R248): a store that covers the line clears its poison. -/
def Line.merge (l : Line) (o : Nat) (b : List Byte) : Line :=
  { l with
    data := BitVec.ofNat 512 (setBits l.data.toNat (8 * o) (8 * b.length) (leNat b))
    dirty := true
    poison := if b.length = 64 then false else l.poison
    seen := clearAt l.seen o b.length }

/-- Lines of a core with one replaced. -/
def Core.setLine (c : Core) (l : Line) : Core :=
  { c with lines := c.lines.map (fun m => if m.addr = l.addr then l else m) }

/-- A line dropped. -/
def Core.dropLine (c : Core) (g : Nat) : Core := { c with lines := c.lines.filter (fun l => l.addr != g / 64 * 64) }

/-- A dirty line written back by a thread: one command of 64 bytes (R275); the line stays, clean. -/
def State.cleanLine (s : State) (site : Nat) (t : Fin 4) (l : Line) : State :=
  if l.dirty then
    let s := s.threadWrite site t l.addr l.bytes l.poison true
    s.modCore site (fun c => c.setLine { l with dirty := false })
  else s

/-- Every dirty line written back (R246, R247). -/
def State.cleanAll (s : State) (site : Nat) (t : Fin 4) : State :=
  (s.core site).lines.foldl (fun s l => s.cleanLine site t l) s

/-- A fill over the fabric overtaken by an invalidation of its core's cache (R281). -/
def FabOut.overtaken (f : FabOut) (site : Nat) : FabOut :=
  match f.owner with
  | .fill st a => if st = site then { f with owner := .stale st a } else f
  | _ => f

/-- The tag of a core's fill of a line over the fabric. -/
def State.fillTag (s : State) (site a : Nat) : Option Nat := (s.fabOut.find? (fun f => f.owner == .fill site a)).map FabOut.tag

/-- Every line invalid (R246, R247). A fill in flight is not installed when it comes: it was read before (R281). The loads that wait for one
over the fabric take what that request brings. -/
def State.dropAll (s : State) (site : Nat) : State :=
  let tagOf (l : Load) : Option Nat := if l.cached && l.resp.isNone && l.tag.isNone then s.fillTag site (l.loc / 64 * 64) else l.tag
  let s := { s with fabOut := s.fabOut.map (fun (f : FabOut) => f.overtaken site) }
  s.modCore site (fun c =>
    { c with
      lines := []
      demand := none
      ahead := none
      th := c.th.map (fun (x : Thread) => { x with loads := x.loads.map (fun (l : Load) => { l with tag := tagOf l }) }) })

/-- Whether a line is on its way into a core's cache (R244, R245). -/
def Core.filling (c : Core) (g : Nat) : Bool := c.demand == some (g / 64 * 64) || c.ahead == some (g / 64 * 64)

/-- A core with no fill of a line in flight. -/
def Core.filled (c : Core) (g : Nat) : Core :=
  { c with
    demand := if c.demand = some (g / 64 * 64) then none else c.demand
    ahead := if c.ahead = some (g / 64 * 64) then none else c.ahead }

/-- The way an allocation in a set takes: the lowest invalid one, else the one at the set's pointer (R243). -/
def Core.pickWay (c : Core) (set : Nat) : Nat × Bool :=
  let used := (c.lines.filter (fun l => cacheSet l.addr == set)).map Line.way
  match (List.range 8).find? (fun w => !used.contains w) with
  | some w => (w, false)
  | none => (get 0 c.ptrs set, true)

/-- A line allocated, its victim written back if dirty (R243). -/
def State.allocLine (s : State) (site : Nat) (t : Fin 4) (g : Nat) (data : Vec) (psn : Bool) (seen : SMap (List Nat)) : State :=
  let a := g / 64 * 64
  let c := s.core site
  if (c.line g).isSome then s
  else
    let set := cacheSet a
    let (w, full) := c.pickWay set
    let s :=
      if full then
        match c.lines.find? (fun l => cacheSet l.addr == set && l.way == w) with
        | some l =>
          let s := s.cleanLine site t l
          s.modCore site (fun c => { c.dropLine l.addr with ptrs := put 0 c.ptrs set ((w + 1) % 8) })
        | none => s
      else s
    s.modCore site (fun c => { c with lines := c.lines ++ [⟨a, w, false, psn, data, seen⟩] })

/-- Whether a write of the core's threads to a line is still on its way: the line is not fetched meanwhile (R277, R278). -/
def State.lineBusy (s : State) (site g : Nat) : Bool :=
  s.inflight.any (fun w =>
    (match w.req with | .thread st _ => st == site | _ => false) && overlaps w.loc w.data.length (g / 64 * 64) 64)

/-- Whether a write-back of a core's line is still on its way to bytes (R278): the core's threads see a line's stores whether or not it
is still held. -/
def State.backBusy (s : State) (site g n : Nat) : Bool :=
  s.inflight.any (fun w =>
    w.back && (match w.req with | .thread st _ => st == site | _ => false) && overlaps w.loc w.data.length g n)

/-- A line of this module's HBM fetched into the cache (R243, R248). -/
def State.fillLine (s : State) (site : Nat) (t : Fin 4) (g : Nat) : State :=
  let a := localOf g / 64 * 64
  let s := (s.chargeBy site g 64 false).modCore site (fun c => c.filled a)
  let seen := (s.landObs.filter (fun p => decide (a ≤ p.1) && decide (p.1 < a + 64))).map (fun (k, l) => (k - a, l))
  s.allocLine site t g (BitVec.ofNat 512 (s.le a 64)) (s.poisoned a 64) seen

/-- The register image that a local address lies in, if any (R109): writes of the thread's own to it come before its reads of it (R110). -/
def State.imageOf (s : State) (g : Nat) : Option Nat :=
  match s.home g with
  | .bcast off => some (off / 0x10000)
  | _ => none

/-- Whether a thread's read of bytes outside the cache may not be made yet: a write of its own to the bytes or to the image is on its way, or a
write-back of the core's line (R110, R277, R278). -/
def State.readHeld (s : State) (site : Nat) (t : Fin 4) (g n : Nat) (cached : Bool) : Bool :=
  (s.ownWrites site t).any (fun w => overlaps w.loc w.data.length g n ||
    ((s.imageOf g).isSome && s.imageOf (localOf w.loc) == s.imageOf g)) ||
  (!cached && s.backBusy site g n)

/-- Whether, of a thread's first k loads, one from a granule of the bytes waits still: later reads of the granule come after it (R274). -/
def Thread.readsAhead (x : Thread) (k g n : Nat) : Bool :=
  (x.loads.take k).any (fun m => m.resp.isNone && (granules m.loc m.kind.size).any (fun h => (granules g n).contains h))

/-- Whether a load that reads a line at its home, or an atomic, waits ahead of a thread's loads that want the line (R274, R277). -/
def Thread.readsHome (x : Thread) (a : Nat) : Bool :=
  match x.loads.find? (fun m => m.resp.isNone && overlaps m.loc m.kind.size (a / 64 * 64) 64) with
  | some m => !m.cached
  | none => false

/-- Whether a line may not be fetched yet: a write of the core's threads to it is on its way, or a load that reads it at its home comes first
(R274, R277, R278). -/
def State.lineHeld (s : State) (site a : Nat) : Bool :=
  s.lineBusy site a || threads.any (fun t => (s.thr site t).readsHome a)

/-- The observed sets that a line holds for bytes of it (R282). -/
def Line.seenAt (l : Line) (g n : Nat) : List Nat := setsAt l.seen (g % 64) n

/-- dc.miss counts (R244). -/
def State.countMiss (s : State) (site : Nat) : State :=
  s.setCfld site DC_MISS_COUNT (satAdd 32 (s.cfld site DC_MISS_COUNT) 1)

/-- A store into a line the cache holds; a whole line is allocated without a fetch (R243). -/
def State.cacheStore (s : State) (site : Nat) (t : Fin 4) (g : Nat) (b : List Byte) : State :=
  let s := if b.length = 64 && ((s.core site).line g).isNone then s.allocLine site t g 0 false [] else s
  match (s.core site).line g with
  | some l => s.modCore site (fun c => c.setLine (l.merge (g % 64) b))
  | none => s

/-- A line poisoned (R248). -/
def Core.spoilLine (c : Core) (g : Nat) : Core :=
  { c with lines := c.lines.map (fun l => if l.addr = g / 64 * 64 then { l with poison := true } else l) }

/-- DC (R245): 0 clean, 1 invalidate, 2 clean and invalidate. A dirty line is discarded by an invalidate only where the
thread's region table grants W over it. -/
def State.dcOp (s : State) (site : Nat) (t : Fin 4) (op g : Nat) : State :=
  match (s.core site).line g with
  | none => s
  | some l =>
    let discard := op == 1 && s.lineAllowed (s.thr site t).ctx l.addr needW
    let s := if discard then s else s.cleanLine site t l
    if op = 0 then s else s.modCore site (fun c => c.dropLine g)

-- scratchpad accesses

/-- Whether a site's scratchpad refuses an access that arrives over the mesh (R99, R229, R369). -/
def State.padRefuses (s : State) (site off n : Nat) (write : Bool) : Bool :=
  !s.bankOk site off n .d || (s.core site).hitsSpill off n || (write && s.slotRo site off n)

/-- A write to a core's own scratchpad: it lands as it retires (R275, R278). -/
def State.padWrite (s : State) (site off : Nat) (b : List Byte) (psn : Bool) : State :=
  s.writeMem (padBase site + off) b psn

/-- Bytes of a scratchpad. -/
def State.padBytes (s : State) (site off n : Nat) : List Byte := s.bytes (padBase site + off) n

/-- Slots ended and not yet read by the stream director: a store to their bytes waits (R151). A slot's bytes run from its
offset for len bytes. -/
def State.slotHeld (s : State) (site off n : Nat) : Bool :=
  (s.core site).batches.any (fun b => b.slots.any (fun r => r.ended && !r.struck && overlaps r.off r.len off n))

end Sys2Proof.Machine
end

