-- ==== Sys2Proof/Machine/Fab.lean ====
section
/-! DEFINITION. Requests of this module that leave over the Alacia fabric (R351 to R354, R359). -/

namespace Sys2Proof.Machine

/-- Slot bytes of a request (R354). -/
def reqSlotBytes (k : FabKind) (n : Nat) : Nat :=
  match k with
  | .read => 16
  | .write => 16 * (1 + cdiv n 16)
  | .landing => 16 * (1 + cdiv n 16)
  | .atomicAdd => 32
  | .cue => 16

/-- Slot bytes of a response that carries data or not (R354). -/
def respSlotBytes (k : FabKind) (n : Nat) (data : Bool) : Nat :=
  match k with
  | .read => if data then 16 * (1 + cdiv n 16) else 16
  | .atomicAdd => 32
  | _ => 16

/-- What becomes of a request offered to the fabric: sent under a tag, or ended at once with a status: 1 unmapped, 4 a
timeout (R351, R353). -/
inductive FabRes where
  | sent (tag : Nat)
  | ended (status : Nat)
  deriving DecidableEq, Repr

/-- A timeout of a remote request through a port (R359): the event, the count and the address. -/
def State.fabTimedOut (s : State) (d g : Nat) : State :=
  ((s.event d ALF_EVENT_TIMEOUT).count 3 d 6 32 1).setRg64 (dkey d ALF_ERR_ADDR_LO_ADDR.off) g

/-- Flits sent through a port to carry n slots (R348, R349): each with the next sequence number, the acknowledgement, and the slot credits to be
returned, kept in the replay buffer of 256. How transactions share flits is the model's choice: none does (DESIGN CHOICE, log 12). -/
def State.sendFlits (s : State) (d : Nat) : Nat → State
  | 0 => s
  | n + 1 =>
    let l := s.link d
    let s := s.setLink d { l with
      txSeq := (l.txSeq + 1) % 2 ^ 32
      replay := (l.replay ++ [(l.txSeq, 0)]).drop (l.replay.length + 1 - 256)
      ackAt := if l.replay.isEmpty then s.now else l.ackAt
      owedReq := 0
      owedResp := 0 }
    (s.emit (.flit d l.txSeq ((l.rxSeq + 2 ^ 31 - 1) % 2 ^ 31) l.owedReq l.owedResp)).sendFlits d n

/-- n slot bytes leave a port: counted, and carried in flits (R348, R354, R362). -/
def State.sendSlots (s : State) (d n : Nat) : State := (s.count 3 d 3 32 n).sendFlits d (cdiv (n / 16) 18)

/-- Requests that wait at a port sent in their order, as far as it holds slot credits of their class (R350); at most n of them. -/
def State.pumpReq (s : State) (d : Nat) : Nat → State
  | 0 => s
  | n + 1 =>
    let l := s.link d
    match l.reqQ with
    | [] => s
    | (node, q) :: rest =>
      let b := reqSlotBytes q.kind q.len
      if b / 16 ≤ l.reqCredit then
        let s := s.setLink d { l with
          reqQ := rest
          reqCredit := l.reqCredit - b / 16 }
        ((s.emit (.fabric d node q)).sendSlots d b).pumpReq d n
      else s

/-- Responses that wait at a port sent in their order, as far as it holds slot credits of their class (R350); at most n of them. -/
def State.pumpResp (s : State) (d : Nat) : Nat → State
  | 0 => s
  | n + 1 =>
    let l := s.link d
    match l.respQ with
    | [] => s
    | (b, x) :: rest =>
      if b / 16 ≤ l.respCredit then
        let s := s.setLink d { l with
          respQ := rest
          respCredit := l.respCredit - b / 16 }
        let s := { s with fabAns := s.fabAns ++ [x] }
        (s.sendSlots d b).pumpResp d n
      else s

/-- Whatever the credits of a port let go sent: responses are never held behind requests (R350). -/
def State.pump (s : State) (d : Nat) : State :=
  let s := s.pumpResp d (s.link d).respQ.length
  s.pumpReq d (s.link d).reqQ.length

/-- A transaction offered to the fabric for the node of a global address (R351, R353 to R355): the plane of its address, its tag,
its slot bytes metered for the act; it waits at the port for slot credits (R350). -/
def State.fabSendMsg (s : State) (owner : FabOwner) (act : Option Nat) (g : Nat) (q : FabReq) : State × FabRes :=
  match planeOf (localOf g) with
  | none => (s, .ended 1)
  | some d =>
    if !s.flag d ALF_STATUS_UP then (s.fabTimedOut d g, .ended 4)
    else
      let n := reqSlotBytes q.kind q.len
      let s := match act with
        | some a => s.meter a 3 d n
        | none => s
      let tag := s.nextTag
      let l := s.link d
      let s := s.setLink d { l with reqQ := l.reqQ ++ [(nodeOf g, q)] }
      ({ s with
          nextTag := tag + 1
          fabOut := s.fabOut ++ [(⟨tag, owner, q.kind, g, q.len, d, act, s.now⟩ : FabOut)] }.pump d, .sent tag)

/-- A transaction of this node without data, poison or a cue. -/
def State.fabReq (s : State) (kind : FabKind) (ctx g len : Nat) : FabReq :=
  ⟨kind, s.ownNode, ctx, localOf g, len, [], 0, 0, 0, 0⟩

/-- A read offered to the fabric for a context. -/
def State.fabRead (s : State) (owner : FabOwner) (act : Option Nat) (ctx g len : Nat) : State × FabRes :=
  s.fabSendMsg owner act g (s.fabReq .read ctx g len)

/-- The die of the requester that an answer's data goes to; none where it carries none. -/
def FabOut.dest (f : FabOut) : Option Nat :=
  match f.owner with
  | .load site _ => some (dieOf site)
  | .fill site _ => some (dieOf site)
  | .stale site _ => some (dieOf site)
  | .dmaRead (.core site _) => some (dieOf site)
  | .dmaRead (.bulk d _) => some d
  | .write => none
  | .signal => none

/-- Whether a request under a tag is still unanswered. -/
def State.fabOpen (s : State) (tag : Nat) : Bool := s.fabOut.any (fun f => f.tag == tag)

end Sys2Proof.Machine
end

