-- ==== Sys2Proof/Machine/StReg.lean ====
section
/-! DEFINITION. Circular regions and the state registers of MFS and MTS: their numbers, reads and writes (R153, R186,
R210, R237, R238, R246, R249, R297, R308, R330, R345). -/

namespace Sys2Proof.Machine

-- cue handles

/-- The map slot bound to a context: the lowest-numbered valid one (R287). -/
def State.cueSlot (s : State) (site ctx : Nat) : Option Nat :=
  (List.range 4).find? (fun k => s.cflag site (CFG_CUE_BIND_V k) && s.cfld site (CFG_CUE_BIND_CTX k) == ctx)

/-- A handle translated through a context's map: its counter and REM; none where no valid entry stands (R287, R288). -/
def State.cueMap (s : State) (site ctx handle : Nat) : Option (Nat × Bool) :=
  match s.cueSlot site ctx with
  | none => none
  | some k =>
    let h := 64 * k + handle % 64
    if s.cflag site (CFG_CUE_MAP_V h) then
      some (s.cfld site (CFG_CUE_MAP_CNT h), s.cflag site (CFG_CUE_MAP_REM h))
    else none

-- circular regions

/-- SIZE of a region in 64-byte units. -/
def State.crSize (s : State) (site k : Nat) : Nat := s.cfld site (CR_CFG_SIZEM1 k) + 1

/-- The region's pointers emptied (R237). -/
def State.crEmpty (s : State) (site k : Nat) : State :=
  let s := s.setCfld site (CR_PTR_HEAD k) 0
  let s := s.setCfld site (CR_PTR_TAIL k) 0
  let s := s.setCfld site (CR_FILL_FILL k) 0
  s.setCfld site (CR_FILL_WRAP k) (s.crSize site k)

/-- Pointers of a region. -/
structure Ring where
  head : Nat
  tail : Nat
  fill : Nat
  wrap : Nat
  fail : Bool
  deriving DecidableEq, Repr

/-- A region's pointers as they stand. -/
def State.ring (s : State) (site k : Nat) : Ring :=
  ⟨s.cfld site (CR_PTR_HEAD k), s.cfld site (CR_PTR_TAIL k), s.cfld site (CR_FILL_FILL k),
   s.cfld site (CR_FILL_WRAP k), s.cflag site (CR_FILL_FAIL k)⟩

/-- A region's pointers written back. -/
def State.setRing (s : State) (site k : Nat) (r : Ring) : State :=
  let s := s.setCfld site (CR_PTR_HEAD k) r.head
  let s := s.setCfld site (CR_PTR_TAIL k) r.tail
  let s := s.setCfld site (CR_FILL_FILL k) r.fill
  let s := s.setCfld site (CR_FILL_WRAP k) r.wrap
  s.setCfld site (CR_FILL_FAIL k) (b2n r.fail)

/-- A claim of n contiguous units (R238): the pointers after it, and its first unit when it succeeds. A claim of 0 or of
more than 8,192 units fails. -/
def Ring.claim (r : Ring) (size n : Nat) : Ring × Option Nat :=
  let take (r : Ring) (start : Nat) : Ring × Option Nat :=
    ({ r with tail := if start + n = size then 0 else start + n, fill := r.fill + n, fail := false }, some start)
  if n = 0 ∨ 8192 < n then ({ r with fail := true }, none)
  else if (r.head < r.tail ∨ r.fill = 0) ∧ n ≤ size - r.tail then take r r.tail
  else if r.head < r.tail ∧ n ≤ r.head then
    take { r with wrap := r.tail, fill := r.fill + (size - r.tail) } 0
  else if r.tail ≤ r.head ∧ r.fill ≠ 0 ∧ n ≤ r.head - r.tail then take r r.tail
  else ({ r with fail := true }, none)

/-- A release of n units (R238). -/
def Ring.release (r : Ring) (size n : Nat) : Ring :=
  let skip := size - r.wrap
  if n = 0 ∨ 8192 < n ∨ r.fill - skip < n then { r with fail := true }
  else
    let r := { r with head := r.head + n, fill := r.fill - n, fail := false }
    let r := if r.wrap ≤ r.head then { r with head := r.head - r.wrap, fill := r.fill - skip, wrap := size } else r
    if r.fill = 0 then { r with head := 0, tail := 0 } else r

/-- A claim made on a core's region; the first unit when it succeeds. -/
def State.crClaim (s : State) (site k n : Nat) : State × Option Nat :=
  let (r, u) := (s.ring site k).claim (s.crSize site k) n
  (s.setRing site k r, u)

/-- A release made on a core's region. -/
def State.crRelease (s : State) (site k n : Nat) : State :=
  s.setRing site k ((s.ring site k).release (s.crSize site k) n)

/-- A write to crK.cfg (R237): the configuration changes only while EN is 0; a write that enables empties the region. A region past
unit 8,192, OWNER 3 or a change while EN is 1 leaves the register and sets CTRL_ERR. -/
def State.crCfgWrite (s : State) (site k v : Nat) : State :=
  let key := ckey site (CR_CFG_EN k).off
  let old := s.rg key
  let new := v - bitsOf v 13 3 <<< 13
  if bitsOf v 29 2 = 3 ∨ 8192 < bitsOf v 0 13 + bitsOf v 16 13 + 1 then s.ctrlErr site
  else if bitOf old 31 then
    if bitOf v 31 then (if new = old then s else s.ctrlErr site)
    else if bitsOf new 0 31 = bitsOf old 0 31 then s.setRg key new
    else s.ctrlErr site
  else
    let s := s.setRg key new
    if bitOf v 31 then s.crEmpty site k else s

/-- A claim or release through crK.op (R237, R238), for a region of OWNER 0. -/
def State.crOp (s : State) (site k v : Nat) : State :=
  if bitOf v 31 then s.crRelease site k (bitsOf v 0 14) else (s.crClaim site k (bitsOf v 0 14)).1

-- queues' configuration

/-- A queue emptied: no message in its ring, none held, no partial round, the count of its contributions with it (R297, R305, R307). A message
whose release has freed its units already, while the receive beside it sleeps, stands until that bundle ends (R304; log 44). -/
def State.qClear (s : State) (site q : Nat) : State :=
  let s := s.crEmpty site (s.cfld site (QQ_CFG_REGION q))
  let comb := s.cflag site (QQ_CFG_COMB q)
  let s := if comb then s.setCfld site CQ_STAT_ARRIVED 0 else s
  s.modCore site (fun c =>
    { c with
      qWriting := c.qWriting.set (Fin.ofNat 8 q) []
      qReady := c.qReady.set (Fin.ofNat 8 q) []
      qHeld := c.qHeld.set (Fin.ofNat 8 q) ((c.qHeld[Fin.ofNat 8 q]).filter (fun m => m.units == 0))
      comb := if comb then [] else c.comb
      combObs := if comb then [] else c.combObs
      combSum := if comb then none else c.combSum })

/-- Messages discarded, counted (R300, R305, R307). -/
def State.qDiscard (s : State) (site q n : Nat) : State :=
  s.setCfld site (QQ_CNT_DISC q) (satAdd 16 (s.cfld site (QQ_CNT_DISC q)) n)

/-- A partial round discarded: its contributions are counted in DISC and the accumulators cleared (R307). -/
def State.dropRound (s : State) (site q : Nat) : State :=
  if s.cflag site (QQ_CFG_COMB q) then
    let s := s.qDiscard site q (s.cfld site CQ_STAT_ARRIVED)
    let s := s.setCfld site CQ_STAT_ARRIVED 0
    s.modCore site (fun c => { c with comb := [], combObs := [] })
  else s

/-- What a queue holds, discarded and counted (R305, R307): the messages in its ring, a held one, a sum not yet claimed and a partial round. -/
def State.qDropAll (s : State) (site q : Nat) : State :=
  let c := s.core site
  let n := (c.qWriting[Fin.ofNat 8 q]).length + (c.qReady[Fin.ofNat 8 q]).length +
    (if (c.qHeld[Fin.ofNat 8 q]).any (fun m => m.units != 0) then 1 else 0) +
    (if s.cflag site (QQ_CFG_COMB q) && c.combSum.isSome then 1 else 0)
  ((s.qDiscard site q n).dropRound site q).qClear site q

/-- A queue's fields may not change while it is enabled; a write that enables it is checked (R297, R306), and what it held is discarded and
counted, as qq.cnt.DISC counts (R308; DEDUCED, log 44). -/
def State.qqCfgWrite (s : State) (site q v : Nat) : State :=
  let key := ckey site (QQ_CFG_EN q).off
  let old := s.rg key
  let comb := bitOf v 29
  let region := bitsOf v 17 3
  let others := (List.range 8).filter (· != q)
  let combTaken := comb && others.any (fun p => s.cflag site (QQ_CFG_COMB p))
  let fields := setBits (setBits v 30 1 (bitsOf old 30 1)) 0 17 0
  if bitOf old 31 then
    if bitOf v 31 then s else s.setRg key (setBits old 31 1 0)
  else
    let fields := if combTaken then setBits fields 29 1 (bitsOf old 29 1) else fields
    let s := if combTaken then s.ctrlErr site else s
    if bitOf v 31 then
      let size := s.crSize site region
      let bad := !(s.cflag site (CR_CFG_EN region)) || s.cfld site (CR_CFG_OWNER region) != 1 ||
        decide (size < 4) || decide (1024 < size) ||
        others.any (fun p => s.cflag site (QQ_CFG_EN p) && s.cfld site (QQ_CFG_REGION p) == region)
      if bad then s.ctrlErr site
      else ((s.qDropAll site q).setRg key (setBits fields 30 1 0)).qClear site q
    else s.setRg key fields

/-- A write to cq.cfg (R306, R308): TYPE 3 makes it ignored, N 0 leaves N, LEN outside 1 to 32 leaves LEN (DEDUCED, log 19), and TYPE
changes only while the combining queue is not enabled. -/
def State.cqCfgWrite (s : State) (site v : Nat) : State :=
  let key := ckey site CQ_CFG_TYPE.off
  let old := s.rg key
  let on := (List.range 8).any (fun q => s.cflag site (QQ_CFG_EN q) && s.cflag site (QQ_CFG_COMB q))
  if bitsOf v 30 2 == 3 then s
  else
    let n := if bitsOf v 0 16 = 0 then bitsOf old 0 16 else bitsOf v 0 16
    let l := bitsOf v 22 6
    let l := if l = 0 ∨ 32 < l then bitsOf old 22 6 else l
    let ty := if on then bitsOf old 30 2 else bitsOf v 30 2
    s.setRg key (ty <<< 30 + bitsOf v 29 1 <<< 29 + l <<< 22 + n)

-- the data cache's control

/-- A write to dc.ctl (R246): INV, CLEAN and the enable rule. `t` is the thread the write-backs belong to. -/
def State.dcCtlWrite (s : State) (site : Nat) (t : Fin 4) (v : Nat) : State :=
  let en := s.cflag site DC_CTL_EN
  let s := if bitOf v 2 then s.dropAll site else s
  let s := if bitOf v 2 && !en then s.setCfld site DC_CTL_INVD 1 else s
  let s := if bitOf v 1 then s.cleanAll site t else s
  if bitOf v 0 && !en then
    (if s.cflag site DC_CTL_INVD then s.setCfld site DC_CTL_EN 1 else s)
  else if !bitOf v 0 && en then ((s.cleanAll site t).setCfld site DC_CTL_EN 0).setCfld site DC_CTL_INVD 0
  else s

/-- Whether a write to dc.ctl asks for an enable that INVD does not allow (R246). An INV in the same write sets INVD first. -/
def State.dcCtlBad (s : State) (site v : Nat) : Bool :=
  bitOf v 0 && !(s.cflag site DC_CTL_EN) && !(s.cflag site DC_CTL_INVD) && !bitOf v 2

-- contexts of threads

/-- A change of a thread's context (R102, R105, R295, R299): banks invalid, the cue arm and the staging cleared. -/
def State.setCtx (s : State) (site : Nat) (t : Fin 4) (ctx : Nat) : State :=
  let s := s.modThr site t (fun x =>
    { x with
      ctx := ctx % 64
      bk := x.bk.map (fun b => b &&& ~~~1#64)
      cueArm := BitVec.ofNat 32 (setBits x.cueArm.toNat 31 1 0)
      armed := none
      staging := [] })
  s.setCfld site ⟨CFG_CORE_CTX_CTX0.off, 8 * t.val + 5, 8 * t.val⟩ ctx

-- the shadow stack

/-- Byte address of entry j of a thread's spilled part (R135). -/
def Thread.spillAddr (x : Thread) (site j : Nat) : Nat := padBase site + bitsOf x.spill.toNat 0 7 * 4096 + 2 * j

/-- Entries in the spill unit. -/
def Thread.spilled (x : Thread) : Nat := x.ssDepth - x.ss.length

/-- Entry j of a shadow stack, 0 oldest; 0 at or above the count (R137). -/
def State.ssEntry (s : State) (site : Nat) (t : Fin 4) (j : Nat) : Nat :=
  let x := s.thr site t
  if x.ssDepth ≤ j then 0
  else if j < x.spilled then s.le (x.spillAddr site j) 2
  else (x.ss.getD (j - x.spilled) 0).toNat

/-- Entry j written (R137). -/
def State.setSsEntry (s : State) (site : Nat) (t : Fin 4) (j v : Nat) : State :=
  let x := s.thr site t
  if x.ssDepth ≤ j then s
  else if j < x.spilled then s.setBytes (x.spillAddr site j) (leBytes 2 v)
  else s.modThr site t (fun x => { x with ss := x.ss.set (j - x.spilled) (BitVec.ofNat 16 v) })

/-- The count set (R137): entries 0 to count - 65 are the spilled ones; entries in the core that were not there before
hold 0 (log 6). Where the count grows past 64, entries that were in the core are named among the spilled ones, and read as what the spill unit
holds: what they hold then is not said (DESIGN CHOICE, log 54). -/
def State.setSsDepth (s : State) (site : Nat) (t : Fin 4) (d : Nat) : State :=
  if 2112 < d then s
  else
    let keep := (List.range (min d 64)).map (fun i => BitVec.ofNat 16 (s.ssEntry site t (d - min d 64 + i)))
    s.modThr site t (fun x => { x with ss := keep, ssDepth := d })

-- numbers

/-- State registers of 32 bits with core scope (R153, R186, R249, R308, R345). -/
def stCore32 (n : Nat) : Bool :=
  (decide (0x002 ≤ n) && decide (n ≤ 0x005)) || n == 0x046 || n == 0x047 ||
  (decide (0x080 ≤ n) && decide (n ≤ 0x085)) || (decide (0x090 ≤ n) && decide (n ≤ 0x0AF)) ||
  (decide (0x0C0 ≤ n) && decide (n ≤ 0x0D1)) || (decide (0x101 ≤ n) && decide (n ≤ 0x103)) ||
  (decide (0x108 ≤ n) && decide (n ≤ 0x119))

/-- State registers of 32 bits with thread scope (R153, R186, R210, R308, R345). -/
def stThread32 (n : Nat) : Bool :=
  (decide (0x010 ≤ n) && decide (n ≤ 0x012)) || n == 0x016 || n == 0x017 ||
  (decide (0x020 ≤ n) && decide (n ≤ 0x025)) || (decide (0x030 ≤ n) && decide (n ≤ 0x036)) ||
  (decide (0x038 ≤ n) && decide (n ≤ 0x03A)) || (decide (0x040 ≤ n) && decide (n ≤ 0x045)) ||
  (decide (0x048 ≤ n) && decide (n ≤ 0x04D)) || (decide (0x0B0 ≤ n) && decide (n ≤ 0x0B2)) || n == 0x100

/-- State registers of 64 bits: cyc and thN.cmp (R153). -/
def st64 (n : Nat) : Bool := n == 0x000 || n == 0x014

/-- Width in bits of a state register; none where the number names no register. -/
def stWidth (n : Nat) : Option Nat :=
  if st64 n then some 64 else if stCore32 n || stThread32 n then some 32 else none

/-- Tiles whose scale side a TLDS of a thread still waits for. -/
def Thread.scaling (x : Thread) : List Nat :=
  x.loads.filterMap (fun l => match l.kind with | .scale t _ => some t | _ => none)

/-- One bit per tile, and per accumulator, that an unfinished operation uses (mx.busy, R186). -/
def Core.mxBusy (c : Core) : Nat :=
  (threads.flatMap (fun (t : Fin 4) => c.th[t].scaling.map (2 ^ ·)) ++ threads.map (fun (t : Fin 4) =>
    match c.th[t].long with
    | none => 0
    | some o =>
      match o.code with
      | 0x4 => 2 ^ o.d ||| 2 ^ o.s ||| 2 ^ 8
      | 0x6 => 2 ^ o.d ||| 2 ^ o.s ||| 2 ^ 9
      | 0x5 => 2 ^ o.d ||| 2 ^ o.s
      | 0x7 => 2 ^ o.d ||| 2 ^ (8 + o.s)
      | _ => 2 ^ o.d)).foldl (· ||| ·) 0

/-- The value of a save register file's register: 0 pc, 1 st, 2 cause, 3 addr, 4 prog, 5 scr. -/
def Save.read (v : Save) (k : Nat) : Nat :=
  match k with
  | 0 => v.pc.toNat
  | 1 => v.st.toNat
  | 2 => v.cause.toNat
  | 3 => v.addr.toNat
  | 4 => v.prog.toNat
  | _ => v.scr.toNat

/-- Bits of v that a mask keeps. -/
def maskW (v m : Nat) : Word := BitVec.ofNat 32 v &&& BitVec.ofNat 32 m

/-- A save register written: reserved bits stay 0 (R330). -/
def Save.write (x : Save) (k v : Nat) : Save :=
  match k with
  | 0 => { x with pc := BitVec.ofNat 16 v }
  | 1 => { x with st := maskW v 0x00000FB0 }
  | 2 => { x with cause := maskW v 0x003FFFFF }
  | 3 => { x with addr := BitVec.ofNat 32 v }
  | 4 => { x with prog := maskW v 0xFFFFE000 }
  | _ => { x with scr := BitVec.ofNat 32 v }

/-- The value a state register reads as for thread t of a core (R153). -/
def State.stRead (s : State) (site : Nat) (t : Fin 4) (n : Nat) : Nat :=
  let c := s.core site
  let x := c.th[t]
  if n = 0x000 then s.cyc
  else if n = 0x002 then c.bud
  else if n = 0x003 then
    (s.cfld site CFG_CORE_CTRL_HP_EN) <<< 3 + (s.cfld site CFG_CORE_CTRL_SAFE) <<< 2 + s.cfld site CFG_CORE_CTRL_HP_THREAD
  else if n = 0x004 then c.stgBase.toNat
  else if n = 0x005 then c.stgCount.toNat
  else if n = 0x010 then x.ctx
  else if n = 0x011 then x.slice.toNat
  else if n = 0x012 then x.spill.toNat
  else if n = 0x014 then x.cmp.toNat
  else if n = 0x016 then x.wake.toNat
  else if n = 0x017 then x.mwait.toNat
  else if n = 0x020 then x.numSat.toNat
  else if n = 0x021 then x.numFlush.toNat
  else if n = 0x022 then x.numNan.toNat
  else if n = 0x023 then x.numCtl.toNat
  else if n = 0x024 then x.numSidx.toNat
  else if n = 0x025 then (x.gen (bitsOf x.numSidx.toNat 0 6)).toNat
  else if n = 0x030 then x.lc0.toNat
  else if n = 0x031 then x.lc1.toNat
  else if n = 0x032 then x.lp0beg.toNat
  else if n = 0x033 then x.lp0end.toNat
  else if n = 0x034 then x.lp1beg.toNat
  else if n = 0x035 then x.lp1end.toNat
  else if n = 0x036 then x.lpctl.toNat
  else if n = 0x038 then x.ssDepth
  else if n = 0x039 then x.ssIdx
  else if n = 0x03A then s.ssEntry site t x.ssIdx
  else if 0x040 ≤ n ∧ n ≤ 0x045 then x.sv1.read (n - 0x040)
  else if n = 0x046 then c.trapCtl.toNat
  else if n = 0x047 then c.trapPend.toNat
  else if 0x048 ≤ n ∧ n ≤ 0x04D then x.sv2.read (n - 0x048)
  else if n = 0x083 then c.memOps.length
  else if 0x090 ≤ n ∧ n ≤ 0x0AF ∧ n % 4 = 3 then 0
  else if n = 0x0B0 then x.syncCtl.toNat
  else if n = 0x0B1 then x.cueArm.toNat
  else if n = 0x0B2 then x.staging.length
  else if 0x080 ≤ n ∧ n ≤ 0x0DF then s.rg (ckey site (0x200 + 4 * (n - 0x080)))
  else if n = 0x100 then x.prog.toNat
  else if n = 0x101 then c.mxTol
  else if n = 0x102 then c.mxCnt <<< 16 + c.mxLast
  else if n = 0x103 then c.mxBusy
  else if 0x108 ≤ n ∧ n ≤ 0x10F then (c.tiles[Fin.ofNat 8 (n - 0x108)]).cfg.toNat
  else if 0x110 ≤ n ∧ n ≤ 0x117 then (c.tiles[Fin.ofNat 8 (n - 0x110)]).psn.toNat
  else if 0x118 ≤ n ∧ n ≤ 0x119 then (c.acc[Fin.ofNat 2 (n - 0x118)]).cfg.toNat
  else 0

/-- num.sidx after an access to num.seed with AINC (R210). -/
def Thread.seedAdvance (x : Thread) : Thread :=
  let i := x.numSidx.toNat
  if bitOf i 6 then { x with numSidx := BitVec.ofNat 32 (64 + (i % 64 + 1) % 64) } else x

/-- num.ctl written: RND outside 1 to 5 leaves that field (R210). -/
def numCtlWrite (old v : Nat) : Word :=
  let r := bitsOf v 0 3
  BitVec.ofNat 32 (bitsOf v 3 1 <<< 3 + (if 1 ≤ r ∧ r ≤ 5 then r else bitsOf old 0 3))

/-- Whether a thread's timer fires at a count of cyc (R94). -/
def Thread.timerDue (x : Thread) (cyc : Nat) : Bool :=
  bitOf x.wake.toNat 8 && decide (0 ≤ sgn 64 (cyc + 2 ^ 64 - x.cmp.toNat))

/-- thN.wake written: TEN and MASK are RW (R96, R105); PEND is W1C where the thread itself writes (`own`; R89 gives thread 0 no W1C field
of another), and its timer bit stays 1 while the timer fires (R8, R94, R96). -/
def Thread.wakeWrite (x : Thread) (cyc v : Nat) (own : Bool) : Thread :=
  let old := x.wake.toNat
  let off := if own then bitsOf v 16 5 else 0
  let pend := bitsOf old 16 5 &&& (31 - off)
  let pend := if x.timerDue cyc then pend ||| bitsOf old 18 1 <<< 2 else pend
  { x with wake := BitVec.ofNat 32 (pend <<< 16 + bitsOf v 8 1 <<< 8 + bitsOf v 0 5) }

/-- A write to a state register by MTS (R153): `zero` marks that thread 0 writes, so that thread-0-written fields follow;
`l2` marks a write to sv2 that R330 allows, and `own` one that the thread itself makes or the debug path: thread 0 writes another
thread's RW fields, not its W1C and WO ones (R89). Writes to RO fields are ignored. A write of thN.cmp clears the timer bit and leaves TEN as
it is: R94 has TEN stay 1 'until software clears it or writes a new compare' and does not say that the write itself clears it (DESIGN
CHOICE, log 45). -/
def State.stWrite (s : State) (site : Nat) (t : Fin 4) (n v : Nat) (zero l2 own : Bool) : State :=
  let x := s.thr site t
  let halted := s.halted site t
  let ctl (f : Thread → Thread) := s.modThr site t f
  let w : Word := BitVec.ofNat 32 v
  if n = 0x003 then
    if zero then (s.setCfld site CFG_CORE_CTRL_HP_EN (bitsOf v 3 1)).setCfld site CFG_CORE_CTRL_HP_THREAD (bitsOf v 0 2) else s
  else if n = 0x010 then
    if !zero then s
    else if bitsOf v 0 6 = x.ctx then s
    else if t ≠ 0 ∧ halted then s.setCtx site t (bitsOf v 0 6)
    else s.ctxErr site
  else if n = 0x011 then
    if !zero then s
    else if t = 0 ∨ halted then ctl (fun x => { x with slice := maskW v 0x007F007F })
    else s.ctxErr site
  else if n = 0x012 then
    if !zero then s
    else if t = 0 ∨ halted then ctl (fun x => { x with spill := maskW v 0x000000FF })
    else s.ctxErr site
  else if n = 0x014 then
    ctl (fun x => { x with cmp := BitVec.ofNat 64 v, wake := BitVec.ofNat 32 (setBits x.wake.toNat 18 1 0) })
  else if n = 0x016 then ctl (fun x => x.wakeWrite s.cyc v own)
  else if n = 0x017 then ctl (fun x => { x with mwait := w })
  else if n = 0x020 then ctl (fun x => { x with numSat := w })
  else if n = 0x021 then ctl (fun x => { x with numFlush := w })
  else if n = 0x022 then ctl (fun x => { x with numNan := w })
  else if n = 0x023 then ctl (fun x => { x with numCtl := numCtlWrite x.numCtl.toNat v })
  else if n = 0x024 then ctl (fun x => { x with numSidx := maskW v 0x7F })
  else if n = 0x025 then ctl (fun x => (x.setGen (bitsOf x.numSidx.toNat 0 6) w).seedAdvance)
  else if n = 0x030 then ctl (fun x => { x with lc0 := w })
  else if n = 0x031 then ctl (fun x => { x with lc1 := w })
  else if n = 0x032 then ctl (fun x => { x with lp0beg := maskW v 0xFFFF })
  else if n = 0x033 then ctl (fun x => { x with lp0end := maskW v 0xFFFF })
  else if n = 0x034 then ctl (fun x => { x with lp1beg := maskW v 0xFFFF })
  else if n = 0x035 then ctl (fun x => { x with lp1end := maskW v 0xFFFF })
  else if n = 0x036 then ctl (fun x => { x with lpctl := maskW v 0x7 })
  else if n = 0x038 then (if zero && halted then s.setSsDepth site t (bitsOf v 0 12) else s)
  else if n = 0x039 then (if zero then ctl (fun x => { x with ssIdx := bitsOf v 0 12 }) else s)
  else if n = 0x03A then (if zero && halted then s.setSsEntry site t x.ssIdx (bitsOf v 0 16) else s)
  else if 0x040 ≤ n ∧ n ≤ 0x045 then
    (if zero then ctl (fun x => { x with sv1 := x.sv1.write (n - 0x040) v }) else s)
  else if n = 0x046 then
    (if zero then s.modCore site (fun c => { c with trapCtl := maskW v 0xFFFF000F }) else s)
  else if 0x048 ≤ n ∧ n ≤ 0x04D then
    (if l2 then ctl (fun x => { x with sv2 := x.sv2.write (n - 0x048) v }) else s)
  else if n = 0x080 then (if zero then s.setRg (ckey site SP_BMAP_MAP.off) v else s)
  else if n = 0x081 then (if zero then s.setCfld site SP_CTL_STRICT v else s)
  else if n = 0x082 then (if zero then s.setCfld site SP_CONF_COUNT v else s)
  else if n = 0x084 then (if zero then s.dcCtlWrite site t v else s)
  else if n = 0x085 then (if zero then s.setCfld site DC_MISS_COUNT v else s)
  else if 0x090 ≤ n ∧ n ≤ 0x0AF then
    let k := (n - 0x090) / 4
    if n % 4 = 0 then (if zero then s.crCfgWrite site k v else s)
    else if n % 4 = 3 then s.crOp site k v
    else s
  else if n = 0x0B0 then ctl (fun x => { x with syncCtl := maskW v 0x3 })
  else if n = 0x0B1 then
    let c := (s.cueMap site x.ctx (bitsOf v 0 6)).map Prod.fst
    ctl (fun x =>
      { x with
        cueArm := maskW v 0x8000003F
        armed := if bitOf v 31 then c else none })
  else if n = 0x0B2 then (if own && bitOf v 31 then ctl (fun x => { x with staging := [] }) else s)
  else if 0x0C0 ≤ n ∧ n ≤ 0x0CF then
    (if zero && n % 2 == 0 then s.qqCfgWrite site ((n - 0x0C0) / 2) v else s)
  else if n = 0x0D0 then (if zero then s.cqCfgWrite site v else s)
  else if n = 0x100 then (if zero then ctl (fun x => { x with prog := maskW v 0xFFFFE000 }) else s)
  else if n = 0x101 then
    (if zero ∧ 8 ≤ bitsOf v 0 5 ∧ bitsOf v 0 5 ≤ 23 then s.modCore site (fun c => { c with mxTol := bitsOf v 0 5 }) else s)
  else s

/-- State registers whose fields are all of level E or reserved (R153, R186, R210, R249, R308, R330). -/
def stExpert (n : Nat) : Bool :=
  n == 0x003 || (decide (0x010 ≤ n) && decide (n ≤ 0x012)) || n == 0x024 || n == 0x025 ||
  (decide (0x032 ≤ n) && decide (n ≤ 0x036)) || (decide (0x038 ≤ n) && decide (n ≤ 0x03A)) ||
  (decide (0x040 ≤ n) && decide (n ≤ 0x045)) || (decide (0x048 ≤ n) && decide (n ≤ 0x04D)) ||
  n == 0x080 || n == 0x081 || n == 0x084 || (decide (0x090 ≤ n) && decide (n ≤ 0x0AF) && n % 4 == 0) ||
  (decide (0x0C0 ≤ n) && decide (n ≤ 0x0CF) && n % 2 == 0) || n == 0x0D0 || n == 0x100 || n == 0x101

/-- Whether a write of v to an E register changes the register or takes an action of its fields (R12): dc.ctl.INV and CLEAN, and
num.seed, whose access moves num.sidx (R210). -/
def State.stMoves (s w : State) (site : Nat) (t : Fin 4) (n v : Nat) : Bool :=
  if n = 0x084 then bitsOf v 1 2 != 0 || s.stRead site t n != w.stRead site t n
  else if n = 0x025 then s.thr site t != w.thr site t
  else s.stRead site t n != w.stRead site t n

/-- A write of thread u's register n by MTS on thread t (R12, R89, R153): an E register is left by a context without expert access, and
of trap.ctl the E field VEC1, with the access violation where the write would have changed it or taken an action. -/
def State.mts (s : State) (site : Nat) (t u : Fin 4) (n v : Nat) : State :=
  let l2 := decide (u = t) && (s.thr site t).level == .l2
  let put (s : State) (v : Nat) : State := s.stWrite site u n v (decide (t = 0)) l2 (decide (u = t))
  if s.expert (.thread site t) then put s v
  else if stExpert n then
    if s.stMoves (put s v) site u n v then s.violation (dieOf site) else s
  else if n = 0x046 ∧ t = 0 then
    let old := (s.core site).trapCtl.toNat
    let s := if bitsOf v 16 16 = bitsOf old 16 16 then s else s.violation (dieOf site)
    put s (setBits v 16 16 (bitsOf old 16 16))
  else put s v

/-- The fault of an MTS to a state register that its value or the register's state does not admit (R237, R246); a context without
expert access takes none of dc.ctl's actions (R12). -/
def State.stWriteFault (s : State) (site : Nat) (t : Fin 4) (n v : Nat) : Option Flt :=
  if n = 0x084 ∧ t = 0 ∧ s.expert (.thread site t) ∧ s.dcCtlBad site v then some illegalOperand
  else if 0x090 ≤ n ∧ n ≤ 0x0AF ∧ n % 4 = 3 then
    let k := (n - 0x090) / 4
    if s.cfld site (CR_CFG_OWNER k) ≠ 0 ∨ s.cfld site (CR_CFG_EN k) = 0 then some ⟨0x03, n, 0, false, none⟩ else none
  else none

end Sys2Proof.Machine
end

