-- ==== Sys2Proof/Machine/Cue.lean ====
section
/-! DEFINITION. Cue handles and counters, and the queues of a core: claims, contributions, receipt and release
(spec/12_cues_and_queues.md). -/

namespace Sys2Proof.Machine

-- cues

/-- A counter's count (R287). -/
def State.cueCount (s : State) (site c : Nat) : Nat := s.cfld site (CFG_CUE_CNT_COUNT c)

/-- A counter's count replaced. -/
def State.setCue (s : State) (site c v : Nat) : State := s.setCfld site (CFG_CUE_CNT_COUNT c) v

/-- A cue error recorded and its event bit and source raised (R288, R290). kind 1 is an overflow, 2 an unmapped signal. -/
def State.cueError (s : State) (site kind ctx idx : Nat) : State :=
  let s := s.setCfld site CFG_CUE_ERR_KIND kind
  let s := s.setCfld site CFG_CUE_ERR_CTX ctx
  let s := s.setCfld site CFG_CUE_ERR_IDX idx
  let f := if kind = 1 then CFG_CUE_EVENT_OVF else CFG_CUE_EVENT_UNMAP
  if s.cflag site f then s
  else (s.setCfld site f 1).raise (dieOf site) (416 + site % Config.sitesPerDie)

/-- Threads whose arm names the counter get the cue bit of PEND (R95, R295): the counter that the handle was translated to at the arm
(R288). -/
def State.armFire (s : State) (site c : Nat) : State :=
  threads.foldl (fun s t =>
    let x := s.thr site t
    if bitOf x.cueArm.toNat 31 && x.armed == some c then s.modThr site t (fun y => y.pendSet 0) else s) s

/-- A signal added to a counter (R289, R290, R295). obs is the observed set it carries (R282). -/
def State.cueAdd (s : State) (site c inc ctx : Nat) (obs : List Nat) : State :=
  let n := s.cueCount site c + inc
  let s := s.setCue site c (min n 65535)
  let s := if 65535 < n then s.cueError site 1 ctx c else s
  let s := s.modCore site (fun k =>
    { k with cueObs := put [] k.cueObs c (get [] k.cueObs c ++ List.replicate inc obs) })
  s.armFire site c

/-- A non-zero count taken by one, the observed set of the signal consumed entering the thread's (R282, R292, R294). -/
def State.cueTake (s : State) (site : Nat) (t : Fin 4) (c : Nat) : State :=
  let o := get [] (s.core site).cueObs c
  let s := s.setCue site c (s.cueCount site c - 1)
  let s := s.modCore site (fun k => { k with cueObs := put [] k.cueObs c o.tail })
  match o with
  | l :: _ => s.modThr site t (fun x => x.observe l)
  | [] => s

/-- A signal sent on its way (R289). -/
def State.signal (s : State) (g : Signal) : State := { s with signals := s.signals ++ [g] }

/-- A signal from a unit of this module to a target word's site through a context's map (R288): REM is needed unless the
target is the sending core itself. A target on another node keeps its node, and its request slot is metered for the
act (R59). `from_` is the sending core, if one sends; `die` is where the sender stands, from which the packet crosses the mesh (R257). -/
def State.cueSend (s : State) (from_ : Option Nat) (die : Nat) (act : Option Nat) (word handle ctx inc : Nat) (obs : List Nat) : State :=
  let g := tgtOf word
  let dst := if g.isLocal then from_.getD 0 else g.site
  let bytes (s : State) : State :=
    match act with
    | some a => s.meter a 3 (dieOf g.site) 16
    | none => s
  let s := s.carry act die (dieOf dst) Config.cueBytes
  if s.tgtHere g then s.signal ⟨dst, none, handle, ctx, decide (some dst ≠ from_), inc, obs, 0⟩
  else (bytes s).signal ⟨g.site, none, handle, ctx, true, inc, obs, g.node⟩

-- queues

/-- Units a message of l words takes (R300). -/
def qUnits (l : Nat) : Nat := cdiv (8 + 8 * l) 64

/-- The 8-byte header of a message or marker (R301). -/
def qHeader (kind len site th ctx seq : Nat) : List Byte :=
  leBytes 1 kind ++ leBytes 1 len ++ leBytes 2 site ++ leBytes 1 th ++ leBytes 1 ctx ++ leBytes 2 seq

/-- Scratchpad offset of a unit of a queue's ring. -/
def State.qUnitOff (s : State) (site q u : Nat) : Nat :=
  (s.cfld site (CR_CFG_BASE (s.cfld site (QQ_CFG_REGION q))) + u) * 64

/-- Bytes that a queue writes into its ring on the D port (R228, R229, R302). Where the port may not reach a bank, or a spill unit lies there,
no byte moves; who is told of it is not stated (DESIGN CHOICE, log 55). -/
def State.queueWrite (s : State) (site off : Nat) (b : List Byte) (psn : Bool) : State :=
  if s.padRefuses site off b.length true then s else s.padWrite site off b psn

/-- A claim in a queue's ring for a message; when it wraps, a skip header is written where the tail stood (R300), with the fields of the
message that made the claim and LEN 0 (R301). -/
def State.qClaim (s : State) (site q u : Nat) (m : QMsg) : State × Option Nat :=
  let k := s.cfld site (QQ_CFG_REGION q)
  let old := s.ring site k
  let (s, start) := s.crClaim site k u
  let new := s.ring site k
  match start with
  | none => (s, none)
  | some x =>
    if new.wrap = old.wrap then (s, some x)
    else (s.queueWrite site (s.qUnitOff site q old.tail) (qHeader 2 0 m.site m.th m.ctx m.seq) false, some x)

/-- How a commit fares at its queue (R300). -/
inductive SendRes where
  | status (n : Nat)
  | claimed
  | full
  deriving DecidableEq, Repr

/-- The element format code of a combining queue's TYPE (R306). -/
def cqFormat (type : Nat) : Nat := match type with | 0 => 0x1 | 1 => 0xA | _ => 0x3

/-- Elements of a contribution (R306): two of 32 bits or four of 16 bits a word. -/
def cqElems (code : Nat) (ws : List (BitVec 64)) : List Nat :=
  let w := fmtWidth code
  ws.flatMap (fun x => (List.range (64 / w)).map (fun i => elemAt w x.toNat i))

/-- A long accumulator with a value added (R307): units of 2^-149, every FP32, BF16 and INT32 value being a whole number of
them. -/
def LongAcc.add (a : LongAcc) (v : Val) : LongAcc :=
  match v with
  | .nan => { a with nan := true }
  | .inf true => { a with ninf := true }
  | .inf false => { a with pinf := true }
  | .fin neg m e => { a with sum := a.sum + unitsOf neg m e (-149) }

/-- What an element of a sum delivers (R307). -/
def LongAcc.value (a : LongAcc) : Val :=
  if a.nan || (a.pinf && a.ninf) then .nan
  else if a.pinf then .inf false
  else if a.ninf then .inf true
  else .fin (decide (a.sum < 0)) a.sum.natAbs (-149)

/-- Elements packed into words. -/
def packWords (w : Nat) (l : List Nat) (n : Nat) : List (BitVec 64) :=
  (List.range n).map (fun i => BitVec.ofNat 64 (elemAt 64 (packElems w l) i))

/-- A pending sum claimed into the ring and handed to the writer, if it fits (R307). -/
def State.qPlaceSum (s : State) (site q : Nat) : State :=
  match (s.core site).combSum with
  | none => s
  | some m =>
    match s.qClaim site q m.units m with
    | (_, none) => s
    | (s, some x) =>
      s.modCore site (fun c =>
        { c with
          combSum := none
          qWriting := c.qWriting.set (Fin.ofNat 8 q) (c.qWriting[Fin.ofNat 8 q] ++ [{ m with start := x }]) })

/-- Sums claimed in a queue and not yet delivered; ROUNDS counts a sum once it is (R308). -/
def State.sumsOwed (s : State) (site q : Nat) : Nat := ((s.core site).qWriting[Fin.ofNat 8 q]).countP (fun m => m.kind == 3)

/-- The round's sum formed: each element rounded once, counted at the reader, the accumulators cleared (R307). -/
def State.qFinishRound (s : State) (site q : Nat) : State :=
  let code := cqFormat (s.cfld site CQ_CFG_TYPE)
  let len := s.cfld site CQ_CFG_LEN
  let ieee := s.cflag site CQ_CFG_OVF
  let c := s.core site
  let rs := c.comb.map (fun a => deliver code .nearest ieee 0 a.value)
  let reader := Fin.ofNat 4 (s.cfld site (QQ_CFG_READER q))
  let rounds := (s.cfld site CQ_STAT_ROUNDS + s.sumsOwed site q) % 65536
  let m : QMsg := ⟨3, packWords (fmtWidth code) (rs.map Prod.fst) len, site, reader.val, s.cfld site (QQ_CFG_CTX q), 0,
    qUnits len, rounds, c.combObs⟩
  let s := s.modThr site reader (fun x => x.addCounts (countAll (rs.map Prod.snd)))
  let s := s.setCfld site CQ_STAT_ARRIVED 0
  let s := s.modCore site (fun c => { c with comb := [], combObs := [], combSum := some m })
  s.qPlaceSum site q

/-- A contribution added to the round (R306, R307). -/
def State.qContribute (s : State) (site q : Nat) (m : QMsg) : State :=
  let code := cqFormat (s.cfld site CQ_CFG_TYPE)
  let els := cqElems code m.words
  let c := s.core site
  let base := if c.comb.isEmpty then els.map (fun _ => (⟨0, false, false, false⟩ : LongAcc)) else c.comb
  let acc := (base.zip els).map (fun (a, e) => a.add (value code e))
  let n := s.cfld site CQ_STAT_ARRIVED + 1
  let s := s.modCore site (fun c => { c with comb := acc, combObs := setUnion c.combObs m.obs })
  let s := s.setCfld site CQ_STAT_ARRIVED n
  if n = s.cfld site CQ_CFG_N then s.qFinishRound site q else s

/-- A commit tried at a queue (R257, R299, R300, R306): closed or off, not admitted, full, or accepted. -/
def State.qTry (s : State) (site q : Nat) (m : QMsg) : State × SendRes :=
  let l := m.words.length
  let u := qUnits l
  let comb := s.cflag site (QQ_CFG_COMB q)
  if !(s.cflag site (QQ_CFG_EN q)) || s.cflag site (QQ_CFG_CLOSED q) then (s.qDiscard site q 1, .status 1)
  else if !(s.cflag site (QQ_CFG_ANY q)) && m.ctx != s.cfld site (QQ_CFG_CTX q) then (s, .status 3)
  else if s.crSize site (s.cfld site (QQ_CFG_REGION q)) < u then (s, .status 3)
  else if comb && l != s.cfld site CQ_CFG_LEN then (s, .status 3)
  else
    let entry (s : State) : State :=
      let s := s.carry (s.actOf m.site) (dieOf m.site) (dieOf site) (8 + 8 * l)
      match s.actOf site with
      | some a => s.meter a 4 site 1
      | none => s
    if comb then
      if (s.core site).combSum.isSome then (s, .full)
      else ((entry s).qContribute site q m, .status 0)
    else
      let n := s.cfld site (QQ_CNT_SEQ q)
      let m := { m with units := u, seq := n }
      match s.qClaim site q u m with
      | (s, none) => (s, .full)
      | (s, some x) =>
        let s := s.setCfld site (QQ_CNT_SEQ q) ((n + 1) % 65536)
        let m := { m with start := x }
        let s := s.modCore site (fun c =>
          { c with qWriting := c.qWriting.set (Fin.ofNat 8 q) (c.qWriting[Fin.ofNat 8 q] ++ [m]) })
        (entry s, .claimed)

/-- The message at the head of a queue, if one is committed (R303). -/
def State.qHead (s : State) (site q : Nat) : Option QMsg := ((s.core site).qReady[Fin.ofNat 8 q]).head?

/-- The result word of a received message (R303). -/
def State.qResult (s : State) (site q : Nat) (m : QMsg) : Nat :=
  m.words.length <<< 19 + s.qUnitOff site q m.start + 8

/-- The head message received: it is held, and the sender's observed set enters the reader's (R282, R304). -/
def State.qReceive (s : State) (site q : Nat) (t : Fin 4) : State :=
  match s.qHead site q with
  | none => s
  | some m =>
    let s := s.modCore site (fun c =>
      { c with
        qReady := c.qReady.set (Fin.ofNat 8 q) (c.qReady[Fin.ofNat 8 q]).tail
        qHeld := c.qHeld.set (Fin.ofNat 8 q) (some m) })
    s.modThr site t (fun x => x.observe m.obs)

/-- The units of the held message released (R304), and a waiting sum placed. The message itself is held until the bundle that releases it
ends: a receive abandoned in its wait finds it held still (R293; DESIGN CHOICE, log 44). -/
def State.qFreeUnits (s : State) (site q : Nat) : State :=
  match (s.core site).qHeld[Fin.ofNat 8 q] with
  | none => s
  | some m =>
    if m.units = 0 then s
    else
      let s := s.crRelease site (s.cfld site (QQ_CFG_REGION q)) m.units
      let s := s.modCore site (fun c => { c with qHeld := c.qHeld.set (Fin.ofNat 8 q) (some { m with units := 0 }) })
      if s.cflag site (QQ_CFG_COMB q) then s.qPlaceSum site q else s

/-- The held message released (R304). -/
def State.qRelease (s : State) (site q : Nat) : State :=
  (s.qFreeUnits site q).modCore site (fun c => { c with qHeld := c.qHeld.set (Fin.ofNat 8 q) none })

/-- A queue closed (R305, R307): a partial round is discarded and counted. -/
def State.qClose (s : State) (site q : Nat) : State := (s.setCfld site (QQ_CFG_CLOSED q) 1).dropRound site q

/-- A queue opened (R305): messages in the ring, a held one and a sum not yet claimed are discarded and counted, a partial round with them
(R307), and the region emptied. -/
def State.qOpen (s : State) (site q : Nat) : State := ((s.qDropAll site q).setCfld site (QQ_CFG_CLOSED q) 0).qClear site q

end Sys2Proof.Machine
end

