-- ==== Sys2Proof/Machine/Tile.lean ====
section
/-! DEFINITION. Tiles and accumulators: shapes, elements, scales, ownership and checksum lines
(R155 to R161, R169, R170, R182 to R184). -/

namespace Sys2Proof.Machine

-- tiles

/-- Whether a tile is full (R156). -/
def Tile.full (t : Tile) : Bool := bitOf t.cfg.toNat 31

/-- Owning context of a full tile (R157). -/
def Tile.owner (t : Tile) : Nat := bitsOf t.cfg.toNat 16 6

/-- ROWS (R158). -/
def Tile.nrows (t : Tile) : Nat := bitsOf t.cfg.toNat 0 5 + 1

/-- RB, bytes per row (R158). -/
def Tile.rb (t : Tile) : Nat := (bitsOf t.cfg.toNat 7 4 + 1) * 4

/-- FMT (R158). -/
def Tile.fmt (t : Tile) : Nat := bitsOf t.cfg.toNat 11 4

/-- SCL (R158). -/
def Tile.scl (t : Tile) : Bool := bitOf t.cfg.toNat 15

/-- Elements per row of a format and row length (R159). -/
def elemsPerRow (fmt rb : Nat) : Nat := rb * 8 / fmtWidth fmt

/-- Elements per row of a tile. -/
def Tile.elems (t : Tile) : Nat := elemsPerRow t.fmt t.rb

/-- Elements of a block of a format (R159). -/
def blockSize (fmt : Nat) : Nat := if fmt = 0xF then 16 else 32

/-- BPR, blocks per row (R160). -/
def Tile.bpr (t : Tile) : Nat := t.elems / blockSize t.fmt

/-- Whether a format admits a row length and scale use (R159). -/
def shapeOk (fmt rb : Nat) (scl : Bool) : Bool :=
  match fmt with
  | 0x4 => !scl || rb == 32 || rb == 64
  | 0x5 => !scl || rb == 32 || rb == 64
  | 0xC => !scl || rb == 32 || rb == 64
  | 0x6 => rb == 24 || rb == 48
  | 0x7 => rb == 24 || rb == 48
  | 0x8 => !scl || rb == 16 || rb == 32 || rb == 48 || rb == 64
  | 0xF => scl && (rb == 32 || rb == 64)
  | _ => !scl

/-- A physical row. -/
def Tile.row (t : Tile) (r : Nat) : Vec := get 0 t.rows r

/-- The bytes of logical row r. -/
def Tile.rowBytes (t : Tile) (r : Nat) : List Byte := leBytes t.rb (t.row r).toNat

/-- Whether physical row r is poisoned. -/
def Tile.poisoned (t : Tile) (r : Nat) : Bool := bitOf t.psn.toNat r

/-- A tile made full, owned by a context (R156). -/
def Tile.own (t : Tile) (ctx : Nat) : Tile :=
  { t with cfg := BitVec.ofNat 32 (setBits (setBits t.cfg.toNat 31 1 1) 16 6 ctx) }

/-- Logical row r written: the low RB bytes of n, with or without poison (R155, R168). -/
def Tile.setRow (t : Tile) (r n : Nat) (psn : Bool) : Tile :=
  { t with
    rows := put 0 t.rows r (BitVec.ofNat 512 (setBits (t.row r).toNat 0 (8 * t.rb) n))
    psn := BitVec.ofNat 32 (setBits t.psn.toNat r 1 (b2n psn)) }

/-- The scale byte of block b of row r (R160). -/
def Tile.scaleAt (t : Tile) (r b : Nat) : Nat := bitsOf t.scale.toNat (8 * (r * t.bpr + b)) 8

/-- A scale byte written. -/
def Tile.setScale (t : Tile) (r b v : Nat) : Tile :=
  { t with scale := BitVec.ofNat 1024 (setBits t.scale.toNat (8 * (r * t.bpr + b)) 8 v) }

/-- Bytes of the scale side in use: ROWS x BPR, 0 with SCL 0 (R164). -/
def Tile.scaleBytes (t : Tile) : Nat := if t.scl then t.nrows * t.bpr else 0

/-- The pattern of element j of row r (R189). -/
def Tile.elem (t : Tile) (r j : Nat) : Nat := elemAt (fmtWidth t.fmt) (t.row r).toNat j

/-- The exponent an element's block scale adds (R160, R201): none for a NaN scale. -/
def Tile.scaleExp (t : Tile) (r b : Nat) : Option Int :=
  if t.scl then
    let c := t.scaleAt r b
    if c = 0xFF then none else some ((c : Int) - 127 - (if t.fmt = 0xC then 6 else 0))
  else some 0

/-- The exact value of element j of row r with its block scale (R190, R191, R193, R203). -/
def Tile.val (t : Tile) (r j : Nat) : Val :=
  let b := j / blockSize t.fmt
  if t.fmt = 0xF then sbf16Value (t.elem r j) (t.scaleAt r b)
  else
    match t.scaleExp r b with
    | none => .nan
    | some e => (value t.fmt (t.elem r j)).scale e

/-- A core's tile. -/
def Core.tile (c : Core) (t : Nat) : Tile := c.tiles[Fin.ofNat 8 t]

/-- A core's tile changed. -/
def State.modTile (s : State) (site t : Nat) (f : Tile → Tile) : State :=
  s.modCore site (fun c => { c with tiles := c.tiles.set (Fin.ofNat 8 t) (f c.tiles[Fin.ofNat 8 t]) })

-- accumulators

/-- Whether an accumulator is full (R169). -/
def Acc32.full (a : Acc32) : Bool := bitOf a.cfg.toNat 31

/-- DIRTY (R170). -/
def Acc32.dirty (a : Acc32) : Bool := bitOf a.cfg.toNat 30

/-- Owning context. -/
def Acc32.owner (a : Acc32) : Nat := bitsOf a.cfg.toNat 16 6

/-- KIND: true INT32 (R169). -/
def Acc32.int (a : Acc32) : Bool := bitOf a.cfg.toNat 10

/-- N, columns. -/
def Acc32.ncols (a : Acc32) : Nat := bitsOf a.cfg.toNat 5 5 + 1

/-- M, rows. -/
def Acc32.mrows (a : Acc32) : Nat := bitsOf a.cfg.toNat 0 5 + 1

/-- Element (m, n). -/
def Acc32.at_ (a : Acc32) (m n : Nat) : Word := get 0 a.el (m * 32 + n)

/-- Element (m, n) written. -/
def Acc32.set_ (a : Acc32) (m n : Nat) (x : Word) : Acc32 := { a with el := put 0 a.el (m * 32 + n) x }

/-- DIRTY set or cleared. -/
def Acc32.setDirty (a : Acc32) (v : Bool) : Acc32 :=
  { a with cfg := BitVec.ofNat 32 (setBits a.cfg.toNat 30 1 (b2n v)) }

/-- A core's accumulator. -/
def Core.accum (c : Core) (a : Nat) : Acc32 := c.acc[Fin.ofNat 2 a]

/-- A core's accumulator changed. -/
def State.modAcc (s : State) (site a : Nat) (f : Acc32 → Acc32) : State :=
  s.modCore site (fun c => { c with acc := c.acc.set (Fin.ofNat 2 a) (f c.acc[Fin.ofNat 2 a]) })

/-- TZA (R169, R182): every element and checksum line 0, the shape from w, owned, not dirty. -/
def zeroedAcc (w ctx : Nat) : Acc32 :=
  ⟨[], BitVec.ofNat 32 (2 ^ 31 + ctx % 64 * 2 ^ 16 + w % 2 ^ 11), [], [], [], []⟩

-- checksum lines

/-- The value of an accumulator pattern: FP32, or INT32 as an integer (R169). -/
def Acc32.val (a : Acc32) (x : Word) : Val := if a.int then .ofInt (sgn 32 x.toNat) else value 0x1 x.toNat

/-- Magnitude of a value. -/
def Val.abs : Val → Val
  | .nan => .nan
  | .inf _ => .inf false
  | .fin _ m e => .fin false m e

/-- A value rounded to an FP32 pattern by nearest-even in saturation mode: how a checksum line holds its sum. -/
def linePat (v : Val) : Word := BitVec.ofNat 32 (deliver 0x1 .nearest false 0 v).1

/-- A sum of values as a checksum line holds it: FP32, or modulo 2^32 for INT32 (log 20). -/
def Acc32.lineOf (a : Acc32) (l : List Val) : Word :=
  let t := l.foldl (Val.add false) (.fin false 0 0)
  if a.int then
    match t with
    | .fin neg m e => BitVec.ofNat 32 (wrap 32 (unitsOf neg m e 0))
    | _ => 0
  else linePat t

/-- The elements of row m and of column n. -/
def Acc32.rowVals (a : Acc32) (m : Nat) : List Val := (List.range a.ncols).map (fun n => a.val (a.at_ m n))
/-- The elements of column n. -/
def Acc32.colVals (a : Acc32) (n : Nat) : List Val := (List.range a.mrows).map (fun m => a.val (a.at_ m n))

/-- The lines of row m and of every column set to match the elements (R170). -/
def Acc32.matchLines (a : Acc32) (m : Nat) : Acc32 :=
  let a := { a with
    rowSum := put 0 a.rowSum m (a.lineOf (a.rowVals m))
    rowMag := put 0 a.rowMag m (a.lineOf ((a.rowVals m).map Val.abs)) }
  (List.range a.ncols).foldl (fun b n =>
    { b with
      colSum := put 0 b.colSum n (b.lineOf (b.colVals n))
      colMag := put 0 b.colMag n (b.lineOf ((b.colVals n).map Val.abs)) }) a

/-- One comparison of R183: the total of the elements against its line. Exact for INT32; for FP32 a difference of at most
2^-TOL times the magnitude sum passes. Where a value is not finite the manual states no result: the free bit decides
(log 20). -/
def Acc32.lineOk (a : Acc32) (tol : Nat) (free : Bool) (vs : List Val) (line mag : Word) : Bool :=
  if a.int then decide (a.lineOf vs = line)
  else
    match (vs.foldl (Val.add false) (.fin false 0 0)).add false (value 0x1 line.toNat).neg, value 0x1 mag.toNat with
    | .fin _ m e, .fin _ n f => !(exceeds m (e + tol) n f)
    | _, _ => free

/-- Whether every row and column total matches its line (R183). -/
def Acc32.clean (a : Acc32) (tol : Nat) (free : Bool) : Bool :=
  (List.range a.mrows).all (fun m => a.lineOk tol free (a.rowVals m) (get 0 a.rowSum m) (get 0 a.rowMag m)) &&
  (List.range a.ncols).all (fun n => a.lineOk tol free (a.colVals n) (get 0 a.colSum n) (get 0 a.colMag n))

-- checks of a tile operation

/-- Whether a thread may touch what a context owns (R157): thread 0 at L1 or L2 is exempt. -/
def State.ownerOk (s : State) (site : Nat) (t : Fin 4) (full : Bool) (ctx : Nat) : Bool :=
  let x := s.thr site t
  !full || ctx == x.ctx || (decide (t = 0) && x.level != .l0)

/-- Whether a thread may touch a tile (R157, R185). -/
def State.tileOk (s : State) (site : Nat) (t : Fin 4) (n : Nat) : Bool :=
  let k := (s.core site).tile n
  s.safe site || s.ownerOk site t k.full k.owner

/-- Whether a thread may touch an accumulator (R157). -/
def State.accOk (s : State) (site : Nat) (t : Fin 4) (a : Nat) : Bool :=
  let k := (s.core site).accum a
  s.ownerOk site t k.full k.owner

/-- Resources of the matrix unit that operations act on in issue order (R161), numbered: the element storage of tile n at n, its scale
side at 8 + n, accumulator a at 16 + a. -/
structure Uses where
  reads : List Nat
  writes : List Nat
  deriving DecidableEq, Repr

/-- The element storage and the scale side of a tile. -/
def bothSides (n : Nat) : List Nat := [n, 8 + n]

/-- Resources a long operation reads and writes (R161). -/
def TileOp.uses (o : TileOp) : Uses :=
  match o.code with
  | 0x2 => ⟨[], [o.d]⟩
  | 0x3 => ⟨[o.d], []⟩
  | 0x4 => ⟨bothSides o.d ++ bothSides o.s, [16]⟩
  | 0x6 => ⟨bothSides o.d ++ bothSides o.s, [17]⟩
  | 0x5 => ⟨bothSides o.s, bothSides o.d⟩
  | _ => ⟨[16 + o.s], bothSides o.d⟩

/-- Whether a new operation with uses u must wait for an unfinished one with uses v (R161). -/
def Uses.behind (u v : Uses) : Bool :=
  u.reads.any v.writes.contains || u.writes.any (fun r => v.reads.contains r || v.writes.contains r)

/-- Whether a new tile operation with these uses must wait for an unfinished one (R161, R163): a long operation, a TLDS whose bytes have
not come, or, for a TMMA, another TMMA. -/
def Core.tileBusy (c : Core) (u : Uses) (mma : Bool) : Bool :=
  threads.any (fun t =>
    u.behind ⟨[], c.th[t].scaling.map (8 + ·)⟩ ||
    match c.th[t].long with
    | none => false
    | some o => u.behind o.uses || (mma && (o.code == 0x4 || o.code == 0x6)))

end Sys2Proof.Machine
end

