-- ==== Sys2Proof/Machine/Steps.lean ====
section
/-! DEFINITION. The life of a step: callboard entries, act-table entries, requests, ledger records, commit, abort, DARK
and replay (R50, R62, R64, R81, R82, R368, R369, R373, R380 to R384). -/

namespace Sys2Proof.Machine

-- callboard entries

/-- A field of a callboard entry: first bit and width (R62). -/
structure EF where
  lo : Nat
  w : Nat
  deriving DecidableEq, Repr

/-- IDENT.STREAM. -/
def eStream : EF := ⟨0, 18⟩
/-- IDENT.RING. -/
def eRing : EF := ⟨18, 6⟩
/-- IDENT.CTX. -/
def eCtx : EF := ⟨24, 6⟩
/-- IDENT.LIFE: 0 free, 1 active, 2 suspended. -/
def eLife : EF := ⟨30, 2⟩
/-- CONTROL.SEEN. -/
def eSeen : EF := ⟨32, 1⟩
/-- CONTROL.HALF. -/
def eHalf : EF := ⟨33, 1⟩
/-- CONTROL.STALE. -/
def eStale : EF := ⟨34, 1⟩
/-- CONTROL.TRIG_MODE. -/
def eTrigMode : EF := ⟨35, 3⟩
/-- CONTROL.CONT_CLASS. -/
def eContClass : EF := ⟨38, 3⟩
/-- CONTROL.TRIG_CLASS. -/
def eTrigClass : EF := ⟨41, 3⟩
/-- CONTROL.ACT. -/
def eAct : EF := ⟨44, 12⟩
/-- CONTROL.SUSP. -/
def eSusp : EF := ⟨56, 4⟩
/-- CONTROL.HELD. -/
def eHeld : EF := ⟨60, 1⟩
/-- CONTROL.RUN. -/
def eRun : EF := ⟨61, 1⟩
/-- CONTROL.ADM. -/
def eAdm : EF := ⟨62, 1⟩
/-- CONTROL.PEND. -/
def ePend : EF := ⟨63, 1⟩
/-- STATE_ADDR. -/
def eStateAddr : EF := ⟨64, 64⟩
/-- BUF_ADDR. -/
def eBufAddr : EF := ⟨128, 64⟩
/-- STATE_UNITS. -/
def eStateUnits : EF := ⟨192, 16⟩
/-- BUF_SETS. -/
def eBufSets : EF := ⟨208, 16⟩
/-- BUF_HEAD. -/
def eBufHead : EF := ⟨224, 16⟩
/-- BUF_FILL. -/
def eBufFill : EF := ⟨240, 8⟩
/-- SCALE. -/
def eScale : EF := ⟨248, 8⟩
/-- NEXT_SEQ. -/
def eNextSeq : EF := ⟨256, 32⟩
/-- POLICY.TRIG_N. -/
def eTrigN : EF := ⟨288, 12⟩
/-- POLICY.RATE_POL. -/
def eRatePol : EF := ⟨300, 2⟩
/-- POLICY.RANGE_POL. -/
def eRangePol : EF := ⟨302, 2⟩
/-- POLICY.STALE_POL. -/
def eStalePol : EF := ⟨304, 2⟩
/-- POLICY.NCHAN: channels minus 1. -/
def eNchan : EF := ⟨306, 2⟩
/-- POLICY.REORD_HOLD. -/
def eReordHold : EF := ⟨308, 4⟩
/-- POLICY.HELD_MASK. -/
def eHeldMask : EF := ⟨312, 8⟩
/-- LO. -/
def eLo : EF := ⟨320, 32⟩
/-- HI. -/
def eHi : EF := ⟨352, 32⟩
/-- RATE_MAX. -/
def eRateMax : EF := ⟨384, 32⟩
/-- STALE_FRAMES. -/
def eStaleFrames : EF := ⟨416, 16⟩
/-- AGES.PEND_AGE. -/
def ePendAge : EF := ⟨432, 4⟩
/-- AGES.TTL. -/
def eTtl : EF := ⟨436, 4⟩
/-- HOLD.HOLD_AGE. -/
def eHoldAge : EF := ⟨444, 4⟩
/-- STEP_CNT. -/
def eStepCnt : EF := ⟨448, 32⟩
/-- SAMP_NEW. -/
def eSampNew : EF := ⟨480, 16⟩
/-- SILENT. -/
def eSilent : EF := ⟨496, 16⟩

/-- A stream's callboard entry as a number (R61). -/
def State.entry (s : State) (x : Nat) : Nat := (get 0 s.cb x).toNat

/-- A field of a stream's entry. -/
def State.ent (s : State) (x : Nat) (f : EF) : Nat := bitsOf (s.entry x) f.lo f.w

/-- An entry replaced. -/
def State.setEntry (s : State) (x n : Nat) : State := { s with cb := put 0 s.cb x (BitVec.ofNat 512 n) }

/-- A field of a stream's entry replaced. -/
def State.setEnt (s : State) (x : Nat) (f : EF) (v : Nat) : State := s.setEntry x (setBits (s.entry x) f.lo f.w v)

/-- The home die of a stream (R61). -/
def streamDie (x : Nat) : Nat := bitsOf x 15 3

/-- Channels of a stream. -/
def State.channels (s : State) (x : Nat) : Nat := s.ent x eNchan + 1

/-- ACT, the classes and TRIG_MODE in force until the next close (R66): bits [23:3] of CONTROL, held one up so that no entry
means the callboard's own values. -/
def State.inForce (s : State) (x : Nat) : Nat :=
  match look s.cbForce x with
  | some v => v - 1
  | none => bitsOf (s.entry x) 35 21

/-- TRIG_MODE in force. -/
def State.trigMode (s : State) (x : Nat) : Nat := bitsOf (s.inForce x) 0 3
/-- CONT_CLASS in force. -/
def State.contClass (s : State) (x : Nat) : Nat := bitsOf (s.inForce x) 3 3
/-- TRIG_CLASS in force. -/
def State.trigClass (s : State) (x : Nat) : Nat := bitsOf (s.inForce x) 6 3
/-- ACT in force. -/
def State.actOfStream (s : State) (x : Nat) : Nat := bitsOf (s.inForce x) 9 12

/-- A stream suspended with a cause (R64). -/
def State.suspend (s : State) (x susp : Nat) : State := (s.setEnt x eLife 2).setEnt x eSusp susp

/-- ADM, RUN and HELD cleared. -/
def State.clearRun (s : State) (x : Nat) : State := ((s.setEnt x eAdm 0).setEnt x eRun 0).setEnt x eHeld 0

-- the act table

/-- A field of an act-table entry: byte offset and size (R400). -/
def actFld (e off size : Nat) : Nat := bitsOf e (8 * off) (8 * size)

/-- An act's active entry (R399). -/
def State.act (s : State) (a : Nat) : Nat := (get 0 s.actA a).toNat

/-- CERT.FLAGS.SPAN. -/
def actSpan (e : Nat) : Bool := bitOf e 16
/-- CERT.BATCH_MAX. -/
def actBatchMax (e : Nat) : Nat := actFld e 0x04 2
/-- CERT.CYC_BATCH. -/
def actCycBatch (e : Nat) : Nat := actFld e 0x08 4
/-- CERT.CYC_STEP. -/
def actCycStep (e : Nat) : Nat := actFld e 0x0C 4
/-- CERT.HBM_HOME_BATCH. -/
def actHbmHomeBatch (e : Nat) : Nat := actFld e 0x10 4
/-- CERT.HBM_HOME_STEP. -/
def actHbmHomeStep (e : Nat) : Nat := actFld e 0x14 4
/-- CERT.HBM_SPAN_BATCH. -/
def actHbmSpanBatch (e : Nat) : Nat := actFld e 0x18 4
/-- CERT.HBM_SPAN_STEP. -/
def actHbmSpanStep (e : Nat) : Nat := actFld e 0x1C 4
/-- CERT.CUT_E_STEP. -/
def actCutE (e : Nat) : Nat := actFld e 0x20 4
/-- CERT.CUT_W_STEP. -/
def actCutW (e : Nat) : Nat := actFld e 0x24 4
/-- CERT.CUT_BATCH. -/
def actCutBatch (e : Nat) : Nat := actFld e 0x28 4
/-- CERT.FAB_STEP. -/
def actFabStep (e : Nat) : Nat := actFld e 0x2C 4
/-- CERT.FAB_BATCH. -/
def actFabBatch (e : Nat) : Nat := actFld e 0x30 4
/-- CERT.QENT_STEP. -/
def actQent (e : Nat) : Nat := actFld e 0x34 2
/-- CERT.EGR_STEP. -/
def actEgr (e : Nat) : Nat := actFld e 0x36 2
/-- CTXMASK. -/
def actCtxMask (e : Nat) : Nat := actFld e 0x40 8
/-- The cast set of die d. -/
def actCast (e d : Nat) : Nat := bitsOf e (8 * 0x48 + 4 * d) 4
/-- Whether the act has a cast on die d. -/
def actDies (e d : Nat) : Bool := bitOf e (8 * 0x4C + d)
/-- FLAGS.V. -/
def actV (e : Nat) : Bool := bitOf e (8 * 0x4D)
/-- FLAGS.AUD. -/
def actAud (e : Nat) : Bool := bitOf e (8 * 0x4D + 1)
/-- STG_CUE. -/
def actStgCue (e : Nat) : Nat := bitsOf e (8 * 0x4E) 6
/-- STG_REG. -/
def actStgReg (e : Nat) : Nat := bitsOf e (8 * 0x4F) 3
/-- STG_BASE. -/
def actStgBase (e : Nat) : Nat := actFld e 0x50 2
/-- STG_SIZE. -/
def actStgSize (e : Nat) : Nat := actFld e 0x52 2
/-- PROG_FIRST. -/
def actProgFirst (e : Nat) : Nat := actFld e 0x54 2
/-- PROG_UNITS. -/
def actProgUnits (e : Nat) : Nat := actFld e 0x56 2
/-- PROG. -/
def actProg (e : Nat) : Nat := actFld e 0x58 8
/-- CORE_IMG. -/
def actImg (e : Nat) : Nat := actFld e 0x60 8
/-- RESV of slice d. -/
def actResv (e d : Nat) : Nat := actFld e (0x68 + 2 * d) 2

-- the ledger

/-- Free records of a die's ledger ring (R385). -/
def State.lgrFree (s : State) (d : Nat) : Nat :=
  2 ^ s.fld d LGR_CTRL_LOG2 - (get 0 s.lgrSerial d + 2 ^ 32 - s.fld d LGR_HEAD_HEAD) % 2 ^ 32

/-- A record collected by a die's ledger unit with the PHASE of its serial number (R381, R382). While EN is 0 none is
written (R385). -/
def State.lgrPush (s : State) (d rec : Nat) : State :=
  if s.flag d LGR_CTRL_EN then
    let n := get 0 s.lgrSerial d
    let phase := b2n (bitOf n (s.fld d LGR_CTRL_LOG2))
    let free := s.lgrFree d
    let s := { s with
      lgrBuf := s.lgrBuf ++ [(d, BitVec.ofNat 128 (setBits rec 31 1 phase))]
      lgrSerial := put 0 s.lgrSerial d ((n + 1) % 2 ^ 32) }
    if free = 262144 then s.event d LGR_EVENT_LOW else s
  else s

/-- A record of R382. -/
def lgrRec (status : Nat) (reh host : Bool) (ctx stream cause act detail frame : Nat) : Nat :=
  status <<< 27 + b2n reh <<< 26 + b2n host <<< 25 + (ctx % 64) <<< 18 + stream % 2 ^ 18 +
  (cause <<< 24 + (act % 4096) <<< 12 + detail % 16) <<< 32 + (frame % 2 ^ 64) <<< 64

/-- The record of a step's outcome (R383). -/
def State.lgrStep (s : State) (st : Step) (status cause : Nat) : State :=
  s.lgrPush (streamDie st.stream) (lgrRec status st.reh st.host st.ctx st.stream cause st.act st.cls st.frame)

-- requests

/-- The parts of a request. -/
def Req.parts (r : Req) : List (Nat × Nat) :=
  r.trig.toList ++ r.cont.toList ++ (r.host.toList.map (fun (c, a, _, _) => (c, a)))

/-- The class of a request: the lowest number among its parts (R50). -/
def Req.cls (r : Req) : Nat := r.parts.foldl (fun m (c, _) => min m c) 7

/-- Its arrival: the earliest among its parts (R50). -/
def Req.arrival (r : Req) : Nat :=
  match r.parts with
  | [] => 0
  | (_, a) :: t => t.foldl (fun m (_, b) => min m b) a

/-- Two parts merged: the lower class and the earlier arrival (R50). -/
def mergePart (a b : Option (Nat × Nat)) : Option (Nat × Nat) :=
  match a, b with
  | some (c, x), some (d, y) => some (min c d, min x y)
  | some p, none => some p
  | none, q => q

/-- Two host parts merged: the tag of the first, the earliest LATEST (R64). -/
def mergeHost (a b : Option (Nat × Nat × Nat × Nat)) : Option (Nat × Nat × Nat × Nat) :=
  match a, b with
  | some (c, x, l, g), some (d, y, m, _) => some (min c d, min x y, min l m, g)
  | some p, none => some p
  | none, q => q

/-- A request merged into those of its slice, PEND set (R50, R64). A dropped tag is counted (R64, ITK_CNT IDX 11). -/
def State.present_ (s : State) (r : Req) : State :=
  let s := s.setEnt r.stream ePend 1
  match s.reqs.find? (fun q => q.stream == r.stream) with
  | none => { s with reqs := s.reqs ++ [r] }
  | some q =>
    let m : Req := ⟨r.stream, mergePart q.trig r.trig, mergePart q.cont r.cont, mergeHost q.host r.host⟩
    let s := { s with reqs := s.reqs.map (fun x => if x.stream = r.stream then m else x) }
    if q.host.isSome && r.host.isSome then s.count 0 (streamDie r.stream) 11 32 1 else s

/-- A trigger armed (R76): its class is TRIG_CLASS. -/
def State.armTrigger (s : State) (x at_ : Nat) : State := s.present_ ⟨x, some (s.trigClass x, at_), none, none⟩

/-- A continuation requested at a commit of an active stream (R82). -/
def State.armCont (s : State) (x at_ : Nat) : State := s.present_ ⟨x, none, some (s.contClass x, at_), none⟩

/-- A pending request dropped. -/
def State.dropReq (s : State) (x : Nat) : State :=
  ({ s with reqs := s.reqs.filter (fun q => q.stream != x) }).setEnt x ePend 0

-- outcomes of a step

/-- The step of a stream without an outcome. -/
def State.stepOf (s : State) (x : Nat) : Option Step := s.steps.find? (fun st => st.stream == x)

/-- A step changed. -/
def State.modStep (s : State) (x : Nat) (f : Step → Step) : State :=
  { s with steps := s.steps.map (fun st => if st.stream = x then f st else st) }

/-- A step without further outcome removed. -/
def State.dropStep (s : State) (x : Nat) : State := { s with steps := s.steps.filter (fun st => st.stream != x) }

/-- Aborts whose request is presented again (R380). -/
def presentsAgain (cause : Nat) : Bool := cause == 0x07 || cause == 0x08 || cause == 0x0A || cause == 0x0B || cause == 0x0C

/-- A step that was staged and does not commit gates the updates its act feeds (R223): in the window of its frame and, where a replay of it was
under way in a later frame, in the window of that frame. -/
def State.gate (s : State) (st : Step) : State :=
  let add (l : List (Nat × Nat)) (p : Nat × Nat) : List (Nat × Nat) := if l.contains p then l else l ++ [p]
  let l := add s.uncommitted (st.act, st.frame)
  let again := decide (st.frame < s.frame) && st.phase == .replaying
  { s with uncommitted := if again then add l (st.act, s.frame) else l }

/-- A step aborted with a cause of R383; the stream is suspended for the causes R64 names. -/
def State.abortStep (s : State) (st : Step) (cause : Nat) : State :=
  let s := if st.phase = .accepted ∧ cause ≠ 0x03 ∧ cause ≠ 0x04 then s else s.gate st
  let s := (s.dropStep st.stream).clearRun st.stream
  let susp := match cause with | 0x01 => 2 | 0x03 => 4 | 0x04 => 3 | 0x05 => 3 | 0x06 => 3 | _ => 0
  let s := if susp = 0 then s else s.suspend st.stream susp
  let s := s.lgrStep st 5 cause
  if presentsAgain cause then s.present_ st.req else s

/-- A step recorded DARK (R378, R384); its request is presented again (R380). -/
def State.darkStep (s : State) (st : Step) (cause : Nat) : State :=
  let d := streamDie st.stream
  let s := if st.phase = .accepted then s else s.gate st
  let s := (s.dropStep st.stream).clearRun st.stream
  let s := s.lgrStep st 6 cause
  let s := (s.count 4 d 9 32 1).integrity d CHK_EVENT_DARK st.site st.stream cause
  s.present_ st.req

/-- Address of half h of a stream's state body (R62). -/
def State.halfAddr (s : State) (x h : Nat) : Nat :=
  s.ent x eStateAddr + h * s.ent x eStateUnits * 64

/-- Egress bytes a slot holds for its payload: EGR_STEP less the header (R79). -/
def State.egrRoom (s : State) (act : Nat) : Nat := actEgr (s.act act) - 64

/-- Bytes of the payload delivered: the length declared, truncated to what the certificate allows (R81). -/
def State.payloadLen (s : State) (act payload : Nat) : Nat := min (payload * 64) (s.egrRoom act)

/-- The state bytes of a slot on a core. -/
def State.slotState (s : State) (site : Nat) (r : SlotRec) : List Byte :=
  s.padBytes site (r.off + 64 * (1 + r.nchan)) (64 * r.units)

/-- The payload bytes of a slot. -/
def State.slotPayload (s : State) (site act : Nat) (r : SlotRec) : List Byte :=
  s.padBytes site (r.off + 64 * (1 + r.nchan + r.units)) (s.payloadLen act r.payload)

/-- The egress that a struck step declares, header included, metered for its act (R59, R81). -/
def State.meterEgress (s : State) (st : Step) (r : SlotRec) : State := s.meter st.act 5 (streamDie st.stream) (64 + r.payload * 64)

/-- A commit (R64, R81 to R84): HALF inverted, STEP_CNT counted, the ledger record written, the continuation requested, and
the egress record handed to the egress unit. `replayed` marks a commit after replay, whose egress was metered in the frame of its
strike, which admitted it (R59, R81). A payload cut at EGR_STEP - 64 bytes that fill no whole unit is completed with zeros (DESIGN CHOICE,
log 49). -/
def State.commitStep (s : State) (st : Step) (site : Nat) (r : SlotRec) (replayed : Bool) : State :=
  let x := st.stream
  let d := streamDie x
  let hdr := s.padBytes site r.off 64
  let flags := leNat (hdr.drop 6 |>.take 1) % 16
  let seql := leNat (s.padBytes site (r.off + 64 + 0x28) 4)
  let payload := s.slotPayload site st.act r
  let units := cdiv payload.length 64
  let payload := payload ++ List.replicate (units * 64 - payload.length) 0
  let cont := r.cont && s.ent x eLife == 1
  let s := (s.dropStep x).clearRun x
  let s := s.setEnt x eHalf (1 - s.ent x eHalf)
  let s := s.setEnt x eStepCnt (s.ent x eStepCnt + 1)
  let s := s.lgrStep st (if replayed then 3 else 2) 0
  let s := if cont then s.armCont x s.now else s
  let rec_ : EgrRec :=
    { ring := s.ent x eRing
      stream := x
      status := b2n replayed
      ctx := st.ctx
      act := st.act
      flags := flags + (if cont then 16 else 0)
      len := units
      frame := st.frame
      stepCnt := s.ent x eStepCnt
      seql := seql
      tag := st.tag
      commit := s.now
      payload := payload
      fresh := true }
  let s := (s.count 6 d 1 16 1).count 6 0 14 32 1
  let s := if replayed then s else s.meterEgress st r
  { s with
    backlog := s.backlog ++ [(d, rec_)]
    deliveries := s.deliveries ++ [⟨x, st.act, st.frame, st.cls, st.ctx, st.host, st.reh, replayed, rec_.ring, d, st.late, false, none⟩] }

-- holding and replay

/-- One byte into the CRC-64 of the ECMA-182 polynomial, most significant bit first (R369; initial value and bit order PRESUMED,
log 10). -/
def crcByte (c : BitVec 64) (b : Byte) : BitVec 64 :=
  (List.range 8).foldl (fun c _ => if c.msb then (c <<< 1) ^^^ 0x42F0E1EBA9EA3693#64 else c <<< 1)
    (c ^^^ (b.zeroExtend 64 <<< 56))

/-- The CRC-64 of bytes. -/
def crc64 (l : List Byte) : BitVec 64 := l.foldl crcByte 0

/-- A step's digest: candidate state, then payload (R369). -/
def State.digest (s : State) (site act : Nat) (r : SlotRec) : BitVec 64 :=
  crc64 (s.slotState site r ++ s.slotPayload site act r)

/-- Address of a stream's hold record (R369). -/
def State.holdAddr (s : State) (x : Nat) : Nat :=
  s.rg64 (dkey (streamDie x) CHK_HOLD_LO_ADDR.off) + 384 * (x % 2 ^ 15)

/-- A core due for quarantine, with the KIND of CHK_LAST (R376). -/
def State.owe (s : State) (site kind : Nat) : State :=
  if s.quarDue.any (fun q => q.1 == site) then s else { s with quarDue := s.quarDue ++ [(site, kind)] }

/-- A failed replay (R373, third row): TRIES counts; at 1 the step is carried to a different understudy, at 2 it is
aborted with 0x0B. -/
def State.replayFail (s : State) (site : Nat) (st : Step) : State :=
  let d := streamDie st.stream
  let s := s.count 4 d 5 32 1
  let n := st.tries + 1
  let s := s.setBytes (s.holdAddr st.stream + 0x0C) (leBytes 1 n)
  if 2 ≤ n then s.abortStep st 0x0B
  else s.modStep st.stream (fun y => { y with tries := n, lastUnd := site, phase := .held })

/-- The stream director's access to a member's scratchpad (R228, R229, R240, R257): on its way between the stream's die and the member's;
whether the pad refuses it. -/
def State.directorPad (s : State) (act : Option Nat) (d site off n : Nat) (write : Bool) : State × Bool :=
  let bad := n != 0 && (!s.bankOk site off n .d || (s.core site).hitsSpill off n)
  (if bad then s else if write then s.carry act d (dieOf site) n else s.carry act (dieOf site) d n, bad)

/-- A replay's step-end: its digest compared with the hold record's (R373). Where the understudy's scratchpad refuses the stream director's read
(R229, R240) the try fails (DESIGN CHOICE, log 55); poison in the slot's state or egress area aborts the step as at a strike (R364; DEDUCED,
log 55). -/
def State.replayEnd (s : State) (site : Nat) (st : Step) (r : SlotRec) : State :=
  let x := st.stream
  let d := streamDie x
  let h := s.holdAddr x
  let front := 64 * (1 + r.nchan)
  let (s, bad) := s.directorPad none d site r.off r.len false
  if bad then s.replayFail site st
  else if s.poisoned (padBase site + r.off + front) (r.len - front) then (s.count 4 d 10 32 1).abortStep st 0x06
  else if s.digest site st.act r = BitVec.ofNat 64 (s.le h 8) then
    (s.count 4 d 3 32 1).commitStep st site r true
  else
    let other := s.le (h + 8) 2 % 2 ^ 11
    let s := (s.count 4 d 4 32 1).integrity d CHK_EVENT_DISAGREE site x 0x0A
    let s := s.setFld d CHK_LAST_STREAM_STREAM x
    let aud := actAud (s.act st.act)
    let again := s.disag.any (fun (u, c, f) => u == site && c != other && decide (s.frame ≤ f + 256))
    let s := if aud then s.owe other 1 else s
    let s := if aud && again then s.owe site 4 else s
    let s := { s with disag := s.disag ++ [(site, other, s.frame)] }
    s.abortStep st 0x0A

/-- Failures of a core within 256 frames (R376). -/
def State.recentFails (s : State) (site : Nat) : Nat :=
  ((s.core site).fails.filter (fun f => decide (s.frame ≤ f + 256))).length

/-- A slot of the running batch changed. -/
def Running.modSlot (b : Running) (i : Nat) (f : SlotRec → SlotRec) : Running :=
  { b with slots := (b.slots.zip (List.range b.slots.length)).map (fun (r, j) => if j = i then f r else r) }

/-- The slots of a batch that a failed check flags: those whose step-end has not retired (R367). -/
def Running.clear (b : Running) : List SlotRec := b.slots.filter (fun r => !r.ended && r.suspect == 0)

/-- Those slots flagged with a cause. -/
def Running.flag (b : Running) (cause : Nat) : Running :=
  { b with slots := b.slots.map (fun r => if r.ended || r.suspect != 0 then r else { r with suspect := cause }) }

/-- Whether a batch is another member's part of a spanning act's batch, and no replay. -/
def Running.partOf (b c : Running) : Bool := c.act == b.act && c.frame == b.frame && !c.replay

/-- A core's parts of a batch, running or staged behind the one that runs. -/
def Core.partsOf (c : Core) (b : Running) : List Running := (c.batch.toList ++ c.queued.map Ready.run).filter b.partOf

/-- Those parts flagged. -/
def Core.flagParts (c : Core) (b : Running) (cause : Nat) : Core :=
  { c with
    batch := c.batch.map (fun x => if b.partOf x then x.flag cause else x)
    queued := c.queued.map (fun q => if b.partOf q.run then { q with run := q.run.flag cause } else q) }

/-- The unended steps of a spanning act's batch on its other members flagged, those not yet staged among them (R367): the state and their
streams. -/
def State.flagSpan (s : State) (site : Nat) (b : Running) (cause : Nat) : State × List Nat :=
  if !actSpan (s.act b.act) then (s, [])
  else
    let far := s.cores.filter (fun p => p.1 != site)
    let waits (st : Step) : Bool := st.act == b.act && st.frame == b.frame && st.phase == .accepted && st.suspect == 0
    ({ s with
        cores := s.cores.map (fun (k, c) => if k = site then (k, c) else (k, c.flagParts b cause))
        steps := s.steps.map (fun (st : Step) => if waits st then { st with suspect := cause } else st) },
      (far.flatMap (fun p => (p.2.partsOf b).flatMap Running.clear)).map SlotRec.stream ++ (s.steps.filter waits).map Step.stream)

/-- A failed check beside the arithmetic (R184, R367): the frame enters the core's failure history (R376), and every step
of its batch whose step-end has not retired is flagged suspect, counted and reported; a replay's fail instead (R373). The
cause is 0x10 for a matrix checksum and 0x11 for a residue check (R368). -/
def State.suspectBatch (s : State) (site cause : Nat) : State :=
  let d := dieOf site
  let s := s.modCore site (fun c => { c with fails := c.fails ++ [s.frame] })
  let s := if max 1 (s.fld d CHK_QUAR_LIMIT) ≤ s.recentFails site then s.owe site 3 else s
  let s := if cause = 0x11 then s.integrity d CHK_EVENT_RESIDUE site noStream cause else s
  match (s.core site).batch with
  | none => s
  | some b =>
    let hit := b.clear
    let s := s.modCore site (fun c => { c with batch := some (b.flag cause) })
    if b.replay then
      hit.foldl (fun s r =>
        match s.stepOf r.stream with
        | some st => if st.phase = .replaying then s.replayFail site st else s
        | none => s) s
    else
      let (s, far) := s.flagSpan site b cause
      match hit.map SlotRec.stream ++ far with
      | [] => s
      | x :: l => (s.count 4 d (if cause = 0x11 then 2 else 1) 32 (1 + l.length)).integrity d CHK_EVENT_SUSPECT site x cause

/-- A drain (R170, R183, R184): DIRTY cleared, the comparison made, a failure counted, raised and its steps flagged. -/
def State.drain (s : State) (site a : Nat) : State :=
  let c := s.core site
  let (x, s) := s.fresh
  let ok := (c.accum a).clean c.mxTol (x % 2 == 1)
  let s := s.modAcc site a (fun y => y.setDirty false)
  if ok then s
  else
    let s := s.modCore site (fun c => { c with mxCnt := satAdd 16 c.mxCnt 1, mxLast := a })
    (s.raise (dieOf site) 677).suspectBatch site 0x10

-- the step-end and the batch-end

/-- STEPEND and STEPENDC (R151): the slot is handed to the stream director. A replay is compared at once (R373). -/
def State.endSlot (s : State) (site i len : Nat) (cont : Bool) : State :=
  match (s.core site).batch with
  | none => s
  | some b =>
    let b := b.modSlot i (fun r => { r with ended := true, payload := len, cont := cont })
    let s := s.modCore site (fun c => { c with batch := some b })
    match b.slots[i]? with
    | none => s
    | some r =>
      if b.replay then
        let s := s.modCore site (fun c => { c with batch := c.batch.map (fun b =>
          b.modSlot i (fun r => { r with struck := true })) })
        match s.stepOf r.stream with
        | some st => if st.phase = .replaying then s.replayEnd site st r else s
        | none => s
      else s

/-- Stage areas of batches that are over and wholly struck released, oldest first (R80). -/
def State.freeStage (s : State) (site : Nat) : Nat → State
  | 0 => s
  | n + 1 =>
    match (s.core site).ended with
    | b :: t =>
      if b.slots.all SlotRec.struck then
        let s := s.modCore site (fun c => { c with ended := t })
        (if b.claimed = 0 then s else s.crRelease site (actStgReg (s.act b.act)) b.claimed).freeStage site n
      else s
    | [] => s

/-- Sum of a thread counter's increase in a batch over the threads of its context (R209). A counter written lower in
between counts from 0 (DEDUCED, log 21). -/
def Running.increase (b : Running) (c : Core) (f : Thread → Nat) (g : Nat × Nat × Nat → Nat) : Nat :=
  ((threads.zip b.num0).map (fun (t, n) => if c.th[t].ctx = b.ctx then f c.th[t] - g n else 0)).foldl (· + ·) 0

/-- Numeric totals of an act on a die for the frame increased (R209). -/
def State.addTotals (s : State) (d act sat flush nan : Nat) : State :=
  if s.numTot.any (fun (e, a, _) => e == d && a == act) then
    { s with numTot := s.numTot.map (fun (e, a, x, y, z) =>
        if e = d ∧ a = act then (e, a, satAdd 32 x sat, satAdd 32 y flush, satAdd 32 z nan) else (e, a, x, y, z)) }
  else { s with numTot := s.numTot ++ [(d, act, sat, flush, nan)] }

/-- An understudy that neither prepares nor replays stays halted (R371): its threads halt, the waits of those that wait given up, but for a send
under way. -/
def State.restUnd (s : State) (site : Nat) : State :=
  let c := s.core site
  if c.role = .understudy ∧ c.batch.isNone ∧ c.placed.isEmpty ∧ c.queued.isEmpty then
    threads.foldl (fun s t => (s.setHalt site t true).modThr site t (fun x =>
      match x.wait with
      | some w =>
        match w.kind with
        | .qsend _ _ => x
        | _ => { x with
          bun := none
          wait := none }
      | none => x)) s
  else s

/-- BATCHEND (R152, R209): slots with no step-end are aborted, the totals taken, the budget stops and the stage registers
become 0. A replay's step that a failed check has carried already is not aborted again (R373). -/
def State.endBatch (s : State) (site : Nat) : State :=
  let c := s.core site
  match c.batch with
  | none => s
  | some b =>
    let s := (b.slots.filter (fun r => !r.ended && !r.struck)).foldl (fun s r =>
      match s.stepOf r.stream with
      | some st => if st.phase = (if b.replay then StepPhase.replaying else .running) then s.abortStep st 0x02 else s
      | none => s) s
    let s := if b.replay then s else
      s.addTotals (dieOf site) b.act (b.increase c (fun x => x.numSat.toNat) (fun n => n.1))
        (b.increase c (fun x => x.numFlush.toNat) (fun n => n.2.1)) (b.increase c (fun x => x.numNan.toNat) (fun n => n.2.2))
    let b := { b with slots := b.slots.map (fun r => if r.ended then r else { r with struck := true }) }
    let s := s.modCore site (fun c => { c with batch := none, ended := c.ended ++ [b], stgCount := 0 })
    (s.freeStage site ((s.core site).ended.length)).restUnd site

end Sys2Proof.Machine
end

