-- ==== Sys2Proof/Machine/Bundle.lean ====
section
/-! DEFINITION. Bundles: when a thread is ready, how operations gather into a bundle, the fault a bundle records, its waits
and its retirement (R90, R120 to R129, R138 to R141, R292, R293, R327, R331). -/

namespace Sys2Proof.Machine

/-- What a residue check beside the arithmetic found (R367): a mismatch flags the batch when the bundle retires. -/
def suspectIf (i : Iss) : List Eff := if i.residue then [.suspect] else []

/-- What an operation answers when it is evaluated: it must wait, it faults, or it has effects at retirement. -/
inductive Plan where
  | stall
  | bad (f : Flt)
  | ok (l : List Eff)
  deriving DecidableEq, Repr

/-- The refusals that an operation's access to its own scratchpad counts (R231). -/
def State.metEff (s : State) (i : Iss) (off n : Nat) : List Eff :=
  let m := s.confOf i.site off n ⟨.n, i.met⟩
  if m = 0 then [] else [.conf m]

/-- A slot as svN.st records it (R330). -/
def Slot.num : Slot → Nat
  | .S => 0
  | .V => 1
  | .M => 2
  | .T => 3

/-- An operation read for its bundle: the thread, prefixes and stop bit it came with, its slot, the prefixes it accepts, the M-slot code
of R164, the registers it reads or writes whose pending loads hold it (R127), the registers it names as its destination, numbered as
Eff.writes numbers them (R123), what it comes to, and a tile's row that it reads and that holds a byte beyond correction (R155). -/
structure Op where
  iss : Iss
  slot : Slot
  acc : Accepts
  code : Option Nat
  regs : List Nat
  dst : List Nat
  plan : Plan
  spoilt : Option (Nat × Nat)
  deriving DecidableEq, Repr

/-- A whole bundle evaluated: where it begins, its syllables and slots, its operations' effects and faults, whether a long tile
operation is among them, the registers it writes, and the bundle as it was fetched. -/
structure Bun where
  start : BitVec 16
  syl : Nat
  slots : List Slot
  effs : List Eff
  faults : List (Slot × Flt)
  hasLong : Bool
  writes : List Nat
  src : Fetched
  deriving DecidableEq, Repr

/-- A bundle of no operation yet, at a PC. -/
def Fetched.start_ (pc : BitVec 16) : Fetched := ⟨pc, 0, [], []⟩

/-- Registers an effect writes, numbered: s0-s15 at 0, v0-v15 at 16, p0-p3 at 32, bk0-bk7 at 40, state register n of thread
u at 64 + 4n + u (R123). -/
def Eff.writes (t : Fin 4) : Eff → List Nat
  | .s r _ => [r.val]
  | .v r _ => [16 + r.val]
  | .p r _ => [32 + r.val]
  | .bank b _ => [40 + b.val]
  | .streg n u _ => [64 + 4 * n + u.val]
  | .push _ => [15]
  | .loopStart k _ _ _ =>
    [64 + 4 * (0x30 + k.val) + t.val, 64 + 4 * (0x32 + 2 * k.val) + t.val, 64 + 4 * (0x33 + 2 * k.val) + t.val,
     64 + 4 * 0x36 + t.val]
  | .load l => [l.dst]
  | .wait w => if w.dst < 16 then [w.dst] else []
  | .cueArm _ _ => [64 + 4 * 0xB1 + t.val]
  | .cueDisarm => [64 + 4 * 0xB1 + t.val]
  | _ => []

/-- Whether a write of a state register is an effect: it comes after every other effect of its bundle (R128). -/
def Eff.isStreg : Eff → Bool
  | .streg _ _ _ => true
  | _ => false

/-- The effects of a bundle, its writes of state registers last: the bundle runs under the old values (R128). -/
def stregLast (l : List Eff) : List Eff := l.filter (fun e => !e.isStreg) ++ l.filter Eff.isStreg

/-- Whether an effect is a trap or a return, which a long tile operation of its bundle comes before (R125, R331; log 42). -/
def Eff.leaves : Eff → Bool
  | .trap _ _ => true
  | .eret _ => true
  | _ => false

/-- Whether an effect starts a long tile operation (R163). -/
def Eff.isLong : Eff → Bool
  | .long _ => true
  | _ => false

/-- The queue an effect closes (R305). -/
def Eff.closes : Eff → Option Nat
  | .qclose q => some q
  | _ => none

/-- Whether two operations of a bundle write one register (R123). -/
def hasDup : List Nat → Bool
  | [] => false
  | a :: t => t.contains a || hasDup t

-- when a thread may issue

/-- Whether a core's batch is a replay that the thread serves: it ignores debug (R342, R370). -/
def State.replaying (s : State) (site : Nat) (t : Fin 4) : Bool :=
  match (s.core site).batch with
  | some b => b.replay && b.ctx == (s.thr site t).ctx
  | none => false

/-- Whether the thread's next bundle begins at an enabled comparator naming it (R343). -/
def State.bpMatch (s : State) (site : Nat) (t : Fin 4) : Bool :=
  let x := s.thr site t
  s.rehearsal x.ctx && !s.replaying site t &&
  (List.range 4).any (fun k => s.cflag site (CFG_CORE_DBG_BP_EN k) && bitOf (s.cfld site (CFG_CORE_DBG_BP_THREADS k)) t.val &&
    s.cfld site (CFG_CORE_DBG_BP_PC k) == x.pc.toNat)

/-- Whether a thread takes its interrupt at this boundary (R334). -/
def State.interrupted (s : State) (site : Nat) (t : Fin 4) : Bool :=
  let x := s.thr site t
  bitOf (s.cfld site CFG_CORE_SWI_SWI) t.val && bitOf (s.core site).trapCtl.toNat t.val && x.level == .l0 &&
  !s.halted site t && !x.dbgStop && !x.stepping

/-- Whether thread 0 enters L1 for a delivery at this boundary (R327). -/
def State.delivered (s : State) (site : Nat) (t : Fin 4) : Bool :=
  decide (t = 0) && (s.thr site t).level == .l0 && (s.core site).trapPend != 0

/-- Whether a refresh burst keeps the batch's threads from issuing (R57). -/
def State.bursting (s : State) (site : Nat) (t : Fin 4) : Bool :=
  s.refreshOn && match (s.core site).batch with
  | some b => b.ctx == (s.thr site t).ctx
  | none => false

/-- Whether a thread may issue (R90, R163, R246, R293, R327, R329, R334, R343). A step of thread 0 issues its bundle whatever is delivered: the
entry waits, as an interrupt does (DEDUCED, log 42). -/
def State.ready (s : State) (site : Nat) (t : Fin 4) : Bool :=
  let x := s.thr site t
  s.present site && !s.gated site && !s.halted site t && x.wait.isNone && x.long.isNone && !x.l2wait && (!x.dbgStop || x.stepping) &&
  !(x.hold.any s.cmdOpen) && !s.interrupted site t && (!s.delivered site t || x.stepping) && !s.bursting site t &&
  (x.bun.isSome || x.bpSkip || !s.bpMatch site t)

-- faults

/-- CFG_CORE_DBG_WHY of a thread (R343). -/
def State.setWhy (s : State) (site : Nat) (t : Fin 4) (k : Nat) : State :=
  s.setCfld site CFG_CORE_DBG_WHY_WHY (setBits (s.cfld site CFG_CORE_DBG_WHY_WHY) (4 * t.val) 4 k)

/-- A thread stopped under debug (R343). -/
def State.dbgHalt (s : State) (site : Nat) (t : Fin 4) (why : Nat) : State :=
  (s.modThr site t (fun x => { x with dbgStop := true, stepping := false })).setWhy site t why

/-- The end of a single step, if one was under way; the comparator matches again from the next bundle (R343). -/
def State.stepDone (s : State) (site : Nat) (t : Fin 4) : State :=
  let s := s.modThr site t (fun x => { x with bpSkip := false })
  if (s.thr site t).stepping then s.dbgHalt site t 4 else s

/-- A bundle that faults (R124, R328): nothing of it retires, the cause is taken with RETRY 1. The error of a line's fetch has been told
with it. -/
def State.faultBundle (s : State) (site : Nat) (t : Fin 4) (slot : Nat) (f : Flt) : State :=
  let s := match f.loc with
    | some g => s.unmappedAt (dieOf site) g
    | none => s
  let s := s.modCore site (fun c => { c with lineErr := none })
  (s.takeTrap site t ⟨f.cause, f.addr, f.tcode, if f.decode then 0 else slot, f.decode, true, false⟩).stepDone site t

/-- The oldest error or poison that arrived with a load's data, taken at a boundary (R331). -/
def State.takeLate (s : State) (site : Nat) (t : Fin 4) (cause ea : Nat) : State :=
  let s := s.modThr site t (fun x => { x with late := x.late.tail })
  (s.takeTrap site t ⟨cause, ea, 0, 3, false, false, true⟩).stepDone site t

/-- The fault a bundle records (R124): decode faults first, then slots S, V, M and T. -/
def firstFault (l : List (Slot × Flt)) : Option (Slot × Flt) :=
  match l.find? (fun p => p.2.decode) with
  | some p => some p
  | none =>
    match l.find? (fun p => p.1 == .S), l.find? (fun p => p.1 == .V), l.find? (fun p => p.1 == .M) with
    | some p, _, _ => some p
    | none, some p, _ => some p
    | none, none, some p => some p
    | none, none, none => l.find? (fun p => p.1 == .T)

-- loops

/-- lcK, lpK.beg and lpK.end of a thread. -/
def Thread.loopRegs (x : Thread) (k : Nat) : Nat × BitVec 16 × Nat :=
  if k = 0 then (x.lc0.toNat, BitVec.ofNat 16 x.lp0beg.toNat, x.lp0end.toNat)
  else (x.lc1.toNat, BitVec.ofNat 16 x.lp1beg.toNat, x.lp1end.toNat)

/-- Whether loop k is active and ends at a bundle. -/
def Thread.loopEnds (x : Thread) (k : Nat) (start : BitVec 16) : Bool :=
  bitOf x.lpctl.toNat k && (x.loopRegs k).2.2 == start.toNat

/-- Whether a bundle is the last of an active loop (R140). -/
def Thread.atLoopEnd (x : Thread) (start : BitVec 16) : Bool := x.loopEnds 0 start || x.loopEnds 1 start

/-- One loop's evaluation at its last bundle: the PC if it goes round, and the loop registers it changes (R139). -/
def Thread.loopStep (x : Thread) (start : BitVec 16) (acc : Option (BitVec 16) × List (Nat × Word) × Nat) (k : Nat) :
    Option (BitVec 16) × List (Nat × Word) × Nat :=
  let (pc, w, ctl) := acc
  if pc.isNone && x.loopEnds k start then
    let (lc, beg, _) := x.loopRegs k
    if 1 < lc then (some beg, w ++ [(0x30 + k, BitVec.ofNat 32 (lc - 1))], ctl)
    else (none, w ++ [(0x30 + k, 0)], setBits ctl k 1 0)
  else acc

/-- The loop-back of a bundle (R139): the loop started more recently first. -/
def Thread.loopBack (x : Thread) (start : BitVec 16) : Option (BitVec 16) × List (Nat × Word) :=
  let newer := b2n (bitOf x.lpctl.toNat 2)
  let (pc, w, ctl) := [newer, 1 - newer].foldl (x.loopStep start) (none, [], x.lpctl.toNat)
  (pc, if ctl = x.lpctl.toNat then w else w ++ [(0x36, BitVec.ofNat 32 ctl)])

/-- Loop registers written by a loop-back. -/
def Thread.setLoops (x : Thread) (l : List (Nat × Word)) : Thread :=
  l.foldl (fun x (n, w) =>
    if n = 0x30 then { x with lc0 := w } else if n = 0x31 then { x with lc1 := w } else { x with lpctl := w }) x

-- effects

/-- A return index pushed (R135). -/
def State.pushSs (s : State) (site : Nat) (t : Fin 4) (ret : BitVec 16) : State :=
  let x := s.thr site t
  match x.ss with
  | old :: rest =>
    if 64 ≤ x.ss.length then
      let s := s.setBytes (x.spillAddr site x.spilled) (leBytes 2 old.toNat)
      s.modThr site t (fun x => { x with ss := rest ++ [ret], ssDepth := x.ssDepth + 1 })
    else s.modThr site t (fun x => { x with ss := x.ss ++ [ret], ssDepth := x.ssDepth + 1 })
  | [] => s.modThr site t (fun x => { x with ss := [ret], ssDepth := x.ssDepth + 1 })

/-- The newest return index popped (R135, R136). -/
def Thread.popSs (x : Thread) : Thread := { x with ss := x.ss.dropLast, ssDepth := x.ssDepth - 1 }

/-- LOOP's registers (R138). -/
def Thread.startLoop (x : Thread) (k : Fin 2) (beg last : BitVec 16) (count : Word) : Thread :=
  let b : Word := BitVec.ofNat 32 beg.toNat
  let e : Word := BitVec.ofNat 32 last.toNat
  let ctl := setBits x.lpctl.toNat k.val 1 (b2n (count != 0))
  let ctl := if count = 0 then ctl else setBits ctl 2 1 k.val
  let x := { x with lpctl := BitVec.ofNat 32 ctl }
  if k = 0 then { x with lc0 := count, lp0beg := b, lp0end := e } else { x with lc1 := count, lp1beg := b, lp1end := e }

/-- A DMA command queued on a core channel by DMAGO (R310, R313, R314), part of the act whose batch runs. -/
def State.dmaIssue (s : State) (site : Nat) (t : Fin 4) (c : Fin 2) (desc : BitVec 512) : State :=
  let (id, s) := s.newCmd
  let x := s.thr site t
  let cmd : DmaCmd := ⟨desc, (s.core site).chans[c].next, t.val, x.ctx, s.actOf site, id, x.obs, 0, [], none, none, s.now⟩
  let push (k : Chan) : Chan := { k with queue := k.queue ++ [cmd], next := (k.next + 1) % 65536 }
  let s := s.modCore site (fun k => { k with chans := k.chans.set c (push k.chans[c]) })
  s.modThr site t (fun x => x.observe [id])

/-- A signal to a core of this module whose counter the issuer translated, or to another (R288, R289). -/
def State.sendCue (s : State) (site : Nat) (t : Fin 4) (counter : Option Nat) (word handle inc : Nat) : State :=
  let x := s.thr site t
  match counter with
  | some c => s.signal ⟨site, some c, handle, x.ctx, false, inc, x.obs, 0⟩
  | none => s.cueSend (some site) (dieOf site) (s.actOf site) word handle x.ctx inc x.obs

/-- A memory-side operation queued (R234, R236); one of length 0 signals its cue at once. -/
def State.memIssue (s : State) (site : Nat) (t : Fin 4) (fill : Bool) (dst src len : Nat) (pat : Word) (cue : Option Nat) :
    State :=
  let x := s.thr site t
  if len = 0 then
    match cue with
    | some h => s.signal ⟨site, (s.cueMap site x.ctx h).map Prod.fst, h, x.ctx, false, 1, x.obs, 0⟩
    | none => s
  else
    let (id, s) := s.newCmd
    let op : MemOp := ⟨id, fill, dst, src, len, pat, cue, x.ctx, t.val, x.obs, none, 0⟩
    let s := s.modCore site (fun c => { c with memOps := c.memOps ++ [op] })
    s.modThr site t (fun x => x.observe [id])

/-- A store of a bundle (R243, R275): into the own scratchpad at once, into a cache line, or on its way as a command. A TSTS of poisoned rows
moves their poison (R165, R168). -/
def State.storeTo (s : State) (site : Nat) (t : Fin 4) (loc : Nat) (own cached : Bool) (b : List Byte) (psn : Bool) : State :=
  if own then s.padWrite site loc b psn
  else if cached then
    let s := s.cacheStore site t loc b
    if psn then s.modCore site (fun c => c.spoilLine loc) else s
  else s.threadWrite site t loc b psn false

/-- A write of accumulator row m from two vectors, the lines matched (R170). An empty accumulator stays empty and unowned: R169 and R170 do not
say that the write fills it (DESIGN CHOICE, log 54). -/
def Acc32.writeRow (a : Acc32) (m : Nat) (x y : Vec) : Acc32 :=
  let a := (List.range a.ncols).foldl (fun (a : Acc32) n =>
    a.set_ m n (BitVec.ofNat 32 (if n < 16 then elemAt 32 x.toNat n else elemAt 32 y.toNat (n - 16)))) a
  a.matchLines m

/-- The next line prefetched at a demand miss (R244): unless it is present or on its way, lies in another bank window or fails R103's
checks, or the prefetch slot is taken. It raises no fault. -/
def State.prefetch (s : State) (site : Nat) (t : Fin 4) (g : Nat) : State :=
  let a := g / 64 * 64 + 64
  let c := s.core site
  if decide (a % 2 ^ 29 = 0) || (c.line a).isSome || c.filling a || c.ahead.isSome || !s.lineAllowed (s.thr site t).ctx a needR ||
    !s.cacheable site a then s
  else
    let take (s : State) : State := s.modCore site (fun c => { c with ahead := some a })
    if s.isLocal a || s.lineHeld site a then take s
    else
      match s.fabRead (.fill site a) (s.actOf site) (s.thr site t).ctx a 64 with
      | (s, .sent _) => take s
      | (_, .ended _) => s

/-- A demand miss under way (R244): counted, its line outstanding, and the next line prefetched. -/
def State.startMiss (s : State) (site : Nat) (t : Fin 4) (g : Nat) : State :=
  ((s.countMiss site).modCore site (fun c =>
    { c with
      demand := some (g / 64 * 64)
      lineErr := none })).prefetch site t g

/-- A load or atomic added to those its thread waits for. -/
def State.pushLoad (s : State) (site : Nat) (t : Fin 4) (l : Load) : State :=
  s.modThr site t (fun y => { y with loads := y.loads ++ [l] })

/-- A cache miss of a load that retires (R244): a line on its way already is waited for; otherwise the miss starts, over the fabric for
another node's line once nothing holds it (R278). -/
def State.startCached (s : State) (site : Nat) (t : Fin 4) (l : Load) : State :=
  let a := l.loc / 64 * 64
  if (s.core site).filling a then s.pushLoad site t l
  else if s.isLocal l.loc || s.lineHeld site a then (s.startMiss site t a).pushLoad site t l
  else
    match s.fabRead (.fill site a) (s.actOf site) (s.thr site t).ctx a 64 with
    | (s, .sent _) => (s.startMiss site t a).pushLoad site t l
    | (s, .ended st) => s.pushLoad site t { l with resp := some ([], false, st) }

/-- A thread's read or atomic of another node's bytes offered to the fabric, with the load that waits for it (R147, R354). -/
def State.askFar (s : State) (site : Nat) (t : Fin 4) (l : Load) : State × Load :=
  let q := s.fabReq (if l.kind.atomic then .atomicAdd else .read) (s.thr site t).ctx l.loc l.kind.size
  let q := if l.kind.atomic then { q with data := leBytes 4 l.opnd.toNat } else q
  let s := if l.kind.atomic then s.carry (s.actOf site) (dieOf site) (s.homeDie l.loc) 4 else s
  match s.fabSendMsg (.load site t.val) (s.actOf site) l.loc q with
  | (s, .sent tag) => (s, { l with tag := some tag })
  | (s, .ended st) => (s, { l with resp := some ([], false, st) })

/-- A load or atomic that retires (R127, R275): an atomic away from the core is a command; one to another node leaves over
the fabric, a cache miss as the read of its line, once no write of the thread's and no write-back of the line is on its way (R147, R277, R278). -/
def State.startLoad (s : State) (site : Nat) (t : Fin 4) (l : Load) : State :=
  if l.resp.isSome then s.pushLoad site t l
  else if l.cached then s.startCached site t l
  else
    let id := s.nextCmd
    let l := if l.kind.atomic then { l with cmd := id } else l
    let s := if l.kind.atomic then
        { s with nextCmd := id + 1 }.modThr site t (fun y => y.observe [id])
      else s
    if s.isLocal l.loc || s.readHeld site t l.loc l.kind.size false then s.pushLoad site t l
    else
      let (s, l) := s.askFar site t l
      s.pushLoad site t l

/-- Refusals on shared banks counted in sp.conf (R231). -/
def State.countConf (s : State) (site n : Nat) : State :=
  s.setCfld site SP_CONF_COUNT (satAdd 32 (s.cfld site SP_CONF_COUNT) n)

/-- One effect of a retiring bundle. Transfers of control, waits, traps and debug stops are the bundle's own. -/
def State.apply (s : State) (site : Nat) (t : Fin 4) (e : Eff) : State :=
  match e with
  | .s r x => s.modThr site t (fun y => { y with s := y.s.set r x })
  | .v r x => s.modThr site t (fun y => { y with v := y.v.set r x })
  | .p r x => s.modThr site t (fun y => { y with p := y.p.set r x })
  | .bank b x => s.modThr site t (fun y => { y with bk := y.bk.set b x })
  | .streg n u x =>
    let id := s.nextCmd
    let s := s.mts site t u n x.toNat
    if n = 0x084 then
      s.modThr site t (fun y => { y with hold := (List.range (s.nextCmd - id)).map (fun i => id + i) })
    else s
  | .seedStep u => s.modThr site u Thread.seedAdvance
  | .push ret => (s.modThr site t (fun y => { y with s := y.s.set 15 (BitVec.ofNat 32 ret.toNat) })).pushSs site t ret
  | .pop => s.modThr site t Thread.popSs
  | .loopStart k b e n => s.modThr site t (fun y => y.startLoop k b e n)
  | .suspect => s.suspectBatch site 0x11
  | .conf n => s.countConf site n
  | .store loc own cached b psn => s.storeTo site t loc own cached b psn
  | .seen l => s.modThr site t (fun y => y.observe l)
  | .load l => s.startLoad site t l
  | .dc op g => s.dcOp site t op g
  | .tcfg n w => s.modTile site n (fun k =>
      ({ k with cfg := BitVec.ofNat 32 (setBits k.cfg.toNat 0 16 w) }).own (s.thr site t).ctx)
  | .trel n => s.modTile site n (fun _ => Tile.reset)
  | .twr n row x => s.modTile site n (fun k =>
      (k.own (s.thr site t).ctx).setRow row x.toNat false)
  | .tza a w => s.modAcc site a (fun _ => zeroedAcc w (s.thr site t).ctx)
  | .twa a row x y => s.modAcc site a (fun k => k.writeRow row x y)
  | .drained a => s.drain site a
  | .scaleSet n b => s.modTile site n (fun k =>
      { k.own (s.thr site t).ctx with scale := BitVec.ofNat 1024 (setBits k.scale.toNat 0 (8 * b.length) (leNat b)) })
  | .long o => s.modThr site t (fun y => { y with long := some o })
  | .cueSignal c word h inc => s.sendCue site t c word h inc
  | .cueTake c => s.cueTake site t c
  | .cueArm h c =>
    s.modThr site t (fun y =>
      let y :=
        { y with
          cueArm := BitVec.ofNat 32 (2 ^ 31 + h)
          armed := some c }
      if s.cueCount site c = 0 then y else y.pendSet 0)
  | .cueDisarm => s.modThr site t (fun y =>
      { y with
        cueArm := BitVec.ofNat 32 (setBits y.cueArm.toNat 31 1 0)
        armed := none })
  | .stage ws => s.modThr site t (fun y => { y with staging := y.staging ++ ws })
  | .qrelease q => s.qRelease site q
  | .qclose q => s.qClose site q
  | .qopen q => s.qOpen site q
  | .dmago c desc => s.dmaIssue site t (Fin.ofNat 2 c) desc
  | .mem fill dst src len pat cue => s.memIssue site t fill dst src len pat cue
  | .stepEnd i len cont => s.endSlot site i len cont
  | .batchEnd => s.endBatch site
  | .counts _ _ _ => s
  | .gens _ => s
  | .jump _ => s
  | .wait _ => s
  | .trap _ _ => s
  | .brkStop => s
  | .eret _ => s

/-- Counts and generator steps of a bundle, made after its register writes (R208). -/
def State.applyNum (s : State) (site : Nat) (t : Fin 4) (e : Eff) : State :=
  match e with
  | .counts a b c => s.modThr site t (fun y => y.addCounts ⟨a, b, c⟩)
  | .gens l => s.modThr site t (fun y => l.foldl (fun y (i, g) => y.setGen i g) y)
  | _ => s

/-- A return by ERET (R332). -/
def State.eret (s : State) (site : Nat) (t u : Fin 4) : State :=
  if (s.thr site t).level = .l2 then s.modThr site t Thread.returnL2
  else if u = 0 then s.modThr site 0 (fun x => x.returnL1 (levelOf (bitsOf x.sv1.st.toNat 4 2)))
  else
    let s := s.modThr site u (fun x => x.returnL1 .l0)
    let s := s.modCore site (fun c => { c with trapPend := BitVec.ofNat 32 (setBits c.trapPend.toNat u.val 1 0) })
    s.setHalt site u false

/-- What follows a bundle's retirement: a trap, a debug stop, a return, a sleep (R150, R331, R332, R343). -/
def State.after (s : State) (site : Nat) (t : Fin 4) (e : Eff) : State :=
  match e with
  | .trap cause code => s.takeTrap site t ⟨cause, 0, code, 0, false, false, false⟩
  | .brkStop => s.dbgHalt site t 3
  | .eret u => s.eret site t u
  | .wait w =>
    if w.kind = .sleep then
      s.modThr site t (fun x => if x.pendBits &&& (x.maskBits ||| 2 ^ 4) = 0 then { x with wait := some w } else x)
    else s
  | _ => s

/-- The PC a bundle's transfer gives, if it holds one. -/
def jumpOf (l : List Eff) : Option (BitVec 16) :=
  l.findSome? (fun e => match e with | .jump pc => some pc | _ => none)

/-- Whether the bundle itself writes a loop register (R139). -/
def writesLoop (t : Fin 4) (l : List Eff) (n : Nat) : Bool :=
  l.any (fun e => match e with | .streg m u _ => m == n && u == t | _ => false)

/-- The batch's first bundle has issued: `bud.left` runs (R57). -/
def State.markStarted (s : State) (site : Nat) (t : Fin 4) : State :=
  s.modCore site (fun c => { c with batch := c.batch.map (fun b =>
    if b.ctx = c.th[t].ctx then { b with started := true } else b) })

/-- Where a long operation's bundle goes on once it is done (R125, R139): what its transfer or loop-back gave at first issue, which an
operation stopped and resumed keeps (log 42). -/
def Thread.going (x : Thread) (b : Bun) (pc : BitVec 16) (w : List (Nat × Word)) : Onward :=
  match x.after with
  | some o => if bitOf x.prog.toNat 31 ∧ o.start = b.start then o else ⟨b.start, pc, w, b.effs.filter Eff.leaves⟩
  | none => ⟨b.start, pc, w, b.effs.filter Eff.leaves⟩

/-- Retirement (R123, R139): every effect, then the PC and the loop-back decided on the values from before the bundle; a
long tile operation keeps them, and a trap or return beside it, until it is done (R125, R331). -/
def State.commit (s : State) (site : Nat) (t : Fin 4) (b : Bun) : State :=
  let x := s.thr site t
  let (back, w) := x.loopBack b.start
  let pc := (jumpOf b.effs).getD (back.getD (b.start + BitVec.ofNat 16 b.syl))
  let w := w.filter (fun (n, _) => !writesLoop t b.effs n)
  let s := s.markStarted site t
  let s := s.modThr site t (fun y => { y with bun := none, wait := none, hold := [], after := none })
  let s := (stregLast b.effs).foldl (fun s e => s.apply site t e) s
  let s := b.effs.foldl (fun s e => s.applyNum site t e) s
  let s := s.modThr site t (fun y =>
    if b.hasLong then { y with after := some (x.going b pc w) } else { y.setLoops w with pc := pc })
  let s := (b.effs.filter (fun e => !(b.hasLong && e.leaves))).foldl (fun s e => s.after site t e) s
  if b.hasLong then s else s.stepDone site t

-- waits

/-- How a wait fares when it is tried (R292, R300, R303, R315, R247): a message claimed and not yet written is held, whatever its
bound. -/
inductive WaitRes where
  | served (s : State) (status : Nat)
  | fault (f : Flt)
  | pend (s : State)
  | held (s : State)

/-- Whether write-backs of a core's lines are still in flight (R247), with the cache since turned off or not. -/
def State.cleaning (s : State) (site : Nat) : Bool :=
  s.inflight.any (fun w => w.back && (match w.req with | .thread st _ => st == site | _ => false))

/-- Whether ticket n of a channel is done (R315). -/
def State.ticketDone (s : State) (site : Nat) (c n : Nat) : Bool :=
  let d := (n + 65536 - s.cfld site (CDMA_COMP_LAST c)) % 65536
  d == 0 || decide (0x8000 ≤ d)

/-- Whether a channel is halted on ticket n or an earlier command (R315). -/
def Chan.haltedOn (c : Chan) (n : Nat) : Bool :=
  c.halt && match c.run with
  | some x => decide ((n + 65536 - x.ticket) % 65536 < 0x8000)
  | none => false

/-- Whether a channel is halted on a command of thread t. -/
def Chan.haltedFor (c : Chan) (t : Fin 4) : Bool :=
  c.halt && match c.run with
  | some x => x.th == t.val
  | none => false

/-- Words a bundle appends to the staging buffer. -/
def stageOf (l : List Eff) : List (BitVec 64) :=
  l.flatMap (fun e => match e with | .stage ws => ws | _ => [])

/-- Whether a thread's commit has been claimed in a queue and is not yet written (R300, R302). -/
def State.qClaimedBy (s : State) (dst q site : Nat) (t : Fin 4) : Bool :=
  ((s.core dst).qWriting[Fin.ofNat 8 q]).any (fun m => m.kind == 1 && m.site == site && m.th == t.val)

/-- A wait tried. A commit (R299, R300) is tried with the words staged and those of its own piece. -/
def State.tryWait (s : State) (site : Nat) (t : Fin 4) (effs : List Eff) (w : Wait) : WaitRes :=
  let x := s.thr site t
  match w.kind with
  | .sleep => .pend s
  | .cwait c => if s.cueCount site c = 0 then .pend s else .served (s.cueTake site t c) 0
  | .qrecv q =>
    let frees := effs.any (fun e => match e with | .qrelease p => p == q | _ => false)
    let s := if frees then s.qFreeUnits site q else s
    if !(s.cflag site (QQ_CFG_EN q)) then .served (if frees then s.qRelease site q else s) (2 * 2 ^ 30)
    else
      match s.qHead site q with
      | some m =>
        let r := s.qResult site q m
        let s := if frees then s.qRelease site q else s
        .served (s.qReceive site q t) r
      | none => if s.cflag site (QQ_CFG_CLOSED q) then .served s (2 * 2 ^ 30) else .pend s
  | .qsend dst q =>
    if s.qClaimedBy dst q site t then .held s
    else if bitOf x.syncCtl.toNat 1 && (!(s.cflag dst (QQ_CFG_EN q)) || s.cflag dst (QQ_CFG_CLOSED q)) then
      .fault ⟨0x14, (x.s[Fin.ofNat 16 w.dst]).toNat, 0, false, none⟩
    else
      match s.qTry dst q ⟨1, x.staging ++ stageOf effs, site, t.val, x.ctx, 0, 0, 0, x.obs⟩ with
      | (s, .status n) => .served s n
      | (s, .claimed) => .held s
      | (s, .full) => .pend s
  | .dma c n =>
    if s.ticketDone site c n then .served s 0
    else if ((s.core site).chans[Fin.ofNat 2 c]).haltedOn n then .served s 2
    else .pend s
  | .drain =>
    if s.drained site t then .served s 0
    else if (s.core site).chans[0].haltedFor t || (s.core site).chans[1].haltedFor t then .served s 2
    else .pend s
  | .batchEnd => if s.cleaning site then .pend s else .served s 0
  | .sent => .served s 0

/-- Whether a wait is a commit's (R299). -/
def WaitKind.sends : WaitKind → Bool
  | .qsend _ _ => true
  | .sent => true
  | _ => false

/-- Whether a wait receives from a queue (R303). -/
def WaitKind.receives : WaitKind → Bool
  | .qrecv _ => true
  | _ => false

/-- The waits of a bundle, but a SLEEP, taken out of it and the status put in. The staging is empty once a commit has ended, and a
message received has passed its release (R299, R304). -/
def finishEffs (l : List Eff) (w : Wait) (status : Nat) (got : Bool) : List Eff :=
  (l.filter (fun e =>
    match e with
    | .wait v => v.kind == .sleep
    | .stage _ => !w.kind.sends
    | .qrelease _ => !(got && w.kind.receives)
    | _ => true)) ++ (if w.dst < 16 then [.s (Fin.ofNat 16 w.dst) (BitVec.ofNat 32 status)] else [])

/-- A wait ended with a status: its bundle retires (R292, R293). -/
def State.finishWait (s : State) (site : Nat) (t : Fin 4) (b : Bun) (w : Wait) (status : Nat) : State :=
  let got := status / 2 ^ 30 == 0
  let s := if w.kind.sends then s.modThr site t (fun x => { x with staging := [] }) else s
  s.commit site t { b with effs := finishEffs b.effs w status got }

/-- The status a wait that reaches its bound ends with (R292, R300, R303, R315). -/
def WaitKind.timeout : WaitKind → Nat
  | .qrecv _ => 2 ^ 30
  | .qsend _ _ => 2
  | _ => 1

/-- A wait at its bound: a fault where TOF is 1, else its status (R292). -/
def State.waitOut (s : State) (site : Nat) (t : Fin 4) (b : Bun) (w : Wait) : State :=
  if bitOf (s.thr site t).syncCtl.toNat 0 then s.faultBundle site t 3 ⟨0x13, 0, 0, false, none⟩
  else s.finishWait site t b w w.kind.timeout

/-- Whether a wait's bound has come (R97, R292). -/
def State.bounded (s : State) (w : Wait) : Bool :=
  decide (w.frame ≠ s.frame) || (match w.bound with | some n => decide (n ≤ s.cycNow) | none => false)

/-- A wait that is not served keeps its bundle (R293); waits of a core are numbered in the order they start (R291). -/
def State.sleepOn (s : State) (site : Nat) (t : Fin 4) (b : Bun) (w : Wait) : State :=
  let n := (s.core site).waits
  match (s.thr site t).wait with
  | some old =>
    s.modThr site t (fun x =>
      { x with
        bun := some b.src
        wait := some (if old.kind = w.kind then old else { w with order := n }) })
  | none =>
    let s := s.modCore site (fun c => { c with waits := n + 1 })
    s.modThr site t (fun x =>
      { x with
        bun := some b.src
        wait := some { w with order := n } })

/-- The wait of a bundle other than a SLEEP and a BATCHEND's. -/
def waitOf (l : List Eff) : Option Wait :=
  l.findSome? (fun e => match e with
    | .wait w => if w.kind = .sleep ∨ w.kind = .batchEnd then none else some w
    | _ => none)

/-- The counter that a CWAIT waits on, or keeps while its bundle waits for something else (R288). -/
def Wait.counter (w : Wait) : Option Nat :=
  match w.kind with
  | .cwait c => some c
  | _ => w.keep

/-- The BATCHEND wait of a bundle. -/
def batchWait (l : List Eff) : Option Wait :=
  l.findSome? (fun e => match e with | .wait w => if w.kind = .batchEnd then some w else none | _ => none)

/-- A wait as it goes on: the one its thread began, where the thread sleeps on it already (R292). -/
def Thread.waiting (x : Thread) (w : Wait) : Wait :=
  match x.wait with
  | some old => if old.kind = w.kind ∨ old.kind = .sent then old else w
  | none => w

/-- A bundle with no write-back left to wait for: its other wait is tried, or it retires (R292, R293). -/
def State.tryBun (s : State) (site : Nat) (t : Fin 4) (b : Bun) : State :=
  match waitOf b.effs with
  | none => s.commit site t b
  | some w =>
    let w := (s.thr site t).waiting w
    match s.tryWait site t b.effs w with
    | .served s status => s.finishWait site t b w status
    | .fault f => s.faultBundle site t 3 f
    | .pend s => if s.bounded w then s.waitOut site t b w else s.sleepOn site t b w
    | .held s => s.sleepOn site t b w

/-- Whether an effect is a store into a line of the core's cache. -/
def Eff.cachedStore : Eff → Bool
  | .store _ _ cached _ _ => cached
  | _ => false

/-- A bundle without faults. A BATCHEND first cleans the cache, with the stores of its own bundle in it, and waits for its write-backs
(R247); once they have landed the rest of the bundle goes on. -/
def State.settleBun (s : State) (site : Nat) (t : Fin 4) (b : Bun) : State :=
  match batchWait b.effs with
  | none => s.tryBun site t b
  | some w =>
    let s := match (s.thr site t).wait with
      | none => (b.effs.filter Eff.cachedStore).foldl (fun (s : State) e => s.apply site t e) s
      | some _ => s
    let s := s.cleanAll site t
    if s.cleaning site then s.sleepOn site t b { w with keep := (waitOf b.effs).bind Wait.counter }
    else s.tryBun site t { b with effs := b.effs.filter (fun e => e != .wait w && !e.cachedStore) }

/-- Syllables of the bundle at a PC, to its first stop bit (R138); none where 16 carry no stop bit. -/
def Core.bundleLen (c : Core) (pc : BitVec 16) : Option Nat :=
  ((List.range 16).find? (fun i => (get 0 c.pm (pc + BitVec.ofNat 16 i).toNat).msb)).map (· + 1)

/-- What an effect becomes once the bundle's length is known: the return index of a call, and a LOOP's registers and skip
(R134, R138). -/
def Core.placeEff (c : Core) (next : BitVec 16) : Eff → List Eff
  | .push _ => [.push next]
  | .loopStart k _ off n =>
    let last := next + off
    if n = 0 then
      match c.bundleLen last with
      | some l => [.loopStart k next last n, .jump (last + BitVec.ofNat 16 l)]
      | none => [.loopStart k next last n]
    else [.loopStart k next last n]
  | e => [e]

/-- Whether a LOOP would skip a body whose last bundle carries no stop bit (R138). -/
def Core.loopLost (c : Core) (next : BitVec 16) : Eff → Bool
  | .loopStart _ _ off n => n == 0 && (c.bundleLen (next + off)).isNone
  | _ => false

/-- A whole bundle with its return index and loop placed. -/
def Core.place (c : Core) (b : Bun) : Bun :=
  let next := b.start + BitVec.ofNat 16 b.syl
  { b with
    effs := b.effs.flatMap (c.placeEff next)
    faults := b.faults ++ (if b.effs.any (c.loopLost next) then [(.S, illegalExec)] else []) }

/-- A whole bundle: its fault, or its retirement (R123, R124, R180). Two operations that write one register fault as its decode finds
them, whether or not one of them faults itself. -/
def State.retire (s : State) (site : Nat) (t : Fin 4) (b : Bun) : State :=
  let b := (s.core site).place b
  if hasDup b.writes then s.faultBundle site t 0 { illegalOperand with decode := true }
  else if bitOf (s.thr site t).prog.toNat 31 && !b.slots.contains .M then s.faultBundle site t 0 ⟨0x10, 0, 0, false, none⟩
  else
    match firstFault b.faults with
    | some (slot, f) => s.faultBundle site t slot.num f
    | none => s.settleBun site t b

-- operations as they join a bundle and as they are evaluated

/-- An operation read from its prefixes. -/
def Op.of (i : Iss) (slot : Slot) (acc : Accepts) (regs dst : List Nat) (plan : Pre → Plan) : Op :=
  { iss := i
    slot := slot
    acc := acc
    code := none
    regs := regs
    dst := dst
    plan := plan (Iss.pre i)
    spoilt := none }

/-- An operation as it runs in its bundle (R180): with progress to resume, only the long operation that was stopped does. -/
def Op.under (prog : Nat) (o : Op) : Op :=
  let code := bitsOf prog 28 3
  if !bitOf prog 31 then o
  else if o.slot != .M then { o with plan := .ok [], regs := [], dst := [] }
  else if decide (2 ≤ code) && o.code == some code then o
  else { o with plan := .bad ⟨0x10, 0, 0, false, none⟩, regs := [], dst := [] }

/-- What an operation does where it neither waits nor faults. -/
def Op.effs (o : Op) : List Eff :=
  match o.plan with
  | .ok l => l
  | _ => []

/-- The fault of an operation, with its slot. -/
def Op.flt (o : Op) : Option (Slot × Flt) :=
  match o.plan with
  | .bad f => some (o.slot, f)
  | _ => none

/-- Registers an operation writes: those of its effects, or, where it faults, those it names (R123). -/
def Op.writes (t : Fin 4) (o : Op) : List Nat :=
  match o.plan with
  | .ok l => l.flatMap (Eff.writes t)
  | _ => o.dst

/-- Whether an operation must wait: for itself, or for a load of a register it names (R127). -/
def Op.stuck (x : Thread) (o : Op) : Bool := o.plan == .stall || x.loads.any (fun l => o.regs.contains l.dst)

/-- A tile's row found beyond correction as an operation reads it (R155). -/
def Op.badRow (o : Op) : Option (Nat × Nat) :=
  match o.plan with
  | .ok _ => o.spoilt
  | _ => none

/-- A bundle of operations evaluated. -/
def bunOf (t : Fin 4) (f : Fetched) (ops : List Op) : Bun :=
  let effs := ops.flatMap Op.effs
  { start := f.start
    syl := f.syl
    slots := f.slots
    effs := effs
    faults := ops.filterMap Op.flt
    hasLong := effs.any Eff.isLong
    writes := ops.flatMap (Op.writes t)
    src := f }

/-- Rows of tiles poisoned (R155). -/
def State.spoilRows (s : State) (site : Nat) (l : List (Nat × Nat)) : State :=
  l.foldl (fun (s : State) (n, r) => s.modTile site n (fun k =>
    { k with psn := BitVec.ofNat 32 (setBits k.psn.toNat r 1 1) })) s

/-- A whole bundle issued (R123, R127): `eval` evaluates its operations. Where one must wait the bundle does; core state beyond correction
is a machine check (R363); a row of a tile beyond correction is poisoned, and the operations meet it so (R155). None: it did not issue. -/
def State.issueAll (s : State) (site : Nat) (t : Fin 4) (f : Fetched) (eval : State → List Op) : Option State :=
  let x := s.thr site t
  let run (s : State) : List Op := (eval s).map (Op.under x.prog.toNat)
  let ops := run s
  if ops.any (Op.stuck x) then none
  else
    match ops.find? (fun o => o.iss.broken), ops.filterMap Op.badRow with
    | some o, _ => some (s.faultBundle site t o.slot.num ⟨0x31, 0, 0, false, none⟩)
    | none, [] => some (s.retire site t (bunOf t f ops))
    | none, l =>
      let s := s.spoilRows site l
      some (s.retire site t (bunOf t f (run s)))

/-- Whether an operation cannot be decoded into the bundle (R120, R122). -/
def Fetched.clash (b : Fetched) (o : Op) : Bool :=
  let n := b.syl + o.iss.pfx.length + 1
  !(Iss.pre o.iss).legal o.acc || b.slots.contains o.slot || decide (16 < n) || (decide (n = 16) && !o.iss.stop)

/-- The bundle with one operation more. -/
def Fetched.add (b : Fetched) (n : Instr) (o : Op) : Fetched :=
  { b with
    syl := b.syl + o.iss.pfx.length + 1
    slots := b.slots ++ [o.slot]
    ops := b.ops ++ [n] }

/-- The bundle a thread is gathering, or a new one at its PC. -/
def Thread.bundle (x : Thread) : Fetched := x.bun.getD (Fetched.start_ x.pc)

end Sys2Proof.Machine
end

