-- ==== Sys2Proof/Machine/Scalar.lean ====
section
/-! DEFINITION. The scalar operations: class 0b000 and the immediate group of class 0b001 (R131, R132). -/

namespace Sys2Proof.Machine

/-- Prefixes of class 0b000 (R120). -/
def acceptsReg : Accepts := ⟨false, true, 0⟩

/-- Prefixes of class 0b001 (R120). -/
def acceptsImm : Accepts := ⟨true, false, 0⟩

/-- A scalar register of a thread. -/
def Thread.sreg (x : Thread) (r : Fin 16) : Word := x.s[r]

/-- The operands of class 0b000 (R131): sD and sA, or sA and sB with a REG prefix. -/
def Thread.scalarOps (x : Thread) (p : Pre) (d a : BitVec 3) : Word × Word :=
  if p.hasReg then (x.sreg (extReg p.ah a), x.sreg (Fin.ofNat 16 p.b)) else (x.sreg (extReg p.dh d), x.sreg (extReg p.ah a))

/-- A class 0b000 operation planned: REG.P must be 0. -/
def Thread.scalarPlan (x : Thread) (p : Pre) (d a : BitVec 3) (f : Word → Word → Word) (more : List Eff) : Plan :=
  if p.p ≠ 0 then .bad illegalOperand
  else
    let (u, v) := x.scalarOps p d a
    .ok (.s (extReg p.dh d) (f u v) :: more)

/-- Registers a class 0b000 operation names. -/
def scalarRegs (i : Iss) (d a : BitVec 3) : List Nat :=
  let p := Iss.pre i
  [(extReg p.dh d).val, (extReg p.ah a).val] ++ (if p.hasReg then [p.b] else [])

/-- A class 0b000 operation (R131). -/
def State.scalar (s : State) (i : Iss) (d a : BitVec 3) (more : List Eff) (f : Word → Word → Word) : Op :=
  .of i .S acceptsReg (scalarRegs i d a) [(extReg (Iss.pre i).dh d).val] (fun p => (s.thr i.site i.th).scalarPlan p d a f more)

/-- Shift amount: bits [4:0] of the shifting operand. -/
def shamt (v : Word) : Nat := v.toNat % 32

/-- MOV (R131): sA in both forms; with REG, B must be 0. -/
def opMov (i : Iss) (d a : BitVec 3) (s : State) : Op :=
  .of i .S acceptsReg (scalarRegs i d a) [(extReg (Iss.pre i).dh d).val] (fun p =>
    if p.p ≠ 0 ∨ p.b ≠ 0 then .bad illegalOperand
    else .ok [.s (extReg p.dh d) ((s.thr i.site i.th).sreg (extReg p.ah a))])

/-- ADD (R131). -/
def opAdd (i : Iss) (d a : BitVec 3) (s : State) : Op := s.scalar i d a (suspectIf i) (fun x y => x + y)

/-- SUB (R131). -/
def opSub (i : Iss) (d a : BitVec 3) (s : State) : Op := s.scalar i d a (suspectIf i) (fun x y => x - y)

/-- AND (R131). -/
def opAnd (i : Iss) (d a : BitVec 3) (s : State) : Op := s.scalar i d a [] (fun x y => x &&& y)

/-- OR (R131). -/
def opOr (i : Iss) (d a : BitVec 3) (s : State) : Op := s.scalar i d a [] (fun x y => x ||| y)

/-- XOR (R131). -/
def opXor (i : Iss) (d a : BitVec 3) (s : State) : Op := s.scalar i d a [] (fun x y => x ^^^ y)

/-- SHL (R131). -/
def opShl (i : Iss) (d a : BitVec 3) (s : State) : Op := s.scalar i d a [] (fun x y => x <<< shamt y)

/-- SHR (R131). -/
def opShr (i : Iss) (d a : BitVec 3) (s : State) : Op := s.scalar i d a [] (fun x y => x >>> shamt y)

/-- SAR (R131). -/
def opSar (i : Iss) (d a : BitVec 3) (s : State) : Op := s.scalar i d a [] (fun x y => x.sshiftRight (shamt y))

/-- MUL (R131). -/
def opMul (i : Iss) (d a : BitVec 3) (s : State) : Op := s.scalar i d a (suspectIf i) (fun x y => x * y)

/-- High 32 bits of a signed product. -/
def mulHigh (x y : Word) : Word := BitVec.ofInt 32 (x.toInt * y.toInt / 2 ^ 32)

/-- High 32 bits of an unsigned product. -/
def mulHighU (x y : Word) : Word := BitVec.ofNat 32 (x.toNat * y.toNat / 2 ^ 32)

/-- MULH (R131). -/
def opMulh (i : Iss) (d a : BitVec 3) (s : State) : Op := s.scalar i d a (suspectIf i) mulHigh

/-- MULHU (R131). -/
def opMulhu (i : Iss) (d a : BitVec 3) (s : State) : Op := s.scalar i d a (suspectIf i) mulHighU

/-- SLT (R131). -/
def opSlt (i : Iss) (d a : BitVec 3) (s : State) : Op := s.scalar i d a [] (fun x y => if x.slt y then 1 else 0)

/-- SLTU (R131). -/
def opSltu (i : Iss) (d a : BitVec 3) (s : State) : Op := s.scalar i d a [] (fun x y => if x.ult y then 1 else 0)

/-- MIN (R131). -/
def opMin (i : Iss) (d a : BitVec 3) (s : State) : Op := s.scalar i d a [] (fun x y => if x.slt y then x else y)

/-- MAX (R131). -/
def opMax (i : Iss) (d a : BitVec 3) (s : State) : Op := s.scalar i d a [] (fun x y => if x.slt y then y else x)

/-- An operation of the immediate group (R132): sD from sD and the immediate, signed, or unsigned for LIH. -/
def State.immediate (s : State) (i : Iss) (d : BitVec 4) (imm : BitVec 2) (f : Word → Pre → Nat → Word) : Op :=
  let r := Fin.ofNat 16 d.toNat
  .of i .S acceptsImm [r.val] [r.val] (fun p => .ok [.s r (f ((s.thr i.site i.th).sreg r) p imm.toNat)])

/-- An immediate of the group read signed (R118). -/
def signedImm (p : Pre) (imm : Nat) : Word := BitVec.ofNat 32 (p.immS imm 2)

/-- ADDI (R132). -/
def opAddi (i : Iss) (d : BitVec 4) (imm : BitVec 2) (s : State) : Op :=
  s.immediate i d imm (fun x p m => x + signedImm p m)

/-- LI (R132). -/
def opLi (i : Iss) (d : BitVec 4) (imm : BitVec 2) (s : State) : Op :=
  s.immediate i d imm (fun _ p m => signedImm p m)

/-- LIH (R132): the immediate is read unsigned (R118). -/
def opLih (i : Iss) (d : BitVec 4) (imm : BitVec 2) (s : State) : Op :=
  s.immediate i d imm (fun x p m => BitVec.ofNat 32 (p.immU m 2 % 2 ^ 16 * 2 ^ 16 + x.toNat % 2 ^ 16))

/-- ANDI (R132). -/
def opAndi (i : Iss) (d : BitVec 4) (imm : BitVec 2) (s : State) : Op :=
  s.immediate i d imm (fun x p m => x &&& signedImm p m)

end Sys2Proof.Machine
end

