-- ==== Sys2Proof/Machine/Branch.lean ====
section
/-! DEFINITION. Branches, calls, returns and hardware loops of class 0b001 (R132 to R141). -/

namespace Sys2Proof.Machine

/-- A transfer planned: it faults in the last bundle of an active loop (R140), and where a field marked 0 is not 0 (R132). -/
def State.transfer (s : State) (i : Iss) (z : Nat) (regs dst : List Nat) (body : Pre → Plan) : Op :=
  let x := s.thr i.site i.th
  .of i .S acceptsImm regs dst (fun p =>
    if x.atLoopEnd x.bundle.start then .bad illegalExec
    else if z ≠ 0 then .bad illegalOperand
    else body p)

/-- The target of an offset in syllables from the bundle's first syllable (R133). -/
def Thread.target (x : Thread) (p : Pre) (off w : Nat) : BitVec 16 :=
  x.bundle.start + BitVec.ofNat 16 (p.immS off w)

/-- The condition of a conditional branch (R132). -/
def condHolds (cond : Nat) (v : Word) : Bool :=
  match cond with
  | 0 => v == 0
  | 1 => v != 0
  | 2 => v.msb
  | _ => !v.msb

/-- BRANCH (R132, R133). -/
def opBranch (i : Iss) (cond : BitVec 2) (a : BitVec 4) (off : BitVec 2) (s : State) : Op :=
  let x := s.thr i.site i.th
  let r := Fin.ofNat 16 a.toNat
  s.transfer i 0 [r.val] [] (fun p =>
    .ok (if condHolds cond.toNat (x.sreg r) then [.jump (x.target p off.toNat 2)] else []))

/-- BR (R132, R133). -/
def opBr (i : Iss) (off : BitVec 7) (s : State) : Op :=
  s.transfer i 0 [] [] (fun p => .ok [.jump ((s.thr i.site i.th).target p off.toNat 7)])

/-- Whether a push overflows the shadow stack (R135). -/
def Thread.ssFull (x : Thread) : Bool :=
  (decide (64 ≤ x.ss.length) && !bitOf x.spill.toNat 7) || decide (2112 ≤ x.ssDepth)

/-- What a spill or refill of entry j of a thread's shadow stack comes to at its bank (R135, R228, R229, R232): a partition fault, or the
refusals it counts. -/
def State.spillPort (s : State) (i : Iss) (j : Nat) : Except Flt (List Eff) :=
  let off := (s.thr i.site i.th).spillAddr i.site j - padBase i.site
  if !s.bankOk i.site off 2 .n || s.strictMeet i.site off 2 ⟨.n, i.met⟩ then .error ⟨0x05, off, 0, false, none⟩
  else .ok (s.metEff i off 2)

/-- A call to a target (R134, R135). -/
def State.callPlan (s : State) (i : Iss) (pc : BitVec 16) : Plan :=
  let x := s.thr i.site i.th
  if x.ssFull then .bad ⟨0x0D, 0, 0, false, none⟩
  else if x.ss.length < 64 then .ok [.push 0, .jump pc]
  else
    match s.spillPort i x.spilled with
    | .error f => .bad f
    | .ok l => .ok ([.push 0, .jump pc] ++ l)

/-- CALL (R134). -/
def opCall (i : Iss) (off : BitVec 7) (s : State) : Op :=
  let x := s.thr i.site i.th
  s.transfer i 0 [15] [15] (fun p => s.callPlan i (x.target p off.toNat 7))

/-- JR (R133): sA[15:0]. -/
def opJr (i : Iss) (a : BitVec 4) (z : BitVec 2) (s : State) : Op :=
  let r := Fin.ofNat 16 a.toNat
  s.transfer i z.toNat [r.val] [] (fun _ =>
    .ok [.jump (((s.thr i.site i.th).sreg r).setWidth 16)])

/-- CALLR (R134). -/
def opCallr (i : Iss) (a : BitVec 4) (z : BitVec 2) (s : State) : Op :=
  let x := s.thr i.site i.th
  let r := Fin.ofNat 16 a.toNat
  s.transfer i z.toNat [r.val, 15] [15] (fun _ => s.callPlan i ((x.sreg r).setWidth 16))

/-- RET (R136). -/
def opRet (i : Iss) (z : BitVec 6) (s : State) : Op :=
  let x := s.thr i.site i.th
  s.transfer i z.toNat [15] [] (fun _ =>
    if x.ssDepth = 0 then .bad ⟨0x0F, 0, 0, false, none⟩
    else
      match (if x.ss = [] then s.spillPort i (x.ssDepth - 1) else .ok []) with
      | .error f => .bad f
      | .ok l =>
        if (x.sreg 15).toNat ≠ s.ssEntry i.site i.th (x.ssDepth - 1) then .bad ⟨0x0E, 0, 0, false, none⟩
        else .ok ([.pop, .jump ((x.sreg 15).setWidth 16)] ++ l))

/-- The registers LOOP writes, numbered as in Eff.writes. -/
def loopDst (t : Fin 4) (k : Fin 2) : List Nat := Eff.writes t (.loopStart k 0 0 0)

/-- LOOP (R138). The end offset is read unsigned (R118). -/
def opLoop (i : Iss) (k : BitVec 1) (a : BitVec 4) (off : BitVec 1) (s : State) : Op :=
  let r := Fin.ofNat 16 a.toNat
  s.transfer i 0 [r.val] (loopDst i.th (Fin.ofNat 2 k.toNat)) (fun p =>
    .ok [.loopStart (Fin.ofNat 2 k.toNat) 0 (BitVec.ofNat 16 (p.immU off.toNat 1)) ((s.thr i.site i.th).sreg r)])

end Sys2Proof.Machine
end

