-- ==== Sys2Proof/Machine/Vector.lean ====
section
/-! DEFINITION. The vector operations of class 0b010 (R142 to R144, R194 to R199, R203, R207). -/

namespace Sys2Proof.Machine

/-- Prefixes of class 0b010 (R120). -/
def acceptsVec : Accepts := ⟨false, true, 1⟩

/-- A vector register of a thread. -/
def Thread.vreg (x : Thread) (r : Fin 16) : Vec := x.v[r]

/-- A predicate register; p0 reads as all ones (R130). -/
def Thread.pred (x : Thread) (r : Nat) : BitVec 64 := if r % 4 = 0 then BitVec.allOnes 64 else x.p[Fin.ofNat 4 r]

/-- The format code of an operation with one FMT prefix: FP32 by default (R142). -/
def Pre.fmtCode (p : Pre) : Nat := match p.fmts with | (c, _) :: _ => (if c = 0 then 1 else c) | [] => 1

/-- The rounding field of the first FMT prefix, 0 without one. -/
def Pre.rndCode (p : Pre) : Nat := match p.fmts with | (_, r) :: _ => r | [] => 0

/-- Formats of vector arithmetic (R142). -/
def vecFmt (c : Nat) : Bool := c == 0x1 || c == 0x2 || c == 0x3 || c == 0xA || c == 0xB || c == 0xC || c == 0xD

/-- Whether a format is floating point. -/
def isFloat (c : Nat) : Bool := (floatFmt c).isSome

/-- Lanes of a format (R142). -/
def lanes (c : Nat) : Nat := 512 / fmtWidth c

/-- A vector whose enabled lanes take what f delivers, the others keeping the old value; the counts of the enabled lanes
(R142, R194). -/
def laneMap (c n : Nat) (pr : BitVec 64) (old : Vec) (f : Nat → Nat × Cls) : Vec × Counts :=
  let w := fmtWidth c
  let r := (List.range n).map (fun i => if pr.getLsbD i then f i else (elemAt w old.toNat i, Cls.none))
  (BitVec.ofNat 512 (packElems w (r.map Prod.fst)), countAll (r.map Prod.snd))

/-- Generators stepped: those of the enabled lanes under stochastic rounding (R199). -/
def Thread.laneGens (x : Thread) (mode : Rnd) (n : Nat) (pr : BitVec 64) : List Eff :=
  if mode = .stoch then [.gens (x.gensAfter ((List.range n).filter (fun i => pr.getLsbD i)))] else []

/-- Counts as an effect. -/
def Counts.eff (c : Counts) : List Eff := if c = Counts.zero then [] else [.counts c.sat c.flush c.nan]

/-- Registers a vector operation names. -/
def vecRegs (i : Iss) (d a : BitVec 3) : List Nat :=
  let p := Iss.pre i
  [16 + (extReg p.dh d).val, 16 + (extReg p.ah a).val] ++ (if p.hasReg then [16 + p.b] else [])

/-- The operands of a two-operand form (R143): vD and vA, or vA and vB with a REG prefix. -/
def Thread.vecOps (x : Thread) (p : Pre) (d a : BitVec 3) : Vec × Vec :=
  if p.hasReg then (x.vreg (extReg p.ah a), x.vreg (Fin.ofNat 16 p.b))
  else (x.vreg (extReg p.dh d), x.vreg (extReg p.ah a))

/-- An operation that works lane by lane: `rounds` says whether its elements round in the mode in force (R197), f gives a
lane's result from the format, the mode, the 16 bits drawn, the lane's two operands and its old pattern. -/
def State.vecLanes (s : State) (i : Iss) (d a : BitVec 3) (rounds : Nat → Bool) (okFmt : Nat → Bool) (more : List Eff)
    (f : Thread → Nat → Rnd → Nat → Nat → Nat → Nat → Nat × Cls) : Op :=
  let x := s.thr i.site i.th
  .of i .V acceptsVec (vecRegs i d a) [16 + (extReg (Iss.pre i).dh d).val] (fun p =>
    let c := p.fmtCode
    if !okFmt c then .bad illegalOperand
    else
      let D := extReg p.dh d
      let pr := x.pred p.p
      let mode := x.mode p.rndCode
      let (u, v) := x.vecOps p d a
      let w := fmtWidth c
      let (r, n) := laneMap c (lanes c) pr (x.vreg D) (fun k =>
        f x c mode (x.draw k) (elemAt w u.toNat k) (elemAt w v.toNat k) (elemAt w (x.vreg D).toNat k))
      .ok ([.v D r] ++ n.eff ++ (if rounds c then x.laneGens mode (lanes c) pr else []) ++ more))

/-- An integer result wrapped to a lane (R144). -/
def wrapLane (c : Nat) (i : Int) : Nat × Cls := (wrap (fmtWidth c) i, .none)

/-- The integer a lane's pattern holds. -/
def laneInt (c n : Nat) : Int := if c = 0xD then (n : Int) else sgn (fmtWidth c) n

/-- An arithmetic operation: rounded once in a floating-point format, wrapped in an integer one (R144, R192). -/
def arith (fl : Bool → Val → Val → Val) (int : Int → Int → Int) (x : Thread) (c : Nat) (mode : Rnd)
    (r u v _ : Nat) : Nat × Cls :=
  if isFloat c then deliver c mode x.ieee r (fl (mode == .down) (value c u) (value c v))
  else wrapLane c (int (laneInt c u) (laneInt c v))

/-- Formats of VSHIFT: the integer ones (R143). -/
def intFmt (c : Nat) : Bool := vecFmt c && !isFloat c

/-- No format rounds: operations that move bits. -/
def noRound (_ : Nat) : Bool := false

/-- VMOV (R143): a copy of vA in both forms. What REG.B would name is not said; it does nothing (DESIGN CHOICE, log 54). -/
def opVmov (i : Iss) (d a : BitVec 3) (s : State) : Op :=
  let x := s.thr i.site i.th
  .of i .V acceptsVec (vecRegs i d a) [16 + (extReg (Iss.pre i).dh d).val] (fun p =>
    let c := p.fmtCode
    if !vecFmt c then .bad illegalOperand
    else
      let D := extReg p.dh d
      let src := (x.vreg (extReg p.ah a)).toNat
      .ok [.v D (laneMap c (lanes c) (x.pred p.p) (x.vreg D) (fun k => (elemAt (fmtWidth c) src k, .none))).1])

/-- VADD (R143, R192). -/
def opVadd (i : Iss) (d a : BitVec 3) (s : State) : Op :=
  s.vecLanes i d a isFloat vecFmt (suspectIf i) (arith (fun dn u v => u.add dn v) (fun u v => u + v))

/-- VSUB (R143, R192). -/
def opVsub (i : Iss) (d a : BitVec 3) (s : State) : Op :=
  s.vecLanes i d a isFloat vecFmt (suspectIf i) (arith (fun dn u v => u.add dn v.neg) (fun u v => u - v))

/-- VMUL (R143, R192). -/
def opVmul (i : Iss) (d a : BitVec 3) (s : State) : Op :=
  s.vecLanes i d a isFloat vecFmt (suspectIf i) (arith (fun _ u v => u.mul v) (fun u v => u * v))

/-- One lane of VFMA: vD + vA x vB, rounded once (R143, R192). -/
def fmaLane (x : Thread) (c : Nat) (mode : Rnd) (r u v o : Nat) : Nat × Cls :=
  if isFloat c then deliver c mode x.ieee r ((value c o).add (mode == .down) ((value c u).mul (value c v)))
  else wrapLane c (laneInt c o + laneInt c u * laneInt c v)

/-- VFMA (R143): REG is required (log 22). -/
def opVfma (i : Iss) (d a : BitVec 3) (s : State) : Op :=
  s.vecLanes i d a isFloat (fun c => vecFmt c && (Iss.pre i).hasReg) (suspectIf i) fmaLane

/-- A minimum or maximum: no element rounds, so none counts but a NaN (R192, R194). -/
def pick (fl : Val → Val → Val) (int : Int → Int → Int) (_ : Thread) (c : Nat) (_ : Rnd) (_ u v _ : Nat) : Nat × Cls :=
  if isFloat c then deliver c .nearest false 0 (fl (value c u) (value c v))
  else wrapLane c (int (laneInt c u) (laneInt c v))

/-- VMIN (R143, R192). -/
def opVmin (i : Iss) (d a : BitVec 3) (s : State) : Op :=
  s.vecLanes i d a noRound vecFmt [] (pick Val.min (fun u v => min u v))

/-- VMAX (R143, R192). -/
def opVmax (i : Iss) (d a : BitVec 3) (s : State) : Op :=
  s.vecLanes i d a noRound vecFmt [] (pick Val.max (fun u v => max u v))

/-- A bitwise operation: the format sets the lane width only. -/
def bits2 (f : Nat → Nat → Nat) (_ : Thread) (_ : Nat) (_ : Rnd) (_ u v _ : Nat) : Nat × Cls := (f u v, .none)

/-- VAND (R143). -/
def opVand (i : Iss) (d a : BitVec 3) (s : State) : Op :=
  s.vecLanes i d a noRound vecFmt [] (bits2 (fun u v => u &&& v))

/-- VOR (R143). -/
def opVor (i : Iss) (d a : BitVec 3) (s : State) : Op :=
  s.vecLanes i d a noRound vecFmt [] (bits2 (fun u v => u ||| v))

/-- VXOR (R143). -/
def opVxor (i : Iss) (d a : BitVec 3) (s : State) : Op :=
  s.vecLanes i d a noRound vecFmt [] (bits2 (fun u v => u ^^^ v))

/-- One lane of VSHIFT: left by a positive count, right by a negative one, every bit shifted out at counts of the width and
more (DEDUCED, log 24). The count is signed in every format. -/
def shiftLane (_ : Thread) (c : Nat) (_ : Rnd) (_ u v _ : Nat) : Nat × Cls :=
  let n := sgn (fmtWidth c) v
  if 0 ≤ n then wrapLane c (laneInt c u * 2 ^ n.toNat) else wrapLane c (laneInt c u / 2 ^ n.natAbs)

/-- VSHIFT (R143). -/
def opVshift (i : Iss) (d a : BitVec 3) (s : State) : Op :=
  s.vecLanes i d a noRound intFmt [] shiftLane

/-- A value of a lane for a comparison. -/
def laneVal (c n : Nat) : Val := value c n

/-- VCMP (R143): pP bit i from lanes i of vA and vB, every other bit 0. REG is required (log 22). -/
def opVcmp (i : Iss) (d a : BitVec 3) (s : State) : Op :=
  let x := s.thr i.site i.th
  let q := Iss.pre i
  .of i .V acceptsVec [16 + (extReg q.ah a).val, 16 + q.b] [32 + q.p] (fun p =>
    let c := p.fmtCode
    if !vecFmt c || !p.hasReg || decide (6 ≤ d.toNat) || p.dh == 1 || p.p == 0 then .bad illegalOperand
    else
      let w := fmtWidth c
      let u := (x.vreg (extReg p.ah a)).toNat
      let v := (x.vreg (Fin.ofNat 16 p.b)).toNat
      let bs := (List.range (lanes c)).map (fun k => b2n ((laneVal c (elemAt w u k)).cmp d.toNat (laneVal c (elemAt w v k))))
      .ok [.p (Fin.ofNat 4 p.p) (BitVec.ofNat 64 (packElems 1 bs))])

/-- VSEL (R143): vA where pP is 1, vB elsewhere. REG is required (log 22). -/
def opVsel (i : Iss) (d a : BitVec 3) (s : State) : Op :=
  let x := s.thr i.site i.th
  .of i .V acceptsVec (vecRegs i d a) [16 + (extReg (Iss.pre i).dh d).val] (fun p =>
    let c := p.fmtCode
    if !vecFmt c || !p.hasReg then .bad illegalOperand
    else
      let u := (x.vreg (extReg p.ah a)).toNat
      .ok [.v (extReg p.dh d)
        (laneMap c (lanes c) (x.pred p.p) (x.vreg (Fin.ofNat 16 p.b)) (fun k => (elemAt (fmtWidth c) u k, .none))).1])

-- VCVT

/-- Prefixes of VCVT: two FMT (R120, R143). -/
def acceptsCvt : Accepts := ⟨false, true, 2⟩

/-- A format's own element width for counting VCVT's elements: narrow formats count as 8 bits (R207). -/
def cvtWidth (c : Nat) : Nat := max 8 (fmtWidth c)

/-- Elements VCVT converts (R207). -/
def cvtCount (src dst : Nat) : Nat :=
  if src = 0xF ∨ dst = 0xF then 16 else 512 / max (cvtWidth src) (cvtWidth dst)

/-- Whether VCVT admits a pairing (R207). -/
def cvtPair (src dst : Nat) : Bool :=
  let fl (c : Nat) : Bool := c == 1 || c == 2 || c == 3
  let one (c o : Nat) : Bool :=
    if c = 0xF then fl o else if c = 0x9 then fl o || (intRange o).isSome else true
  one src dst && one dst src

/-- A FMT code with 0 read as FP32, the class's default (R121, R142). -/
def fmtOr1 (c : Nat) : Nat := if c = 0 then 1 else c

/-- VCVT's source values (R189, R190, R207). -/
def cvtSource (src n v : Nat) : List Val :=
  if src = 0xF then (List.range n).map (fun k => sbf16Value (elemAt 16 v k) (bitsOf v 256 8))
  else (List.range n).map (fun k => value src (elemAt (fmtWidth src) v k))

/-- VCVT's result and its elements' classes (R203, R204, R207). -/
def cvtResult (x : Thread) (dst n : Nat) (mode : Rnd) (pr : BitVec 64) (old : Vec) (vs : List Val) : Vec × Counts :=
  if dst = 0xF then
    let sc := blockScale 0xF vs
    let r := (vs.zip (List.range n)).map (fun (v, k) => quantElem 0xF sc mode (x.draw k) v)
    (BitVec.ofNat 512 (packElems 16 (r.map Prod.fst) + sc * 2 ^ 256), countAll (r.map Prod.snd))
  else laneMap dst n pr old (fun k => deliver dst mode x.ieee (x.draw k) (vs.getD k .nan))

/-- VCVT (R203, R207): both FMT prefixes are needed (log 22). An SBF16 conversion ignores the predicate. -/
def opVcvt (i : Iss) (d a : BitVec 3) (s : State) : Op :=
  let x := s.thr i.site i.th
  .of i .V acceptsCvt (vecRegs i d a) [16 + (extReg (Iss.pre i).dh d).val] (fun p =>
    match p.fmts with
    | [(f, _), (g, rnd)] =>
      let src := fmtOr1 f
      let dst := fmtOr1 g
      if !cvtPair src dst then .bad illegalOperand
      else
        let D := extReg p.dh d
        let n := cvtCount src dst
        let mode := x.mode rnd
        let pr := if src = 0xF ∨ dst = 0xF then BitVec.allOnes 64 else x.pred p.p
        let (r, c) := cvtResult x dst n mode pr (x.vreg D) (cvtSource src n (x.vreg (extReg p.ah a)).toNat)
        .ok ([.v D r] ++ c.eff ++ x.laneGens mode n pr)
    | _ => .bad illegalOperand)

-- VRED

/-- Adjacent values of a tree's level joined (R143): f k joins both where both are present; k counts the partial sums. -/
def redPairs (f : Nat → Nat → Nat → Nat × Cls) : Nat → List (Option Nat) → List (Option Nat × Option (Nat × Cls))
  | k, a :: b :: t =>
    (match a, b with
      | some u, some v => (some (f k u v).1, some (k, (f k u v).2))
      | some u, none => (some u, none)
      | none, v => (v, none)) :: redPairs f (k + 1) t
  | _, [a] => [(a, none)]
  | _, [] => []

/-- The tree's levels until one value remains, with the partial sums made. -/
def redTree (f : Nat → Nat → Nat → Nat × Cls) : Nat → Nat → List (Option Nat) → Option Nat × List (Nat × Cls)
  | 0, _, l => (l.headD none, [])
  | n + 1, k, l =>
    let r := redPairs f k l
    let (x, c) := redTree f n (k + l.length / 2) (r.map Prod.fst)
    (x, r.filterMap Prod.snd ++ c)

/-- The scalar a VRED delivers (log 23): signed integers sign-extended, UINT8 zero-extended, 16-bit floating-point patterns
below a free upper half. -/
def redWord (c n : Nat) : Word :=
  if isFloat c then
    if fmtWidth c = 32 then BitVec.ofNat 32 n else (Config.redHigh c n) ++ BitVec.ofNat 16 n
  else BitVec.ofInt 32 (laneInt c n)

/-- Enabled lanes of a vector, disabled ones absent. -/
def enabledLanes (c : Nat) (pr : BitVec 64) (v : Vec) : List (Option Nat) :=
  (List.range (lanes c)).map (fun k => if pr.getLsbD k then some (elemAt (fmtWidth c) v.toNat k) else none)

/-- A VRED planned: `sel` is the REG.B of the operation. -/
def State.reduce (s : State) (i : Iss) (d a : BitVec 3) (sel : Nat)
    (f : Thread → Nat → Rnd → List (Option Nat) → Nat × Counts × List Nat) : Op :=
  let x := s.thr i.site i.th
  let q := Iss.pre i
  .of i .V acceptsVec [(extReg q.dh d).val, 16 + (extReg q.ah a).val] [(extReg q.dh d).val] (fun p =>
    let c := p.fmtCode
    if !vecFmt c || p.b != sel then .bad illegalOperand
    else
      let mode := x.mode p.rndCode
      let (r, n, g) := f x c mode (enabledLanes c (x.pred p.p) (x.vreg (extReg p.ah a)))
      .ok ([.s (extReg p.dh d) (redWord c r)] ++ n.eff ++
        (if mode = .stoch ∧ isFloat c then [.gens (x.gensAfter (g.map (· % 64)))] else [])))

/-- What VRED's sum delivers where it made no partial sum (R143, R192, R194): +0 over no lane; a single lane as it stands, but a NaN as
the canonical one, which counts. -/
def redOne (c : Nat) (r : Option Nat) : Nat × Counts :=
  match r with
  | none => (0, Counts.zero)
  | some n =>
    if isFloat c && value c n == .nan then
      let k := deliver c .nearest false 0 .nan
      (k.1, k.2.counts)
    else (n, Counts.zero)

/-- The sum of VRED (R143, R199): one generator step per partial sum. -/
def redSum (x : Thread) (c : Nat) (mode : Rnd) (l : List (Option Nat)) : Nat × Counts × List Nat :=
  let (r, cs) := redTree (fun k u v => arith (fun dn u v => u.add dn v) (fun u v => u + v) x c mode (x.draw (k % 64)) u v 0) 6 0 l
  if cs = [] then
    let k := redOne c r
    (k.1, k.2, [])
  else (r.getD 0, countAll (cs.map Prod.snd), cs.map Prod.fst)

/-- A maximum or minimum of VRED: `none_` is its value over no enabled lane. -/
def redBest (fl : Val → Val → Val) (int : Int → Int → Int) (none_ : Nat → Nat) (_ : Thread) (c : Nat) (_ : Rnd)
    (l : List (Option Nat)) : Nat × Counts × List Nat :=
  match l.filterMap id with
  | [] => (none_ c, Counts.zero, [])
  | a :: t =>
    let (r, k) :=
      if isFloat c then deliver c .nearest false 0 (t.foldl (fun v n => fl v (value c n)) (value c a))
      else wrapLane c (t.foldl (fun v n => int v (laneInt c n)) (laneInt c a))
    (r, k.counts, [])

/-- The most negative finite value of a format. -/
def leastOf (c : Nat) : Nat :=
  match floatFmt c with
  | some f => signBit f true + maxBits f
  | none => match intRange c with | some (lo, _) => wrap (fmtWidth c) lo | none => 0

/-- The most positive finite value of a format. -/
def greatestOf (c : Nat) : Nat :=
  match floatFmt c with
  | some f => maxBits f
  | none => match intRange c with | some (_, hi) => wrap (fmtWidth c) hi | none => 0

/-- VRED with REG.B 0 (R143). -/
def opVredSum (i : Iss) (d a : BitVec 3) (s : State) : Op := s.reduce i d a 0 redSum

/-- VRED with REG.B 1 (R143). -/
def opVredMax (i : Iss) (d a : BitVec 3) (s : State) : Op :=
  s.reduce i d a 1 (redBest Val.max (fun u v => max u v) leastOf)

/-- VRED with REG.B 2 (R143). -/
def opVredMin (i : Iss) (d a : BitVec 3) (s : State) : Op :=
  s.reduce i d a 2 (redBest Val.min (fun u v => min u v) greatestOf)

/-- VBC (R143): sA's low bits in every enabled lane. -/
def opVbc (i : Iss) (d a : BitVec 3) (s : State) : Op :=
  let x := s.thr i.site i.th
  let q := Iss.pre i
  .of i .V acceptsVec [16 + (extReg q.dh d).val, (extReg q.ah a).val] [16 + (extReg q.dh d).val] (fun p =>
    let c := p.fmtCode
    if !vecFmt c then .bad illegalOperand
    else
      let D := extReg p.dh d
      let n := (x.sreg (extReg p.ah a)).toNat % 2 ^ fmtWidth c
      .ok [.v D (laneMap c (lanes c) (x.pred p.p) (x.vreg D) (fun _ => (n, .none))).1])

end Sys2Proof.Machine
end

