-- ==== Sys2Proof/Machine/LoadStore.lean ====
section
/-! DEFINITION. Loads, stores, atomics and data-cache operations of class 0b100 (R145 to R147, R239 to R248, R277). -/

namespace Sys2Proof.Machine

/-- Prefixes of class 0b100 (R120). -/
def acceptsMem : Accepts := ⟨true, true, 0⟩

/-- The effective address: sA plus the immediate (R145). -/
def Thread.effAddr (x : Thread) (p : Pre) (a : BitVec 3) : Nat :=
  (x.sreg (extReg p.ah a) + BitVec.ofNat 32 (p.immS 0 0)).toNat

/-- Whether a memory operation must wait: a command in its way, or 16 unfinished ones (R277). -/
def State.memBusy (s : State) (site : Nat) (t : Fin 4) (loc n : Nat) (a : Reach) : Bool :=
  decide (16 ≤ s.openCount site t) || s.hazard site t loc n a

/-- Bytes of a cache line at an address. -/
def Line.at_ (l : Line) (g n : Nat) : List Byte := (l.bytes.drop (g % 64)).take n

/-- The fault of a fabric status (R354, R359): 1 unmapped, any other a bus error. -/
def fabFault (ea g st : Nat) : Flt :=
  if st = 1 then ⟨0x0A, ea, 0, false, some g⟩ else ⟨0x0B, ea, 0, false, none⟩

/-- What a bundle comes to that needs a line which the cache does not hold (R243, R244): it waits, or, where the line's fetch has ended with an
error, faults. -/
def Core.lineWait (c : Core) (ea g : Nat) : Plan :=
  match c.lineErr with
  | some (a, st) => if a = g / 64 * 64 then .bad (fabFault ea g st) else .stall
  | none => .stall

/-- A load planned (R145, R146, R241, R244). Data in reach of the core is captured now; other data is read at its home when
it arrives. A demand miss waits while another is outstanding; a line being prefetched is waited for. -/
def State.loadPlan (s : State) (i : Iss) (kind : LdKind) (dst ea : Nat) (uncached : Bool) : Plan :=
  let n := kind.size
  let ld (loc : Nat) (own cached : Bool) (resp : Option (List Byte × Bool × Nat)) (seen : List Nat) : Eff :=
    .load ⟨kind, dst, ea, loc, own, cached, 0, 0, none, resp, 0, seen⟩
  if ea % n ≠ 0 then .bad ⟨0x09, ea, 0, false, none⟩
  else
    match s.resolve i.site i.th ea n needR ⟨.n, i.met⟩ true with
    | .error f => .bad f
    | .ok (.own off) =>
      let g := padBase i.site + off
      if s.memBusy i.site i.th g n (reachOf false true ea) then .stall
      else .ok (ld g true false (some (s.padBytes i.site off n, s.poisoned g n, 0)) (setsAt s.landObs g n) :: s.metEff i off n)
    | .ok (.glob g) =>
      if s.isRegSpace g && kind != .w then .bad ⟨0x03, ea, 0, false, none⟩
      else if s.memBusy i.site i.th g n (reachOf false false ea) then .stall
      else if s.cacheable i.site g then
        let c := s.core i.site
        match c.line g with
        | some l =>
          if uncached && !l.dirty then .ok [ld g false false none []]
          else .ok [ld g false false (some (l.at_ g n, l.poison, 0)) (l.seenAt g n)]
        | none =>
          if uncached then .ok [ld g false false none []]
          else if c.demand.isSome && c.ahead != some (g / 64 * 64) then .stall
          else .ok [ld g false true none []]
      else .ok [ld g false false none []]

/-- A load of class 0b100. R146 names VLD and VST where it forbids a predicate; the model holds VLDU to it as well (DESIGN CHOICE,
log 46). It names no effect of REG.P on the other operations of the class, nor of REG.B where an operation has no third operand: the model
ignores both (DESIGN CHOICE, log 54). -/
def State.load (s : State) (i : Iss) (d a : BitVec 3) (kind : LdKind) (uncached : Bool) : Op :=
  let x := s.thr i.site i.th
  let q := Iss.pre i
  let dst := (if kind = .vec then 16 else 0) + (extReg q.dh d).val
  .of i .T acceptsMem [dst, (extReg q.ah a).val] [dst] (fun p =>
    if kind = .vec ∧ p.p ≠ 0 then .bad illegalOperand
    else s.loadPlan i kind dst (x.effAddr p a) uncached)

/-- A store planned (R145, R151, R243). A miss that does not cover its line waits for the fill. -/
def State.storePlan (s : State) (i : Iss) (ea n : Nat) (b : List Byte) : Plan :=
  if ea % n ≠ 0 then .bad ⟨0x09, ea, 0, false, none⟩
  else
    match s.resolve i.site i.th ea n needW ⟨.n, i.met⟩ false with
    | .error f => .bad f
    | .ok (.own off) =>
      if s.memBusy i.site i.th (padBase i.site + off) n (reachOf true true ea) || s.slotHeld i.site off n then .stall
      else .ok (.store off true false b false :: s.metEff i off n)
    | .ok (.glob g) =>
      if s.isRegSpace g && n != 4 then .bad ⟨0x03, ea, 0, false, none⟩
      else if s.memBusy i.site i.th g n (reachOf true false ea) then .stall
      else if s.cacheable i.site g then
        let c := s.core i.site
        if (c.line g).isSome || (n == 64 && !c.filling g) then .ok [.store g false true b false] else c.lineWait ea g
      else .ok [.store g false false b false]

/-- A scalar store of n bytes; REG.P and REG.B do nothing (DESIGN CHOICE, log 54). -/
def State.store (s : State) (i : Iss) (d a : BitVec 3) (n : Nat) : Op :=
  let x := s.thr i.site i.th
  let q := Iss.pre i
  .of i .T acceptsMem [(extReg q.dh d).val, (extReg q.ah a).val] [] (fun p =>
    s.storePlan i (x.effAddr p a) n (leBytes n (x.sreg (extReg p.dh d)).toNat))

/-- LDW (R146). -/
def opLdw (i : Iss) (d a : BitVec 3) (s : State) : Op := s.load i d a .w false

/-- LDH (R146). -/
def opLdh (i : Iss) (d a : BitVec 3) (s : State) : Op := s.load i d a .h false

/-- LDHU (R146). -/
def opLdhu (i : Iss) (d a : BitVec 3) (s : State) : Op := s.load i d a .hu false

/-- LDB (R146). -/
def opLdb (i : Iss) (d a : BitVec 3) (s : State) : Op := s.load i d a .b false

/-- LDBU (R146). -/
def opLdbu (i : Iss) (d a : BitVec 3) (s : State) : Op := s.load i d a .bu false

/-- STW (R146). -/
def opStw (i : Iss) (d a : BitVec 3) (s : State) : Op := s.store i d a 4

/-- STH (R146). -/
def opSth (i : Iss) (d a : BitVec 3) (s : State) : Op := s.store i d a 2

/-- STB (R146). -/
def opStb (i : Iss) (d a : BitVec 3) (s : State) : Op := s.store i d a 1

/-- VLD (R146). -/
def opVld (i : Iss) (d a : BitVec 3) (s : State) : Op := s.load i d a .vec false

/-- VST (R146). -/
def opVst (i : Iss) (d a : BitVec 3) (s : State) : Op :=
  let x := s.thr i.site i.th
  let q := Iss.pre i
  .of i .T acceptsMem [16 + (extReg q.dh d).val, (extReg q.ah a).val] [] (fun p =>
    if p.p ≠ 0 then .bad illegalOperand
    else s.storePlan i (x.effAddr p a) 64 (leBytes 64 (x.vreg (extReg p.dh d)).toNat))

/-- LDU (R146): uncached, with the dirty-line rule. -/
def opLdu (i : Iss) (d a : BitVec 3) (s : State) : Op := s.load i d a .w true

/-- VLDU (R146). -/
def opVldu (i : Iss) (d a : BitVec 3) (s : State) : Op := s.load i d a .vec true

/-- The word an atomic stores, if any: the old word, sD and sB (R146). -/
def LdKind.newWord (k : LdKind) (old d b : Word) : Option Word :=
  match k with
  | .aadd => some (old + d)
  | .acas => if old = d then some b else none
  | .aswp => some d
  | _ => none

/-- An atomic planned (R145 to R147): on the core's own scratchpad at once, elsewhere when it reaches its home. -/
def State.atomicPlan (s : State) (i : Iss) (kind : LdKind) (dst ea : Nat) (d b : Word) : Plan :=
  let ld (loc : Nat) (own : Bool) (resp : Option (List Byte × Bool × Nat)) (seen : List Nat) : Eff :=
    .load ⟨kind, dst, ea, loc, own, false, d, b, none, resp, 0, seen⟩
  if ea % 4 ≠ 0 then .bad ⟨0x09, ea, 0, false, none⟩
  else
    match s.resolve i.site i.th ea 4 needA ⟨.n, i.met⟩ true with
    | .error f => .bad f
    | .ok (.own off) =>
      let g := padBase i.site + off
      if s.memBusy i.site i.th g 4 (reachOf true true ea) || s.slotHeld i.site off 4 then .stall
      else
        let old := BitVec.ofNat 32 (leNat (s.padBytes i.site off 4))
        .ok (ld g true (some (leBytes 4 old.toNat, s.poisoned g 4, 0)) (setsAt s.landObs g 4) ::
          (match kind.newWord old d b with
            | some w => [.store off true false (leBytes 4 w.toNat) false]
            | none => []) ++ s.metEff i off 4)
    | .ok (.glob g) =>
      if s.isRegSpace g || (!s.isLocal g && kind != .aadd) then .bad ⟨0x03, ea, 0, false, none⟩
      else if s.memBusy i.site i.th g 4 (reachOf true false ea) || (s.core i.site).filling g then .stall
      else .ok [.dc 2 g, ld g false none []]

/-- An atomic of class 0b100. R146 requires a REG prefix of ACAS and names no fault for one without: the model takes an illegal operand; REG.P,
and REG.B of the others, do nothing (DESIGN CHOICE, log 54). -/
def State.atomic (s : State) (i : Iss) (d a : BitVec 3) (kind : LdKind) : Op :=
  let x := s.thr i.site i.th
  let q := Iss.pre i
  let dst := extReg q.dh d
  .of i .T acceptsMem ([dst.val, (extReg q.ah a).val] ++ (if kind = .acas then [q.b] else [])) [dst.val] (fun p =>
    if kind = .acas ∧ !p.hasReg then .bad illegalOperand
    else s.atomicPlan i kind dst.val (x.effAddr p a) (x.sreg dst) (x.sreg (Fin.ofNat 16 p.b)))

/-- AADD (R146, R147). -/
def opAadd (i : Iss) (d a : BitVec 3) (s : State) : Op := s.atomic i d a .aadd

/-- ACAS (R146, R147). -/
def opAcas (i : Iss) (d a : BitVec 3) (s : State) : Op := s.atomic i d a .acas

/-- ASWP (R146, R147). -/
def opAswp (i : Iss) (d a : BitVec 3) (s : State) : Op := s.atomic i d a .aswp

/-- The global address of a DC, if its bank is valid; bank 0 and the register space hold no line (R145, R146). -/
def Thread.bankAddr (x : Thread) (ea : Nat) : Except Flt (Option Nat) :=
  let b := ea / 2 ^ 29 % 8
  if b = 0 then .ok none
  else
    let bk := (x.bk[Fin.ofNat 8 b]).toNat
    if bk % 2 = 0 then .error ⟨0x06, ea, 0, false, none⟩ else .ok (some (bk / 2 ^ 29 * 2 ^ 29 + ea % 2 ^ 29))

/-- DC (R146, R245), after any fill of its line in flight: `op` is the operation the REG prefix selects; REG.P does nothing (DESIGN CHOICE,
log 54). -/
def State.dataCache (s : State) (i : Iss) (a : BitVec 3) (op : Nat) : Op :=
  let x := s.thr i.site i.th
  let q := Iss.pre i
  .of i .T acceptsMem [(extReg q.ah a).val] [] (fun p =>
    if p.b ≠ op then .bad illegalOperand
    else
      match x.bankAddr (x.effAddr p a) with
      | .error f => .bad f
      | .ok none => .ok []
      | .ok (some g) =>
        let h := if s.isLocal g then localOf g else g
        if (s.core i.site).filling h ||
          (((s.core i.site).line h).isSome && s.memBusy i.site i.th (h / 64 * 64) 64 ⟨true, false, true⟩) then .stall
        else .ok [.dc op h])

/-- DC with REG.B 0 (R245). -/
def opDcClean (i : Iss) (_d a : BitVec 3) (s : State) : Op := s.dataCache i a 0

/-- DC with REG.B 1 (R245). -/
def opDcInvalidate (i : Iss) (_d a : BitVec 3) (s : State) : Op := s.dataCache i a 1

/-- DC with REG.B 2 (R245). -/
def opDcCleanInvalidate (i : Iss) (_d a : BitVec 3) (s : State) : Op := s.dataCache i a 2

end Sys2Proof.Machine
end

