-- ==== Sys2Proof/Machine/Lines.lean ====
section
/-! DEFINITION. What reads meet on their way and at their home: mesh errors, bytes beyond correction and refused banks; and the lines that the
data cache fetches (R227, R243, R244, R248, R253, R254, R269, R282). -/

namespace Sys2Proof.Machine

-- what a read meets

/-- A mesh timeout seen at a die (R254). -/
def State.meshTimedOut (s : State) (d g : Nat) : State :=
  (s.event d MSH_EVENT_TIMEOUT).setRg64 (dkey d MSH_ERR_ADDR_LO_ADDR.off) g

/-- A payload parity error that a router found (R253): the granule goes on poisoned. It is counted at the die given (DEDUCED,
log 14). -/
def State.meshParity (s : State) (d : Nat) : State := (s.countFld d MSH_ERR_CNT_DATA 1).event d MSH_EVENT_PARITY

/-- A packet discarded for the parity of its header (R253). -/
def State.meshHeader (s : State) (d : Nat) : State := (s.countFld d MSH_ERR_CNT_HDR 1).event d MSH_EVENT_PARITY

/-- An uncorrectable granule (R269): counted, latched and raised; the granule is marked until a read of it comes back good or a whole clean write
lands. -/
def State.ueAt (s : State) (d a : Nat) : State :=
  let s := s.countFld d HBC_UE_CNT_COUNT 1
  let s := s.setRg64 (dkey d HBC_ERR_ADDR_LO_ADDR.off) (a / 64 * 64)
  let s := s.event d HBC_EVENT_UE
  { s with ueRead := setAdd s.ueRead (a / 64) }

/-- A byte beyond correction among those that a read of this module meets: a stack's granule is reported (R269), a scratchpad's row
poisoned (R227). -/
def State.spoilt (s : State) (g n : Nat) : State :=
  match s.home g with
  | .hbm d => s.ueAt d g
  | .pad _ _ => { s with poison := setUnion s.poison (granules g n) }
  | _ => s

/-- A read of bytes at their stack that found them clean or corrected (R269). -/
def State.readGood (s : State) (g n : Nat) : State := { s with ueRead := s.ueRead.filter (fun k => !(granules g n).contains k) }

/-- The observed sets of landing writes whose value a thread's read returned (R282). -/
def State.observeAll (s : State) (site : Nat) (t : Fin 4) (seen : List Nat) : State :=
  if seen.isEmpty then s else s.modThr site t (fun x => x.observe seen)

-- lines

/-- Loads of a core that wait for a line given their data, with the observed sets it brings (R244, R282). -/
def State.serveLine (s : State) (site g : Nat) (f : Load → List Byte × Bool × Nat) (seen : Load → List Nat) : State :=
  s.modCore site (fun c =>
    { c with th := c.th.map (fun x => { x with loads := x.loads.map (fun l =>
        if l.cached && l.resp.isNone && l.loc / 64 == g / 64 then { l with resp := some (f l), seen := seen l } else l) }) })

/-- Loads waiting for a line served from the cache. -/
def State.serveFilled (s : State) (site g : Nat) : State :=
  match (s.core site).line g with
  | some l => s.serveLine site g (fun x => (l.at_ x.loc x.kind.size, l.poison, 0)) (fun x => l.seenAt x.loc x.kind.size)
  | none => s

/-- A fetch of a line ended with an error: the loads that wait for the line are told (R244, R254). -/
def State.fetchFailed (s : State) (site a st : Nat) : State :=
  (s.modCore site (fun c => c.filled a)).serveLine site a (fun _ => ([], false, st)) (fun _ => [])

/-- A line of this module's HBM fetched into a core's cache as its read fares (R243, R253, R254, R269): status 0, or that of an error. The
loads that wait for it are served. -/
def State.fetchLine (s : State) (site : Nat) (t : Fin 4) (a : Nat) (what : Arrival) : State × Nat :=
  match what with
  | .ok => (((s.readGood a 64).fillLine site t a).serveFilled site a, 0)
  | .parity => (((((s.readGood a 64).meshParity (dieOf site)).fillLine site t a).modCore site (fun c => c.spoilLine a)).serveFilled site a, 0)
  | .uncorrectable => (((s.spoilt a 64).fillLine site t a).serveFilled site a, 0)
  | .busError => ((s.meshTimedOut (dieOf site) a).fetchFailed site a 4, 4)
  | .accessError => (s.fetchFailed site a 2, 2)
  | .refused => (s.fetchFailed site a 2, 2)

/-- A command that has ended in error (R282). -/
def State.failCmd (s : State) (cmd : Nat) : State := if cmd = 0 then s else { s with errCmds := setAdd s.errCmds cmd }

/-- Another node's line asked for over the fabric, where a miss or a prefetch wants it and nothing holds it any more (R244, R278). -/
def State.sendFill (s : State) (site : Nat) (t : Fin 4) (a : Nat) : State :=
  if s.isLocal a || !(s.core site).filling a || (s.fillTag site a).isSome || s.lineHeld site a then s
  else
    match s.fabRead (.fill site a) (s.actOf site) (s.thr site t).ctx a 64 with
    | (s, .sent _) => s
    | (s, .ended st) => s.fetchFailed site a st

end Sys2Proof.Machine
end

