-- ==== Sys2Proof/Machine/TileOps.lean ====
section
/-! DEFINITION. The matrix and tile operations of class 0b011 as they issue (R157 to R175, R180, R185). -/

namespace Sys2Proof.Machine

/-- Prefixes: a REG prefix alone. -/
def acceptsTile : Accepts := ⟨false, true, 0⟩
/-- Prefixes of TCVT and TCVTA. -/
def acceptsFmt : Accepts := ⟨false, false, 1⟩
/-- Prefixes of TRD and TWR. -/
def acceptsRow : Accepts := ⟨true, true, 0⟩

/-- Whether the REG fields an operation does not name are 0 (R164); `dh` and `b` say whether it names DH and B. AH is
named by every operation with a REG prefix. -/
def Pre.named (p : Pre) (dh b : Bool) : Bool := (dh || p.dh == 0) && (b || p.b == 0) && p.p == 0

/-- A tile-shape fault (R165). -/
def shapeFault : Flt := ⟨0x0C, 0, 0, false, none⟩
/-- An access fault of a tile operation: ownership (R157). -/
def ownerFault : Flt := ⟨0x03, 0, 0, false, none⟩
/-- Poison consumed from tile data (R165, R331). -/
def poisonFault : Flt := ⟨0x30, 0, 0, false, none⟩

/-- A class 0b011 operation issued: illegal on a core without a matrix unit (R116), and in safe mode unless permitted
(R185); it waits while the resources it uses are busy (R161). A row found beyond
correction is one of a tile whose elements or scales it reads (R155). -/
def State.tileOp (s : State) (i : Iss) (acc : Accepts) (code : Nat) (regs dst : List Nat) (safeOk : Bool) (uses : Uses)
    (body : Pre → Plan) : Op :=
  { Op.of i .M acc regs dst (fun p =>
      if Config.sites ≤ i.site ∨ (s.safe i.site ∧ !safeOk) then .bad illegalExec
      else if (s.core i.site).tileBusy uses (code == 0x4 || code == 0x6) then .stall
      else body p) with
    code := some code
    spoilt := match i.badRow with
      | some (k, r) => (uses.reads[k]?).bind (fun n => if n < 16 then some (n % 8, r) else none)
      | none => none }

/-- The row, quadrant and k from which a long operation starts: the progress of a stopped one, else its first (R180). -/
def Thread.resumeAt (x : Thread) : Nat × Nat × Nat :=
  let n := x.prog.toNat
  if bitOf n 31 then (bitsOf n 13 5, bitsOf n 25 2, bitsOf n 18 7) else (0, 0, 0)

/-- TCFG (R158, R159, R164). -/
def opTcfg (i : Iss) (d a : BitVec 3) (s : State) : Op :=
  let x := s.thr i.site i.th
  let q := Iss.pre i
  s.tileOp i acceptsTile 0x0 [(extReg q.ah a).val] [] false ⟨[], bothSides d.toNat⟩ (fun p =>
    let w := (x.sreg (extReg p.ah a)).toNat
    if !p.named false false || bitsOf w 16 16 != 0 || bitsOf w 5 2 != 0 then .bad illegalOperand
    else if !s.tileOk i.site i.th d.toNat then .bad ownerFault
    else if !shapeOk (bitsOf w 11 4) ((bitsOf w 7 4 + 1) * 4) (bitOf w 15) then .bad shapeFault
    else .ok [.tcfg d.toNat w])

/-- TREL (R156). -/
def opTrel (i : Iss) (d z : BitVec 3) (s : State) : Op :=
  s.tileOp i Accepts.none 0x1 [] [] true ⟨[], bothSides d.toNat⟩ (fun _ =>
    if z.toNat ≠ 0 then .bad illegalOperand
    else if !s.tileOk i.site i.th d.toNat then .bad ownerFault
    else .ok [.trel d.toNat])

/-- TLD and TST planned (R165, R167): the base, and the stride, signed, of sB or RB. -/
def State.movePlan (s : State) (i : Iss) (d a : BitVec 3) (code : Nat) (p : Pre) : Plan :=
  let x := s.thr i.site i.th
  let base := (x.sreg (extReg p.ah a)).toNat
  let stride := if p.hasReg then (x.sreg (Fin.ofNat 16 p.b)).toNat else ((s.core i.site).tile d.toNat).rb
  if !p.named false true then .bad illegalOperand
  else if !s.tileOk i.site i.th d.toNat then .bad ownerFault
  else if base % 4 ≠ 0 ∨ stride % 4 ≠ 0 then .bad ⟨0x09, base, 0, false, none⟩
  else .ok [.long ⟨code, d.toNat, 0, base, stride, 0, x.ieee, x.resumeAt.1, 0, 0, none, none, x.bk, x.slice, x.spill⟩]

/-- Registers TLD and TST read. -/
def moveRegs (i : Iss) (a : BitVec 3) : List Nat :=
  let q := Iss.pre i
  (extReg q.ah a).val :: (if q.hasReg then [q.b] else [])

/-- TLD (R167). -/
def opTld (i : Iss) (d a : BitVec 3) (s : State) : Op :=
  s.tileOp i acceptsTile 0x2 (moveRegs i a) [] true ⟨[], [d.toNat]⟩ (s.movePlan i d a 0x2)

/-- TST (R167). -/
def opTst (i : Iss) (d a : BitVec 3) (s : State) : Op :=
  s.tileOp i acceptsTile 0x3 (moveRegs i a) [] true ⟨[d.toNat], []⟩ (s.movePlan i d a 0x3)

-- TMMA

/-- The 8-bit floating-point class of R172. -/
def mmaFloat (f : Nat) : Bool := f == 0x4 || f == 0x5 || f == 0x6 || f == 0x7 || f == 0x8
/-- The integer class of R172. -/
def mmaInt (f : Nat) : Bool := f == 0xC || f == 0xD || f == 0xE

/-- The accumulator KIND of a pair of tiles, true INT32; none where the pair is not of one row of R172. -/
def mmaKind (a b : Tile) : Option Bool :=
  if mmaFloat a.fmt && mmaFloat b.fmt then some false
  else if mmaInt a.fmt && mmaInt b.fmt then some (!a.scl && !b.scl)
  else if a.fmt == b.fmt && (a.fmt == 0x2 || a.fmt == 0x3) then some false
  else none

/-- Whether a TMMA's operands satisfy R172. -/
def mmaOk (a b : Tile) (c : Acc32) : Bool :=
  a.full && b.full && c.full && a.elems == b.elems && a.nrows == c.mrows && b.nrows == c.ncols && mmaKind a b == some c.int

/-- Whether any row a tile operation reads is poisoned, from a row on (R165). -/
def Tile.anyPoison (t : Tile) (from_ : Nat) : Bool :=
  (List.range t.nrows).any (fun r => decide (from_ ≤ r) && t.poisoned r)

/-- TMMA planned into accumulator c (R165, R172). -/
def State.mmaPlan (s : State) (i : Iss) (a b : BitVec 3) (code c : Nat) : Plan :=
  let x := s.thr i.site i.th
  let k := s.core i.site
  let (_, quad, kpos) := x.resumeAt
  if !s.tileOk i.site i.th a.toNat || !s.tileOk i.site i.th b.toNat || !s.accOk i.site i.th c then .bad ownerFault
  else if !mmaOk (k.tile a.toNat) (k.tile b.toNat) (k.accum c) then .bad shapeFault
  else if (k.tile a.toNat).anyPoison 0 || (k.tile b.toNat).anyPoison 0 then .bad poisonFault
  else .ok [.long ⟨code, a.toNat, b.toNat, 0, 0, 0, x.ieee, 0, kpos, quad, none, none, x.bk, x.slice, x.spill⟩]

/-- TMMA into acc0 (R164, R171). -/
def opTmmaAcc0 (i : Iss) (a b : BitVec 3) (s : State) : Op :=
  s.tileOp i Accepts.none 0x4 [] [] false ⟨bothSides a.toNat ++ bothSides b.toNat, [16]⟩ (fun _ => s.mmaPlan i a b 0x4 0)

/-- TMMA into acc1 (R164, R171). -/
def opTmmaAcc1 (i : Iss) (a b : BitVec 3) (s : State) : Op :=
  s.tileOp i Accepts.none 0x6 [] [] false ⟨bothSides a.toNat ++ bothSides b.toNat, [17]⟩ (fun _ => s.mmaPlan i a b 0x6 1)

-- conversion

/-- Whether a format may be converted from or to (R175). -/
def cvtTyped (f : Nat) : Bool := f != 0x0 && f != 0x9

/-- The rounding code of a conversion: the FMT prefix's, or the thread's (R175, R197). -/
def Thread.cvtRnd (x : Thread) (p : Pre) : Nat := if p.rndCode = 0 then x.rnd else p.rndCode

/-- Whether the FMT prefix's format is 0x0 or the destination's (R175). -/
def Pre.fmtIs (p : Pre) (f : Nat) : Bool :=
  match p.fmts with
  | (c, _) :: _ => c == 0 || c == f
  | [] => true

/-- TCVT (R175). -/
def opTcvt (i : Iss) (d a : BitVec 3) (s : State) : Op :=
  let x := s.thr i.site i.th
  let k := s.core i.site
  let tD := k.tile d.toNat
  let tS := k.tile a.toNat
  let row := x.resumeAt.1
  s.tileOp i acceptsFmt 0x5 [] [] false ⟨bothSides a.toNat, bothSides d.toNat⟩ (fun p =>
    if !p.fmtIs tD.fmt then .bad illegalOperand
    else if !s.tileOk i.site i.th d.toNat || !s.tileOk i.site i.th a.toNat then .bad ownerFault
    else if tD.nrows != tS.nrows || tD.elems != tS.elems || !cvtTyped tD.fmt || !cvtTyped tS.fmt then .bad shapeFault
    else if tS.anyPoison row then .bad poisonFault
    else .ok [.long ⟨0x5, d.toNat, a.toNat, 0, 0, x.cvtRnd p, x.ieee, row, 0, 0, none, none, x.bk, x.slice, x.spill⟩])

/-- TCVTA (R170, R175). -/
def opTcvta (i : Iss) (d a : BitVec 3) (s : State) : Op :=
  let x := s.thr i.site i.th
  let k := s.core i.site
  let tD := k.tile d.toNat
  let n := a.toNat % 2
  let c := k.accum n
  s.tileOp i acceptsFmt 0x7 [] [] false ⟨[16 + n], bothSides d.toNat⟩ (fun p =>
    if 2 ≤ a.toNat ∨ !p.fmtIs tD.fmt then .bad illegalOperand
    else if !s.tileOk i.site i.th d.toNat || !s.accOk i.site i.th n then .bad ownerFault
    else if tD.nrows != c.mrows || decide (tD.elems < c.ncols) || !cvtTyped tD.fmt then .bad shapeFault
    else .ok ((if c.dirty then [.drained n] else []) ++
      [.long ⟨0x7, d.toNat, n, 0, 0, x.cvtRnd p, x.ieee, x.resumeAt.1, 0, 0, none, none, x.bk, x.slice, x.spill⟩]))

-- accumulators

/-- TZA (R169): payload [5] is the accumulator and [4:3] 0. -/
def opTza (i : Iss) (acc : BitVec 3) (a : BitVec 3) (s : State) : Op :=
  let x := s.thr i.site i.th
  let q := Iss.pre i
  let n := acc.toNat / 4
  s.tileOp i acceptsTile 0x8 [(extReg q.ah a).val] [] false ⟨[], [16 + n]⟩ (fun p =>
    let w := (x.sreg (extReg p.ah a)).toNat
    if !p.named false false || acc.toNat % 4 != 0 || bitsOf w 11 21 != 0 then .bad illegalOperand
    else if !s.accOk i.site i.th n then .bad ownerFault
    else .ok [.tza n w])

/-- Sixteen words of an accumulator row from column c0, columns at or beyond N as 0 (R170). -/
def Acc32.rowVec (a : Acc32) (m c0 : Nat) : Vec :=
  BitVec.ofNat 512 (packElems 32 ((List.range 16).map (fun j =>
    if c0 + j < a.ncols then (a.at_ m (c0 + j)).toNat else 0)))

/-- TMOVA and TWA planned (R170): body gets the accumulator's number, the row, and the even vector register. -/
def State.accRow (s : State) (i : Iss) (d a : BitVec 3) (p : Pre) (body : Nat → Nat → Fin 16 → Plan) : Plan :=
  let w := ((s.thr i.site i.th).sreg (extReg p.ah a)).toNat
  let n := bitsOf w 5 1
  let m := bitsOf w 0 5
  let r := extReg p.dh d
  if !p.named true false || r.val % 2 != 0 || bitsOf w 6 26 != 0 then .bad illegalOperand
  else if !s.accOk i.site i.th n then .bad ownerFault
  else if ((s.core i.site).accum n).mrows ≤ m then .bad shapeFault
  else body n m r

/-- The accumulator an operand word of TMOVA or TWA names. -/
def State.accNamed (s : State) (i : Iss) (a : BitVec 3) : Nat :=
  bitsOf ((s.thr i.site i.th).sreg (extReg (Iss.pre i).ah a)).toNat 5 1

/-- Registers TMOVA and TWA name. -/
def accRegs (i : Iss) (d a : BitVec 3) : List Nat :=
  let q := Iss.pre i
  [(extReg q.ah a).val, 16 + (extReg q.dh d).val, 17 + (extReg q.dh d).val]

/-- TMOVA (R170): a drain where DIRTY is 1. -/
def opTmova (i : Iss) (d a : BitVec 3) (s : State) : Op :=
  s.tileOp i acceptsTile 0x9 (accRegs i d a) [16 + (extReg (Iss.pre i).dh d).val, 17 + (extReg (Iss.pre i).dh d).val] false
    ⟨[16 + s.accNamed i a], []⟩ (fun p =>
    s.accRow i d a p (fun n m r =>
      let c := (s.core i.site).accum n
      .ok ([.v r (c.rowVec m 0), .v (r + 1) (c.rowVec m 16)] ++ (if c.dirty then [.drained n] else []))))

/-- TWA (R170). -/
def opTwa (i : Iss) (d a : BitVec 3) (s : State) : Op :=
  let x := s.thr i.site i.th
  s.tileOp i acceptsTile 0xE (accRegs i d a) [] false ⟨[], [16 + s.accNamed i a]⟩ (fun p =>
    s.accRow i d a p (fun n m r => .ok [.twa n m (x.vreg r) (x.vreg (r + 1))]))

-- rows and scale sides

/-- TRD (R164): the row is the immediate. -/
def opTrd (i : Iss) (t v : BitVec 3) (s : State) : Op :=
  let q := Iss.pre i
  s.tileOp i acceptsRow 0xA [16 + (extReg q.ah v).val] [16 + (extReg q.ah v).val] true ⟨[t.toNat], []⟩ (fun p =>
    let k := (s.core i.site).tile t.toNat
    let r := p.immS 0 0
    if !p.named false false then .bad illegalOperand
    else if !s.tileOk i.site i.th t.toNat then .bad ownerFault
    else if k.nrows ≤ r then .bad shapeFault
    else if k.poisoned r then .bad poisonFault
    else .ok [.v (extReg p.ah v) (BitVec.ofNat 512 (leNat (k.rowBytes r)))])

/-- TWR (R164). -/
def opTwr (i : Iss) (t v : BitVec 3) (s : State) : Op :=
  let x := s.thr i.site i.th
  let q := Iss.pre i
  s.tileOp i acceptsRow 0xB [16 + (extReg q.ah v).val] [] true ⟨[], [t.toNat]⟩ (fun p =>
    let k := (s.core i.site).tile t.toNat
    let r := p.immS 0 0
    if !p.named false false then .bad illegalOperand
    else if !s.tileOk i.site i.th t.toNat then .bad ownerFault
    else if k.nrows ≤ r then .bad shapeFault
    else .ok [.twr t.toNat r (x.vreg (extReg p.ah v))])

/-- The pieces of n bytes at an address, one a 64-byte line: address and length. -/
def linePieces (g n : Nat) : List (Nat × Nat) :=
  (granules g n).map (fun k => (max g (k * 64), min (g + n) (k * 64 + 64) - max g (k * 64)))

/-- The first line of n bytes that the core's cache does not hold; `whole` leaves out the lines that the bytes cover. -/
def Core.lineLacking (c : Core) (g n : Nat) (whole : Bool) : Option Nat :=
  ((linePieces g n).find? (fun (a, m) => (c.line a).isNone && !(whole && m == 64 && !c.filling a))).map Prod.fst

/-- n bytes read from the core's cache. -/
def Core.lineBytes (c : Core) (g n : Nat) : List Byte :=
  (linePieces g n).flatMap (fun (a, m) => match c.line a with | some l => l.at_ a m | none => List.replicate m 0)

/-- The observed sets that the core's lines hold for bytes (R282). -/
def Core.lineSeen (c : Core) (g n : Nat) : List Nat :=
  (linePieces g n).foldl (fun l (a, m) => match c.line a with | some k => setUnion l (k.seenAt a m) | none => l) []

/-- TLDS (R164, R165): the checks cover the size rounded up to 4 bytes, the bytes moved are ROWS x BPR (log 25). Where the
cache serves the address it waits for its lines; other memory is read when the data arrives. -/
def State.tldsPlan (s : State) (i : Iss) (t ea : Nat) : Plan :=
  let n := ((s.core i.site).tile t).scaleBytes
  let m := cdiv n 4 * 4
  if ea % 4 ≠ 0 then .bad ⟨0x09, ea, 0, false, none⟩
  else if n = 0 then .ok []
  else
    match s.resolve i.site i.th ea m needR ⟨.n, i.met⟩ false with
    | .error f => .bad f
    | .ok (.own off) =>
      if s.memBusy i.site i.th (padBase i.site + off) n (reachOf false true ea) then .stall
      else .ok (.scaleSet t (s.padBytes i.site off n) :: .seen (setsAt s.landObs (padBase i.site + off) n) :: s.metEff i off m)
    | .ok (.glob g) =>
      if s.isRegSpace g then .bad ⟨0x03, ea, 0, false, none⟩
      else if s.memBusy i.site i.th g n (reachOf false false ea) then .stall
      else if s.cacheable i.site g then
        match (s.core i.site).lineLacking g n false with
        | none => .ok [.scaleSet t ((s.core i.site).lineBytes g n), .seen ((s.core i.site).lineSeen g n)]
        | some a => (s.core i.site).lineWait ea a
      else .ok [.load ⟨.scale t n, 100, ea, g, false, false, 0, 0, none, none, 0, []⟩]

/-- TSTS (R164, R165). Poisoned rows poison every granule that it writes, as those of a TST do (R168; DEDUCED, log 25). -/
def State.tstsPlan (s : State) (i : Iss) (t ea : Nat) : Plan :=
  let k := (s.core i.site).tile t
  let n := k.scaleBytes
  let b := leBytes n k.scale.toNat
  let psn := k.anyPoison 0
  if ea % 4 ≠ 0 then .bad ⟨0x09, ea, 0, false, none⟩
  else if n = 0 then .ok []
  else
    match s.resolve i.site i.th ea (cdiv n 4 * 4) needW ⟨.n, i.met⟩ false with
    | .error f => .bad f
    | .ok (.own off) =>
      if s.memBusy i.site i.th (padBase i.site + off) n (reachOf true true ea) || s.slotHeld i.site off n then .stall
      else .ok (.store off true false b psn :: s.metEff i off (cdiv n 4 * 4))
    | .ok (.glob g) =>
      if s.isRegSpace g then .bad ⟨0x03, ea, 0, false, none⟩
      else if s.memBusy i.site i.th g n (reachOf true false ea) then .stall
      else if s.cacheable i.site g then
        match (s.core i.site).lineLacking g n true with
        | none => .ok ((linePieces g n).map (fun (a, m) => .store a false true ((b.drop (a - g)).take m) psn))
        | some a => (s.core i.site).lineWait ea a
      else .ok [.store g false false b psn]

/-- A scale-side operation. -/
def State.scaleOp (s : State) (i : Iss) (d a : BitVec 3) (code : Nat) (uses : Uses) (plan : Nat → Nat → Plan) : Op :=
  let x := s.thr i.site i.th
  let q := Iss.pre i
  s.tileOp i acceptsTile code [(extReg q.ah a).val] [] false uses (fun p =>
    if !p.named false false then .bad illegalOperand
    else if !s.tileOk i.site i.th d.toNat then .bad ownerFault
    else plan d.toNat (x.sreg (extReg p.ah a)).toNat)

/-- TLDS (R164). -/
def opTlds (i : Iss) (d a : BitVec 3) (s : State) : Op :=
  s.scaleOp i d a 0xC ⟨[], [8 + d.toNat]⟩ (s.tldsPlan i)

/-- TSTS (R164). -/
def opTsts (i : Iss) (d a : BitVec 3) (s : State) : Op :=
  s.scaleOp i d a 0xD ⟨[8 + d.toNat], []⟩ (s.tstsPlan i)

end Sys2Proof.Machine
end

