-- ==== Sys2Proof/Machine/TileRun.lean ====
section
/-! DEFINITION. Long tile operations as they run: rows moved and converted, groups of a TMMA, completion, stops and row faults
(R163, R167, R168, R171 to R178, R182, R200 to R206). -/

namespace Sys2Proof.Machine

/-- What moving one row comes to: done, a fault, or a wait for the fabric or for a command in the way. -/
inductive RowRes where
  | ok (s : State)
  | bad (s : State) (f : Flt)
  | wait (s : State)

/-- A thread's long operation changed. -/
def State.modLong (s : State) (site : Nat) (t : Fin 4) (f : TileOp → TileOp) : State :=
  s.modThr site t (fun x => { x with long := x.long.map f })

/-- A line that a tile row lacks (R243, R244): its fetch is started unless another demand miss is outstanding; a line of this module is
there with its own event, another node's when its response comes. -/
def State.rowLine (s : State) (site : Nat) (t : Fin 4) (ea a : Nat) (what : Arrival) : RowRes :=
  let c := s.core site
  let fetch (s : State) : RowRes :=
    match s.fetchLine site t a what with
    | (s, 0) => .ok s
    | (s, st) => .bad s (fabFault ea a st)
  if c.filling a then (if !s.isLocal a then .wait (s.sendFill site t a) else if s.lineHeld site a then .wait s else fetch s)
  else
    match c.lineErr.filter (fun e => e.1 == a) with
    | some (_, st) => .bad s (fabFault ea a st)
    | none =>
      if c.demand.isSome || s.lineHeld site a then .wait s
      else if s.isLocal a then fetch (s.startMiss site t a)
      else
        match s.fabRead (.fill site a) (s.actOf site) (s.thr site t).ctx a 64 with
        | (s, .sent _) => .wait (s.startMiss site t a)
        | (s, .ended st) => .bad s (fabFault ea a st)

/-- Every line of n bytes brought into the core's cache, but those that a write covers (R243, R244); at most k fetches. -/
def State.needLines (s : State) (site : Nat) (t : Fin 4) (ea g n : Nat) (write : Bool) (what : Arrival) : Nat → RowRes
  | 0 => .wait s
  | k + 1 =>
    match (s.core site).lineLacking g n write with
    | none => .ok s
    | some a =>
      match s.rowLine site t ea (a / 64 * 64) what with
      | .ok s => s.needLines site t ea g n write .ok k
      | r => r

/-- One row of a TLD written into its tile (R156, R168), which is full from then on. -/
def State.tileRow (s : State) (site : Nat) (t : Fin 4) (d r : Nat) (b : List Byte) (psn : Bool) : State :=
  s.modTile site d (fun k => (k.own (s.thr site t).ctx).setRow r (leNat b) psn)

/-- A row of a TLD that has come from an address of this module: written, and what it shows observed (R282). -/
def State.rowFrom (s : State) (site : Nat) (t : Fin 4) (d r : Nat) (b : List Byte) (psn : Bool) (seen : List Nat) : State :=
  (s.tileRow site t d r b psn).observeAll site t seen

/-- A row of a TLD read at a home of this module outside the cache, as the read fares (R229, R241, R253, R254, R258). -/
def State.rowRead (s : State) (site : Nat) (t : Fin 4) (o : TileOp) (r ea g : Nat) (what : Arrival) : RowRes :=
  let n := ((s.core site).tile o.d).rb
  let refused := match s.home g with
    | .pad st off => s.padRefuses st off n false
    | _ => false
  let bad : Flt := ⟨0x0B, ea, 0, false, none⟩
  let take (s : State) (psn : Bool) : RowRes :=
    let s := s.chargeBy site g n false
    .ok (s.rowFrom site t o.d r (s.bytes g n) (psn || s.poisoned g n) (setsAt s.landObs g n))
  if refused then .bad s bad
  else
    match what with
    | .ok => take (s.readGood g n) false
    | .parity => take ((s.readGood g n).meshParity (dieOf site)) true
    | .uncorrectable => take (s.spoilt g n) false
    | .busError => .bad (s.meshTimedOut (dieOf site) g) bad
    | .accessError => .bad s bad
    | .refused => .bad s bad

/-- The thread as it stood when its long operation issued: a write of a bank register, of the slice or of the spill unit beside it counts from
the next bundle on (R128). -/
def State.asIssued (s : State) (site : Nat) (t : Fin 4) (o : TileOp) : State :=
  s.modThr site t (fun x => { x with bk := o.bk, slice := o.slice, spill := o.spill })

/-- Row r of a TLD (R167, R168): `what` and `met` are what its read meets. -/
def State.tldRow (s : State) (site : Nat) (t : Fin 4) (o : TileOp) (r : Nat) (what : Arrival) (met : Nat) : RowRes :=
  let n := ((s.core site).tile o.d).rb
  let ea := (o.base + r * o.stride) % 2 ^ 32
  if ea / 2 ^ 29 ≠ o.base / 2 ^ 29 then .bad s ⟨0x08, ea, 0, false, none⟩
  else
    match (s.asIssued site t o).resolve site t ea n needR ⟨.t, met⟩ false with
    | .error f => .bad s f
    | .ok (.own off) =>
      let g := padBase site + off
      if s.memBusy site t g n (reachOf false true ea) then .wait s
      else
        let s := s.countConf site (s.confOf site off n ⟨.t, met⟩)
        let s := if what = .uncorrectable then s.spoilt g n else s
        .ok (s.rowFrom site t o.d r (s.padBytes site off n) (s.poisoned g n) (setsAt s.landObs g n))
    | .ok (.glob g) =>
      if s.isRegSpace g then .bad s ⟨0x03, ea, 0, false, none⟩
      else if s.memBusy site t g n (reachOf false false ea) then .wait s
      else if s.cacheable site g then
        match s.needLines site t ea g n false what 3 with
        | .ok s =>
          let s := if what = .uncorrectable then s.modCore site (fun c => c.spoilLine g) else s
          let c := s.core site
          let psn := (granules g n).any (fun k => match c.line (k * 64) with | some l => l.poison | none => false)
          .ok (s.rowFrom site t o.d r (c.lineBytes g n) psn (c.lineSeen g n))
        | x => x
      else if s.isLocal g then
        (if s.backBusy site g n || (s.thr site t).readsAhead (s.thr site t).loads.length g n then .wait s
         else s.rowRead site t o r ea g what)
      else
        match o.resp with
        | some (b, psn, 0) =>
          .ok ((s.tileRow site t o.d r b psn).modLong site t (fun o =>
            { o with
              tag := none
              resp := none }))
        | some (_, _, st) => .bad s (fabFault ea g st)
        | none =>
          if o.tag.isSome || s.backBusy site g n then .wait s
          else
            match s.fabRead (.load site t.val) (s.actOf site) (s.thr site t).ctx g n with
            | (s, .sent tag) => .wait (s.modLong site t (fun o => { o with tag := some tag }))
            | (s, .ended st) => .bad s (fabFault ea g st)

/-- Row r of a TST (R167, R168): a poisoned row poisons what it is written to. A byte of the row beyond correction poisons it (R155). -/
def State.tstRow (s : State) (site : Nat) (t : Fin 4) (o : TileOp) (r : Nat) (what : Arrival) (met : Nat) : RowRes :=
  let k := (s.core site).tile o.d
  let n := k.rb
  let b := k.rowBytes r
  let psn := k.poisoned r || what == .uncorrectable
  let ea := (o.base + r * o.stride) % 2 ^ 32
  let spoil (s : State) : State := if what = .uncorrectable then s.spoilRows site [(o.d, r)] else s
  if ea / 2 ^ 29 ≠ o.base / 2 ^ 29 then .bad s ⟨0x08, ea, 0, false, none⟩
  else
    match (s.asIssued site t o).resolve site t ea n needW ⟨.t, met⟩ false with
    | .error f => .bad s f
    | .ok (.own off) =>
      if s.memBusy site t (padBase site + off) n (reachOf true true ea) || s.slotHeld site off n then .wait s
      else .ok (((spoil s).countConf site (s.confOf site off n ⟨.t, met⟩)).padWrite site off b psn)
    | .ok (.glob g) =>
      if s.isRegSpace g then .bad s ⟨0x03, ea, 0, false, none⟩
      else if s.memBusy site t g n (reachOf true false ea) then .wait s
      else if s.cacheable site g then
        match s.needLines site t ea g n true (if what = .uncorrectable then .ok else what) 3 with
        | .ok s =>
          .ok ((linePieces g n).foldl (fun (s : State) (a, m) =>
            let s := s.cacheStore site t a ((b.drop (a - g)).take m)
            if psn then s.modCore site (fun c => c.spoilLine a) else s) (spoil s))
        | x => x
      else .ok ((spoil s).threadWrite site t g b psn false)

-- conversions

/-- The bits a row's elements draw, generator j mod 64 for element j, in element order (R199). -/
def Thread.drawRow (x : Thread) (stoch : Bool) (n : Nat) : Thread × List Nat :=
  if stoch then
    (List.range n).foldl (fun (y, l) j => (y.stepGens [j % 64], l ++ [y.draw (j % 64)])) (x, [])
  else (x, List.replicate n 0)

/-- Elements of a row converted into a tile's format: patterns with classes, and the scale of each block (R203 to R206). -/
def convertRow (d : Tile) (mode : Rnd) (ieee : Bool) (vs : List Val) (rs : List Nat) : List (Nat × Cls) × List Nat :=
  if d.scl then
    let b := blockSize d.fmt
    let scales := (List.range d.bpr).map (fun i => blockScale d.fmt ((vs.drop (i * b)).take b))
    ((vs.zip (rs.zip (List.range vs.length))).map (fun (v, r, j) => quantElem d.fmt (scales.getD (j / b) 0) mode r v), scales)
  else ((vs.zip rs).map (fun (v, r) => deliver d.fmt mode ieee r v), [])

/-- One row of TCVT or TCVTA: values converted, row and scales written, counts added (R175, R208). -/
def State.cvtRow (s : State) (site : Nat) (t : Fin 4) (o : TileOp) (r : Nat) (vs : List Val) : State :=
  let x := s.thr site t
  let d := (s.core site).tile o.d
  let mode := Rnd.ofCode o.rnd
  let (y, rs) := x.drawRow (mode == .stoch) vs.length
  let (es, sc) := convertRow d mode o.ovf vs rs
  let s := s.modThr site t (fun _ => y.addCounts (countAll (es.map Prod.snd)))
  s.modTile site o.d (fun k =>
    let k := (k.own x.ctx).setRow r (packElems (fmtWidth k.fmt) (es.map Prod.fst)) false
    (sc.zip (List.range sc.length)).foldl (fun k (v, b) => k.setScale r b v) k)

/-- Row r of a TCVT. -/
def State.tcvtRow (s : State) (site : Nat) (t : Fin 4) (o : TileOp) (r : Nat) : State :=
  let k := (s.core site).tile o.s
  s.cvtRow site t o r ((List.range k.elems).map (fun j => k.val r j))

/-- Row r of a TCVTA: columns at or beyond N are zero. -/
def State.tcvtaRow (s : State) (site : Nat) (t : Fin 4) (o : TileOp) (r : Nat) : State :=
  let c := (s.core site).accum o.s
  let n := ((s.core site).tile o.d).elems
  s.cvtRow site t o r ((List.range n).map (fun j => if j < c.ncols then c.val (c.at_ r j) else .fin false 0 0))

-- TMMA

/-- The product sum of one group for row m of tA and row n of tB (R201): elements g to g + len - 1. -/
def groupSum (a b : Tile) (m n g len : Nat) : Val :=
  (List.range len).foldl (fun acc i =>
    acc.add false ((value a.fmt (a.elem m (g + i))).mul (value b.fmt (b.elem n (g + i))))) (.fin false 0 0)

/-- The sum of the products' magnitudes of one group (R182). -/
def groupMag (a b : Tile) (m n g len : Nat) : Val :=
  (List.range len).foldl (fun acc i =>
    acc.add false ((value a.fmt (a.elem m (g + i))).mul (value b.fmt (b.elem n (g + i)))).abs) (.fin false 0 0)

/-- The scale exponent of a group, none where a scale is NaN (R201). -/
def groupExp (a b : Tile) (m n g : Nat) : Option Int :=
  match a.scaleExp m (g / 32), b.scaleExp n (g / 32) with
  | some x, some y => some (x + y)
  | _, _ => none

/-- A group's value with its scale; NaN where a scale is. -/
def scaled (v : Val) (e : Option Int) : Val :=
  match e with
  | some k => v.scale k
  | none => .nan

/-- Whether a finite magnitude is non-zero and below 2^-126. -/
def tiny (m : Nat) (e : Int) : Bool := m != 0 && exceeds 1 (-126) m e

/-- An FP32 result of R202 step 4 from an exact finite sum: overflow, flush, or rounded to nearest-even. -/
def fp32Sum (ieee : Bool) (neg : Bool) (m : Nat) (e : Int) : Nat × Cls :=
  if m = 0 then (0, .none)
  else if tiny m e then (if neg then 0x80000000 else 0, .flush)
  else
    match floatFmt 1 with
    | some f => roundFloat f .nearest ieee 0 neg m e
    | none => (0, .none)

/-- One group entering an FP32 accumulator element (R202). -/
def enterFloat (ieee : Bool) (acc p : Val) (e : Option Int) : Nat × Cls :=
  match acc, p, e with
  | .nan, _, _ => (0x7FC00000, .nan)
  | _, .nan, _ => (0x7FC00000, .nan)
  | _, _, none => (0x7FC00000, .nan)
  | acc, .inf n, _ =>
    match acc.add false (.inf n) with
    | .inf k => (if k then 0xFF800000 else 0x7F800000, .none)
    | _ => (0x7FC00000, .nan)
  | acc, .fin n m x, some k =>
    let big := exceeds m (x + k) (2 ^ 24 - 1) 104
    let v : Val := if big then (if ieee then .inf n else .fin n (2 ^ 24 - 1) 104)
      else if tiny m (x + k) then .fin n 0 0 else .fin n m (x + k)
    let c : Cls := if big then .sat else if tiny m (x + k) then .flush else .none
    let (r, d) : Nat × Cls :=
      match acc.add false v with
      | .nan => (0x7FC00000, .nan)
      | .inf j => (if j then 0xFF800000 else 0x7F800000, .none)
      | .fin j q y => fp32Sum ieee j q y
    (r, if c = .none then d else c)

/-- One group entering an INT32 accumulator element: exact, saturating (R202). -/
def enterInt (acc : Word) (p : Val) : Nat × Cls :=
  match p with
  | .fin n m e =>
    let t := acc.toInt + unitsOf n m e 0
    if 2147483647 < t then (0x7FFFFFFF, .sat) else if t < -2147483648 then (0x80000000, .sat) else (wrap 32 t, .none)
  | _ => (acc.toNat, .none)

/-- A checksum line with a group's values added (R182), rounded as the elements are. -/
def Acc32.lineAdd (a : Acc32) (l : Word) (vs : List Val) : Word :=
  let old : Val := if a.int then .ofInt (sgn 32 l.toNat) else value 0x1 l.toNat
  a.lineOf (old :: vs)

/-- One group of a TMMA entered for rows m0 on and columns n0 on of a quadrant (R171, R174, R182). -/
def Acc32.group (c : Acc32) (a b : Tile) (ieee : Bool) (ms ns : List Nat) (g len : Nat) : Acc32 × Counts :=
  let (c1, k) := ms.foldl (fun (c, k) m => ns.foldl (fun (acc : Acc32 × Counts) n =>
      let old := acc.1.at_ m n
      let p := groupSum a b m n g len
      let (r, cl) := if acc.1.int then enterInt old p else enterFloat ieee (value 0x1 old.toNat) p (groupExp a b m n g)
      (acc.1.set_ m n (BitVec.ofNat 32 r), acc.2.add cl.counts)) (c, k)) (c, Counts.zero)
  let v (m n : Nat) : Val := scaled (groupSum a b m n g len) (groupExp a b m n g)
  let w (m n : Nat) : Val := scaled (groupMag a b m n g len) (groupExp a b m n g)
  let c2 := ms.foldl (fun (c : Acc32) m =>
    { c with
      rowSum := put 0 c.rowSum m (c.lineAdd (get 0 c.rowSum m) (ns.map (fun n => v m n)))
      rowMag := put 0 c.rowMag m (c.lineAdd (get 0 c.rowMag m) (ns.map (fun n => w m n))) }) c1
  let c3 := ns.foldl (fun (c : Acc32) n =>
    { c with
      colSum := put 0 c.colSum n (c.lineAdd (get 0 c.colSum n) (ms.map (fun m => v m n)))
      colMag := put 0 c.colMag n (c.lineAdd (get 0 c.colMag n) (ms.map (fun m => w m n))) }) c2
  (c3.setDirty true, k)

/-- Rows and columns of a quadrant (R173): the whole accumulator in the 8-bit class. -/
def quadOf (wide : Bool) (q mrows ncols : Nat) : List Nat × List Nat :=
  if wide then
    (((List.range 16).map (· + 16 * (q / 2))).filter (· < mrows), ((List.range 16).map (· + 16 * (q % 2))).filter (· < ncols))
  else (if q = 0 then List.range mrows else [], if q = 0 then List.range ncols else [])

/-- The groups of a TMMA from (quad, kpos) in order: quadrant, first k, length (R171). -/
def mmaGroups (wide : Bool) (mrows ncols K quad kpos : Nat) : List (Nat × Nat × Nat) :=
  (List.range 4).flatMap (fun q =>
    let (ms, ns) := quadOf wide q mrows ncols
    if q < quad ∨ ms.isEmpty ∨ ns.isEmpty then []
    else (List.range (cdiv K 32)).filterMap (fun i =>
      if q = quad ∧ i * 32 < kpos then none else some (q, i * 32, min 32 (K - i * 32))))

/-- The accumulator of a TMMA's code. -/
def TileOp.accOf (o : TileOp) : Nat := if o.code = 0x6 then 1 else 0

/-- Groups of a TMMA entered, those for which `sel` holds (R174). -/
def State.runGroups (s : State) (site : Nat) (t : Fin 4) (o : TileOp) (sel : Nat × Nat × Nat → Bool) : State :=
  let k := s.core site
  let a := k.tile o.d
  let b := k.tile o.s
  let c := k.accum o.accOf
  let wide := fmtWidth a.fmt == 16
  let gs := (mmaGroups wide c.mrows c.ncols a.elems o.quad o.k).filter sel
  let (c, n) := gs.foldl (fun (acc : Acc32 × Counts) (q, g, len) =>
    let (ms, ns) := quadOf wide q c.mrows c.ncols
    let (c, m) := acc.1.group a b o.ovf ms ns g len
    (c, acc.2.add m)) (c, Counts.zero)
  (s.modAcc site o.accOf (fun _ => c)).modThr site t (fun x => x.addCounts n)

-- completion and stops

/-- A long operation done (R163, R180): the thread goes on where its bundle left it, and a trap or return beside the operation follows (R125,
R331). -/
def State.longDone (s : State) (site : Nat) (t : Fin 4) : State :=
  let acts := ((s.thr site t).after.map Onward.acts).getD []
  let s := s.modThr site t (fun x =>
    match x.after with
    | some o =>
      { x.setLoops o.loops with
        pc := o.pc
        long := none
        after := none
        prog := 0 }
    | none =>
      { x with
        long := none
        prog := 0 })
  (acts.foldl (fun s e => s.after site t e) s).stepDone site t

/-- thN.prog of a stop (R177). -/
def progWord (code : Nat) (flt : Bool) (quad kpos row : Nat) : Word :=
  BitVec.ofNat 32 (2 ^ 31 + code <<< 28 + b2n flt <<< 27 + quad <<< 25 + kpos <<< 18 + row <<< 13)

/-- A long operation stopped with its progress (R176 to R178): the thread stands at the operation's bundle, whose
transfer or loop-back it keeps (R125, log 42). -/
def State.longStop (s : State) (site : Nat) (t : Fin 4) (p : Word) : State :=
  s.modThr site t (fun x =>
    { x with
      long := none
      prog := p })

/-- A stop at a boundary ends a single step (R343). -/
def State.boundaryStop (s : State) (site : Nat) (t : Fin 4) (p : Word) : State :=
  let s := s.longStop site t p
  if (s.thr site t).stepping then s.stepDone site t else s

/-- A row fault (R167): progress with FLT 1, and the fault taken. -/
def State.rowFault (s : State) (site : Nat) (t : Fin 4) (o : TileOp) (r : Nat) (f : Flt) : State :=
  (s.longStop site t (progWord o.code true 0 0 r)).faultBundle site t Slot.M.num f

/-- One row of a row operation. -/
def State.oneRow (s : State) (site : Nat) (t : Fin 4) (o : TileOp) (r : Nat) (what : Arrival) (met : Nat) : RowRes :=
  match o.code with
  | 0x2 => s.tldRow site t o r what met
  | 0x3 => s.tstRow site t o r what met
  | 0x5 => .ok (s.tcvtRow site t o r)
  | _ => .ok (s.tcvtaRow site t o r)

/-- How a run of rows ends: at its stop, in a fault, or waiting at a row. -/
inductive RunRes where
  | reached (s : State)
  | halted (s : State)

/-- Rows run from the operation's next row up to a stop, at most n of them; `what` and `met` are what the first of them meets. -/
def State.runRows (s : State) (site : Nat) (t : Fin 4) (stop : Nat) (what : Arrival) (met : Nat) : Nat → RunRes
  | 0 => .reached s
  | n + 1 =>
    match (s.thr site t).long with
    | none => .halted s
    | some o =>
      if stop ≤ o.row then .reached s
      else
        match s.oneRow site t o o.row what met with
        | .ok s => (s.modLong site t (fun o => { o with row := o.row + 1 })).runRows site t stop .ok 0 n
        | .wait s => .halted s
        | .bad s f => .halted (s.rowFault site t o o.row f)

/-- Rows of a row operation. -/
def State.rowsOf (s : State) (site : Nat) (o : TileOp) : Nat := ((s.core site).tile o.d).nrows

/-- Whether an operation is a TMMA. -/
def TileOp.mma (o : TileOp) : Bool := o.code == 0x4 || o.code == 0x6

/-- The groups that a TMMA has left, from its progress on. -/
def State.groupsOf (s : State) (site : Nat) (o : TileOp) : List (Nat × Nat × Nat) :=
  let a := (s.core site).tile o.d
  let c := (s.core site).accum o.accOf
  mmaGroups (fmtWidth a.fmt == 16) c.mrows c.ncols a.elems o.quad o.k

/-- The first boundary after an operation's progress, as TILE_OP_STOP numbers it (R176); none where it is the operation's end. -/
def State.firstStop (s : State) (site : Nat) (o : TileOp) : Option Nat :=
  if o.mma then
    let len := ((s.core site).tile o.d).elems
    let qs := (s.groupsOf site o).map Prod.fst
    let next := if o.k + 4 ≤ len then some (o.quad, o.k + 4) else (qs.find? (fun q => decide (o.quad < q))).map (fun q => (q, 4))
    next.bind (fun (q, k) => if qs.getLast? = some q ∧ len ≤ k then none else some (q * 256 + k))
  else
    let r := (o.row / 4 + 1) * 4
    if r < s.rowsOf site o then some r else none

/-- The boundary that a single step must stop a long operation at (R343). -/
def State.stepStop (s : State) (site : Nat) (t : Fin 4) (o : TileOp) : Option Nat :=
  if (s.thr site t).stepping then s.firstStop site o else none

/-- TILE_OP_COMPLETE (R163): a thread's long operation runs to its end. With none in flight nothing happens; a row whose data
is not there yet keeps it running, and a single step stops at the first boundary that is not its end (R343). `x` names the thread and says what
its next row meets. -/
def execTileOpComplete (site : Nat) (x : TileTurn) (s : State) : Res :=
  let th := x.th
  done (match (s.thr site th).long with
    | none => s
    | some o =>
      if s.gated site || (s.stepStop site th o).isSome then s
      else if o.mma then (s.runGroups site th o (fun _ => true)).longDone site th
      else
        match s.runRows site th (s.rowsOf site o) x.what x.met 33 with
        | .reached s => s.longDone site th
        | .halted s => s)

/-- Whether something stops a thread's long operation: a halt, a debug stop or step, or an interrupt (R176, R343). -/
def State.mustStop (s : State) (site : Nat) (t : Fin 4) : Bool :=
  s.halted site t || (s.thr site t).stepping || (s.thr site t).dbgStop || s.interrupted site t || s.delivered site t

/-- Whether group (q, g, len) has entered when a TMMA stops after k k-steps of quadrant quad (R178). -/
def entered (quad k : Nat) (x : Nat × Nat × Nat) : Bool :=
  decide (x.1 < quad) || (x.1 == quad && decide (x.2.1 + x.2.2 ≤ k))

/-- A TMMA stopped after k k-steps of quadrant quad, or completed where nothing is left (R176, R178). -/
def State.stopMma (s : State) (site : Nat) (t : Fin 4) (o : TileOp) (quad k : Nat) : State :=
  let c := s.core site
  let a := c.tile o.d
  let all := s.groupsOf site o
  if k % 4 ≠ 0 ∨ a.elems < k ∨ quad < o.quad ∨ (quad = o.quad ∧ k ≤ o.k) ∨ !(all.any (fun x => x.1 == quad)) then s
  else
    let s := s.runGroups site t o (entered quad k)
    match all.find? (fun x => !entered quad k x) with
    | none => s.longDone site t
    | some (q, g, _) => s.boundaryStop site t (progWord o.code false q g 0)

/-- TILE_OP_STOP (R176 to R178): a long operation that must stop does so at a boundary: `boundary` is the row, a multiple of
4, or for a TMMA 256 times the quadrant plus the k-step. A boundary at the end completes the operation; a single step takes the first (R343). -/
def execTileOpStop (site : Nat) (x : TileTurn) (boundary : Nat) (s : State) : Res :=
  let th := x.th
  done (match (s.thr site th).long with
    | none => s
    | some o =>
      if s.gated site || !s.mustStop site th || (s.stepStop site th o).any (fun k => k != boundary) then s
      else if o.mma then s.stopMma site th o (boundary / 256) (boundary % 256)
      else if boundary % 4 ≠ 0 ∨ boundary ≤ o.row then s
      else
        let n := s.rowsOf site o
        match s.runRows site th (min boundary n) x.what x.met 33 with
        | .halted s => s
        | .reached s =>
          if n ≤ boundary then s.longDone site th
          else s.boundaryStop site th (progWord o.code false 0 0 boundary))

end Sys2Proof.Machine
end

