-- ==== Sys2Proof/Machine/Sync.lean ====
section
/-! DEFINITION. Cue, queue, DMA and memory-side operations of class 0b101 (R234 to R236, R284, R286 to R307, R313 to
R315). -/

namespace Sys2Proof.Machine

/-- Prefixes of OP 0x0 to 0x8 of class 0b101 (R286, R314). -/
def acceptsSync : Accepts := ⟨true, true, 0⟩

/-- Whether the prefix fields R286 fixes are 0: P and DH, and B where the operation does not name it. -/
def Pre.sync (p : Pre) (b : Bool) : Bool := p.p == 0 && p.dh == 0 && (b || p.b == 0)

/-- The immediate of a class 0b101 operation (R118): it has no field of its own. -/
def Pre.imm (p : Pre) : Nat := p.immS 0 0

/-- The bound of a wait (R97, R292): sB cycles with a REG prefix, else thN.mwait; the curtain bounds every wait. -/
def State.boundOf (s : State) (x : Thread) (p : Pre) : Option Nat :=
  if p.hasReg then some (s.cycNow + (x.sreg (Fin.ofNat 16 p.b)).toNat)
  else if x.mwait = 0 then none else some (s.cycNow + x.mwait.toNat)

/-- An invalid cue handle (R288, R331). -/
def badHandle (h : Nat) : Flt := ⟨0x11, h, 0, false, none⟩

/-- A class 0b101 operation of T slot, with the registers it names and those it writes. -/
def State.sync (s : State) (i : Iss) (regs dst : List Nat) (body : Thread → Pre → Plan) : Op :=
  .of i .T acceptsSync regs dst (body (s.thr i.site i.th))

/-- The register A of an operation. -/
def regA (i : Iss) (a : BitVec 3) : Fin 16 := extReg (Iss.pre i).ah a

/-- The register B of a REG prefix, where there is one. -/
def regB (i : Iss) : List Nat := if (Iss.pre i).hasReg then [(Iss.pre i).b] else []

-- cues

/-- CSIG (R288, R289): a target on the issuing core is translated at issue, any other at its destination. -/
def opCsig (i : Iss) (a b : BitVec 3) (s : State) : Op :=
  s.sync i [(regA i a).val] [] (fun x p =>
    let w := (x.sreg (regA i a)).toNat
    let g := tgtOf w
    let h := p.imm
    if !p.sync false || decide (64 ≤ h) || !g.clean then .bad illegalOperand
    else if g.isLocal || (s.tgtHere g && g.site == i.site) then
      match s.cueMap i.site x.ctx h with
      | none => .bad (badHandle h)
      | some (c, _) => .ok [.cueSignal (some c) w h (b.toNat + 1)]
    else if s.tgtHere g && !s.good g.site then .bad ⟨0x0A, w, 0, false, none⟩
    else .ok [.cueSignal none w h (b.toNat + 1)])

/-- CWAIT (R292); one whose bundle waits already keeps the counter that it was translated to (R288). -/
def opCwait (i : Iss) (a b : BitVec 3) (s : State) : Op :=
  s.sync i ((regA i a).val :: regB i) [(regA i a).val] (fun x p =>
    let h := p.imm
    if !p.sync true || decide (64 ≤ h) || b != 0 then .bad illegalOperand
    else
      match ((x.wait.bind Wait.counter).map (fun c => (c, false))).or (s.cueMap i.site x.ctx h) with
      | none => .bad (badHandle h)
      | some (c, _) => .ok [.wait ⟨.cwait c, (regA i a).val, s.boundOf x p, s.frame, 0, none⟩])

/-- CTAKE (R294). -/
def opCtake (i : Iss) (a b : BitVec 3) (s : State) : Op :=
  s.sync i [(regA i a).val] [(regA i a).val] (fun x p =>
    let h := p.imm
    if !p.sync false || decide (64 ≤ h) || b != 0 then .bad illegalOperand
    else
      match s.cueMap i.site x.ctx h with
      | none => .bad (badHandle h)
      | some (c, _) =>
        let n := s.cueCount i.site c
        if n = 0 then .bad ⟨0x12, h, 0, false, none⟩
        else .ok [.cueTake c, .s (regA i a) (BitVec.ofNat 32 (n - 1))])

/-- CARM (R295) with immediate bit 6 at 0. -/
def opCarm (i : Iss) (a b : BitVec 3) (s : State) : Op :=
  s.sync i [] [64 + 4 * 0xB1 + i.th.val] (fun x p =>
    let h := p.imm
    if !p.sync false || decide (64 ≤ h) || a != 0 || b != 0 || p.ah != 0 then .bad illegalOperand
    else
      match s.cueMap i.site x.ctx h with
      | none => .bad (badHandle h)
      | some (c, _) => .ok [.cueArm h c])

/-- CARM with immediate bit 6 at 1 (R295): the handle is not used. -/
def opCarmDisarm (i : Iss) (a b : BitVec 3) (s : State) : Op :=
  s.sync i [] [64 + 4 * 0xB1 + i.th.val] (fun _ p =>
    let h := p.imm
    if !p.sync false || decide (h < 64) || decide (128 ≤ h) || a != 0 || b != 0 || p.ah != 0 then .bad illegalOperand
    else .ok [.cueDisarm])

-- queues

/-- The words of a QSEND piece: words 0 to imm[2:0] of vA (R286, R299). -/
def Thread.piece (x : Thread) (r : Fin 16) (n : Nat) : List (BitVec 64) :=
  (List.range (n + 1)).map (fun k => BitVec.ofNat 64 (elemAt 64 (x.vreg r).toNat k))

/-- QSEND without COMMIT (R299). -/
def opQsend (i : Iss) (a b : BitVec 3) (s : State) : Op :=
  s.sync i [16 + (regA i a).val] [] (fun x p =>
    let ws := x.piece (regA i a) p.imm
    if !p.sync false || decide (8 ≤ p.imm) || b != 0 || decide (32 < x.staging.length + ws.length) then .bad illegalOperand
    else .ok [.stage ws])

/-- The reserved bits of a destination word (R299). -/
def dstClean (w : Nat) : Bool := bitsOf w 27 4 == 0 && !bitOf w 11

/-- The site a destination word names; none for another node (R298, R299). -/
def State.dstSite (s : State) (site w : Nat) : Option Nat :=
  if bitOf w 31 then some site
  else if bitsOf w 12 12 = 0 ∨ bitsOf w 12 12 = s.ownNode then some (bitsOf w 0 11)
  else none

/-- QSEND with COMMIT (R298 to R300). -/
def opQsendCommit (i : Iss) (a b : BitVec 3) (s : State) : Op :=
  s.sync i ((16 + (regA i a).val) :: regB i) (regB i) (fun x p =>
    let ws := x.piece (regA i a) p.imm
    let w := (x.sreg (Fin.ofNat 16 p.b)).toNat
    if !p.sync true || !p.hasReg || decide (8 ≤ p.imm) || b != 4 || decide (32 < x.staging.length + ws.length) ||
      !dstClean w then .bad illegalOperand
    else
      match s.dstSite i.site w with
      | none => .bad ⟨0x03, 0, 0, false, none⟩
      | some d =>
        if !bitOf w 31 && !s.good d then .bad ⟨0x0A, w, 0, false, none⟩
        else
          .ok [.stage ws, .wait ⟨.qsend d (bitsOf w 24 3), p.b,
            (if x.mwait = 0 then none else some (s.cycNow + x.mwait.toNat)), s.frame, 0, none⟩])

/-- Whether a thread may receive from a queue (R298). -/
def State.readerOk (s : State) (site : Nat) (t : Fin 4) (q : Nat) : Bool :=
  s.cfld site (QQ_CFG_READER q) == t.val && s.cfld site (QQ_CFG_CTX q) == (s.thr site t).ctx

/-- Whether a queue has a received message not yet released (R304). -/
def State.qHolds (s : State) (site q : Nat) : Bool := ((s.core site).qHeld[Fin.ofNat 8 q]).isSome

/-- QRECV of a kind (R303, R304): `held` says whether the kind needs a held message. -/
def State.qrecv (s : State) (i : Iss) (a b : BitVec 3) (kind : Nat) (held : Bool) (effs : Thread → Pre → List Eff) : Op :=
  s.sync i ((regA i a).val :: regB i) (if kind = 1 then [] else [(regA i a).val]) (fun x p =>
    if !p.sync true || p.imm != kind then .bad illegalOperand
    else if !s.readerOk i.site i.th b.toNat || s.qHolds i.site b.toNat != held then .bad ⟨0x03, 0, 0, false, none⟩
    else .ok (effs x p))

/-- QRECV with kind 0 (R303). -/
def opQrecv (i : Iss) (a b : BitVec 3) (s : State) : Op :=
  s.qrecv i a b 0 false (fun x p => [.wait ⟨.qrecv b.toNat, (regA i a).val, s.boundOf x p, s.frame, 0, none⟩])

/-- QRECV with kind 1 (R304). -/
def opQrecvRelease (i : Iss) (a b : BitVec 3) (s : State) : Op :=
  s.qrecv i a b 1 true (fun _ _ => [.qrelease b.toNat])

/-- QRECV with kind 2 (R304). -/
def opQrecvReleaseReceive (i : Iss) (a b : BitVec 3) (s : State) : Op :=
  s.qrecv i a b 2 true (fun x p =>
    [.qrelease b.toNat, .wait ⟨.qrecv b.toNat, (regA i a).val, s.boundOf x p, s.frame, 0, none⟩])

/-- QCLOSE with its immediate bit (R298, R305). -/
def State.qclosing (s : State) (i : Iss) (a b : BitVec 3) (bit : Nat) (e : Eff) : Op :=
  s.sync i [] [] (fun _ p =>
    if !p.sync false || p.ah != 0 || a != 0 || p.imm != bit then .bad illegalOperand
    else if i.th ≠ 0 ∧ !s.readerOk i.site i.th b.toNat then .bad ⟨0x03, 0, 0, false, none⟩
    else .ok [e])

/-- QCLOSE with bit 0 at 0 (R305). -/
def opQclose (i : Iss) (a b : BitVec 3) (s : State) : Op := s.qclosing i a b 0 (.qclose b.toNat)

/-- QCLOSE with bit 0 at 1, which opens the queue (R305). -/
def opQopen (i : Iss) (a b : BitVec 3) (s : State) : Op := s.qclosing i a b 1 (.qopen b.toNat)

-- DMA

/-- Whether a command's ranges touch what the thread's unfinished commands touch (R277). -/
def State.dmaBusy (s : State) (site : Nat) (t : Fin 4) (x : Desc) : Bool :=
  x.ranges.any (fun (g, n, w, _, _) => decide (0 < n) && s.hazard site t (s.spaceOf g) n ⟨w, (s.ownPart site g n).isSome, true⟩)

/-- DMAGO (R313, R314): with four commands queued it is not ready, whatever its descriptor holds; else the descriptor read as a VLD would read it,
the checks, then the command and its ticket. -/
def opDmago (i : Iss) (a b : BitVec 3) (s : State) : Op :=
  s.sync i [(regA i a).val] [(regA i a).val] (fun x p =>
    let ea := (x.sreg (regA i a)).toNat
    if !p.sync false || p.imm != 0 || decide (2 ≤ b.toNat) then .bad illegalOperand
    else if ea % 64 ≠ 0 then .bad ⟨0x09, ea, 0, false, none⟩
    else
      match s.checkOwn i.site i.th ea ea 64 needR ⟨.n, i.met⟩ with
      | .error f => .bad f
      | .ok _ =>
        let c : Fin 2 := Fin.ofNat 2 b.toNat
        let k := (s.core i.site).chans[c]
        let desc := BitVec.ofNat 512 (leNat (s.padBytes i.site ea 64))
        if decide (4 ≤ k.queue.length) || s.memBusy i.site i.th (padBase i.site + ea) 64 (reachOf false true ea) then .stall
        else if s.poisoned (padBase i.site + ea) 64 then .bad ⟨0x30, ea, 0, false, none⟩
        else
          match s.checkDesc i.site i.th ea (descOf desc) with
          | some f => .bad f
          | none =>
            if s.dmaBusy i.site i.th (descOf desc) then .stall
            else .ok ([.s (regA i a) (BitVec.ofNat 32 k.next), .dmago c.val desc] ++ s.metEff i ea 64))

/-- DMAWAIT of a kind (R314, R315): `drain` is payload bit 1. -/
def State.dmawait (s : State) (i : Iss) (a b : BitVec 3) (drain : Nat) (kind : Thread → WaitKind) : Op :=
  s.sync i ((regA i a).val :: regB i) [(regA i a).val] (fun x p =>
    if !p.sync true || p.imm != 0 || b.toNat / 2 != drain then .bad illegalOperand
    else .ok [.wait ⟨kind x, (regA i a).val, s.boundOf x p, s.frame, 0, none⟩])

/-- DMAWAIT on a ticket (R315). -/
def opDmawait (i : Iss) (a b : BitVec 3) (s : State) : Op :=
  s.dmawait i a b 0 (fun x => .dma (b.toNat % 2) ((x.sreg (regA i a)).toNat % 65536))

/-- DMAWAIT with DRAIN (R284, R315). -/
def opDmawaitDrain (i : Iss) (a b : BitVec 3) (s : State) : Op := s.dmawait i a b 1 (fun _ => .drain)

-- memory-side operations

/-- A fifth operation waits, and one over bytes of an unfinished command or of a slot not yet read (R151, R236, R277). -/
def State.memWaits (s : State) (i : Iss) (fill : Bool) (dst src len : Nat) : Bool :=
    len != 0 && (decide (4 ≤ (s.core i.site).memOps.length) || s.slotHeld i.site dst len ||
      s.memBusy i.site i.th (padBase i.site + dst) len ⟨true, true, false⟩ ||
      (!fill && s.memBusy i.site i.th (padBase i.site + src) len ⟨false, true, false⟩))

/-- A memory-side operation planned (R234 to R236): `dst`, `src` and `len` are register values. -/
def State.memPlan (s : State) (i : Iss) (p : Pre) (fill : Bool) (dst src len : Nat) (pat : Word) : Plan :=
  let x := s.thr i.site i.th
  let n := p.immU 0 0
  let cue := if bitOf n 6 then some (n % 64) else none
  let ranges := if fill then [dst] else [dst, src]
  if !p.hasReg || p.p != 0 || decide (1 < p.imms.length) || decide (128 ≤ n) then .bad illegalOperand
  else if len != 0 && (ranges.any (fun o => o % 64 != 0) || len % 64 != 0) then .bad ⟨0x09, 0, 0, false, none⟩
  else if len != 0 && ranges.any (fun o => decide (0x80000 < o + len)) then .bad ⟨0x0A, 0, 0, false, none⟩
  else
    match (if len = 0 then none else ranges.find? (fun o => !s.sliceOk i.site i.th o len)) with
    | some o => .bad ⟨0x04, o, 0, false, none⟩
    | none =>
      if len != 0 && s.slotRo i.site dst len then .bad ⟨0x05, 0, 0, false, none⟩
      else
        match cue with
        | some h =>
          if (s.cueMap i.site x.ctx h).isNone then .bad (badHandle h)
          else if s.memWaits i fill dst src len then .stall else .ok [.mem fill dst src len pat cue]
        | none => if s.memWaits i fill dst src len then .stall else .ok [.mem fill dst src len pat cue]

/-- The registers of MFILL and MCOPY: A, B and sC (R234). -/
def memRegs (i : Iss) (a b : BitVec 3) : List (Fin 16) :=
  let q := Iss.pre i
  [extReg q.ah a, extReg q.dh b, Fin.ofNat 16 q.b]

/-- MFILL and MCOPY issued; f picks destination, source, length and pattern from sA, sB and sC. -/
def State.memOp (s : State) (i : Iss) (a b : BitVec 3) (fill : Bool) (f : Nat → Nat → Nat → Nat × Nat × Nat × Nat) : Op :=
  let x := s.thr i.site i.th
  .of i .T acceptsSync ((memRegs i a b).map Fin.val) [] (fun p =>
    let (d, src, len, pat) := f (x.sreg (extReg p.ah a)).toNat (x.sreg (extReg p.dh b)).toNat (x.sreg (Fin.ofNat 16 p.b)).toNat
    s.memPlan i p fill d src len (BitVec.ofNat 32 pat))

/-- MFILL (R234). -/
def opMfill (i : Iss) (a b : BitVec 3) (s : State) : Op := s.memOp i a b true (fun x y z => (x, 0, y, z))

/-- MCOPY (R234). -/
def opMcopy (i : Iss) (a b : BitVec 3) (s : State) : Op := s.memOp i a b false (fun x y z => (x, z, y, 0))

/-- The rows that a memory-side operation writes, with their poison (R234, R236, R270): a copy's source as it stands when the operation
starts, as if the whole of it were read first. -/
def State.memRows (s : State) (site : Nat) (o : MemOp) : List (List Byte × Bool) :=
  (List.range (o.len / 64)).map (fun k =>
    if o.fill then ((List.replicate 16 (leBytes 4 o.pat.toNat)).flatten, false)
    else (s.padBytes site (o.src + 64 * k) 64, s.poisoned (padBase site + o.src + 64 * k) 64))

/-- Rows written one after another from a scratchpad offset (R236). -/
def State.putRows (s : State) (site off : Nat) : List (List Byte × Bool) → State
  | [] => s
  | (b, psn) :: t => (s.padWrite site off b psn).putRows site (off + 64) t

/-- MEMORY_OP_COMPLETE (R236): the engine writes that many rows of its oldest operation, each seen from then on; with the last of them the
operation is done and its cue is signalled. -/
def execMemoryOpComplete (x : MemTurn) (s : State) : Res :=
  let site := x.site
  done (match (s.core site).memOps with
    | [] => s
    | o :: rest =>
      let l := o.left.getD (s.memRows site o)
      let s := s.putRows site (o.dst + 64 * o.done) (l.take x.rows)
      let left := l.drop x.rows
      if !left.isEmpty then
        let o : MemOp :=
          { o with
            left := some left
            done := o.done + x.rows }
        s.modCore site (fun c => { c with memOps := o :: rest })
      else
        let s := s.modCore site (fun c => { c with memOps := rest })
        match o.cue with
        | some h => s.signal ⟨site, none, h, o.ctx, false, 1, setAdd o.obs o.cmd, 0⟩
        | none => s)

end Sys2Proof.Machine
end

