-- ==== Sys2Proof/Machine/System.lean ====
section
/-! DEFINITION. The system operations of class 0b111 (R95 to R97, R101, R102, R150 to R153, R332, R343). -/

namespace Sys2Proof.Machine

/-- Prefixes of MFS, MTS, MFS.D and MTS.D (R120). -/
def acceptsNum : Accepts := ⟨true, true, 0⟩

/-- A system operation of slot S. -/
def State.system (s : State) (i : Iss) (acc : Accepts) (regs : List Nat) (dst : List Nat) (body : Thread → Pre → Plan) : Op :=
  .of i .S acc regs dst (body (s.thr i.site i.th))

/-- An operation without operands: A and B must be 0 (R150). -/
def State.bare (s : State) (i : Iss) (a b : BitVec 3) (body : Thread → Plan) : Op :=
  s.system i Accepts.none [] [] (fun x _ => if a != 0 || b != 0 then .bad illegalOperand else body x)

/-- NOP (R150). -/
def opNop (i : Iss) (a b : BitVec 3) (s : State) : Op := s.bare i a b (fun _ => .ok [])

/-- SLEEP (R95 to R97). -/
def opSleep (i : Iss) (a b : BitVec 3) (s : State) : Op :=
  s.bare i a b (fun x =>
    if x.maskBits = 0 then .bad illegalExec
    else .ok [.wait ⟨.sleep, 16, if x.mwait = 0 then none else some (s.cycNow + x.mwait.toNat), s.frame, 0, none⟩])

/-- TRAP (R150): the code is A:B. -/
def opTrap (i : Iss) (a b : BitVec 3) (s : State) : Op :=
  s.system i Accepts.none [] [] (fun _ _ => .ok [.trap 0x18 (a.toNat * 8 + b.toNat)])

/-- BRK (R150, R342, R343): no effect in a replay, a debug stop in a rehearsal context, a breakpoint trap elsewhere. -/
def opBrk (i : Iss) (a b : BitVec 3) (s : State) : Op :=
  s.bare i a b (fun x =>
    if s.replaying i.site i.th then .ok []
    else if s.rehearsal x.ctx then .ok [.brkStop]
    else .ok [.trap 0x19 0])

/-- ERET planned (R332). -/
def State.eretPlan (s : State) (i : Iss) (t : Nat) : Plan :=
  let x := s.thr i.site i.th
  if x.level = .l2 then (if t = i.th.val then .ok [.eret i.th] else .bad illegalOperand)
  else if i.th ≠ 0 then .bad illegalExec
  else if t = 0 then (if x.level = .l1 then .ok [.eret 0] else .bad illegalExec)
  else if bitOf (s.core i.site).trapPend.toNat t then .ok [.eret (Fin.ofNat 4 t)]
  else .bad illegalOperand

/-- ERET (R150, R332). -/
def opEret (i : Iss) (a b : BitVec 3) (s : State) : Op :=
  s.system i Accepts.none [] [] (fun _ _ =>
    if a != 0 || 4 ≤ b.toNat then .bad illegalOperand else s.eretPlan i b.toNat)

-- state registers

/-- Whether the REG fields are those a system operation admits: AH alone, and DH where B names a register (R150). -/
def Pre.sys (p : Pre) (dh : Bool) : Bool := p.b == 0 && p.p == 0 && (dh || p.dh == 0)

/-- The state register a number names for a thread, of a width (R153): its number and the thread it belongs to. -/
def stNumber (t : Fin 4) (n width : Nat) : Except Flt (Nat × Fin 4) :=
  let r := n % 512
  if 4096 ≤ n then .error illegalOperand
  else if stWidth r ≠ some width then .error illegalOperand
  else if stCore32 r || r == 0 then .ok (r, t)
  else if bitOf n 11 && t != 0 && bitsOf n 9 2 != t.val then .error ⟨0x03, n, 0, false, none⟩
  else .ok (r, if bitOf n 11 then Fin.ofNat 4 (bitsOf n 9 2) else t)

/-- An access to a state register planned (R153): `even` for the 64-bit forms. -/
def State.stPlan (s : State) (i : Iss) (a b : BitVec 3) (width : Nat) (regs dst : List Nat)
    (body : Thread → Fin 16 → Nat → Fin 4 → Plan) : Op :=
  s.system i acceptsNum regs dst (fun x p =>
    let r := extReg p.ah a
    if !p.sys false || (width == 64 && r.val % 2 != 0) then .bad illegalOperand
    else
      match stNumber i.th (p.immU b.toNat 3) width with
      | .error f => .bad f
      | .ok (n, u) => body x r n u)

/-- The state register that an MTS names, as Eff.writes numbers it (R123, R153). -/
def stDst (i : Iss) (b : BitVec 3) (width : Nat) : List Nat :=
  match stNumber i.th ((Iss.pre i).immU b.toNat 3) width with
  | .ok (n, u) => [64 + 4 * n + u.val]
  | .error _ => []

/-- The step an access to num.seed makes (R210). -/
def seedEff (n : Nat) (u : Fin 4) : List Eff := if n = 0x025 then [.seedStep u] else []

/-- MFS (R153). -/
def opMfs (i : Iss) (a b : BitVec 3) (s : State) : Op :=
  s.stPlan i a b 32 [(regA i a).val] [(regA i a).val] (fun _ r n u =>
    .ok (.s r (BitVec.ofNat 32 (s.stRead i.site u n)) :: seedEff n u))

/-- MTS (R153). -/
def opMts (i : Iss) (a b : BitVec 3) (s : State) : Op :=
  s.stPlan i a b 32 [(regA i a).val] (stDst i b 32) (fun x r n u =>
    match s.stWriteFault i.site i.th n (x.sreg r).toNat with
    | some f => .bad f
    | none => .ok [.streg n u ((x.sreg r).setWidth 64)])

/-- MFS.D (R153): low half first. -/
def opMfsD (i : Iss) (a b : BitVec 3) (s : State) : Op :=
  s.stPlan i a b 64 [(regA i a).val, (regA i a).val + 1] [(regA i a).val, (regA i a).val + 1] (fun _ r n u =>
    let v := s.stRead i.site u n
    .ok [.s r (BitVec.ofNat 32 v), .s (r + 1) (BitVec.ofNat 32 (v / 2 ^ 32))])

/-- Two scalar registers as one 64-bit value. -/
def Thread.pair (x : Thread) (r : Fin 16) : BitVec 64 := (x.sreg (r + 1)) ++ (x.sreg r)

/-- MTS.D (R153). -/
def opMtsD (i : Iss) (a b : BitVec 3) (s : State) : Op :=
  s.stPlan i a b 64 [(regA i a).val, (regA i a).val + 1] (stDst i b 64) (fun x r n u => .ok [.streg n u (x.pair r)])

-- bank registers

/-- Whether a bank's window overlaps an entry of a context's region table (R102). -/
def State.bankOverlaps (s : State) (ctx base : Nat) : Bool :=
  (s.regions ctx).any (fun e => e.v && decide (e.base < (base + 1) * 2 ^ 29) && decide (base * 2 ^ 29 ≤ e.last))

/-- MTB (R101, R102). -/
def opMtb (i : Iss) (a b : BitVec 3) (s : State) : Op :=
  s.system i acceptsReg [(regA i a).val, (regA i a).val + 1] [40 + b.toNat] (fun x p =>
    let r := extReg p.ah a
    let base := (x.pair r).toNat / 2 ^ 29
    if !p.sys false || r.val % 2 != 0 || b == 0 then .bad illegalOperand
    else if !s.bankOverlaps x.ctx base then .bad ⟨0x07, b.toNat, 0, false, none⟩
    else .ok [.bank (Fin.ofNat 8 b.toNat) (BitVec.ofNat 64 (base * 2 ^ 29 + 1))])

/-- MFB (R101, R150): bk0 reads as 0. -/
def opMfb (i : Iss) (a b : BitVec 3) (s : State) : Op :=
  s.system i acceptsReg [(regA i a).val, (regA i a).val + 1] [(regA i a).val, (regA i a).val + 1] (fun x p =>
    let r := extReg p.ah a
    let v := if b = 0 then 0 else (x.bk[Fin.ofNat 8 b.toNat]).toNat
    if !p.sys false || r.val % 2 != 0 then .bad illegalOperand
    else .ok [.s r (BitVec.ofNat 32 v), .s (r + 1) (BitVec.ofNat 32 (v / 2 ^ 32))])

-- steps and batches

/-- Whether the thread runs in the context of the core's running batch (R151, R152). -/
def State.inBatch (s : State) (i : Iss) : Bool :=
  match (s.core i.site).batch with
  | some b => b.ctx == (s.thr i.site i.th).ctx
  | none => false

/-- Whether a slot index names a slot of the running batch with no step-end (R151). -/
def State.slotOpen (s : State) (site n : Nat) : Bool :=
  match (s.core site).batch with
  | some b => match b.slots[n]? with | some r => !r.ended | none => false
  | none => false

/-- A step-end (R151). -/
def State.stepEndOp (s : State) (i : Iss) (a b : BitVec 3) (cont : Bool) : Op :=
  let q := Iss.pre i
  s.system i acceptsReg [(extReg q.ah a).val, (extReg q.dh b).val] [] (fun x p =>
    let n := (x.sreg (extReg p.ah a)).toNat
    let len := (x.sreg (extReg p.dh b)).toNat
    if !p.sys true then .bad illegalOperand
    else if !s.inBatch i then .bad illegalExec
    else if !s.slotOpen i.site n || decide (64 < len) then .bad illegalOperand
    else .ok [.stepEnd n len cont])

/-- STEPEND (R151). -/
def opStepend (i : Iss) (a b : BitVec 3) (s : State) : Op := s.stepEndOp i a b false

/-- STEPENDC (R151, R82). -/
def opStependc (i : Iss) (a b : BitVec 3) (s : State) : Op := s.stepEndOp i a b true

/-- BATCHEND (R152, R247). -/
def opBatchend (i : Iss) (a b : BitVec 3) (s : State) : Op :=
  s.bare i a b (fun _ =>
    if !s.inBatch i then .bad illegalExec else .ok [.wait ⟨.batchEnd, 16, none, s.frame, 0, none⟩, .batchEnd])

end Sys2Proof.Machine
end

