-- ==== Sys2Proof/Machine/Fetch.lean ====
section
/-! DEFINITION. Syllables of program memory read as prefixes and operations (R116, R117, R131, R132, R143, R146, R148 to R150, R164, R286,
R314). -/

namespace Sys2Proof.Machine

/-- The stop bit of a syllable (R116). -/
def sylStop (w : BitVec 14) : Bool := w.msb

/-- The major class of a syllable (R116). -/
def sylClass (w : BitVec 14) : Nat := bitsOf w.toNat 10 3

/-- A prefix syllable (R117); one with the stop bit is illegal (R122). -/
def pfxOf (w : BitVec 14) : Pfx :=
  let n := w.toNat
  if sylStop w then .ill
  else if !bitOf n 9 then .imm (BitVec.ofNat 9 n)
  else if !bitOf n 8 then .reg (BitVec.ofNat 4 (bitsOf n 4 4)) (bitOf n 3) (bitOf n 2) (BitVec.ofNat 2 n)
  else if !bitOf n 7 then .fmt (BitVec.ofNat 4 (bitsOf n 3 4)) (BitVec.ofNat 3 n)
  else .ill

/-- Class 0b000 (R131). -/
def decScalar (i : Iss) (op : Nat) (d a : BitVec 3) : Instr :=
  match op with
  | 0x0 => .mov i d a
  | 0x1 => .add i d a
  | 0x2 => .sub i d a
  | 0x3 => .and i d a
  | 0x4 => .or i d a
  | 0x5 => .xor i d a
  | 0x6 => .shl i d a
  | 0x7 => .shr i d a
  | 0x8 => .sar i d a
  | 0x9 => .mul i d a
  | 0xA => .mulh i d a
  | 0xB => .mulhu i d a
  | 0xC => .slt i d a
  | 0xD => .sltu i d a
  | 0xE => .min i d a
  | _ => .max i d a

/-- Class 0b001 (R132): n is the payload. -/
def decImmediate (i : Iss) (n : Nat) : Instr :=
  let f (lo w : Nat) : BitVec w := BitVec.ofNat w (bitsOf n lo w)
  match bitsOf n 8 2, bitsOf n 6 2 with
  | 0, 0 => .addi i (f 2 4) (f 0 2)
  | 0, 1 => .li i (f 2 4) (f 0 2)
  | 0, 2 => .lih i (f 2 4) (f 0 2)
  | 0, _ => .andi i (f 2 4) (f 0 2)
  | 1, _ => .branch i (f 6 2) (f 2 4) (f 0 2)
  | 2, _ => if bitOf n 7 then .call i (f 0 7) else .br i (f 0 7)
  | _, 0 => .jr i (f 2 4) (f 0 2)
  | _, 1 => .callr i (f 2 4) (f 0 2)
  | _, 2 => .ret i (f 0 6)
  | _, _ => .loop i (f 5 1) (f 1 4) (f 0 1)

/-- Class 0b010 (R143); a VRED is the sum's, which refuses it, where REG.B names no reduction. -/
def decVector (i : Iss) (op : Nat) (d a : BitVec 3) : Instr :=
  match op with
  | 0x0 => .vmov i d a
  | 0x1 => .vadd i d a
  | 0x2 => .vsub i d a
  | 0x3 => .vmul i d a
  | 0x4 => .vfma i d a
  | 0x5 => .vmin i d a
  | 0x6 => .vmax i d a
  | 0x7 => .vand i d a
  | 0x8 => .vor i d a
  | 0x9 => .vxor i d a
  | 0xA => .vshift i d a
  | 0xB => .vcmp i d a
  | 0xC => .vsel i d a
  | 0xD => .vcvt i d a
  | 0xE => match (Iss.pre i).b with
    | 1 => .vredMax i d a
    | 2 => .vredMin i d a
    | _ => .vredSum i d a
  | _ => .vbc i d a

/-- Class 0b011 (R148, R164); 0xF is defined nowhere. -/
def decTile (i : Iss) (op : Nat) (d a : BitVec 3) : Option Instr :=
  match op with
  | 0x0 => some (.tcfg i d a)
  | 0x1 => some (.trel i d a)
  | 0x2 => some (.tld i d a)
  | 0x3 => some (.tst i d a)
  | 0x4 => some (.tmmaAcc0 i d a)
  | 0x5 => some (.tcvt i d a)
  | 0x6 => some (.tmmaAcc1 i d a)
  | 0x7 => some (.tcvta i d a)
  | 0x8 => some (.tza i d a)
  | 0x9 => some (.tmova i d a)
  | 0xA => some (.trd i d a)
  | 0xB => some (.twr i d a)
  | 0xC => some (.tlds i d a)
  | 0xD => some (.tsts i d a)
  | 0xE => some (.twa i d a)
  | _ => none

/-- Class 0b100 (R146); a DC is the clean's, which refuses it, where REG.B names no operation. -/
def decMemory (i : Iss) (op : Nat) (d a : BitVec 3) : Instr :=
  match op with
  | 0x0 => .ldw i d a
  | 0x1 => .ldh i d a
  | 0x2 => .ldhu i d a
  | 0x3 => .ldb i d a
  | 0x4 => .ldbu i d a
  | 0x5 => .stw i d a
  | 0x6 => .sth i d a
  | 0x7 => .stb i d a
  | 0x8 => .vld i d a
  | 0x9 => .vst i d a
  | 0xA => .ldu i d a
  | 0xB => .vldu i d a
  | 0xC => .aadd i d a
  | 0xD => .acas i d a
  | 0xE => .aswp i d a
  | _ => match (Iss.pre i).b with
    | 1 => .dcInvalidate i d a
    | 2 => .dcCleanInvalidate i d a
    | _ => .dcClean i d a

/-- Class 0b101 (R149, R286, R314, R234); codes 0xB to 0xF are illegal operations. -/
def decSync (i : Iss) (op : Nat) (a b : BitVec 3) : Option Instr :=
  let imm := Pre.imm (Iss.pre i)
  match op with
  | 0x0 => some (.csig i a b)
  | 0x1 => some (.cwait i a b)
  | 0x2 => some (.ctake i a b)
  | 0x3 => some (if bitOf imm 6 then .carmDisarm i a b else .carm i a b)
  | 0x4 => some (if b.msb then .qsendCommit i a b else .qsend i a b)
  | 0x5 => some (match imm with
    | 1 => .qrecvRelease i a b
    | 2 => .qrecvReleaseReceive i a b
    | _ => .qrecv i a b)
  | 0x6 => some (if imm = 1 then .qopen i a b else .qclose i a b)
  | 0x7 => some (.dmago i a b)
  | 0x8 => some (if bitOf b.toNat 1 then .dmawaitDrain i a b else .dmawait i a b)
  | 0x9 => some (.mfill i a b)
  | 0xA => some (.mcopy i a b)
  | _ => none

/-- Class 0b111 (R150); SUB 0xE and 0xF are illegal operations. -/
def decSystem (i : Iss) (sub : Nat) (a b : BitVec 3) : Option Instr :=
  match sub with
  | 0x0 => some (.nop i a b)
  | 0x1 => some (.sleep i a b)
  | 0x2 => some (.trap i a b)
  | 0x3 => some (.brk i a b)
  | 0x4 => some (.eret i a b)
  | 0x5 => some (.mfs i a b)
  | 0x6 => some (.mts i a b)
  | 0x7 => some (.mfsD i a b)
  | 0x8 => some (.mtsD i a b)
  | 0x9 => some (.mtb i a b)
  | 0xA => some (.mfb i a b)
  | 0xB => some (.stepend i a b)
  | 0xC => some (.stependc i a b)
  | 0xD => some (.batchend i a b)
  | _ => none

/-- The operation a syllable holds after the prefixes of i (R116); none for a prefix and for a code that no table defines. -/
def decodeSyl (i : Iss) (w : BitVec 14) : Option Instr :=
  let n := w.toNat
  let op := bitsOf n 6 4
  let d : BitVec 3 := BitVec.ofNat 3 (bitsOf n 3 3)
  let a : BitVec 3 := BitVec.ofNat 3 n
  match sylClass w with
  | 0 => some (decScalar i op d a)
  | 1 => some (decImmediate i (n % 1024))
  | 2 => some (decVector i op d a)
  | 3 => decTile i op d a
  | 4 => some (decMemory i op d a)
  | 5 => decSync i op d a
  | 6 => none
  | _ => decSystem i op d a

/-- The syllables of program memory from an index on, read as the next operation of a thread (R115 to R117, R122): prefixes, at most k of
them, then the operation with its stop bit. -/
def Core.fetchOp (c : Core) (site : Nat) (t : Fin 4) (pc : BitVec 16) (pfx : List Pfx) : Nat → Option Instr
  | 0 => none
  | k + 1 =>
    let w := get 0 c.pm pc.toNat
    if sylClass w = 6 then c.fetchOp site t (pc + 1) (pfx ++ [pfxOf w]) k
    else decodeSyl ⟨site, t, pfx, sylStop w, false, 0, none, false⟩ w

/-- Whether a syllable holds an operation code that no table defines: an illegal operation (R148, R149, R150, R164). -/
def undefinedCode (w : BitVec 14) : Bool :=
  let op := bitsOf w.toNat 6 4
  match sylClass w with
  | 3 => op == 0xF
  | 5 => decide (0xB ≤ op)
  | 7 => decide (0xE ≤ op)
  | _ => false

/-- Whether program memory holds such a code where an operation stands in its bundle. A command names the operation that is issued there; the
code in program memory makes it an illegal one (log 47). -/
def Core.undefinedAt (c : Core) (b : Fetched) (i : Iss) : Bool :=
  undefinedCode (get 0 c.pm (b.start + BitVec.ofNat 16 (b.syl + i.pfx.length)).toNat)

end Sys2Proof.Machine
end

