-- ==== Sys2Proof/Decode.lean ====
section
/-! DEFINITION. The command a word spells. -/

namespace Sys2Proof

/-- Syllables as a program image holds them, 16 bits each, the first lowest, with bits [15:14] zero (R266), read as prefixes and one operation
of thread 0 of site 0 (R115 to R117): `n` is how many are left. -/
def decodeSyls (pfx : List Pfx) (w : Nat) : Nat → Option Instr
  | 0 => none
  | n + 1 =>
    let v : BitVec 14 := BitVec.ofNat 14 w
    if 2 ^ 14 ≤ w % 2 ^ 16 then none
    else if n = 0 then Machine.decodeSyl ⟨0, 0, pfx, Machine.sylStop v, false, 0, none, false⟩ v
    else if Machine.sylClass v = 6 then decodeSyls (pfx ++ [Machine.pfxOf v]) (w / 2 ^ 16) n
    else none

/-- The command a word spells. The opcode table gives no row of this block any bits; the operations of a core are spelled by the syllables of
R116, and a word of whole syllables is read as one: at most three prefixes and an operation (R120). -/
def decodeTableWord (nbits w : Nat) : Option Instr := if nbits % 16 = 0 ∧ nbits ≤ 64 then decodeSyls [] w (nbits / 16) else none

end Sys2Proof
end

