-- ==== Sys2Proof/Machine/Issue.lean ====
section
/-! DEFINITION. Operations as they join their bundle, bundles as they issue, and waits as they are tried again (R115 to R125, R127, R180,
R292, R293, R305). -/

namespace Sys2Proof.Machine

/-- The operation that a command issues, read against a state; none for a command that issues no operation. -/
def opOf (n : Instr) (s : State) : Option Op :=
  match n with
  | .mov i d a => some (opMov i d a s)
  | .add i d a => some (opAdd i d a s)
  | .sub i d a => some (opSub i d a s)
  | .and i d a => some (opAnd i d a s)
  | .or i d a => some (opOr i d a s)
  | .xor i d a => some (opXor i d a s)
  | .shl i d a => some (opShl i d a s)
  | .shr i d a => some (opShr i d a s)
  | .sar i d a => some (opSar i d a s)
  | .mul i d a => some (opMul i d a s)
  | .mulh i d a => some (opMulh i d a s)
  | .mulhu i d a => some (opMulhu i d a s)
  | .slt i d a => some (opSlt i d a s)
  | .sltu i d a => some (opSltu i d a s)
  | .min i d a => some (opMin i d a s)
  | .max i d a => some (opMax i d a s)
  | .addi i d imm => some (opAddi i d imm s)
  | .li i d imm => some (opLi i d imm s)
  | .lih i d imm => some (opLih i d imm s)
  | .andi i d imm => some (opAndi i d imm s)
  | .branch i cond a off => some (opBranch i cond a off s)
  | .br i off => some (opBr i off s)
  | .call i off => some (opCall i off s)
  | .jr i a z => some (opJr i a z s)
  | .callr i a z => some (opCallr i a z s)
  | .ret i z => some (opRet i z s)
  | .loop i k a off => some (opLoop i k a off s)
  | .vmov i d a => some (opVmov i d a s)
  | .vadd i d a => some (opVadd i d a s)
  | .vsub i d a => some (opVsub i d a s)
  | .vmul i d a => some (opVmul i d a s)
  | .vfma i d a => some (opVfma i d a s)
  | .vmin i d a => some (opVmin i d a s)
  | .vmax i d a => some (opVmax i d a s)
  | .vand i d a => some (opVand i d a s)
  | .vor i d a => some (opVor i d a s)
  | .vxor i d a => some (opVxor i d a s)
  | .vshift i d a => some (opVshift i d a s)
  | .vcmp i d a => some (opVcmp i d a s)
  | .vsel i d a => some (opVsel i d a s)
  | .vcvt i d a => some (opVcvt i d a s)
  | .vredSum i d a => some (opVredSum i d a s)
  | .vredMax i d a => some (opVredMax i d a s)
  | .vredMin i d a => some (opVredMin i d a s)
  | .vbc i d a => some (opVbc i d a s)
  | .ldw i d a => some (opLdw i d a s)
  | .ldh i d a => some (opLdh i d a s)
  | .ldhu i d a => some (opLdhu i d a s)
  | .ldb i d a => some (opLdb i d a s)
  | .ldbu i d a => some (opLdbu i d a s)
  | .stw i d a => some (opStw i d a s)
  | .sth i d a => some (opSth i d a s)
  | .stb i d a => some (opStb i d a s)
  | .vld i d a => some (opVld i d a s)
  | .vst i d a => some (opVst i d a s)
  | .ldu i d a => some (opLdu i d a s)
  | .vldu i d a => some (opVldu i d a s)
  | .aadd i d a => some (opAadd i d a s)
  | .acas i d a => some (opAcas i d a s)
  | .aswp i d a => some (opAswp i d a s)
  | .dcClean i d a => some (opDcClean i d a s)
  | .dcInvalidate i d a => some (opDcInvalidate i d a s)
  | .dcCleanInvalidate i d a => some (opDcCleanInvalidate i d a s)
  | .tcfg i d a => some (opTcfg i d a s)
  | .trel i d z => some (opTrel i d z s)
  | .tld i d a => some (opTld i d a s)
  | .tst i d a => some (opTst i d a s)
  | .tmmaAcc0 i a b => some (opTmmaAcc0 i a b s)
  | .tmmaAcc1 i a b => some (opTmmaAcc1 i a b s)
  | .tcvt i d a => some (opTcvt i d a s)
  | .tcvta i d a => some (opTcvta i d a s)
  | .tza i acc a => some (opTza i acc a s)
  | .tmova i d a => some (opTmova i d a s)
  | .trd i t v => some (opTrd i t v s)
  | .twr i t v => some (opTwr i t v s)
  | .tlds i d a => some (opTlds i d a s)
  | .tsts i d a => some (opTsts i d a s)
  | .twa i d a => some (opTwa i d a s)
  | .csig i a b => some (opCsig i a b s)
  | .cwait i a b => some (opCwait i a b s)
  | .ctake i a b => some (opCtake i a b s)
  | .carm i a b => some (opCarm i a b s)
  | .carmDisarm i a b => some (opCarmDisarm i a b s)
  | .qsend i a b => some (opQsend i a b s)
  | .qsendCommit i a b => some (opQsendCommit i a b s)
  | .qrecv i a b => some (opQrecv i a b s)
  | .qrecvRelease i a b => some (opQrecvRelease i a b s)
  | .qrecvReleaseReceive i a b => some (opQrecvReleaseReceive i a b s)
  | .qclose i a b => some (opQclose i a b s)
  | .qopen i a b => some (opQopen i a b s)
  | .dmago i a b => some (opDmago i a b s)
  | .dmawait i a b => some (opDmawait i a b s)
  | .dmawaitDrain i a b => some (opDmawaitDrain i a b s)
  | .mfill i a b => some (opMfill i a b s)
  | .mcopy i a b => some (opMcopy i a b s)
  | .nop i a b => some (opNop i a b s)
  | .sleep i a b => some (opSleep i a b s)
  | .trap i a b => some (opTrap i a b s)
  | .brk i a b => some (opBrk i a b s)
  | .eret i a b => some (opEret i a b s)
  | .mfs i a b => some (opMfs i a b s)
  | .mts i a b => some (opMts i a b s)
  | .mfsD i a b => some (opMfsD i a b s)
  | .mtsD i a b => some (opMtsD i a b s)
  | .mtb i a b => some (opMtb i a b s)
  | .mfb i a b => some (opMfb i a b s)
  | .stepend i a b => some (opStepend i a b s)
  | .stependc i a b => some (opStependc i a b s)
  | .batchend i a b => some (opBatchend i a b s)
  | .tileOpComplete .. => none
  | .tileOpStop .. => none
  | .memoryOpComplete .. => none
  | .loadDataArrival .. => none
  | .cacheLineFill .. => none
  | .wake .. => none
  | .timerFire .. => none
  | .waitBound .. => none
  | .thread0L1Entry .. => none
  | .interruptTake .. => none
  | .breakpointStop .. => none
  | .budgetCut .. => none
  | .cueSignalArrival .. => none
  | .queueMessageCommit .. => none
  | .queueSendRetry .. => none
  | .threadStart .. => none
  | .threadHalt .. => none
  | .threadResume .. => none
  | .safeWrite .. => none
  | .ctxChange .. => none
  | .swi .. => none
  | .broadcastWrite .. => none
  | .cueCountWrite .. => none
  | .regionEnable .. => none
  | .claim .. => none
  | .release .. => none
  | .queueEnable .. => none
  | .stagingDiscard .. => none
  | .cacheInv .. => none
  | .cacheClean .. => none
  | .cacheEnable .. => none
  | .cacheDisable .. => none
  | .numSeedAccess .. => none
  | .l2Resume .. => none
  | .l2Run2 .. => none
  | .debugStop .. => none
  | .debugResume .. => none
  | .debugStep .. => none
  | .debugRegAccess .. => none
  | .dmaCommandStart .. => none
  | .dmaBurst .. => none
  | .dmaDone .. => none
  | .dmaErrorHalt .. => none
  | .dmaTimeout .. => none
  | .dmaRetry .. => none
  | .dmaResume .. => none
  | .dmaSkip .. => none
  | .dmaFlush .. => none
  | .bdmaDoorbell .. => none
  | .bdmaDescriptorFetch .. => none
  | .bdmaReq .. => none
  | .writeLand .. => none
  | .hbmRead .. => none
  | .meshTimeout .. => none
  | .pmcLoad .. => none
  | .pmcSave .. => none
  | .curtain .. => none
  | .curtainInEdge .. => none
  | .flywheelCurtain .. => none
  | .acquisitionTimeout .. => none
  | .arm .. => none
  | .sourceSwitch .. => none
  | .ppsEdge .. => none
  | .clockFix .. => none
  | .boxOfficeClose .. => none
  | .guardBandStart .. => none
  | .refreshBurst .. => none
  | .deliveryDeadline .. => none
  | .actRelease .. => none
  | .boxEnable .. => none
  | .intakeDoorbell .. => none
  | .intakeFetch .. => none
  | .forwardedRecord .. => none
  | .cbRead .. => none
  | .cbWrite .. => none
  | .cbSuspend .. => none
  | .cbResume .. => none
  | .cbFree .. => none
  | .cbCopyIn .. => none
  | .cbCopyOut .. => none
  | .callboardEccError .. => none
  | .stageBatch .. => none
  | .strike .. => none
  | .egressRecord .. => none
  | .egressCompletion .. => none
  | .egressHeadWrite .. => none
  | .replayPrepare .. => none
  | .replayStage .. => none
  | .quarantine .. => none
  | .promotion .. => none
  | .machineCheckHandling .. => none
  | .ledgerGranuleLand .. => none
  | .ledgerEnable .. => none
  | .ledgerDisable .. => none
  | .updateBoundary .. => none
  | .grpReadActive .. => none
  | .grpReadShadow .. => none
  | .writeShadow .. => none
  | .grpReadEta .. => none
  | .eventDelivery .. => none
  | .holdoffExpiry .. => none
  | .eoi .. => none
  | .evgSwset .. => none
  | .fabricLinkUp .. => none
  | .fabricLinkDown .. => none
  | .retrain .. => none
  | .flitReceive .. => none
  | .fabricRequest .. => none
  | .ingressAdmit .. => none
  | .fabricResponse .. => none
  | .fabricTimeout .. => none
  | .timeMarkSend .. => none
  | .timeMarkReceive .. => none
  | .nodeWrite .. => none
  | .hostRead .. => none
  | .hostWrite .. => none
  | .msixUnmask .. => none
  | .ctxReadEntry .. => none
  | .ctxWriteEntry .. => none
  | .ctxReadAttr .. => none
  | .ctxWriteAttr .. => none
  | .publish .. => none
  | .publishComplete .. => none
  | .swapRequest .. => none
  | .swapValidation .. => none
  | .swapCancel .. => none
  | .ssCopy .. => none
  | .actReadActive .. => none
  | .actReadShadow .. => none
  | .actWriteShadow .. => none
  | .asnReadActive .. => none
  | .asnReadShadow .. => none
  | .asnWriteShadow .. => none
  | .d3hotEntry .. => none
  | .d0Return .. => none
  | .pmeTurnOff .. => none
  | .heartbeat .. => none
  | .takeover .. => none
  | .sensorSample .. => none
  | .eventRetry .. => none
  | .pldmEventAck .. => none
  | .logAck .. => none
  | .entdaa .. => none
  | .setdasa .. => none
  | .mctpControl .. => none
  | .pldmDiscovery .. => none
  | .pldmSensorRead .. => none
  | .pldmFruRead .. => none
  | .requestUpdate .. => none
  | .getVersion .. => none
  | .getCapabilities .. => none
  | .negotiateAlgorithms .. => none
  | .getDigests .. => none
  | .getCertificate .. => none
  | .challenge .. => none
  | .getMeasurements .. => none
  | .chunkSend .. => none
  | .chunkGet .. => none
  | .signingComplete .. => none
  | .fwVerify .. => none
  | .fwDiscard .. => none
  | .attestationReady .. => none
  | .debugTokenSubmit .. => none
  | .dbgacc .. => none
  | .rehearsalSet .. => none
  | .undervoltageWarning .. => none
  | .undervoltageLockout .. => none
  | .railsOff .. => none
  | .overcurrent .. => none
  | .overvoltageWarning .. => none
  | .overvoltageTrip .. => none
  | .lossOf56v .. => none
  | .thermalTrip .. => none
  | .overpower .. => none
  | .pwrEnRise .. => none
  | .pwrEnFall .. => none
  | .perstNAssert .. => none
  | .perstNRelease .. => none
  | .powerOnReset .. => none
  | .coldReset .. => none
  | .warmReset .. => none
  | .softReset .. => none
  | .pwrResetSoft .. => none
  | .pwrResetWarm .. => none
  | .softDone .. => none
  | .ready .. => none
  | .preqSet .. => none
  | .preqClear .. => none
  | .readLo .. => none
  | .writeHi .. => none
  | .registerWrite .. => none
  | .pcieLinkDown .. => none
  | .pcieLinkUp .. => none
  | .busMasterEnable .. => none
  | .stackHot .. => none
  | .pmcCopyComplete .. => none
  | .cbCopyComplete .. => none
  | .ssCopyComplete .. => none
  | .fwVerifyComplete .. => none
  | .enableEvents .. => none
  | .extest .. => none

/-- The operations of a bundle fetched so far, read against a state. -/
def State.opsOf (s : State) (b : Fetched) : List Op := b.ops.filterMap (fun n => opOf n s)

/-- A sleeping thread tried again: a SLEEP ends on an enabled PEND bit, on a debug request whatever MASK holds, or at its bound; any other
wait is tried with its whole bundle and ends as it fares (R95 to R97, R292). -/
def State.retryOne (s : State) (site : Nat) (t : Fin 4) : State :=
  let x := s.thr site t
  match x.wait with
  | none => s
  | some w =>
    if w.kind = .sleep then
      (if x.pendBits &&& (x.maskBits ||| 2 ^ 4) ≠ 0 ∨ s.bounded w then s.modThr site t (fun x => { x with wait := none }) else s)
    else
      match x.bun with
      | some b => (s.issueAll site t b (fun s => s.opsOf b)).getD s
      | none => s

/-- The queues an operation of a bundle closes (R305). -/
def closedBy (ops : List Op) : List Nat :=
  ops.flatMap (fun o => o.effs.filterMap Eff.closes)

/-- The reader of a queue of a core told that the queue is closed: a QRECV asleep on it ends (R305). -/
def State.tellReader (s : State) (site q : Nat) : State :=
  let r := Fin.ofNat 4 (s.cfld site (QQ_CFG_READER q))
  match (s.thr site r).wait with
  | some w => if w.kind = .qrecv q ∧ s.cflag site (QQ_CFG_CLOSED q) then s.retryOne site r else s
  | none => s

/-- A sleeping thread tried again; a QCLOSE of its bundle ends its reader's wait (R305). -/
def State.retryWait (s : State) (site : Nat) (t : Fin 4) : State :=
  let qs := match (s.thr site t).bun with
    | some b => closedBy (s.opsOf b)
    | none => []
  qs.foldl (fun s q => s.tellReader site q) (s.retryOne site t)

/-- A thread whose commit is written goes on: its wait has only the rest of its bundle left (R302). -/
def State.sentWait (s : State) (site : Nat) (t : Fin 4) : State :=
  (s.modThr site t (fun x => { x with wait := x.wait.map (fun w => { w with kind := .sent }) })).retryWait site t

/-- An operation issued (R115 to R125, R127, R180): it joins its bundle where it decodes; the one with the stop bit makes the bundle
whole, which then issues, or waits for it to be given again. -/
def State.issue (s : State) (n : Instr) (op : State → Op) : State :=
  let o := op s
  let i := o.iss
  let x := s.thr i.site i.th
  if !s.ready i.site i.th then s
  else
    match x.late with
    | (cause, ea) :: _ => s.takeLate i.site i.th cause ea
    | [] =>
      let b := x.bundle
      if b.clash o || (s.core i.site).undefinedAt b i then s.faultBundle i.site i.th 0 illegalOp
      else if !i.stop then s.modThr i.site i.th (fun x => { x with bun := some (b.add n o) })
      else
        match s.issueAll i.site i.th (b.add n o) (fun s => s.opsOf b ++ [op s]) with
        | none => s
        | some u => (closedBy (s.opsOf b ++ [o])).foldl (fun u q => u.tellReader i.site q) u

end Sys2Proof.Machine
end

