-- ==== Sys2Proof/Machine/Operations.lean ====
section
/-! DEFINITION. The meanings of the commands that issue an operation: each hands its operation to its thread's bundle (R115 to R125). -/

namespace Sys2Proof.Machine

/-- MOV issued (R131). -/
def execMov (i : Iss) (d a : BitVec 3) (s : State) : Res := done (s.issue (.mov i d a) (opMov i d a))

/-- ADD issued (R131). -/
def execAdd (i : Iss) (d a : BitVec 3) (s : State) : Res := done (s.issue (.add i d a) (opAdd i d a))

/-- SUB issued (R131). -/
def execSub (i : Iss) (d a : BitVec 3) (s : State) : Res := done (s.issue (.sub i d a) (opSub i d a))

/-- AND issued (R131). -/
def execAnd (i : Iss) (d a : BitVec 3) (s : State) : Res := done (s.issue (.and i d a) (opAnd i d a))

/-- OR issued (R131). -/
def execOr (i : Iss) (d a : BitVec 3) (s : State) : Res := done (s.issue (.or i d a) (opOr i d a))

/-- XOR issued (R131). -/
def execXor (i : Iss) (d a : BitVec 3) (s : State) : Res := done (s.issue (.xor i d a) (opXor i d a))

/-- SHL issued (R131). -/
def execShl (i : Iss) (d a : BitVec 3) (s : State) : Res := done (s.issue (.shl i d a) (opShl i d a))

/-- SHR issued (R131). -/
def execShr (i : Iss) (d a : BitVec 3) (s : State) : Res := done (s.issue (.shr i d a) (opShr i d a))

/-- SAR issued (R131). -/
def execSar (i : Iss) (d a : BitVec 3) (s : State) : Res := done (s.issue (.sar i d a) (opSar i d a))

/-- MUL issued (R131). -/
def execMul (i : Iss) (d a : BitVec 3) (s : State) : Res := done (s.issue (.mul i d a) (opMul i d a))

/-- MULH issued (R131). -/
def execMulh (i : Iss) (d a : BitVec 3) (s : State) : Res := done (s.issue (.mulh i d a) (opMulh i d a))

/-- MULHU issued (R131). -/
def execMulhu (i : Iss) (d a : BitVec 3) (s : State) : Res := done (s.issue (.mulhu i d a) (opMulhu i d a))

/-- SLT issued (R131). -/
def execSlt (i : Iss) (d a : BitVec 3) (s : State) : Res := done (s.issue (.slt i d a) (opSlt i d a))

/-- SLTU issued (R131). -/
def execSltu (i : Iss) (d a : BitVec 3) (s : State) : Res := done (s.issue (.sltu i d a) (opSltu i d a))

/-- MIN issued (R131). -/
def execMin (i : Iss) (d a : BitVec 3) (s : State) : Res := done (s.issue (.min i d a) (opMin i d a))

/-- MAX issued (R131). -/
def execMax (i : Iss) (d a : BitVec 3) (s : State) : Res := done (s.issue (.max i d a) (opMax i d a))

/-- ADDI issued (R132). -/
def execAddi (i : Iss) (d : BitVec 4) (imm : BitVec 2) (s : State) : Res := done (s.issue (.addi i d imm) (opAddi i d imm))

/-- LI issued (R132). -/
def execLi (i : Iss) (d : BitVec 4) (imm : BitVec 2) (s : State) : Res := done (s.issue (.li i d imm) (opLi i d imm))

/-- LIH issued (R132). -/
def execLih (i : Iss) (d : BitVec 4) (imm : BitVec 2) (s : State) : Res := done (s.issue (.lih i d imm) (opLih i d imm))

/-- ANDI issued (R132). -/
def execAndi (i : Iss) (d : BitVec 4) (imm : BitVec 2) (s : State) : Res := done (s.issue (.andi i d imm) (opAndi i d imm))

/-- BRANCH issued (R132, R133). -/
def execBranch (i : Iss) (cond : BitVec 2) (a : BitVec 4) (off : BitVec 2) (s : State) : Res := done (s.issue (.branch i cond a off) (opBranch i cond a off))

/-- BR issued (R132, R133). -/
def execBr (i : Iss) (off : BitVec 7) (s : State) : Res := done (s.issue (.br i off) (opBr i off))

/-- CALL issued (R134). -/
def execCall (i : Iss) (off : BitVec 7) (s : State) : Res := done (s.issue (.call i off) (opCall i off))

/-- JR issued (R133). -/
def execJr (i : Iss) (a : BitVec 4) (z : BitVec 2) (s : State) : Res := done (s.issue (.jr i a z) (opJr i a z))

/-- CALLR issued (R134). -/
def execCallr (i : Iss) (a : BitVec 4) (z : BitVec 2) (s : State) : Res := done (s.issue (.callr i a z) (opCallr i a z))

/-- RET issued (R136). -/
def execRet (i : Iss) (z : BitVec 6) (s : State) : Res := done (s.issue (.ret i z) (opRet i z))

/-- LOOP issued (R138). -/
def execLoop (i : Iss) (k : BitVec 1) (a : BitVec 4) (off : BitVec 1) (s : State) : Res := done (s.issue (.loop i k a off) (opLoop i k a off))

/-- VMOV issued (R143). -/
def execVmov (i : Iss) (d a : BitVec 3) (s : State) : Res := done (s.issue (.vmov i d a) (opVmov i d a))

/-- VADD issued (R143, R192). -/
def execVadd (i : Iss) (d a : BitVec 3) (s : State) : Res := done (s.issue (.vadd i d a) (opVadd i d a))

/-- VSUB issued (R143, R192). -/
def execVsub (i : Iss) (d a : BitVec 3) (s : State) : Res := done (s.issue (.vsub i d a) (opVsub i d a))

/-- VMUL issued (R143, R192). -/
def execVmul (i : Iss) (d a : BitVec 3) (s : State) : Res := done (s.issue (.vmul i d a) (opVmul i d a))

/-- VFMA issued (R143). -/
def execVfma (i : Iss) (d a : BitVec 3) (s : State) : Res := done (s.issue (.vfma i d a) (opVfma i d a))

/-- VMIN issued (R143, R192). -/
def execVmin (i : Iss) (d a : BitVec 3) (s : State) : Res := done (s.issue (.vmin i d a) (opVmin i d a))

/-- VMAX issued (R143, R192). -/
def execVmax (i : Iss) (d a : BitVec 3) (s : State) : Res := done (s.issue (.vmax i d a) (opVmax i d a))

/-- VAND issued (R143). -/
def execVand (i : Iss) (d a : BitVec 3) (s : State) : Res := done (s.issue (.vand i d a) (opVand i d a))

/-- VOR issued (R143). -/
def execVor (i : Iss) (d a : BitVec 3) (s : State) : Res := done (s.issue (.vor i d a) (opVor i d a))

/-- VXOR issued (R143). -/
def execVxor (i : Iss) (d a : BitVec 3) (s : State) : Res := done (s.issue (.vxor i d a) (opVxor i d a))

/-- VSHIFT issued (R143). -/
def execVshift (i : Iss) (d a : BitVec 3) (s : State) : Res := done (s.issue (.vshift i d a) (opVshift i d a))

/-- VCMP issued (R143). -/
def execVcmp (i : Iss) (d a : BitVec 3) (s : State) : Res := done (s.issue (.vcmp i d a) (opVcmp i d a))

/-- VSEL issued (R143). -/
def execVsel (i : Iss) (d a : BitVec 3) (s : State) : Res := done (s.issue (.vsel i d a) (opVsel i d a))

/-- VCVT issued (R203, R207). -/
def execVcvt (i : Iss) (d a : BitVec 3) (s : State) : Res := done (s.issue (.vcvt i d a) (opVcvt i d a))

/-- VRED with REG.B 0 issued (R143). -/
def execVredSum (i : Iss) (d a : BitVec 3) (s : State) : Res := done (s.issue (.vredSum i d a) (opVredSum i d a))

/-- VRED with REG.B 1 issued (R143). -/
def execVredMax (i : Iss) (d a : BitVec 3) (s : State) : Res := done (s.issue (.vredMax i d a) (opVredMax i d a))

/-- VRED with REG.B 2 issued (R143). -/
def execVredMin (i : Iss) (d a : BitVec 3) (s : State) : Res := done (s.issue (.vredMin i d a) (opVredMin i d a))

/-- VBC issued (R143). -/
def execVbc (i : Iss) (d a : BitVec 3) (s : State) : Res := done (s.issue (.vbc i d a) (opVbc i d a))

/-- LDW issued (R146). -/
def execLdw (i : Iss) (d a : BitVec 3) (s : State) : Res := done (s.issue (.ldw i d a) (opLdw i d a))

/-- LDH issued (R146). -/
def execLdh (i : Iss) (d a : BitVec 3) (s : State) : Res := done (s.issue (.ldh i d a) (opLdh i d a))

/-- LDHU issued (R146). -/
def execLdhu (i : Iss) (d a : BitVec 3) (s : State) : Res := done (s.issue (.ldhu i d a) (opLdhu i d a))

/-- LDB issued (R146). -/
def execLdb (i : Iss) (d a : BitVec 3) (s : State) : Res := done (s.issue (.ldb i d a) (opLdb i d a))

/-- LDBU issued (R146). -/
def execLdbu (i : Iss) (d a : BitVec 3) (s : State) : Res := done (s.issue (.ldbu i d a) (opLdbu i d a))

/-- STW issued (R146). -/
def execStw (i : Iss) (d a : BitVec 3) (s : State) : Res := done (s.issue (.stw i d a) (opStw i d a))

/-- STH issued (R146). -/
def execSth (i : Iss) (d a : BitVec 3) (s : State) : Res := done (s.issue (.sth i d a) (opSth i d a))

/-- STB issued (R146). -/
def execStb (i : Iss) (d a : BitVec 3) (s : State) : Res := done (s.issue (.stb i d a) (opStb i d a))

/-- VLD issued (R146). -/
def execVld (i : Iss) (d a : BitVec 3) (s : State) : Res := done (s.issue (.vld i d a) (opVld i d a))

/-- VST issued (R146). -/
def execVst (i : Iss) (d a : BitVec 3) (s : State) : Res := done (s.issue (.vst i d a) (opVst i d a))

/-- LDU issued (R146). -/
def execLdu (i : Iss) (d a : BitVec 3) (s : State) : Res := done (s.issue (.ldu i d a) (opLdu i d a))

/-- VLDU issued (R146). -/
def execVldu (i : Iss) (d a : BitVec 3) (s : State) : Res := done (s.issue (.vldu i d a) (opVldu i d a))

/-- AADD issued (R146, R147). -/
def execAadd (i : Iss) (d a : BitVec 3) (s : State) : Res := done (s.issue (.aadd i d a) (opAadd i d a))

/-- ACAS issued (R146, R147). -/
def execAcas (i : Iss) (d a : BitVec 3) (s : State) : Res := done (s.issue (.acas i d a) (opAcas i d a))

/-- ASWP issued (R146, R147). -/
def execAswp (i : Iss) (d a : BitVec 3) (s : State) : Res := done (s.issue (.aswp i d a) (opAswp i d a))

/-- DC with REG.B 0 issued (R245). -/
def execDcClean (i : Iss) (d a : BitVec 3) (s : State) : Res := done (s.issue (.dcClean i d a) (opDcClean i d a))

/-- DC with REG.B 1 issued (R245). -/
def execDcInvalidate (i : Iss) (d a : BitVec 3) (s : State) : Res := done (s.issue (.dcInvalidate i d a) (opDcInvalidate i d a))

/-- DC with REG.B 2 issued (R245). -/
def execDcCleanInvalidate (i : Iss) (d a : BitVec 3) (s : State) : Res := done (s.issue (.dcCleanInvalidate i d a) (opDcCleanInvalidate i d a))

/-- TCFG issued (R158, R159, R164). -/
def execTcfg (i : Iss) (d a : BitVec 3) (s : State) : Res := done (s.issue (.tcfg i d a) (opTcfg i d a))

/-- TREL issued (R156). -/
def execTrel (i : Iss) (d z : BitVec 3) (s : State) : Res := done (s.issue (.trel i d z) (opTrel i d z))

/-- TLD issued (R167). -/
def execTld (i : Iss) (d a : BitVec 3) (s : State) : Res := done (s.issue (.tld i d a) (opTld i d a))

/-- TST issued (R167). -/
def execTst (i : Iss) (d a : BitVec 3) (s : State) : Res := done (s.issue (.tst i d a) (opTst i d a))

/-- TMMA into acc0 issued (R164, R171). -/
def execTmmaAcc0 (i : Iss) (a b : BitVec 3) (s : State) : Res := done (s.issue (.tmmaAcc0 i a b) (opTmmaAcc0 i a b))

/-- TMMA into acc1 issued (R164, R171). -/
def execTmmaAcc1 (i : Iss) (a b : BitVec 3) (s : State) : Res := done (s.issue (.tmmaAcc1 i a b) (opTmmaAcc1 i a b))

/-- TCVT issued (R175). -/
def execTcvt (i : Iss) (d a : BitVec 3) (s : State) : Res := done (s.issue (.tcvt i d a) (opTcvt i d a))

/-- TCVTA issued (R170, R175). -/
def execTcvta (i : Iss) (d a : BitVec 3) (s : State) : Res := done (s.issue (.tcvta i d a) (opTcvta i d a))

/-- TZA issued (R169). -/
def execTza (i : Iss) (acc : BitVec 3) (a : BitVec 3) (s : State) : Res := done (s.issue (.tza i acc a) (opTza i acc a))

/-- TMOVA issued (R170). -/
def execTmova (i : Iss) (d a : BitVec 3) (s : State) : Res := done (s.issue (.tmova i d a) (opTmova i d a))

/-- TRD issued (R164). -/
def execTrd (i : Iss) (t v : BitVec 3) (s : State) : Res := done (s.issue (.trd i t v) (opTrd i t v))

/-- TWR issued (R164). -/
def execTwr (i : Iss) (t v : BitVec 3) (s : State) : Res := done (s.issue (.twr i t v) (opTwr i t v))

/-- TLDS issued (R164). -/
def execTlds (i : Iss) (d a : BitVec 3) (s : State) : Res := done (s.issue (.tlds i d a) (opTlds i d a))

/-- TSTS issued (R164). -/
def execTsts (i : Iss) (d a : BitVec 3) (s : State) : Res := done (s.issue (.tsts i d a) (opTsts i d a))

/-- TWA issued (R170). -/
def execTwa (i : Iss) (d a : BitVec 3) (s : State) : Res := done (s.issue (.twa i d a) (opTwa i d a))

/-- CSIG issued (R288, R289). -/
def execCsig (i : Iss) (a b : BitVec 3) (s : State) : Res := done (s.issue (.csig i a b) (opCsig i a b))

/-- CWAIT issued (R292). -/
def execCwait (i : Iss) (a b : BitVec 3) (s : State) : Res := done (s.issue (.cwait i a b) (opCwait i a b))

/-- CTAKE issued (R294). -/
def execCtake (i : Iss) (a b : BitVec 3) (s : State) : Res := done (s.issue (.ctake i a b) (opCtake i a b))

/-- CARM issued (R295). -/
def execCarm (i : Iss) (a b : BitVec 3) (s : State) : Res := done (s.issue (.carm i a b) (opCarm i a b))

/-- CARM with immediate bit 6 at 1 issued (R295). -/
def execCarmDisarm (i : Iss) (a b : BitVec 3) (s : State) : Res := done (s.issue (.carmDisarm i a b) (opCarmDisarm i a b))

/-- QSEND without COMMIT issued (R299). -/
def execQsend (i : Iss) (a b : BitVec 3) (s : State) : Res := done (s.issue (.qsend i a b) (opQsend i a b))

/-- QSEND with COMMIT issued (R298 to R300). -/
def execQsendCommit (i : Iss) (a b : BitVec 3) (s : State) : Res := done (s.issue (.qsendCommit i a b) (opQsendCommit i a b))

/-- QRECV with kind 0 issued (R303). -/
def execQrecv (i : Iss) (a b : BitVec 3) (s : State) : Res := done (s.issue (.qrecv i a b) (opQrecv i a b))

/-- QRECV with kind 1 issued (R304). -/
def execQrecvRelease (i : Iss) (a b : BitVec 3) (s : State) : Res := done (s.issue (.qrecvRelease i a b) (opQrecvRelease i a b))

/-- QRECV with kind 2 issued (R304). -/
def execQrecvReleaseReceive (i : Iss) (a b : BitVec 3) (s : State) : Res := done (s.issue (.qrecvReleaseReceive i a b) (opQrecvReleaseReceive i a b))

/-- QCLOSE with bit 0 at 0 issued (R305). -/
def execQclose (i : Iss) (a b : BitVec 3) (s : State) : Res := done (s.issue (.qclose i a b) (opQclose i a b))

/-- QCLOSE with bit 0 at 1, which opens the queue issued (R305). -/
def execQopen (i : Iss) (a b : BitVec 3) (s : State) : Res := done (s.issue (.qopen i a b) (opQopen i a b))

/-- DMAGO issued (R313, R314). -/
def execDmago (i : Iss) (a b : BitVec 3) (s : State) : Res := done (s.issue (.dmago i a b) (opDmago i a b))

/-- DMAWAIT on a ticket issued (R315). -/
def execDmawait (i : Iss) (a b : BitVec 3) (s : State) : Res := done (s.issue (.dmawait i a b) (opDmawait i a b))

/-- DMAWAIT with DRAIN issued (R284, R315). -/
def execDmawaitDrain (i : Iss) (a b : BitVec 3) (s : State) : Res := done (s.issue (.dmawaitDrain i a b) (opDmawaitDrain i a b))

/-- MFILL issued (R234). -/
def execMfill (i : Iss) (a b : BitVec 3) (s : State) : Res := done (s.issue (.mfill i a b) (opMfill i a b))

/-- MCOPY issued (R234). -/
def execMcopy (i : Iss) (a b : BitVec 3) (s : State) : Res := done (s.issue (.mcopy i a b) (opMcopy i a b))

/-- NOP issued (R150). -/
def execNop (i : Iss) (a b : BitVec 3) (s : State) : Res := done (s.issue (.nop i a b) (opNop i a b))

/-- SLEEP issued (R95 to R97). -/
def execSleep (i : Iss) (a b : BitVec 3) (s : State) : Res := done (s.issue (.sleep i a b) (opSleep i a b))

/-- TRAP issued (R150). -/
def execTrap (i : Iss) (a b : BitVec 3) (s : State) : Res := done (s.issue (.trap i a b) (opTrap i a b))

/-- BRK issued (R150, R342, R343). -/
def execBrk (i : Iss) (a b : BitVec 3) (s : State) : Res := done (s.issue (.brk i a b) (opBrk i a b))

/-- ERET issued (R150, R332). -/
def execEret (i : Iss) (a b : BitVec 3) (s : State) : Res := done (s.issue (.eret i a b) (opEret i a b))

/-- MFS issued (R153). -/
def execMfs (i : Iss) (a b : BitVec 3) (s : State) : Res := done (s.issue (.mfs i a b) (opMfs i a b))

/-- MTS issued (R153). -/
def execMts (i : Iss) (a b : BitVec 3) (s : State) : Res := done (s.issue (.mts i a b) (opMts i a b))

/-- MFS.D issued (R153). -/
def execMfsD (i : Iss) (a b : BitVec 3) (s : State) : Res := done (s.issue (.mfsD i a b) (opMfsD i a b))

/-- MTS.D issued (R153). -/
def execMtsD (i : Iss) (a b : BitVec 3) (s : State) : Res := done (s.issue (.mtsD i a b) (opMtsD i a b))

/-- MTB issued (R101, R102). -/
def execMtb (i : Iss) (a b : BitVec 3) (s : State) : Res := done (s.issue (.mtb i a b) (opMtb i a b))

/-- MFB issued (R101, R150). -/
def execMfb (i : Iss) (a b : BitVec 3) (s : State) : Res := done (s.issue (.mfb i a b) (opMfb i a b))

/-- STEPEND issued (R151). -/
def execStepend (i : Iss) (a b : BitVec 3) (s : State) : Res := done (s.issue (.stepend i a b) (opStepend i a b))

/-- STEPENDC issued (R151, R82). -/
def execStependc (i : Iss) (a b : BitVec 3) (s : State) : Res := done (s.issue (.stependc i a b) (opStependc i a b))

/-- BATCHEND issued (R152, R247). -/
def execBatchend (i : Iss) (a b : BitVec 3) (s : State) : Res := done (s.issue (.batchend i a b) (opBatchend i a b))

end Sys2Proof.Machine
end

