-- ==== Sys2Proof/Machine/RegRead.lean ====
section
/-! DEFINITION. Reads of the memory-mapped registers (R6, R7, R10, R11): stored fields, the views computed from the state, the
capture of a 64-bit quantity, and the reads that act: generator states and the debug data register. -/

namespace Sys2Proof.Machine

-- register pairs

/-- Runs of _LO registers of a die's units: first offset, stride, count (R11). -/
def loRuns : List (Nat × Nat × Nat) :=
  [(0x10014, 4, 1), (0x1001C, 4, 1), (0x10028, 4, 1), (0x30008, 4, 1), (0x40100, 32, 8), (0x60100, 32, 64), (0x60114, 32, 64),
   (0x90010, 4, 1), (0x90044, 4, 1), (0xA0010, 4, 1), (0xC0100, 64, 16), (0xC0120, 64, 16), (0xD0028, 4, 1), (0xE0004, 4, 1),
   (0xF0010, 4, 1), (0xF0018, 4, 1), (0x12F000, 4, 1), (0x120018, 4, 1), (0x120068, 4, 1), (0x120070, 4, 1)]

/-- Runs of _LO registers of a core control block. -/
def loCoreRuns : List (Nat × Nat × Nat) := [(0x20, 4, 1), (0xA14, 64, 2)]

/-- Whether an offset lies at the head of a step of a run. -/
def inRun (off : Nat) (r : Nat × Nat × Nat) : Bool :=
  decide (r.1 ≤ off) && decide (off < r.1 + r.2.1 * r.2.2) && (off - r.1) % r.2.1 == 0

/-- Whether an offset of a die's block is a _LO register (R11). -/
def isLo (off : Nat) : Bool :=
  if 0x1000000 ≤ off then loCoreRuns.any (inRun (off % 0x10000)) else loRuns.any (inRun off)

/-- Whether an offset of a die's block is a _HI register. -/
def isHi (off : Nat) : Bool := decide (4 ≤ off) && isLo (off - 4)

-- counts of sites, streams and steps

/-- The sites of a die. -/
def dieSites (d : Nat) : List Nat := (List.range Config.sitesPerDie).map (d * Config.sitesPerDie + ·)

/-- Sites of a row of a die as a 14-bit map (R114). -/
def rowMap (d j : Nat) (p : Nat → Bool) : Nat :=
  ((List.range 14).map (fun i => if p (d * Config.sitesPerDie + 14 * j + i) then 2 ^ i else 0)).foldl (· + ·) 0

/-- Sites of a die with a property. -/
def countSites (d : Nat) (p : Nat → Bool) : Nat := ((dieSites d).filter p).length

/-- Whether a good site is an understudy; in safe mode it is none (R108). -/
def State.isUnd (s : State) (site : Nat) : Bool := s.good site && (s.core site).role == .understudy && !s.safe site

/-- Whether a site is quarantined. -/
def State.isQuar (s : State) (site : Nat) : Bool := (s.core site).role == .quarantined

/-- Good sites below an index: the logical number (R113). -/
def State.lnum (s : State) (site : Nat) : Nat := ((List.range site).filter s.good).length

/-- Good sites of the module. -/
def State.goodCount (s : State) : Nat := s.lnum Config.sites

/-- Good sites a grade guarantees (R1). -/
def gradeMin (g : Nat) : Nat := 1560 - 40 * g

/-- Entries of a die's callboard slice with a LIFE (CB_LIVE). -/
def State.liveCount (s : State) (d life : Nat) : Nat :=
  (s.cb.filter (fun (x, e) => streamDie x == d && bitsOf e.toNat eLife.lo 2 == life)).length

/-- Held steps of a die's streams (CHK_STATUS.HELD). -/
def State.heldCount (s : State) (d : Nat) : Nat :=
  (s.steps.filter (fun st => streamDie st.stream == d && st.phase == .held)).length

/-- The die whose understudies replay a die's steps: d XOR 4 (R370). -/
def partner (d : Nat) : Nat := if d < 4 then d + 4 else d - 4

/-- Understudies of a die. -/
def State.understudies (s : State) (d : Nat) : List Nat := (dieSites d).filter s.isUnd

/-- Bytes of a record in its ring (R83). -/
def EgrRec.size (r : EgrRec) : Nat := 64 * (1 + r.len)

/-- Bytes waiting in a die's backlog (EGR_BACKLOG): those of records not yet tried do not wait. -/
def State.backlogBytes (s : State) (d : Nat) : Nat :=
  ((s.backlog.filter (fun p => p.1 == d && !p.2.fresh)).map (fun p => p.2.size)).foldl (· + ·) 0

-- the update engine's generators

/-- Generator i of a die's update engine (R220). -/
def State.updSeed (s : State) (d i : Nat) : Word := (look s.updSeeds (d * 32 + i)).getD (seedOf i)

/-- A generator's state replaced; 0 is stored as 1 (R199). -/
def State.setUpdSeed (s : State) (d i : Nat) (w : Word) : State :=
  let w := if w = 0 then 1 else w
  { s with updSeeds := if w = seedOf i then removeAt s.updSeeds (d * 32 + i) else insertAt s.updSeeds (d * 32 + i) w }

/-- UPD_SEED_IDX after an access to UPD_SEED with AINC (R224). -/
def State.updSeedStep (s : State) (d : Nat) : State :=
  if s.flag d UPD_SEED_IDX_AINC then s.setFld d UPD_SEED_IDX_IDX ((s.fld d UPD_SEED_IDX_IDX + 1) % 32) else s

-- computed registers

/-- The event gatherer's stack of target t (R337). -/
def State.prioOf (s : State) (d t : Nat) : List GEntry :=
  match s.prioStk.find? (fun p => p.1 == d * 24 + t) with
  | some (_, l) => l
  | none => []

/-- The running priority of a target (R337). -/
def State.rpri (s : State) (d t : Nat) : Nat :=
  match s.prioOf d t with
  | e :: _ => e.prio
  | [] => 16

/-- Whether a group's hold-off runs (R339). -/
def State.holding (s : State) (d g : Nat) : Bool := s.holdoff.any (fun p => p.1 == d * 64 + g)

/-- EVG_PENDk (R340). -/
def State.pendWord (s : State) (d k : Nat) : Nat :=
  ((List.range 32).map (fun b => if s.flag d (EVG_SRC_PEND (32 * k + b)) then 2 ^ b else 0)).foldl (· + ·) 0

/-- A core's role as CFG_CORE_ID shows it (R114). -/
def State.roleCode (s : State) (site : Nat) : Nat :=
  match (s.core site).role with
  | .quarantined => 2
  | .understudy => if s.safe site then 3 else 1
  | .worker => if s.safe site then 3 else 0

/-- Fields of a core channel's status that follow the channel (R323). -/
def Chan.statusBits (c : Chan) : Nat :=
  b2n c.halt <<< 31 + b2n (c.run.isSome && !c.halt) <<< 29 + c.queue.length <<< 26 +
  (match c.run with
   | some x => x.th <<< 16 + x.ticket
   | none => 0)

/-- Bits of a register that no view replaces. -/
def keepBits (v lo w : Nat) : Nat := setBits v lo w 0

/-- A register of a core control block as it reads. -/
def State.coreView (s : State) (site off : Nat) : Nat :=
  let c := s.core site
  let v := s.rg (ckey site off)
  match off with
  | 0x000 => s.roleCode site <<< 30 + s.lnum site <<< 11 + site
  | 0x008 =>
    keepBits v 0 16 + (threads.map (fun t => b2n c.th[t].trapped <<< (8 + t.val))).foldl (· + ·) 0 +
    (threads.map (fun t => s.thState site t <<< (2 * t.val))).foldl (· + ·) 0
  | 0x020 => s.cyc % 2 ^ 32
  | 0x024 => s.cyc >>> 32
  | 0x028 => c.bud
  | 0x20C => c.memOps.length
  | 0xA08 => setBits (bitsOf v 21 5 <<< 21) 30 1 (bitsOf v 30 1) + c.chans[0].statusBits
  | 0xA48 => setBits (bitsOf v 21 5 <<< 21) 30 1 (bitsOf v 30 1) + c.chans[1].statusBits
  | 0x1000 => v + (threads.map (fun t => b2n c.th[t].dbgStop <<< (12 + t.val))).foldl (· + ·) 0
  | _ => v

/-- A register of a die's ring units as it reads. -/
def State.ringView (s : State) (d off : Nat) : Nat :=
  let v := s.rg (dkey d off)
  if off = 0x10014 then s.frame % 2 ^ 32
  else if off = 0x10018 then s.frame >>> 32 % 2 ^ 32
  else if off = 0x1001C then s.now % 2 ^ 32
  else if off = 0x10020 then s.now >>> 32 % 2 ^ 32
  else if off = 0x2004C then s.counter 1 d (s.fld d BOX_RSN_IDX_IDX)
  else if off = 0x30014 then s.liveCount d 2 <<< 16 + s.liveCount d 1 % 65536
  else if off = 0x40010 then s.counter 0 d (s.fld d ITK_CNT_IDX_IDX)
  else if off = 0x60004 then s.backlogBytes d
  else if 0x70000 ≤ off ∧ off < 0x70038 then rowMap d ((off - 0x70000) / 4) s.good
  else if 0x70040 ≤ off ∧ off < 0x70078 then rowMap d ((off - 0x70040) / 4) s.isUnd
  else if 0x70080 ≤ off ∧ off < 0x700B8 then rowMap d ((off - 0x70080) / 4) s.isQuar
  else if off = 0x700C0 then countSites d s.isQuar <<< 16 + countSites d s.isUnd <<< 8 + countSites d s.good
  else if off = 0x700C4 then
    (if d = 0 then s.grade <<< 30 + b2n (decide (s.goodCount < gradeMin s.grade)) <<< 29 + s.goodCount else 0)
  else if off = 0x80024 then s.counter 2 d (s.fld d UPD_CNT_IDX_IDX)
  else if off = 0x8002C then (s.updSeed d (s.fld d UPD_SEED_IDX_IDX)).toNat
  else if 0xB0300 ≤ off ∧ off < 0xB03C0 then
    let t := (off - 0xB0300) / 8
    bitsOf v 31 1 <<< 31 + (s.prioOf d t).length <<< 24 + s.rpri d t <<< 16 +
      (match s.prioOf d t with
       | e :: _ => e.src
       | [] => 0)
  else if 0xB0400 ≤ off ∧ off < 0xB0500 then b2n (s.holding d ((off - 0xB0400) / 4)) <<< 31 + v % 65536
  else if 0xB0500 ≤ off ∧ off < 0xB0580 then s.pendWord d ((off - 0xB0500) / 4)
  else if 0xC0118 ≤ off ∧ off < 0xC0518 ∧ (off - 0xC0118) % 64 = 0 then
    let c := get Chan.reset s.bdma (d * 16 + (off - 0xC0118) / 64)
    b2n c.halt <<< 31 + b2n (c.run.isSome && !c.halt) <<< 30 + v % 32
  else if off = 0xC0000 then
    ((List.range 32).map (fun l => if get 0 s.bdmaReq (d * 32 + l) = 0 then 0 else 2 ^ l)).foldl (· + ·) 0
  else if off = 0xD0034 then s.counter 3 d (s.fld d ALF_CNT_IDX_IDX)
  else if off = 0xF0020 then s.heldCount d <<< 16 + (s.understudies (partner d)).length
  else if off = 0xF0034 then s.counter 4 d (s.fld d CHK_CNT_IDX_IDX)
  else if off = 0x120000 then (if s.pcie.up && !s.linkUp then 0 else v)
  else if off = 0x120080 then s.mid
  else v

/-- The value a register shows, without what its reading does: none where nothing is implemented (R10). Blocks of mapped-out
sites are not implemented (R109). -/
def State.regView (s : State) (d off : Nat) : Option Nat :=
  match regRow d off with
  | none => none
  | some _ =>
    if 0x1000000 ≤ off then
      let site := d * Config.sitesPerDie + (off - 0x1000000) / 0x10000
      if s.good site then some (s.coreView site (off % 0x10000)) else none
    else some (s.ringView d off)

-- the debug data register

/-- Requesters whose writes the debug registers accept (R344, R345). -/
def dbgUser (r : Requester) : Bool :=
  match whoOf r with
  | .debug => true
  | .stage _ => true
  | .thread site _ => decide (Config.sites ≤ site) && decide (site < 1584)
  | _ => false

/-- Whether a thread's registers may be reached: halted, trapped, at L2 or debug-stopped (R344). -/
def State.dbgReach (s : State) (site : Nat) (t : Fin 4) : Bool :=
  let x := s.thr site t
  s.halted site t || x.trapped || x.dbgStop

/-- A 32-bit word of a number. -/
def wordOf (v i : Nat) : Nat := bitsOf v (32 * i) 32

/-- The value of a debug item (R344; p0 reads all ones, R130); an item the list leaves out reads 0. -/
def State.dbgItem (s : State) (site : Nat) (t : Fin 4) (item : Nat) : Nat :=
  let x := s.thr site t
  if item < 0x200 then (if (stWidth item).isSome then s.stRead site t item else 0)
  else if item < 0x210 then (x.s[Fin.ofNat 16 (item - 0x200)]).toNat
  else if item < 0x220 then (x.v[Fin.ofNat 16 (item - 0x210)]).toNat
  else if item = 0x220 then 2 ^ 64 - 1
  else if 0x221 ≤ item ∧ item < 0x224 then (x.p[Fin.ofNat 4 (item - 0x220)]).toNat
  else if 0x229 ≤ item ∧ item < 0x230 then (x.bk[Fin.ofNat 8 (item - 0x228)]).toNat
  else if item = 0x230 then x.pc.toNat
  else if item = 0x231 then x.level.num
  else 0

/-- A read of CFG_CORE_DBG_DATA (R344). Requesters the register does not serve read 0 (log 28). -/
def State.dbgDataRead (s : State) (r : Requester) (site : Nat) : State × Nat :=
  let t := Fin.ofNat 4 (s.cfld site CFG_CORE_DBG_SEL_THREAD)
  let item := s.cfld site CFG_CORE_DBG_SEL_ITEM
  if !dbgUser r then (s, 0)
  else if !s.dbgReach site t then (s.setCfld site CFG_CORE_DBG_CTL_ERR 1, 0)
  else
    let v := wordOf (s.dbgItem site t item) (s.cfld site CFG_CORE_DBG_SEL_WORD)
    (if item = 0x025 then s.modThr site t Thread.seedAdvance else s, v)

-- reads

/-- What reading a register does besides showing it: generator indices step (R210, R224). -/
def State.readActs (s : State) (r : Requester) (d off : Nat) (v : Nat) : State × Nat :=
  if 0x1000000 ≤ off ∧ off % 0x10000 = 0x1024 then
    s.dbgDataRead r (d * Config.sitesPerDie + (off - 0x1000000) / 0x10000)
  else if off = 0x8002C then (s.updSeedStep d, v)
  else (s, v)

/-- A requester's captured upper half taken (R11). -/
def State.takeHi (s : State) (r : Requester) (k v : Nat) : State × Nat :=
  match s.hiCap.find? (fun p => p.1 == r && p.2.1 == k) with
  | some (_, _, w) => ({ s with hiCap := s.hiCap.filter (fun p => !(p.1 == r && p.2.1 == k)) }, w.toNat)
  | none => (s, v)

/-- A read of a _LO register: the whole 64-bit value is captured for the requester (R11). -/
def State.captureHi (s : State) (r : Requester) (d off : Nat) : State :=
  let k := dkey d off + 4
  let hi := (s.regView d (off + 4)).getD 0
  { s with hiCap := s.hiCap.filter (fun p => !(p.1 == r && p.2.1 == k)) ++ [(r, k, BitVec.ofNat 32 hi)] }

/-- An aligned 32-bit read of a die's register block (R6, R7, R10, R11). -/
def State.readReg (s : State) (r : Requester) (d off : Nat) : State × Nat :=
  match s.regView d off with
  | none => (s, 0)
  | some v =>
    if isLo off then (s.captureHi r d off, v)
    else if isHi off then s.takeHi r (dkey d off) v
    else s.readActs r d off v

/-- The good sites that a broadcast offset addresses, and the offset within their blocks (R109, R110). -/
def State.bcastSites (s : State) (off : Nat) : List Nat :=
  let all := (List.range Config.sites).filter s.good
  if 0x1000000 ≤ off ∧ off < 0x1010000 then all
  else if 0x1100000 ≤ off ∧ off < 0x1300000 then
    all.filter (fun st => bitOf (s.cfld st CFG_CORE_GROUP_GROUP) ((off - 0x1100000) / 0x10000))
  else []

/-- Offset of a site's register at `off` of its block, in its die's block. -/
def siteOff (site off : Nat) : Nat := 0x1000000 + site % Config.sitesPerDie * 0x10000 + off

/-- A read of a broadcast image: the OR of the addressed cores' values (R110). -/
def State.readBcast (s : State) (r : Requester) (off : Nat) : State × Nat :=
  (s.bcastSites off).foldl (fun (s, v) st =>
    let (s, x) := s.readReg r (dieOf st) (siteOff st (off % 0x10000))
    (s, v ||| x)) (s, 0)

/-- A 32-bit read of the register space at a local address. -/
def State.readSpace (s : State) (r : Requester) (a : Nat) : State × Nat :=
  match s.home a with
  | .reg d off => s.readReg r d off
  | .bcast off => s.readBcast r off
  | _ => (s, 0)

end Sys2Proof.Machine
end

