-- ==== Sys2Proof/Machine/Chan.lean ====
section
/-! DEFINITION. The core and bulk DMA channels as they stand: their state, configuration and pacing, and the requests that core channels wait
for (R291, R310, R313, R318, R320). -/

namespace Sys2Proof.Machine

-- channels

/-- Key of a bulk channel. -/
def bulkKey (d c : Nat) : Nat := d * 16 + c

/-- A channel. -/
def State.chan (s : State) : ChanId → Chan
  | .core site c => (s.core site).chans[c]
  | .bulk d c => get Chan.reset s.bdma (bulkKey d c)

/-- A channel replaced. -/
def State.setChan (s : State) (id : ChanId) (k : Chan) : State :=
  match id with
  | .core site c => s.modCore site (fun x => { x with chans := x.chans.set c k })
  | .bulk d c => { s with bdma := put Chan.reset s.bdma (bulkKey d c) k }

/-- A channel changed. -/
def State.modChan (s : State) (id : ChanId) (f : Chan → Chan) : State := s.setChan id (f (s.chan id))

/-- A channel's running command changed. -/
def Chan.modRun (k : Chan) (f : DmaCmd → DmaCmd) : Chan := { k with run := k.run.map f }

/-- Whether a channel exists: both of a good site, or one of a die's 16 (R310). -/
def State.chanOk (s : State) : ChanId → Bool
  | .core site _ => s.good site
  | .bulk d c => decide (d < 8) && decide (c < 16)

/-- The requester a channel is. -/
def chanReq : ChanId → Requester
  | .core site c => .chan site c
  | .bulk d c => .bulk d c

/-- The die a channel stands on. -/
def chanDie : ChanId → Nat
  | .core site _ => dieOf site
  | .bulk d _ => d

/-- The act that a channel's traffic is part of: that which issued its running command (R310). -/
def State.chanAct (s : State) (id : ChanId) : Option Nat := (s.chan id).run.bind DmaCmd.act

/-- The core and thread whose slice and spill units bound a channel's command (R313); none for a bulk channel. -/
def chanOwn (id : ChanId) (r : DmaCmd) : Option (Nat × Fin 4) :=
  match id with
  | .core site _ => some (site, Fin.ofNat 4 r.th)
  | .bulk _ _ => none

/-- Whether a channel is a bulk one. -/
def isBulk : ChanId → Bool
  | .core _ _ => false
  | .bulk _ _ => true

/-- Whether host addresses are permitted on a channel (R313). -/
def State.hostOk (s : State) : ChanId → Bool
  | .core _ _ => false
  | .bulk d c => s.flag d (BDMA_CH_CTL_HOSTOK c)

/-- Configuration of a channel's pacing: PACE, BURST in bytes, RATE, request handle or line (R318). -/
structure Pace where
  mode : Nat
  burst : Nat
  rate : Nat
  req : Nat
  deriving DecidableEq, Repr

/-- RATE as it acts. -/
def rateOf (n : Nat) : Nat := if n = 0 ∨ 256 < n then 256 else n

/-- A channel's pacing as configured. -/
def State.pace (s : State) : ChanId → Pace
  | .core site c =>
    ⟨s.cfld site (CDMA_CFG_PACE c.val), 64 * 2 ^ s.cfld site (CDMA_CFG_BURST c.val), rateOf (s.cfld site (CDMA_CFG_RATE c.val)),
     s.cfld site (CDMA_CFG_REQ c.val)⟩
  | .bulk d c =>
    ⟨s.fld d (BDMA_CH_CTL_PACE c), 64 * 2 ^ s.fld d (BDMA_CH_CTL_BURST c), rateOf (s.fld d (BDMA_CH_CTL_RATE c)),
     s.fld d (BDMA_CH_CTL_REQSEL c)⟩

/-- A channel's command timeout in ns (R320, R323). -/
def State.chanTo (s : State) (id : ChanId) : Nat :=
  let us := match id with
    | .core site c => s.cfld site (CDMA_TO_US c.val)
    | .bulk d c => s.fld d (BDMA_CH_TO_US c)
  (if us = 0 ∨ 1000000 < us then 1000000 else us) * 1000

-- requests of core channels

/-- A burst of a channel begun. -/
def State.beginBurst (s : State) (ch : ChanId) : State :=
  let n := (s.pace ch).burst
  s.modChan ch (fun k => { k with left := n, want := none })

/-- A request taken from a cue counter for a channel (R318). -/
def State.takeReq (s : State) (ch : ChanId) (site c : Nat) : State :=
  ((s.setCue site c (s.cueCount site c - 1)).modCore site (fun k =>
    { k with cueObs := put [] k.cueObs c (get [] k.cueObs c).tail })).beginBurst ch

/-- Whether a channel that runs unharmed takes a request before its next burst (R318). -/
def State.needsReq (s : State) (ch : ChanId) : Bool :=
  let k := s.chan ch
  (match k.run with
   | some r => decide (r.done < (descOf r.desc).total)
   | none => false) &&
  !k.halt && !k.dead && k.err.isNone && k.left == 0 && (s.pace ch).mode == 1

/-- A core channel that needs a request takes one, or waits for it behind what waits on the counter already, as a sleeping CWAIT would (R291,
R318). The handle is translated as the wait begins; one that names no counter is tried again at the next burst. -/
def State.wantReq (s : State) (ch : ChanId) : State :=
  match ch, (s.chan ch).run with
  | .core site _, some r =>
    if !s.needsReq ch || (s.chan ch).want.isSome then s
    else
      match s.cueMap site r.ctx (s.pace ch).req with
      | none => s
      | some (c, _) =>
        if s.cueCount site c = 0 then
          let n := (s.core site).waits
          (s.modChan ch (fun k => { k with want := some (c, n) })).modCore site (fun x => { x with waits := n + 1 })
        else s.takeReq ch site c
  | _, _ => s

end Sys2Proof.Machine
end

