-- ==== Sys2Proof/Machine/CoreEvents.lean ====
section
/-! DEFINITION. Events of a core: load data and line fills, wakes, timers and bounds, entries to L1, breakpoint stops, the budget
cut, cue signals and queue messages (R58, R92 to R97, R243, R244, R289 to R293, R296, R300, R302, R326 to R334, R343). -/

namespace Sys2Proof.Machine

-- load data

/-- Where the data of a load stands when it arrives: bytes with poison, a cause of R331 with an unmapped address, or not there
yet. -/
inductive LdRes where
  | data (b : List Byte) (psn : Bool)
  | err (cause : Nat) (loc : Option Nat)
  | wait

/-- Data read at a local home for a core's thread (R241, R264, R273). -/
def State.homeRead (s : State) (site : Nat) (t : Fin 4) (l : Load) : State × LdRes :=
  let n := l.kind.size
  match s.homeOf l.loc n with
  | .hbm _ => (s.chargeBy site l.loc n false, .data (s.bytes l.loc n) (s.poisoned l.loc n))
  | .pad st off =>
    let s := s.chargeBy site l.loc n false
    if s.padRefuses st off n false then (s, .err 0x0B none)
    else (s, .data (s.bytes l.loc n) (s.poisoned l.loc n))
  | .reg _ _ =>
    let s := s.chargeBy site l.loc 4 false
    let (s, v) := s.readSpace (.thread site t) l.loc
    (s, .data (leBytes 4 v) false)
  | .bcast _ =>
    let (s, v) := s.readSpace (.thread site t) l.loc
    (s, .data (leBytes 4 v) false)
  | .unmapped => (s, .err 0x0A (some l.loc))

/-- The status a fabric response brings, as a cause of R331 (R354, R359). -/
def statusCause (g st : Nat) : LdRes := if st = 1 then .err 0x0A (some g) else .err 0x0B none

/-- An atomic performed at its home (R147, R257): the old word, and the new one written unless the word is poisoned. -/
def State.performAtomic (s : State) (site : Nat) (l : Load) : State × LdRes :=
  match s.home l.loc with
  | .unmapped => (s, .err 0x0A (some l.loc))
  | h =>
    let s := (s.chargeBy site l.loc 4 true).carry (s.actOf site) (s.homeDie l.loc) (dieOf site) 4
    let bad := match h with
      | .pad st off => s.padRefuses st off 4 true
      | _ => false
    if bad then (s, .err 0x0B none)
    else
      let old := BitVec.ofNat 32 (s.le l.loc 4)
      let r : LdRes := .data (leBytes 4 old.toNat) (s.poisoned l.loc 4)
      if s.poisoned l.loc 4 then (s, r)
      else
        match l.kind.newWord old l.opnd l.cmp with
        | some w => (s.writeMem l.loc (leBytes 4 w.toNat) false, r)
        | none => (s, r)

/-- A load's data from its home, or an atomic performed there, as the request fares on its way (R147, R253, R254, R269). Whether an atomic
that timed out was performed is not stated: a free value (log 8). -/
def State.homeData (s : State) (site : Nat) (t : Fin 4) (l : Load) (what : Arrival) : State × LdRes :=
  let take (s : State) : State × LdRes := if l.kind.atomic then s.performAtomic site l else s.homeRead site t l
  match what with
  | .ok => take (s.readGood l.loc l.kind.size)
  | .accessError => (s, .err 0x0B none)
  | .refused => (s, .err 0x0B none)
  | .uncorrectable => take (s.spoilt l.loc l.kind.size)
  | .parity =>
    match take (s.readGood l.loc l.kind.size) with
    | (s, .data b _) => (s.meshParity (dieOf site), .data b true)
    | r => r
  | .busError =>
    let s := s.meshTimedOut (dieOf site) l.loc
    if l.kind.atomic then
      let (x, s) := s.fresh
      (if x % 2 = 1 then (s.performAtomic site l).1 else s, .err 0x0B none)
    else (s, .err 0x0B none)

/-- A cached load's data (R243 to R245): from its line where the cache holds it, else with the fetch that it waits for, as that fares. A line
that an invalidation has overtaken is read without being kept (R281). -/
def State.lineData (s : State) (site : Nat) (t : Fin 4) (l : Load) (what : Arrival) : State × LdRes :=
  let a := l.loc / 64 * 64
  let fromLine (s : State) : State × LdRes :=
    match (s.core site).line a with
    | some k => (s, .data (k.at_ l.loc l.kind.size) k.poison)
    | none => (s, .wait)
  if ((s.core site).line a).isSome then
    fromLine (if what = .uncorrectable then s.modCore site (fun c => c.spoilLine a) else s)
  else if s.lineHeld site a then (s, .wait)
  else if (s.core site).filling a then
    match s.fetchLine site t a what with
    | (s, 0) => fromLine s
    | (s, st) => (s, statusCause l.loc st)
  else s.homeData site t l what

/-- A load of a thread replaced. -/
def State.setLoad (s : State) (site : Nat) (t : Fin 4) (k : Nat) (l : Load) : State :=
  s.modThr site t (fun x => { x with loads := x.loads.set k l })

/-- A load from another node that has no answer yet: it waits for its line, or is sent where it was held until now (R147, R244, R278). -/
def State.farData (s : State) (site : Nat) (t : Fin 4) (k : Nat) (l : Load) : State :=
  if l.tag.isSome then s
  else if l.cached && (s.core site).filling l.loc then s.sendFill site t (l.loc / 64 * 64)
  else
    let (s, l) := s.askFar site t l
    s.setLoad site t k l

/-- Whether a load's data may not be read yet (R110, R274, R277, R278). -/
def State.loadHeld (s : State) (site : Nat) (t : Fin 4) (k : Nat) (l : Load) : Bool :=
  s.readHeld site t l.loc l.kind.size l.cached || (s.isLocal l.loc && (s.thr site t).readsAhead k l.loc l.kind.size)

/-- The data of load k of a thread as it arrives. A mesh error is one of the mesh: the data of a core's own scratchpad, of a cache hit or of
another node meets none; a byte beyond correction may lie in the core's own scratchpad or cache too (R227, R248). -/
def State.loadData (s : State) (site : Nat) (t : Fin 4) (k : Nat) (l : Load) (what : Arrival) : State × LdRes :=
  match l.resp with
  | some (b, psn, 0) =>
    if what ≠ .uncorrectable then (s, .data b psn)
    else if l.own then (s.spoilt l.loc l.kind.size, .data b true)
    else if ((s.core site).line l.loc).isSome then (s.modCore site (fun c => c.spoilLine l.loc), .data b true)
    else (s, .data b psn)
  | some (_, _, st) => (s, statusCause l.loc st)
  | none =>
    if s.loadHeld site t k l then (s, .wait)
    else if !s.isLocal l.loc then (s.farData site t k l, .wait)
    else if l.cached then s.lineData site t l what
    else s.homeData site t l what

/-- A list without its element at an index. -/
def dropIdx {α : Type} : List α → Nat → List α
  | [], _ => []
  | _ :: t, 0 => t
  | a :: t, n + 1 => a :: dropIdx t n

/-- A load taken off its thread. -/
def State.endLoad (s : State) (site : Nat) (t : Fin 4) (k : Nat) : State :=
  s.modThr site t (fun x => { x with loads := dropIdx x.loads k })

/-- The word or vector a load writes (R146). -/
def LdKind.value (k : LdKind) (b : List Byte) : Nat :=
  let n := leNat b
  match k with
  | .h => wrap 32 (sgn 16 n)
  | .b => wrap 32 (sgn 8 n)
  | _ => n

/-- The observed sets of landing writes whose value a load returns (R282): those that came with its data, or of the bytes that it reads now. -/
def State.seenBy (s : State) (site : Nat) (l : Load) : List Nat :=
  if l.resp.isSome then l.seen
  else
    match (s.core site).line l.loc with
    | some k => if l.cached then k.seenAt l.loc l.kind.size else setsAt s.landObs l.loc l.kind.size
    | none => setsAt s.landObs l.loc l.kind.size

/-- A load's destination written (R146), and the observed sets of landing writes whose value it returned (R282). -/
def State.writeLoad (s : State) (site : Nat) (t : Fin 4) (l : Load) (b : List Byte) (seen : List Nat) : State :=
  let v := l.kind.value b
  let s := match l.kind with
    | .scale n _ => s.modTile site n (fun k =>
        { k.own (s.thr site t).ctx with scale := BitVec.ofNat 1024 (setBits k.scale.toNat 0 (8 * b.length) v) })
    | .vec => s.modThr site t (fun x => { x with v := x.v.set (Fin.ofNat 16 (l.dst - 16)) (BitVec.ofNat 512 v) })
    | _ => s.modThr site t (fun x => { x with s := x.s.set (Fin.ofNat 16 l.dst) (BitVec.ofNat 32 v) })
  s.observeAll site t seen

/-- Whether a thread stands at a bundle boundary: no bundle begun, no long operation, awake or asleep after a SLEEP. -/
def Thread.atBoundary (x : Thread) : Bool :=
  x.bun.isNone && x.long.isNone && !x.l2wait &&
  (match x.wait with
   | some w => w.kind == .sleep
   | none => true)

/-- An error or poison that a load brought (R331): taken at once at a boundary of a thread that runs, else at its next one. -/
def State.loadError (s : State) (site : Nat) (t : Fin 4) (l : Load) (cause : Nat) (loc : Option Nat) : State :=
  let s := match loc with
    | some g => s.unmappedAt (dieOf site) g
    | none => s
  let x := s.thr site t
  if x.atBoundary && !s.halted site t && !x.dbgStop && x.late.isEmpty then s.takeLate site t cause l.ea
  else s.modThr site t (fun x => { x with late := x.late ++ [(cause, l.ea)] })

/-- Whether poison in a load's data is consumed: TLDS moves it into a scale side, every other load into a register (R364). -/
def LdKind.consumes : LdKind → Bool
  | .scale _ _ => false
  | _ => true

/-- LOAD_DATA_ARRIVAL (R331): the data of load k of a thread arrives; an atomic that ends in error fails its command (R282). -/
def execLoadDataArrival (site : Nat) (th : Fin 4) (k : Nat) (what : Arrival) (s : State) : Res :=
  done (match (s.thr site th).loads[k]? with
    | none => s
    | some l =>
      match s.loadData site th k l what with
      | (s, .wait) => s
      | (s, .err cause loc) => ((s.endLoad site th k).failCmd l.cmd).loadError site th l cause loc
      | (u, .data b psn) =>
        let u := u.endLoad site th k
        if psn && l.kind.consumes then u.loadError site th l 0x30 none
        else u.writeLoad site th l b (s.seenBy site l))

-- line fills

/-- The thread a fill serves: one whose load waits for the line, else the first whose region table grants R or W over it. -/
def State.fillFor (s : State) (site g : Nat) : Option (Fin 4) :=
  let a := g / 64 * 64
  match threads.find? (fun t => (s.thr site t).loads.any (fun l => l.cached && l.resp.isNone && l.loc / 64 == g / 64)) with
  | some t => some t
  | none => threads.find? (fun t =>
      s.lineAllowed (s.thr site t).ctx a needR || s.lineAllowed (s.thr site t).ctx a needW)

/-- Whether a load of a core waits for a line. -/
def Core.awaited (c : Core) (a : Nat) : Bool :=
  threads.any (fun t => c.th[t].loads.any (fun l => l.cached && l.resp.isNone && l.loc / 64 == a / 64))

/-- The fetch of a line ended with an error: a store or tile operation that waits for a line on demand is told when it is next tried
(R244, R254). -/
def State.fetchTold (s : State) (site a st : Nat) (demand waited : Bool) : State :=
  if st ≠ 0 ∧ demand ∧ !waited then s.modCore site (fun c => { c with lineErr := some (a, st) }) else s

/-- A line of this module fetched by its own event. -/
def State.fetchNow (s : State) (site : Nat) (t : Fin 4) (a : Nat) (what : Arrival) : State :=
  let c := s.core site
  let (u, st) := s.fetchLine site t a what
  u.fetchTold site a st (c.demand == some a) (c.awaited a)

/-- A demand miss of a store that waits for its line (R243, R244): a line of this module comes at once, another node's with its response. -/
def State.fetchDemand (s : State) (site : Nat) (t : Fin 4) (a : Nat) (what : Arrival) : State :=
  if s.isLocal a then (s.startMiss site t a).fetchNow site t a what
  else
    match s.fabRead (.fill site a) (s.actOf site) (s.thr site t).ctx a 64 with
    | (s, .sent _) => s.startMiss site t a
    | (s, .ended st) => s.fetchTold site a st true ((s.core site).awaited a)

/-- CACHE_LINE_FILL (R243, R244): a line on its way comes, on demand or ahead of it; a demand for a line that is not on its way starts its
miss, unless another demand miss is outstanding. -/
def execCacheLineFill (site : Nat) (addr : Nat) (x : Meeting Bool) (s : State) : Res :=
  let a := s.spaceOf addr / 64 * 64
  let c := s.core site
  done (match s.fillFor site a with
    | none => s
    | some t =>
      if !s.present site || !s.cacheable site a || (c.line a).isSome || s.lineHeld site a then s
      else if c.demand = some a ∨ c.ahead = some a then
        (if !s.isLocal a then s.sendFill site t a else if x.val || c.ahead == some a then s.fetchNow site t a x.what else s)
      else if x.val && c.demand.isNone then s.fetchDemand site t a x.what
      else s)

-- waits

/-- WAKE (R92): a sleeping thread whose source has fired goes on. -/
def execWake (site : Nat) (th : Fin 4) (s : State) : Res := done (s.retryWait site th)

/-- TIMER_FIRE (R94, R95). -/
def execTimerFire (site : Nat) (th : Fin 4) (at_ : Nat) (s : State) : Res :=
  let t := s.tick at_
  done (if (t.thr site th).timerDue t.cyc then t.modThr site th (fun x => x.pendSet 2) else t)

/-- WAIT_BOUND (R97, R292): a wait that has reached its bound ends. -/
def execWaitBound (site : Nat) (th : Fin 4) (at_ : Nat) (s : State) : Res :=
  let t := s.tick at_
  done (match (t.thr site th).wait with
    | none => t
    | some w => if t.bounded w && w.kind != .batchEnd then t.retryWait site th else t)

/-- What waits for a counter of a core: a thread asleep in a CWAIT, or a channel that needs a request (R291, R318). -/
inductive Waiter where
  | thread (t : Fin 4)
  | chan (c : Fin 2)
  deriving DecidableEq, Repr

/-- What waits for a counter, each with its place in the order (R291). -/
def State.waiters (s : State) (site c : Nat) : List (Nat × Waiter) :=
  (threads.filterMap (fun t =>
    match (s.thr site t).wait with
    | some w => if w.kind = .cwait c then some (w.order, Waiter.thread t) else none
    | none => none)) ++
  (([0, 1] : List (Fin 2)).filterMap (fun j =>
    match ((s.core site).chans[j]).want with
    | some (k, o) => if k = c ∧ s.needsReq (.core site j) then some (o, Waiter.chan j) else none
    | none => none))

/-- A waiter given a request of the counter it waits for. -/
def State.serveOne (s : State) (site c : Nat) : Waiter → State
  | .thread t => s.retryWait site t
  | .chan j => s.takeReq (.core site j) site c

/-- CWAITs asleep on a counter, and channels that wait on it, served, the earliest first (R291, R318). -/
def State.serveWaits (s : State) (site c : Nat) : Nat → State
  | 0 => s
  | n + 1 =>
    match s.waiters site c with
    | [] => s
    | w :: rest =>
      if s.cueCount site c = 0 then s
      else (s.serveOne site c (rest.foldl (fun (m : Nat × Waiter) (v : Nat × Waiter) => if v.1 < m.1 then v else m) w).2).serveWaits site c n

-- queues

/-- The oldest claimed message of a queue written and committed (R301, R302): the reader is told and served, its sender's
commit ends with 0, and a delivered sum counts its round (R308). `psn` is whether it came poisoned over the mesh (R253). -/
def State.commitMsg (s : State) (site q : Nat) (psn : Bool) : State :=
  match (s.core site).qWriting[Fin.ofNat 8 q] with
  | [] => s
  | m :: rest =>
    let b := qHeader m.kind m.words.length m.site m.th m.ctx m.seq ++ m.words.flatMap (fun w => leBytes 8 w.toNat)
    let s := s.queueWrite site (s.qUnitOff site q m.start) b psn
    let s := s.modCore site (fun c =>
      { c with
        qWriting := c.qWriting.set (Fin.ofNat 8 q) rest
        qReady := c.qReady.set (Fin.ofNat 8 q) (c.qReady[Fin.ofNat 8 q] ++ [m]) })
    let s := if m.kind = 3 then s.setCfld site CQ_STAT_ROUNDS ((s.cfld site CQ_STAT_ROUNDS + 1) % 65536) else s
    let reader := Fin.ofNat 4 (s.cfld site (QQ_CFG_READER q))
    let s := s.modThr site reader (fun x => x.pendSet 1)
    let s := match (s.thr site reader).wait with
      | some w => if w.kind = .qrecv q then s.retryWait site reader else s
      | none => s
    if m.kind ≠ 1 then s
    else
      let t := Fin.ofNat 4 m.th
      match (s.thr m.site t).wait with
      | some w => if w.kind = .qsend site q then s.sentWait m.site t else s
      | none => s

/-- Messages of a queue written until a sender's own has ended. -/
def State.flushTo (s : State) (dst q site : Nat) (t : Fin 4) : Nat → State
  | 0 => s
  | n + 1 => if s.qClaimedBy dst q site t then (s.commitMsg dst q false).flushTo dst q site t n else s

/-- A thread brought to a boundary by an interrupt, a halt, a debug stop or a delivery (R293): its wait is abandoned and an unfinished
bundle dropped; a message already claimed is written first and its bundle retires (log 32). The Boolean says whether the bundle named next
issued and did not retire. -/
def State.abandon (s : State) (site : Nat) (t : Fin 4) : State × Bool :=
  let s := match (s.thr site t).wait with
    | some w =>
      match w.kind with
      | .qsend dst q => s.flushTo dst q site t ((s.core dst).qWriting[Fin.ofNat 8 q]).length
      | _ => s
    | none => s
  let x := s.thr site t
  let retry := match x.wait with
    | some w => w.kind != .sleep
    | none => bitOf x.prog.toNat 31
  (s.modThr site t (fun x => { x with bun := none, wait := none }), retry)

/-- CUE_SIGNAL_ARRIVAL (R288 to R291): signal k reaches its counter, or its core's map refuses it. One for another node is held
until its issuer's writes have landed and leaves over the fabric (R356). -/
def execCueSignalArrival (k : Nat) (s : State) : Res :=
  done (match s.signals[k]? with
    | none => s
    | some g =>
      let rest := { s with signals := dropIdx s.signals k }
      if g.node ≠ 0 then
        if g.obs.any s.cmdOpen then s
        else
          let a := g.node <<< 52 + padBase g.site
          let q := s.fabReq .cue g.ctx a g.inc
          (rest.fabSendMsg .signal none a { q with site := g.site, handle := g.handle, inc := g.inc }).1
      else
        match g.counter with
        | some c => (rest.cueAdd g.site c g.inc g.ctx g.obs).serveWaits g.site c 6
        | none =>
          match rest.cueMap g.site g.ctx g.handle with
          | none => rest.cueError g.site 2 g.ctx g.handle
          | some (c, rem) =>
            if g.rem && !rem then rest.cueError g.site 2 g.ctx g.handle
            else (rest.cueAdd g.site c g.inc g.ctx g.obs).serveWaits g.site c 6)

/-- Whether the message that a queue writes next came from another core (R299). -/
def State.qFromAfar (s : State) (site : Nat) (q : Fin 8) : Bool :=
  match (s.core site).qWriting[q] with
  | m :: _ => m.kind == 1 && m.site != site
  | [] => false

/-- QUEUE_MESSAGE_COMMIT (R302). A message of another core that meets a payload parity error on the mesh is written poisoned (R253). -/
def execQueueMessageCommit (site : Nat) (x : Meeting (Fin 8)) (s : State) : Res :=
  let hit := x.what == .parity && s.qFromAfar site x.val
  done ((if hit then s.meshParity (dieOf site) else s).commitMsg site x.val.val hit)

/-- QUEUE_SEND_RETRY (R300): a message refused as full is offered again. -/
def execQueueSendRetry (site : Nat) (th : Fin 4) (s : State) : Res :=
  done (match (s.thr site th).wait with
    | some w =>
      match w.kind with
      | .qsend _ _ => s.retryWait site th
      | _ => s
    | none => s)

-- entries and stops

/-- Whether a thread may act at a boundary now: it exists, runs, is not debug-stopped and has no long operation in flight. -/
def State.canEnter (s : State) (site : Nat) (t : Fin 4) : Bool :=
  let x := s.thr site t
  s.present site && !s.halted site t && !x.dbgStop && !x.stepping && x.long.isNone && !x.l2wait

/-- An entry with nothing of the thread's bundle in its way: an error that came with load data is taken instead (R331, R333). -/
def State.enterAt (s : State) (site : Nat) (t : Fin 4) (cause : Nat) : State :=
  match (s.thr site t).late with
  | (c, ea) :: _ => (s.abandon site t).1.takeLate site t c ea
  | [] =>
    let (s, retry) := s.abandon site t
    s.takeTrap site t ⟨cause, 0, 0, 0, false, retry, false⟩

/-- THREAD0_L1_ENTRY (R327): thread 0 at L0 enters L1 for a delivery. Its own fault enters with its bundle, its interrupt by
INTERRUPT_TAKE. -/
def execThread0L1Entry (site : Nat) (s : State) : Res :=
  done (if s.canEnter site 0 && s.delivered site 0 then s.enterAt site 0 0x1B else s)

/-- A thread's software-interrupt bit cleared. -/
def State.clearSwi (s : State) (site : Nat) (t : Fin 4) : State :=
  s.setCfld site CFG_CORE_SWI_SWI (setBits (s.cfld site CFG_CORE_SWI_SWI) t.val 1 0)

/-- Whether a thread stands at a boundary whose next bundle begins at an enabled comparator (R343). -/
def State.bpDue (s : State) (site : Nat) (t : Fin 4) : Bool :=
  (s.thr site t).atBoundary && !(s.thr site t).bpSkip && s.bpMatch site t

/-- INTERRUPT_TAKE (R334): with IE the interrupt is taken, a delivery to thread 0 going first, and a debug stop at the same boundary
leaving it pending (R333); without IE it is a wake source alone. -/
def execInterruptTake (site : Nat) (th : Fin 4) (s : State) : Res :=
  done (
    if s.interrupted site th && s.canEnter site th && !s.delivered site th then
      if s.bpDue site th then (s.abandon site th).1.dbgHalt site th 2
      else match (s.thr site th).late with
      | _ :: _ => s.enterAt site th 0x1A
      | [] => (s.clearSwi site th).enterAt site th 0x1A
    else if bitOf (s.cfld site CFG_CORE_SWI_SWI) th.val && !bitOf (s.core site).trapCtl.toNat th.val then
      (s.clearSwi site th).modThr site th (fun x => x.pendSet 3)
    else s)

/-- BREAKPOINT_STOP (R343): a thread whose next bundle begins at an enabled comparator stops before it. -/
def execBreakpointStop (site : Nat) (th : Fin 4) (s : State) : Res :=
  let x := s.thr site th
  done (if s.canEnter site th && x.bun.isNone && x.wait.isNone && !x.bpSkip && s.bpMatch site th then s.dbgHalt site th 2 else s)

-- the budget cut

/-- An act held at a die's slice from the next close (R58, R59). -/
def State.holdAct (s : State) (d act : Nat) : State :=
  if s.heldActs.contains (d, act) then s else { s with heldActs := s.heldActs ++ [(d, act)] }

/-- A breach recorded at a die and its act held (R58, R59). -/
def State.breach (s : State) (d act kind : Nat) : State :=
  let s := s.setFld d BOX_BREACH_CNT (satAdd 8 (s.fld d BOX_BREACH_CNT) 1)
  let s := s.setFld d BOX_BREACH_KIND kind
  let s := s.setFld d BOX_BREACH_ACT act
  (s.event d BOX_EVENT_BREACH).holdAct d act

/-- A thread's entry PC (R107). -/
def State.entryPc (s : State) (site : Nat) (t : Fin 4) : Nat :=
  match t.val with
  | 0 => s.cfld site CFG_CORE_ENTRY01_ENTRY0
  | 1 => s.cfld site CFG_CORE_ENTRY01_ENTRY1
  | 2 => s.cfld site CFG_CORE_ENTRY23_ENTRY2
  | _ => s.cfld site CFG_CORE_ENTRY23_ENTRY3

/-- A thread set to its entry (R107, R326): its trap is cleared. -/
def State.startAt (s : State) (site : Nat) (t : Fin 4) : State :=
  let pc := BitVec.ofNat 16 (s.entryPc site t)
  let s := s.modThr site t (fun x => x.start pc)
  s.modCore site (fun c => { c with trapPend := BitVec.ofNat 32 (setBits c.trapPend.toNat t.val 1 0) })

/-- Threads 1 to 3 of a context restarted at their entries: those that run and those stopped at L1 (R58, R380). -/
def State.restartCtx (s : State) (site ctx : Nat) : State :=
  threads.foldl (fun s t =>
    let x := s.thr site t
    if t ≠ 0 ∧ x.ctx = ctx ∧ x.level ≠ .l2 ∧ (x.level = .l1 ∨ !s.halted site t) then
      let s := match x.wait with
        | some w =>
          match w.kind with
          | .qsend dst q => s.flushTo dst q site t ((s.core dst).qWriting[Fin.ofNat 8 q]).length
          | _ => s
        | none => s
      (s.startAt site t).setHalt site t false
    else s) s

/-- Counters of a context's map set to 0, but for the act's stage cue (R296). -/
def State.clearCues (s : State) (site ctx : Nat) (keep : Option Nat) : State :=
  (List.range 64).foldl (fun s h =>
    match s.cueMap site ctx h with
    | some (c, _) =>
      if some c = keep then s
      else (s.setCue site c 0).modCore site (fun k => { k with cueObs := put [] k.cueObs c [] })
    | none => s) s

/-- Whether a step's end has retired on its core. -/
def State.hasEnded (s : State) (st : Step) : Bool :=
  (s.core st.site).batches.any (fun b => b.act == st.act && b.frame == st.frame &&
    b.slots.any (fun r => r.stream == st.stream && r.ended))

/-- The unended steps of a running batch (R58, R380); those of a spanning act on every member. -/
def State.unended (s : State) (b : Running) : List Step :=
  s.steps.filter (fun st => st.act == b.act && st.frame == b.frame && !s.hasEnded st &&
    (if actSpan (s.act b.act) then st.phase == .accepted || st.phase == .running
     else st.phase == .running && b.slots.any (fun r => r.stream == st.stream)))

/-- Slots of a batch whose step-end has not retired (R58, R378). -/
def Running.open (b : Running) : List SlotRec := b.slots.filter (fun r => !r.struck && !r.ended)

/-- A batch over before its end: its open slots are closed and its registers cleared; a step-end that has retired waits for its strike
(R58), and the stage area is released once every slot is done (R80, R152). -/
def State.overBatch (s : State) (site : Nat) (b : Running) : State :=
  let b := { b with slots := b.slots.map (fun r => if r.ended then r else { r with struck := true }) }
  let s := s.modCore site (fun c =>
    { c with
      batch := none
      ended := c.ended ++ [b]
      stgCount := 0 })
  (s.freeStage site ((s.core site).ended.length)).restUnd site

/-- The steps of a running batch lost (R58, R373, R380): f gives each unended step's abort cause; a replay's try fails. -/
def State.loseSteps (s : State) (site : Nat) (b : Running) (f : Step → Nat) : State :=
  if b.replay then
    b.open.foldl (fun s r =>
      match s.stepOf r.stream with
      | some st => if st.phase = .replaying then s.replayFail site st else s
      | none => s) s
  else (s.unended b).foldl (fun s st => s.abortStep st (f st)) s

/-- A channel at a budget cut (R322): queued commands of the context and one it is halted on are discarded; a running one ends when its
writes have landed. -/
def Chan.cut (k : Chan) (ctx : Nat) : Chan :=
  let k := { k with queue := k.queue.filter (fun r => r.ctx != ctx) }
  match k.run with
  | none => k
  | some r =>
    if r.ctx ≠ ctx then k
    else if k.halt then { k with run := none, halt := false, err := none }
    else { k with dead := true, want := none }

/-- The cut of a core's batch (R58, R296): a step-end that has retired commits. A replay's cut is a failed try and no breach (R373). -/
def State.cut (s : State) (site : Nat) (b : Running) : State :=
  let d := dieOf site
  let keep := (s.cueMap site b.ctx (actStgCue (s.act b.act))).map Prod.fst
  let s := s.loseSteps site b (fun _ => 0x01)
  let s := if b.replay then s else s.breach d b.act 0
  let s := s.overBatch site b
  let s := s.modCore site (fun c => { c with chans := c.chans.map (fun k => k.cut b.ctx) })
  (s.restartCtx site b.ctx).clearCues site b.ctx keep

/-- BUDGET_CUT (R57, R58): bud.left has reached 0 in a batch that has started and is not in rehearsal. -/
def execBudgetCut (site : Nat) (at_ : Nat) (s : State) : Res :=
  let t := s.tick at_
  done (match (t.core site).batch with
    | none => t
    | some b =>
      if b.started ∧ (t.core site).bud = 0 ∧ !t.rehearsal b.ctx ∧ !t.safe site then t.cut site b else t)

end Sys2Proof.Machine
end

