-- ==== Sys2Proof/Machine/CoreCtl.lean ====
section
/-! DEFINITION. Control of a core from outside its bundles: START, HALT, SAFE, contexts, software interrupts, cue counts,
circular regions, queues, the data cache, L2 returns and the debug path (R102, R105 to R108, R237, R238, R246, R288, R290, R297,
R299, R329, R334, R341 to R344). -/

namespace Sys2Proof.Machine

/-- A write of an E field asked for by a requester (R12): done with expert access, else refused, with the access-violation source of the
register's die where it would have changed the field or taken an action of it (`moves`). -/
def State.asExpert (s : State) (r : Requester) (d : Nat) (moves : Bool) (f : State → State) : State :=
  if s.expert r then f s else if moves then s.violation d else s

-- threads

/-- Whether a program-memory copy runs at a core's die with the core among its targets (R266). -/
def State.copying (s : State) (site : Nat) : Bool :=
  let d := dieOf site
  s.flag d MSH_PMC_CMD_BUSY &&
  (if s.flag d MSH_PMC_CMD_GRP then bitOf (s.cfld site CFG_CORE_GROUP_GROUP) (s.fld d MSH_PMC_CMD_TARGET % 32)
   else s.fld d MSH_PMC_CMD_TARGET == site)

/-- START[n] (R107, R266): ignored with CTRL_ERR unless the thread was halted and no copy runs into its core. `run` is whether the
same write leaves HALT[n] at 0. -/
def State.startThread (s : State) (site : Nat) (t : Fin 4) (run : Bool) : State :=
  if !s.halted site t || s.copying site then s.ctrlErr site
  else (s.startAt site t).setHalt site t (!run)

/-- HALT[n] written 1 (R107, R293): the thread stops at its boundary; a long operation in flight stops at TILE_OP_STOP. -/
def State.haltThread (s : State) (site : Nat) (t : Fin 4) : State :=
  if s.halted site t then s else ((s.abandon site t).1).setHalt site t true

/-- HALT[n] written 0 without START (R107, R326): the thread goes on at its PC; one stopped at L1 is left, with CTRL_ERR. -/
def State.resumeThread (s : State) (site : Nat) (t : Fin 4) : State :=
  if !s.halted site t then s
  else if t ≠ 0 ∧ (s.thr site t).level = .l1 then s.ctrlErr site
  else s.setHalt site t false

/-- THREAD_START (R107): START[n] with HALT[n] left at 0. -/
def execThreadStart (r : Requester) (site : Nat) (th : Fin 4) (s : State) : Res :=
  done (s.asExpert r (dieOf site) true (fun s => s.startThread site th true))

/-- THREAD_HALT (R107). -/
def execThreadHalt (r : Requester) (site : Nat) (th : Fin 4) (s : State) : Res :=
  done (s.asExpert r (dieOf site) (!s.halted site th) (fun s => s.haltThread site th))

/-- THREAD_RESUME (R107). -/
def execThreadResume (r : Requester) (site : Nat) (th : Fin 4) (s : State) : Res :=
  done (s.asExpert r (dieOf site) (s.halted site th) (fun s => s.resumeThread site th))

/-- A change of SAFE (R108): only with all four threads halted and no long operation left, and never to 0 while the core is quarantined;
tiles and accumulators become empty. -/
def State.setSafe (s : State) (site : Nat) (v : Bool) : State :=
  if s.safe site = v then s
  else if s.isQuar site && !v then s.ctrlErr site
  else if threads.all (fun t => s.halted site t && (s.thr site t).long.isNone) then
    (s.setCfld site CFG_CORE_CTRL_SAFE (b2n v)).modCore site (fun c =>
      { c with tiles := Vector.replicate 8 Tile.reset, acc := Vector.replicate 2 Acc32.reset })
  else s.ctrlErr site

/-- SAFE_WRITE (R108). -/
def execSafeWrite (r : Requester) (site : Nat) (v : Bool) (s : State) : Res :=
  done (s.asExpert r (dieOf site) (s.safe site != v) (fun s => s.setSafe site v))

/-- A write of a context field (R105): unchanged values are not checked; a running thread keeps its context, with CTX_ERR. -/
def State.ctxWrite (s : State) (site : Nat) (t : Fin 4) (ctx : Nat) : State :=
  if ctx % 64 = (s.thr site t).ctx then s
  else if s.halted site t then s.setCtx site t (ctx % 64)
  else s.ctxErr site

/-- CTX_CHANGE (R105, R106). The region table is read live, so the copy is loaded at once. -/
def execCtxChange (r : Requester) (site : Nat) (th : Fin 4) (ctx : Nat) (s : State) : Res :=
  done (s.asExpert r (dieOf site) (ctx % 64 != (s.thr site th).ctx) (fun s => s.ctxWrite site th ctx))

/-- A software interrupt raised at a thread (R95, R334): with IE at 0 it is a wake source and clears at once. -/
def State.raiseSwi (s : State) (site : Nat) (t : Fin 4) : State :=
  if bitOf (s.core site).trapCtl.toNat t.val then
    s.setCfld site CFG_CORE_SWI_SWI (setBits (s.cfld site CFG_CORE_SWI_SWI) t.val 1 1)
      |>.modThr site t (fun x => x.pendSet 3)
  else s.modThr site t (fun x => x.pendSet 3)

/-- SWI (R334). Any requester may write CFG_CORE_SWI, a B field. -/
def execSwi (_r : Requester) (site : Nat) (th : Fin 4) (s : State) : Res := done (s.raiseSwi site th)

-- cues and regions

/-- A counter's count written (R290, R291): the write itself arms nothing; sleeping CWAITs are served. -/
def State.cueWrite (s : State) (site n v : Nat) : State :=
  let s := s.setCue site n v
  let s := s.modCore site (fun c => { c with cueObs := put [] c.cueObs n ((get [] c.cueObs n).take (v % 65536)) })
  s.serveWaits site n 6

/-- CUE_COUNT_WRITE (R290). -/
def execCueCountWrite (r : Requester) (site : Nat) (n : Fin 64) (v : Word) (s : State) : Res :=
  done (s.asExpert r (dieOf site) (s.cueCount site n.val != v.toNat % 65536)
    (fun s => s.cueWrite site n.val (v.toNat % 65536)))

/-- REGION_ENABLE (R237): crK.cfg written with EN by thread 0. -/
def execRegionEnable (site : Nat) (k : Fin 8) (v : Word) (s : State) : Res :=
  done (s.mts site 0 0 (0x090 + 4 * k.val) (setBits v.toNat 31 1 1))

/-- A claim or release on a region that software owns (R237, R238). Through the control block an operation on another region is
ignored. -/
def State.crSoft (s : State) (site k v : Nat) : State :=
  if s.cflag site (CR_CFG_EN k) && s.cfld site (CR_CFG_OWNER k) == 0 then s.crOp site k v else s

/-- CLAIM (R238). -/
def execClaim (site : Nat) (k : Fin 8) (n : Nat) (s : State) : Res := done (s.crSoft site k.val (n % 2 ^ 14))

/-- RELEASE (R238). -/
def execRelease (site : Nat) (k : Fin 8) (n : Nat) (s : State) : Res := done (s.crSoft site k.val (2 ^ 31 + n % 2 ^ 14))

/-- QUEUE_ENABLE (R297): qq.cfg written with EN by thread 0. -/
def execQueueEnable (site : Nat) (q : Fin 8) (v : Word) (s : State) : Res :=
  done (s.mts site 0 0 (0x0C0 + 2 * q.val) (setBits v.toNat 31 1 1))

/-- STAGING_DISCARD (R299). -/
def execStagingDiscard (site : Nat) (th : Fin 4) (s : State) : Res :=
  done (s.modThr site th (fun x => { x with staging := [] }))

-- the data cache

/-- A write to dc.ctl by thread 0 (R246): its next bundle waits for the write-backs. -/
def State.dcByZero (s : State) (site v : Nat) : State :=
  let id := s.nextCmd
  let s := s.mts site 0 0 0x084 v
  s.modThr site 0 (fun x => { x with hold := (List.range (s.nextCmd - id)).map (fun i => id + i) })

/-- CACHE_INV (R246). -/
def execCacheInv (site : Nat) (s : State) : Res := done (s.dcByZero site (4 + s.cfld site DC_CTL_EN))

/-- CACHE_CLEAN (R246). -/
def execCacheClean (site : Nat) (s : State) : Res := done (s.dcByZero site (2 + s.cfld site DC_CTL_EN))

/-- dc.ctl written through the core control block (R246): an enable without INVD is ignored, with CTRL_ERR. -/
def State.dcFromBlock (s : State) (site v : Nat) : State :=
  if s.dcCtlBad site v then s.ctrlErr site else s.dcCtlWrite site 0 v

/-- CACHE_ENABLE (R246). -/
def execCacheEnable (r : Requester) (site : Nat) (s : State) : Res :=
  done (s.asExpert r (dieOf site) (!s.cflag site DC_CTL_EN) (fun s => s.dcFromBlock site 1))

/-- CACHE_DISABLE (R246). -/
def execCacheDisable (site : Nat) (s : State) : Res := done (s.dcByZero site 0)

/-- NUM_SEED_ACCESS (R210): the selected generator read or written, IDX stepping under AINC. -/
def execNumSeedAccess (site : Nat) (th : Fin 4) (w : Option Word) (s : State) : Res :=
  done (match w with
    | none =>
      let t := s.modThr site th Thread.seedAdvance
      { t with rdData := leBytes 4 (s.stRead site th 0x025) }
    | some v => s.mts site th th 0x025 v.toNat)

-- L2

/-- Whether a requester is a thread of the core itself: its writes to CFG_CORE_TRAP are ignored (R329). -/
def ownThread (r : Requester) (site : Nat) : Bool :=
  match whoOf r with
  | .thread st _ => st == site
  | .chan st _ => st == site
  | _ => false

/-- RESUME[n] or RUN2[n] (R329). -/
def State.l2Release (s : State) (r : Requester) (site : Nat) (t : Fin 4) (f : Thread → Thread) : State :=
  if ownThread r site || !(s.thr site t).l2wait then s.ctrlErr site else s.modThr site t f

/-- RESUME[n] or RUN2[n] by its own command (R12, R329): a thread of the core itself is ignored with CTRL_ERR, whatever its access. -/
def State.l2Ask (s : State) (r : Requester) (site : Nat) (t : Fin 4) (f : Thread → Thread) : State :=
  if ownThread r site then s.ctrlErr site
  else s.asExpert r (dieOf site) (s.thr site t).l2wait (fun s => s.l2Release r site t f)

/-- L2_RESUME (R329). -/
def execL2Resume (r : Requester) (site : Nat) (th : Fin 4) (s : State) : Res :=
  done (s.l2Ask r site th Thread.returnL2)

/-- A thread running its L2 handler (R329). -/
def Thread.runL2 (x : Thread) (vec : BitVec 16) : Thread := { x with pc := vec, l2wait := false }

/-- L2_RUN2 (R329): the thread runs at L2 from VEC2. -/
def execL2Run2 (r : Requester) (site : Nat) (th : Fin 4) (s : State) : Res :=
  let vec := BitVec.ofNat 16 (s.cfld site CFG_CORE_TRAP_VEC2)
  done (s.l2Ask r site th (fun x => x.runL2 vec))

-- debug

/-- A debug request at a thread (R342 to R345): only the debug path and the stage managers; only a thread of a context in rehearsal;
replays ignore it. -/
def State.dbgAsk (s : State) (r : Requester) (site : Nat) (t : Fin 4) (f : State → State) : State :=
  if !dbgUser r then s.violation (dieOf site)
  else if !s.rehearsal (s.thr site t).ctx then s.setCfld site CFG_CORE_DBG_CTL_ERR 1
  else if s.replaying site t then s
  else f (s.modThr site t (fun x => x.pendSet 4))

/-- STOP[n] (R343). -/
def State.dbgStopReq (s : State) (site : Nat) (t : Fin 4) : State :=
  if (s.thr site t).dbgStop then s
  else ((s.abandon site t).1).dbgHalt site t 1

/-- DEBUG_STOP (R343): the thread stops at its next boundary, a wait abandoned; a long operation stops at TILE_OP_STOP. -/
def execDebugStop (r : Requester) (site : Nat) (th : Fin 4) (s : State) : Res :=
  done (s.dbgAsk r site th (fun s => s.dbgStopReq site th))

/-- RESUME[n] of CFG_CORE_DBG_CTL (R327, R343): the thread runs, a step that has not issued is given up, and the next bundle does not
match a comparator again. -/
def Thread.dbgGo (x : Thread) : Thread :=
  if x.dbgStop then
    { x with
      dbgStop := false
      stepping := false
      bpSkip := true }
  else x

/-- DEBUG_RESUME (R343). -/
def execDebugResume (r : Requester) (site : Nat) (th : Fin 4) (s : State) : Res :=
  done (s.dbgAsk r site th (fun s => s.modThr site th Thread.dbgGo))

/-- STEP[n] (R343): one bundle issues and the thread stops again. -/
def Thread.dbgStep (x : Thread) : Thread := if x.dbgStop then { x with stepping := true, bpSkip := true } else x

/-- DEBUG_STEP (R343). -/
def execDebugStep (r : Requester) (site : Nat) (th : Fin 4) (s : State) : Res :=
  done (s.dbgAsk r site th (fun s => s.modThr site th Thread.dbgStep))

/-- Word i of a number replaced. -/
def setWord (v i : Nat) (w : Word) : Nat := setBits v (32 * i) 32 w.toNat

/-- A debug write refused (R344). -/
def State.dbgErr (s : State) (site : Nat) : State := s.setCfld site CFG_CORE_DBG_CTL_ERR 1

/-- A bank register written through the debug path (R102, R344): a failed check is ignored and sets ERR. -/
def State.dbgBank (s : State) (site : Nat) (t : Fin 4) (b i : Nat) (w : Word) : State :=
  let x := s.thr site t
  let v := setWord (x.bk[Fin.ofNat 8 b]).toNat i w
  if b = 0 ∨ !s.bankOverlaps x.ctx (v / 2 ^ 29) then s.dbgErr site
  else s.modThr site t (fun x => { x with bk := x.bk.set (Fin.ofNat 8 b) (BitVec.ofNat 64 (v / 2 ^ 29 * 2 ^ 29 + 1)) })

/-- A debug item written (R344): state registers by their field access, the rest whole words; p0, unlisted items and words beyond an
item's width take nothing. -/
def State.dbgPut (s : State) (site : Nat) (t : Fin 4) (item i : Nat) (w : Word) : State :=
  let x := s.thr site t
  let ctl (f : Thread → Thread) := s.modThr site t f
  if item < 0x200 then
    match stWidth item with
    | some 64 => if i < 2 then s.stWrite site t item (setWord (s.stRead site t item) i w) true true true else s
    | some _ => if i = 0 then s.stWrite site t item w.toNat true true true else s
    | none => s
  else if item < 0x210 then (if i = 0 then ctl (fun x => { x with s := x.s.set (Fin.ofNat 16 (item - 0x200)) w }) else s)
  else if item < 0x220 then
    let r := Fin.ofNat 16 (item - 0x210)
    ctl (fun y => { y with v := y.v.set r (BitVec.ofNat 512 (setWord (x.v[r]).toNat i w)) })
  else if item < 0x224 then
    let r := Fin.ofNat 4 (item - 0x220)
    if i < 2 ∧ r ≠ 0 then ctl (fun y => { y with p := y.p.set r (BitVec.ofNat 64 (setWord (x.p[r]).toNat i w)) }) else s
  else if 0x228 ≤ item ∧ item < 0x230 then (if i < 2 then s.dbgBank site t (item - 0x228) i w else s)
  else if item = 0x230 then (if i = 0 then ctl (fun x => { x with pc := BitVec.ofNat 16 w.toNat }) else s)
  else if item = 0x231 then
    if i = 0 ∧ w.toNat < 3 then
      ctl (fun x => { x with level := if w = 0 then .l0 else if w = 1 then .l1 else .l2 })
    else s
  else s

/-- A write of CFG_CORE_DBG_DATA (R344). -/
def State.dbgDataWrite (s : State) (r : Requester) (site : Nat) (w : Word) : State :=
  let t := Fin.ofNat 4 (s.cfld site CFG_CORE_DBG_SEL_THREAD)
  if !dbgUser r then s.violation (dieOf site)
  else if !s.dbgReach site t then s.dbgErr site
  else s.dbgPut site t (s.cfld site CFG_CORE_DBG_SEL_ITEM) (s.cfld site CFG_CORE_DBG_SEL_WORD) w

/-- DEBUG_REG_ACCESS (R344). -/
def execDebugRegAccess (r : Requester) (site : Nat) (w : Option Word) (s : State) : Res :=
  done (match w with
    | none =>
      let (s, v) := s.dbgDataRead r site
      { s with rdData := leBytes 4 v }
    | some w => s.dbgDataWrite r site w)

end Sys2Proof.Machine
end

