-- ==== Sys2Proof/Machine/Dma.lean ====
section
/-! DEFINITION. What the core and bulk DMA channels do: starts, bursts, completion, errors, restarts, bulk rings and request lines
(R276, R280, R282, R310 to R324). -/

namespace Sys2Proof.Machine

-- starts and fetches

/-- Whether a channel stands still: its core is gated, or the ring's bulk channels are down with the execution domain (R429 to R431). -/
def State.chanGated (s : State) : ChanId → Bool
  | .core site _ => s.gated site
  | .bulk _ _ => s.execOff

/-- DMA_COMMAND_START (R311): an idle channel starts its next command. -/
def execDmaCommandStart (ch : ChanId) (s : State) : Res :=
  let k := s.chan ch
  done (
    if !s.chanOk ch || s.chanGated ch || k.run.isSome || k.halt then s
    else
      match k.queue with
      | [] => s
      | x :: rest =>
        s.setChan ch
          { k with
            run := some { x with started := s.now }
            queue := rest
            left := 0
            want := none
            err := none
            dead := false } |>.wantReq ch)

/-- Descriptors posted in a bulk channel's ring. -/
def State.posted (s : State) (d c : Nat) : Nat :=
  (s.fld d (BDMA_CH_TAIL_TAIL c) + 2 ^ 32 - s.fld d (BDMA_CH_HEAD_HEAD c)) % 2 ^ 32

/-- The address of descriptor n of a bulk ring (R324). -/
def State.descAddr (s : State) (d c n : Nat) : Nat :=
  s.rg64 (dkey d (BDMA_CH_RING_LO_ADDR c).off) + 64 * (n % 2 ^ s.fld d (BDMA_CH_CTL_LOG2 c))

/-- A halted channel's registers and event (R320). -/
def State.haltRegs (s : State) (ch : ChanId) (cause : Nat) (dir : Bool) (addr n : Nat) : State :=
  match ch with
  | .core site c =>
    let s := s.setCfld site (CDMA_STATUS_CAUSE c.val) cause
    let s := s.setCfld site (CDMA_STATUS_DIR c.val) (b2n dir)
    let s := s.setRg64 (ckey site (CDMA_ERR_ADDR_LO_ADDR c.val).off) addr
    let s := s.setCfld site (CDMA_DONE_COUNT c.val) n
    if s.cflag site (CDMA_STATUS_EVT c.val) then s
    else (s.setCfld site (CDMA_STATUS_EVT c.val) 1).raise (dieOf site) (208 + site % Config.sitesPerDie)
  | .bulk d c =>
    let s := s.setFld d (BDMA_CH_STATUS_CAUSE c) cause
    let s := s.setFld d (BDMA_CH_STATUS_DIR c) (b2n dir)
    let s := s.setRg64 (dkey d (BDMA_CH_ERR_ADDR_LO_ADDR c).off) addr
    let s := s.setFld d (BDMA_CH_DONE_COUNT c) n
    s.eventBit d BDMA_EVENT_HALT.off c

/-- A channel halted at once with a cause, before any of its command's bytes move. -/
def State.haltNow (s : State) (ch : ChanId) (cause addr : Nat) : State :=
  (s.modChan ch (fun k =>
    { k with
      halt := true
      err := none })).haltRegs ch cause false addr 0

/-- Whether a descriptor's bytes can be read at a local address of HBM. -/
def State.ringAt (s : State) (a : Nat) : Bool :=
  s.isLocal a &&
  match s.home (localOf a) with
  | .hbm _ => true
  | _ => false

/-- A descriptor read from HBM as a bulk command (R324). -/
def State.bulkCmd (s : State) (d c n id : Nat) : DmaCmd :=
  ⟨BitVec.ofNat 512 (s.le (localOf (s.descAddr d c n)) 64), n % 2 ^ s.fld d (BDMA_CH_CTL_LOG2 c), 0, s.fld d (BDMA_CH_CTL_CTX c), none, id,
   [], 0, [], none, none, s.now⟩

/-- Whether a channel's access to host memory crosses the mesh, to the PCI Express controller on die 0 (R21, R256). -/
def hostAcross (ch : ChanId) : Bool := chanDie ch != 0

/-- Whether a channel's read of an address crosses the mesh (R253, R256): of memory, of another die's registers, or of the host's memory from
another die than the controller's. -/
def State.readCrosses (s : State) (ch : ChanId) (a : Nat) : Bool :=
  s.isLocal a &&
  match s.home (localOf a), ch with
  | .pad site _, .core st _ => site != st
  | .pad _ _, _ => true
  | .hbm d, .bulk e _ => d != e
  | .hbm _, _ => true
  | .reg d _, .bulk e _ => d != e
  | .reg _ _, _ => true
  | .bcast _, _ => true
  | .unmapped, _ => false

/-- What the fetch of a descriptor at an address meets (R254, R264, R269, R324): the state with what the module records of it, and whether
the descriptor can be read. -/
def State.descRead (s : State) (die : Nat) (ch : ChanId) (a : Nat) (what : Arrival) : State × Bool :=
  if !s.ringAt a then
    (if s.isLocal a && s.home (localOf a) == .unmapped then s.unmappedAt die a else s, false)
  else
    match what with
    | .ok => (s, !s.poisoned (localOf a) 64)
    | .uncorrectable => (s.spoilt (localOf a) 64, false)
    | .parity => if s.readCrosses ch a then (s.meshParity die, false) else (s, !s.poisoned (localOf a) 64)
    | .busError => if s.readCrosses ch a then (s.meshTimedOut die a, false) else (s, !s.poisoned (localOf a) 64)
    | .accessError => (s, false)
    | .refused => (s, false)

/-- BDMA_DESCRIPTOR_FETCH (R313, R324): the descriptor at HEAD is fetched and checked. -/
def execBdmaDescriptorFetch (die : Nat) (c : Nat) (what : Arrival) (s : State) : Res :=
  let ch := ChanId.bulk die c
  let k := s.chan ch
  let n := s.fld die (BDMA_CH_HEAD_HEAD c)
  let a := s.descAddr die c n
  done (
    if !s.chanOk ch || s.chanGated ch || !s.flag die (BDMA_CH_CTL_EN c) || k.halt || k.run.isSome || !k.queue.isEmpty || s.posted die c == 0 then s
    else
      match s.descRead die ch a what with
      | (s, false) => s.haltNow ch 9 a
      | (s, true) =>
        let s := s.access none die a 64 false
        let (id, s) := s.newCmd
        let x := s.bulkCmd die c n id
        if s.checkRun x.ctx none (s.hostOk ch) (descOf x.desc) then s.modChan ch (fun k => { k with queue := [x] })
        else (s.modChan ch (fun k => { k with run := some x })).haltNow ch 1 a)

-- the byte stream

/-- What a read of a channel brings: bytes with the poison of each, or an error of R320, or nothing yet. -/
inductive ChRead where
  | bytes (l : List (Byte × Bool))
  | err (cause addr : Nat)
  | wait

/-- The most bytes of one granule from an address on. -/
def toGranule (a : Nat) : Nat := 64 - a % 64

/-- The most bytes one read at an address takes: it stays in its granule, and takes four of them over the fabric (R354). -/
def State.readRoom (s : State) (a : Nat) : Nat := if s.isLocal a then toGranule a else 256 - a % 64

/-- Whether a scratchpad refuses a channel's beat (R99, R229, R369). -/
def State.beatRefused (s : State) (g n : Nat) (write : Bool) : Bool :=
  match s.home (localOf g) with
  | .pad st off => s.padRefuses st off n write
  | _ => false

/-- Local bytes read by a channel (R316, R320): n bytes within one granule. -/
def State.chanRead (s : State) (ch : ChanId) (g n : Nat) : State × ChRead :=
  match s.home (localOf g) with
  | .unmapped => (s.unmappedAt (chanDie ch) g, .err 3 g)
  | .reg d _ =>
    let (s, v) := (s.carry (s.chanAct ch) d (chanDie ch) 4).readSpace (chanReq ch) (localOf g)
    (s, .bytes ((leBytes 4 v).map (fun b => (b, false))))
  | .bcast _ =>
    let (s, v) := s.readSpace (chanReq ch) (localOf g)
    (s, .bytes ((leBytes 4 v).map (fun b => (b, false))))
  | _ =>
    if s.beatRefused g n false then (s, .err 4 g)
    else
      let s := s.access (s.chanAct ch) (chanDie ch) g n false
      let psn := s.poisoned (localOf g) n
      (s, .bytes ((s.bytes (localOf g) n).map (fun b => (b, psn))))

/-- Whether a read of a channel is on its way over the fabric. -/
def State.fabReading (s : State) (ch : ChanId) : Bool := s.fabOut.any (fun f => f.owner == .dmaRead ch)

/-- The context of a channel's running command. -/
def State.chanCtx (s : State) (ch : ChanId) : Nat :=
  match (s.chan ch).run with
  | some r => r.ctx
  | none => 0

/-- A read sent over the fabric (R353). -/
def State.chanAsk (s : State) (ch : ChanId) (g n : Nat) : State × ChRead :=
  match s.fabRead (.dmaRead ch) (s.chanAct ch) (s.chanCtx ch) g n with
  | (s, .sent _) => (s, .wait)
  | (s, .ended st) => (if st = 1 then s.unmappedAt (chanDie ch) g else s, .err (if st = 1 then 3 else 5) g)

/-- The address that byte p of a command's stream comes from, given the element's index entry, and how many bytes follow in its
beat or granule (R316, R317). -/
def Desc.srcAt (x : Desc) (p entry : Nat) : Nat × Nat :=
  if x.gather then (x.src + entry * x.sw + p % x.sw, x.sw - p % x.sw)
  else if x.sfix then (x.src + p % x.sw, x.sw - p % x.sw)
  else (x.src + p, x.total - p)

/-- The next bytes of a command's source read, at most m of them (R316, R317). Host memory is reached through die 0 (R21). -/
def State.nextRead (s : State) (ch : ChanId) (r : DmaCmd) (m : Nat) : State × ChRead :=
  let x := descOf r.desc
  let p := r.done
  let go (s : State) (entry : Nat) : State × ChRead :=
    let (g, k) := x.srcAt p entry
    let n := min m (min k (if x.shost then toGranule g else s.readRoom g))
    if x.shost then
      (if s.linkUp then (s.carry r.act 0 (chanDie ch) n, .bytes ((s.hostBytes g n).map (fun b => (b, s.hostPoisoned g n)))) else (s, .err 5 g))
    else if x.gather && (!s.permitted r.ctx (g - p % x.sw) x.sw needR || (s.isRegSpace g && x.sw != 4)) then (s, .err 2 (g - p % x.sw))
    else if s.isLocal g then s.chanRead ch g n
    else s.chanAsk ch g n
  if x.gather then
    let a := x.idx + 4 * (p / x.sw)
    match r.idx with
    | some e => go s e
    | none =>
      if s.isLocal a then
        match s.chanRead ch a 4 with
        | (s, .bytes l) => if l.any Prod.snd then (s, .err 7 a) else go s (leNat (l.map Prod.fst))
        | (s, res) => (s, res)
      else s.chanAsk ch a 4
  else go s 0

/-- The address of a command's next read: of a gather, the element where its index entry is at hand, else the entry (R320). -/
def State.readAddr (s : State) (r : DmaCmd) : Nat :=
  let x := descOf r.desc
  let a := x.idx + 4 * (r.done / x.sw)
  if !x.gather then (x.srcAt r.done 0).1
  else
    match r.idx with
    | some e => (x.srcAt r.done e).1
    | none => if s.isLocal a then (x.srcAt r.done (s.le (localOf a) 4)).1 else a

/-- Whether a destination takes its beats one by one: a fixed address, or the register space. -/
def State.beatwise (s : State) (x : Desc) : Bool := x.dfix || (!x.dhost && s.isRegSpace x.dst)

/-- Destination address of byte p of the stream. -/
def Desc.dstAt (x : Desc) (p : Nat) : Nat := if x.dfix then x.dst + p % x.dw else x.dst + p

/-- Whether a command's last beat is a landing write (R280, R282, R312). -/
def Desc.lands (x : Desc) : Bool := x.land || x.orel

/-- One write of a command, from byte p of its stream (R275, R280, R282, R316): the last is the landing write where the flags ask
for one. -/
def State.chanWrite (s : State) (ch : ChanId) (r : DmaCmd) (p : Nat) (l : List (Byte × Bool)) : State :=
  let x := descOf r.desc
  let g := x.dstAt p
  let b := l.map Prod.fst
  let psn := l.any Prod.snd
  if x.dhost then (s.carry r.act (chanDie ch) 0 b.length).setHostBytes g b psn
  else
    let last := decide (p + l.length = x.total) && x.lands
    let beats := if x.dw < 64 then (List.range (l.length / x.dw)).map (fun i => (g + i * x.dw, x.dw)) else [(g, l.length)]
    let s := beats.foldl (fun s (a, n) => s.access r.act (chanDie ch) a n true) s
    let iss := match ch with
      | .core site _ => some (site, r.th)
      | .bulk _ _ => none
    s.send ⟨r.cmd, chanReq ch, r.ctx, s.spaceOf g, b, psn, last, if last then r.obs else [], none, x.orel, iss, p, false, r.act,
      decide (x.dw < 64)⟩

/-- Bytes of the next write of a command from byte p of its stream, where it has them all (R275, R312, R316): the beats that its
destination granule takes, together; a beat where beats go one by one, and the last beat apart where it is a landing write. -/
def State.writeLen (s : State) (x : Desc) (p : Nat) : Nat :=
  let room := if s.beatwise x then x.dw else min (toGranule (x.dstAt p)) (x.total - p)
  if x.lands && decide (p + room = x.total) && decide (x.dw < room) then room - x.dw else room

/-- The holding register drained (R316): each write as soon as its beats are there. Once an error is pending the beats that are there are
written, and the landing write is not (R320); a command that a cut ended writes nothing more (R322). Writes to host memory wait for Bus
Master Enable (R395). -/
def State.drainBuf (s : State) (ch : ChanId) : Nat → State
  | 0 => s
  | n + 1 =>
    let k := s.chan ch
    match k.run with
    | none => s
    | some r =>
      let x := descOf r.desc
      let p := r.done - r.buf.length
      let w := s.writeLen x p
      let m := if k.err.isSome then min w (r.buf.length / x.dw * x.dw) else if w ≤ r.buf.length then w else 0
      if m = 0 ∨ k.dead ∨ (k.err.isSome ∧ x.lands ∧ p + m = x.total) ∨ (x.dhost ∧ !s.pcie.bme) then s
      else
        let s := s.chanWrite ch r p (r.buf.take m)
        (s.modChan ch (fun k => k.modRun (fun r => { r with buf := r.buf.drop m }))).drainBuf ch n

/-- An error of a channel (R320): of several at one instant the lowest cause is kept, else the first. What is there is written. -/
def State.chanErr (s : State) (ch : ChanId) (cause : Nat) (dir : Bool) (addr : Nat) : State :=
  let e : ChanErr := ⟨cause, dir, addr, s.now⟩
  (s.modChan ch (fun k =>
    match k.err with
    | some f => if f.seen = s.now ∧ cause < f.cause then { k with err := some e } else k
    | none => { k with err := some e, want := none })).drainBuf ch 129

/-- Bytes that arrived for a channel, appended to its stream and drained. -/
def State.chanTake (s : State) (ch : ChanId) (l : List (Byte × Bool)) : State :=
  let s := s.modChan ch (fun k =>
    { k.modRun (fun r =>
        { r with
          done := r.done + l.length
          buf := r.buf ++ l
          idx := none }) with left := k.left - l.length })
  s.drainBuf ch 129

/-- Bytes of a burst moved: reads until the burst is over, an error, or a wait. -/
def State.moveBytes (s : State) (ch : ChanId) : Nat → State
  | 0 => s
  | n + 1 =>
    let k := s.chan ch
    match k.run with
    | none => s
    | some r =>
      let m := min k.left ((descOf r.desc).total - r.done)
      if m = 0 then s
      else
        match s.nextRead ch r m with
        | (s, .bytes l) => (s.chanTake ch l).moveBytes ch n
        | (s, .err c a) => s.chanErr ch c false a
        | (s, .wait) => s

-- pacing

/-- A channel's credit at this instant, in quarters of a byte (R318): it grows by RATE quarters a core clock up to twice the burst, and
starts full. -/
def State.creditNow (s : State) (k : Chan) (p : Pace) : Nat :=
  match k.credit with
  | none => 8 * p.burst
  | some n => min (8 * p.burst) (n + p.rate * s.cyclesIn (s.now - k.creditAt))

/-- A channel's credit written down under the configuration in force, before it changes (R318). -/
def State.settleCredit (s : State) (ch : ChanId) : State :=
  let n := s.creditNow (s.chan ch) (s.pace ch)
  s.modChan ch (fun k =>
    { k with
      credit := some n
      creditAt := s.now })

/-- A channel's configuration about to change: its credit is written down, and what it waits for is asked for anew under the new one, which
applies from the next burst (R318). -/
def State.repace (s : State) (ch : ChanId) : State := (s.settleCredit ch).modChan ch (fun k => { k with want := none })

/-- Whether a bulk channel waits on a request line: its next burst needs a request (R318). -/
def State.waitsLine (s : State) (d c l : Nat) : Bool :=
  s.needsReq (.bulk d c) && s.fld d (BDMA_CH_CTL_REQSEL c) == l

/-- Whether a bulk channel may take a request of a line: the lowest channel waiting on it goes first (R318). -/
def State.lineFree (s : State) (d c l : Nat) : Bool :=
  decide (0 < get 0 s.bdmaReq (d * 32 + l)) && (List.range c).all (fun e => !s.waitsLine d e l)

/-- The channel's pacing before a burst (R318): nothing is left of a burst where it must wait; a burst under way goes on. -/
def State.paceTake (s : State) (ch : ChanId) : State :=
  let p := s.pace ch
  if (s.chan ch).left ≠ 0 then s
  else
    match p.mode with
    | 1 =>
      match ch with
      | .core _ _ => s.wantReq ch
      | .bulk d c =>
        if s.lineFree d c p.req then
          { s with bdmaReq := put 0 s.bdmaReq (d * 32 + p.req) (get 0 s.bdmaReq (d * 32 + p.req) - 1) }.beginBurst ch
        else s
    | 2 =>
      let n := s.creditNow (s.chan ch) p
      if n < 4 * p.burst then s
      else (s.modChan ch (fun k =>
        { k with
          credit := some (n - 4 * p.burst)
          creditAt := s.now })).beginBurst ch
    | _ => s.beginBurst ch

/-- Whether a channel may move bytes: a command runs, unharmed, and no read of it is out (R320, R322); host addresses wait for Bus
Master Enable (R395). -/
def State.chanFree (s : State) (ch : ChanId) : Bool :=
  let k := s.chan ch
  match k.run with
  | none => false
  | some r =>
    s.chanOk ch && !s.chanGated ch && !k.halt && !k.dead && k.err.isNone && !s.fabReading ch && decide (r.done < (descOf r.desc).total) &&
    (s.pcie.bme || (!(descOf r.desc).shost && !(descOf r.desc).dhost))

/-- Whether a local address lies in a memory that a target's checks guard: a refusal and an error beyond correction can come from there. -/
def State.memoryAt (s : State) (a : Nat) : Bool :=
  s.isLocal a &&
  match s.home (localOf a) with
  | .hbm _ => true
  | .pad _ _ => true
  | _ => false

/-- What a read at an address, or the host's memory, meets as a channel makes it (R253, R254, R353): a mesh error only where a packet crosses
the mesh, a refusal only at a memory of this module, and nothing of the mesh where it goes to another node, whose time ALF_TIMEOUT keeps. The
host's memory may leave a read unanswered, or bring it with EP set. -/
def State.meets (s : State) (ch : ChanId) (x : Desc) (a : Nat) (what : Arrival) : Arrival :=
  match what with
  | .parity => if (if x.shost then hostAcross ch else s.readCrosses ch a) || (x.dhost && hostAcross ch) then .parity else .ok
  | .uncorrectable => if x.shost || s.memoryAt a then .uncorrectable else .ok
  | .busError => if x.shost || s.readCrosses ch a then .busError else .ok
  | .accessError => if !x.shost && s.memoryAt a then .accessError else .ok
  | w => w

/-- A burst whose first read brings its bytes poisoned: by a payload parity error on the mesh (R253), or by EP from the host (R389). -/
def State.moveSpoiled (s : State) (ch : ChanId) (n : Nat) : State :=
  match (s.chan ch).run with
  | none => s
  | some r =>
    let m := min (s.chan ch).left ((descOf r.desc).total - r.done)
    if m = 0 then s
    else
      match s.nextRead ch r m with
      | (s, .bytes l) => (s.chanTake ch (l.map (fun b => (b.1, true)))).moveBytes ch n
      | (s, .err c a) => s.chanErr ch c false a
      | (s, .wait) => s

/-- A burst unanswered (R254, R320): over the mesh the timeout is recorded; the host's memory read from die 0 crosses none. -/
def State.moveLost (s : State) (ch : ChanId) (x : Desc) (a : Nat) : State :=
  (if x.shost && !hostAcross ch then s else s.meshTimedOut (chanDie ch) a).chanErr ch 5 false a

/-- DMA_BURST (R316 to R318): a burst of a command's bytes moves once the pacing allows it. An unpaced command moves in bursts of the
same size, and one that is done asks for the next request. `what` is an unanswered read (CAUSE 5), one its target refused (CAUSE 4), one whose first
granule met a parity error on the mesh (R253) or is beyond correction (R269, R389), or a write that the host refused (CAUSE 5, R395). -/
def execDmaBurst (ch : ChanId) (what : Arrival) (s : State) : Res :=
  done (
    if !s.chanFree ch then s
    else
      match (s.chan ch).run with
      | none => s
      | some r =>
        let x := descOf r.desc
        let a := s.readAddr r
        let s := s.paceTake ch
        let n := (s.chan ch).left
        if n = 0 then s
        else
          let t := match s.meets ch x a what with
            | .ok => s.moveBytes ch n
            | .busError => s.moveLost ch x a
            | .accessError => s.chanErr ch 4 false a
            | .parity => (s.meshParity (chanDie ch)).moveSpoiled ch n
            | .uncorrectable => if x.shost then s.moveSpoiled ch n else (s.spoilt (localOf a) 1).moveBytes ch n
            | .refused => if x.dhost then s.chanErr ch 5 true (x.dstAt (r.done - r.buf.length)) else s.moveBytes ch n
          t.wantReq ch)

-- completion

/-- Writes of a command that have not landed. -/
def State.cmdWrites (s : State) (cmd : Nat) : List PWrite := s.inflight.filter (fun w => w.cmd == cmd)

/-- Channel number of a completion record (R319). -/
def chanByte : ChanId → Nat
  | .core _ c => c.val
  | .bulk _ c => 128 + c

/-- The completion record (R319): a write of its own that carries the issuer's observed set, which the thread that reads the record
consumes (R282). A command that did not pass R313's checks writes one only where the region table admits it. -/
def State.chanRecord (s : State) (ch : ChanId) (r : DmaCmd) (status n : Nat) (passed : Bool) : State :=
  let x := descOf r.desc
  if !x.crec || !(passed || s.rangeOk r.ctx (x.cpl, 16, true, 16, false) false) then s
  else
    let b := leBytes 4 x.tag ++ leBytes 1 status ++ leBytes 1 (chanByte ch) ++ leBytes 2 r.ticket ++ leBytes 4 n ++ leBytes 4 0
    let (id, s) := s.newCmd
    let s := s.access r.act (chanDie ch) x.cpl 16 true
    s.send ⟨id, chanReq ch, r.ctx, s.spaceOf x.cpl, b, false, false, setAdd r.obs r.cmd, none, false, none, 0, false, r.act, true⟩

/-- The completion cue (R288, R319), part of the act that issued the command (R310). One whose target fails R313's fifth check, as a command that
ends unchecked may have, or that names a core LOCAL to a bulk channel, signals nothing (R321; DEDUCED, log 55). -/
def State.chanCue (s : State) (ch : ChanId) (r : DmaCmd) : State :=
  let x := descOf r.desc
  let site := match ch with
    | .core site _ => some site
    | .bulk _ _ => none
  if !x.ccue || !s.cueTgtOk x || (site.isNone && (tgtOf x.cueTgt).isLocal) then s
  else s.cueSend site (chanDie ch) r.act x.cueTgt x.cue r.ctx 1 (setAdd r.obs r.cmd)

/-- The channel goes past its command: COMP.LAST or HEAD moves on (R319, R324). -/
def State.chanPast (s : State) (ch : ChanId) (ticket : Nat) : State :=
  match ch with
  | .core site c => s.setCfld site (CDMA_COMP_LAST c.val) ticket
  | .bulk d c => s.setFld d (BDMA_CH_HEAD_HEAD c) ((s.fld d (BDMA_CH_HEAD_HEAD c) + 1) % 2 ^ 32)

/-- DONE of a command: bytes of a copy or elements of a gather (R319, R320). -/
def DmaCmd.count (r : DmaCmd) (bytes : Nat) : Nat :=
  let x := descOf r.desc
  if x.gather then bytes / x.sw else bytes

/-- A command done (R276, R319). -/
def State.chanDone (s : State) (ch : ChanId) (r : DmaCmd) : State :=
  let x := descOf r.desc
  let s := s.modChan ch (fun k => { k with run := none })
  let s := s.chanRecord ch r 0 (r.count x.total) true
  let s := s.chanCue ch r
  let s := s.chanPast ch r.ticket
  match ch with
  | .bulk d c => if x.irq then s.eventBit d BDMA_EVENT_DONE.off (16 + c) else s
  | .core _ _ => s

/-- Whether a running command is done (R276, R311): every byte drained, its last write out of the channel, where a landing write is held
until it is performed or sent to its node (R280, R356), and with BAR every write landed. -/
def State.cmdFinished (s : State) (r : DmaCmd) : Bool :=
  let x := descOf r.desc
  r.done == x.total && r.buf.isEmpty && !(s.cmdWrites r.cmd).any (fun w => w.landing && w.tag.isNone) &&
  (!x.bar || (s.cmdWrites r.cmd).isEmpty)

/-- DMA_DONE (R319). A command that a budget cut ended leaves no record and no cue (R322). -/
def execDmaDone (ch : ChanId) (s : State) : Res :=
  let k := s.chan ch
  done (
    match k.run with
    | none => s
    | some r =>
      if k.halt || s.chanGated ch then s
      else if k.dead then
        (if (s.cmdWrites r.cmd).isEmpty && !s.fabReading ch then s.setChan ch { k with run := none, dead := false, err := none, left := 0 } else s)
      else if k.err.isNone && s.cmdFinished r then s.chanDone ch r else s)

-- errors

/-- Whether a channel holds whole beats for the host's memory that wait for Bus Master Enable (R395). -/
def State.hostOwed (s : State) (ch : ChanId) : Bool :=
  !s.pcie.bme &&
  match (s.chan ch).run with
  | some r => (descOf r.desc).dhost && decide ((descOf r.desc).dw ≤ r.buf.length)
  | none => false

/-- DMA_ERROR_HALT (R320): a landing write that has not left is not performed; when every other write has landed or been refused, and every beat
for the host's memory is written, the channel halts with its cause, address and DONE. -/
def execDmaErrorHalt (ch : ChanId) (s : State) : Res :=
  let k := s.chan ch
  done (
    match k.run, k.err with
    | some r, some e =>
      let drop := (s.cmdWrites r.cmd).filter (fun w => w.landing && w.tag.isNone)
      let s := { s with inflight := s.inflight.filter (fun w => !(w.cmd == r.cmd && w.landing && w.tag.isNone)) }
      let r := drop.foldl (fun (r : DmaCmd) w => { r with bad := some (min (r.bad.getD w.off) w.off) }) r
      let s := s.setChan ch { k with run := some r }
      if k.halt || k.dead || s.fabReading ch || !(s.cmdWrites r.cmd).isEmpty || s.hostOwed ch then s
      else
        let n := min (r.done - r.buf.length) (r.bad.getD r.done)
        (s.modChan ch (fun k =>
          { k with
            halt := true
            err := none })).haltRegs ch e.cause e.dir e.addr (r.count n)
    | _, _ => s)

/-- The address of a command's next beat. -/
def State.nextBeat (s : State) (r : DmaCmd) : Nat :=
  let x := descOf r.desc
  if r.done < x.total then s.readAddr r else x.dstAt (r.done - r.buf.length)

/-- DMA_TIMEOUT (R320): a command not done TO µs after its start. -/
def execDmaTimeout (ch : ChanId) (at_ : Nat) (s : State) : Res :=
  let s := s.tick at_
  let k := s.chan ch
  done (
    match k.run with
    | some r => if !k.halt && !k.dead && r.started + s.chanTo ch ≤ s.now then s.chanErr ch 6 false (s.nextBeat r) else s
    | none => s)

-- restarts

/-- DONE of a channel. -/
def State.doneReg (s : State) : ChanId → Nat
  | .core site c => s.cfld site (CDMA_DONE_COUNT c.val)
  | .bulk d c => s.fld d (BDMA_CH_DONE_COUNT c)

/-- DONE in bytes of a halted command. -/
def State.doneBytes (s : State) (ch : ChanId) (r : DmaCmd) : Nat :=
  let x := descOf r.desc
  if x.gather then s.doneReg ch * x.sw else s.doneReg ch

/-- A halted command run again from a byte of its stream (R321): it is the same command, in error no more. Checks that fail halt it again,
DONE as it was: CAUSE 1 on a bulk channel, 2 on a core's. A bulk channel halted on its fetch fetches again. -/
def State.rerun (s : State) (ch : ChanId) (start : State → DmaCmd → Nat) : State :=
  let k := s.chan ch
  if !k.halt then s
  else
    match k.run with
    | none => s.setChan ch { k with halt := false }
    | some r =>
      if !s.checkRun r.ctx (chanOwn ch r) (s.hostOk ch) (descOf r.desc) then
        s.haltRegs ch (if isBulk ch then 1 else 2) false (descOf r.desc).src (s.doneReg ch)
      else
        let x : DmaCmd :=
          { r with
            done := start s r
            buf := []
            idx := none
            bad := none
            started := s.now }
        { s with errCmds := s.errCmds.filter (fun c => c != r.cmd) }.setChan ch
          { k with
            run := some x
            left := 0
            want := none
            halt := false
            err := none } |>.wantReq ch

/-- DMA_RETRY (R321). Any requester may write RESTART, a B field. -/
def execDmaRetry (_r : Requester) (ch : ChanId) (s : State) : Res := done (s.rerun ch (fun _ _ => 0))

/-- DMA_RESUME (R321): from DONE. -/
def execDmaResume (_r : Requester) (ch : ChanId) (s : State) : Res := done (s.rerun ch (fun s r => s.doneBytes ch r))

/-- CAUSE of a halted channel. -/
def State.causeOf (s : State) : ChanId → Nat
  | .core site c => s.cfld site (CDMA_STATUS_CAUSE c.val)
  | .bulk d c => s.fld d (BDMA_CH_STATUS_CAUSE c)

/-- A halted command ended in error (R321). -/
def State.skip (s : State) (ch : ChanId) : State :=
  let k := s.chan ch
  if !k.halt then s
  else
    let s := s.setChan ch
      { k with
        run := none
        halt := false
        err := none }
    match k.run with
    | none => s.chanPast ch 0
    | some r =>
      let n := s.doneReg ch
      let s := { s with errCmds := setAdd s.errCmds r.cmd }
      ((s.chanRecord ch r (s.causeOf ch) n (s.causeOf ch != 1)).chanCue ch r).chanPast ch r.ticket

/-- DMA_SKIP (R321). -/
def execDmaSkip (_r : Requester) (ch : ChanId) (s : State) : Res := done (s.skip ch)

/-- A command ended unrun (R321); `passed` is whether it passed R313's checks when it was queued. -/
def State.unrun (s : State) (ch : ChanId) (r : DmaCmd) (passed : Bool) : State :=
  let s := { s with errCmds := setAdd s.errCmds r.cmd }
  ((s.chanRecord ch r 10 0 passed).chanCue ch r).chanPast ch r.ticket

/-- Descriptors left in a bulk ring ended unrun, n of them; one that reads as poison leaves no record and no cue. -/
def State.unrunRing (s : State) (d c : Nat) : Nat → State
  | 0 => s
  | n + 1 =>
    let h := s.fld d (BDMA_CH_HEAD_HEAD c)
    let a := s.descAddr d c h
    let ch := ChanId.bulk d c
    let s :=
      if s.ringAt a && !s.poisoned (localOf a) 64 then
        let (id, s) := s.newCmd
        s.unrun ch (s.bulkCmd d c h id) false
      else s.chanPast ch 0
    s.unrunRing d c n

/-- A halted channel flushed (R321): as skip, then every queued command ends unrun. -/
def State.flush (s : State) (ch : ChanId) : State :=
  if !(s.chan ch).halt then s
  else
    let s := s.skip ch
    let q := (s.chan ch).queue
    let s := s.modChan ch (fun k => { k with queue := [] })
    let s := q.foldl (fun s r => s.unrun ch r true) s
    match ch with
    | .bulk d c => s.unrunRing d c (s.posted d c)
    | .core _ _ => s

/-- DMA_FLUSH (R321). -/
def execDmaFlush (_r : Requester) (ch : ChanId) (s : State) : Res := done (s.flush ch)

/-- A write of ACTION to a channel's RESTART register (R321). -/
def State.restart (s : State) (ch : ChanId) (action : Nat) : State :=
  match action with
  | 0 => s.rerun ch (fun _ _ => 0)
  | 1 => s.rerun ch (fun s r => s.doneBytes ch r)
  | 2 => s.skip ch
  | _ => s.flush ch

-- bulk rings and request lines

/-- A doorbell write of a bulk channel (R324). -/
def State.bulkTail (s : State) (d c v : Nat) : State :=
  let n := (v + 2 ^ 32 - s.fld d (BDMA_CH_HEAD_HEAD c)) % 2 ^ 32
  if 2 ^ s.fld d (BDMA_CH_CTL_LOG2 c) < n then s.eventBit d BDMA_PTR_ERR_CHAN.off c
  else s.setFld d (BDMA_CH_TAIL_TAIL c) v

/-- BDMA_DOORBELL (R324). -/
def execBdmaDoorbell (r : Requester) (die : Nat) (c : Nat) (v : Word) (s : State) : Res :=
  done (s.asExpert r die (s.fld die (BDMA_CH_TAIL_TAIL c) != v.toNat) (fun s => s.bulkTail die c v.toNat))

/-- One request more on a line, saturating at 255 (R318). -/
def State.addReq (s : State) (d l : Nat) : State :=
  { s with bdmaReq := put 0 s.bdmaReq (d * 32 + l) (min 255 (get 0 s.bdmaReq (d * 32 + l) + 1)) }

/-- BDMA_REQ (R318). -/
def execBdmaReq (r : Requester) (die : Nat) (line : Nat) (s : State) : Res :=
  done (s.asExpert r die true (fun s => s.addReq die (line % 32)))

end Sys2Proof.Machine
end

