-- ==== Sys2Proof/Machine/Mesh.lean ====
section
/-! DEFINITION. The mesh, the HBM controllers and the program-memory copy (R254, R259, R260, R266, R269, R271), and the accesses of
the units of the I/O rings (R256). -/

namespace Sys2Proof.Machine

-- accesses of ring units

/-- Whether n bytes from a local address lie wholly within HBM (R262). -/
def hbmIn (a n : Nat) : Bool := decide (a + n ≤ 0x00A000000000)

/-- Whether n bytes from a local address lie wholly within one die's stack. -/
def stackIn (d a n : Nat) : Bool := decide (d * Config.stackBytes ≤ a) && decide (a + n ≤ (d + 1) * Config.stackBytes)

/-- What a ring unit's access to a range outside HBM leaves: that of an unmapped address where it is one (R264). -/
def State.ringMissed (s : State) (d a n : Nat) : State := if s.homeOf a n = .unmapped then s.unmappedAt d a else s

/-- Whether a ring unit's access to HBM crosses the mesh: its own die's stack it reaches directly (R256). -/
def ringAcross (d a : Nat) : Bool := a / Config.stackBytes != d

/-- Whether a ring unit's access goes unanswered (R254): one that stays in the ring does not. -/
def ringLost (d a : Nat) (what : Arrival) : Bool := what == .busError && ringAcross d a

/-- A payload parity error that a ring unit's access meets on the mesh (R253): the count, and whether its data is poisoned. -/
def State.ringParity (s : State) (d a : Nat) (what : Arrival) : State × Bool :=
  if what = .parity ∧ ringAcross d a then (s.meshParity d, true) else (s, false)

/-- Bytes read from HBM by a unit of a die's ring as the request fares on its way, with whether poison is among them; none where the range
leaves HBM, and where no answer comes (R253, R254, R256, R264, R268, R269). -/
def State.ringRead (s : State) (act : Option Nat) (d a n : Nat) (what : Arrival) : State × Option (List Byte × Bool) :=
  if !hbmIn a n then (s.ringMissed d a n, none)
  else if n = 0 then (s, some ([], false))
  else if ringLost d a what then (s.meshTimedOut d a, none)
  else
    let s := if what = .uncorrectable then s.spoilt a 1 else s
    let (s, hit) := s.ringParity d a what
    let s := s.access act d a n false
    (s, some (s.bytes a n, hit || s.poisoned a n))

/-- Bytes written to HBM by a unit of a die's ring as the write fares on its way (R253, R254, R256, R264, R268, R270); outside HBM nothing is
written. Whether one that went unanswered was performed is not stated, a free value (log 8). -/
def State.ringWrite (s : State) (act : Option Nat) (d a : Nat) (l : List Byte) (psn : Bool) (what : Arrival) : State :=
  if l.isEmpty then s
  else if !hbmIn a l.length then s.ringMissed d a l.length
  else
    let put (s : State) (p : Bool) : State := (s.access act d a l.length true).writeMem a l p
    if ringLost d a what then
      let (x, s) := (s.meshTimedOut d a).fresh
      if x % 2 = 1 then put s psn else s
    else
      let (s, hit) := s.ringParity d a what
      put s (psn || hit)

-- the HBM controller

/-- The stack read once (R269): what the module code found. -/
def State.stackRead (s : State) (d a : Nat) (ecc : EccOutcome) : State :=
  match ecc with
  | .clean => s.readGood a 1
  | .corrected => (s.readGood a 1).countFld d HBC_CE_CNT_COUNT 1
  | .uncorrectable => s.ueAt d a

/-- The merge entries of a die still open at a cycle (R259). -/
def State.openMerges (s : State) (d cycle : Nat) : List (Nat × Nat × Nat) :=
  s.merges.filter (fun m => m.1 == d && decide (cycle ≤ m.2.2 + 32))

/-- A read at a controller (R259, R260): it joins the entry of its line, or reads the stack and opens one if fewer than 64 are open.
The running count of reads that joined stands behind counter 14 of unit 5. -/
def State.hbmReadAt (s : State) (d a : Nat) (ecc : EccOutcome) (cycle : Nat) : State :=
  let es := s.openMerges d cycle
  let s := { s with merges := s.merges.filter (fun (m : Nat × Nat × Nat) => m.1 != d) ++ es }
  if !s.flag d MSH_CTRL_MERGE_EN then s.stackRead d a ecc
  else if es.any (fun m => m.2.1 == a / 64) then s.count 5 d 14 32 1
  else
    let s := if es.length < 64 then { s with merges := s.merges ++ [(d, a / 64, cycle)] } else s
    s.stackRead d a ecc

/-- HBM_READ (R259, R260, R269). The data itself is returned where its requester's own command takes it. -/
def execHbmRead (die addr : Nat) (ecc : EccOutcome) (cycle : Nat) (s : State) : Res :=
  done (if s.home addr = .hbm die then s.hbmReadAt die addr ecc cycle else s)

/-- STACK_HOT (R271). -/
def execStackHot (die : Nat) (hot : Bool) (s : State) : Res :=
  done (
    if 8 ≤ die then s
    else
      let was := s.flag die HBC_STATUS_HOT
      let s := s.setFld die HBC_STATUS_HOT (b2n hot)
      if hot && !was then s.event die HBC_EVENT_HOT else s)

-- the program-memory copy

/-- A unit of 64 syllables as an image's 128 bytes spell it; none where bits [15:14] of a syllable are not 0 (R266). -/
def unitSyls (b : List Byte) : Option (List (BitVec 14)) :=
  let l := (List.range 64).map (fun i => leNat ((b.drop (2 * i)).take 2))
  if l.all (fun n => decide (n < 2 ^ 14)) then some (l.map (BitVec.ofNat 14)) else none

/-- Syllables written from an index upward. -/
def putSyls (pm : SMap (BitVec 14)) (k : Nat) : List (BitVec 14) → SMap (BitVec 14)
  | [] => pm
  | x :: t => putSyls (put 0 pm k x) (k + 1) t

/-- A program image loaded into sites, n units from address a to unit u (R266): the result and the units copied. The copy stops at
the first unit that reads poison or faults, or that has non-zero bits [15:14]. `what` is what the first unit meets on its way (R253, R254). -/
def State.pmcIn (s : State) (d : Nat) (sites : List Nat) (a u copied : Nat) (what : Arrival) : Nat → State × Nat × Nat
  | 0 => (s, 0, copied)
  | n + 1 =>
    match s.ringRead none d a 128 what with
    | (s, none) => (s, 4, copied)
    | (s, some (b, psn)) =>
      if psn then (s, 4, copied)
      else
        match unitSyls b with
        | none => (s, 5, copied)
        | some l =>
          let s := sites.foldl (fun s st => s.modCore st (fun c => { c with pm := putSyls c.pm (64 * u) l })) s
          s.pmcIn d sites (a + 128) (u + 1) (copied + 1) .ok n

/-- A site's program memory saved to an image (R266); it stops with result 4 at a unit outside HBM, and at one that goes unanswered (R254). -/
def State.pmcOut (s : State) (d site a u copied : Nat) (what : Arrival) : Nat → State × Nat × Nat
  | 0 => (s, 0, copied)
  | n + 1 =>
    if hbmIn a 128 then
      let b := (List.range 64).flatMap (fun i => leBytes 2 (get 0 (s.core site).pm (64 * u + i)).toNat)
      let t := s.ringWrite none d a b false what
      if ringLost d a what then (t, 4, copied) else t.pmcOut d site (a + 128) (u + 1) (copied + 1) .ok n
    else (s.ringMissed d a 128, 4, copied)

/-- The targets of a copy: a site, or the good sites of a group on the die (R266). -/
def State.pmcTargets (s : State) (d : Nat) (grp : Bool) (target : Nat) : List Nat :=
  if grp then (dieSites d).filter (fun st => s.good st && bitOf (s.cfld st CFG_CORE_GROUP_GROUP) (target % 32))
  else if s.good target ∧ target / Config.sitesPerDie = d then [target]
  else []

/-- A copy run after its checks (R266): result and units copied. -/
def State.pmcRun (s : State) (d op : Nat) (grp : Bool) (target : Nat) (what : Arrival) : State × Nat × Nat :=
  let l := s.pmcTargets d grp target
  let units := s.fld d MSH_PMC_RANGE_UNITS
  let first := s.fld d MSH_PMC_RANGE_FIRST
  let a := localOf (s.rg64 (dkey d MSH_PMC_HBM_LO_ADDR.off))
  if !(l.all (fun st => threads.all (fun t => s.halted st t))) then (s, 1, 0)
  else if units = 0 ∨ 1024 < units ∨ 1024 < first + units ∨ (grp ∧ op = 2) then (s, 2, 0)
  else
    match l with
    | [] => (s, 3, 0)
    | st :: _ =>
      if !s.isLocal (s.rg64 (dkey d MSH_PMC_HBM_LO_ADDR.off)) then (s, 4, 0)
      else if op = 1 then s.pmcIn d l a first 0 what units
      else s.pmcOut d st a first 0 what units

/-- A write of MSH_PMC_CMD that starts a copy (R266). The copy is made at once; BUSY holds, and STATUS waits, until it completes
(DEDUCED, log 33). -/
def State.pmcStart (s : State) (r : Requester) (d op : Nat) (grp : Bool) (target : Nat) (what : Arrival) : State :=
  if !s.loader r || !s.expert r then s.violation d
  else if s.flag d MSH_PMC_CMD_BUSY ∨ 8 ≤ d then s
  else
    let s := s.setFld d MSH_PMC_CMD_GRP (b2n grp)
    let s := s.setFld d MSH_PMC_CMD_TARGET (target % 2048)
    if op ≠ 1 ∧ op ≠ 2 then s
    else
      let (s, res, n) := s.pmcRun d op grp (target % 2048) what
      let s := s.setFld d MSH_PMC_CMD_BUSY 1
      { s with copies := put (0, 0) s.copies d (res, n) }

/-- PMC_LOAD (R266). -/
def execPmcLoad (r : Requester) (die : Nat) (grp : Bool) (target : Meeting Nat) (s : State) : Res :=
  done (s.pmcStart r die 1 grp target.val target.what)

/-- PMC_SAVE (R266). -/
def execPmcSave (r : Requester) (die : Nat) (grp : Bool) (target : Meeting Nat) (s : State) : Res :=
  done (s.pmcStart r die 2 grp target.val target.what)

/-- PMC_COPY_COMPLETE (R266). -/
def execPmcCopyComplete (die : Nat) (s : State) : Res :=
  done (
    if s.flag die MSH_PMC_CMD_BUSY then
      let (res, n) := get (0, 0) s.copies die
      let s := s.setFld die MSH_PMC_CMD_BUSY 0
      let s := s.setFld die MSH_PMC_STATUS_RESULT res
      let s := s.setFld die MSH_PMC_STATUS_DONE n
      { s with copies := put (0, 0) s.copies die (0, 0) }
    else s)

end Sys2Proof.Machine
end

