-- ==== Sys2Proof/Machine/Ledger.lean ====
section
/-! DEFINITION. The ledger units: granules, totals and padding, enabling and draining (R381 to R385). -/

namespace Sys2Proof.Machine

/-- The act number under which State.numTot keeps the update engine's own totals (R209). -/
def engineAct : Nat := 4096

/-- A TOTALS record of a frame (R382). -/
def lgrTotals (frame act sat flush nan : Nat) : Nat :=
  0xF <<< 27 + b2n (decide (act = engineAct)) <<< 24 + (act % 4096) <<< 12 + frame % 4096 +
  sat <<< 32 + flush <<< 64 + nan <<< 96

/-- A PAD record (R382). -/
def lgrPadRec : Nat := 0xE <<< 27

/-- Records of a die collected and not yet landed. -/
def State.lgrWaiting (s : State) (d : Nat) : List (BitVec 128) := (s.lgrBuf.filter (fun p => p.1 == d)).map Prod.snd

/-- n entries of a die taken from the front of the ledger unit's collection. -/
def dropOf (d : Nat) : Nat → List (Nat × BitVec 128) → List (Nat × BitVec 128)
  | 0, l => l
  | _ + 1, [] => []
  | n + 1, (e, x) :: t => if e = d then dropOf d n t else (e, x) :: dropOf d (n + 1) t

/-- The frame mark reached (LGR_MARK, LGR_EVENT.FRAME): the records of a frame have landed. -/
def State.lgrMarkReached (s : State) (d : Nat) : State :=
  match look s.lgrMark d with
  | none => s
  | some m =>
    if s.fld d LGR_TAIL_TAIL = m - 1 then
      ({ s with lgrMark := removeAt s.lgrMark d }.setFld d LGR_MARK_TAIL (m - 1)).event d LGR_EVENT_FRAME
    else s

/-- A whole granule of four records written to the ring and LGR_TAIL advanced (R381). -/
def State.lgrLand (s : State) (d : Nat) : State :=
  match s.lgrWaiting d with
  | a :: b :: c :: e :: _ =>
    let tail := s.fld d LGR_TAIL_TAIL
    let at_ := s.rg64 (dkey d LGR_BASE_LO_ADDR.off) + 16 * (tail % 2 ^ s.fld d LGR_CTRL_LOG2)
    let s := s.ringWrite none d at_ ([a, b, c, e].flatMap (fun (x : BitVec 128) => leBytes 16 x.toNat)) false .ok
    let s := { s with lgrBuf := dropOf d 4 s.lgrBuf }
    (s.setFld d LGR_TAIL_TAIL ((tail + 4) % 2 ^ 32)).lgrMarkReached d
  | _ => s

/-- Every granule of a die landed. -/
def State.lgrLandAll (s : State) (d : Nat) : Nat → State
  | 0 => s
  | n + 1 => (s.lgrLand d).lgrLandAll d n

/-- LEDGER_GRANULE_LAND (R381). -/
def execLedgerGranuleLand (die : Nat) (s : State) : Res := done (s.lgrLand die)

/-- A partial granule completed with PAD records (R381). -/
def State.lgrPad (s : State) (d : Nat) : Nat → State
  | 0 => s
  | n + 1 => if get 0 s.lgrSerial d % 4 = 0 then s else (s.lgrPush d lgrPadRec).lgrPad d n

/-- Whether a die's ledger owes no record any more (R385): no step without an outcome, no delivery still due. -/
def State.lgrSettled (s : State) (d : Nat) : Bool :=
  !(s.steps.any (fun st => streamDie st.stream == d)) && !(s.deliveries.any (fun v => streamDie v.stream == d))

/-- A die's ledger at a curtain (R381, R385): the ended frame's TOTALS, the padding, the mark, and the end of a drain. -/
def State.lgrCurtain (s : State) (d : Nat) : State :=
  let s := (s.numTot.filter (fun t => t.1 == d)).foldl (fun s (_, act, sat, fl, nan) =>
    s.lgrPush d (lgrTotals s.frame act sat fl nan)) s
  let s := s.lgrPad d 3
  let s :=
    if s.flag d LGR_CTRL_EN then { s with lgrMark := insertAt s.lgrMark d (get 0 s.lgrSerial d + 1) }.lgrMarkReached d else s
  if s.lgrOwing.contains d && s.lgrSettled d then
    let s := s.lgrLandAll d (s.lgrWaiting d).length
    { s with lgrOwing := setDel s.lgrOwing d }.setFld d LGR_CTRL_EN 0
  else s

/-- A write of 1 to LGR_CTRL.EN (R381): ignored unless the ring lies wholly within the die's stack. Written while a drain runs it
ends the drain (DEDUCED, log 34). -/
def State.lgrEnable (s : State) (d : Nat) : State :=
  if s.flag d LGR_CTRL_EN then { s with lgrOwing := setDel s.lgrOwing d }
  else if stackIn d (s.rg64 (dkey d LGR_BASE_LO_ADDR.off)) (16 * 2 ^ s.fld d LGR_CTRL_LOG2) then s.setFld d LGR_CTRL_EN 1
  else s

/-- A write of 0 to LGR_CTRL.EN (R385): it reads 1 until the records owed have been written. -/
def State.lgrDisable (s : State) (d : Nat) : State :=
  if s.flag d LGR_CTRL_EN then { s with lgrOwing := setAdd s.lgrOwing d } else s

/-- LEDGER_ENABLE (R381). Any requester may write EN, a B field. -/
def execLedgerEnable (_r : Requester) (die : Nat) (s : State) : Res := done (if die < 8 then s.lgrEnable die else s)

/-- LEDGER_DISABLE (R385). -/
def execLedgerDisable (_r : Requester) (die : Nat) (s : State) : Res := done (if die < 8 then s.lgrDisable die else s)

end Sys2Proof.Machine
end

