-- ==== Sys2Proof/Machine/Intake.lean ====
section
/-! DEFINITION. The intake units: rings and doorbells, the intake record, the checks and filing of samples, triggers, and what a
close and a curtain do to them (R67 to R78). -/

namespace Sys2Proof.Machine

-- sample blocks

/-- Address of channel c's block of set h of a stream (R62, R75). -/
def State.blockAddr (s : State) (x h c : Nat) : Nat :=
  s.ent x eBufAddr + 256 + (h * s.channels x + c) * 64

/-- The set and slot of a stream's newest sample (R75). -/
def State.newest (s : State) (x : Nat) : Nat × Nat :=
  let f := s.ent x eBufFill
  let h := s.ent x eBufHead
  let n := s.ent x eBufSets
  if f = 0 then ((h + n - 1) % n, 15) else (h, f - 1)

/-- A channel's newest filed value; 0.0 before the first sample (R73, R75). -/
def State.lastValue (s : State) (x c : Nat) : Val :=
  if s.ent x eSeen = 0 then .fin false 0 0
  else
    let (h, i) := s.newest x
    let a := s.blockAddr x h c
    sbf16Value (s.le (a + 2 * i) 2) (s.le (a + 0x20) 1)

/-- Bytes of a unit's own writes put in place of a block's (R270). -/
def State.putLe (s : State) (a n v : Nat) : State := s.writeMem a (leBytes n v) false

/-- One channel of a sample written into its open block (R75): a fresh block carries the newest real sample's SEQL and SRCL on. A
partial write is charged 128 bytes (R78). -/
def State.fileChannel (s : State) (x c : Nat) (v : Val) (mark gap syn : Bool) (real : Option (Nat × Nat)) : State :=
  let i := s.ent x eBufFill
  let a := s.blockAddr x (s.ent x eBufHead) c
  let s := s.access none (streamDie x) a 2 true
  let (ph, _) := s.newest x
  let prev := s.blockAddr x ph c
  let seen := s.ent x eSeen == 1
  let old (off n : Nat) : Nat := if i = 0 then 0 else s.le (a + off) n
  let keep (off n : Nat) : Nat := if i = 0 then (if seen then s.le (prev + off) n else 0) else s.le (a + off) n
  let exp := if i = 0 then s.ent x eScale else s.le (a + 0x20) 1
  let m := (toSBF16 exp .nearest 0 v).1
  let seql := match real with | some (q, _) => q | none => keep 0x28 4
  let srcl := match real with | some (_, t) => t | none => keep 0x30 8
  let marks := setBits (old 0x22 2) i 1 (b2n mark)
  let gaps := setBits (old 0x24 2) i 1 (b2n gap)
  let syns := setBits (old 0x26 2) i 1 (b2n syn)
  let s := s.putLe (a + 2 * i) 2 m
  let b := leBytes 1 exp ++ leBytes 1 (i + 1) ++ leBytes 2 marks ++ leBytes 2 gaps ++ leBytes 2 syns ++ leBytes 4 seql ++
    leBytes 4 0 ++ leBytes 8 srcl ++ leBytes 8 s.now
  s.writeMem (a + 0x20) b false

/-- ITK_USED grows by a charge (R78). -/
def State.itkCharge (s : State) (d n : Nat) : State := s.setFld d ITK_USED_BYTES (satAdd 32 (s.fld d ITK_USED_BYTES) n)

/-- A trigger that a filed sample arms on an active stream (R76). -/
def State.sampleTrigger (s : State) (x : Nat) : State :=
  let m := s.trigMode x
  if s.ent x eLife = 1 ∧ (m = 1 ∨ (m = 2 ∧ s.ent x eTrigN ≤ s.ent x eSampNew)) then s.armTrigger x s.now else s

/-- The channels of a sample filed one after another. -/
def State.fileChannels (s : State) (x c : Nat) (gap syn : Bool) (real : Option (Nat × Nat)) : List (Val × Bool) → State
  | [] => s
  | (v, mark) :: t => (s.fileChannel x c v mark gap syn real).fileChannels x (c + 1) gap syn real t

/-- A sample filed (R75, R76): values with their marks; `real` is its SEQ and SRC_TIME, none for a synthetic one. -/
def State.fileSample (s : State) (x : Nat) (vs : List (Val × Bool)) (real : Option (Nat × Nat)) : State :=
  let d := streamDie x
  let gap := s.gapPend.contains x
  let s := s.fileChannels x 0 gap real.isNone real vs
  let s := { s with gapPend := setDel s.gapPend x }
  let f := s.ent x eBufFill + 1
  let s := if f = 16 then (s.setEnt x eBufFill 0).setEnt x eBufHead ((s.ent x eBufHead + 1) % s.ent x eBufSets) else s.setEnt x eBufFill f
  let s := s.setEnt x eSampNew (satAdd 16 (s.ent x eSampNew) 1)
  let s := if real.isSome then (s.setEnt x eSilent 0).setEnt x eStale 0 else s
  let s := s.setEnt x eSeen 1
  let s := (s.itkCharge d (128 * vs.length)).count 0 d 0 32 1
  s.sampleTrigger x

-- the checks of a sample

/-- What a check makes of a sample: its values with marks, or a drop. -/
abbrev Checked := Option (List (Val × Bool))

/-- One channel out of range under RANGE_POL 1 to 3 (R73). -/
def rangeFix (pol : Nat) (lo hi last v : Val) : Val × Bool :=
  if pol = 2 ∨ v.isNan then (last, true)
  else (if v.lt lo then lo else hi, pol == 3)

/-- Whether a value is out of range (R73). -/
def outOfRange (lo hi v : Val) : Bool := v.isNan || v.lt lo || hi.lt v

/-- The range check (R73). -/
def State.rangeCheck (s : State) (x : Nat) (vs : List Val) : Checked :=
  let lo := value 1 (s.ent x eLo)
  let hi := value 1 (s.ent x eHi)
  let pol := s.ent x eRangePol
  if pol = 0 ∧ vs.any (outOfRange lo hi) then none
  else some ((vs.zip (List.range vs.length)).map (fun (v, c) =>
    if outOfRange lo hi v then rangeFix pol lo hi (s.lastValue x c) v else (v, false)))

/-- Whether a change breaks RATE_MAX, taken exactly (R74). -/
def tooFast (rate p v : Val) : Bool :=
  match v.add false p.neg with
  | .fin _ m e => rate.lt (.fin false m e)
  | _ => true

/-- One channel that breaks RATE_MAX under RATE_POL 1 to 3 (R74). -/
def rateFix (pol : Nat) (rate p v : Val) (mark : Bool) : Val × Bool :=
  if pol = 2 then (p, true)
  else
    let r := if v.lt p then p.add false rate.neg else p.add false rate
    (value 1 (deliver 1 .nearest false 0 r).1, mark || pol == 3)

/-- The rate check (R74): not made on a stream's first sample. -/
def State.rateCheck (s : State) (x : Nat) (vs : List (Val × Bool)) : Checked :=
  if s.ent x eSeen = 0 then some vs
  else
    let rate := value 1 (s.ent x eRateMax)
    let pol := s.ent x eRatePol
    let bad (q : (Val × Bool) × Nat) : Bool := tooFast rate (s.lastValue x q.2) q.1.1
    let l := vs.zip (List.range vs.length)
    if pol = 0 ∧ l.any bad then none
    else some (l.map (fun q => if bad q then rateFix pol rate (s.lastValue x q.2) q.1.1 q.1.2 else q.1))

/-- A sample whose turn has come checked and filed (R73 to R75): its record's SEQ, SRC_TIME and channel patterns. -/
def State.checkSample (s : State) (x seq src : Nat) (vals : List Nat) : State :=
  let d := streamDie x
  let vs := (vals.take (s.channels x)).map (value 1)
  match s.rangeCheck x vs with
  | none => s.count 0 d 4 32 1
  | some vs =>
    match s.rateCheck x vs with
    | none => s.count 0 d 5 32 1
    | some vs => s.fileSample x vs (some (seq, src))

-- sequence numbers

/-- A field of a record's bytes. -/
def recLe (b : List Byte) (off n : Nat) : Nat := leNat ((b.drop off).take n)

/-- The channel patterns of a sample record (R69). -/
def recVals (b : List Byte) : List Nat := [recLe b 0x10 4, recLe b 0x14 4, recLe b 0x18 4, recLe b 0x1C 4]

/-- Address of a slot of a stream's reorder area (R71). -/
def State.heldAddr (s : State) (x seq : Nat) : Nat := s.ent x eBufAddr + 32 * (seq % 8)

/-- NEXT_SEQ advanced by one: HELD_MASK shifts, and whether its record is now due (R71). -/
def State.seqStep (s : State) (x : Nat) : State × Bool :=
  let m := s.ent x eHeldMask
  let s := s.setEnt x eNextSeq ((s.ent x eNextSeq + 1) % 2 ^ 32)
  let s := s.setEnt x eHeldMask (m / 2)
  (if m / 2 = 0 then { s.setEnt x eHoldAge 0 with postponed := setDel s.postponed x } else s, m % 2 == 1)

/-- Records that an advance releases, one after another (R71). -/
def State.releaseRun (s : State) (x : Nat) (due : Bool) : Nat → State
  | 0 => s
  | n + 1 =>
    if due then
      let seq := s.ent x eNextSeq
      let b := s.bytes (s.heldAddr x seq) 32
      let s := s.access none (streamDie x) (s.heldAddr x seq) 32 false
      let s := s.checkSample x seq (recLe b 8 8) (recVals b)
      let (s, due) := s.seqStep x
      s.releaseRun x due n
    else s

/-- One number passed, and the records it releases. -/
def State.seqPass (s : State) (x : Nat) : State :=
  let (s, due) := s.seqStep x
  s.releaseRun x due 9

/-- Numbers that no record carried counted, the next sample filed marked (R71). -/
def State.skipped (s : State) (x n : Nat) : State :=
  if n = 0 then s else { s with gapPend := setAdd s.gapPend x }.count 0 (streamDie x) 3 32 n

/-- Numbers from a to b, modulo 2^32, as a signed distance. -/
def seqDist (a b : Nat) : Int := sgn 32 (b + 2 ^ 32 - a % 2 ^ 32)

/-- NEXT_SEQ advanced to a number or past it over numbers that no record carried (R71, R72). -/
def State.seqAdvance (s : State) (x goal : Nat) : Nat → State
  | 0 => s
  | n + 1 =>
    let k := seqDist (s.ent x eNextSeq) goal
    if k ≤ 0 then s
    else if s.ent x eHeldMask = 0 then (s.skipped x k.toNat).setEnt x eNextSeq (goal % 2 ^ 32)
    else ((s.skipped x 1).seqPass x).seqAdvance x goal n

/-- A record filed in its turn or held (R71): d is at most 8. -/
def State.seqTake (s : State) (x : Nat) (b : List Byte) : State :=
  let d := streamDie x
  let seq := recLe b 4 4
  let k := seqDist (s.ent x eNextSeq) seq
  if k = 0 then (s.checkSample x seq (recLe b 8 8) (recVals b)).seqPass x
  else if k < 0 ∨ bitOf (s.ent x eHeldMask) (k.toNat - 1) then s.count 0 d 2 32 1
  else
    let a := s.heldAddr x seq
    let s := (s.access none d a 32 true).writeMem a (b.take 32) false
    let s := s.setEnt x eHeldMask (setBits (s.ent x eHeldMask) (k.toNat - 1) 1 1)
    (s.itkCharge d 64).count 0 d 1 32 1

/-- A sample record of a live stream (R71): a gap first advances NEXT_SEQ to SEQ - 8. -/
def State.takeSample (s : State) (x : Nat) (b : List Byte) : State :=
  let seq := recLe b 4 4
  let s := if 8 < seqDist (s.ent x eNextSeq) seq then s.seqAdvance x ((seq + 2 ^ 32 - 8) % 2 ^ 32) 10 else s
  s.seqTake x b

-- records

/-- Whether a record is malformed (R70). -/
def malformed (b : List Byte) : Bool :=
  let w := recLe b 0 4
  let kind := w / 2 ^ 28
  (kind != 1 && kind != 2) || bitsOf w 18 10 != 0 ||
  (kind == 2 && (recLe b 4 4 / 8 != 0 || recLe b 0x18 8 != 0))

/-- A well-formed record processed by its home unit (R70 to R76) for the context of its ring. -/
def State.itkProcess (s : State) (b : List Byte) (ctx : Nat) : State :=
  let w := recLe b 0 4
  let x := bitsOf w 0 18
  let d := streamDie x
  let life := s.ent x eLife
  if life ≠ 0 ∧ s.ent x eCtx ≠ ctx then (s.count 0 d 7 32 1).event d ITK_EVENT_FOREIGN
  else if w / 2 ^ 28 = 2 then
    (s.present_ ⟨x, none, none, some (recLe b 4 4 % 8, s.now, recLe b 8 8, recLe b 0x10 8)⟩).count 0 d 10 32 1
  else if life = 0 then s.count 0 d 9 32 1
  else s.takeSample x b

/-- Whether what was done from s to t stays within a die's allowance (R78). -/
def State.itkFits (s t : State) (d : Nat) : Bool :=
  t.fld d ITK_USED_BYTES == s.fld d ITK_USED_BYTES || decide (t.fld d ITK_USED_BYTES ≤ s.fld d ITK_HBM_CAP_CAP)

/-- Where a record comes from that no ring holds: forwarded (R67). -/
def fromForward : Nat := 8

/-- A die's fetching stopped until the next curtain by a record of a ring, or by a forwarded one (R78). -/
def State.itkPause (s : State) (d src : Nat) : State :=
  { (s.event d ITK_EVENT_CAP).count 0 d 13 32 1 with
    itkStop := setAdd s.itkStop d
    itkNext := s.itkNext.filter (fun p => p.1 != d) ++ [(d, src)] }

/-- The record that stopped a die's fetching has been taken (R78). -/
def State.itkResumed (s : State) (d : Nat) : State := { s with itkNext := s.itkNext.filter (fun p => p.1 != d) }

/-- Whether a record from a source may be taken at a die: fetching is not stopped, and begins again with the record that stopped it
(R78), unless its ring has been disabled since. -/
def State.itkMay (s : State) (d src : Nat) : Bool :=
  !s.itkStop.contains d &&
  s.itkNext.all (fun p => p.1 != d || p.2 == src || (p.2 != fromForward && !s.flag d (ITK_RING_CTL_EN p.2)))

/-- A record from a source tried against the allowance (R78): the state after it, or none and the die's fetching stopped. -/
def State.itkTry (s : State) (d src : Nat) (b : List Byte) (ctx : Nat) : State × Bool :=
  let t := s.itkProcess b ctx
  if s.itkFits t d then (t.itkResumed d, true) else (s.itkPause d src, false)

/-- Records posted in an intake ring. -/
def State.itkPosted (s : State) (d k : Nat) : Nat :=
  (s.fld d (ITK_RING_TAIL_TAIL k) + 2 ^ 32 - s.fld d (ITK_RING_HEAD_HEAD k)) % 2 ^ 32

/-- HEAD past one record (R67). -/
def State.itkPast (s : State) (d k : Nat) : State :=
  s.setFld d (ITK_RING_HEAD_HEAD k) ((s.fld d (ITK_RING_HEAD_HEAD k) + 1) % 2 ^ 32)

/-- A ring whose fetch failed (R67). -/
def State.itkRingErr (s : State) (d k : Nat) : State :=
  ((s.setFld d (ITK_RING_CTL_EN k) 0).setFld d ITK_ERR_RING_RING k).event d ITK_EVENT_RING_ERR

/-- The home die of a record's stream. -/
def recHome (b : List Byte) : Nat := streamDie (bitsOf (recLe b 0 4) 0 18)

/-- Whether a die's hold of forwarded records is full (R67). -/
def State.fwdFull (s : State) (h : Nat) : Bool := decide (1024 ≤ (s.fwd.filter (fun p => p.1 == h)).length)

/-- The record of a ring that a unit keeps because its home die's hold was full (R67). -/
def State.kept (s : State) (d k : Nat) : Option Fwd := (s.itkKept.find? (fun p => p.1 == d * 8 + k)).map Prod.snd

/-- Whether a die's unit may fetch from a ring, or go on with the record it keeps of it (R67, R78, R395). -/
def State.itkReady (s : State) (d k : Nat) : Bool :=
  decide (d < 8) && decide (k < 8) && s.flag d ITK_CTRL_EN && s.flag d (ITK_RING_CTL_EN k) && s.itkMay d k &&
  match s.kept d k with
  | some f => !s.fwdFull (recHome f.bytes)
  | none => s.pcie.bme && s.itkPosted d k != 0

/-- Whether it is a ring's turn (R67): no ready ring stands before it from the one whose turn comes next. The first turn after reset is
ring 0's (DESIGN CHOICE, log 48). -/
def State.itkHasTurn (s : State) (d k : Nat) : Bool :=
  let n := get 0 s.itkTurn d
  (List.range ((k + 8 - n) % 8)).all (fun i => !s.itkReady d ((n + i) % 8))

/-- A ring served: the turn goes to the next. -/
def State.itkServed (s : State) (d k : Nat) : State := { s with itkTurn := put 0 s.itkTurn d ((k + 1) % 8) }

/-- A well-formed record of a ring sent to its home die (R67, R257). Where the hold there is full the unit keeps it; HEAD goes past it when
it is sent (DESIGN CHOICE, log 48). -/
def State.itkForward (s : State) (d k : Nat) (f : Fwd) : State :=
  let h := recHome f.bytes
  let s := { s with itkKept := s.itkKept.filter (fun p => p.1 != d * 8 + k) }
  if s.fwdFull h then { s with itkKept := s.itkKept ++ [(d * 8 + k, f)] }
  else (({ s with fwd := s.fwd ++ [(h, f)] }.carry none d h 32).count 0 d 12 32 1).itkPast d k

/-- Whether a ring's record has to wait for a forwarded one, which came before it to this die, its home (R67). -/
def State.itkBehind (s : State) (d k : Nat) (b : List Byte) : Bool :=
  !malformed b && recHome b == d && s.fwd.any (fun p => p.1 == d) && !s.itkNext.contains (d, k)

/-- A record fetched from a ring (R67): discarded where malformed, forwarded to its home die, or processed. -/
def State.itkTake (s : State) (d k : Nat) (b : List Byte) : State :=
  let ctx := s.fld d (ITK_RING_CTL_CTX k)
  if malformed b then ((s.count 0 d 8 32 1).event d ITK_EVENT_MALFORMED).itkPast d k
  else if recHome b ≠ d then s.itkForward d k ⟨b, ctx, d⟩
  else
    match s.itkTry d k b ctx with
    | (s, true) => s.itkPast d k
    | (s, false) => s

/-- The host address of the record at a ring's HEAD. -/
def State.itkAddr (s : State) (d k : Nat) : Nat :=
  s.rg64 (dkey d (ITK_RING_BASE_LO_ADDR k).off) + 32 * (s.fld d (ITK_RING_HEAD_HEAD k) % 2 ^ s.fld d (ITK_RING_CTL_LOG2 k))

/-- The read of a record ended in error (R67, R253, R254): what the mesh reports, and the ring's error. A record that arrives poisoned is
not used (DEDUCED, log 48). -/
def State.itkReadErr (s : State) (d k : Nat) (what : Arrival) : State :=
  let s := match what with
    | .parity => s.meshParity d
    | .busError => s.meshTimedOut d (s.itkAddr d k)
    | _ => s
  s.itkRingErr d k

/-- INTAKE_FETCH (R21, R67, R70 to R78, R256): a unit takes the next record of the ring whose turn it is, through die 0. The ring keeps its
turn while its record waits for a forwarded one. -/
def execIntakeFetch (die : Nat) (ring : Nat) (at_ : Nat) (what : Arrival) (s : State) : Res :=
  let s := s.tick at_
  done (
    if !s.itkReady die ring || !s.itkHasTurn die ring then s
    else
      match s.kept die ring with
      | some f => (s.itkForward die ring f).itkServed die ring
      | none =>
        if what ≠ .ok then (s.itkReadErr die ring what).itkServed die ring
        else if !s.linkUp then s
        else
          let b := s.hostBytes (s.itkAddr die ring) 32
          if s.itkBehind die ring b then s else ((s.carry none 0 die 32).itkTake die ring b).itkServed die ring)

/-- The first entry of a list kept by die, and the list without it. -/
def takeOf {α : Type} (d : Nat) : List (Nat × α) → Option (α × List (Nat × α))
  | [] => none
  | (e, x) :: t =>
    if e = d then some (x, t)
    else
      match takeOf d t with
      | some (y, u) => some (y, (e, x) :: u)
      | none => none

/-- The address that a forwarded record that met no answer is latched under: the home unit's registers (DESIGN CHOICE, log 48). -/
def itkWindow (h : Nat) : Nat := 0x020000040000 + h * 0x4000000

/-- FORWARDED_RECORD (R67, R78): the home unit takes the oldest record forwarded to it. One whose payload met a parity error on the way is
not used (R253), and one that was lost on the way leaves the fetching unit's timeout (R254; DEDUCED, log 48). -/
def execForwardedRecord (die : Nat) (x : Meeting Nat) (s : State) : Res :=
  let s := s.tick x.val
  done (
    if !s.itkMay die fromForward then s
    else
      match takeOf die s.fwd with
      | none => s
      | some (f, rest) =>
        match x.what with
        | .parity => ({ s with fwd := rest }.meshParity die).itkResumed die
        | .busError => ({ s with fwd := rest }.meshTimedOut f.src (itkWindow die)).itkResumed die
        | _ =>
          match s.itkTry die fromForward f.bytes f.ctx with
          | (s, true) => { s with fwd := rest }
          | (s, false) => s)

/-- A doorbell written (R68). -/
def State.itkTail (s : State) (d k v : Nat) : State :=
  let n := (v + 2 ^ 32 - s.fld d (ITK_RING_HEAD_HEAD k)) % 2 ^ 32
  if 2 ^ s.fld d (ITK_RING_CTL_LOG2 k) < n then (s.setFld d ITK_ERR_RING_RING k).event d ITK_EVENT_PTR_ERR
  else s.setFld d (ITK_RING_TAIL_TAIL k) v

/-- INTAKE_DOORBELL (R68). Any requester may write TAIL, a B field. -/
def execIntakeDoorbell (_r : Requester) (die : Nat) (ring : Nat) (v : Word) (s : State) : Res :=
  done (if die < 8 ∧ ring < 8 then s.itkTail die ring v.toNat else s)

-- closes

/-- The lowest bit set of a mask of w bits. -/
def lowBit (w n : Nat) : Nat := ((List.range w).find? (fun i => bitOf n i)).getD w

/-- The oldest held record of a stream released (R72). -/
def State.releaseOldest (s : State) (x : Nat) : State :=
  let i := lowBit 8 (s.ent x eHeldMask)
  let s := s.seqAdvance x ((s.ent x eNextSeq + 1 + i) % 2 ^ 32) 10
  s.setEnt x eHoldAge 0

/-- Streams with a listed entry, in stream order. -/
def State.cbStreams (s : State) : List Nat := s.cb.map Prod.fst

/-- Streams of a die with a listed entry. -/
def State.cbOf (s : State) (d : Nat) : List Nat := s.cbStreams.filter (fun x => streamDie x == d)

/-- A stream's held records at a close (R72, R78), those of a freed stream too (DESIGN CHOICE, log 54). A release made is no longer owed to
the curtain. -/
def State.heldClose (s : State) (x : Nat) : State :=
  if s.ent x eHeldMask = 0 then s
  else if s.ent x eHoldAge < s.ent x eReordHold then s.setEnt x eHoldAge (s.ent x eHoldAge + 1)
  else
    let t := s.releaseOldest x
    if s.itkFits t (streamDie x) then { t with postponed := setDel t.postponed x } else { s with postponed := setAdd s.postponed x }

-- curtains

/-- A synthetic sample filed, or deferred to the next curtain where it does not fit (R77, R78). -/
def State.synthetic (s : State) (x : Nat) : State :=
  let d := streamDie x
  let vs := (List.range (s.channels x)).map (fun c => (s.lastValue x c, true))
  let t := s.fileSample x vs none
  if s.ent x eLife = 0 then s
  else if s.itkFits t d then t
  else { s with deferSyn := setAdd s.deferSyn x }.count 0 d 15 32 1

/-- The stale check of a stream at a curtain (R77), SILENT having been counted. -/
def State.staleCheck (s : State) (x : Nat) : State :=
  let d := streamDie x
  let n := s.ent x eStaleFrames
  let was := s.ent x eSilent
  let s := s.setEnt x eSilent (satAdd 16 was 1)
  let now := s.ent x eSilent
  if n = 0 ∨ now = was ∨ now % n ≠ 0 then s
  else
    let s := (s.setEnt x eStale 1).count 0 d 6 32 1
    if s.ent x eLife ≠ 1 ∨ s.ent x eStalePol = 0 then s
    else if s.ent x eStalePol = 1 ∧ s.ent x eSeen = 1 then s.synthetic x
    else s.armTrigger x s.now

/-- A periodic trigger at a curtain (R76). -/
def State.periodic (s : State) (x : Nat) : State :=
  let n := s.ent x eTrigN
  if s.ent x eLife = 1 ∧ s.trigMode x = 3 ∧ n ≠ 0 ∧ s.frame % n = 0 then s.armTrigger x s.now else s

/-- A release postponed from a close made (R72, R78); where it still does not fit it waits for the next curtain. -/
def State.postponedRelease (s : State) (x : Nat) : State :=
  if s.ent x eHeldMask = 0 then { s with postponed := setDel s.postponed x }
  else
    let t := s.releaseOldest x
    if s.itkFits t (streamDie x) then { t with postponed := setDel t.postponed x } else s

/-- Bytes of the sample blocks that the stream director reads for the steps admitted to a frame (R78). -/
def State.stagingCharge (s : State) (d : Nat) : Nat :=
  ((s.steps.filter (fun st => streamDie st.stream == d && st.frame == s.frame && st.phase == .accepted)).map
    (fun st => 64 * s.channels st.stream)).foldl (· + ·) 0

/-- A die's intake unit at a curtain (R76 to R78). A deferred synthetic sample is filed although its entry has been written anew, or freed
and written, since; a postponed release then releases what the stream holds now (DESIGN CHOICE, log 48). -/
def State.itkCurtain (s : State) (d : Nat) : State :=
  let s := s.setFld d ITK_USED_BYTES (s.stagingCharge d)
  let mine (l : List Nat) := l.filter (fun x => streamDie x == d)
  let syn := mine s.deferSyn
  let s := { s with deferSyn := s.deferSyn.filter (fun x => streamDie x != d) }
  let s := syn.foldl State.synthetic s
  let s := (mine s.postponed).foldl State.postponedRelease s
  let s := (s.cbOf d).foldl (fun s x => if s.ent x eLife = 0 then s else (s.staleCheck x).periodic x) s
  { s with itkStop := setDel s.itkStop d }

end Sys2Proof.Machine
end

