-- ==== Sys2Proof/Machine/Callboard.lean ====
section
/-! DEFINITION. The callboard's commands and its uncorrectable words (R61 to R66, R366). -/

namespace Sys2Proof.Machine

/-- A field of an entry image. -/
def EF.of (f : EF) (n : Nat) : Nat := bitsOf n f.lo f.w

/-- Fields that WRITE sets (R62). -/
def hFields : List EF :=
  [eCtx, eRing, eAct, eTrigClass, eContClass, eTrigMode, eStateAddr, eBufAddr, eStateUnits, eBufSets, eScale, eTrigN, eRatePol,
   eRangePol, eStalePol, eNchan, eReordHold, eLo, eHi, eRateMax, eStaleFrames, eTtl]

/-- An entry with the fields of an image set. -/
def withFields (fs : List EF) (old img : Nat) : Nat := fs.foldl (fun n f => setBits n f.lo f.w (f.of img)) old

/-- Whether an image's LO and HI are admissible under its SCALE (R66). -/
def boundsOk (img : Nat) : Bool :=
  let lo := value 1 (eLo.of img)
  let hi := value 1 (eHi.of img)
  let lim : Val := .fin false 32767 ((eScale.of img : Int) - 142)
  match lo, hi with
  | .fin _ _ _, .fin _ _ _ => !(hi.lt lo) && !(lim.lt hi) && !(lo.lt lim.neg) && !(lim.lt lo) && !(hi.lt lim.neg)
  | _, _ => false

/-- Whether an image's addresses are aligned and its areas lie in HBM (R66). -/
def areasOk (img : Nat) : Bool :=
  let st := eStateAddr.of img
  let buf := eBufAddr.of img
  st % 64 == 0 && buf % 64 == 0 && hbmIn st (128 * eStateUnits.of img) &&
  hbmIn buf (256 + eBufSets.of img * (eNchan.of img + 1) * 64)

/-- Whether RATE_MAX is above 0 (R66). -/
def rateOk (img : Nat) : Bool :=
  match value 1 (eRateMax.of img) with
  | .nan => false
  | .inf neg => !neg
  | .fin neg m _ => !neg && m != 0

/-- Whether an image's fields are valid (R66). -/
def fieldsOk (img : Nat) : Bool :=
  decide (eStateUnits.of img ≤ 1024) && eBufSets.of img != 0 && eStalePol.of img != 3 && decide (eTrigMode.of img ≤ 3) &&
  rateOk img && !(eTrigN.of img == 0 && decide (2 ≤ eTrigMode.of img))

/-- Whether a step of the stream is admitted, running or held. -/
def State.stepBusy (s : State) (x : Nat) : Bool := s.ent x eAdm == 1 || s.ent x eRun == 1 || s.ent x eHeld == 1

/-- The checks of a WRITE, in their order (R66). -/
def State.writeResult (s : State) (x img : Nat) : Nat :=
  let d := streamDie x
  let ring := eRing.of img
  if !s.flag d (EGR_RING_CTL_EN ring) || s.fld d (EGR_RING_CTL_CTX ring) != eCtx.of img then 4
  else if !boundsOk img then 5
  else if !areasOk img then 6
  else if !fieldsOk img then 2
  else if s.stepBusy x && (s.ent x eStateAddr != eStateAddr.of img || s.ent x eStateUnits != eStateUnits.of img) then 1
  else 0

/-- Whether an entry takes a WRITE as a free one does (R65, R366). -/
def State.writesFresh (s : State) (x : Nat) : Bool := s.ent x eLife == 0 || (s.ent x eLife == 2 && s.ent x eSusp == 5)

/-- A fresh entry written: every H field and NEXT_SEQ set, LIFE active and STREAM set, every other M field clear (R65). -/
def State.writeFresh (s : State) (x img : Nat) : State :=
  let e := withFields (eNextSeq :: hFields) 0 img
  let e := setBits (setBits e eStream.lo eStream.w x) eLife.lo eLife.w 1
  { s.setEntry x e with cbForce := removeAt s.cbForce x, gapPend := setDel s.gapPend x }

/-- A live entry written: its H fields set (R66). ACT, the classes and TRIG_MODE in force stay until the next close. -/
def State.writeLive (s : State) (x img : Nat) : State :=
  let held := s.inForce x
  let moved := s.ent x eBufAddr != eBufAddr.of img || s.ent x eBufSets != eBufSets.of img || s.ent x eNchan != eNchan.of img
  let lost := ((List.range 8).filter (bitOf (s.ent x eHeldMask))).length
  let s := s.setEntry x (withFields hFields (s.entry x) img)
  let s := { s with cbForce := insertAt s.cbForce x (held + 1) }
  if moved then
    let s := [eBufHead, eBufFill, eHeldMask, eHoldAge, eSeen].foldl (fun s f => s.setEnt x f 0) s
    s.count 0 (streamDie x) 14 32 lost
  else s

/-- WRITE of one entry (R65, R66): the result. -/
def State.cbPut (s : State) (x img : Nat) : State × Nat :=
  match s.writeResult x img with
  | 0 => (if s.writesFresh x then s.writeFresh x img else s.writeLive x img, 0)
  | n => (s, n)

/-- The 64 bytes of CB_DATA as an image. -/
def State.cbData (s : State) (d : Nat) : Nat :=
  ((List.range 16).map (fun i => s.fld d (CB_DATA_DATA i) <<< (32 * i))).foldl (· + ·) 0

/-- CB_DATA set from an entry. -/
def State.setCbData (s : State) (d n : Nat) : State :=
  (List.range 16).foldl (fun s i => s.setFld d (CB_DATA_DATA i) (bitsOf n (32 * i) 32)) s

/-- A write of CB_CMD that starts an operation (R65): only the host and contexts with callboard access may; ignored while BUSY. -/
def State.cbCommand (s : State) (r : Requester) (d x : Nat) (f : State → State × Nat) : State :=
  if !s.cbUser r then s.violation d
  else if 8 ≤ d ∨ s.flag d CB_CMD_BUSY then s
  else
    let s := s.setFld d CB_CMD_STREAM (x % 2 ^ 18)
    let (s, n) := if streamDie x = d ∧ x < 2 ^ 18 then f s else (s, 3)
    s.setFld d CB_STATUS_RESULT n

/-- READ (R65). -/
def State.cbGet (s : State) (d x : Nat) : State × Nat := (s.setCbData d (s.entry x), 0)

/-- SUSPEND (R65). -/
def State.cbStop (s : State) (x : Nat) : State × Nat :=
  if s.writesFresh x then (s, 7) else (s.suspend x 1, 0)

/-- RESUME (R65). -/
def State.cbGo (s : State) (x : Nat) : State × Nat :=
  if s.ent x eLife = 2 ∧ 1 ≤ s.ent x eSusp ∧ s.ent x eSusp ≤ 4 then
    (((s.setEnt x eLife 1).setEnt x eSusp 0).setEnt x ePendAge 0, 0)
  else (s, 7)

/-- A request pending when its stream is freed or lost is refused with 0x1 at the next close (R65, R366). It stays so where the stream is
written again before that close, and what merges into it meanwhile is refused with it (DESIGN CHOICE, log 48). -/
def State.doom (s : State) (x : Nat) : State :=
  if s.reqs.any (fun q => q.stream == x) then { s with doomed := setAdd s.doomed x } else s

/-- FREE (R65, R366). -/
def State.cbDrop (s : State) (x : Nat) : State × Nat :=
  if s.stepBusy x && !(s.ent x eLife == 2 && s.ent x eSusp == 5) then (s, 1) else ((s.setEnt x eLife 0).doom x, 0)

/-- CB_READ (R65). -/
def execCbRead (r : Requester) (die : Nat) (stream : Nat) (s : State) : Res :=
  done (s.cbCommand r die stream (fun s => s.cbGet die stream))

/-- CB_WRITE (R65, R66). -/
def execCbWrite (r : Requester) (die : Nat) (stream : Nat) (s : State) : Res :=
  done (s.cbCommand r die stream (fun s => s.cbPut stream (s.cbData die)))

/-- CB_SUSPEND (R65). -/
def execCbSuspend (r : Requester) (die : Nat) (stream : Nat) (s : State) : Res :=
  done (s.cbCommand r die stream (fun s => s.cbStop stream))

/-- CB_RESUME (R65). -/
def execCbResume (r : Requester) (die : Nat) (stream : Nat) (s : State) : Res :=
  done (s.cbCommand r die stream (fun s => s.cbGo stream))

/-- CB_FREE (R65). -/
def execCbFree (r : Requester) (die : Nat) (stream : Nat) (s : State) : Res :=
  done (s.cbCommand r die stream (fun s => s.cbDrop stream))

-- copies

/-- Images read from HBM and written as entries until one fails (R65): result and entries written. `what` is what the first image meets on its way
(R253, R254). -/
def State.cbIn (s : State) (d x a copied : Nat) (what : Arrival) : Nat → State × Nat × Nat
  | 0 => (s, 0, copied)
  | n + 1 =>
    if streamDie x ≠ d ∨ 2 ^ 18 ≤ x then (s, 3, copied)
    else
      match s.ringRead none d a 64 what with
      | (s, none) => (s, 6, copied)
      | (s, some (b, psn)) =>
        if psn then (s, 8, copied)
        else
          match s.cbPut x (leNat b) with
          | (s, 0) => s.cbIn d (x + 1) (a + 64) (copied + 1) .ok n
          | (s, e) => (s, e, copied)

/-- Entries written to HBM as images until one fails (R65); one that goes unanswered has faulted (R254). -/
def State.cbOut (s : State) (d x a copied : Nat) (what : Arrival) : Nat → State × Nat × Nat
  | 0 => (s, 0, copied)
  | n + 1 =>
    if streamDie x ≠ d ∨ 2 ^ 18 ≤ x then (s, 3, copied)
    else if !hbmIn a 64 then (s.ringMissed d a 64, 6, copied)
    else
      let t := s.ringWrite none d a (leBytes 64 (s.entry x)) false what
      if ringLost d a what then (t, 6, copied) else t.cbOut d (x + 1) (a + 64) (copied + 1) .ok n

/-- A callboard copy (R65). It is made at once; BUSY holds and RESULT and DONE wait until it completes (DEDUCED, log 33). -/
def State.cbCopy (s : State) (r : Requester) (d x : Nat) (inward : Bool) (what : Arrival) : State :=
  if !s.cbUser r then s.violation d
  else if 8 ≤ d ∨ s.flag d CB_CMD_BUSY then s
  else
    let s := s.setFld d CB_CMD_STREAM (x % 2 ^ 18)
    let n := s.fld d CB_COPY_CNT_COUNT
    let g := s.rg64 (dkey d CB_COPY_LO_ADDR.off)
    let (s, res, k) :=
      if n = 0 then (s, 2, 0)
      else if !s.isLocal g then (s, 6, 0)
      else if inward then s.cbIn d x (localOf g) 0 what n
      else s.cbOut d x (localOf g) 0 what n
    { s.setFld d CB_CMD_BUSY 1 with copies := put (0, 0) s.copies (8 + d) (res, k) }

/-- CB_COPY_IN (R65). -/
def execCbCopyIn (r : Requester) (die : Nat) (stream : Meeting Nat) (s : State) : Res := done (s.cbCopy r die stream.val true stream.what)

/-- CB_COPY_OUT (R65). -/
def execCbCopyOut (r : Requester) (die : Nat) (stream : Meeting Nat) (s : State) : Res := done (s.cbCopy r die stream.val false stream.what)

/-- CB_COPY_COMPLETE (R65). -/
def execCbCopyComplete (die : Nat) (s : State) : Res :=
  done (
    if s.flag die CB_CMD_BUSY then
      let (res, n) := get (0, 0) s.copies (8 + die)
      let s := s.setFld die CB_CMD_BUSY 0
      let s := s.setFld die CB_STATUS_RESULT res
      let s := s.setFld die CB_COPY_CNT_DONE n
      { s with copies := put (0, 0) s.copies (8 + die) (0, 0) }
    else s)

-- uncorrectable words

/-- CALLBOARD_ECC_ERROR (R366). -/
def execCallboardEccError (stream : Nat) (s : State) : Res :=
  let d := streamDie stream
  done (
    if 2 ^ 18 ≤ stream then s
    else
      let s := match s.stepOf stream with
        | some st => s.abortStep st 0x0D
        | none => s
      let s := (s.setEnt stream eStream stream).suspend stream 5
      let s := (s.count 4 d 11 32 1).integrity d CHK_EVENT_CB_ECC 0x7FF stream 0x0D
      s.doom stream)

end Sys2Proof.Machine
end

