-- ==== Sys2Proof/Machine/Elem.lean ====
section
/-! DEFINITION. The results that R222 bounds and does not state: pow and cos(pi x) lie within 2 units in the last place of the exact value.
The exact value is computed to some 90 bits in fixed point, and the result is a free choice among the FP32 values that the bound
admits. -/

namespace Sys2Proof.Machine

/-- Fixed point: a number n stands for n / 2^128. -/
def fixOne : Int := 2 ^ 128

/-- Product in fixed point. -/
def fixMul (a b : Int) : Int := a * b / fixOne

/-- The series of the inverse hyperbolic tangent from its term with power t and divisor 2i + 1, z2 being the square. -/
def atanhSum (z2 t : Int) (i : Nat) : Nat → Int
  | 0 => 0
  | n + 1 => t / (2 * i + 1) + atanhSum z2 (fixMul t z2) (i + 1) n

/-- ln of a ratio p / q between 1 and 2, as twice the inverse hyperbolic tangent of (p - q) / (p + q). -/
def lnRatio (p q : Nat) : Int :=
  let z : Int := (p - q) * fixOne / (p + q)
  2 * atanhSum (fixMul z z) z 0 48

/-- ln 2. -/
def lnTwo : Int := lnRatio 2 1

/-- ln of m x 2^e, m above 0. -/
def lnFix (m : Nat) (e : Int) : Int := (e + Nat.log2 m) * lnTwo + lnRatio m (2 ^ Nat.log2 m)

/-- The series of the exponential from its i-th term t. -/
def expSum (r t : Int) (i : Nat) : Nat → Int
  | 0 => 0
  | n + 1 => t + expSum r (fixMul t r / (i + 1)) (i + 1) n

/-- exp of a fixed-point number: what lies far beyond FP32's range at either end is cut there. -/
def expFix (w : Int) : Val :=
  let n := w / lnTwo
  if 200 < n then .fin false 1 200
  else if n < -400 then .fin false 1 (-400)
  else .fin false (expSum (w - n * lnTwo) fixOne 0 40).toNat (n - 128)

/-- pi. -/
def piFix : Int := 0x3243f6a8885a308d313198a2e03707344

/-- The series of the cosine from its i-th term t, x2 being the square. -/
def cosSum (x2 t : Int) (i : Nat) : Nat → Int
  | 0 => 0
  | n + 1 => t + cosSum x2 (-(fixMul t x2) / ((2 * i + 1) * (2 * i + 2))) (i + 1) n

/-- A natural number scaled to fixed point from an exponent. -/
def fixOf (m : Nat) (e : Int) : Int := if 0 ≤ e + 128 then (m : Int) * 2 ^ (e + 128).toNat else (m : Int) / 2 ^ (-(e + 128)).toNat

/-- The size of a unit in the last place at a finite value's magnitude in FP32. -/
def ulpExp (m : Nat) (e : Int) : Int := (if m = 0 then -126 else max (log2Of m e) (-126)) - 23

/-- Whether an FP32 magnitude lies within 2 units in the last place of m x 2^e; infinity stands for 2^128. -/
def within2 (m : Nat) (e : Int) (bits : Nat) : Bool :=
  let x : Val := if bits = 0x7F800000 then .fin false 1 128 else value 1 bits
  let d := x.add false (.fin true m e)
  let lim : Val := .fin false 1 (ulpExp m e + 1)
  !(lim.lt d) && !(d.lt lim.neg)

/-- The FP32 patterns that R222 admits for an exact magnitude, and the one chosen by a free word. -/
def nearPick (m : Nat) (e : Int) (pick : Nat) : Nat :=
  let p := (deliver 1 .nearest true 0 (.fin false m e)).1
  let l := ((List.range 5).map (fun i => p + i - 2)).filter (fun b => decide (b ≤ 0x7F800000) && within2 m e b)
  (l[pick % l.length]?).getD p

/-- pow of a positive finite base and a finite exponent that is not negative, within R222's bound. -/
def powNear (m : Nat) (e : Int) (n : Nat) (f : Int) (pick : Nat) : Nat :=
  if m = 0 then nearPick 0 0 pick
  else
    match expFix (if 0 ≤ f then lnFix m e * n * 2 ^ f.toNat else lnFix m e * n / 2 ^ (-f).toNat) with
    | .fin _ a k => nearPick a k pick
    | _ => 0

/-- cos(pi x) of x = m x 2^e between 0 and 1, within R222's bound. -/
def cosNear (m : Nat) (e : Int) (pick : Nat) : Nat :=
  let t := fixMul piFix (fixOf m e)
  let c := cosSum (fixMul t t) fixOne 0 40
  (if c < 0 then 2 ^ 31 else 0) + nearPick c.natAbs (-128) pick

end Sys2Proof.Machine
end

