-- ==== Sys2Proof/Machine/Update.lean ====
section
/-! DEFINITION. The update engine: group descriptors, the update of a block, boundaries, schedules, install and discard
(R211 to R226). -/

namespace Sys2Proof.Machine

-- the certified window

/-- W of R38 for a frame of P ns, in ns. -/
def certWindow (p : Nat) : Nat := p - 8000 - 8000 * (cdiv (p - 8000) 1000000 - 1)

/-- Wp of R40, in ns. -/
def performWindow (p : Nat) : Nat := certWindow p - 16000

/-- Cycles of a perform window at a clock code (R53). -/
def performCycles (p code : Nat) : Nat := performWindow p * clockTenths code / 10

-- FP32 arithmetic

/-- A value rounded to FP32, nearest-even (R219, R222). -/
def f32 (v : Val) : Val := value 1 (deliver 1 .nearest true 0 v).1

/-- A value's FP32 pattern. -/
def f32Bits (v : Val) : Nat := (deliver 1 .nearest true 0 v).1

/-- Sum, difference and product in FP32. -/
def fadd (a b : Val) : Val := f32 (a.add false b)
/-- Difference in FP32. -/
def fsub (a b : Val) : Val := f32 (a.add false b.neg)
/-- Product in FP32. -/
def fmul (a b : Val) : Val := f32 (a.mul b)

/-- Quotient in FP32, of exact operands: the quotient is taken to 64 bits with a sticky bit and rounded once. -/
def fdiv (a b : Val) : Val :=
  match a, b with
  | .nan, _ => .nan
  | _, .nan => .nan
  | .inf _, .inf _ => .nan
  | .inf x, .fin y _ _ => .inf (x != y)
  | .fin x _ _, .inf y => .fin (x != y) 0 0
  | .fin x m e, .fin y n f =>
    if n = 0 then (if m = 0 then .nan else .inf (x != y))
    else if m = 0 then .fin (x != y) 0 0
    else
      let k := 64 + Nat.log2 n - Nat.log2 m
      let q := m * 2 ^ k / n
      let sticky := if m * 2 ^ k % n = 0 then 0 else 1
      f32 (.fin (x != y) (2 * q + sticky) (e - f - k - 1))

/-- Integer square root, by bits from 2^i down: the greatest r with r * r at most n, given a partial root. -/
def isqrt (n r : Nat) : Nat → Nat
  | 0 => r
  | i + 1 => if (r + 2 ^ i) * (r + 2 ^ i) ≤ n then isqrt n (r + 2 ^ i) i else isqrt n r i

/-- Square root in FP32. -/
def fsqrt (a : Val) : Val :=
  match a with
  | .nan => .nan
  | .inf neg => if neg then .nan else .inf false
  | .fin neg m e =>
    if m = 0 then .fin neg 0 0
    else if neg then .nan
    else
      let p : Nat := if (e - 1) % 2 = 0 then 129 else 128
      let n := m * 2 ^ p
      let r := isqrt n 0 (Nat.log2 n / 2 + 1)
      let sticky := if r * r = n then 0 else 1
      f32 (.fin false (2 * r + sticky) ((e - p) / 2 - 1))

/-- Adjacent pairs summed (R143). -/
def pairSums : List Val → List Val
  | a :: b :: t => fadd a b :: pairSums t
  | l => l

/-- The sum of 32 values in the tree order of VRED (R143, R219). -/
def treeSum (l : List Val) : Nat → Val
  | 0 => l.headD (.fin false 0 0)
  | n + 1 => treeSum (pairSums l) n

/-- pow of R222: exact at exponents 0, 0.5 and 1 (at 0.5 the rounded root, DEDUCED, log 35), else a free value within 2 units in the last
place. A base below 0 or not finite, and an exponent below 0 or not finite, leave the whole value free. -/
def powVal (a x : Val) : Val :=
  let pick := Config.powFree (BitVec.ofNat 32 (f32Bits a)) (BitVec.ofNat 32 (f32Bits x))
  if !(x.lt (.fin false 0 0)) && !((Val.fin false 0 0).lt x) then .fin false 1 0
  else if x.cmp 0 (.fin false 1 0) then a
  else if x.cmp 0 (.fin false 1 (-1)) then fsqrt a
  else
    match a, x with
    | .fin false m e, .fin false n f => value 1 (powNear m e n f pick.toNat)
    | _, _ => value 1 pick.toNat

/-- cos(pi x) of R222: exact at 0, 0.5 and 1, else a free value within 2 units in the last place; x outside 0 to 1 leaves it all free. -/
def cosPi (x : Val) : Val :=
  let pick := Config.cosPiFree (BitVec.ofNat 32 (f32Bits x))
  if x.cmp 0 (.fin false 0 0) then .fin false 1 0
  else if x.cmp 0 (.fin false 1 (-1)) then .fin false 0 0
  else if x.cmp 0 (.fin false 1 0) then .fin true 1 0
  else
    match x with
    | .fin false m e => if x.lt (.fin false 1 0) then value 1 (cosNear m e pick.toNat) else value 1 pick.toNat
    | _ => value 1 pick.toNat

/-- A natural number as a value. -/
def natVal (n : Nat) : Val := .fin false n 0

-- descriptors

/-- A parameter-group descriptor (R212). -/
structure Grp where
  v : Bool
  rule : Nat
  master : Nat
  momBf : Bool
  dense : Bool
  mean : Bool
  rnd : Nat
  pfmt : Nat
  gInt : Bool
  restart : Bool
  warmk : Nat
  decayk : Nat
  ovf : Bool
  ctrlRsvd : Nat
  act : Nat
  actRsvd : Nat
  rowb : Nat
  gexp : Int
  param : Nat
  grad : Nat
  map : Nat
  rows : Nat
  step : Nat
  warm : Nat
  period : Nat
  etaInit : Val
  etaPeak : Val
  etaMin : Val
  peakDecay : Val
  gamma : Val
  lambda : Val
  beta1 : Val
  beta2 : Val
  eps : Val
  clip : Val
  gscale : Val
  mult : Nat
  maxrows : Nat
  uper : Nat
  phase : Nat
  rsvd : Nat
  deriving DecidableEq, Repr

/-- The fields of a descriptor (R212). -/
def grpOf (e : BitVec 1024) : Grp :=
  let n := e.toNat
  let f (off size : Nat) : Nat := bitsOf n (8 * off) (8 * size)
  let c := f 0 4
  let fp (off : Nat) : Val := value 1 (f off 4)
  { v := bitOf c 31
    rule := bitsOf c 28 3
    master := bitsOf c 26 2
    momBf := bitOf c 25
    dense := bitOf c 24
    mean := bitOf c 23
    rnd := bitsOf c 20 3
    pfmt := bitsOf c 16 4
    gInt := bitOf c 15
    restart := bitOf c 14
    warmk := bitsOf c 12 2
    decayk := bitsOf c 9 3
    ovf := bitOf c 8
    ctrlRsvd := bitsOf c 0 8
    act := f 4 2 % 4096
    actRsvd := f 4 2 / 4096
    rowb := f 6 1
    gexp := sgn 8 (f 7 1)
    param := f 8 8
    grad := f 0x10 8
    map := f 0x18 8
    rows := f 0x20 4
    step := f 0x24 4
    warm := f 0x28 4
    period := f 0x2C 4
    etaInit := fp 0x30
    etaPeak := fp 0x34
    etaMin := fp 0x38
    peakDecay := fp 0x3C
    gamma := fp 0x40
    lambda := fp 0x44
    beta1 := fp 0x48
    beta2 := fp 0x4C
    eps := fp 0x50
    clip := fp 0x54
    gscale := fp 0x58
    mult := f 0x5C 1
    maxrows := f 0x60 4
    uper := f 0x64 4
    phase := f 0x68 4
    rsvd := f 0x5D 3 + f 0x6C 20 }

/-- Key of a group. -/
def grpKey (d g : Nat) : Nat := d * 1024 + g

/-- A group of a table. -/
def grpAt (m : SMap (BitVec 1024)) (d g : Nat) : Grp := grpOf (get 0 m (grpKey d g))

/-- Whether a storage format is one of the MX formats (R212). -/
def mxFmt (p : Nat) : Bool := (decide (4 ≤ p) && decide (p ≤ 8)) || p == 0xC

/-- A size rounded up to 64 bytes. -/
def up64 (n : Nat) : Nat := 64 * cdiv n 64

/-- EB of R214. -/
def Grp.eb (g : Grp) : Nat := fmtWidth g.pfmt * 4
/-- Bytes of storage before rounding. -/
def Grp.storLen (g : Grp) : Nat := g.rowb * g.eb + (if mxFmt g.pfmt then g.rowb else 0)
/-- MB of R214 for the master. -/
def Grp.mb (g : Grp) : Nat := if g.master = 1 then 4 else if g.master = 2 then 2 else 0
/-- Bytes of a moment's element. -/
def Grp.momB (g : Grp) : Nat := if g.momBf then 2 else 4
/-- Moments held: none for SGD, two for Adam (R214). -/
def Grp.moments (g : Grp) : Nat := if g.rule = 0 then 0 else if g.rule = 3 then 2 else 1
/-- Start of the master part. -/
def Grp.masterOff (g : Grp) : Nat := up64 g.storLen
/-- Start of moment k's part. -/
def Grp.momOff (g : Grp) (k : Nat) : Nat := g.masterOff + up64 (g.rowb * 32 * g.mb) + k * up64 (g.rowb * 32 * g.momB)
/-- SLOT of R214. -/
def Grp.slot (g : Grp) : Nat := g.momOff g.moments
/-- MAPSZ of R215. -/
def Grp.mapsz (g : Grp) : Nat := up64 (cdiv g.rows 4)
/-- MARKSZ of R216. -/
def Grp.marksz (g : Grp) : Nat := up64 (4 * g.rows)
/-- GHALF of R216. -/
def Grp.ghalf (g : Grp) : Nat := g.marksz + g.rows * g.rowb * 128

/-- The areas of a group: address and bytes (R213). -/
def Grp.areas (g : Grp) : List (Nat × Nat) := [(g.param, 3 * g.rows * g.slot), (g.grad, 2 * g.ghalf), (g.map, 64 + 3 * g.mapsz)]

/-- Whether a value is finite and not negative. -/
def finNonNeg (v : Val) : Bool :=
  match v with
  | .fin neg m _ => !neg || m == 0
  | _ => false

/-- Whether a value is above 0; infinity passes. -/
def aboveZero (v : Val) : Bool := !v.isNan && (Val.fin false 0 0).lt v

/-- Whether a value lies in (0, 1]. -/
def inUnit (v : Val) : Bool := aboveZero v && !((Val.fin false 1 0).lt v)

/-- Whether a value lies in [0, 1). -/
def belowOne (v : Val) : Bool := finNonNeg v && v.lt (.fin false 1 0)

/-- Whether a value is zero. -/
def isZeroVal (v : Val) : Bool :=
  match v with
  | .fin _ m _ => m == 0
  | _ => false

/-- The field checks of R213: RESULT 2. -/
def Grp.fieldsOk (g : Grp) : Bool :=
  decide (g.rule ≤ 3) && decide (g.master ≤ 2) && decide (1 ≤ g.rnd) && decide (g.rnd ≤ 5) &&
  (g.pfmt == 1 || g.pfmt == 3 || mxFmt g.pfmt) && decide (g.warmk ≤ 1) && decide (g.decayk ≤ 4) &&
  !(g.master == 1 && g.pfmt == 1) && !(g.master == 2 && (g.pfmt == 1 || g.pfmt == 3)) &&
  finNonNeg g.etaInit && finNonNeg g.etaPeak && finNonNeg g.etaMin &&
  !(isZeroVal g.etaInit && g.warmk == 1 && g.warm != 0) && !(isZeroVal g.etaMin && g.decayk == 3) &&
  g.ctrlRsvd == 0 && g.actRsvd == 0 && g.rsvd == 0 &&
  decide (1 ≤ g.rowb) && decide (g.rowb ≤ 64) && decide (1 ≤ g.rows) && decide (g.rows ≤ 1048576) && g.step != 0 && g.period != 0 &&
  inUnit g.peakDecay && inUnit g.gamma && !g.lambda.isNan && !(g.lambda.lt (.fin false 0 0)) &&
  belowOne g.beta1 && belowOne g.beta2 && aboveZero g.eps && aboveZero g.clip &&
  (match g.gscale with | .fin _ _ _ => true | _ => false) &&
  decide (1 ≤ g.mult) && decide (g.mult ≤ 15) && (g.dense || (decide (1 ≤ g.maxrows) && decide (g.maxrows ≤ g.rows))) &&
  decide (1 ≤ g.uper) && decide (g.uper ≤ 16777216) && decide (g.phase < g.uper)

/-- Whether no two areas of a list meet. -/
def apart : List (Nat × Nat) → Bool
  | [] => true
  | (a, n) :: t => t.all (fun (b, m) => decide (a + n ≤ b) || decide (b + m ≤ a)) && apart t

/-- The area checks of R213: RESULT 6. -/
def Grp.areasOk (g : Grp) (d : Nat) : Bool :=
  g.areas.all (fun (a, n) => a % 64 == 0 && stackIn d a n) && apart g.areas

/-- Whether a valid active group keeps what it may not change (R213): RESULT 7. -/
def Grp.keeps (g h : Grp) : Bool :=
  g.param == h.param && g.grad == h.grad && g.map == h.map && g.rows == h.rows && g.rowb == h.rowb && g.pfmt == h.pfmt &&
  g.master == h.master && g.momBf == h.momBf && g.rule == h.rule && g.gInt == h.gInt && g.uper == h.uper && g.phase == h.phase

/-- The result of a WRITE_SHADOW (R213). -/
def State.grpResult (s : State) (d k : Nat) (e : BitVec 1024) : Nat :=
  let g := grpOf e
  let a := grpAt s.grpA d k
  if !g.v then 0
  else if !g.fieldsOk then 2
  else if !g.areasOk d then 6
  else if a.v && !g.keeps a then 7
  else 0

-- commands

/-- The 128 bytes of UPD_GRP_DATA. -/
def State.grpData (s : State) (d : Nat) : BitVec 1024 :=
  BitVec.ofNat 1024 (((List.range 32).map (fun i => s.fld d (UPD_GRP_DATA_DATA i) <<< (32 * i))).foldl (· + ·) 0)

/-- UPD_GRP_DATA set from a descriptor. -/
def State.setGrpData (s : State) (d : Nat) (e : BitVec 1024) : State :=
  (List.range 32).foldl (fun s i => s.setFld d (UPD_GRP_DATA_DATA i) (bitsOf e.toNat (32 * i) 32)) s

/-- A write of the shadow set refused while a swap is pending (R402). -/
def State.shadowShut (s : State) : State := s.setFld 0 CFG_SS_STATUS_WERR 1

/-- Whether a swap is pending (R401). -/
def State.swapPending (s : State) : Bool := s.flag 0 CFG_SS_STATUS_PEND

/-- A write of UPD_GRP_CMD. -/
def State.grpCommand (s : State) (d g : Nat) (f : State → State × Nat) : State :=
  if 8 ≤ d then s
  else
    let s := s.setFld d UPD_GRP_CMD_GROUP (g % 1024)
    let (s, n) := f s
    s.setFld d UPD_GRP_STATUS_RESULT n

/-- GRP_READ_ACTIVE (R212). Any requester may write UPD_GRP_CMD, whose fields are B fields. -/
def execGrpReadActive (_r : Requester) (die : Nat) (g : Nat) (s : State) : Res :=
  done (s.grpCommand die g (fun s => (s.setGrpData die (get 0 s.grpA (grpKey die (g % 1024))), 0)))

/-- GRP_READ_SHADOW (R212). -/
def execGrpReadShadow (_r : Requester) (die : Nat) (g : Nat) (s : State) : Res :=
  done (s.grpCommand die g (fun s => (s.setGrpData die (get 0 s.grpS (grpKey die (g % 1024))), 0)))

/-- A shadow group written (R213). -/
def State.grpPut (s : State) (d g : Nat) : State × Nat :=
  let e := s.grpData d
  match s.grpResult d g e with
  | 0 => ({ s with grpS := put 0 s.grpS (grpKey d g) e }, 0)
  | n => (s, n)

/-- WRITE_SHADOW (R213, R402). -/
def execWriteShadow (_r : Requester) (die : Nat) (g : Nat) (s : State) : Res :=
  done (if s.swapPending then s.shadowShut else s.grpCommand die g (fun s => s.grpPut die (g % 1024)))

/-- GRP_READ_ETA (R222): the step size evaluated at the last curtain. -/
def execGrpReadEta (_r : Requester) (die : Nat) (g : Nat) (s : State) : Res :=
  done (s.grpCommand die g (fun s =>
    (s.setFld die (UPD_GRP_DATA_DATA 0) (get 0 s.etas (grpKey die (g % 1024))).toNat, 0)))

-- schedules

/-- Restarts of the decay (R222): u, P and pk after them. -/
def restarts (g : Grp) (u p : Nat) (pk : Val) : Nat → Nat × Nat × Val
  | 0 => (u, p, pk)
  | n + 1 =>
    if p ≤ u ∧ p ≠ 0 then
      restarts g (u - p) (min (p * g.mult) (2 ^ 32)) ((fmul pk g.peakDecay).max g.etaMin) n
    else (u, p, pk)

/-- The step size at update t (R222). -/
def Grp.eta (g : Grp) (t : Nat) : Val :=
  if t < g.warm then
    let x := fdiv (natVal t) (natVal g.warm)
    if g.warmk = 0 then fadd g.etaInit (fmul (fsub g.etaPeak g.etaInit) x)
    else fmul g.etaInit (powVal (fdiv g.etaPeak g.etaInit) x)
  else
    let u := t - g.warm
    let (u, p, pk) := if g.restart then restarts g u g.period g.etaPeak (u + 1) else (min u g.period, g.period, g.etaPeak)
    let x := fdiv (natVal u) (natVal p)
    match g.decayk with
    | 0 => pk
    | 1 => fadd g.etaMin (fmul (fsub pk g.etaMin) (fdiv (fadd (.fin false 1 0) (cosPi x)) (.fin false 2 0)))
    | 2 => fadd pk (fmul (fsub g.etaMin pk) x)
    | 3 => fmul pk (powVal (fdiv g.etaMin pk) x)
    | _ => g.etaMin.max (fmul pk (powVal g.gamma (f32 (natVal (u / g.step)))))

/-- UPDATES of a group's header (R215). -/
def State.updates (s : State) (g : Grp) : Nat := s.le (g.map + 0x0C) 4

/-- The step sizes of all valid groups evaluated (R222). -/
def State.schedule (s : State) : State :=
  { s with etas := s.grpA.filterMap (fun (k, e) =>
      let g := grpOf e
      let w := BitVec.ofNat 32 (f32Bits (g.eta (s.updates g)))
      if g.v && w != 0 then some (k, w) else none) }

-- the update of a block

/-- What a row's update carries through its blocks: generators and counts. -/
structure UpdAcc where
  gens : List (BitVec 32)
  counts : Counts
  clipped : Nat
  bad : Nat
  deriving DecidableEq, Repr

/-- Values delivered in a format, each drawing from its own generator under stochastic rounding (R219, R220). -/
def deliverAll (f : Rnd → Nat → Val → Nat × Cls) (mode : Rnd) (a : UpdAcc) (vs : List Val) : UpdAcc × List Nat :=
  let gens := if mode = .stoch then a.gens.map xorshift else a.gens
  let rs := (vs.zip gens).map (fun (v, g) => f mode (drawOf g) v)
  ({ a with gens := gens, counts := a.counts.add (countAll (rs.map Prod.snd)) }, rs.map Prod.fst)

/-- Element bytes of a list of patterns of w bits. -/
def elemBytes (w : Nat) (l : List Nat) : List Byte := leBytes (l.length * w / 8) (packElems w l)

/-- The parts of one block as they stand in a slot: storage, scale, master and moments. -/
structure BlockParts where
  stor : List Byte
  scale : Nat
  master : List Byte
  moms : List (List Byte)
  deriving DecidableEq, Repr

/-- Block b's parts of a slot's bytes (R214). -/
def Grp.parts (g : Grp) (slot : List Byte) (b : Nat) : BlockParts :=
  let cut (off n : Nat) : List Byte := (slot.drop off).take n
  { stor := cut (b * g.eb) g.eb
    scale := if mxFmt g.pfmt then leNat (cut (g.rowb * g.eb + b) 1) else 127
    master := cut (g.masterOff + b * 32 * g.mb) (32 * g.mb)
    moms := (List.range g.moments).map (fun k => cut (g.momOff k + b * 32 * g.momB) (32 * g.momB)) }

/-- The stored values of a block, with the block scale (R219). -/
def Grp.stored (g : Grp) (p : BlockParts) : List Val :=
  let n := leNat p.stor
  let w := fmtWidth g.pfmt
  let k : Int := if !mxFmt g.pfmt then 0 else (p.scale : Int) - 127 - (if g.pfmt = 0xC then 6 else 0)
  (List.range 32).map (fun j =>
    if mxFmt g.pfmt && p.scale == 0xFF then .nan else (value g.pfmt (elemAt w n j)).scale k)

/-- 32 values of FP32 or BF16 bytes. -/
def floats (bf : Bool) (b : List Byte) : List Val :=
  let n := leNat b
  (List.range 32).map (fun j => if bf then value 3 (elemAt 16 n j) else value 1 (elemAt 32 n j))

/-- A block's gradients (R219): scaled, and divided by the mark where MEAN asks for it. -/
def Grp.grads (g : Grp) (b : List Byte) (mark : Nat) : List Val :=
  let n := leNat b
  (List.range 32).map (fun j =>
    let c := elemAt 32 n j
    let v := if g.gInt then f32 ((Val.ofInt (sgn 32 c)).scale g.gexp) else value 1 c
    let v := fmul v g.gscale
    if g.mean then fdiv v (natVal mark) else v)

/-- Whether a value is finite. -/
def Val.isFin : Val → Bool
  | .fin _ _ _ => true
  | _ => false

/-- A difference not yet rounded. -/
def rawSub (a b : Val) : Val := a.add false b.neg

/-- The last operation on a parameter or a moment rounded to FP32, its overflow as OVF asks (R195, R219). -/
def Grp.rounded (g : Grp) (v : Val) : Val := value 1 (deliver 1 .nearest g.ovf 0 v).1

/-- One element's update (R219): the new parameter and moments, each with its last operation not yet rounded. OVF governs that rounding;
the operations before it overflow to infinity as FP32 does (DEDUCED, log 50). -/
def Grp.element (g : Grp) (eta c1 c2 : Val) (w gr m v : Val) : Val × Val × Val :=
  let one : Val := .fin false 1 0
  let w := fsub w (fmul (fmul eta g.lambda) w)
  match g.rule with
  | 0 => (rawSub w (fmul eta gr), m, v)
  | 1 =>
    let m := (fmul g.beta1 m).add false gr
    (rawSub w (fmul eta (g.rounded m)), m, v)
  | 2 =>
    let m := (fmul g.beta1 m).add false gr
    (rawSub w (fmul eta (fadd gr (fmul g.beta1 (g.rounded m)))), m, v)
  | _ =>
    let m := (fmul g.beta1 m).add false (fmul (fsub one g.beta1) gr)
    let v := (fmul g.beta2 v).add false (fmul (fsub one g.beta2) (fmul gr gr))
    (rawSub w (fmul eta (fdiv (fdiv (g.rounded m) c1) (fadd (fsqrt (fdiv (g.rounded v) c2)) g.eps))), m, v)

/-- A block's results written as its slot's parts (R194, R219): moments, then the master, then storage. An FP32 element is the last
operation's result and classed by it; any other is rounded and classed from the FP32 value. -/
def Grp.deliverBlock (g : Grp) (a : UpdAcc) (p : BlockParts) (ws ms vs : List Val) : UpdAcc × BlockParts :=
  let mode := Rnd.ofCode g.rnd
  let fmtOf (bf : Bool) : Nat := if bf then 3 else 1
  let plain (code : Nat) : Rnd → Nat → Val → Nat × Cls := fun mode r v => deliver code mode g.ovf r (if code = 1 then v else g.rounded v)
  let momCode := fmtOf g.momBf
  let (a, moms) := ((List.range g.moments).zip [ms, vs]).foldl (fun (acc : UpdAcc × List (List Byte)) (_, l) =>
    let (a, r) := deliverAll (plain momCode) .nearest acc.1 l
    (a, acc.2 ++ [elemBytes (fmtWidth momCode) r])) (a, [])
  let (a, master) :=
    if g.master = 0 then (a, [])
    else
      let (a, r) := deliverAll (plain (fmtOf (g.master == 2))) (if g.master = 2 then mode else .nearest) a ws
      (a, elemBytes (8 * g.mb) r)
  if mxFmt g.pfmt then
    let ws := ws.map g.rounded
    let scale := blockScale g.pfmt ws
    let (a, r) := deliverAll (fun mode rnd v => quantElem g.pfmt scale mode rnd v) mode a ws
    (a, ⟨elemBytes (fmtWidth g.pfmt) r, scale, master, moms⟩)
  else
    let (a, r) := deliverAll (plain g.pfmt) (if g.pfmt = 1 then .nearest else mode) a ws
    (a, ⟨elemBytes (fmtWidth g.pfmt) r, p.scale, master, moms⟩)

/-- The update of one block (R219): its new parts; a block with a gradient not finite is copied. -/
def Grp.block (g : Grp) (eta c1 c2 : Val) (a : UpdAcc) (p : BlockParts) (grad : List Byte) (mark : Nat) : UpdAcc × BlockParts :=
  let gs := g.grads grad mark
  if gs.any (fun v => !v.isFin) then ({ a with bad := a.bad + 1 }, p)
  else
    let n := fsqrt (treeSum (gs.map (fun v => fmul v v)) 5)
    let big := g.clip.lt n
    let gs := if big then (let k := fdiv g.clip n; gs.map (fun v => fmul v k)) else gs
    let a := if big then { a with clipped := a.clipped + 1 } else a
    let ws := if g.master = 0 then g.stored p else floats (g.master == 2) p.master
    let mom (k : Nat) : List Val := match p.moms[k]? with | some b => floats g.momBf b | none => List.replicate 32 (.fin false 0 0)
    let rs := ((ws.zip gs).zip ((mom 0).zip (mom 1))).map (fun ((w, gr), (m, v)) => g.element eta c1 c2 w gr m v)
    g.deliverBlock a p (rs.map Prod.fst) (rs.map (fun r => r.2.1)) (rs.map (fun r => r.2.2))

/-- Bytes put into a list at an offset. -/
def splice (l : List Byte) (off : Nat) (b : List Byte) : List Byte := l.take off ++ b ++ l.drop (off + b.length)

/-- A block's parts put into a slot's bytes (R214). -/
def Grp.place (g : Grp) (slot : List Byte) (b : Nat) (p : BlockParts) : List Byte :=
  let l := splice slot (b * g.eb) p.stor
  let l := if mxFmt g.pfmt then splice l (g.rowb * g.eb + b) (leBytes 1 p.scale) else l
  let l := splice l (g.masterOff + b * 32 * g.mb) p.master
  (p.moms.zip (List.range p.moms.length)).foldl (fun l (m, k) => splice l (g.momOff k + b * 32 * g.momB) m) l

/-- The blocks of a row updated into its candidate slot's bytes. -/
def Grp.rowBlocks (g : Grp) (eta c1 c2 : Val) (live grads : List Byte) (mark b : Nat) (a : UpdAcc) (out : List Byte) :
    Nat → UpdAcc × List Byte
  | 0 => (a, out)
  | n + 1 =>
    let (a, p) := g.block eta c1 c2 a (g.parts live b) ((grads.drop (128 * b)).take 128) mark
    g.rowBlocks eta c1 c2 live grads mark (b + 1) a (g.place out b p) n

-- boundaries

/-- Whether frame f is a boundary of a group (R217). -/
def Grp.boundary (g : Grp) (f : Nat) : Bool := g.v && f % g.uper == g.phase

/-- The map copy in force for frame f (R215). -/
def State.mapCopy (s : State) (g : Grp) (f : Nat) : Nat :=
  if s.le g.map 8 ≤ f then s.le (g.map + 8) 1 else s.le (g.map + 9) 1

/-- The slot of row r in a map copy (R215). -/
def State.mapSlot (s : State) (g : Grp) (copy r : Nat) : Nat :=
  bitsOf (s.byte (g.map + 64 + copy * g.mapsz + r / 4)).toNat (2 * (r % 4)) 2

/-- What a group's run has done so far: rows processed, and how many of them brought poison. -/
structure RunAcc where
  rows : List Nat
  acc : UpdAcc
  hits : Nat
  deriving DecidableEq, Repr

/-- A row processed (R218): candidate written, gradients and mark zeroed. -/
def State.updRow (s : State) (g : Grp) (eta c1 c2 : Val) (half copy : Nat) (x : RunAcc) (r : Nat) : State × RunAcc :=
  let live := s.mapSlot g copy r
  let src := g.param + (3 * r + live) * g.slot
  let dst := g.param + (3 * r + (live + 1) % 3) * g.slot
  let ga := g.grad + half * g.ghalf + g.marksz + r * g.rowb * 128
  let ma := g.grad + half * g.ghalf + 4 * r
  let psn := s.poisoned src g.slot || s.poisoned ga (g.rowb * 128) || s.poisoned ma 4
  let (a, out) := g.rowBlocks eta c1 c2 (s.bytes src g.slot) (s.bytes ga (g.rowb * 128)) (s.le ma 4) 0 x.acc
    (s.bytes dst g.slot) g.rowb
  let s := s.writeMem dst out false
  let s := s.writeMem ga (List.replicate (g.rowb * 128) 0) false
  let s := s.writeMem ma (leBytes 4 0) false
  (s, ⟨x.rows ++ [r], a, x.hits + b2n psn⟩)

/-- Rows a group would process at a boundary, in ascending order (R218). -/
def State.markedRows (s : State) (g : Grp) (half : Nat) : List Nat :=
  (List.range g.rows).filter (fun r => g.dense || s.le (g.grad + half * g.ghalf + 4 * r) 4 != 0)

/-- Bytes of a map copy (R218): the candidate slot of each row processed, the live slot of every other. -/
def State.newMap (s : State) (g : Grp) (copy : Nat) (rows : List Nat) : List Byte :=
  let slotOf (r : Nat) : Nat :=
    if g.rows ≤ r then 0
    else if rows.contains r then (s.mapSlot g copy r + 1) % 3 else s.mapSlot g copy r
  (List.range g.mapsz).map (fun i =>
    BitVec.ofNat 8 ((List.range 4).map (fun k => slotOf (4 * i + k) <<< (2 * k))).sum)

/-- Cycles of one row and of a group's scan (R226). -/
def Grp.rowCycles (g : Grp) : Nat := g.rowb * (if g.rule = 3 then 2 else 1)
/-- Engine cycles of a group's scan (R226); a part of a cycle counts whole (DEDUCED, log 35). -/
def Grp.scanCycles (g : Grp) : Nat := cdiv g.rows 16

/-- A generator list of a die. -/
def State.updGens (s : State) (d : Nat) : List (BitVec 32) := (List.range 32).map (s.updSeed d)

/-- Generators of a die replaced. -/
def State.setUpdGens (s : State) (d : Nat) (l : List (BitVec 32)) : State :=
  (l.zip (List.range 32)).foldl (fun s (w, i) => s.setUpdSeed d i w) s

/-- A group's run at its boundary (R218 to R221, R224, R226), each poisoned row counted once (R388; DEDUCED, log 35), given the engine cycles left:
the state and the cycles left after it. -/
def State.updGroup (s : State) (d k cycles : Nat) : State × Nat :=
  let g := grpAt s.grpA d k
  let half := (s.frame - g.phase) / g.uper % 2
  let rows := s.markedRows g half
  let fit := if g.scanCycles ≤ cycles then (cycles - g.scanCycles) / g.rowCycles else 0
  let want := if g.dense then rows.length else min g.maxrows rows.length
  let n := min want fit
  let copy := s.mapCopy g s.frame
  let cur := s.le (g.map + 8) 1
  let prev := s.le (g.map + 9) 1
  let fresh := ((List.range 3).find? (fun c => c != cur && c != prev)).getD 0
  let eta := value 1 (get 0 s.etas (grpKey d k)).toNat
  let t := s.updates g
  let one : Val := .fin false 1 0
  let c1 := fsub one (powVal g.beta1 (f32 (natVal (t + 1))))
  let c2 := fsub one (powVal g.beta2 (f32 (natVal (t + 1))))
  let map := s.newMap g copy (rows.take n)
  let (s, x) := (rows.take n).foldl (fun (p : State × RunAcc) r => p.1.updRow g eta c1 c2 half copy p.2 r)
    (s, ⟨[], ⟨s.updGens d, Counts.zero, 0, 0⟩, 0⟩)
  let s := s.writeMem (g.map + 64 + fresh * g.mapsz) map false
  let s := s.setUpdGens d x.acc.gens
  let s := s.count 5 d 15 32 (4 * g.rows + n * (256 * g.rowb + 4 + 2 * g.slot) + 2 * g.mapsz + 128)
  let s := (s.count 2 d 0 32 x.acc.clipped).count 2 d 1 32 x.acc.bad
  let s := ((s.count 2 d 2 32 x.acc.counts.sat).count 2 d 3 32 x.acc.counts.flush).count 2 d 4 32 x.acc.counts.nan
  let s := s.count 2 d 7 32 (rows.length - n)
  let s := s.addTotals d engineAct x.acc.counts.sat x.acc.counts.flush x.acc.counts.nan
  let s := s.count 4 d 10 32 x.hits
  let s := if x.hits = 0 then s else s.event d UPD_EVENT_POISON
  let s := if n < want then s.event d UPD_EVENT_CARRY else s
  let s := s.setFld d UPD_ROWS_DONE_ROWS (s.fld d UPD_ROWS_DONE_ROWS + n)
  let s := s.setFld d UPD_ROWS_CARRY_ROWS (s.fld d UPD_ROWS_CARRY_ROWS + (rows.length - n))
  ({ s with grpRuns := s.grpRuns ++ [(d, ⟨k, s.frame, fresh, x.hits != 0, true, get 0 s.etas (grpKey d k), true⟩)] },
   cycles - g.scanCycles - n * g.rowCycles)

/-- A group's boundary with the engine off (R225): every row is carried. -/
def State.updIdle (s : State) (d k : Nat) : State :=
  let g := grpAt s.grpA d k
  let n := (s.markedRows g ((s.frame - g.phase) / g.uper % 2)).length
  let s := s.count 2 d 7 32 n
  let s := s.setFld d UPD_ROWS_CARRY_ROWS (s.fld d UPD_ROWS_CARRY_ROWS + n)
  { s with grpRuns := s.grpRuns ++ [(d, ⟨k, s.frame, 0, false, true, 0, false⟩)] }

/-- The groups of a die whose boundary is frame f, in ascending order. -/
def boundaryGroups (m : SMap (BitVec 1024)) (d f : Nat) : List Nat :=
  (m.filter (fun (k, e) => k / 1024 == d && (grpOf e).boundary f)).map (fun p => p.1 % 1024)

/-- Whether a group's run at this frame is recorded. -/
def State.ranAt (s : State) (d k : Nat) : Bool := s.grpRuns.any (fun p => p.1 == d && p.2.g == k && p.2.boundary == s.frame)

/-- The groups of a boundary run in turn (R226). -/
def State.updGroups (s : State) (d cycles : Nat) : List Nat → State
  | [] => s
  | k :: t =>
    if s.flag d UPD_CTRL_EN then
      let (s, c) := s.updGroup d k cycles
      s.updGroups d c t
    else (s.updIdle d k).updGroups d cycles t

/-- UPDATE_BOUNDARY (R218, R225, R226): once in a boundary frame, before its guard. -/
def execUpdateBoundary (die : Nat) (s : State) : Res :=
  let ks := (boundaryGroups s.grpA die s.frame).filter (fun k => !s.ranAt die k)
  done (
    if ks.isEmpty || s.guardOn then s
    else
      let s := (s.setFld die UPD_ROWS_DONE_ROWS 0).setFld die UPD_ROWS_CARRY_ROWS 0
      s.updGroups die (performCycles s.nominal (s.fld 0 CUR_CLK_CUR)) ks)

-- install or discard

/-- A group header written (R215). -/
def State.grpHeader (s : State) (g : Grp) (frame cur prev updates eta skips : Nat) : State :=
  let b := leBytes 8 frame ++ leBytes 1 cur ++ leBytes 1 prev ++ leBytes 2 0 ++ leBytes 4 updates ++ leBytes 4 eta ++
    leBytes 4 skips ++ leBytes 4 g.uper ++ leBytes 4 g.phase ++ leBytes 32 0
  s.writeMem g.map b false

/-- Whether a frame lies in the window of boundary b of a group (R217). -/
def Grp.inWindow (g : Grp) (b f : Nat) : Bool := decide (b ≤ f + g.uper) && decide (f < b)

/-- Why a group's candidate is discarded, as UPD_DISC.CAUSE codes it; 0 where it is installed (R223): a step is of the window in which its frame
lies, and of the one in which it was last replayed. -/
def State.discardCause (s : State) (g : Grp) (r : Option GrpRun) : Nat :=
  let b := s.frame
  let held (st : Step) : Bool := st.act == g.act && (st.phase == .held || st.phase == .replaying)
  if s.uncommitted.any (fun (a, f) => a == g.act && g.inWindow b f) ||
     s.steps.any (fun st => st.act == g.act && st.phase == .running && g.inWindow b st.frame) then 1
  else if s.steps.any (fun st => held st && (g.inWindow b st.frame || (st.rpl != 0 && g.inWindow b st.rpl))) then 2
  else
    match r with
    | some x => if x.poisoned then 3 else if x.allDone then 0 else 4
    | none => 4

/-- A group's boundary decided at the guard (R223, R225). -/
def State.updDecide (s : State) (d k : Nat) : State :=
  let g := grpAt s.grpA d k
  let r := (s.grpRuns.find? (fun p => p.1 == d && p.2.g == k && p.2.boundary == s.frame)).map Prod.snd
  let cur := s.le (g.map + 8) 1
  let t := s.updates g
  let eta := s.le (g.map + 0x10) 4
  let skips := s.le (g.map + 0x14) 4
  let off := match r with | some x => !x.installable | none => !s.flag d UPD_CTRL_EN
  if off then s.grpHeader g (s.frame + 1) cur cur t eta skips
  else
    match s.discardCause g r with
    | 0 =>
      let copy := match r with | some x => x.copy | none => cur
      let new := match r with | some x => x.eta.toNat | none => eta
      let s := s.grpHeader g (s.frame + 1) copy cur (t + 1) new skips
      (s.count 2 d 5 32 1).setFld d UPD_LAST_INSTALLED (s.fld d UPD_LAST_INSTALLED + 1)
    | c =>
      let s := s.grpHeader g (s.frame + 1) cur cur t eta (skips + 1)
      let s := (s.count 2 d 6 32 1).setFld d UPD_LAST_DISCARDED (s.fld d UPD_LAST_DISCARDED + 1)
      ((s.setFld d UPD_DISC_CAUSE c).setFld d UPD_DISC_GROUP k).event d UPD_EVENT_DISCARD

/-- Headers of groups that become valid at the swap of the next curtain (R225). -/
def State.newHeaders (s : State) (d : Nat) : State :=
  match s.swap with
  | some w =>
    if w.frame = s.frame + 1 then
      (s.grpS.filter (fun (k, e) => k / 1024 == d && (grpOf e).v && !(grpAt s.grpA d (k % 1024)).v)).foldl
        (fun s (_, e) => s.grpHeader (grpOf e) w.frame 0 0 0 0 0) s
    else s
  | none => s

/-- The update engine of a die at the guard band (R223, R225). -/
def State.updGuard (s : State) (d : Nat) : State :=
  let ks := boundaryGroups s.grpA d s.frame
  let s := if ks.isEmpty then s else (s.setFld d UPD_LAST_INSTALLED 0).setFld d UPD_LAST_DISCARDED 0
  let s := ks.foldl (fun s k => s.updDecide d k) s
  let s := { s with grpRuns := s.grpRuns.filter (fun (p : Nat × GrpRun) => p.1 != d) }
  s.newHeaders d

end Sys2Proof.Machine
end

