-- ==== Sys2Proof/Machine/BoxOffice.lean ====
section
/-! DEFINITION. The box office: capacities, reservations, the decision of requests, placement, the guard band with the breaches it
records, and holds (R38 to R59, R439). -/

namespace Sys2Proof.Machine

-- the settings set

/-- Keys of the registers that belong to the settings set (R60, R399): their shadow views stand at offset + 0x800. -/
def ssKeys : List Nat :=
  [dkey 0 0x1000C, dkey 0 0x120020] ++
  (List.range 8).flatMap (fun d =>
    [0x20004, 0x20008, 0x2000C, 0x20010, 0x20014, 0x20018, 0x20020, 0x20024, 0x20028, 0x2002C, 0x20030, 0x20034, 0x20038, 0x2003C,
     0xF0004, 0xF0008].map (dkey d))

/-- An active view and its shadow view exchanged. -/
def State.swapKey (s : State) (k : Nat) : State :=
  let a := s.rg k
  let b := s.rg (k + 0x800)
  (s.setRg k b).setRg (k + 0x800) a

/-- The active and the shadow set exchange roles (R402). -/
def State.exchange (s : State) : State :=
  let t := ssKeys.foldl State.swapKey s
  { t with actA := s.actS, actS := s.actA, asnA := s.asnS, asnS := s.asnA, grpA := s.grpS, grpS := s.grpA }

/-- Whether a pending swap takes effect at the next curtain. -/
def State.swapNext (s : State) : Bool :=
  match s.swap with
  | some w => w.frame == s.frame + 1
  | none => false

/-- The settings under which admissions for the next frame are computed (R55). -/
def State.nextSet (s : State) : State := if s.swapNext then s.exchange else s

/-- Whether an external curtain source is selected (R39). -/
def State.external (s : State) : Bool := let c := s.fld 0 CUR_CTRL_SRC; c == 1 || c == 2

/-- P_E of a frame that begins under these settings (R39). -/
def State.nominalLen (s : State) : Nat :=
  let p := s.fld 0 CUR_PERIOD_PERIOD
  if s.external then p * 999 / 1000 else p

-- the cast

/-- Site assignment word of a site (R400). -/
def State.asn (s : State) (site : Nat) : Nat := (get 0 s.asnA site).toNat

/-- The place of a replacement that has not been found: no site. -/
def noSite : Nat := 2048

/-- Whether a quarantined site's replacement has joined by an instant: at least 100 µs after the quarantine (R377). -/
def State.joined (s : State) (q at_ : Nat) : Option Nat :=
  (s.replaced.find? (fun (p : Nat × Nat × Nat) => p.1 == q && p.2.1 != noSite && decide (p.2.2 + 100000 ≤ at_))).map (fun p => p.2.1)

/-- The member that stands for a site of a cast set at a close: the site itself, its replacement, or none while it is absent
(R17, R377) or in safe mode (R108). -/
def State.standIn (s : State) (site at_ : Nat) : Option Nat :=
  let r := if !s.good site then none else if s.isQuar site then s.joined site at_ else some site
  r.filter (fun m => !s.safe m)

/-- Sites of a die in a cast set, whatever their state. -/
def State.castSites (s : State) (d c : Nat) : List Nat := (dieSites d).filter (fun st => bitOf (s.asn st) c)

/-- Members of an act's cast on a die, in ascending site index (R45, R377). -/
def State.members (s : State) (d act at_ : Nat) : List Nat :=
  let e := s.act act
  if actDies e d then ((s.castSites d (actCast e d)).filterMap (fun st => s.standIn st at_)).foldl setAdd [] else []

/-- Whether a member of an act's cast is absent (R378). -/
def State.castBroken (s : State) (act at_ : Nat) : Bool :=
  let e := s.act act
  (List.range 8).any (fun d =>
    actDies e d && (s.castSites d (actCast e d)).any (fun st => s.good st && (s.standIn st at_).isNone))

-- capacities

/-- HBM bytes a stack delivers in n ns: 1,433.6 a ns (R53). -/
def stackRate (n : Nat) : Nat := n * 7168 / 5

/-- Budgets: 0 cycles and 5 queue entries of a member, 1 HBM, 2 and 3 the narrow cut, 4 fabric, 6 egress. A budget's key. -/
def budKey (b site : Nat) : Nat := b * 2048 + site

/-- The capacity of a budget of a slice for a frame of p ns at a clock code (R53). -/
def State.capacity (s : State) (d b p code : Nat) : Nat :=
  let cut (share : Nat) : Nat := 1792 * clockTenths code * certWindow p * share / 655360
  match b with
  | 0 => performCycles p code
  | 1 => min (s.fld d BOX_HBM_CAP_CAP) (stackRate (certWindow p))
  | 2 => cut (s.fld d BOX_CUT_SHARE_EAST)
  | 3 => cut (s.fld d BOX_CUT_SHARE_WEST)
  | 4 => s.fld d BOX_FAB_CAP_CAP
  | 5 => s.fld d BOX_QENT_CAP_CAP
  | _ => s.fld d BOX_EGR_CAP_CAP

-- reservations

/-- The spanning acts of the active table in ascending order: number and entry. -/
def State.spanActs (s : State) : List (Nat × Nat) :=
  (s.actA.map (fun (a, e) => (a, e.toNat))).filter (fun (_, e) => actV e && actSpan e)

/-- A slice's counts for the spanning acts at a clock, the cut for cycles made (R48): act, entry, count of each slice. -/
def State.cycleCut (s : State) (cycles at_ : Nat) : List (Nat × Nat × List Nat) :=
  s.spanActs.map (fun (a, e) =>
    let r := (List.range 8).map (actResv e)
    let all := r.foldl (· + ·) 0
    let counts :=
      if s.castBroken a at_ ∨ cycles < actCycBatch e + actCycStep e then r.map (fun _ => 0)
      else if actCycStep e = 0 then r
      else
        let t := (cycles - actCycBatch e) / actCycStep e
        if all ≤ t then r else r.map (fun n => t * n / all)
    (a, e, counts))

/-- The largest count no greater than c whose batch and steps fit a capacity in one direction (R48). -/
def cutFit (c cap batch step : Nat) : Nat := if cap < batch then 0 else if step = 0 then c else min c ((cap - batch) / step)

/-- Narrow-cut charges of the spanning acts taken one after another, each slice's count cut to what is left (R48). -/
def cutCut (capE capW : Nat → Nat) : List (Nat × Nat × List Nat) → List (Nat × Nat × List Nat)
  | [] => []
  | (a, e, cs) :: t =>
    let c (d n : Nat) : Nat :=
      cutFit (cutFit n (capE d) (actCutBatch e) (actCutE e)) (capW d) (actCutBatch e) (actCutW e)
    let cs := (cs.zip (List.range 8)).map (fun (n, d) => c d n)
    let all : Nat := cs.foldl (· + ·) 0
    let used (cap step : Nat → Nat) (d : Nat) : Nat := if all = 0 then cap d else cap d - (actCutBatch e + step d)
    let at_ (d : Nat) : Nat := (cs[d]?).getD 0
    (a, e, cs) :: cutCut (used capE (fun d => at_ d * actCutE e)) (used capW (fun d => at_ d * actCutW e)) t

/-- The counts of the spanning acts for the next frame after both cuts (R48). -/
def State.spanCounts (s : State) (p code at_ : Nat) : List (Nat × Nat × List Nat) :=
  cutCut (fun d => s.capacity d 2 p code) (fun d => s.capacity d 3 p code) (s.cycleCut (performCycles p code) at_)

/-- HBM bytes that the update engine's groups of a die charge for a frame (R46, R226). -/
def grpCharge (m : SMap (BitVec 1024)) (d f : Nat) : Nat :=
  ((boundaryGroups m d f).map (fun k =>
    let g := grpAt m d k
    let n := if g.dense then g.rows else g.maxrows
    4 * g.rows + n * (256 * g.rowb + 4 + 2 * g.slot) + 2 * g.mapsz + 128)).foldl (· + ·) 0

-- a slice while it decides

/-- An open batch of the frame being admitted. -/
structure OpenBatch where
  act : Nat
  site : Nat
  streams : List Nat
  units : Nat
  deriving DecidableEq, Repr

/-- A slice while it decides: use of each budget, use by class, batches in the order opened, what is left of each spanning act's
count, and where its dealing stands. -/
structure Slice where
  die : Nat
  used : SMap Nat
  byClass : SMap Nat
  batches : List OpenBatch
  left : SMap Nat
  deal : SMap Nat
  codes : List Nat
  deriving DecidableEq, Repr

/-- Use of a budget added. -/
def Slice.use (x : Slice) (k n : Nat) : Slice := { x with used := put 0 x.used k (get 0 x.used k + n) }

/-- The spanning charges of a slice (R46): every member's cycles and queue entries, and the slice's own budgets. -/
def Slice.reserve (x : Slice) (s : State) (at_ : Nat) (r : Nat × Nat × List Nat) : Slice :=
  let (a, e, cs) := r
  let n := cs.foldl (· + ·) 0
  let c := (cs[x.die]?).getD 0
  if n = 0 then x
  else
    let ms := s.members x.die a at_
    let x := ms.foldl (fun x st =>
      (x.use (budKey 0 st) (actCycBatch e + n * actCycStep e)).use (budKey 5 st) (n * actQent e)) x
    let x := x.use (budKey 1 0) (actHbmSpanBatch e + n * actHbmSpanStep e + actHbmHomeBatch e + c * actHbmHomeStep e)
    let x := (x.use (budKey 2 0) (actCutBatch e + c * actCutE e)).use (budKey 3 0) (actCutBatch e + c * actCutW e)
    let x := (x.use (budKey 4 0) (actFabBatch e + c * actFabStep e)).use (budKey 6 0) (c * actEgr e)
    let bs := ms.map (fun st => (⟨a, st, [], 0⟩ : OpenBatch))
    { x with left := put 0 x.left a c, batches := x.batches ++ bs }

/-- Units of a step's stage slot (R79), rounded up to whole units. -/
def State.slotUnits (s : State) (x e : Nat) : Nat := 1 + s.channels x + s.ent x eStateUnits + cdiv (actEgr e - 64) 64

/-- The charges of a step in the order of the checks 7 to 12 of R52: budget key, amount, code. -/
def stepCharges (e site : Nat) (fresh : Bool) : List (Nat × Nat × Nat) :=
  let b (batch step : Nat) : Nat := if fresh then batch + step else step
  [(budKey 0 site, b (actCycBatch e) (actCycStep e), 0x3), (budKey 1 0, b (actHbmHomeBatch e) (actHbmHomeStep e), 0x4),
   (budKey 2 0, b (actCutBatch e) (actCutE e), 0x6), (budKey 3 0, b (actCutBatch e) (actCutW e), 0x7),
   (budKey 4 0, b (actFabBatch e) (actFabStep e), 0x8), (budKey 5 site, actQent e, 0x9), (budKey 6 0, actEgr e, 0xA)]

/-- The first check among charges that fails (R52): the class share first, then what is left. -/
def Slice.refusal (x : Slice) (cap : Nat → Nat) (share cls : Nat) : List (Nat × Nat × Nat) → Option Nat
  | [] => none
  | (k, n, code) :: t =>
    let c := cap (k / 2048)
    if share * c < (get 0 x.byClass (k * 8 + cls) + n) * 256 then some 0xB
    else if c < get 0 x.used k + n then some code
    else x.refusal cap share cls t

/-- A request's charges taken from every budget (R52). -/
def Slice.charge (x : Slice) (cls : Nat) (l : List (Nat × Nat × Nat)) : Slice :=
  l.foldl (fun x (k, n, _) =>
    { x.use k n with byClass := put 0 x.byClass (k * 8 + cls) (get 0 x.byClass (k * 8 + cls) + n) }) x

/-- The open batch that takes a step (R45): the fullest, then the lowest site, then the one opened first. -/
def Slice.openFor (x : Slice) (act u max size : Nat) : Option Nat :=
  let l := ((x.batches.zip (List.range x.batches.length)).filter (fun (b, _) =>
    b.act == act && decide (b.streams.length < max) && decide (b.units + u ≤ size)))
  match l with
  | [] => none
  | p :: t =>
    some (t.foldl (fun (m : OpenBatch × Nat) (q : OpenBatch × Nat) =>
      if m.1.streams.length < q.1.streams.length ∨
         (m.1.streams.length = q.1.streams.length ∧ q.1.site < m.1.site) then q else m) p).2

/-- The cast member with the most cycles left, the lowest site first (R45). -/
def Slice.freest (x : Slice) (ms : List Nat) : Option Nat :=
  match ms with
  | [] => none
  | m :: t =>
    some (t.foldl (fun a b => if get 0 x.used (budKey 0 b) < get 0 x.used (budKey 0 a) then b else a) m)

/-- A stream added to batch i. -/
def Slice.addTo (x : Slice) (i stream u : Nat) : Slice :=
  { x with batches := (x.batches.zip (List.range x.batches.length)).map (fun (b, j) =>
      if j = i then { b with streams := b.streams ++ [stream], units := b.units + u } else b) }

/-- A spanning step dealt to a lead (R47): the members tried in turn from where the dealing stands. -/
def Slice.dealTo (x : Slice) (act stream u size : Nat) (ms : List Nat) : Option (Slice × Nat) :=
  let n := ms.length
  let from_ := get 0 x.deal act
  let order := (List.range n).map (fun i => (from_ + i) % n)
  let fit (i : Nat) : Bool :=
    match ms[i]? with
    | some st => x.batches.any (fun b => b.act == act && b.site == st && decide (b.units + u ≤ size))
    | none => false
  match order.find? fit with
  | none => none
  | some i =>
    let st := (ms[i]?).getD 0
    match (x.batches.zip (List.range x.batches.length)).find? (fun (b, _) => b.act == act && b.site == st) with
    | none => none
    | some (_, j) => some ({ x.addTo j stream u with deal := put 0 x.deal act ((i + 1) % n) }, st)

-- the decision

/-- What a slice decides of one request: refused with a code, or placed on a member. -/
inductive Verdict where
  | refused (code : Nat)
  | placed (site : Nat)
  deriving DecidableEq, Repr

/-- A request as it is decided: its class with the host part raised to what the context may carry (R49). -/
def State.reqClass (s : State) (q : Req) : Nat :=
  let low := s.attr (s.ent q.stream eCtx) % 8
  let q := { q with host := q.host.map (fun (c, a, l, g) => (max c low, a, l, g)) }
  q.cls

/-- Whether every request of a die's slice is refused with 0xD for a reason outside the slice (R425, R430, R431, R436). -/
def State.boxShut (s : State) : Bool :=
  s.resetting != .none || s.fld 0 PWR_CTRL_PREQ == 1 || s.d3Pend != 0 || s.pcie.d3

/-- Free ledger records a close needs (R385). -/
def lgrRoom : Nat := 131072

/-- Whether a die's ledger keeps its slice from admitting (R385). -/
def State.lgrShut (s : State) (d : Nat) : Bool :=
  !s.flag d LGR_CTRL_EN || s.lgrOwing.contains d || decide (s.lgrFree d < lgrRoom)

/-- Whether a slice refuses every request of a close (R52 check 1, R385). -/
def State.sliceShut (s : State) (d : Nat) : Bool :=
  s.boxShut || !s.flag d BOX_CTRL_EN || !s.flag 0 CUR_STATUS_RUN || s.lgrShut d

/-- The tests of R52 on one request, v being the settings of the next frame. An act whose cast has no member on the home die fails check 6
(DESIGN CHOICE, log 49: the spec does not say where it fails). -/
def State.test (v : State) (x : Slice) (shut : Bool) (p code at_ : Nat) (q : Req) : Slice × Verdict :=
  let st := q.stream
  let a := v.actOfStream st
  let e := v.act a
  let cls := v.reqClass q
  let only := q.trig.isNone && q.cont.isNone
  let late := match q.host with | some (_, _, l, _) => decide (l < v.frame + 1) | none => false
  if shut then (x, .refused 0xD)
  else if only && late then (x, .refused 0xC)
  else if v.ent st eLife ≠ 1 ∨ v.doomed.contains st then (x, .refused 0x1)
  else if !actV e || !bitOf (actCtxMask e) (v.ent st eCtx) || v.heldActs.contains (x.die, a) then (x, .refused 0x2)
  else
    let ms := v.members x.die a at_
    let u := v.slotUnits st e
    let size := actStgSize e
    if actSpan e then
      if get 0 x.left a = 0 then (x, .refused 0x5)
      else
        match x.dealTo a st u size ms with
        | none => (x, .refused 0xE)
        | some (x, site) => ({ x with left := put 0 x.left a (get 0 x.left a - 1) }, .placed site)
    else if size < u then (x, .refused 0xE)
    else
      let cap (b : Nat) : Nat := v.capacity x.die b p code
      let share := v.fld x.die (BOX_CLASS_SHARE_SHARE cls)
      match x.openFor a u (actBatchMax e) size with
      | some i =>
        let site := ((x.batches[i]?).map OpenBatch.site).getD 0
        let l := stepCharges e site false
        match x.refusal cap share cls l with
        | some c => (x, .refused c)
        | none => ((x.charge cls l).addTo i st u, .placed site)
      | none =>
        match x.freest ms with
        | none => (x, .refused 0xE)
        | some site =>
          let l := stepCharges e site true
          match x.refusal cap share cls l with
          | some c => (x, .refused c)
          | none =>
            let x := x.charge cls l
            ({ x with batches := x.batches ++ [⟨a, site, [st], u⟩] }, .placed site)

/-- A host part whose LATEST has passed dropped from a merged request, its tag counted (R51). -/
def State.dropLate (s : State) (q : Req) : State × Req :=
  match q.host with
  | some (_, _, l, _) =>
    if l < s.frame + 1 ∧ (q.trig.isSome ∨ q.cont.isSome) then
      let r := { q with host := none }
      ({ s.count 0 (streamDie q.stream) 11 32 1 with reqs := s.reqs.map (fun y => if y.stream = q.stream then r else y) }, r)
    else (s, q)
  | none => (s, q)

/-- An accepted request becomes a step of the next frame (R31, R64). -/
def State.acceptReq (s : State) (q : Req) (site : Nat) : State :=
  let x := q.stream
  let ctx := s.ent x eCtx
  let tag := match q.host with | some (_, _, _, g) => g | none => 0
  let st : Step :=
    { stream := x
      act := s.actOfStream x
      frame := s.frame + 1
      ctx := ctx
      cls := s.reqClass q
      host := q.host.isSome
      tag := tag
      arrival := q.arrival
      req := q
      site := site
      phase := .accepted
      slot := 0
      suspect := 0
      tries := 0
      lastUnd := 0
      rpl := 0
      late := false
      reh := s.rehearsal ctx }
  let s := { s with reqs := s.reqs.filter (fun y => y.stream != x), steps := s.steps ++ [st] }
  let s := ((s.setEnt x ePend 0).setEnt x eAdm 1).setEnt x ePendAge 0
  s.lgrStep st 0 0

/-- A refused request (R31, R56, R64): PEND_AGE counts on from an earlier trigger that TTL retired (DESIGN CHOICE, log 54); recorded unless the
ledger is what refuses; dropped where it does not stay pending. -/
def State.refuseReq (s : State) (q : Req) (code : Nat) (unrecorded : Bool) : State :=
  let x := q.stream
  let ctx := s.ent x eCtx
  let age := min 15 (s.ent x ePendAge + 1)
  let ttl := s.ent x eTtl
  let s := s.setEnt x ePendAge age
  let only := q.trig.isNone && q.cont.isNone
  let s :=
    if unrecorded then s
    else s.lgrPush (streamDie x)
      (lgrRec 1 (s.rehearsal ctx) q.host.isSome ctx x 0 (s.actOfStream x) code (s.frame + 1))
  if only ∨ code = 0x1 ∨ (ttl ≠ 0 ∧ ttl ≤ age) then s.dropReq x
  else { s with reqs := s.reqs.map (fun y => if y.stream = x then { y with host := none } else y) }

/-- One request of a slice decided (R52). v is the settings of the next frame over the same requests and entries. -/
def State.decideOne (s : State) (x : Slice) (unrecorded shut : Bool) (p code at_ : Nat) (q : Req) : State × Slice :=
  let v := s.nextSet
  match v.test x shut p code at_ q with
  | (x, .refused c) => (s.refuseReq q c unrecorded, { x with codes := x.codes ++ [c] })
  | (x, .placed site) => (s.acceptReq q site, { x with codes := x.codes ++ [0] })

/-- Requests in the order a slice decides them: class, arrival, stream (R51). -/
def reqBefore (s : State) (a b : Req) : Bool :=
  let ka := s.reqClass a
  let kb := s.reqClass b
  decide (ka < kb) || (decide (ka = kb) &&
    (decide (a.arrival < b.arrival) || (decide (a.arrival = b.arrival) && decide (a.stream < b.stream))))

/-- A request put in its place in an ordered list. -/
def insertReq (s : State) (q : Req) : List Req → List Req
  | [] => [q]
  | a :: t => if reqBefore s q a then q :: a :: t else a :: insertReq s q t

/-- The requests that a slice has to decide at a close: those that arrived before it, of streams without an uncommitted step (R50,
R51). -/
def State.waiting (s : State) (d at_ : Nat) : List Req :=
  s.reqs.filter (fun q => streamDie q.stream == d && decide (q.arrival < at_) && (s.stepOf q.stream).isNone)

/-- The host parts that have passed dropped from the requests of a slice, before they are put in order (R51). -/
def State.dropPassed (s : State) (d at_ : Nat) : State := (s.waiting d at_).foldl (fun s q => (s.dropLate q).1) s

/-- The requests a slice decides at a close, in their order (R51). -/
def State.due (s : State) (d at_ : Nat) : List Req := (s.waiting d at_).foldl (fun l q => insertReq s q l) []

/-- Codes that count as refusals for capacity (BOX_EVENT.REFUSED). -/
def capacityCode (c : Nat) : Bool := (decide (3 ≤ c) && decide (c ≤ 0xB)) || c == 0xE

/-- A slice's counts of a close shown (BOX_ADMIT to BOX_EVENT). -/
def State.boxShow (s : State) (x : Slice) (hbmCap : Nat) : State :=
  let d := x.die
  let n (c : Nat) : Nat := (x.codes.filter (· == c)).length
  let s := s.setFld d BOX_ADMIT_COUNT (n 0)
  let s := s.setFld d BOX_REFUSE_COUNT (x.codes.length - n 0)
  let s := (List.range 16).foldl (fun s c => s.setCounter 1 d c (if c = 0 then 0 else n c)) s
  let s := s.setFld d BOX_HBM_LEFT_BYTES (hbmCap - get 0 x.used (budKey 1 0))
  let s := if x.codes.any capacityCode then s.event d BOX_EVENT_REFUSED else s
  s.event d BOX_EVENT_DONE

/-- A batch of a slice placed on its member for the next frame (R45, R57). -/
def State.placeBatch (s : State) (b : OpenBatch) (n : Nat) : State :=
  s.modCore b.site (fun c => { c with placed := c.placed ++ [⟨b.act, s.frame + 1, b.streams, n, false, 0⟩] })

/-- One slice's close (R46, R51, R52): its state and what it admitted. -/
def State.closeSlice (s : State) (d at_ p code : Nat) : State × Slice :=
  let v := s.nextSet
  let shut := s.sliceShut d
  let s := if s.lgrFree d < lgrRoom then s.event d LGR_EVENT_STOP else s
  let x : Slice := ⟨d, [], [], [], [], [], []⟩
  let x := (v.spanCounts p code at_).foldl (fun x r => x.reserve v at_ r) x
  let x := x.use (budKey 1 0) (grpCharge v.grpA d (s.frame + 1))
  let unrecorded := s.lgrShut d
  let s := s.dropPassed d at_
  let (s, x) := (s.due d at_).foldl (fun (y : State × Slice) q => y.1.decideOne y.2 unrecorded shut p code at_ q) (s, x)
  (s.boxShow x (v.capacity d 1 p code), x)

/-- Every slice's close in turn. -/
def State.closeAll (s : State) (at_ p code : Nat) : List Nat → State × List Slice
  | [] => (s, [])
  | d :: t =>
    let (s, x) := s.closeSlice d at_ p code
    let (s, l) := s.closeAll at_ p code t
    (s, x :: l)

/-- Every batch of the next frame placed (R45, R47): a spanning one runs for the module-wide count admitted, and on every member,
unless every slice refused everything (DEDUCED, log 36). -/
def State.placeAll (s : State) (xs : List Slice) (openAny : Bool) : State :=
  let bs := xs.flatMap Slice.batches
  let total (a : Nat) : Nat := ((bs.filter (fun b => b.act == a)).map (fun b => b.streams.length)).foldl (· + ·) 0
  bs.foldl (fun s b =>
    let span := actSpan (s.nextSet.act b.act)
    if span && !openAny then s else s.placeBatch b (if span then total b.act else b.streams.length)) s

/-- The instant of the close for the next frame (R39, R51). -/
def State.closeAt (s : State) : Nat := s.curtainAt + s.nominal - s.fld 0 BOX_CLOSE_CLOSE * 1000

/-- The close for the next frame, at its instant (R46 to R56, R66, R72, R342). The source by which the next frame's length is reckoned
(R39) is the one selected at the close, though a write may change it before the curtain (DESIGN CHOICE, log 49). -/
def State.close (s : State) (at_ : Nat) : State :=
  let s := { s with cbForce := [], rehOff := [], closedFor := s.frame + 1 }
  let s := { s with swap := s.swap.map (fun (w : Swap) => { w with closed := w.closed || decide (w.frame = s.frame + 1) }) }
  let p := s.nextSet.nominalLen
  let code := s.fld 0 CUR_CLK_NEXT
  let openAny := (List.range 8).any (fun d => !s.sliceShut d)
  let (s, xs) := s.closeAll at_ p code (List.range 8)
  let s := s.placeAll xs openAny
  let s := { s with doomed := [] }
  s.cbStreams.foldl State.heldClose s

/-- BOX_OFFICE_CLOSE (R51): once in a frame, at its instant. -/
def execBoxOfficeClose (at_ : Nat) (s : State) : Res :=
  let s := s.tick at_
  done (if s.flag 0 CUR_STATUS_RUN ∧ s.closedFor ≤ s.frame ∧ s.closeAt ≤ s.now then s.close s.closeAt else s)

-- holds and enables

/-- ACT_RELEASE (R59): the hold on an act ends; the slice admits it from its next close. Any requester may write the B field. -/
def execActRelease (_r : Requester) (die : Nat) (act : Nat) (s : State) : Res :=
  done { s with heldActs := s.heldActs.filter (fun p => !(p.1 == die && p.2 == act % 4096)) }

/-- The check of RESULT 7 on a die (R401): whether the HBM promised exceeds what the ingress limiter leaves. -/
def State.hbmPromised (s : State) (d : Nat) : Bool :=
  let w := certWindow (s.fld 0 CUR_PERIOD_PERIOD)
  decide (7168 * w * (1000 - s.fld d ALF_ING_HBM_RATE) <
    (s.fld d BOX_HBM_CAP_CAP + s.fld d CHK_RPL_HBM_CAP + s.fld d ITK_HBM_CAP_CAP) * 5000)

/-- A write of BOX_CTRL.EN (R439). -/
def State.boxEnable (s : State) (d : Nat) (v : Bool) : State :=
  if v && (List.range 8).any s.hbmPromised then s.event 0 PWR_EVENT_CFG
  else s.setFld d BOX_CTRL_EN (b2n v)

/-- BOX_ENABLE (R439). -/
def execBoxEnable (_r : Requester) (die : Nat) (v : Bool) (s : State) : Res := done (if die < 8 then s.boxEnable die v else s)

-- the guard band

/-- An act's certified total of a metered kind at a place. -/
def bump (l : List (Nat × Nat × Nat × Nat)) (act kind place n : Nat) : List (Nat × Nat × Nat × Nat) :=
  if n = 0 then l
  else if l.any (fun u => u.1 == act && u.2.1 == kind && u.2.2.1 == place) then
    l.map (fun u => if u.1 = act ∧ u.2.1 = kind ∧ u.2.2.1 = place then (act, kind, place, u.2.2.2 + n) else u)
  else l ++ [(act, kind, place, n)]

/-- Certified totals of one batch on its member (R44, R59). Places of the narrow cut are 1 eastward and 2 westward. -/
def batchTotals (e act site k : Nat) (n : Nat) (l : List (Nat × Nat × Nat × Nat)) : List (Nat × Nat × Nat × Nat) :=
  let d := dieOf site
  if actSpan e then
    let l := bump l act 4 site (n * actQent e)
    let l := bump l act 1 d (k * actHbmHomeStep e)
    let l := bump (bump l act 2 1 (k * actCutE e)) act 2 2 (k * actCutW e)
    bump (bump l act 3 d (k * actFabStep e)) act 5 d (k * actEgr e)
  else
    let l := bump l act 4 site (k * actQent e)
    let l := bump l act 1 d (actHbmHomeBatch e + k * actHbmHomeStep e)
    let l := bump (bump l act 2 1 (actCutBatch e + k * actCutE e)) act 2 2 (actCutBatch e + k * actCutW e)
    bump (bump l act 3 d (actFabBatch e + k * actFabStep e)) act 5 d (k * actEgr e)

/-- The totals that a spanning act's batch adds once on every die (R46). -/
def spanTotals (e act n : Nat) (l : List (Nat × Nat × Nat × Nat)) : List (Nat × Nat × Nat × Nat) :=
  (List.range 8).foldl (fun l d =>
    let l := bump l act 1 d (actHbmSpanBatch e + n * actHbmSpanStep e + actHbmHomeBatch e)
    let l := bump (bump l act 2 1 (actCutBatch e)) act 2 2 (actCutBatch e)
    bump l act 3 d (actFabBatch e)) l

/-- Certified totals of the batches placed for the running frame (R59). -/
def State.certTotals (s : State) : List (Nat × Nat × Nat × Nat) :=
  let ps := s.cores.flatMap (fun (site, c) =>
    (c.placed.filter (fun p => p.frame == s.frame && !p.replay)).map (fun p => (site, p)))
  let l := ps.foldl (fun l (site, p) => batchTotals (s.act p.act) p.act site p.streams.length p.n l) []
  s.spanActs.foldl (fun l (a, e) =>
    match ps.find? (fun (_, p) => p.act == a) with
    | some (_, p) => spanTotals e a p.n l
    | none => l) l

/-- The die at which a metered place stands, whose slice records the breach and holds the act (R59). Of the narrow cut it is the bridge's,
while what is certified and used is summed over the bridges of a direction (DESIGN CHOICE, log 49: the spec does not say which slice
records a breach of the cut). -/
def meterDie (kind place : Nat) : Nat := if kind = 4 then dieOf place else place

/-- Use of an act summed over the places that one certified total covers: the narrow cut by direction, the rest by place. -/
def State.useOf (s : State) (act kind place : Nat) : Nat :=
  ((s.used.filter (fun u => u.1 == act && u.2.1 == kind &&
    (if kind = 2 then u.2.2.1 % 4 == place % 4 else u.2.2.1 == place))).map (fun u => u.2.2.2)).foldl (· + ·) 0

/-- What was certified for an act at a place. -/
def State.certOf (s : State) (act kind place : Nat) : Nat :=
  let k := if kind = 2 then place % 4 else place
  ((s.admitted.find? (fun u => u.1 == act && u.2.1 == kind && u.2.2.1 == k)).map (fun u => u.2.2.2)).getD 0

/-- Metered use beyond the certificate recorded as breaches and the acts held (R59). -/
def State.breaches (s : State) : State :=
  s.used.foldl (fun s (a, kind, place, _) =>
    if s.certOf a kind place < s.useOf a kind place then s.breach (meterDie kind place) a kind else s) s

/-- Granules of a stack. -/
def stackGranules : Nat := Config.stackBytes / 64

/-- Whether a die's patrol scrubber reads an address in this guard band (R272). -/
def State.scrubs (s : State) (d a : Nat) : Bool :=
  stackIn d a 1 &&
  decide (((a - d * Config.stackBytes) / 64 + stackGranules - get 0 s.scrub d) % stackGranules < s.fld d HBC_SCRUB_RATE)

/-- A granule that the scrubber read (R269, R270, R272): one corrected is counted and written back; one beyond correction is poisoned
and reported. -/
def State.scrubbed (s : State) (d : Nat) (x : Scrubbed) : State :=
  if !s.scrubs d x.addr then s
  else
    match x.ecc with
    | .clean => s
    | .corrected => s.countFld d HBC_CE_CNT_COUNT 1
    | .uncorrectable => { s.ueAt d x.addr with poison := setAdd s.poison (x.addr / 64) }

/-- The patrol scrubber of a die in a guard band (R272): RATE granules read in ascending order, and its place moved on. -/
def State.scrubOn (s : State) (found : List Scrubbed) (d : Nat) : State :=
  if s.flag d HBC_SCRUB_EN then
    let s := found.foldl (fun s x => s.scrubbed d x) s
    let n := (get 0 s.scrub d + s.fld d HBC_SCRUB_RATE) % stackGranules
    { s with scrub := put 0 s.scrub d n }
  else s

/-- The guard band's start (R39, R59, R223, R272). Budgets hold from here to the curtain, between the bursts of a guard band that lasts
longer than the first as well (R57, R271; DESIGN CHOICE, log 49). -/
def State.guard (s : State) (found : List Scrubbed) : State :=
  let s := s.breaches
  let s := (List.range 8).foldl State.updGuard s
  let s := (List.range 8).foldl (fun s d => s.scrubOn found d) s
  { s with guardOn := true, refreshOn := true }

/-- GUARD_BAND_START (R39): once in a frame, 8 µs before its nominal end; `x` gives the instant and what the patrol scrubber meets (R272). -/
def execGuardBandStart (x : GuardTurn) (s : State) : Res :=
  let s := s.tick x.at_
  done (if s.flag 0 CUR_STATUS_RUN && !s.guardOn && decide (s.curtainAt + s.nominal - 8000 ≤ s.now) then s.guard x.found else s)

/-- Whether a refresh burst begins at an instant (R38, R271): at a whole millisecond after the curtain before the guard, or after the
guard's start in a frame that ends late. -/
def State.burstAt (s : State) (t : Nat) : Bool :=
  let n := t - s.curtainAt
  let g := s.nominal - 8000
  s.flag 0 CUR_STATUS_RUN && decide (s.curtainAt < t) &&
  ((decide (n < g) && n % 1000000 == 0) || (decide (g < n) && (n - g) % 1000000 == 0))

/-- REFRESH_BURST (R38, R57): 8 µs pass in which budgets hold. -/
def execRefreshBurst (at_ : Nat) (s : State) : Res :=
  let s := s.tick at_
  done (
    if s.burstAt at_ && decide (s.now = at_) && !s.refreshOn then
      let t := { s with refreshOn := true }
      let t := t.tick (at_ + 8000)
      { t with refreshOn := false }
    else s)

end Sys2Proof.Machine
end

