-- ==== Sys2Proof/Machine/Curtain.lean ====
section
/-! DEFINITION. The curtain: its sources, what happens at it, roles of sites at a swap, the power account and the clock of the next
frame (R32 to R37, R42, R113, R377, R402, R426 to R428, R430, R431, R447). -/

namespace Sys2Proof.Machine

-- roles

/-- Whether a site stands in a cast set of the active set. -/
def State.cast (s : State) (site : Nat) : Bool := s.asn site % 65536 != 0

/-- Whether a site is named an understudy by the active set (R400). -/
def State.named (s : State) (site : Nat) : Bool := s.asn site / 2 ^ 30 == 2

/-- Replacements that stand under the active set, and those still owed for members of it (R377). -/
def State.keptReplacements (s : State) : List (Nat × Nat × Nat) :=
  s.replaced.filter (fun (q, r, _) =>
    (s.cast q || s.replaced.any (fun (p : Nat × Nat × Nat) => r == noSite && p.2.1 == q && s.cast p.1)) && !s.named r && !s.cast r)

/-- The understudies that the active set gives a die (R113, R400). -/
def State.chosen (s : State) (d : Nat) : List Nat :=
  let free (st : Nat) : Bool := s.good st && !s.isQuar st
  if (dieSites d).any s.named then (dieSites d).filter (fun st => s.named st && free st)
  else
    let l := (dieSites d).filter (fun st => free st && !s.cast st && !s.replaced.any (fun (_, r, _) => r == st))
    l.drop (l.length - s.fld 0 CFG_SS_UND_COUNT)

/-- A site made an understudy: it stays halted, outside safe mode (R371), once no batch runs on it. -/
def State.makeUnderstudy (s : State) (st : Nat) : State :=
  let s := s.modCore st (fun c => { c with role := .understudy })
  if (s.core st).batch.isNone then threads.foldl (fun s t => s.haltThread st t) s else s

/-- The roles of a die's good sites under the active set; a quarantined site stays so (R114). -/
def State.assignDie (s : State) (d : Nat) : State :=
  let us := s.chosen d
  ((dieSites d).filter (fun st => s.good st && !s.isQuar st)).foldl (fun s st =>
    if us.contains st then
      (if (s.core st).role == .understudy then s else s.makeUnderstudy st).setSafe st false
    else s.modCore st (fun c => { c with role := .worker })) s

/-- Understudies with nothing to replay stay halted (R371): those whose replays are over are halted at the curtain (log 39). -/
def State.restUnderstudies (s : State) : State :=
  s.cores.foldl (fun s (st, c) =>
    if c.role = .understudy ∧ c.batch.isNone ∧ c.placed.isEmpty then threads.foldl (fun s t => s.haltThread st t) s else s) s

/-- Replacements and roles under the active set (R113, R377, R403). -/
def State.assignRoles (s : State) : State :=
  let s := { s with replaced := s.keptReplacements }
  (List.range 8).foldl State.assignDie s

-- the execution domain

/-- Every step with an ACCEPTED or HELD record and no outcome recorded DARK with cause 0x22, its request presented again (R384,
R431). -/
def State.darkAll (s : State) : State := s.steps.foldl (fun s st => s.darkStep st 0x22) s

/-- The DARK records that a soft reset owes (R384, R436): made at the first curtain after its start, or when it completes, if that comes first
(log 38). -/
def State.softExec (s : State) : State := if s.softOwed then { s.darkAll with softOwed := false } else s

/-- D3hot at a curtain (R431): at the second after the entry the steps go DARK, the execution domain is powered down and the
stacks enter self-refresh. -/
def State.d3Curtain (s : State) : State :=
  match s.d3Pend with
  | 2 => { s with d3Pend := 1 }
  | 1 =>
    let s := s.darkAll.execReset
    { s with
      d3Pend := 0
      pcie := { s.pcie with d3 := true }
      execOff := true
      selfRefresh := true }
  | _ => s

-- the power manager

/-- The power limit in force (PWR_LIMIT): values outside 600 to 1,300 W act as the nearer end. -/
def State.pwrLimit (s : State) : Nat := max 600 (min 1300 (s.fld 0 PWR_LIMIT_WATTS))

/-- Whether the excursion account holds less than 2 x CUR_PERIOD (R426). -/
def State.lowAccount (s : State) : Bool := decide (s.exc < 9 * (2 * s.fld 0 CUR_PERIOD_PERIOD))

/-- PWR_STATUS.LIMIT follows the account; the event is set when it becomes 1 (R426). -/
def State.limitFlag (s : State) : State :=
  let low := s.lowAccount
  let was := s.flag 0 PWR_STATUS_LIMIT
  let s := s.setFld 0 PWR_STATUS_LIMIT (b2n low)
  if low && !was then s.event 0 PWR_EVENT_LIMIT else s

/-- The input power summed to this instant, in tenths of a watt times ns: a sample stands until the next (R410, R426; log 11). -/
def State.sumPower (s : State) : State :=
  { s with
    wattSum := s.wattSum + s.sensors.watts * (s.now - s.wattAt)
    wattAt := s.now }

/-- The account and the measurements at the curtain that ends a frame of len ns, from the input power averaged over it (R426, R440). The account is
kept in ninths of a ns, so that a ninth of a frame is exact; PWR_EXC shows whole µs. -/
def State.account (s : State) (len : Nat) : State :=
  let s := s.sumPower
  let hot := decide (s.pwrLimit * 10 * len < s.wattSum)
  let x := if hot then s.exc - 9 * len else min 90000000 (s.exc + len)
  let t := { s with
    exc := x
    wattSum := 0 }
  let t := t.setFld 0 PWR_EXC_US (x / 9000)
  let t := t.setFld 0 PWR_MEAS_WATTS (min 65535 (s.wattSum / (10 * max 1 len)))
  t.setFld 0 PWR_MEAS_VIN (min 65535 s.sensors.vin)

/-- Ceiling of a clock step in W (R426). -/
def ceilingOf (code : Nat) : Nat :=
  match code with
  | 0 => 1560
  | 1 => 1440
  | 2 => 1330
  | 3 => 1240
  | 4 => 1050
  | _ => 880

/-- The hottest of a list of temperatures in tenths of a degree. -/
def hottest (l : List Int) : Int := l.foldl max 0

/-- Whether a temperature caps the clock at 1.0 GHz by the fourth row of R427. -/
def State.tooHot (s : State) : Bool :=
  decide (1050 ≤ hottest s.sensors.dieTemp) || decide (950 ≤ hottest s.sensors.stackTemp)

/-- The least code that temperature permits (R427). -/
def State.tempCap (s : State) : Nat :=
  let cur := s.fld 0 CUR_CLK_CUR
  let t := hottest s.sensors.dieTemp
  let a := if s.tooHot then 5 else if 1000 ≤ t then min 5 (cur + 1) else if 950 ≤ t then cur else cur - 1
  let b := if 450 < s.sensors.inlet then 5 else if 400 < s.sensors.inlet then 3 else 0
  max a b

/-- Whether a code's ceiling is allowed (R426, R428). -/
def State.ceilingOk (s : State) (code : Nat) : Bool :=
  decide (ceilingOf code ≤ s.pwrLimit) || (!s.lowAccount && !s.overpower)

/-- The step chosen for the next frame (R426 to R428); where no step meets the limit, the lowest (DEDUCED, log 38). -/
def State.chooseStep (s : State) : Nat :=
  let low := max s.tempCap (s.fld 0 CUR_CLK_CAP)
  (((List.range 6).filter (fun c => decide (low ≤ c) && s.ceilingOk c)).head?).getD 5

/-- CLOCK_FIX (R42): once in a frame, BOX_CLOSE + 20 µs before its nominal end. -/
def execClockFix (at_ : Nat) (s : State) : Res :=
  let s := s.tick at_
  done (
    if s.flag 0 CUR_STATUS_RUN && !s.clockFixed && decide (s.closeAt - 20000 ≤ s.now) then
      let s := s.setFld 0 CUR_CLK_NEXT s.chooseStep
      let s := if s.tooHot then (s.event 0 PWR_EVENT_HOT).logRec 818 0 0x7FF 0xFFFFFFFF 1 0 else s
      { s with clockFixed := true, overpower := false }
    else s)

-- the curtain

/-- What the ended frame's running counts show from this curtain on (R87, R257, R268, R259), and the counts cleared. -/
def State.showFrame (s : State) (d : Nat) : State :=
  let s := s.setFld d HBC_BYTES_BYTES (s.counter 5 d 15)
  let s := s.setFld d HBC_MERGED_COUNT (s.counter 5 d 14)
  let s := if d = 1 ∨ d = 5 then s.setFld d MSH_CUT_E_BYTES (s.counter 7 d 0) else s
  let s := if d = 2 ∨ d = 6 then s.setFld d MSH_CUT_W_BYTES (s.counter 7 d 0) else s
  let s := s.setFld d SD_STAGED_COUNT (s.counter 6 d 0)
  let s := s.setFld d SD_STRUCK_COMMIT (s.counter 6 d 1)
  let s := s.setFld d SD_STRUCK_HELD (s.counter 6 d 2)
  [(5, 15), (5, 14), (7, 0), (6, 0), (6, 1), (6, 2)].foldl (fun s (p : Nat × Nat) => s.setCounter p.1 d p.2 0) s

/-- Every rate limiter that is not full brought to this instant, so that the next frame's clock counts from here (R318). -/
def State.rebaseAll (s : State) : State :=
  let s := s.cores.foldl (fun s (site, c) =>
    let s := if c.chans[0].credit.isNone then s else s.settleCredit (.core site 0)
    if c.chans[1].credit.isNone then s else s.settleCredit (.core site 1)) s
  s.bdma.foldl (fun s (k, c) => if c.credit.isNone then s else s.settleCredit (.bulk (k / 16) (k % 16))) s

/-- A pending swap takes effect at the curtain of its frame (R36, R402, R377). -/
def State.takeSwap (s : State) : State :=
  if s.swapNext then
    let s := s.exchange
    let s := { s with swap := none, loadErr := [] }
    (s.setFld 0 CFG_SS_STATUS_PEND 0).assignRoles
  else s

/-- P1 entered at the first curtain after which no step is without an outcome: every core is clock-gated (R430). -/
def State.p1Curtain (s : State) : State :=
  if s.fld 0 PWR_CTRL_PREQ == 1 && s.steps.isEmpty && s.fld 0 PWR_STATUS_STATE == 0 && s.resetting == .none then
    { s with clkGated := true }.setFld 0 PWR_STATUS_STATE 1
  else s

/-- Curtain n + 1 at its instant, the time base standing there (R36). -/
def State.raiseCurtain (s : State) : State :=
  let len := s.now - s.curtainAt
  let s := s.softExec
  let s := (List.range 8).foldl State.lgrCurtain s
  let s := (List.range 8).foldl State.showFrame s
  let s := s.rebaseAll
  let s := s.takeSwap.restUnderstudies
  let s := s.account len
  let s := { s with
    frame := s.frame + 1
    curtainAt := s.now
    numTot := []
    used := []
    rplUsed := []
    guardOn := false
    refreshOn := false
    edgeAt := none
    clockFixed := false }
  let s := s.setFld 0 CUR_CLK_CUR (s.fld 0 CUR_CLK_NEXT)
  let s := { s with nominal := s.nominalLen }
  let s := s.limitFlag
  let s := { s with admitted := s.certTotals }
  let s := s.schedule
  let s := (List.range 8).foldl State.itkCurtain s
  let s := (List.range 8).foldl (fun s d => s.addReq d 31) s
  let s := s.d3Curtain.p1Curtain
  if s.flag 0 CUR_CTRL_OUT_EN && !s.pinsTaken then s.emit .curtainOut else s

/-- The curtain after the running frame falls at instant c, or at once where c has passed; src is the source that issues it. -/
def State.curtainFalls (s : State) (c src : Nat) : State := ((s.tick c).setFld 0 CUR_STATUS_ACT_SRC src).raiseCurtain

-- sources

/-- The last instant of the window of an external edge's curtain (R33), in whole ns: a fraction is dropped (DESIGN CHOICE, log 54). -/
def State.windowEnd (s : State) : Nat := s.curtainAt + s.fld 0 CUR_PERIOD_PERIOD * 1001 / 1000

/-- A curtain on the locked external source: the miss count returns to 0 (R33, R34). -/
def State.lockedCurtain (s : State) (c src : Nat) : State :=
  let t := { s with curMode := .locked }
  (t.setFld 0 CUR_STATUS_MISS_CNT 0).curtainFalls c src

/-- CURTAIN (R32, R35, R361): an internal curtain, CUR_PERIOD after the one before it, or the curtain of an accepted time mark. -/
def execCurtain (at_ : Nat) (s : State) : Res :=
  let c := s.curtainAt + s.fld 0 CUR_PERIOD_PERIOD
  done (
    match s.edgeAt with
    | some e => if s.flag 0 CUR_STATUS_RUN && decide (e ≤ at_) then (s.lockedCurtain e 2).tick at_ else s.tick at_
    | none =>
      if s.flag 0 CUR_STATUS_RUN && (s.curMode == .internal || s.curMode == .fallback) && decide (c ≤ at_) then
        (s.curtainFalls c 0).tick at_
      else s.tick at_)

/-- What becomes of an edge of the selected external source whose curtain would fall at c (R33, R34). -/
inductive EdgeRes where
  | early
  | taken
  | ignored
  deriving DecidableEq, Repr

/-- An edge judged (R33, R34). In fallback, and once a mark has been accepted for the frame, every edge is ignored. -/
def State.judgeEdge (s : State) (src c : Nat) : EdgeRes :=
  let early := decide (c < s.curtainAt + s.nominal)
  if !s.flag 0 CUR_STATUS_RUN || s.fld 0 CUR_CTRL_SRC != src || s.edgeAt.isSome then .ignored
  else
    match s.curMode with
    | .locked => if early then .early else if c ≤ s.windowEnd then .taken else .ignored
    | .acquiring =>
      if early then .early else if c ≤ s.curtainAt + 2 * s.fld 0 CUR_PERIOD_PERIOD then .taken else .ignored
    | _ => .ignored

/-- Whether a pulse's rising edge passes the deglitch filter (R445, R447): the pin has been low for 200 ns since the last edge that did, and stays
high for 200 ns. -/
def Pulse.qualifies (p : Pulse) (armed : Bool) : Bool := (armed || decide (200 ≤ p.low)) && decide (200 ≤ p.high)

/-- Whether the filter is ready for another edge after a pulse. -/
def Pulse.rearms (p : Pulse) (armed : Bool) : Bool := (armed || decide (200 ≤ p.low)) && !decide (200 ≤ p.high)

/-- CURTAIN_IN_EDGE (R32, R33, R34, R445): a qualifying edge brings its curtain 200 ns later; a pulse that does not qualify is ignored. -/
def execCurtainInEdge (p : Pulse) (s : State) : Res :=
  let s := s.tick p.at_
  let ok := !s.pinsTaken && Pulse.qualifies p s.pins.curArmed
  let t := if s.pinsTaken then s else { s with pins := { s.pins with curArmed := Pulse.rearms p s.pins.curArmed } }
  done (match (if ok then t.judgeEdge 1 (p.at_ + 200) else .ignored) with
    | .early => t.event 0 CUR_EVENT_PERIOD_ERR
    | .taken => t.lockedCurtain (p.at_ + 200) 1
    | .ignored => t)

/-- The source given up for internal curtains (R33, R34). -/
def State.fallBack (s : State) : State :=
  let t := { s with curMode := .fallback }
  ((t.setFld 0 CUR_STATUS_FALLBACK 1).setFld 0 CUR_STATUS_ACT_SRC 0).event 0 CUR_EVENT_FALLBACK

/-- An expected time mark that did not arrive (ALF_EVENT.MARK_MISS, R361). -/
def State.markMissed (s : State) : State :=
  if s.fld 0 CUR_CTRL_SRC = 2 then
    (List.range 8).foldl (fun s d => if s.flag d ALF_TIME_RECV then s.event d ALF_EVENT_MARK_MISS else s) s
  else s

/-- FLYWHEEL_CURTAIN (R33): the end of the window without a qualifying edge; the third miss in a row falls back. -/
def execFlywheelCurtain (at_ : Nat) (s : State) : Res :=
  done (
    if s.flag 0 CUR_STATUS_RUN && s.curMode == .locked && s.edgeAt.isNone && decide (s.windowEnd ≤ at_) then
      let s := s.markMissed.curtainFalls s.windowEnd (s.fld 0 CUR_CTRL_SRC)
      let n := s.fld 0 CUR_STATUS_MISS_CNT + 1
      let s := (s.setFld 0 CUR_STATUS_MISS_CNT n).event 0 CUR_EVENT_MISS
      (if 3 ≤ n then s.fallBack else s).tick at_
    else s.tick at_)

/-- ACQUISITION_TIMEOUT (R34): no edge within 2 x CUR_PERIOD; an internal curtain falls and the source is given up. -/
def execAcquisitionTimeout (at_ : Nat) (s : State) : Res :=
  let c := s.curtainAt + 2 * s.fld 0 CUR_PERIOD_PERIOD
  done (
    if s.flag 0 CUR_STATUS_RUN && s.curMode == .acquiring && s.edgeAt.isNone && decide (c ≤ at_) then
      ((s.curtainFalls c 0).fallBack).tick at_
    else s.tick at_)

/-- Acquisition of an external source begun, or the internal source taken (R34, R35). -/
def State.setMode (s : State) (m : CurMode) : State :=
  let t := { s with curMode := m, edgeAt := none }
  (t.setFld 0 CUR_STATUS_MISS_CNT 0).setFld 0 CUR_STATUS_FALLBACK 0

/-- A write of CUR_CTRL.ARM (R34). -/
def State.rearm (s : State) : State := if s.flag 0 CUR_STATUS_FALLBACK then s.setMode .acquiring else s

/-- ARM (R34). Any requester may write the B field. -/
def execArm (_r : Requester) (s : State) : Res := done s.rearm

/-- A write of CUR_CTRL.SRC (R32, R35). -/
def State.setSource (s : State) (src : Nat) : State :=
  if src = s.fld 0 CUR_CTRL_SRC ∨ 3 ≤ src then s
  else
    let s := s.setFld 0 CUR_CTRL_SRC src
    s.setMode (if src = 0 then .internal else .acquiring)

/-- SOURCE_SWITCH (R32, R35). -/
def execSourceSwitch (_r : Requester) (src : Nat) (s : State) : Res := done (s.setSource src)

/-- PPS_EDGE (R447): deglitched as CURTAIN_IN is, a qualifying edge has the time base captured at its own instant (DEDUCED, log 38). -/
def execPpsEdge (p : Pulse) (s : State) : Res :=
  let s := s.tick p.at_
  done (
    if s.pinsTaken then s
    else
      let t := { s with pins := { s.pins with ppsArmed := Pulse.rearms p s.pins.ppsArmed } }
      if Pulse.qualifies p s.pins.ppsArmed then t.setRg64 (dkey 0 CUR_PPS_LO_TIME.off) s.now else t)

end Sys2Proof.Machine
end

