-- ==== Sys2Proof/Machine/Director.lean ====
section
/-! DEFINITION. The stream directors: staging of batches, the strike, the audit draw and the hold, and the placement and staging of
replays (R79 to R82, R364, R368 to R373). -/

namespace Sys2Proof.Machine

-- staging

/-- The context of an act's batch: the lowest of its context mask (DEDUCED, log 39). -/
def actCtx (e : Nat) : Nat := lowBit 64 (actCtxMask e)

/-- Set index of the blocks staged for a stream (R79). -/
def State.stagedSet (s : State) (x : Nat) : Nat :=
  let h := s.ent x eBufHead
  let n := s.ent x eBufSets
  if s.ent x eBufFill = 0 ∧ s.ent x eSeen = 1 then (h + n - 1) % n else h

/-- Whether any block of staged blocks has a bit set in the 16-bit mask at off (R79). -/
def maskSet (blocks : List Byte) (n off : Nat) : Bool :=
  (List.range n).any (fun c => recLe blocks (64 * c + off) 2 != 0)

/-- FLAGS of a slot's header (R79). -/
def State.slotFlags (s : State) (x : Nat) (blocks : List Byte) : Nat :=
  let n := s.channels x
  b2n (s.ent x eStale == 1) + 2 * b2n (maskSet blocks n 0x24) + 4 * b2n (maskSet blocks n 0x22) +
    8 * b2n (s.ent x eStepCnt == 0)

/-- A slot's header (R79). -/
def State.slotHeader (s : State) (st : Step) (blocks : List Byte) : List Byte :=
  let x := st.stream
  leBytes 4 x ++ leBytes 2 st.act ++ leBytes 1 (s.slotFlags x blocks) ++ leBytes 1 (s.channels x) ++ leBytes 8 st.frame ++
  leBytes 4 (s.ent x eStepCnt) ++ leBytes 2 (s.ent x eSampNew) ++ leBytes 2 (s.stagedSet x) ++ leBytes 1 (s.ent x eBufFill) ++
  leBytes 1 0 ++ leBytes 2 (s.ent x eStateUnits) ++ leBytes 4 0 ++ leBytes 8 (s.ent x eBufAddr) ++ leBytes 8 st.tag ++
  leBytes 8 st.arrival ++ leBytes 8 0

/-- What a staging read brings: the bytes, an address fault, or poison (R80). -/
inductive StageRes where
  | ok (b : List Byte)
  | fault
  | poison
  deriving DecidableEq, Repr

/-- A staging read by a die's stream director, as it fares on its way. -/
def State.stageRead (s : State) (act : Option Nat) (d a n : Nat) (what : Arrival) : State × StageRes :=
  match s.ringRead act d a n what with
  | (s, none) => (s, .fault)
  | (s, some (b, p)) => (s, if p then .poison else .ok b)

/-- Sample blocks read by a die's stream director: HBM bytes outside the certificate (R53, R78), on a way over the mesh that counts for the
act (R23). -/
def State.sampleRead (s : State) (act : Option Nat) (d a n : Nat) : State × StageRes :=
  if hbmIn a n then
    let s := (s.charge a n false).carry act (s.homeDie a) d n
    (s, if s.poisoned a n then .poison else .ok (s.bytes a n))
  else (s.ringMissed d a n, .fault)

/-- The act that the stream director's traffic for a step counts for (R23, R59): none for a replay, which falls under R372. -/
def Step.payer (st : Step) (replay : Bool) : Option Nat := if replay then none else some st.act

/-- The header and blocks of a slot: from the entry and its sample area, or from the hold record of a replay (R79, R370). -/
def State.stageFront (s : State) (st : Step) (replay : Bool) : State × StageRes :=
  let x := st.stream
  let d := streamDie x
  let n := 64 * s.channels x
  if replay then
    match s.stageRead none d (s.holdAddr x + 0x40) (64 + n) .ok with
    | (s, .ok b) => (s, .ok (b.take 6 ++ leBytes 1 (setBits (recLe b 6 1) 4 1 1) ++ b.drop 7))
    | r => r
  else if s.ent x eSeen = 0 then
    let b := List.replicate n 0
    (s, .ok (s.slotHeader st b ++ b))
  else
    match s.sampleRead (st.payer replay) d (s.blockAddr x (s.stagedSet x) 0) n with
    | (s, .ok b) => (s, .ok (s.slotHeader st b ++ b))
    | r => r

/-- A step lost at staging (R80): the fault recorded, the step aborted. -/
def State.stageLost (s : State) (st : Step) (poison : Bool) : State :=
  let d := streamDie st.stream
  let s := s.setFld d SD_FAULT_STREAM st.stream
  if poison then ((s.event d SD_EVENT_POISON).count 4 d 10 32 1).abortStep st 0x04
  else (s.event d SD_EVENT_ADDR_FAULT).abortStep st 0x03

/-- What the way of a slot over the mesh to its member does to it (R253, R254): the first granule poisoned by a parity error in its payload; no
answer, as to an address fault (DESIGN CHOICE, log 49). The state body read from another die's stack meets an error there instead. -/
def State.slotWay (s : State) (d site off half : Nat) (what : Arrival) : State × Bool :=
  if ringAcross d half then (s, false)
  else
    match what with
    | .parity => ({ s.meshParity d with poison := setAdd s.poison ((padBase site + off) / 64) }, false)
    | .busError => (s.meshTimedOut d (padBase site + off), true)
    | _ => (s, false)

/-- One step staged at offset off of a member's scratchpad (R64, R79, R80), as its state body or its slot fares on its way: the slot, unless the
step is lost. Where the scratchpad refuses the slot (R229, R240) it is lost as to an address fault (DESIGN CHOICE, log 49). -/
def State.stageOne (s : State) (site : Nat) (replay : Bool) (off : Nat) (what : Arrival) (st : Step) : State × Option SlotRec :=
  let x := st.stream
  let d := streamDie x
  let n := s.channels x
  let u := s.ent x eStateUnits
  let half := s.halfAddr x (s.ent x eHalf)
  let (s, a) := s.stageFront st replay
  let (s, b) := s.stageRead (st.payer replay) d half (64 * u) what
  let room := s.egrRoom st.act
  let (s, bad) := s.directorPad (st.payer replay) d site off (64 * (1 + n + u) + room) true
  match a, if bad then .fault else b with
  | .ok front, .ok body =>
    let s := s.padWrite site off (front ++ body ++ List.replicate room 0) false
    let (s, lost) := s.slotWay d site off half what
    if lost then (s.stageLost st false, none)
    else
    let s :=
      if replay then s.modStep x (fun y => { y with phase := .replaying })
      else
        let s := ((s.setEnt x eAdm 0).setEnt x eRun 1).setEnt x eSampNew 0
        s.modStep x (fun y => { y with phase := .running })
    let s := s.count 6 d 0 16 1
    (s, some
      { stream := x
        off := off
        len := 64 * (1 + n + u) + room
        nchan := n
        units := u
        ended := false
        payload := 0
        cont := false
        struck := false
        suspect := if replay then 0 else st.suspect })
  | .fault, _ => (s.stageLost st false, none)
  | _, .fault => (s.stageLost st false, none)
  | _, _ => (s.stageLost st true, none)

/-- The steps of a batch staged one after another from offset off (R80); `what` is what the first meets. -/
def State.stageAll (s : State) (site : Nat) (replay : Bool) (off : Nat) (what : Arrival) : List Step → State × List SlotRec
  | [] => (s, [])
  | st :: t =>
    match s.stageOne site replay off what st with
    | (s, none) => s.stageAll site replay off .ok t
    | (s, some r) =>
      let (s, l) := s.stageAll site replay (off + cdiv r.len 64 * 64) .ok t
      (s, r :: l)

/-- Threads of an understudy set running again for a replay (R371): those whose HALT bit in the act's core image is 0. -/
def State.wakeUnderstudy (s : State) (site act : Nat) : State :=
  let ctrl := s.le (actImg (s.act act) + 4) 4
  threads.foldl (fun s t => if bitOf ctrl t.val then s else s.resumeThread site t) s

/-- The steps of a placed batch that still stand. -/
def State.stepsOf (s : State) (p : Placed) : List Step :=
  p.streams.filterMap (fun x => (s.stepOf x).filter (fun st =>
    st.act == p.act && st.phase == (if p.replay then StepPhase.held else StepPhase.accepted)))

/-- Room claimed in the stage area of a member for a batch (R80, R238): the first unit; none while there is none. -/
def State.stageRoom (s : State) (site k n : Nat) : Option (State × Nat) :=
  if n = 0 then some (s, s.cfld site (CR_CFG_BASE k))
  else if s.cflag site (CR_CFG_EN k) && s.cfld site (CR_CFG_OWNER k) == 2 then
    match s.crClaim site k n with
    | (s, some u) => some (s, s.cfld site (CR_CFG_BASE k) + u)
    | _ => none
  else none

/-- The budget of a placed batch (R57). -/
def State.budgetOf (s : State) (p : Placed) : Nat :=
  let e := s.act p.act
  min (2 ^ 32 - 1) (actCycBatch e + p.n * actCycStep e)

/-- A placed batch with its slots staged, n units claimed for them. -/
def State.readyOf (s : State) (p : Placed) (base n : Nat) (slots : List SlotRec) : Ready :=
  { run :=
      { act := p.act
        frame := p.frame
        ctx := actCtx (s.act p.act)
        replay := p.replay
        home := p.home
        slots := slots
        claimed := n
        started := false
        num0 := [] }
    base := base
    bud := s.budgetOf p }

/-- A staged batch begun on a member (R57, R80, R151, R209, R247): its budget and stage registers loaded, its cache emptied, the stage cue
signalled. -/
def State.beginBatch (s : State) (site : Nat) (q : Ready) : State :=
  let nums (c : Core) := threads.map (fun t => (c.th[t].numSat.toNat, c.th[t].numFlush.toNat, c.th[t].numNan.toNat))
  let s := s.modCore site (fun c =>
    { c with
      batch := some { q.run with num0 := nums c }
      stgBase := BitVec.ofNat 32 (q.base * 64)
      stgCount := BitVec.ofNat 32 (2 ^ 31 + q.run.slots.length)
      bud := q.bud })
  let s := (s.cleanAll site 0).dropAll site
  s.signal ⟨site, none, actStgCue (s.act q.run.act), q.run.ctx, true, 1, [], 0⟩

/-- A staged batch begun where its member is free, or kept until the one that runs there is over (R57, R79). -/
def State.beginOrQueue (s : State) (site : Nat) (q : Ready) : State :=
  let c := s.core site
  if c.batch.isNone && c.queued.isEmpty then s.beginBatch site q else s.modCore site (fun c => { c with queued := c.queued ++ [q] })

/-- A placed batch staged where the stage area of its member has room for the whole of it (R80). -/
def State.stagePlaced (s : State) (site : Nat) (p : Placed) (rest : List Placed) (what : Arrival) : State :=
  let e := s.act p.act
  let steps := s.stepsOf p
  let units := (steps.map (fun st => s.slotUnits st.stream e)).foldl (· + ·) 0
  if steps.isEmpty && !actSpan e then (s.modCore site (fun c => { c with placed := rest })).restUnd site
  else
    match s.stageRoom site (actStgReg e) units with
    | none => s
    | some (s, base) =>
      let (s, slots) := s.stageAll site p.replay (base * 64) what steps
      let s := s.modCore site (fun c => { c with placed := rest })
      let s := if p.replay then s.wakeUnderstudy site p.act else s
      s.beginOrQueue site (s.readyOf p base units slots)

/-- Whether certified work is shut off (R424, R425, R431, R436): a stop or a reset is under way, or the execution domain is powered down. -/
def State.workShut (s : State) : Bool := s.resetting != .none || s.execOff

/-- Whether the batch that runs on a member is of a context in rehearsal mode with a thread stopped by the debugger (R342). -/
def State.rehStopped (s : State) (site : Nat) : Bool :=
  match (s.core site).batch with
  | some b => s.rehearsal b.ctx && !b.replay && threads.any (fun t => (s.thr site t).ctx == b.ctx && (s.thr site t).dbgStop)
  | none => false

/-- The next batch of a member staged, behind the one that runs (R45, R79, R80); a replay is staged on a free understudy, and needs its act
resident (R371). Behind a batch of a context in rehearsal mode that the debugger has stopped nothing is staged (R342). -/
def State.stageOnward (s : State) (site : Nat) (what : Arrival) : State :=
  let c := s.core site
  match c.placed with
  | [] => s
  | p :: rest =>
    if s.safe site || s.rehStopped site || decide (s.frame < p.frame) || (p.replay && (c.batch.isSome || c.resident != some p.act)) then s
    else s.stagePlaced site p rest what

/-- What a member's stream director does next (R57, R80): where no batch runs, the oldest staged one begins; else the next is staged. Nothing is staged
or begun once an orderly stop or a reset has come (R424, R425, R436). -/
def State.stageNext (s : State) (site : Nat) (what : Arrival) : State :=
  let c := s.core site
  if s.workShut then s
  else
    match c.batch, c.queued with
    | none, q :: rest => if s.safe site then s else (s.modCore site (fun c => { c with queued := rest })).beginBatch site q
    | _, _ => s.stageOnward site what

/-- STAGE_BATCH (R80). -/
def execStageBatch (site : Nat) (at_ : Meeting Nat) (s : State) : Res :=
  let s := s.tick at_.val
  done (if s.good site then s.stageNext site at_.what else s)

-- replay capacity

/-- Replays while they are placed: cycles used by site and HBM bytes used by die (key 4,096 + die), the batches opened, and the act
each understudy will hold (act + 1). -/
structure Pack where
  used : SMap Nat
  batches : List OpenBatch
  holds : SMap Nat
  deriving DecidableEq, Repr

/-- Use added. -/
def Pack.use (x : Pack) (k n : Nat) : Pack := { x with used := put 0 x.used k (get 0 x.used k + n) }

/-- The act an understudy will hold once what is placed on it has run; 0 for none. -/
def State.willHold (s : State) (x : Pack) (u : Nat) : Nat :=
  match look x.holds u with
  | some a => a
  | none =>
    let c := s.core u
    match c.placed.getLast? with
    | some p => p.act + 1
    | none => match c.resident with | some a => a + 1 | none => 0

/-- Cycles of a preparation (R371). -/
def prepCycles (e code : Nat) : Nat := cdiv ((cdiv (actProgUnits e * 1000) 64 + 2000) * clockTenths code) 10

/-- HBM bytes of a preparation (R371). -/
def prepBytes (e : Nat) : Nat := 128 * actProgUnits e + 4096

/-- What becomes of a held step (R371, R372): placed on an understudy, carried, or without replay capacity. -/
inductive RplRes where
  | placed (site : Nat)
  | carried
  | none_
  deriving DecidableEq, Repr

/-- Whether an understudy needs a preparation for an act. -/
def State.needsPrep (s : State) (x : Pack) (u act : Nat) : Bool := s.willHold x u != act + 1

/-- A step added to an open replay batch, if its charges fit (R372). -/
def State.packOpen (s : State) (x : Pack) (cyc i site own d stream u e : Nat) : Pack × RplRes :=
  if get 0 x.used site + actCycStep e ≤ cyc ∧ get 0 x.used (4096 + d) + own ≤ s.fld d CHK_RPL_HBM_CAP then
    let x := (x.use site (actCycStep e)).use (4096 + d) own
    let bs := (x.batches.zip (List.range x.batches.length)).map (fun (b, j) =>
      if j = i then { b with streams := b.streams ++ [stream], units := b.units + u } else b)
    ({ x with batches := bs }, .placed site)
  else (x, .carried)

/-- A replay batch opened on an understudy, if preparation and batch fit together (R370 to R372). -/
def State.packNew (s : State) (x : Pack) (cyc code site own d u e : Nat) (st : Step) : Pack × RplRes :=
  let p := partner d
  let prep := s.needsPrep x site st.act
  let pc := if prep then prepCycles e code else 0
  let pb := (if prep then prepBytes e else 0) + actHbmHomeBatch e
  let c := pc + actCycBatch e + actCycStep e
  if get 0 x.used site + c ≤ cyc ∧ get 0 x.used (4096 + p) + pb ≤ s.fld p CHK_RPL_HBM_CAP ∧
     get 0 x.used (4096 + d) + own ≤ s.fld d CHK_RPL_HBM_CAP then
    let x := ((x.use site c).use (4096 + p) pb).use (4096 + d) own
    ({ x with
        batches := x.batches ++ [⟨st.act, site, [st.stream], u⟩]
        holds := insertAt x.holds site (st.act + 1) }, .placed site)
  else (x, .carried)

/-- One held step of die d placed (R370 to R373), at a clock code. -/
def State.packOne (s : State) (x : Pack) (code d : Nat) (st : Step) : Pack × RplRes :=
  let e := s.act st.act
  let p := partner d
  let us := s.understudies p
  let cyc := performCycles s.nominal code
  let own := actHbmHomeStep e + 128 * (2 + s.channels st.stream)
  let u := s.slotUnits st.stream e
  let other (v : Nat) : Bool := st.tries == 0 || v != st.lastUnd
  let failed := s.loadErr.contains (p, st.act)
  if actSpan e || !actDies e p || us.isEmpty || (failed && us.all (fun v => s.needsPrep x v st.act)) then (x, .none_)
  else
    let open_ := (⟨0, [], [], x.batches, [], [], []⟩ : Slice).openFor st.act u (actBatchMax e) (actStgSize e)
    let site := ((open_.bind (fun i => x.batches[i]?)).map OpenBatch.site).filter other
    match open_, site with
    | some i, some v => s.packOpen x cyc i v own d st.stream u e
    | _, _ =>
      let cs := us.filter (fun v => other v && !(failed && s.needsPrep x v st.act))
      let load (v : Nat) : Nat := get 0 x.used v + (if s.needsPrep x v st.act then prepCycles e code else 0)
      match cs with
      | [] => (x, .carried)
      | v :: t =>
        let v := t.foldl (fun a b => if load b < load a then b else a) v
        if actStgSize e < u then (x, .carried) else s.packNew x cyc code v own d u e st

/-- Held steps in the order they are taken (R370): suspects carried, suspects of the last frame, audited. -/
def rplOrder (f : Nat) (l : List Step) : List Step :=
  let sus (st : Step) : Bool := st.suspect != 0x12
  l.filter (fun st => sus st && decide (st.frame + 1 < f)) ++ l.filter (fun st => sus st && decide (f ≤ st.frame + 1)) ++
  l.filter (fun st => !sus st)

/-- The held steps of a die due for replay in frame f: not yet placed in it. -/
def State.rplDue (s : State) (d f : Nat) : List Step :=
  rplOrder f (s.steps.filter (fun st =>
    streamDie st.stream == d && st.phase == .held && decide (st.frame < f) && decide (st.rpl < f)))

/-- Held steps placed in turn. -/
def State.packAll (s : State) (code d : Nat) : Pack → List Step → Pack × List (Step × RplRes)
  | x, [] => (x, [])
  | x, st :: t =>
    let (x, r) := s.packOne x code d st
    let (x, l) := s.packAll code d x t
    (x, (st, r) :: l)

/-- Whether a held step waits for its staging among the replays placed in this frame: its charges are this frame's. -/
def State.rplPlaced (s : State) (st : Step) : Bool :=
  s.cores.any (fun (_, c) => c.placed.any (fun p => p.replay && p.streams.contains st.stream))

/-- The held steps of a die that the next frame's replay capacity has to serve (R372). -/
def State.rplNext (s : State) (d : Nat) : List Step := (s.rplDue d (s.frame + 1)).filter (fun st => !s.rplPlaced st)

/-- Whether the next frame's replay capacity can still take a step drawn for audit (R368, R372). -/
def State.canAudit (s : State) (st : Step) : Bool :=
  let d := streamDie st.stream
  let code := s.fld 0 CUR_CLK_NEXT
  let (x, _) := s.packAll code (partner d) ⟨[], [], []⟩ (s.rplNext (partner d))
  let (x, _) := s.packAll code d { x with batches := [] } (s.rplNext d)
  match (s.packOne x code d st).2 with
  | .placed _ => true
  | _ => false

-- the strike

/-- A struck step held for replay (R59, R64, R369): its record written, its egress metered, its entry's flags and the ledger changed. The step moves behind
those struck before it. Where the scratchpad refuses the read of its header and blocks (R229, R240) it is lost (DESIGN CHOICE, log 49). -/
def State.holdStep (s : State) (st : Step) (site : Nat) (r : SlotRec) (why : Nat) : State :=
  let x := st.stream
  let d := streamDie x
  let (s, bad) := s.directorPad (some st.act) d site r.off (64 * (1 + r.nchan)) false
  if bad then s.stageLost st false
  else
  let front := s.padBytes site r.off (64 * (1 + r.nchan))
  let rec_ := leBytes 8 (s.digest site st.act r).toNat ++ leBytes 2 site ++ leBytes 1 r.payload ++ leBytes 1 why ++
    List.replicate 52 0 ++ front
  let s := s.ringWrite none d (s.holdAddr x) rec_ false .ok
  let s := (s.setEnt x eRun 0).setEnt x eHeld 1
  let s := { s.dropStep x with steps := (s.dropStep x).steps ++ [{ st with phase := .held, site := site, suspect := why }] }
  ((s.lgrStep st 4 why).count 6 d 2 16 1).meterEgress st r

/-- The audit generator of a die stepped (R368). -/
def State.auditStep (s : State) (d : Nat) : State :=
  s.setRg64 (dkey d CHK_SEED_LO_SEED.off) (Config.auditNext (BitVec.ofNat 64 (s.rg64 (dkey d CHK_SEED_LO_SEED.off)))).toNat

/-- The audit draw at a strike (R368). -/
def State.auditDraw (s : State) (st : Step) : State × Bool :=
  let d := streamDie st.stream
  let e := s.act st.act
  if actSpan e || !actAud e then (s, false)
  else
    let s := s.auditStep d
    let hit := s.rg64 (dkey d CHK_SEED_LO_SEED.off) % 2 ^ s.fld d CHK_AUDIT_LOG2 == 0
    if !hit || !s.flag d CHK_CTRL_AUD_EN then (s, false)
    else if s.canAudit st then (s.count 4 d 0 32 1, true)
    else ((s.count 4 d 6 32 1).integrity d CHK_EVENT_AUD_DROP st.site st.stream 0, false)

/-- A strike of a slot whose step-end has retired (R81, R364, R368), as the read of the slot fares on its way: a parity error in its payload poisons
it (R253), a byte beyond correction its row (R227). Where the scratchpad refuses the read (R229, R240), or no answer comes (R254), the step is
lost as to an address fault (DESIGN CHOICE, log 49). -/
def State.strikeStep (s : State) (st : Step) (site : Nat) (r : SlotRec) (what : Arrival) : State :=
  let x := st.stream
  let d := streamDie x
  let front := 64 * (1 + r.nchan)
  let (s, bad) := s.directorPad (some st.act) d site (r.off + front) (r.len - front) false
  let s := if what = .uncorrectable then s.spoilt (padBase site + r.off + front) 1 else s
  let hit := what == .parity
  let s := if hit then s.meshParity d else s
  if bad then s.stageLost st false
  else if what = .busError then (s.meshTimedOut d (padBase site + r.off + front)).stageLost st false
  else if hit || s.poisoned (padBase site + r.off + front) (r.len - front) then (s.count 4 d 10 32 1).abortStep st 0x06
  else
    let s := s.ringWrite (some st.act) d (s.halfAddr x (1 - s.ent x eHalf)) (s.slotState site r) false .ok
    let (s, drawn) := s.auditDraw st
    if r.suspect ≠ 0 then s.holdStep st site r r.suspect
    else if drawn then s.holdStep st site r 0x12
    else s.commitStep st site r false

/-- The first batch of a core, oldest first, in which slot i has ended and is not struck. -/
def strikable (i : Nat) (b : Running) : Bool :=
  match b.slots[i]? with
  | some r => r.ended && !r.struck
  | none => false

/-- Slot i of the first such batch in a list marked struck. -/
def markStruck (i : Nat) : List Running → List Running
  | [] => []
  | b :: t => if strikable i b then b.modSlot i (fun r => { r with struck := true }) :: t else b :: markStruck i t

/-- The slot marked struck on its core. -/
def Core.markStruck (c : Core) (i : Nat) : Core :=
  if c.ended.any (strikable i) then { c with ended := Machine.markStruck i c.ended }
  else { c with batch := c.batch.map (fun b =>
    if strikable i b then b.modSlot i (fun r => { r with struck := true }) else b) }

/-- STRIKE (R81). After the instant of an orderly stop none is made (R425). -/
def execStrike (site : Nat) (slot : Nat) (at_ : Meeting Nat) (s : State) : Res :=
  let s := s.tick at_.val
  done (match (if s.resetting = .stopped then none else (s.core site).batches.find? (strikable slot)) with
    | none => s
    | some b =>
      match b.slots[slot]? with
      | none => s
      | some r =>
        let s := match s.stepOf r.stream with
          | some st => if st.phase = StepPhase.running ∧ st.act = b.act ∧ st.frame = b.frame then s.strikeStep st site r at_.what else s
          | none => s
        let s := s.modCore site (fun c => c.markStruck slot)
        s.freeStage site (s.core site).ended.length)

-- replays

/-- A held step without replay capacity aborted (R371, R372). -/
def State.noReplay (s : State) (st : Step) : State :=
  (s.integrity (streamDie st.stream) CHK_EVENT_NO_RPL st.site st.stream 0x0C).abortStep st 0x0C

/-- The held steps of a die placed for this frame (R370 to R372). -/
def State.placeReplays (s : State) (d : Nat) : State :=
  let (x, rs) := s.packAll (s.fld 0 CUR_CLK_CUR) d ⟨s.rplUsed, [], []⟩ (s.rplDue d s.frame)
  let s := { s with rplUsed := x.used }
  let s := rs.foldl (fun s (p : Step × RplRes) =>
    match p.2 with
    | .none_ => s.noReplay p.1
    | .placed v => s.modStep p.1.stream (fun y => { y with rpl := s.frame, site := v })
    | .carried => s) s
  x.batches.foldl (fun s b => s.modCore b.site (fun c =>
    { c with placed := c.placed ++ [⟨b.act, s.frame, b.streams, b.streams.length, true, d⟩] })) s

/-- REPLAY_STAGE (R370 to R372): the held steps due are placed, and every understudy of the partner die that is free and prepared
takes its next replay batch. -/
def execReplayStage (die : Nat) (at_ : Meeting Nat) (s : State) : Res :=
  let s := s.tick at_.val
  done (
    if die < 8 ∧ !s.workShut then
      let s := s.placeReplays die
      (s.understudies (partner die)).foldl (fun s u =>
        match (s.core u).placed with
        | p :: _ => if p.replay && p.home == die then s.stageNext u at_.what else s
        | [] => s) s
    else s)

end Sys2Proof.Machine
end

