-- ==== Sys2Proof/Machine/Egress.lean ====
section
/-! DEFINITION. The egress units: records, pads, notices, the backlog, completions and MSI-X messages, and the deadlines of deliveries
(R27 to R30, R83 to R86, R394, R395). -/

namespace Sys2Proof.Machine

-- MSI-X

/-- A pending message sent once, if it may leave now (R394). -/
def State.msixFlush (s : State) (v : Nat) : State :=
  if s.pcie.msixPend.contains v && s.msixOpen v && (get 0 s.pcie.msixTab v).toNat % 2 ^ 64 != 0 then
    let t := { s with pcie := { s.pcie with msixPend := setDel s.pcie.msixPend v } }
    t.emit (.msix v)
  else s

/-- An entry of the MSI-X table replaced, and the message it holds back sent if it may leave now. -/
def State.setVector (s : State) (v n : Nat) : State :=
  let t := { s with pcie := { s.pcie with msixTab := put 0 s.pcie.msixTab v (BitVec.ofNat 128 n) } }
  t.msixFlush v

/-- Messages held as pending sent, where they now may be (R394, R395). -/
def State.flushAll (s : State) : State := s.pcie.msixPend.foldl State.msixFlush s

/-- MSIX_UNMASK (R394): the vector's mask bit becomes 0. -/
def execMsixUnmask (v : Nat) (s : State) : Res :=
  done (if v < 2048 then s.setVector v (setBits (get 0 s.pcie.msixTab v).toNat 96 1 0) else s)

-- rings

/-- n bytes the spec leaves open, drawn as free values (log 8). -/
def State.freeBytes (s : State) : Nat → List Byte × State
  | 0 => ([], s)
  | n + 1 =>
    let (x, s) := s.fresh
    let (l, s) := s.freeBytes n
    (BitVec.ofNat 8 x :: l, s)

/-- Free slots of a ring (R83). -/
def State.egrFree (s : State) (d k : Nat) : Nat :=
  2 ^ s.fld d (EGR_RING_CTL_LOG2 k) - (s.fld d (EGR_RING_TAIL_TAIL k) + 2 ^ 32 - s.fld d (EGR_RING_HEAD_HEAD k)) % 2 ^ 32

/-- Slots left before the ring's end. -/
def State.egrToEnd (s : State) (d k : Nat) : Nat :=
  2 ^ s.fld d (EGR_RING_CTL_LOG2 k) - s.fld d (EGR_RING_TAIL_TAIL k) % 2 ^ s.fld d (EGR_RING_CTL_LOG2 k)

/-- Whether a ring takes records at all (R86, R395). -/
def State.egrOn (s : State) (d k : Nat) : Bool :=
  s.flag d EGR_CTRL_EN && s.flag d (EGR_RING_CTL_EN k) && s.pcie.bme && s.linkUp

/-- Bytes that an egress unit writes to host memory as their packet fares on the mesh to die 0 (R21, R253, R254, R257), which die 0's own unit does not
cross: a parity error poisons them, and whether a write that is not answered was performed is not stated, a free value (log 8). The answer is whether
they were written. -/
def State.egrBytes (s : State) (d a : Nat) (b : List Byte) (what : Arrival) : State × Bool :=
  let s := s.carry none d 0 b.length
  if d = 0 then (s.setHostBytes a b false, true)
  else if what = .parity then ((s.meshParity d).setHostBytes a b true, true)
  else if what = .busError then
    let (x, s) := (s.meshTimedOut d a).fresh
    if x % 2 = 1 then (s.setHostBytes a b false, true) else (s, false)
  else (s.setHostBytes a b false, true)

/-- Slots written at the tail and counted, the completion owed (R21, R83, R85); the answer is whether the bytes reached the host. -/
def State.egrPut (s : State) (d k : Nat) (b : List Byte) (slots : Nat) (what : Arrival) : State × Bool :=
  let base := s.rg64 (dkey d (EGR_RING_BASE_LO_ADDR k).off)
  let tail := s.fld d (EGR_RING_TAIL_TAIL k)
  let (s, ok) := s.egrBytes d (base + 64 * (tail % 2 ^ s.fld d (EGR_RING_CTL_LOG2 k))) b what
  let s := s.setFld d (EGR_RING_TAIL_TAIL k) ((tail + slots) % 2 ^ 32)
  let key := egrKey d k
  ({ s with
    egrSeq := put 0 s.egrSeq key ((get 0 s.egrSeq key + 1) % 2 ^ 32)
    egrCount := put 0 s.egrCount key ((get 0 s.egrCount key + slots) % 2 ^ 64)
    egrOwed := if s.egrOwed.any (fun (a, b, _) => a == d && b == k) then s.egrOwed else s.egrOwed ++ [(d, k, s.now)] }, ok)

/-- A header of STATUS 0xFE or 0xFF written (R83, R84, R86), for a number of slots: the fields that the spec does not give such a header a
value for are free within their ranges (log 8). A notice, one slot, has LEN 0; the LEN of a pad is free. -/
def State.egrMarker (s : State) (d k status dropped slots : Nat) (what : Arrival) : State :=
  let (id, s) := s.freeBytes 3
  let (act, s) := s.fresh
  let (flags, s) := s.fresh
  let (len, s) := s.fresh
  let (rest, s) := s.freeBytes 32
  let hdr := id ++ leBytes 1 status ++ leBytes 2 (act % 4096) ++ leBytes 1 (flags % 32) ++
    leBytes 1 (if status = 0xFE then 0 else len % 65) ++ rest ++ leBytes 4 (get 0 s.egrSeq (egrKey d k)) ++ leBytes 4 dropped ++ leBytes 16 0
  (s.egrPut d k hdr slots what).1

/-- The header of an egress record (R84). The first header of a ring after reset has RSEQ 0 (DESIGN CHOICE, log 49). -/
def State.egrHeader (s : State) (d : Nat) (r : EgrRec) : List Byte :=
  leBytes 4 (r.status <<< 24 + r.ctx <<< 18 + r.stream) ++ leBytes 2 r.act ++ leBytes 1 r.flags ++ leBytes 1 r.len ++
  leBytes 8 r.frame ++ leBytes 4 r.stepCnt ++ leBytes 4 r.seql ++ leBytes 8 r.tag ++ leBytes 8 r.commit ++
  leBytes 4 (get 0 s.egrSeq (egrKey d r.ring)) ++ leBytes 4 0 ++ leBytes 16 0

/-- The discard notice that a ring owes before its next record written, where a slot is free (R86). -/
def State.egrNotice (s : State) (d k : Nat) (what : Arrival) : State :=
  let n := get 0 s.egrDropped (egrKey d k)
  if n = 0 ∨ s.egrFree d k = 0 then s
  else
    let t := s.egrMarker d k 0xFE n 1 what
    { t with egrDropped := put 0 t.egrDropped (egrKey d k) 0 }

/-- Whether a ring owes nothing before its next record, and that record of n slots does not fit before the ring's end. -/
def State.egrShort (s : State) (d k n : Nat) : Bool :=
  get 0 s.egrDropped (egrKey d k) == 0 && decide (s.egrToEnd d k < n) && s.fld d (EGR_RING_TAIL_TAIL k) % 2 ^ s.fld d (EGR_RING_CTL_LOG2 k) != 0

/-- The pad that a record of n slots needs written, where its slots are free (R83). -/
def State.egrPad (s : State) (d k n : Nat) (what : Arrival) : State :=
  if s.egrShort d k n && decide (s.egrToEnd d k ≤ s.egrFree d k) then s.egrMarker d k 0xFF 0 (s.egrToEnd d k) what else s

/-- What a ring has to take before its next record, as far as there is room (R83, R86). -/
def State.egrPrep (s : State) (d : Nat) (r : EgrRec) (what : Arrival) : State :=
  if s.egrOn d r.ring then (s.egrNotice d r.ring what).egrPad d r.ring (1 + r.len) what else s

/-- A record written to its ring (R83, R84); one that did not reach the host is never visible there. -/
def State.egrWrite (s : State) (d : Nat) (r : EgrRec) (what : Arrival) : State :=
  let (s, ok) := s.egrPut d r.ring (s.egrHeader d r ++ r.payload) (1 + r.len) what
  { s with deliveries := s.deliveries.map (fun v =>
      if ok ∧ v.stream = r.stream ∧ v.frame = r.frame then { v with written := true } else v) }

/-- Whether a ring has room for a record at its tail. A record of more slots than its ring holds finds none, and waits (DESIGN CHOICE,
log 54). -/
def State.egrRoomy (s : State) (d : Nat) (r : EgrRec) : Bool :=
  get 0 s.egrDropped (egrKey d r.ring) == 0 && decide (1 + r.len ≤ s.egrToEnd d r.ring) && decide (1 + r.len ≤ s.egrFree d r.ring)

/-- Whether a record may be written now. -/
def State.egrReady (s : State) (d : Nat) (r : EgrRec) : Bool := s.egrOn d r.ring && s.egrRoomy d r

/-- The first record of a die that satisfies a test taken from the list. -/
def takeRec (d : Nat) (p : EgrRec → Bool) : List (Nat × EgrRec) → Option (EgrRec × List (Nat × EgrRec))
  | [] => none
  | (e, r) :: t =>
    if e = d ∧ p r then some (r, t)
    else match takeRec d p t with
      | some (x, l) => some (x, (e, r) :: l)
      | none => none

/-- Bytes of the records that wait in a die's backlog, those not yet tried apart. -/
def State.waitingBytes (s : State) (d : Nat) : Nat :=
  ((s.backlog.filter (fun p => p.1 == d && !p.2.fresh)).map (fun p => p.2.size)).foldl (· + ·) 0

/-- A record that cannot be written joins the backlog, or is discarded where the backlog is full (R86). -/
def State.egrWait (s : State) (d : Nat) (r : EgrRec) (rest : List (Nat × EgrRec)) : State :=
  let s := if s.egrOn d r.ring && decide (s.egrFree d r.ring < 1 + r.len) then s.event d EGR_EVENT_FULL else s
  if s.waitingBytes d + r.size ≤ 0x100000 then
    { s with backlog := s.backlog.map (fun (e, x) => if e = d ∧ x = r then (e, { x with fresh := false }) else (e, x)) }
  else
    let t := { s with backlog := rest, egrDropped := put 0 s.egrDropped (egrKey d r.ring) (get 0 s.egrDropped (egrKey d r.ring) + 1) }
    (t.countFld d EGR_DISCARD_COUNT 1).event d EGR_EVENT_DISCARD

/-- The egress unit's next record, as what it writes fares on the mesh (R83, R86, R253, R254): the backlog's oldest if it can leave, else the oldest
record not yet tried. -/
def State.egrNext (s : State) (d : Nat) (what : Arrival) : State :=
  let fresh (s : State) : State :=
    match takeRec d EgrRec.fresh s.backlog with
    | none => s
    | some (r, rest) =>
      let behind := s.backlog.any (fun (e, x) => e == d && !x.fresh && x.ring == r.ring)
      let s := if behind then s else s.egrPrep d r what
      if s.egrReady d r && !behind then
        let t := { s with backlog := rest }
        t.egrWrite d r what
      else s.egrWait d r rest
  match takeRec d (fun r => !r.fresh) s.backlog with
  | some (r, rest) =>
    let s := s.egrPrep d r what
    if s.egrReady d r then
      let t := { s with backlog := rest }
      t.egrWrite d r what
    else fresh s
  | none => fresh s

/-- A write to host memory that the root complex refused (R395): the host's bytes stay, and no delivery becomes visible by it. What else
the unit did stands (DEDUCED, log 40). -/
def State.hostRefuses (t s : State) (d : Nat) : State :=
  if t.egrSeq = s.egrSeq ∧ t.egrOwed = s.egrOwed then t
  else { t with host := s.host, hostPoison := s.hostPoison, deliveries := s.deliveries }.event d EGR_EVENT_PCIE_ERR

/-- EGRESS_RECORD (R83, R85, R86, R253, R254); the value says that the root complex refuses the write (R395). -/
def execEgressRecord (die : Nat) (at_ : Nat) (x : Meeting Bool) (s : State) : Res :=
  let s := s.tick at_
  let t := s.egrNext die x.what
  done (if x.val then t.hostRefuses s die else t)

/-- A completion written as it fares on the mesh to die 0 (R253, R254): a parity error poisons it, and whether one that is not answered was performed
is not stated, a free value (log 8). -/
def State.egrCompletion (s : State) (d k : Nat) (what : Arrival) : State :=
  let t := s.egrComplete d k (what == .parity && d != 0)
  if d = 0 ∨ t.egrOwed = s.egrOwed then t
  else if what = .parity then t.meshParity d
  else if what = .busError then
    let (x, u) := (t.meshTimedOut d (s.rg64 (dkey d (EGR_RING_CPL_LO_ADDR k).off))).fresh
    if x % 2 = 1 then u
    else { u with
      host := s.host
      hostPoison := s.hostPoison
      deliveries := s.deliveries }
  else t

/-- EGRESS_COMPLETION (R27, R85, R253, R254); the value says that the root complex refuses the write (R395). -/
def execEgressCompletion (die : Nat) (ring : Nat) (at_ : Nat) (x : Meeting Bool) (s : State) : Res :=
  let s := s.tick at_
  let t := s.egrCompletion die ring x.what
  done (if x.val then t.hostRefuses s die else t)

/-- A write to EGR_RINGk_HEAD (R68). -/
def State.egrHead (s : State) (d k v : Nat) : State :=
  let tail := s.fld d (EGR_RING_TAIL_TAIL k)
  let head := s.fld d (EGR_RING_HEAD_HEAD k)
  let used (h : Nat) : Nat := (tail + 2 ^ 32 - h) % 2 ^ 32
  if used head < used v then s.event d EGR_EVENT_PTR_ERR else s.setFld d (EGR_RING_HEAD_HEAD k) v

/-- EGRESS_HEAD_WRITE (R68). Any requester may write the B field. -/
def execEgressHeadWrite (_r : Requester) (die : Nat) (ring : Nat) (v : Word) (s : State) : Res :=
  done (if die < 8 ∧ ring < 64 then s.egrHead die ring v.toNat else s)

-- deadlines

/-- Whether the deadline of a step of frame f has passed: 25 µs after the first, or for a held step the second, curtain (R28, R29). -/
def State.pastDue (s : State) (f : Nat) (held : Bool) : Bool :=
  let c := f + (if held then 2 else 1)
  decide (c < s.frame) || (c == s.frame && decide (s.curtainAt + 25000 ≤ s.now))

/-- A LATE record (R30, R383), and CUR_EVENT.LATE. -/
def State.lgrLate (s : State) (reh host : Bool) (ctx stream act cls frame : Nat) : State :=
  let s := s.lgrPush (streamDie stream) (lgrRec 7 reh host ctx stream 0x20 act cls frame)
  (s.event 0 CUR_EVENT_LATE).count 6 0 15 32 1

/-- Whether a delivery missed its deadline at t: not visible by then. A context in rehearsal has no deadline (R342). -/
def Delivery.missed (v : Delivery) (t : Nat) : Bool :=
  !v.late && !v.reh && (match v.visible with | some u => decide (t < u) | none => true)

/-- CUR_DELIV as it stands 25 µs after a curtain (R60): the last delivery of the frame before, not held, measured from the curtain. -/
def State.lastDelivery (s : State) : Nat :=
  let ts := (s.deliveries.filter (fun v => v.frame + 1 == s.frame && !v.held)).filterMap (fun v => v.visible)
  match ts with
  | [] => 0x80000000
  | t :: l =>
    let t := l.foldl max t
    if s.curtainAt ≤ t then min 0x7FFFFFFF (t - s.curtainAt) else wrap 32 ((t : Int) - (s.curtainAt : Int))

/-- The deadlines that have passed (R28 to R30): LATE records of undelivered steps, committed or not. -/
def State.deadlines (s : State) : State :=
  let s := s.setFld 0 CUR_DELIV_LAST s.lastDelivery
  let due := s.deliveries.filter (fun v => s.pastDue v.frame v.held)
  let s := (due.filter (fun v => v.missed (s.curtainAt + 25000))).foldl (fun s v => s.lgrLate v.reh v.host v.ctx v.stream v.act v.cls v.frame) s
  let s := { s with deliveries := s.deliveries.filter (fun v => !s.pastDue v.frame v.held), deadlineFor := s.frame }
  let waits (st : Step) : Bool :=
    !st.late && !st.reh && s.pastDue st.frame (st.phase == .held || st.phase == .replaying)
  let s := (s.steps.filter waits).foldl (fun s st => s.lgrLate st.reh st.host st.ctx st.stream st.act st.cls st.frame) s
  { s with steps := s.steps.map (fun st => if waits st then { st with late := true } else st) }

/-- DELIVERY_DEADLINE (R30): once after each curtain, 25 µs later. -/
def execDeliveryDeadline (at_ : Nat) (s : State) : Res :=
  let s := (s.tick at_).egrForce (max s.now at_)
  done (if s.flag 0 CUR_STATUS_RUN && decide (s.deadlineFor < s.frame) && decide (s.curtainAt + 25000 ≤ s.now) then s.deadlines else s)

end Sys2Proof.Machine
end

