-- ==== Sys2Proof/Machine/Gatherer.lean ====
section
/-! DEFINITION. The event gatherers: eligibility, delivery, hold-off and the end of an interrupt (R335 to R340). -/

namespace Sys2Proof.Machine

/-- A target's stack replaced (R337). -/
def State.setPrio (s : State) (d t : Nat) (l : List GEntry) : State :=
  let k := d * 24 + t
  { s with prioStk := s.prioStk.filter (fun p => p.1 != k) ++ (if l.isEmpty then [] else [(k, l)]) }

/-- Whether a source is eligible (R337). -/
def State.eligible (s : State) (d n : Nat) : Bool :=
  s.flag d (EVG_SRC_PEND n) && s.flag d (EVG_SRC_EN n) && !s.holding d (n / 16)

/-- The eligible source taken: the lowest priority number, then the lowest source number (R337). -/
def State.takeSource (s : State) (d : Nat) : Option Nat :=
  match (List.range 1024).filter (s.eligible d) with
  | [] => none
  | n :: t => some (t.foldl (fun a b => if s.fld d (EVG_SRC_PRIO b) < s.fld d (EVG_SRC_PRIO a) then b else a) n)

/-- Whether a target takes a delivery of a priority: enabled, its MSI-X slot as well, and at a greater running priority (R336, R337). -/
def State.takes (s : State) (d t prio : Nat) : Bool :=
  s.flag d (EVG_TGT_EN t) && (decide (t < 16) || s.flag d (EVG_MSI_EN (t - 16))) && decide (prio < s.rpri d t)

/-- The first target of a set, after its LAST and wrapping, that takes a priority (R337). -/
def State.firstTarget (s : State) (d set prio : Nat) : Option Nat :=
  let last := s.fld d (EVG_TSET_LAST set)
  ((List.range 24).map (fun i => (last + 1 + i) % 24)).find? (fun t =>
    bitOf (s.fld d (EVG_TSET_MASK set)) t && s.takes d t prio)

/-- The core thread a target below 16 names (R336), by the site numbers of log 18. -/
def targetThread (d t : Nat) : Nat × Fin 4 :=
  if t < 8 then (1568 + 2 * d + t / 4, Fin.ofNat 4 t)
  else if t < 12 then (1584, Fin.ofNat 4 t)
  else (1585, Fin.ofNat 4 t)

/-- The site an event concerns, 0x7FF for none: core sources by their number (R335, R411). -/
def eventSite (d n : Nat) : Nat :=
  if n < 196 then d * 196 + n
  else if 208 ≤ n ∧ n < 404 then d * 196 + (n - 208)
  else if 416 ≤ n ∧ n < 612 then d * 196 + (n - 416)
  else 0x7FF

/-- The trap cause of a thread stopped at L2 on a site, for the event's record; 0 for none (R411). -/
def State.eventCause (s : State) (d n : Nat) : Nat :=
  if n < 196 then
    match threads.find? (fun t => (s.thr (d * 196 + n) t).level == .l2) with
    | some t => (s.thr (d * 196 + n) t).sv2.cause.toNat % 256
    | none => 0
  else 0

/-- An event that reaches a management core is logged (R411); the integrity events are logged as they occur (R387). Its severity is free: the
spec gives none (log 40). -/
def State.logEvent (s : State) (d n : Nat) : State :=
  if 720 ≤ n ∧ n ≤ 730 then s
  else
    let (x, s) := s.fresh
    s.logRec n d (eventSite d n) noStream (x % 4) (s.eventCause d n)

/-- A source delivered to a target (R337, R339). -/
def State.deliver (s : State) (d n t : Nat) : State :=
  let set := s.fld d (EVG_SRC_TSET n)
  let g := n / 16
  let hold := s.fld d (EVG_GRP_HOLD g)
  let s := s.setFld d (EVG_SRC_PEND n) 0
  let s := s.setPrio d t (⟨s.fld d (EVG_SRC_PRIO n), n⟩ :: s.prioOf d t)
  let s := s.setFld d (EVG_TSET_LAST set) t
  let s := if hold = 0 then s else { s with holdoff := s.holdoff ++ [(d * 64 + g, s.now + hold * 1000)] }
  if t < 16 then
    let (site, th) := targetThread d t
    let s := s.raiseSwi site th
    if 8 ≤ t then s.logEvent d n else s
  else s.msix d (s.fld d (EVG_MSI_VECTOR (t - 16)))

/-- EVENT_DELIVERY (R337, R340): at most one source goes to one target. -/
def execEventDelivery (die : Nat) (at_ : Nat) (s : State) : Res :=
  let s := s.tick at_
  done (
    if die < 8 && s.flag die EVG_CTRL_EN then
      match s.takeSource die with
      | none => s
      | some n =>
        match s.firstTarget die (s.fld die (EVG_SRC_TSET n)) (s.fld die (EVG_SRC_PRIO n)) with
        | some t => s.deliver die n t
        | none => s
    else s)

/-- A group's hold-off ended (R339). -/
def State.endHold (s : State) (d g : Nat) : State := { s with holdoff := s.holdoff.filter (fun p => p.1 != d * 64 + g) }

/-- HOLDOFF_EXPIRY (R339): at the end of its HOLD µs. -/
def execHoldoffExpiry (die : Nat) (g : Nat) (at_ : Nat) (s : State) : Res :=
  let s := s.tick at_
  done (if s.holdoff.any (fun p => p.1 == die * 64 + g && decide (p.2 ≤ s.now)) then s.endHold die g else s)

/-- A write to EVG_EOIt (R338). -/
def State.popTarget (s : State) (d t : Nat) : State :=
  match s.prioOf d t with
  | [] => s.setFld d EVG_ERR_EOI_EMPTY 1
  | _ :: l => s.setPrio d t l

/-- EOI (R338). Any requester may write the B field. -/
def execEoi (_r : Requester) (die : Nat) (t : Nat) (s : State) : Res :=
  done (if die < 8 ∧ t < 24 then s.popTarget die t else s)

/-- A write of EVG_SWSET (R335). -/
def State.swset (s : State) (d n : Nat) : State := if 896 ≤ n ∧ n < 1024 then s.raise d n else s

/-- EVG_SWSET (R335). -/
def execEvgSwset (_r : Requester) (die : Nat) (src : Nat) (s : State) : Res := done (if die < 8 then s.swset die src else s)

end Sys2Proof.Machine
end

