-- ==== Sys2Proof/Machine/Fabric.lean ====
section
/-! DEFINITION. The Alacia fabric ports: links and flits, incoming transactions and their limiters, responses and timeouts, node
numbers and time marks (R346 to R361). -/

namespace Sys2Proof.Machine

-- links

/-- FABRIC_LINK_UP (R346, R350, R351): all four lanes have trained; flits are numbered from 0 (PRESUMED, log 12), and the slot credits are those of the
peer's buffers. -/
def execFabricLinkUp (die : Nat) (peerNode peerPort : Nat) (x : Trained) (s : State) : Res :=
  done (
    if die < 8 && s.flag die ALF_CTRL_EN && !s.flag die ALF_STATUS_UP then
      let s := s.setFld die ALF_STATUS_UP 1
      let s := s.setFld die ALF_STATUS_LANES 15
      let s := s.setFld die ALF_STATUS_PEER (peerNode % 4096 + 4096 * (peerPort % 16))
      let s := s.setFld die ALF_DELAY_NS (x.delay % 65536)
      let s := s.setLink die { s.link die with
        rxSeq := 0
        txSeq := 0
        reqCredit := x.reqCredit
        respCredit := x.respCredit }
      s.event die ALF_EVENT_UP
    else s)

/-- FABRIC_LINK_DOWN (R351). -/
def execFabricLinkDown (die : Nat) (s : State) : Res := done (if die < 8 then s.linkDown die else s)

/-- RETRAIN (R362): an E field. -/
def execRetrain (r : Requester) (die : Nat) (s : State) : Res :=
  done (if die < 8 then s.asExpert r die true (fun s => s.linkDown die) else s)

/-- The bytes of a flit that its CRC covers (R348): those before it, and the slots. -/
def Flit.covered (x : Flit) : List Byte :=
  leBytes 4 x.seq ++ leBytes 4 (x.ack + 2 ^ 31 * b2n x.retry) ++ leBytes 4 x.reqCredit ++ leBytes 4 x.respCredit ++
  leBytes 8 (x.kind + x.payload <<< 8) ++ x.slots

/-- A flit refused (R349): a retry is asked for that names the last flit accepted. -/
def State.flitRefused (s : State) (d : Nat) : State :=
  (s.count 3 d 1 32 1).emit (.retry d (((s.link d).rxSeq + 2 ^ 32 - 1) % 2 ^ 32))

/-- Whether a flit sent is acknowledged by an ACK of 31 bits: it is no later than the one named (R348). -/
def acked (ack seq : Nat) : Bool := decide ((ack + 2 ^ 31 - seq % 2 ^ 31) % 2 ^ 31 < 2 ^ 30)

/-- The flits of a replay buffer sent again (R349): each counted; where one has been resent 8 times already, the link goes down. -/
def State.resend (s : State) (d : Nat) : State :=
  let l := s.link d
  if l.replay.any (fun p => decide (8 ≤ p.2)) then s.linkDown d
  else
    let s := s.setLink d { l with replay := l.replay.map (fun p => (p.1, p.2 + 1)) }
    { s with out := s.out ++ l.replay.map (fun p => Out.flit d p.1 ((l.rxSeq + 2 ^ 31 - 1) % 2 ^ 31) 0 0) }

/-- The ACK and CREDIT fields of an accepted flit acted on (R348 to R350): what is acknowledged leaves the replay buffer, credits are added, and what
they let go is sent; a retry request has the rest sent again first. -/
def State.flitTaken (s : State) (d : Nat) (x : Flit) : State :=
  let l := s.link d
  let s := s.setLink d { l with
    rxSeq := (x.seq + 1) % 2 ^ 32
    replay := l.replay.filter (fun p => !acked x.ack p.1)
    ackAt := if l.replay.any (fun p => acked x.ack p.1) then s.now else l.ackAt
    reqCredit := l.reqCredit + x.reqCredit
    respCredit := l.respCredit + x.respCredit }
  (if x.retry then s.resend d else s).pump d

/-- FLIT_RECEIVE (R348, R349): accepted only in sequence and with the CRC in its CRC field right. The transactions of its slots and the time mark of its
CTL come as their own commands (DESIGN CHOICE, log 12). -/
def execFlitReceive (die : Nat) (x : Flit) (corrected : Nat) (crc : BitVec 64) (s : State) : Res :=
  done (
    if die < 8 && s.flag die ALF_STATUS_UP then
      let s := s.count 3 die 0 32 corrected
      if crc == Config.flitCrc (Flit.covered x) && x.seq == (s.link die).rxSeq then s.flitTaken die x else s.flitRefused die
    else s)

-- incoming transactions

/-- The permission a transaction needs (R355). -/
def fabNeed (k : FabKind) : Need :=
  match k with
  | .read => needR
  | .write => needW
  | .landing => needW
  | _ => needA

/-- A status answered to a transaction (R354): it waits at the port for slot credits of its class (R350). -/
def State.fabAnswer (s : State) (d : Nat) (q : FabReq) (status : Nat) (data : List Byte) (psn : BitVec 5) : State :=
  if s.flag d ALF_STATUS_UP then
    let l := s.link d
    (s.setLink d { l with respQ := l.respQ ++ [(respSlotBytes q.kind q.len (status == 0), ⟨d, q.node, status, data, psn⟩)] }).pump d
  else s

/-- Slot credits of requests to be returned to the peer, as the ingress buffer drains (R350, R360). -/
def State.oweReq (s : State) (d n : Nat) : State := s.setLink d { s.link d with owedReq := (s.link d).owedReq + n / 16 }

/-- Slot credits of responses to be returned to the peer: responses are always drained (R350). -/
def State.oweResp (s : State) (d n : Nat) : State := s.setLink d { s.link d with owedResp := (s.link d).owedResp + n / 16 }

/-- The event, the count and the address of a transaction refused (R355). -/
def State.refusedAt (s : State) (d : Nat) (q : FabReq) : State :=
  let s := (s.event d ALF_EVENT_REFUSED).count 3 d 5 32 1
  s.setRg64 (dkey d ALF_ERR_ADDR_LO_ADDR.off) (s.ownNode <<< 52 + q.addr % 2 ^ 52)

/-- A transaction refused with status 2 (R355). -/
def State.fabRefuse (s : State) (d : Nat) (q : FabReq) : State := (s.refusedAt d q).fabAnswer d q 2 [] 0

/-- Whether a context's region table admits a transaction (R355), under either node number of this node (R261; DEDUCED, log 41). -/
def State.fabPermitted (s : State) (lctx : Nat) (q : FabReq) : Bool :=
  s.permitted lctx q.addr q.len (fabNeed q.kind) || s.permitted lctx (s.ownNode <<< 52 + q.addr) q.len (fabNeed q.kind)

/-- The local context a port gives a transaction; none where it refuses (R352, R355). -/
def State.translate (s : State) (d : Nat) (q : FabReq) : Option Nat :=
  let c := q.ctx % 64
  let lctx := s.fld d (ALF_ICTX_LCTX c)
  if s.ownNode = 0 ∨ !s.flag d (ALF_ICTX_V c) ∨ q.node < s.fld d (ALF_ICTX_NLO c) ∨ s.fld d (ALF_ICTX_NHI c) < q.node then none
  else if q.kind = .cue ∨ s.fabPermitted lctx q then some lctx
  else none

/-- Whether a transaction's target stands at this die (R353, R354). -/
def State.fabHere (s : State) (d : Nat) (q : FabReq) : Bool :=
  match s.home q.addr with
  | .hbm e => e == d
  | .pad site _ => dieOf site == d
  | _ => false

/-- FABRIC_REQUEST (R352, R355, R358): translated and checked, then waiting for the limiters. -/
def execFabricRequest (die : Nat) (q : FabReq) (s : State) : Res :=
  done (
    if die < 8 && s.flag die ALF_STATUS_UP then
      let s := s.count 3 die 4 32 (reqSlotBytes q.kind q.len)
      let s := if q.poison ≠ 0 then s.event die ALF_EVENT_POISON else s
      match s.translate die q with
      | none => (s.oweReq die (reqSlotBytes q.kind q.len)).fabRefuse die q
      | some lctx => { s with fabIn := s.fabIn ++ [(die, ⟨q, lctx, false, false⟩)] }
    else s)

/-- Rate of a limiter as it acts (R360, R362). -/
def limitRate (n : Nat) : Nat := min n 1000

/-- Both limiters' credit grown to this instant, to the ceiling of 8 µs (R360): HBM credit in 1/5,000 byte, port credit in 1/1,000
byte. -/
def State.growCredit (s : State) (d : Nat) : State :=
  let l := s.link d
  let t := s.now - l.creditAt
  let h := limitRate (s.fld d ALF_ING_HBM_RATE) * 7168
  let p := limitRate (s.fld d ALF_ING_PORT_RATE) * 90
  s.setLink d { l with
    hbmCredit := min (l.hbmCredit + t * h) (8000 * h)
    portCredit := min (l.portCredit + t * p) (8000 * p)
    creditAt := s.now }

/-- HBM credit of a transaction (R268, R360). -/
def State.fabCharge (s : State) (q : FabReq) : Nat :=
  match q.kind, s.home q.addr with
  | .cue, _ => 0
  | .read, .hbm _ => chargeOf q.addr q.len false
  | _, .hbm _ => chargeOf q.addr q.len true
  | _, _ => 64 * (granules q.addr q.len).length

/-- The FP32 range of a port that covers a word (R357). -/
def State.inFadd (s : State) (d a : Nat) : Bool :=
  (List.range 4).any (fun k =>
    let first := s.fld d (ALF_FADD_HI_BASE k) <<< 32 + s.fld d (ALF_FADD_BASE_LO_ADDR k) * 64
    let last := s.fld d (ALF_FADD_HI_LIM k) <<< 32 + s.fld d (ALF_FADD_LIM_LO_ADDR k) * 64 + 63
    s.flag d (ALF_FADD_BASE_HI_V k) && decide (first ≤ a) && decide (a + 4 ≤ last + 1))

/-- The sum of a fabric atomic, and what it counts (R195, R196, R357). -/
def fabSum (fp : Bool) (old x : Nat) : Nat × Counts :=
  if fp then
    let (n, c) := deliver 1 .nearest false 0 ((value 1 old).add false (value 1 x))
    (n, c.counts)
  else ((old + x) % 2 ^ 32, Counts.zero)

/-- Bytes written at their home: poison as R270 gives, and the observed set of a landing write left with each byte of it (R282). -/
def State.landBytes (s : State) (a : Nat) (l : List Byte) (psn : Bool) (obs : List Nat) : State :=
  let s := s.writeMem a l psn
  { s with landObs := (List.range l.length).foldl (fun m i => put [] m (a + i) obs) s.landObs }

/-- The parts of n bytes from an address that lie in one granule each. -/
def parts (a n : Nat) : List (Nat × Nat) :=
  (granules a n).map (fun g => (max a (64 * g), min (a + n) (64 * g + 64) - max a (64 * g)))

/-- The poison marks of the granules that n bytes from an address touch (R354, R358). -/
def State.marks (s : State) (a n : Nat) : BitVec 5 :=
  BitVec.ofNat 5 (((granules a n).zipIdx.filter (fun (g, _) => s.poisoned (64 * g) 64)).map (fun (_, i) => 2 ^ i)).sum

/-- A write from another node performed at its home: every granule with its own mark (R270, R354, R358). -/
def State.landMarked (s : State) (a : Nat) (data : List Byte) (psn : BitVec 5) : State :=
  (parts a data.length).zipIdx.foldl (fun s (p, i) => s.landBytes p.1 ((data.drop (p.1 - a)).take p.2) (psn.getLsbD i) []) s

/-- The bytes an answer brings, each with the mark of its granule (R354). -/
def marked (a : Nat) (data : List Byte) (psn : BitVec 5) : List (Byte × Bool) :=
  data.zipIdx.map (fun (b, i) => (b, psn.getLsbD ((a % 64 + i) / 64)))

/-- An atomic add performed at its home (R357, R358). -/
def State.fabAtomic (s : State) (d : Nat) (q : FabReq) : State × List Byte × BitVec 5 :=
  if s.poisoned q.addr 4 then (s.count 4 d 10 32 1, leBytes 4 0, 1)
  else
    let old := s.le q.addr 4
    let (n, c) := fabSum (s.inFadd d q.addr) old (leNat (q.data.take 4))
    let s := ((s.count 3 d 8 32 c.sat).count 3 d 9 32 c.flush).count 3 d 10 32 c.nan
    (s.landBytes q.addr (leBytes 4 n) false [], leBytes 4 old, 0)

/-- A cue signal from another node (R288, R355): status 3 where its handle or site is unmapped. -/
def State.fabCue (s : State) (d : Nat) (q : FabReq) (lctx : Nat) : State :=
  if !s.good q.site ∨ dieOf q.site ≠ d then
    (if q.site < Config.sites then s.cueError q.site 2 lctx q.handle else s).fabAnswer d q 3 [] 0
  else
    match s.cueMap q.site lctx q.handle with
    | some (c, true) =>
      ((s.cueAdd q.site c q.inc lctx []).serveWaits q.site c 6).fabAnswer d q 0 [] 0
    | _ => (s.cueError q.site 2 lctx q.handle).fabAnswer d q 3 [] 0

/-- A transaction performed at its home and answered (R354, R357, R358). A spill unit or a bank of another class refuses it with status
2 (DEDUCED, log 41). -/
def State.fabPerform (s : State) (d : Nat) (q : FabReq) (lctx : Nat) : State :=
  if q.kind = .cue then s.fabCue d q lctx
  else if !s.fabHere d q then (s.unmappedAt d q.addr).fabAnswer d q 1 [] 0
  else
    let write := q.kind != .read
    let bad := match s.home q.addr with
      | .pad site off => s.padRefuses site off q.len write
      | _ => false
    if bad then s.fabRefuse d q
    else
      let s := s.access none d q.addr q.len write
      match q.kind with
      | .read => s.fabAnswer d q 0 (s.bytes q.addr q.len) (s.marks q.addr q.len)
      | .atomicAdd =>
        let (s, b, p) := s.fabAtomic d q
        s.fabAnswer d q 0 b p
      | _ => (s.landMarked q.addr (q.data.take q.len) q.poison).fabAnswer d q 0 [] 0

/-- A transaction whose link went down before it was performed: performed, its response discarded (R351). -/
def State.fabSilent (s : State) (d : Nat) (q : FabReq) (lctx : Nat) : State :=
  let l := s.link d
  let t := (s.setLink d { l with respCredit := 0 }).fabPerform d q lctx
  t.setLink d { t.link d with
    respQ := l.respQ
    respCredit := l.respCredit }

/-- The first request of a port's ingress buffer marked as having waited. -/
def markHead (d : Nat) : List (Nat × FabIn) → List (Nat × FabIn)
  | [] => []
  | (e, y) :: t => if e = d then (e, { y with waited := true }) :: t else (e, y) :: markHead d t

/-- INGRESS_ADMIT (R351, R360): the request at the head of the ingress buffer takes credit of both limiters and proceeds, its slot credits
returned, or waits and holds them. -/
def execIngressAdmit (die : Nat) (at_ : Nat) (s : State) : Res :=
  let s := (s.tick at_).growCredit die
  done (match takeOf die s.fabIn with
    | none => s
    | some (x, rest) =>
      let l := s.link die
      let h := s.fabCharge x.q * 5000
      let p := (reqSlotBytes x.q.kind x.q.len + respSlotBytes x.q.kind x.q.len true) * 1000
      if h ≤ l.hbmCredit ∧ p ≤ l.portCredit then
        let s := s.setLink die { l with
          hbmCredit := l.hbmCredit - h
          portCredit := l.portCredit - p }
        let t := { s with fabIn := rest }
        if x.lost then t.fabSilent die x.q x.lctx
        else (t.oweReq die (reqSlotBytes x.q.kind x.q.len)).fabPerform die x.q x.lctx
      else if x.waited then s
      else
        let s := { s with fabIn := markHead die s.fabIn }
        (s.event die ALF_EVENT_HOLD).count 3 die 7 32 1)

-- responses

/-- A channel's write that ended in an error (R320): the cause, and the least byte that did not land. One of a command that runs no more leaves
the command that runs now alone (DESIGN CHOICE, log 55). -/
def State.spoil (s : State) (ch : ChanId) (w : PWrite) (cause : Nat) : State :=
  if (s.chan ch).run.any (fun r => r.cmd == w.cmd) then
    (s.modChan ch (fun k => k.modRun (fun r => { r with bad := some (min (r.bad.getD w.off) w.off) }))).chanErr ch cause true w.loc
  else s

/-- A write ended in error (R280, R320): causes as a channel records them; a posted write of a thread brings no fault (log 29). -/
def State.writeFailed (s : State) (w : PWrite) (cause : Nat) : State :=
  let s := { s with errCmds := setAdd s.errCmds w.cmd }
  match w.req with
  | .chan site c => s.spoil (.core site c) w cause
  | .bulk d c => s.spoil (.bulk d c) w cause
  | _ => s

/-- What a fabric status or a fabric timeout is to a channel (R320, R354, R359). -/
def fabCause (status : Nat) : Nat := if status = 1 then 3 else if status = 4 then 5 else 2

/-- Writes of one transaction over the fabric failed with a status; the first of an unmapped one is recorded (R264, R354). -/
def State.writesFailed (s : State) (l : List PWrite) (status : Nat) : State :=
  match l with
  | [] => s
  | w :: _ =>
    l.foldl (fun s v => s.writeFailed v (fabCause status)) (if status = 1 then s.unmappedAt (reqDie w.req) w.loc else s)

/-- The remote writes that left under a tag ended with a status (R275, R280, R320, R354). -/
def State.writeEnded (s : State) (tag status : Nat) : State :=
  let l := s.inflight.filter (fun v => v.tag == some tag)
  let s := { s with inflight := s.inflight.filter (fun v => v.tag != some tag) }
  if status = 0 then s else s.writesFailed l status

/-- A load, or a row of a tile operation, given what came back for its tag (R331, R354). -/
def State.loadAnswered (s : State) (site : Nat) (t : Fin 4) (tag : Nat) (r : List Byte × Bool × Nat) : State :=
  s.modThr site t (fun x => { x with
    loads := x.loads.map (fun l => if l.tag = some tag then { l with resp := some r } else l)
    long := x.long.map (fun (o : TileOp) => if o.tag = some tag then { o with resp := some r } else o) })

/-- A line fill answered (R241, R243, R244): the line is kept, or what waits for it is told of the error. -/
def State.fillAnswered (s : State) (site a : Nat) (status : Nat) (data : List Byte) (psn : Bool) : State :=
  let c := s.core site
  if !c.filling a then s
  else if status = 0 then
    let s := s.modCore site (fun c => c.filled a)
    match s.fillFor site a with
    | some t => (s.allocLine site t a (BitVec.ofNat 512 (leNat data)) psn []).serveFilled site a
    | none => s
  else (s.fetchFailed site a status).fetchTold site a status (c.demand == some a) (c.awaited a)

/-- A line fill answered that an invalidation had overtaken (R281): the loads that waited for it are served. -/
def State.staleAnswered (s : State) (site a tag : Nat) (status : Nat) (data : List Byte) (psn : Bool) : State :=
  s.modCore site (fun c =>
    { c with th := c.th.map (fun x => { x with loads := x.loads.map (fun l =>
        if l.tag = some tag ∧ l.resp.isNone then
          { l with resp := some ((data.drop (l.loc - a)).take l.kind.size, psn, status) }
        else l) }) })

/-- A channel's read answered (R316, R317, R320): an index entry of a gather, or bytes of its stream. -/
def State.chanAnswered (s : State) (ch : ChanId) (f : FabOut) (status : Nat) (data : List Byte) (psn : BitVec 5) : State :=
  if status ≠ 0 then
    (if status = 1 then s.unmappedAt (chanDie ch) f.addr else s).chanErr ch (fabCause status) false f.addr
  else
    match (s.chan ch).run with
    | none => s
    | some r =>
      let x := descOf r.desc
      if x.gather && r.idx.isNone && f.addr == x.idx + 4 * (r.done / x.sw) && f.len == 4 && !s.isLocal f.addr then
        (if psn ≠ 0 then s.chanErr ch 7 false f.addr
         else s.modChan ch (fun k => k.modRun (fun r => { r with idx := some (leNat data) })))
      else s.chanTake ch (marked f.addr data psn)

/-- An outstanding request ended with a status and what it brought (R354, R359). -/
def State.fabEnd (s : State) (f : FabOut) (status : Nat) (data : List Byte) (psn : BitVec 5) : State :=
  let s := { s with fabOut := s.fabOut.filter (fun g => g.tag != f.tag) }
  match f.owner with
  | .load site t => s.loadAnswered site (Fin.ofNat 4 t) f.tag (data, psn != 0, status)
  | .fill site a => s.fillAnswered site a status data (psn != 0)
  | .stale site a => s.staleAnswered site a f.tag status data (psn != 0)
  | .write => s.writeEnded f.tag status
  | .dmaRead ch => s.chanAnswered ch f status data psn
  | .signal => if status = 0 then s else s.count 3 f.port 11 32 1

/-- FABRIC_RESPONSE (R59, R350, R351, R353, R354, R359): a response no request waits for any more is discarded, and none comes through a port that is
down; one whose data has another length than was asked for does not occur and changes nothing. -/
def execFabricResponse (tag : Nat) (status : Nat) (data : List Byte) (poison : BitVec 5) (s : State) : Res :=
  done (match s.fabOut.find? (fun f => f.tag == tag) with
    | none => s
    | some f =>
      let carries := f.kind == .read || f.kind == .atomicAdd
      if 3 < status || !s.flag f.port ALF_STATUS_UP || (status == 0 && carries && data.length != f.len) then s
      else
        let n := respSlotBytes f.kind f.len (status == 0)
        let s := (s.count 3 f.port 4 32 n).oweResp f.port n
        let s := match f.act with
          | some a => s.meter a 3 f.port n
          | none => s
        let s := match f.dest with
          | some d => s.carry f.act f.port d data.length
          | none => s
        let s := if poison ≠ 0 then s.event f.port ALF_EVENT_POISON else s
        s.fabEnd f status data poison)

/-- The time a remote request has in ns (R359, R362): ALF_TIMEOUT.US, 0 acting as 1. -/
def State.fabLimit (s : State) (d : Nat) : Nat := max 1 (s.fld d ALF_TIMEOUT_US) * 1000

/-- FABRIC_TIMEOUT (R359): a request that has been unanswered for its time; before that it goes on. -/
def execFabricTimeout (x : TagTurn) (s : State) : Res :=
  let s := s.tick x.at_
  done (match s.fabOut.find? (fun f => f.tag == x.tag) with
    | none => s
    | some f =>
      if f.left + s.fabLimit f.port ≤ s.now then (s.fabTimedOut f.port f.addr).fabEnd f 4 [] 0 else s)

-- nodes and time marks

/-- A write of ALF_NODE sets every die's copy (R352). -/
def State.setNode (s : State) (v : Nat) : State := (List.range 8).foldl (fun s d => s.setFld d ALF_NODE_NODE v) s

/-- NODE_WRITE (R352). -/
def execNodeWrite (_r : Requester) (v : Nat) (s : State) : Res := done (s.setNode (v % 4096))

/-- A mark sent on every port that sends marks and is up (R361). -/
def State.sendMarks (s : State) (lead frame : Nat) : State :=
  (List.range 8).foldl (fun s d =>
    if s.flag d ALF_TIME_SEND && s.flag d ALF_STATUS_UP then s.emit (.mark d (lead % 2 ^ 24) (frame % 2 ^ 32)) else s) s

/-- TIME_MARK_SEND (R361): the time source's mark, 10 µs before its next curtain. -/
def execTimeMarkSend (at_ : Nat) (s : State) : Res :=
  let s := s.tick at_
  done (
    if s.flag 0 CUR_STATUS_RUN && s.fld 0 CUR_CTRL_SRC != 2 && s.now == at_ &&
       at_ + 10000 == s.curtainAt + s.fld 0 CUR_PERIOD_PERIOD then
      s.sendMarks 10000 (s.frame + 1)
    else s)

/-- TIME_MARK_RECEIVE (R361): a usable mark is an edge whose curtain falls at its instant, and is forwarded within 100 ns; how long it
was held is free (log 8). -/
def execTimeMarkReceive (die : Nat) (lead frame : Nat) (at_ : Nat) (s : State) : Res :=
  let s := s.tick at_
  done (
    if die < 8 && s.fld 0 CUR_CTRL_SRC == 2 && s.flag die ALF_TIME_RECV && s.flag die ALF_STATUS_UP then
      let delay := s.fld die ALF_DELAY_NS
      if lead < delay + 200 then s.event die ALF_EVENT_MARK_MISS
      else
        let c := at_ + lead - delay
        let s := s.setFld die ALF_TIME_OFS_FRAMES ((frame % 2 ^ 32 + 2 ^ 32 - (s.frame + 1) % 2 ^ 32) % 2 ^ 32)
        let (h, s) := s.fresh
        let s := s.sendMarks (lead - delay - h % 101) frame
        match s.judgeEdge 2 c with
        | .early => s.event 0 CUR_EVENT_PERIOD_ERR
        | .taken => { s with edgeAt := some c }
        | .ignored => s
    else s)

end Sys2Proof.Machine
end

