-- ==== Sys2Proof/Machine/Settings.lean ====
section
/-! DEFINITION. Contexts, their region tables and attributes, and the settings sets: the act table, the site assignment, the swap
with its validation, and the copy (R396 to R403). -/

namespace Sys2Proof.Machine

-- contexts

/-- A write of CFG_CTX_CMD: the context addressed and, for an entry command, the entry; what it does, and its result (R398). -/
def State.ctxCommand (s : State) (ctx : Nat) (f : State → State × Nat) : State :=
  let s := s.setFld 0 CFG_CTX_CMD_CTX (ctx % 64)
  let (s, n) := f s
  s.setFld 0 CFG_CTX_CMD_RESULT n

/-- Whether a context is being published (R398). -/
def State.pubOf (s : State) (ctx : Nat) : Bool := s.publishing == some (ctx % 64)

/-- A read of a pending region entry into the data registers (R398). -/
def State.ctxEntryGet (s : State) (ctx entry : Nat) : State :=
  let e := (get 0 s.rgnPend (ctx % 64 * 64 + entry % 64)).toNat
  (s.setRg64 (dkey 0 CFG_RGN_BASE_LO_ADDR.off) (bitsOf e 0 64)).setRg64 (dkey 0 CFG_RGN_LAST_LO_ADDR.off) (bitsOf e 64 64)

/-- A write of a pending region entry from the data registers (R398). -/
def State.ctxEntryPut (s : State) (ctx entry : Nat) : State × Nat :=
  let e := s.rg64 (dkey 0 CFG_RGN_BASE_LO_ADDR.off) + s.rg64 (dkey 0 CFG_RGN_LAST_LO_ADDR.off) <<< 64
  if s.pubOf ctx then (s, 1)
  else ({ s with rgnPend := put 0 s.rgnPend (ctx % 64 * 64 + entry % 64) (BitVec.ofNat 128 e) }, 0)

/-- The entry addressed by an entry command. -/
def State.ctxEntry (s : State) (entry : Nat) : State := s.setFld 0 CFG_CTX_CMD_ENTRY (entry % 64)

/-- CTX_READ_ENTRY (R398). Any requester may write CFG_CTX_CMD, whose fields are B fields. -/
def execCtxReadEntry (_r : Requester) (ctx entry : Nat) (s : State) : Res :=
  done ((s.ctxEntry entry).ctxCommand ctx (fun s => (s.ctxEntryGet ctx entry, 0)))

/-- CTX_WRITE_ENTRY (R398). -/
def execCtxWriteEntry (_r : Requester) (ctx entry : Nat) (s : State) : Res :=
  done ((s.ctxEntry entry).ctxCommand ctx (fun s => s.ctxEntryPut ctx entry))

/-- CTX_READ_ATTR (R398). -/
def execCtxReadAttr (_r : Requester) (ctx : Nat) (s : State) : Res :=
  done (s.ctxCommand ctx (fun s => (s.setRg (dkey 0 CFG_CTX_ATTR_MINCLASS.off) (get 0 s.attrPend (ctx % 64)), 0)))

/-- A write of pending attributes (R398). -/
def State.ctxAttrPut (s : State) (ctx : Nat) : State × Nat :=
  let w := s.rg (dkey 0 CFG_CTX_ATTR_MINCLASS.off) % 64
  if s.pubOf ctx then (s, 1) else ({ s with attrPend := put 0 s.attrPend (ctx % 64) w }, 0)

/-- CTX_WRITE_ATTR (R398). -/
def execCtxWriteAttr (_r : Requester) (ctx : Nat) (s : State) : Res :=
  done (s.ctxCommand ctx (fun s => s.ctxAttrPut ctx))

/-- A PUBLISH accepted, or turned away while another is in progress (R398). -/
def State.pubStart (s : State) (ctx : Nat) : State × Nat :=
  if s.publishing.isSome then (s, 1)
  else (({ s with publishing := some (ctx % 64) }).setFld 0 CFG_CTX_CMD_PUB 1, 0)

/-- PUBLISH (R398). -/
def execPublish (_r : Requester) (ctx : Nat) (s : State) : Res := done (s.ctxCommand ctx (fun s => s.pubStart ctx))

/-- A context's pending copy made live (R106, R398). -/
def State.goLive (s : State) (ctx : Nat) : State :=
  let rgn := (List.range 64).foldl (fun m k => put 0 m (ctx * 64 + k) (get 0 s.rgnPend (ctx * 64 + k))) s.rgnLive
  { s with rgnLive := rgn, attrLive := put 0 s.attrLive ctx (get 0 s.attrPend ctx) }

/-- PUBLISH_COMPLETE (R106, R398): region table and attributes together. -/
def execPublishComplete (s : State) : Res :=
  done (match s.publishing with
    | some c => ({ s.goLive c with publishing := none }).setFld 0 CFG_CTX_CMD_PUB 0
    | none => s)

-- the act table

/-- CFG_ACT_DATA as an entry. -/
def State.actData (s : State) : BitVec 1024 :=
  BitVec.ofNat 1024 (((List.range 32).map (fun i => s.fld 0 (CFG_ACT_DATA_DATA i) <<< (32 * i))).foldl (· + ·) 0)

/-- CFG_ACT_DATA set from an entry. -/
def State.setActData (s : State) (e : BitVec 1024) : State :=
  (List.range 32).foldl (fun s i => s.setFld 0 (CFG_ACT_DATA_DATA i) (bitsOf e.toNat (32 * i) 32)) s

/-- Whether the reserved fields of an act table entry are 0 (R44, R400). -/
def actClean (e : Nat) : Bool :=
  bitsOf e 12 4 == 0 && bitsOf e 17 7 == 0 && actFld e 0x03 1 == 0 && actFld e 0x06 2 == 0 && actFld e 0x38 8 == 0 &&
  bitsOf e (8 * 0x4D + 2) 6 == 0 && bitsOf e (8 * 0x4E + 6) 2 == 0 && bitsOf e (8 * 0x4F + 3) 5 == 0 && actFld e 0x78 8 == 0

/-- Whether every field lies in its range (R44, R400). -/
def actRanges (act e : Nat) : Bool :=
  bitsOf e 0 12 == act &&
  (if actSpan e then actBatchMax e == 0
   else decide (1 ≤ actBatchMax e) && decide (actBatchMax e ≤ 1024) && actHbmSpanBatch e == 0 && actHbmSpanStep e == 0 &&
     (List.range 8).all (fun d => actResv e d == 0)) &&
  decide (64 ≤ actEgr e) && decide (actEgr e ≤ 4160) && decide (1 ≤ actStgSize e) && decide (actStgSize e ≤ 8192) &&
  decide (1 ≤ actProgUnits e) && decide (actProgUnits e ≤ 1024) && decide (actProgFirst e + actProgUnits e ≤ 1024)

/-- Whether an entry's images lie wholly within HBM. -/
def actImages (e : Nat) : Bool := hbmIn (actProg e) (128 * actProgUnits e) && hbmIn (actImg e) 4096

/-- The check of an act table entry as it is written (R400). -/
def actResult (act e : Nat) : Nat :=
  if !actV e then 0
  else if !actClean e || !actRanges act e then 2
  else if actProg e % 64 ≠ 0 ∨ actImg e % 64 ≠ 0 ∨ !actImages e then 6
  else 0

/-- A write of CFG_ACT_CMD: the entry addressed, what it does, and its result (R400). -/
def State.actCommand (s : State) (act : Nat) (f : State → State × Nat) : State :=
  let s := s.setFld 0 CFG_ACT_CMD_ACT (act % 4096)
  let (s, n) := f s
  s.setFld 0 CFG_ACT_CMD_RESULT n

/-- ACT_READ_ACTIVE (R399, R404). Any requester may write CFG_ACT_CMD, whose fields are B fields. -/
def execActReadActive (_r : Requester) (act : Nat) (s : State) : Res :=
  done (s.actCommand act (fun s => (s.setActData (get 0 s.actA (act % 4096)), 0)))

/-- ACT_READ_SHADOW (R399, R404). -/
def execActReadShadow (_r : Requester) (act : Nat) (s : State) : Res :=
  done (s.actCommand act (fun s => (s.setActData (get 0 s.actS (act % 4096)), 0)))

/-- A shadow entry written (R400): a refused entry keeps its value. -/
def State.actPut (s : State) (act : Nat) : State × Nat :=
  let e := s.actData
  match actResult act e.toNat with
  | 0 => ({ s with actS := put 0 s.actS act e }, 0)
  | n => (s, n)

/-- ACT_WRITE_SHADOW (R400, R402). -/
def execActWriteShadow (_r : Requester) (act : Nat) (s : State) : Res :=
  done (if s.swapPending then s.shadowShut else s.actCommand act (fun s => s.actPut (act % 4096)))

-- the site assignment

/-- A write of CFG_ASN_CMD: the site addressed, what it does, and its result; a site index above 195 does nothing (R400). -/
def State.asnCommand (s : State) (die site : Nat) (f : State → Nat → State × Nat) : State :=
  let s := (s.setFld 0 CFG_ASN_CMD_DIE (die % 8)).setFld 0 CFG_ASN_CMD_SITE (site % 256)
  let (s, n) := if site % 256 < Config.sitesPerDie then f s (die % 8 * Config.sitesPerDie + site % 256) else (s, 2)
  s.setFld 0 CFG_ASN_CMD_RESULT n

/-- ASN_READ_ACTIVE (R399, R404): the fields are E fields. -/
def execAsnReadActive (r : Requester) (die site : Nat) (s : State) : Res :=
  done (s.asExpert r 0 true (fun s =>
    s.asnCommand die site (fun s k => (s.setFld 0 CFG_ASN_DATA_WORD (get 0 s.asnA k).toNat, 0))))

/-- ASN_READ_SHADOW (R399, R404). -/
def execAsnReadShadow (r : Requester) (die site : Nat) (s : State) : Res :=
  done (s.asExpert r 0 true (fun s =>
    s.asnCommand die site (fun s k => (s.setFld 0 CFG_ASN_DATA_WORD (get 0 s.asnS k).toNat, 0))))

/-- A shadow word written (R400). -/
def State.asnPut (s : State) (k : Nat) : State × Nat :=
  let w := s.fld 0 CFG_ASN_DATA_WORD
  if bitsOf w 30 1 = 1 ∨ bitsOf w 16 14 ≠ 0 then (s, 2) else ({ s with asnS := put 0 s.asnS k (BitVec.ofNat 32 w) }, 0)

/-- ASN_WRITE_SHADOW (R400, R402). -/
def execAsnWriteShadow (r : Requester) (die site : Nat) (s : State) : Res :=
  done (s.asExpert r 0 true (fun s => if s.swapPending then s.shadowShut else s.asnCommand die site State.asnPut))

-- the swap: each check is of the shadow set as the active one

/-- RESULT 2 (R401): a register of the set outside its range. -/
def State.badRange (v : State) : Bool :=
  let p := v.fld 0 CUR_PERIOD_PERIOD
  let u := v.fld 0 CFG_SS_UND_COUNT
  decide (p < 200000) || decide (1000000000 < p) || decide (u < 1) || decide (8 < u) ||
  (List.range 8).any (fun d =>
    decide (v.fld d CHK_AUDIT_LOG2 < 2) || decide (8 < v.fld d CHK_AUDIT_LOG2) ||
    (List.range 8).any (fun c => decide (256 < v.fld d (BOX_CLASS_SHARE_SHARE c))))

/-- RESULT 3 (R54, R401). -/
def State.badClose (v : State) : Bool :=
  let c := v.fld 0 BOX_CLOSE_CLOSE
  decide (c < 20) || decide (200 < c) || decide (v.fld 0 CUR_PERIOD_PERIOD < 2000 * c) ||
  (List.range 8).any (fun d => v.fld d BOX_CLOSE_CLOSE != c)

/-- Spanning charges of a slice at the reservations of the set (R46): HBM, fabric and egress. -/
def State.spanCharges (v : State) (d : Nat) : Nat × Nat × Nat :=
  v.spanActs.foldl (fun (h, f, g) (_, e) =>
    let n := ((List.range 8).map (actResv e)).foldl (· + ·) 0
    let c := actResv e d
    if n = 0 then (h, f, g)
    else
      (h + actHbmSpanBatch e + n * actHbmSpanStep e + actHbmHomeBatch e + c * actHbmHomeStep e,
       f + actFabBatch e + c * actFabStep e, g + c * actEgr e)) (0, 0, 0)

/-- HBM charges of all valid groups of a die (R226). -/
def grpAll (m : SMap (BitVec 1024)) (d : Nat) : Nat :=
  ((m.filter (fun (k, e) => k / 1024 == d && (grpOf e).v)).map (fun (_, e) =>
    let g := grpOf e
    let n := if g.dense then g.rows else g.maxrows
    4 * g.rows + n * (256 * g.rowb + 4 + 2 * g.slot) + 2 * g.mapsz + 128)).foldl (· + ·) 0

/-- RESULT 4 (R48, R226, R401). -/
def State.badSpan (v : State) : Bool :=
  let p := v.nominalLen
  (List.range 8).any (fun d =>
    let (h, f, g) := v.spanCharges d
    decide (v.capacity d 1 p 0 < h) || decide (v.capacity d 4 p 0 < f) || decide (v.capacity d 6 p 0 < g) ||
    decide (v.fld d BOX_HBM_CAP_CAP < h + grpAll v.grpA d))

/-- RESULT 5 on a die (R113, R400, R401). The count is compared where the set names understudies (DEDUCED, log 37). -/
def State.badUnd (v : State) (d : Nat) : Bool :=
  let us := (dieSites d).filter v.named
  let kept := v.keptReplacements
  let free := (dieSites d).filter (fun st =>
    v.good st && !v.isQuar st && !v.cast st && !kept.any (fun (_, r, _) => r == st))
  let n := v.fld 0 CFG_SS_UND_COUNT
  us.any v.cast || (!us.isEmpty && us.length != n) || decide (free.length < n)

/-- RESULT 6 of an act (R47, R401). -/
def State.badAct (v : State) (e : Nat) : Bool :=
  decide (8192 < actStgBase e + actStgSize e) || !actImages e ||
  (List.range 8).any (fun d =>
    if actDies e d then ((v.castSites d (actCast e d)).filter v.good).isEmpty else actSpan e && actResv e d != 0)

/-- The first failing check of a swap request (R401). -/
def State.swapResult (s : State) : Nat :=
  let v := s.exchange
  if s.swapPending then 1
  else if v.badRange then 2
  else if v.badClose then 3
  else if v.badSpan then 4
  else if (List.range 8).any v.badUnd then 5
  else if v.actA.any (fun (_, e) => actV e.toNat && v.badAct e.toNat) then 6
  else if (List.range 8).any v.hbmPromised then 7
  else 0

/-- SWAP_REQUEST (R401): taken up by the validation; ignored while a copy runs. -/
def execSwapRequest (_r : Requester) (s : State) : Res :=
  done (if s.flag 0 CFG_SS_CMD_BUSY then s else { s with swapReq := true })

/-- Whether the close for the next frame is still to come. -/
def State.beforeClose (s : State) : Bool := decide (s.closedFor ≤ s.frame) && decide (s.now < s.closeAt)

/-- A swap request validated (R401). -/
def State.validate (s : State) : State :=
  let n := s.swapResult
  let s := s.setFld 0 CFG_SS_STATUS_RESULT n
  if n ≠ 0 then s
  else
    let f := if s.beforeClose then s.frame + 1 else s.frame + 2
    let s := { s with swap := some ⟨f, false⟩ }
    (s.setFld 0 CFG_SS_STATUS_PEND 1).setRg64 (dkey 0 CFG_SS_FRAME_LO_FRAME.off) f

/-- SWAP_VALIDATION (R401). -/
def execSwapValidation (at_ : Nat) (s : State) : Res :=
  let s := s.tick at_
  done (if s.swapReq then ({ s with swapReq := false }).validate else s)

/-- Whether the close that precedes the curtain of effect has come (R403). -/
def State.swapClosed (s : State) (w : Swap) : Bool := w.closed || (decide (w.frame = s.frame + 1) && !s.beforeClose)

/-- SWAP_CANCEL (R403); ignored while a copy runs. -/
def execSwapCancel (_r : Requester) (s : State) : Res :=
  done (
    if s.flag 0 CFG_SS_CMD_BUSY then s
    else
      match s.swap with
      | some w => if s.swapClosed w then s.shadowShut else ({ s with swap := none }).setFld 0 CFG_SS_STATUS_PEND 0
      | none => s)

/-- The active set copied into the shadow set (R402). -/
def State.copySet (s : State) : State :=
  let t := ssKeys.foldl (fun s k => s.setRg (k + 0x800) (s.rg k)) s
  { t with actS := s.actA, asnS := s.asnA, grpS := s.grpA }

/-- SS_COPY (R402): the copy is made at its start, BUSY lasting until it is complete (log 33). -/
def execSsCopy (_r : Requester) (s : State) : Res :=
  done (
    if s.flag 0 CFG_SS_CMD_BUSY then s
    else if s.swapPending then s.shadowShut
    else s.copySet.setFld 0 CFG_SS_CMD_BUSY 1)

/-- SS_COPY_COMPLETE (R402). -/
def execSsCopyComplete (s : State) : Res := done (s.setFld 0 CFG_SS_CMD_BUSY 0)

end Sys2Proof.Machine
end

