-- ==== Sys2Proof/Machine/Trust.lean ====
section
/-! DEFINITION. Management and trust: telemetry, the error log's readers, the I3C ports and their MCTP endpoints, firmware banks, SPDM and
the opening of debug (R341, R342, R405 to R422). -/

namespace Sys2Proof.Machine

-- the management cores and telemetry

/-- HEARTBEAT (R406): the primary's, noted by the standby. -/
def execHeartbeat (s : State) : Res := done { s with beatAt := s.upTime }

/-- Heartbeats missed in a row: one is due every 1 ms (R406). -/
def State.missed (s : State) : Nat := (s.upTime - s.beatAt) / 1000000

/-- TAKEOVER (R406): where the standby has missed 10 heartbeats in a row; the signature being made comes to nothing, since none can be made any
more. -/
def execTakeover (s : State) : Res :=
  done (
    if s.flag 0 MGT_STATUS_ACTIVE || decide (s.missed < 10) then s
    else
      let t := { s with rot := { s.rot with signing := none } }
      (t.setFld 0 MGT_STATUS_ACTIVE 1).event 0 MGT_EVENT_TAKEOVER)

/-- The counts of steps committed and late rolled into the last second's (R410). -/
def State.rollSecond (s : State) : State :=
  if s.upTime < s.secAt + 1000000000 then s
  else
    let t := { s with committedSec := s.counter 6 0 14, lateSec := s.counter 6 0 15, secAt := s.upTime }
    (t.setCounter 6 0 14 0).setCounter 6 0 15 0

/-- SENSOR_SAMPLE (R410): every sensor, the clock step in force and the frames since the first curtain among them. -/
def execSensorSample (x : Sensors) (s : State) : Res :=
  let t := { s.sumPower with
    sensors := x
    sampled := (s.fld 0 CUR_CLK_CUR, if s.flag 0 CUR_STATUS_RUN then s.frame % 2 ^ 32 else 0) }
  done t.rollSecond

-- ports

/-- A port changed. -/
def State.modPort (s : State) (i : Nat) (f : Port → Port) : State :=
  { s with ports := (s.ports.zip (List.range s.ports.length)).map (fun (p, j) => if j = i then f p else p) }

/-- A port. -/
def State.port (s : State) (i : Nat) : Port := (s.ports[i]?).getD Port.reset

/-- Whether a port answers: the management domain has its supply, port A has not gone silent with the primary (R406), and EXTEST has
not taken the pins (R341). -/
def State.portUp (s : State) (i : Nat) : Bool :=
  s.pins.input && !(i == 0 && s.flag 0 MGT_STATUS_ACTIVE) && !s.pinsTaken

/-- A request served, or not heard. -/
def State.serve (s : State) (i : Nat) (f : State → State) : State := if s.portUp i then f s else s

/-- Whether firmware runs: before it, the boot ROM serves MCTP control and PLDM types 0 and 5 alone (R418). -/
def State.fwOk (s : State) : Bool := s.flag 0 MGT_STATUS_FW_OK

/-- EVENT_RETRY (R412): the oldest record not acknowledged is sent again. -/
def execEventRetry (port : Fin 2) (s : State) : Res :=
  let i := port.val
  done (
    match (s.port i).queue with
    | r :: _ => if s.portUp i && s.fwOk && (s.port i).events then (s.emit (.event i r)).emit (.inBand i) else s
    | [] => s)

/-- A record of the log acknowledged. -/
def State.ackRec (s : State) (id : Nat) : State :=
  { s with log := s.log.map (fun r => if r.id = id then { r with acked := true } else r) }

/-- PLDM_EVENT_ACK (R412, R418): the receiver acknowledges the oldest record sent to it. -/
def execPldmEventAck (port : Fin 2) (s : State) : Res :=
  let i := port.val
  done (s.serve i (fun s =>
    match s.fwOk, (s.port i).queue with
    | true, r :: t => (s.modPort i (fun (p : Port) => { p with queue := t })).ackRec r.id
    | _, _ => s))

/-- LOG_ACK (R412): every record of SEV 2 and 3 is acknowledged. Any requester may write the B field. -/
def execLogAck (_r : Requester) (s : State) : Res :=
  done { s with log := s.log.map (fun r => { r with acked := true }) }

/-- ENABLE_EVENTS (R412, R418): a PLDM type 2 request, served by running firmware. -/
def execEnableEvents (port : Fin 2) (on : Bool) (s : State) : Res :=
  let i := port.val
  done (s.serve i (fun s => if s.fwOk then s.modPort i (fun (p : Port) => { p with events := on }) else s))

/-- The Provisioned ID of a port, 48 bits (R407). -/
def State.provisionedId (s : State) (i : Nat) : Nat :=
  (Config.mipiCode % 2 ^ 15) * 2 ^ 33 + 0x5308 * 2 ^ 16 + (s.mid % 16) * 2 ^ 12 + i * 2 ^ 11 + Config.serial % 2 ^ 11

/-- ENTDAA (R407): a target without a dynamic address sends its Provisioned ID and takes the address it is given (PRESUMED of I3C, log 15). -/
def execEntdaa (port : Fin 2) (addr : Nat) (s : State) : Res :=
  let i := port.val
  done (s.serve i (fun s =>
    if (s.port i).dynAddr.isNone then
      (s.emit (.provisionedId i (s.provisionedId i))).modPort i (fun (p : Port) => { p with dynAddr := some addr })
    else s))

/-- Static address of a port (R448). -/
def State.staticAddr (s : State) (i : Nat) : Nat := (if i = 0 then 0x10 else 0x20) + s.mid

/-- SETDASA (R407): for the target whose static address it names. -/
def execSetdasa (port : Fin 2) (x : Dasa) (s : State) : Res :=
  let i := port.val
  done (s.serve i (fun s =>
    if x.target = s.staticAddr i then s.modPort i (fun (p : Port) => { p with dynAddr := some x.dyn }) else s))

/-- MCTP_CONTROL (R408): 1 sets the endpoint ID, 2 reads it, 5 lists the message types; 256, a number of the model's own, negotiates the transmission
unit, from 64 bytes up to 256 (DESIGN CHOICE, log 55). Bodies of other control messages are outside the manual (log 15). -/
def execMctpControl (port : Fin 2) (cmd : Nat) (arg : Nat) (s : State) : Res :=
  let i := port.val
  done (s.serve i (fun s =>
    let s := if cmd = 1 then s.modPort i (fun (p : Port) => { p with eid := arg % 256 })
      else if cmd = 256 then s.modPort i (fun (p : Port) => { p with unit := max 64 (min 256 arg) })
      else s
    s.emit (.mctp i (
      if cmd = 1 ∨ cmd = 2 then [cmd, (s.port i).eid]
      else if cmd = 5 then [cmd, 0, 1, 5]
      else if cmd = 256 then [cmd, (s.port i).unit]
      else [cmd]))))

/-- PLDM_DISCOVERY (R409): type 0 and its commands 1 to 5; 4 lists the types. Other bodies are outside the manual (log 15). -/
def execPldmDiscovery (port : Fin 2) (type cmd : Nat) (s : State) : Res :=
  let i := port.val
  done (s.serve i (fun s =>
    if type = 0 ∧ 1 ≤ cmd ∧ cmd ≤ 5 then
      s.emit (.pldm i .success (if cmd = 4 then (if s.fwOk then [0, 2, 4, 5] else [0, 5]) else []))
    else s.emit (.pldm i .unsupportedPldmCmd [])))

/-- The latest value of a sensor (R410). -/
def State.sensor (s : State) (id : Nat) : Option Int :=
  let x := s.sensors
  if id = 1 then some x.vin
  else if id = 2 then some x.iin
  else if id = 3 then some x.watts
  else if id = 4 then some x.inlet
  else if 10 ≤ id ∧ id < 18 then some ((x.dieTemp[id - 10]?).getD 0)
  else if 20 ≤ id ∧ id < 28 then some ((x.stackTemp[id - 20]?).getD 0)
  else if id = 30 then some s.sampled.1
  else if id = 31 then some s.sampled.2
  else if id = 32 then some s.committedSec
  else if id = 33 then some s.lateSec
  else none

/-- PLDM_SENSOR_READ (R409, R410). -/
def execPldmSensorRead (port : Fin 2) (id : Nat) (s : State) : Res :=
  let i := port.val
  done (s.serve i (fun s =>
    if !s.fwOk then s.emit (.pldm i .unsupportedPldmCmd [])
    else
      match s.sensor id with
      | some v => s.emit (.pldm i .success [v])
      | none => s.emit (.pldm i .invalidSensor [])))

/-- A byte of the FRU EEPROM (R419): the inventory, and the site-map record's header and signature, are the module's (log 9); the map has a bit
for every site in order, 1 where the site is good. -/
def State.fruByte (s : State) (a : Nat) : Byte :=
  if a < 0x440 then Config.secretByte 0 a
  else if a < 0x504 then
    BitVec.ofNat 8 ((List.range 8).map (fun j => if s.prodBad.contains (8 * (a - 0x440) + j) then 0 else 2 ^ j)).sum
  else if a < 0x2400 then Config.secretByte 0 a
  else if a < 0x5400 then (Config.identityCert[a - 0x2400]?).getD 0xFF
  else 0xFF

/-- n bytes of the FRU EEPROM. -/
def State.fru (s : State) (a n : Nat) : List Byte := (List.range n).map (fun k => s.fruByte (a + k))

/-- Whether the site-map record verifies under a vendor key (R112, R414, R419): its signature over header and map. -/
def State.mapOk (s : State) : Bool :=
  [false, true].any (fun k => Config.slhVerify (vendorKey k) (s.fru 0x400 260) (s.fru 0x504 7856))

/-- PLDM_FRU_READ (R409, R419): the inventory area of 1 KiB. -/
def execPldmFruRead (port : Fin 2) (off len : Nat) (s : State) : Res :=
  let i := port.val
  done (s.serve i (fun s =>
    if !s.fwOk then s.emit (.pldm i .unsupportedPldmCmd [])
    else s.emit (.pldm i .success ((s.fru off (min len (0x400 - off))).map (fun b => (b.toNat : Int))))))

-- firmware

/-- The bank that a load writes: the one not active; bank 1 where none is (DEDUCED, log 9). -/
def State.inactive (s : State) : Bool := match s.rot.active with | some b => !b | none => true

/-- A bank's contents. -/
def State.bank (s : State) (b : Bool) : SMap Byte := if b then s.rot.bank1 else s.rot.bank0

/-- A bank replaced. -/
def State.setBank (s : State) (b : Bool) (m : SMap Byte) : State :=
  if b then { s with rot := { s.rot with bank1 := m } } else { s with rot := { s.rot with bank0 := m } }

/-- n bytes of a bank. -/
def bankBytes (m : SMap Byte) (a n : Nat) : List Byte := (List.range n).map (fun i => get 0 m (a + i))

/-- A little-endian field of a bank. -/
def bankFld (m : SMap Byte) (a n : Nat) : Nat := leNat (bankBytes m a n)

/-- SHA-256 as bytes read from a bank, the first byte most significant. -/
def digestAt (m : SMap Byte) (a : Nat) : BitVec 256 :=
  BitVec.ofNat 256 ((bankBytes m a 32).foldl (fun n b => n * 256 + b.toNat) 0)

/-- The component entries of a header: type, offset, length and where the digest stands (R417). -/
def components (m : SMap Byte) : List (Nat × Nat × Nat × Nat) :=
  (List.range (bankFld m 6 2)).map (fun k =>
    let a := 0x40 + 48 * k
    (bankFld m a 2, bankFld m (a + 4) 4, bankFld m (a + 8) 4, a + 16))

/-- Whether the component table is as R417 asks: 2 to 8 entries, types 1 and 2 present, no type twice. -/
def tableOk (m : SMap Byte) : Bool :=
  let n := bankFld m 6 2
  let ts : List Nat := (components m).map (fun c => c.1)
  decide (2 ≤ n) && decide (n ≤ 8) && ts.contains 1 && ts.contains 2 && decide ts.Nodup &&
  ts.all (fun t => decide (1 ≤ t) && decide (t ≤ 3))

/-- Verification of a bank (R417). A bad component table is a component failure (DEDUCED, log 9). -/
def fwCheck (m : SMap Byte) : Nat :=
  let key := bankFld m 0x14 1
  let pub := bankBytes m 0x20 32
  if bankFld m 0 4 ≠ 0x53384657 ∨ bankFld m 4 2 ≠ 1 then 2
  else if 2 ≤ key ∨ sha256 pub ≠ keyDigest (key == 1) then 3
  else if !Config.slhVerify pub (bankBytes m 0 0x1C0) (bankBytes m 0x1C0 7856) then 4
  else if !tableOk m || (components m).any (fun (_, o, l, d) => sha256 (bankBytes m o l) != digestAt m d) then 5
  else 0

/-- MGT_FW_CMD.BUSY follows a verification or a PLDM load. -/
def State.fwBusy (s : State) : State := s.setFld 0 MGT_FW_CMD_BUSY (b2n (s.rot.verifying || s.rot.loading))

/-- A bank made active: BANK, SVN and FW_OK follow (R417, R418). -/
def State.activate (s : State) (b : Bool) : State :=
  let t := { s with rot := { s.rot with active := some b, next := false } }
  ((t.setFld 0 MGT_STATUS_BANK (b2n b)).setFld 0 MGT_STATUS_FW_OK 1).setFld 0 MGT_FW_SVN_SVN (bankFld (t.bank b) 0x0C 4)

/-- The end of a verification (R417): a passing bundle becomes active at once where no bank is. -/
def State.verified (s : State) : State :=
  let b := s.inactive
  let n := fwCheck (s.bank b)
  let s := s.setFld 0 MGT_FW_STATUS_RESULT n
  let t := { s with rot := { s.rot with verifying := false, loading := false, next := n == 0 } }
  let t := t.fwBusy
  if n ≠ 0 then t.event 0 MGT_EVENT_FW_FAIL else if t.rot.active.isNone then t.activate b else t

/-- REQUEST_UPDATE (R416): the bundle loads into the inactive bank and is then verified. Bytes past 4 MiB have no place there. -/
def execRequestUpdate (port : Fin 2) (bundle : List Byte) (s : State) : Res :=
  let i := port.val
  done (s.serve i (fun s =>
    if s.rot.verifying || s.rot.loading then s.emit (.pldm i .retryRequestUpdate [])
    else
      let m := memPutAll [] 0 (bundle.take 0x400000)
      let s := s.setBank s.inactive m
      let t := { s with rot := { s.rot with verifying := true, loading := true, next := false } }
      t.fwBusy.emit (.pldm i .success [])))

/-- FW_VERIFY (R416, R417). Any requester may write the B field. -/
def State.fwVerify (s : State) : State :=
  if s.rot.verifying || s.rot.loading then s.setFld 0 MGT_FW_STATUS_RESULT 1
  else ({ s with rot := { s.rot with verifying := true } }).fwBusy

/-- FW_VERIFY. -/
def execFwVerify (_r : Requester) (s : State) : Res := done s.fwVerify

/-- FW_VERIFY_COMPLETE (R417). -/
def execFwVerifyComplete (s : State) : Res := done (if s.rot.verifying then s.verified else s)

/-- The inactive bank discarded (R417); refused as busy while a load or a verification has it (DEDUCED, log 9). -/
def State.fwDiscard (s : State) : State :=
  if s.rot.verifying || s.rot.loading then s.setFld 0 MGT_FW_STATUS_RESULT 1
  else
    let t := s.setBank s.inactive []
    { t with rot := { t.rot with next := false } }

/-- FW_DISCARD. -/
def execFwDiscard (_r : Requester) (s : State) : Res := done s.fwDiscard

/-- A word written through the firmware window at window offset off (R416). While PLDM holds the bank the host may not load. A bundle that has passed
stays the one for the next reset, where it is verified again as it then stands (R417, R418). -/
def State.fwWindow (s : State) (off : Nat) (l : List Byte) : State :=
  if s.rot.loading || s.rot.verifying then s
  else
    let b := s.inactive
    s.setBank b (memPutAll (s.bank b) (s.fld 0 MGT_FW_OFS_OFS * 0x10000 + off) l)

-- SPDM

/-- An SPDM request served: by running firmware alone (R418). -/
def State.spdm (s : State) (i : Nat) (f : State → State) : State := s.serve i (fun s => if s.fwOk then f s else s)

/-- An SPDM answer. -/
def State.say (s : State) (i : Nat) (a : Answer) (l : List Nat) : State := s.emit (.spdm i a l)

/-- GET_VERSION (R420): version 1.3; it begins the exchange anew. -/
def execGetVersion (port : Fin 2) (s : State) : Res :=
  let i := port.val
  done (s.spdm i (fun s =>
    (s.modPort i (fun (p : Port) => { p with spdm := 1, chunks := [], response := [] })).say i .success [0x13]))

/-- The capability flags of the responder (R420): CERT, CHAL, MEAS with signature and CHUNK, at the bits 1, 2, 4:3 (2) and 17 of DSP0274 (PRESUMED,
log 15). -/
def capFlags : Nat := 2 + 4 + 2 * 8 + 2 ^ 17

/-- GET_CAPABILITIES (R420). -/
def execGetCapabilities (port : Fin 2) (s : State) : Res :=
  let i := port.val
  done (s.spdm i (fun s =>
    if (s.port i).spdm = 0 then s.say i .unexpectedRequest []
    else (s.modPort i (fun (p : Port) => { p with spdm := max 2 p.spdm })).say i .success [capFlags]))

/-- NEGOTIATE_ALGORITHMS (R420): the answer names the hash, 1 standing for TPM_ALG_SHA_256, and the two ExtAsym entries. A requester that offers
no SHA-256 is answered as one without the entries is (DEDUCED, log 15). -/
def execNegotiateAlgorithms (port : Fin 2) (x : AlgOffer) (s : State) : Res :=
  let i := port.val
  done (s.spdm i (fun s =>
    if (s.port i).spdm < 2 then s.say i .unexpectedRequest []
    else
      let ok := x.extAsym && x.sha256
      let s := s.modPort i (fun (p : Port) => { p with spdm := if ok then 3 else 4 })
      if ok then s.say i .success [1, 0x0001, 0x0002] else s.say i .unsupportedRequest []))

/-- An attestation request (R415, R418, R420): algorithms negotiated, and the attestation certificate signed. After a takeover nothing new
can be signed (R406). -/
def State.attest (s : State) (i : Nat) (f : State → State) : State :=
  s.spdm i (fun s =>
    let n := (s.port i).spdm
    if n < 3 then s.say i .unexpectedRequest []
    else if n = 4 then s.say i .unsupportedRequest []
    else if !s.flag 0 ROT_STATUS_ATT_READY then s.say i .responseNotReady []
    else f s)

/-- The certificate chain of slot 0. -/
def State.chain (s : State) : List Byte := certChain s.rot.epoch

/-- GET_DIGESTS (R420). -/
def execGetDigests (port : Fin 2) (s : State) : Res :=
  let i := port.val
  done (s.attest i (fun s => s.say i .success [(sha256 s.chain).toNat]))

/-- GET_CERTIFICATE (R420): slot 0 only. -/
def execGetCertificate (port : Fin 2) (slot off len : Nat) (s : State) : Res :=
  let i := port.val
  done (s.attest i (fun s =>
    if slot ≠ 0 then s.say i .invalidRequest []
    else s.say i .success (((s.chain.drop off).take len).map BitVec.toNat)))

/-- A signature begun, one at a time (R420); none after a takeover (R406). -/
def State.beginSign (s : State) (i : Nat) (req : List Nat) : State :=
  if s.rot.signing.isSome || s.flag 0 MGT_STATUS_ACTIVE then s.say i .responseNotReady []
  else { s with rot := { s.rot with signing := some (i, req) } }

/-- The active bank's contents; none is empty. -/
def State.activeBank (s : State) : SMap Byte := match s.rot.active with | some b => s.bank b | none => []

/-- The stage-manager runtime component of the active bank (R417). -/
def State.runtimeBytes (s : State) : List Byte :=
  match (components s.activeBank).find? (fun c => c.1 == 2) with
  | some (_, o, l, _) => bankBytes s.activeBank o l
  | none => []

/-- A measurement (R421). -/
def State.measure (s : State) (k : Nat) : Nat :=
  let hash (l : List Byte) : Nat := (sha256 l).toNat
  if k = 1 then hash maskRom
  else if k = 2 then hash (bankBytes s.activeBank 0 0x1C0)
  else if k = 3 then hash s.runtimeBytes
  else if k = 4 then hash (s.fru 0x400 0x2000)
  else s.rot.m5.toNat

/-- The measurements that an index of GET_MEASUREMENTS names: 0 their count, 255 all. -/
def State.measures (s : State) (index : Nat) : List Nat :=
  if index = 0 then [5]
  else if index = 255 then [1, 2, 3, 4, 5].map s.measure
  else [s.measure index]

/-- CHALLENGE (R420): the answer carries a signature over the nonce. -/
def execChallenge (port : Fin 2) (nonce : Nat) (s : State) : Res :=
  let i := port.val
  done (s.attest i (fun s => s.beginSign i [(sha256 s.chain).toNat, nonce]))

/-- GET_MEASUREMENTS (R420, R421). After a takeover whether the root of trust still answers is open (R406): a free value decides. -/
def execGetMeasurements (port : Fin 2) (index : Nat) (sign : Bool) (nonce : Nat) (s : State) : Res :=
  let i := port.val
  done (s.attest i (fun s =>
    if 5 < index ∧ index ≠ 255 then s.say i .invalidRequest []
    else if sign then s.beginSign i (nonce :: s.measures index)
    else if s.flag 0 MGT_STATUS_ACTIVE then
      let (v, s) := s.fresh
      if v % 2 = 0 then s.say i .responseNotReady [] else s.say i .success (s.measures index)
    else s.say i .success (s.measures index)))

/-- SIGNING_COMPLETE (R406, R420): the response stands ready for CHUNK_GET, which the port is told where it answers. -/
def execSigningComplete (s : State) : Res :=
  done (
    match s.rot.signing with
    | some (i, req) =>
      let t := { s with rot := { s.rot with signing := none } }
      let l := req.flatMap (leBytes 32) ++ signature s.rot.epoch req
      if s.flag 0 MGT_STATUS_ACTIVE then t
      else
        let t := t.modPort i (fun (p : Port) => { p with response := l })
        if s.portUp i then t.say i .largeResponse [] else t
    | none => s)

/-- CHUNK_SEND (R420): chunks of a large request in order. No request of the list the module supports needs one, so what the whole one
asks is outside the manual (log 15). -/
def execChunkSend (port : Fin 2) (handle seq : Nat) (data : List Byte) (last : Bool) (s : State) : Res :=
  let i := port.val
  done (s.spdm i (fun s =>
    let s := s.modPort i (fun (p : Port) =>
      let l := (if seq = 0 then [] else p.chunks) ++ data
      { p with chunks := if last then [] else l })
    s.say i .success [handle, seq]))

/-- Bytes of a chunk on a port: no more than its transmission unit (R408, R420; log 15). -/
def State.chunkLen (s : State) (i : Nat) : Nat := max 1 (min Config.chunkBytes (s.port i).unit)

/-- CHUNK_GET (R420): one chunk of the response that stands ready. -/
def execChunkGet (port : Fin 2) (handle seq : Nat) (s : State) : Res :=
  let i := port.val
  done (s.spdm i (fun s =>
    let l := ((s.port i).response.drop (seq * s.chunkLen i)).take (s.chunkLen i)
    if (s.port i).response.isEmpty then s.say i .unexpectedRequest []
    else s.say i .success (handle :: seq :: l.map BitVec.toNat)))

/-- ATTESTATION_READY (R415, R418): refused after an identity mismatch until the next cold reset. -/
def execAttestationReady (s : State) : Res :=
  done (if s.flag 0 ROT_STATUS_IDERR then s else s.setFld 0 ROT_STATUS_ATT_READY 1)

-- debug access

/-- Measurement 5 taken (R421). -/
def State.measure5 (s : State) : State :=
  let m := configDigest s.mid (s.flag 0 ROT_STATUS_DBG_OPEN) (s.flag 0 ROT_STATUS_IDERR)
  { s with rot := { s.rot with m5 := m } }

/-- DBGACC opened (R422). -/
def State.dbgOpen (s : State) : State :=
  ((s.setFld 0 ROT_STATUS_DBG_OPEN 1).setFld 0 MGT_DBG_STATUS_OPEN 1).measure5.event 0 ROT_EVENT_DBG

/-- The check of a debug token (R422). -/
def State.tokenResult (s : State) : Nat :=
  let m := s.bank s.inactive
  let nonce := (List.range 8).flatMap (fun k => leBytes 4 (s.fld 0 (ROT_DBG_NONCE_NONCE k)))
  let msg := bankBytes m 0x3FC000 96
  let sig := bankBytes m 0x3FC060 7856
  if msg.take 32 ≠ nonce then 1
  else if digestAt m 0x3FC020 ≠ sha256 Config.identityKey then 2
  else if !Config.slhVerify (vendorKey false) msg sig && !Config.slhVerify (vendorKey true) msg sig then 3
  else 0

/-- A debug token submitted (R422): SCOPE bit 0 opens DBGACC. -/
def State.token (s : State) : State :=
  let n := s.tokenResult
  let s := s.setFld 0 ROT_STATUS_RESULT n
  if n ≠ 0 then s.event 0 ROT_EVENT_TOKEN_FAIL
  else if bitOf (bankFld (s.bank s.inactive) 0x3FC040 4) 0 then s.dbgOpen
  else s

/-- DEBUG_TOKEN_SUBMIT (R422): the field is an E field. -/
def execDebugTokenSubmit (r : Requester) (s : State) : Res := done (s.asExpert r 0 true State.token)

/-- Whether a thread of a context is debug-stopped (R342). -/
def State.ctxStopped (s : State) (ctx : Nat) : Bool :=
  s.cores.any (fun (_, c) => threads.any (fun t => c.th[t].dbgStop && c.th[t].ctx == ctx))

/-- Contexts put into rehearsal: every step not yet delivered is held to no deadline (R342). -/
def State.rehMark (s : State) (on : Nat → Bool) : State :=
  { s with
    steps := s.steps.map (fun (x : Step) => if on x.ctx then { x with reh := true } else x)
    deliveries := s.deliveries.map (fun (x : Delivery) => if on x.ctx then { x with reh := true } else x)
    rehOff := s.rehOff.filter (fun c => !on c) }

/-- A write of MGT_REH (R342): set bits at once, cleared ones at the next close. -/
def State.setRehearsal (s : State) (mask : Nat) : State :=
  let old := s.rg64 (dkey 0 MGT_REH_LO_CTX.off)
  let stuck := (List.range 64).filter (fun c => bitOf old c && !bitOf mask c && s.ctxStopped c)
  let clear := (List.range 64).filter (fun c => bitOf old c && !bitOf mask c && !s.ctxStopped c)
  let new := stuck.foldl (fun m c => setBits m c 1 1) mask
  let s := s.setRg64 (dkey 0 MGT_REH_LO_CTX.off) new
  let s := if stuck.isEmpty then s else s.setFld 0 MGT_DBG_STATUS_ERR 1
  let s := { s with rehOff := setUnion s.rehOff clear }
  s.rehMark (fun c => bitOf mask c && !bitOf old c)

/-- REHEARSAL_SET (R342): the fields are E fields. -/
def execRehearsalSet (r : Requester) (mask : BitVec 64) (s : State) : Res :=
  done (s.asExpert r 0 (s.rg64 (dkey 0 MGT_REH_LO_CTX.off) != mask.toNat) (fun s => s.setRehearsal mask.toNat))

/-- The levels of the 18 sideband signals of R442, from PERST_N to MID3 in that table's order; those that only the board sets are given by the bits
of `free`. While EXTEST holds the pins, the module's outputs stand as its cells drive them (R341). -/
def State.pinLevels (s : State) (free : Nat) : BitVec 18 :=
  let drive := s.flag 0 CUR_CTRL_OUT_EN && s.flag 0 CUR_STATUS_RUN && decide (s.curtainAt + 10 ≤ s.now) && decide (s.now < s.curtainAt + 1010)
  let own (k : Nat) (v : Bool) : Bool := if s.pinsTaken then s.pins.cells.getLsbD k else v
  let levels : List Bool :=
    [s.pins.perst, own 1 (!s.pins.clkreq), own 2 (bitOf free 2), s.pins.pwrEn, own 4 s.pins.pwrgd, own 5 (!s.pins.thermtrip), own 6 (!s.pins.alert),
     own 7 (bitOf free 7), own 8 (bitOf free 8), own 9 (bitOf free 9), own 10 (bitOf free 10), bitOf free 11, own 12 drive, bitOf free 13,
     bitOf s.mid 0, bitOf s.mid 1, bitOf s.mid 2, bitOf s.mid 3]
  BitVec.ofNat 18 (levels.zipIdx.map (fun (b, k) => if b then 2 ^ k else 0)).sum

/-- EXTEST (R341): an instruction of the test access port. SAMPLE/PRELOAD and EXTEST capture the pins and shift the cells in, which drive the pins under
EXTEST; BYPASS leaves the boundary-scan register. The order of the chain, and levels that only the board sets, are free (log 55). -/
def execExtest (x : TapScan) (s : State) : Res :=
  let (v, t) := s.fresh
  done (
    if x.instr = .bypass then { s with pins := { s.pins with tap := .bypass } }
    else { t with pins := { s.pins with
      tap := x.instr
      captured := s.pinLevels v
      cells := x.cells } })

end Sys2Proof.Machine
end

