-- ==== Sys2Proof/Machine/Power.lean ====
section
/-! DEFINITION. Input supervision, stops and trips, power states, and the resets up to their completion (R423 to R438, R444). -/

namespace Sys2Proof.Machine

-- what survives

/-- Whether a register belongs to the management domain (R405, R437): MGT_, ROT_, PWR_LIMIT and the control blocks of the management cores. -/
def mgmtKept (d off : Nat) : Bool :=
  mgmtBlock d off || d == 0 && ((decide (0x100000 ≤ off) && decide (off < 0x101000)) || (decide (0x108000 ≤ off) && decide (off < 0x109000)) ||
    off == 0x10C008)

/-- Whether a register survives a warm reset (R437). -/
def warmKept (d off : Nat) : Bool :=
  mgmtKept d off ||
  (if 0x1000000 ≤ off then off % 0x10000 == 0x00C
   else [0xD0008, 0xD000C, 0xD0010, 0xD0014, 0x90008, 0x90010, 0x90014, 0xA0008, 0xA000C, 0xA0010, 0xA0014].contains off ||
     (decide (0xD0040 ≤ off) && decide (off < 0xD0200)))

/-- The memory and execution domains at their reset values, with the registers that `kept` leaves; the management domain and what is
outside the module stand (R432, R437). The time base goes on. -/
def State.renew (s : State) (kept : Nat → Nat → Bool) (cores : SMap Core) : State :=
  let cause := s.fld 0 PWR_STATUS_CAUSE
  let opened := s.fld 0 ROT_STATUS_DBG_OPEN
  let t : State :=
    { State.reset with
      pending := s.pending
      now := s.now
      upTime := s.upTime
      regs := (s.keepRegs kept).regs
      mem := s.mem.filter (fun (a, _) => inMgmtPads a)
      poison := s.poison.filter (fun g => inMgmtPads (g * 64))
      host := s.host
      nextCmd := s.nextCmd
      cores := cores
      nextTag := s.nextTag
      log := s.log
      logNext := s.logNext
      ports := s.ports
      sensors := s.sensors
      secAt := s.secAt
      committedSec := s.committedSec
      lateSec := s.lateSec
      beatAt := s.beatAt
      sampled := s.sampled
      hostPoison := s.hostPoison
      rot := s.rot
      prodBad := s.prodBad
      grade := s.grade
      siteBad := s.siteBad
      mid := s.mid
      pins := s.pins
      resetting := s.resetting
      rdData := s.rdData
      rdStatus := s.rdStatus
      out := s.out
      free := s.free }
  (t.setFld 0 PWR_STATUS_CAUSE cause).setFld 0 MGT_DBG_STATUS_OPEN opened

/-- The management cores (R405). -/
def State.mgmtCores (s : State) : SMap Core := s.cores.filter (fun (k, _) => decide (1584 ≤ k))

/-- What a warm reset leaves of the cores: the management cores, and the role of a quarantined site (R114, R432). mx.chk goes with the rest of a
core (R437), though R186 counts its CNT since cold reset (DESIGN CHOICE, log 54). -/
def State.warmCores (s : State) : SMap Core :=
  s.cores.filterMap (fun (k, c) =>
    if 1584 ≤ k then some (k, c)
    else if c.role = .quarantined then some (k, { Core.reset with role := .quarantined })
    else none)

-- firmware at a reset

/-- The active bank verified again at a cold or warm reset, a bundle verified meanwhile taking its place first (R417, R418). -/
def State.fwRestart (s : State) : State :=
  let s := s.setFld 0 MGT_STATUS_FW_OK 0
  match (if s.rot.next then some s.inactive else s.rot.active) with
  | none => s
  | some b =>
    if fwCheck (s.bank b) = 0 then s.activate b
    else ({ s with rot := { s.rot with active := none } }).event 0 MGT_EVENT_FW_FAIL

/-- CHK_SEED written on every die by the root of trust (R418, R433): a secret, so a free value. -/
def State.seedDies (s : State) : State :=
  (List.range 8).foldl (fun s d =>
    let (v, s) := s.fresh
    s.setRg64 (dkey d CHK_SEED_LO_SEED.off) (max 1 v)) s

/-- A fault of a site or a link reported to the management network (R112, R390): source and severity are not stated. -/
def State.notice (s : State) (die site : Nat) : State :=
  let (v, s) := s.fresh
  s.logRec (v % 1024) die site 0xFFFFFFFF (1 + v / 1024 % 3) 0

-- resets

/-- A warm reset (R432, R434): both domains reset, the site map and keys kept, firmware verified, CHK_SEED written. While a cold reset
is still awaited it is part of that, and a stop goes before it. -/
def State.warm (s : State) (cause : Nat) : State :=
  if s.resetting = .cold ∨ s.resetting = .stopped then s
  else
    let s := s.setFld 0 PWR_STATUS_CAUSE cause
    let t := s.renew warmKept s.warmCores
    { t with resetting := .warm }.fwRestart.seedDies

/-- WARM_RESET (R432, R440): PERST_N, hot reset or link disable, or the command. -/
def execWarmReset (why : WarmCause) (s : State) : Res :=
  done (s.warm (match why with | .perst => 6 | .hotReset => 7 | .command => 8))

/-- PWR_RESET_WARM (R440): an E field. -/
def execPwrResetWarm (r : Requester) (s : State) : Res := done (s.asExpert r 0 true (fun s => s.warm 8))

/-- Sites of which a thread may run: those whose CFG_CORE_CTRL has been written. -/
def State.liveSites (s : State) : List Nat :=
  s.regs.filterMap (fun (k, _) =>
    let off := k % 0x4000000
    let site := k / 0x4000000 * Config.sitesPerDie + (off - 0x1000000) / 0x10000
    if 0x1000000 ≤ off ∧ off % 0x10000 = 0x004 ∧ site < 1584 then some site else none)

/-- Every thread halts at its next bundle boundary (R425, R436). -/
def State.haltAll (s : State) : State :=
  s.liveSites.foldl (fun s site => threads.foldl (fun s t => s.haltThread site t) s) s

/-- A soft reset begun (R434, R436, R440); every reset clears MGT_REH (R342). Under a cold or warm reset or a stop it is nothing more. -/
def State.soft (s : State) (cause : Nat) : State :=
  if s.resetting = .none ∨ s.resetting = .soft ∨ s.resetting = .d0 then
    let s := (s.setFld 0 PWR_STATUS_CAUSE cause).haltAll
    let s := s.setRg64 (dkey 0 MGT_REH_LO_CTX.off) 0
    { s with resetting := .soft, resetAt := s.now, softOwed := true, softStage := 2, rehOff := [] }
  else s

/-- SOFT_RESET (R436): a Function Level Reset. -/
def execSoftReset (s : State) : Res := done (s.soft 9)

/-- PWR_RESET_SOFT (R440): an E field. -/
def execPwrResetSoft (r : Requester) (s : State) : Res := done (s.asExpert r 0 true (fun s => s.soft 10))

/-- COLD_RESET (R112, R415, R418, R421, R433, R435, R448): from the release of PERST_N to the start of the runtime; READY completes it.
`selfTestFail` names the sites that fail the self-test. No site is good where the production map does not verify. -/
def execColdReset (selfTestFail : List Nat) (straps : Nat) (s : State) : Res :=
  done (
    if s.resetting = .cold ∧ s.pins.pwrgd ∧ s.pins.perst then
      let t := s.renew mgmtKept s.mgmtCores
      let fails := (List.range Config.sites).filter (fun k => selfTestFail.contains k && !s.prodBad.contains k)
      let bad := if s.mapOk then s.prodBad ++ fails else List.range Config.sites
      let t := { t with
        siteBad := bad
        mid := straps % 16
        resetting := .coldRun
        rot := { t.rot with
          epoch := t.rot.epoch + 1
          signing := none } }
      let t := ((t.setRg (dkey 0 ROT_STATUS_MAP_OK.off) (setBits (t.rg (dkey 0 ROT_STATUS_MAP_OK.off)) 0 4
        (b2n s.mapOk + 4 * b2n (!identityOk)))).setRg (dkey 0 ROT_EVENT_DBG.off) 0).setFld 0 MGT_DBG_STATUS_OPEN 0
      let t := (List.range 8).foldl (fun t k =>
        let (v, t) := State.fresh t
        t.setFld 0 (ROT_DBG_NONCE_NONCE k) (v % 2 ^ 32)) t
      let t := t.fwRestart.measure5.seedDies
      if s.mapOk then fails.foldl (fun t k => t.notice (dieOf k) k) t else t.notice 0 0x7FF
    else s)

-- power on and off

/-- The rails rise to PWRGD (R435, R444); a PERST_N already released is taken then, and CLKREQ_N is held low from here on (R442). -/
def State.powerGood (s : State) : State :=
  { s with
    pins := { s.pins with
      pwrgd := true
      clkreq := true
      rose := false }
    resetting := .cold
    now := if s.pins.perst then 0 else s.now }

/-- The package rails turned off (R425, R444): what is not the management domain is lost. -/
def State.railsOff (s : State) : State :=
  let t := s.renew mgmtKept s.mgmtCores
  { t with pins := { t.pins with pwrgd := false }, resetting := .stopped }

/-- An in-band interrupt raised on both ports (R425); those that take events have raised theirs with the record. -/
def State.inBandAll (s : State) : State :=
  (List.range 2).foldl (fun s i => if s.portOpen i (s.port i) || !s.portSends then s else s.emit (.inBand i)) s

/-- An orderly stop (R425). 20 µs later the host link is down (State.linkUp). The record's cause is coded as PWR_STATUS.CAUSE (DEDUCED,
log 38), its source is not stated. -/
def State.orderlyStop (s : State) (cause : Nat) : State :=
  if s.resetting = .stopped ∨ !s.pins.pwrgd then s
  else
    let s := (s.setFld 0 PWR_STATUS_CAUSE cause).haltAll
    let s := s.cores.foldl (fun s (site, _) =>
      if 1584 ≤ site then s
      else threads.foldl (fun s t => s.modThr site t (fun x => { x with long := none, after := none })) s) s
    let (v, s) := s.fresh
    let s := (s.logRec (v % 1024) 0 0x7FF 0xFFFFFFFF 3 cause).inBandAll
    { s with resetting := .stopped, resetAt := s.now, softStage := 0 }

/-- RAILS_OFF (R425, R444): the end of an orderly stop; where PWR_EN has risen meanwhile, the sequence of R435 follows. -/
def execRailsOff (s : State) : Res :=
  done (
    if s.resetting = .stopped ∧ s.pins.pwrgd then
      let t := s.railsOff
      if t.pins.rose ∧ t.pins.input then t.powerGood else t
    else s)

/-- A trip: the rails go off at once, without the orderly stop (R423, R425). -/
def State.trip (s : State) (cause : Nat) : State :=
  if s.pins.pwrgd then (s.setFld 0 PWR_STATUS_CAUSE cause).railsOff else s

/-- UNDERVOLTAGE_WARNING (R423). -/
def execUndervoltageWarning (s : State) : Res :=
  done (if s.pins.input then (s.event 0 PWR_EVENT_UV_WARN).logRec 816 0 0x7FF 0xFFFFFFFF 1 0 else s)

/-- UNDERVOLTAGE_LOCKOUT (R423, R425). -/
def execUndervoltageLockout (at_ : Nat) (s : State) : Res := done ((s.tick at_).orderlyStop 2)

/-- OVERCURRENT (R423, R425). -/
def execOvercurrent (at_ : Nat) (s : State) : Res := done ((s.tick at_).orderlyStop 3)

/-- OVERVOLTAGE_WARNING (R423). -/
def execOvervoltageWarning (s : State) : Res :=
  done (if s.pins.input then (s.event 0 PWR_EVENT_OV_WARN).logRec 817 0 0x7FF 0xFFFFFFFF 1 0 else s)

/-- OVERVOLTAGE_TRIP (R423). -/
def execOvervoltageTrip (s : State) : Res := done (s.trip 4)

/-- THERMAL_TRIP (R425, R427, R444): THERMTRIP_N stays asserted until PWR_EN next rises. -/
def execThermalTrip (s : State) : Res :=
  done (if s.pins.pwrgd then (let t := s.trip 5; { t with pins := { t.pins with thermtrip := true } }) else s)

/-- OVERPOWER (R428): it forces the next clock fix. -/
def execOverpower (s : State) : Res :=
  let t := (s.event 0 PWR_EVENT_OVERPOWER).logRec 820 0 0x7FF 0xFFFFFFFF 2 0
  done { t with overpower := true }

/-- LOSS_OF_56V (R405, R423, R437, R444): the management domain is lost as well. -/
def execLossOf56v (s : State) : Res :=
  done { State.reset with
    pending := s.pending
    host := s.host
    hostPoison := s.hostPoison
    nextCmd := s.nextCmd
    nextTag := s.nextTag
    prodBad := s.prodBad
    grade := s.grade
    siteBad := s.prodBad
    pins := { s.pins with input := false, pwrgd := false, thermtrip := false, alert := false }
    resetting := .stopped
    rdData := s.rdData
    rdStatus := s.rdStatus
    out := s.out
    free := s.free }

/-- POWER_ON_RESET (R432, R435): the management domain starts; with PWR_EN high the rails follow. -/
def execPowerOnReset (s : State) : Res :=
  done (
    if s.pins.input then s
    else
      let t := { s with pins := { s.pins with input := true }, upTime := 0 }
      if t.pins.pwrEn then t.powerGood else t)

/-- PWR_EN_RISE (R435, R444): the rise that counts, the pin having been high for 10 µs (DESIGN CHOICE, log 55); during a stop that still runs the
sequence follows once the rails are off. -/
def execPwrEnRise (s : State) : Res :=
  done (
    if s.pinsTaken then s
    else
      let t := { s with pins := { s.pins with
        pwrEn := true
        thermtrip := false
        rose := s.pins.pwrgd && s.resetting == .stopped } }
      if t.pins.input && !t.pins.pwrgd then t.powerGood else t)

/-- PWR_EN_FALL (R444): low for 10 µs at the instant given. -/
def execPwrEnFall (at_ : Nat) (s : State) : Res :=
  let s := s.tick at_
  done (if s.pinsTaken then s else ({ s with pins := { s.pins with pwrEn := false, rose := false } }).orderlyStop 1)

/-- PERST_N_ASSERT (R432, R444): the change that counts, the pin having been low for 10 µs (DESIGN CHOICE, log 55): a warm reset while PWRGD is high;
none during a stop. -/
def execPerstNAssert (s : State) : Res :=
  done (
    if s.pinsTaken then s
    else
      let t := { s with pins := { s.pins with perst := false } }
      if t.pins.pwrgd then t.warm 6 else t)

/-- PERST_N_RELEASE (R432, R435): likewise the change that counts; with PWRGD high, the start of the cold reset that is due. -/
def execPerstNRelease (s : State) : Res :=
  done (
    if s.pinsTaken then s
    else
      let t := { s with pins := { s.pins with perst := true } }
      if t.pins.pwrgd ∧ t.resetting = .cold then { t with now := 0 } else t)

-- power states

/-- A write of PWR_CTRL.PREQ (R430, R434): 2 and 3 are ignored; during a soft reset it waits. 0 ungates the cores at once. -/
def State.setPreq (s : State) (v : Nat) : State :=
  if 2 ≤ v then s
  else if s.resetting = .soft then { s with preqPend := some v }
  else
    let s := s.setFld 0 PWR_CTRL_PREQ v
    if v = 0 ∧ s.clkGated then
      let t := { s with clkGated := false }
      if t.fld 0 PWR_STATUS_STATE = 1 then t.setFld 0 PWR_STATUS_STATE 0 else t
    else s

/-- PREQ_SET (R430). Any requester may write the B field. -/
def execPreqSet (_r : Requester) (s : State) : Res := done (s.setPreq 1)

/-- PREQ_CLEAR (R430). -/
def execPreqClear (_r : Requester) (s : State) : Res := done (s.setPreq 0)

/-- Entry to D3hot begun (R431): STATE shows P2. -/
def State.d3Begin (s : State) : State := ({ s with d3Pend := 2 }).setFld 0 PWR_STATUS_STATE 2

/-- D3HOT_ENTRY (R431, R434): it waits for a soft reset to complete. Before READY no configuration request is served (R435). -/
def execD3hotEntry (s : State) : Res :=
  done (
    if !s.flag 0 PWR_STATUS_READY || s.pcie.d3 || s.d3Pend != 0 then s
    else if s.resetting = .soft then { s with d3Pend := 3 }
    else s.d3Begin)

/-- What PWR_STATUS.STATE shows outside P2: P1 while the cores are clock-gated (R430). -/
def State.awake (s : State) : State := s.setFld 0 PWR_STATUS_STATE (b2n s.clkGated)

/-- D0_RETURN (R431): the execution domain starts as after a soft reset; an entry not yet carried out is given up (DEDUCED, log 38). -/
def execD0Return (s : State) : Res :=
  done (
    if s.pcie.d3 then
      let r : Resetting := if s.resetting = .none then .d0 else s.resetting
      { s with pcie := { s.pcie with d3 := false }, resetting := r, selfRefresh := false }.awake
    else if s.d3Pend = 0 then s
    else { s with d3Pend := 0 }.awake)

/-- PME_TURN_OFF (R431). -/
def execPmeTurnOff (s : State) : Res := done (s.emit .pmeToAck)

-- the host link

/-- PCIE_LINK_DOWN (R404, R432): no reset. -/
def execPcieLinkDown (s : State) : Res :=
  let t := { s with pcie := { s.pcie with up := false } }
  done (((t.setFld 0 CFG_PCIE_STATUS_GEN 0).setFld 0 CFG_PCIE_STATUS_WIDTH 0).setFld 0 CFG_PCIE_STATUS_DEGRADED 0)

/-- PCIE_LINK_UP (R389, R390, R404): below 32 GT/s or ×8 the link is degraded, which is reported. -/
def execPcieLinkUp (gen width : Nat) (s : State) : Res :=
  done (
    if s.resetting = .stopped then s
    else
      let slow := decide (gen < 5) || decide (width < 8)
      let t := { s with pcie := { s.pcie with up := true } }
      let t := ((t.setFld 0 CFG_PCIE_STATUS_GEN gen).setFld 0 CFG_PCIE_STATUS_WIDTH width).setFld 0 CFG_PCIE_STATUS_DEGRADED (b2n slow)
      (if slow then t.notice 0 0x7FF else t).flushAll)

/-- Bulk channels' bytes for the host that wait for bus mastering let go (R395). -/
def State.drainBulk (s : State) : State :=
  s.bdma.foldl (fun s (k, _) => s.drainBuf (.bulk (k / 16) (k % 16)) 129) s

/-- BUS_MASTER_ENABLE (R395). -/
def execBusMasterEnable (v : Bool) (s : State) : Res :=
  let t := { s with pcie := { s.pcie with bme := v } }
  done (if v then t.flushAll.drainBulk else t)

end Sys2Proof.Machine
end

