-- ==== Sys2Proof/Machine/RegWrite.lean ====
section
/-! DEFINITION. Writes of the memory-mapped registers (R6 to R12, R60, R109, R110): the access and level of each field, the pairs of
_LO and _HI registers, and what the write of each register does. -/

namespace Sys2Proof.Machine

-- fields

/-- A field's part of a value. -/
def Fld.of (f : Fld) (v : Nat) : Nat := bitsOf v f.lo (f.hi - f.lo + 1)

/-- A field's part of a value replaced. -/
def Fld.put (f : Fld) (v x : Nat) : Nat := setBits v f.lo (f.hi - f.lo + 1) x

/-- What a requester without expert access asks of a register (R12): E fields keep their value and take no action. -/
def RegRow.basic (r : RegRow) (old v : Nat) : Nat :=
  r.fields.foldl (fun n f => if f.expert then f.put n (if f.acc = .rw then f.of old else 0) else n) v

/-- A register's value after a write, by the access of each field (R7). WO bits and reserved bits hold nothing. -/
def RegRow.store (r : RegRow) (old v : Nat) : Nat :=
  r.fields.foldl (fun n f =>
    match f.acc with
    | .rw => f.put n (f.of v)
    | .w1c => f.put n (f.of old - (f.of old &&& f.of v))
    | .w1s => f.put n (f.of old ||| f.of v)
    | _ => n) old

/-- A field kept at its old value while a condition holds. -/
def keepIf (c : Bool) (f : RF) (old v : Nat) : Nat :=
  if c then setBits v f.lo (f.hi - f.lo + 1) (bitsOf old f.lo (f.hi - f.lo + 1)) else v

/-- The next state of a command carried out within another. -/
def State.doing (s : State) (e : State → Res) : State :=
  match e s with
  | .next t => t
  | _ => s

/-- A plain write of a register (R7). -/
def State.regPlain (s : State) (d off v : Nat) : State :=
  match regRow d off with
  | some r => s.setRg (dkey d off) (r.store (s.rg (dkey d off)) v)
  | none => s

-- units of the ring

/-- Curtain unit (R32, R34, R60). -/
def State.wrCurtain (s : State) (d off v : Nat) : State :=
  if off = 0x10000 then
    let s := (s.setFld 0 CUR_CTRL_OUT_EN (bitsOf v 2 1)).setSource (bitsOf v 0 2)
    if bitOf v 3 then s.rearm else s
  else if off = 0x10010 then
    if 5 < bitsOf v 8 4 then s else s.setFld 0 CUR_CLK_CAP (bitsOf v 8 4)
  else s.regPlain d off v

/-- Box office (R59, R60, R439). -/
def State.wrBox (s : State) (d off v : Nat) : State :=
  if off = 0x20000 then s.boxEnable d (bitOf v 0)
  else if off = 0x20058 then
    let s := s.regPlain d off v
    if bitOf v 2 then s.setFld d BOX_BREACH_CNT 0 else s
  else if off = 0x2005C then s.doing (execActRelease .host d (v % 4096))
  else s.regPlain d off v

/-- A command of CB_CMD (R65). -/
def State.cbOp (s : State) (r : Requester) (d x op : Nat) : State :=
  match op with
  | 1 => s.doing (execCbRead r d x)
  | 2 => s.doing (execCbWrite r d x)
  | 3 => s.doing (execCbSuspend r d x)
  | 4 => s.doing (execCbResume r d x)
  | 5 => s.doing (execCbFree r d x)
  | 6 => s.doing (execCbCopyIn r d ⟨x, .ok⟩)
  | 7 => s.doing (execCbCopyOut r d ⟨x, .ok⟩)
  | _ => if s.flag d CB_CMD_BUSY then s else s.setFld d CB_CMD_STREAM x

/-- Callboard (R65, R87). -/
def State.wrCb (s : State) (r : Requester) (d off v : Nat) : State :=
  if !s.cbUser r then s.violation d
  else if off = 0x30000 then s.cbOp r d (v % 2 ^ 18) (bitsOf v 24 4)
  else s.regPlain d off v

/-- Intake (R67, R68, R87). -/
def State.wrItk (s : State) (d off v : Nat) : State :=
  if 0x40100 ≤ off ∧ off < 0x40200 then
    let k := (off - 0x40100) / 32
    let n := bitsOf v 0 5
    if off % 32 = 8 then s.regPlain d off (keepIf (decide (n < 7) || decide (23 < n)) (ITK_RING_CTL_LOG2 k) (s.rg (dkey d off)) v)
    else if off % 32 = 12 then s.itkTail d k v
    else s.regPlain d off v
  else s.regPlain d off v

/-- Egress (R68, R83 to R87). -/
def State.wrEgr (s : State) (d off v : Nat) : State :=
  if 0x60100 ≤ off ∧ off < 0x60900 then
    let k := (off - 0x60100) / 32
    let n := bitsOf v 0 5
    if off % 32 = 8 then s.regPlain d off (keepIf (decide (n < 6) || decide (24 < n)) (EGR_RING_CTL_LOG2 k) (s.rg (dkey d off)) v)
    else if off % 32 = 12 then s.egrHead d k v
    else s.regPlain d off v
  else s.regPlain d off v

/-- Update engine (R212 to R226). -/
def State.wrUpd (s : State) (r : Requester) (d off v : Nat) : State :=
  if off = 0x80004 then
    let g := v % 1024
    match bitsOf v 24 4 with
    | 1 => s.doing (execGrpReadActive r d g)
    | 2 => s.doing (execGrpReadShadow r d g)
    | 3 => s.doing (execWriteShadow r d g)
    | 4 => s.doing (execGrpReadEta r d g)
    | _ => s.setFld d UPD_GRP_CMD_GROUP g
  else if off = 0x8002C then (s.setUpdSeed d (s.fld d UPD_SEED_IDX_IDX) (BitVec.ofNat 32 v)).updSeedStep d
  else s.regPlain d off v

/-- Mesh and program-memory copy (R266, R272). -/
def State.wrMsh (s : State) (r : Requester) (d off v : Nat) : State :=
  if off = 0x90040 then s.pmcStart r d (bitsOf v 24 4) (bitOf v 23) (bitsOf v 0 11) .ok else s.regPlain d off v

/-- Event gatherer (R335 to R340). -/
def State.wrEvg (s : State) (d off v : Nat) : State :=
  if 0xB0304 ≤ off ∧ off < 0xB03C4 ∧ off % 8 = 4 then s.popTarget d ((off - 0xB0304) / 8)
  else if 0xB0400 ≤ off ∧ off < 0xB0500 then
    let s := s.regPlain d off v
    if v % 65536 = 0 then s.endHold d ((off - 0xB0400) / 4) else s
  else if off = 0xB0600 then s.swset d (v % 1024)
  else s.regPlain d off v

/-- BDMA_cCTL (R324): fields change only while EN is 0, HOSTOK from the host alone, codes out of range ignored. -/
def bdmaCtl (r : Requester) (old v : Nat) : Nat :=
  if bitOf old 31 then setBits old 31 1 (bitsOf v 31 1)
  else
    let n := bitsOf v 0 5
    let v := keepIf (r != .host) (BDMA_CH_CTL_HOSTOK 0) old v
    let v := keepIf (bitsOf v 7 3 == 7) (BDMA_CH_CTL_BURST 0) old v
    let v := keepIf (bitsOf v 5 2 == 3) (BDMA_CH_CTL_PACE 0) old v
    keepIf (decide (n < 4) || decide (12 < n)) (BDMA_CH_CTL_LOG2 0) old v

/-- Bulk DMA (R318, R321, R324). -/
def State.wrBdma (s : State) (r : Requester) (d off v : Nat) : State :=
  if off = 0xC0000 then ((List.range 32).filter (bitOf v)).foldl (fun s l => s.addReq d l) s
  else if off < 0xC0100 then s.regPlain d off v
  else
    let c := (off - 0xC0100) / 64
    if off % 64 = 0x08 then (s.repace (.bulk d c)).regPlain d off (bdmaCtl r (s.rg (dkey d off)) v)
    else if off % 64 = 0x0C then s.bulkTail d c v
    else if off % 64 = 0x28 then s.restart (.bulk d c) (v % 4)
    else s.regPlain d off v

/-- Fabric port (R346, R352, R360 to R362): a limiter's credit has grown at the old rate so far. -/
def State.wrAlf (s : State) (d off v : Nat) : State :=
  if off = 0xD0000 then
    let s := s.setFld d ALF_CTRL_EN (v % 2)
    if bitOf v 1 || !bitOf v 0 then s.linkDown d else s
  else if off = 0xD0008 then s.setNode (v % 4096)
  else if off = 0xD0010 ∨ off = 0xD0014 then (s.growCredit d).regPlain d off v
  else if off = 0xD0018 then
    let s := if bitOf v 1 then (List.range 8).foldl (fun s e => s.setFld e ALF_TIME_RECV 0) s else s
    s.regPlain d off v
  else s.regPlain d off v

/-- Ledger (R381, R385, R388). -/
def State.wrLgr (s : State) (d off v : Nat) : State :=
  if off = 0xE0000 then
    let n := bitsOf v 0 5
    let s := if !s.flag d LGR_CTRL_EN && decide (18 ≤ n) && decide (n ≤ 26) then s.setFld d LGR_CTRL_LOG2 n else s
    if bitOf v 31 then s.lgrEnable d else s.lgrDisable d
  else s.regPlain d off v

/-- Management, root of trust and power (R412, R416, R422, R436, R440). -/
def State.wrMgt (s : State) (r : Requester) (d off v : Nat) : State :=
  if off = 0x100004 then
    match v % 4 with
    | 1 => s.fwVerify
    | 2 => s.fwDiscard
    | _ => s
  else if off = 0x100018 then s.doing (execLogAck r)
  else if off = 0x108004 then (if v % 4 = 1 then s.token else s)
  else if off = 0x10C004 then
    let s := s.setPreq (v % 4)
    match bitsOf v 8 2 with
    | 1 => s.soft 10
    | 2 => s.warm 8
    | _ => s
  else s.regPlain d off v

/-- CFG_SS_CMD (R401 to R404). -/
def State.ssOp (s : State) (r : Requester) (op : Nat) : State :=
  match op with
  | 1 => s.doing (execSwapRequest r)
  | 2 => s.doing (execSwapCancel r)
  | 3 => s.doing (execSsCopy r)
  | _ => s

/-- CFG_ACT_CMD (R400). -/
def State.actOp (s : State) (r : Requester) (op a : Nat) : State :=
  match op with
  | 1 => s.doing (execActReadActive r a)
  | 2 => s.doing (execActReadShadow r a)
  | 3 => s.doing (execActWriteShadow r a)
  | _ => s.setFld 0 CFG_ACT_CMD_ACT a

/-- CFG_ASN_CMD (R400). -/
def State.asnOp (s : State) (r : Requester) (op die site : Nat) : State :=
  match op with
  | 1 => s.doing (execAsnReadActive r die site)
  | 2 => s.doing (execAsnReadShadow r die site)
  | 3 => s.doing (execAsnWriteShadow r die site)
  | _ => (s.setFld 0 CFG_ASN_CMD_DIE die).setFld 0 CFG_ASN_CMD_SITE site

/-- CFG_CTX_CMD (R398). -/
def State.ctxOp (s : State) (r : Requester) (op ctx entry : Nat) : State :=
  let s := s.ctxEntry entry
  match op with
  | 1 => s.doing (execCtxReadEntry r ctx entry)
  | 2 => s.doing (execCtxWriteEntry r ctx entry)
  | 3 => s.doing (execCtxReadAttr r ctx)
  | 4 => s.doing (execCtxWriteAttr r ctx)
  | 5 => s.doing (execPublish r ctx)
  | _ => s.setFld 0 CFG_CTX_CMD_CTX ctx

/-- Host interface and settings (R398 to R404). -/
def State.wrCfg (s : State) (r : Requester) (d off v : Nat) : State :=
  if off = 0x120010 then s.ssOp r (v % 4)
  else if off = 0x120040 then s.actOp r (bitsOf v 24 4) (v % 4096)
  else if off = 0x120048 then s.asnOp r (bitsOf v 24 4) (bitsOf v 12 3) (v % 256)
  else if off = 0x120060 then s.ctxOp r (bitsOf v 24 4) (v % 64) (bitsOf v 8 6)
  else s.regPlain d off v

/-- A write of a unit's register, with what it does. -/
def State.wrUnit (s : State) (r : Requester) (d off v : Nat) : State :=
  match off / 0x10000 with
  | 0x1 => s.wrCurtain d off v
  | 0x2 => s.wrBox d off v
  | 0x3 => s.wrCb r d off v
  | 0x4 => s.wrItk d off v
  | 0x6 => s.wrEgr d off v
  | 0x8 => s.wrUpd r d off v
  | 0x9 => s.wrMsh r d off v
  | 0xB => s.wrEvg d off v
  | 0xC => s.wrBdma r d off v
  | 0xD => s.wrAlf d off v
  | 0xE => s.wrLgr d off v
  | 0x10 => s.wrMgt r d off v
  | 0x12 => s.wrCfg r d off v
  | _ => s.regPlain d off v

-- core control blocks

/-- CFG_CORE_CTRL (R107, R108, R111). SAFE is judged on the threads as the write finds them. -/
def State.wrCoreCtrl (s : State) (site v : Nat) : State :=
  let s := s.setSafe site (bitOf v 12)
  let s := (s.setCfld site CFG_CORE_CTRL_HP_EN (bitsOf v 11 1)).setCfld site CFG_CORE_CTRL_HP_THREAD (bitsOf v 8 2)
  threads.foldl (fun s t =>
    let start := bitOf v (4 + t.val)
    let halt := bitOf v t.val
    if start && s.halted site t then s.startThread site t (!halt)
    else
      let s := if start then s.ctrlErr site else s
      if halt then s.haltThread site t else s.resumeThread site t) s

/-- CFG_CORE_TRAP (R329): writes from the core's own threads are ignored. -/
def State.wrCoreTrap (s : State) (r : Requester) (site v : Nat) : State :=
  if ownThread r site then s.ctrlErr site
  else
    let s := s.setCfld site CFG_CORE_TRAP_VEC2 (bitsOf v 16 16)
    let flt := s.cfld site CFG_CORE_TRAP_L2FLT
    let s := s.setCfld site CFG_CORE_TRAP_L2FLT (flt - (flt &&& bitsOf v 12 4))
    let vec := BitVec.ofNat 16 (bitsOf v 16 16)
    threads.foldl (fun s t =>
      let s := if bitOf v (4 + t.val) then s.l2Release r site t Thread.returnL2 else s
      if bitOf v (8 + t.val) then s.l2Release r site t (fun x => x.runL2 vec) else s) s

/-- CFG_CORE_DBG_CTL (R343). -/
def State.wrDbgCtl (s : State) (r : Requester) (site v : Nat) : State :=
  let s := if bitOf v 16 then s.setCfld site CFG_CORE_DBG_CTL_ERR 0 else s
  threads.foldl (fun s t =>
    let s := if bitOf v t.val then s.dbgAsk r site t (fun s => s.dbgStopReq site t) else s
    let s := if bitOf v (4 + t.val) then s.dbgAsk r site t (fun s => s.modThr site t Thread.dbgGo) else s
    if bitOf v (8 + t.val) then s.dbgAsk r site t (fun s => s.modThr site t Thread.dbgStep) else s) s

/-- CFG_CUE_BINDk (R288): ignored while a thread of the core runs in the context the slot is bound to. -/
def State.wrBind (s : State) (d off site k v : Nat) : State :=
  if s.cflag site (CFG_CUE_BIND_V k) &&
     threads.any (fun t => !s.halted site t && (s.thr site t).ctx == s.cfld site (CFG_CUE_BIND_CTX k)) then s.ctxErr site
  else s.regPlain d off v

/-- A core-scope state register written through the control block counts as a write by thread 0 (R249, R308). -/
def State.wrCoreSt (s : State) (site off v : Nat) : State :=
  let n := 0x080 + (off - 0x200) / 4
  if n = 0x084 then s.dcFromBlock site v
  else if 0x090 ≤ n ∧ n < 0x0B0 ∧ n % 4 = 3 then s.crSoft site ((n - 0x090) / 4) v
  else s.stWrite site 0 n v true false true

/-- A write of a register of a core control block (R109, R111, R288, R290, R318, R321, R329, R343). -/
def State.wrCore (s : State) (r : Requester) (d off site v : Nat) : State :=
  let o := off % 0x10000
  let old := s.rg (dkey d off)
  if o = 0x004 then s.wrCoreCtrl site v
  else if o = 0x010 then (threads.filter (fun t => bitOf v t.val)).foldl (fun s t => s.raiseSwi site t) s
  else if o = 0x014 then threads.foldl (fun s t => s.ctxWrite site t (bitsOf v (8 * t.val) 6)) s
  else if o = 0x02C then s.wrCoreTrap r site v
  else if 0x200 ≤ o ∧ o < 0x400 then s.wrCoreSt site o v
  else if 0x800 ≤ o ∧ o < 0x900 then s.cueWrite site ((o - 0x800) / 4) (v % 65536)
  else if 0x900 ≤ o ∧ o < 0x910 then s.wrBind d off site ((o - 0x900) / 4) v
  else if o = 0xA00 ∨ o = 0xA40 then
    let v := keepIf (bitsOf v 2 3 == 7) (CDMA_CFG_BURST 0) old v
    let ch := ChanId.core site (if o = 0xA00 then 0 else 1)
    ((s.repace ch).regPlain d off (keepIf (bitsOf v 0 2 == 3) (CDMA_CFG_PACE 0) old v)).wantReq ch
  else if o = 0xA1C then s.restart (.core site 0) (v % 4)
  else if o = 0xA5C then s.restart (.core site 1) (v % 4)
  else if 0x1000 ≤ o then
    if o = 0x1000 then s.wrDbgCtl r site v
    else if o = 0x1024 then s.dbgDataWrite r site (BitVec.ofNat 32 v)
    else s.regPlain d off v
  else s.regPlain d off v

-- pairs

/-- A pair of _LO and _HI registers written (R11): lo is the offset of the low one. -/
def State.wrPair (s : State) (d lo low high : Nat) : State :=
  let k := dkey d lo
  let v := low + high <<< 32
  if lo = 0xE0004 then (if s.flag d LGR_CTRL_EN then s else s.setRg64 k v)
  else if lo = 0xF0010 then (if stackIn d v 12582912 then s.setRg64 k v else s)
  else if lo = 0xF0018 then s.setRg64 k (max 1 v)
  else if lo = 0x12F000 then s.setRehearsal v
  else s.setRg64 k v

/-- A write of a _LO register (R11): it waits for the same requester's write of _HI. -/
def State.wrLo (s : State) (r : Requester) (k v : Nat) : State :=
  { s with loWr := s.loWr.filter (fun (p : Requester × Nat × Word) => !(p.1 == whoOf r && p.2.1 == k)) ++ [(whoOf r, k, BitVec.ofNat 32 v)] }

/-- A write of a _HI register (R11): the pair takes effect. -/
def State.wrHi (s : State) (r : Requester) (d off v : Nat) : State :=
  let k := dkey d (off - 4)
  let high := match regRow d off with | some row => row.store (s.rg (dkey d off)) v | none => v
  match s.loWr.find? (fun p => p.1 == whoOf r && p.2.1 == k) with
  | some (_, _, w) =>
    let low := match regRow d (off - 4) with | some row => row.store (s.rg k) w.toNat | none => w.toNat
    { s with loWr := s.loWr.filter (fun (p : Requester × Nat × Word) => !(p.1 == whoOf r && p.2.1 == k)) }.wrPair d (off - 4) low high
  | none => s.wrPair d (off - 4) (s.rg k) high

-- a write of a register

/-- Whether a register is a shadow view of the settings set (R60). -/
def isShadow (k : Nat) : Bool := decide (0x800 ≤ k) && ssKeys.contains (k - 0x800)

/-- The registers of the callboard that only its users may write (R65). -/
def cbGuarded (off : Nat) : Bool :=
  off == 0x30000 || off == 0x30008 || off == 0x3000C || off == 0x30010 || (decide (0x30040 ≤ off) && decide (off < 0x30080))

/-- Whether a write is barred whatever the requester's level: the callboard's registers from other than its users (R65), MSH_PMC_CMD from
other than those who may copy (R266), the debug registers of a core from other than those who debug (R344, R345). -/
def State.barred (s : State) (r : Requester) (off : Nat) : Bool :=
  (cbGuarded off && !s.cbUser r) || (off == 0x90040 && !s.loader r) ||
  (decide (0x1000000 ≤ off) && decide (0x1000 ≤ off % 0x10000) && !dbgUser r)

/-- A permitted write, its E fields settled: pairs, shadow views, control blocks, units. -/
def State.wrAny (s : State) (r : Requester) (d off : Nat) (row : RegRow) (v : Nat) : State :=
  if isShadow (dkey d off) then (if s.swapPending then s.shadowShut else s.regPlain d off v)
  else if row.fields.all (fun f => f.acc == .ro) then s
  else if isLo off then s.wrLo r (dkey d off) v
  else if isHi off then s.wrHi r d off v
  else if 0x1000000 ≤ off then s.wrCore r d off (d * Config.sitesPerDie + (off - 0x1000000) / 0x10000) v
  else s.wrUnit r d off v

/-- A write by a requester without expert access (R12): its B fields are written, its E fields kept. Where the E fields make a difference to
what the write does, a value or an action, it is a violation; CFG_CORE_TRAP refuses its own core's threads besides (R329). -/
def State.wrBasic (s : State) (r : Requester) (d off : Nat) (row : RegRow) (old v : Nat) : State :=
  let t := if s.wrAny r d off row v = s.wrAny r d off row (row.basic old v) then s else s.violation d
  let site := d * Config.sitesPerDie + (off - 0x1000000) / 0x10000
  if !row.fields.all Fld.expert then t.wrAny r d off row (row.basic old v)
  else if 0x1000000 ≤ off ∧ off % 0x10000 = 0x02C ∧ ownThread r site then t.ctrlErr site
  else t

/-- An aligned 32-bit write of a die's register block (R6, R7, R10 to R12); the firmware window of die 0 takes bytes of a bundle
(R416). -/
def State.writeReg (s : State) (r : Requester) (d off : Nat) (w : Word) : State :=
  match regRow d off with
  | none =>
    if d = 0 ∧ 0x110000 ≤ off ∧ off < 0x120000 then s.fwWindow (off - 0x110000) (leBytes 4 w.toNat) else s
  | some row =>
    let old := (s.regView d off).getD 0
    let v := w.toNat
    if (s.regView d off).isNone then s
    else if s.barred r off then s.violation d
    else if s.expert r then s.wrAny r d off row v
    else s.wrBasic r d off row old v

/-- A write of a broadcast image (R110): applied at every addressed core as if written to its own block. -/
def State.writeBcast (s : State) (r : Requester) (off : Nat) (w : Word) : State :=
  (s.bcastSites off).foldl (fun s st => s.writeReg r (dieOf st) (siteOff st (off % 0x10000)) w) s

/-- A 32-bit write of the register space at a local address. -/
def State.writeSpace (s : State) (r : Requester) (a : Nat) (w : Word) : State :=
  match s.home a with
  | .reg d off => s.writeReg r d off w
  | .bcast off => s.writeBcast r off w
  | _ => s

/-- REGISTER_WRITE (R6 to R12). -/
def execRegisterWrite (r : Requester) (addr : Nat) (v : Word) (s : State) : Res := done (s.writeSpace r addr v)

/-- WRITE_HI (R11): the write of the _HI register of a pair. -/
def execWriteHi (r : Requester) (addr : Nat) (v : Word) (s : State) : Res := done (s.writeSpace r addr v)

/-- READ_LO (R11): the read of the _LO register of a pair; the value read stands in rdData. -/
def execReadLo (r : Requester) (addr : Nat) (s : State) : Res :=
  let (s, v) := s.readSpace r addr
  done { s with rdData := leBytes 4 v, rdStatus := 0 }

/-- BROADCAST_WRITE (R109, R110). -/
def execBroadcastWrite (r : Requester) (img : Image) (off : Nat) (v : Word) (s : State) : Res :=
  let base := match img with | .all => 0x1000000 | .group g => 0x1100000 + g % 32 * 0x10000
  done (s.writeBcast r (base + off % 0x10000) v)

/-- DBGACC (R341): the debug path reaches the register space of any die; closed, it reads 0 and writes nothing. -/
def execDbgacc (addr : Nat) (w : Option Word) (s : State) : Res :=
  let shut := !s.flag 0 ROT_STATUS_DBG_OPEN
  done (
    match w with
    | none =>
      let (s, v) := if shut then (s, 0) else s.readSpace .debug addr
      { s with rdData := leBytes 4 v, rdStatus := 0 }
    | some v => if shut then s else s.writeSpace .debug addr v)

end Sys2Proof.Machine
end

