-- ==== Sys2Proof/Machine/Integrity.lean ====
section
/-! DEFINITION. The stage managers: acts loaded into cores, replay preparation, quarantine, promotion, and threads stopped at L2
(R371, R376 to R380, R400). -/

namespace Sys2Proof.Machine

-- acts loaded into cores

/-- Every thread of a core halted, its long operation abandoned, nothing of it left at L2 (R376, R380). -/
def State.quench (s : State) (site : Nat) : State :=
  threads.foldl (fun s t =>
    (s.haltThread site t).modThr site t (fun x => { x with long := none, after := none, l2wait := false })) s

/-- What a core image's word writes: RO and WO fields are skipped; a 1 in a W1C or W1S field clears or sets its bit (R400). -/
def imageWord (row : RegRow) (v : Nat) : Nat :=
  row.fields.foldl (fun n f => if f.acc = .ro ∨ f.acc = .wo then n else f.put n (f.of v)) 0

/-- A word of a core image at offset o written into a core control block (R371, R400). The HALT bits wait for the start. -/
def State.imageStep (s : State) (site img o : Nat) : State :=
  match coreRegs.find? (fun r => r.covers o) with
  | none => s
  | some row =>
    let v := imageWord row (s.le (img + o) 4)
    let v := if o = 4 then setBits v 0 4 15 else v
    s.wrAny (.stage (dieOf site)) (dieOf site) (siteOff site o) row v

/-- An act's program and core image written into a halted core (R371, R377, R400), and whether that went well. -/
def State.loadAct (s : State) (site act : Nat) : State × Bool :=
  let e := s.act act
  let d := dieOf site
  match s.pmcIn d [site] (actProg e) (actProgFirst e) 0 .ok (actProgUnits e) with
  | (s, 0, _) =>
    match s.ringRead none d (actImg e) 4096 .ok with
    | (s, some (_, false)) => ((List.range 1024).foldl (fun s i => s.imageStep site (actImg e) (4 * i)) s, true)
    | (s, _) => (s, false)
  | (s, _, _) => (s, false)

/-- Acts loaded one after another; it stops at the first that fails, and names it. -/
def State.loadActs (s : State) (site : Nat) : List Nat → State × Option Nat
  | [] => (s, none)
  | a :: t =>
    match s.loadAct site a with
    | (s, true) => s.loadActs site t
    | (s, false) => (s, some a)

/-- The threads started at their entries: those whose HALT bit in an act's core image is 0 (R371; DEDUCED, log 39). -/
def State.startLoaded (s : State) (site act : Nat) : State :=
  let ctrl := s.le (actImg (s.act act) + 4) 4
  threads.foldl (fun s t => if bitOf ctrl t.val then s else (s.startAt site t).setHalt site t false) s

/-- A failed load (R371, R377): the site stays halted with no act resident, the failure is logged, and the act is not tried again on
the die before a swap. -/
def State.loadFailed (s : State) (site act : Nat) : State :=
  let d := dieOf site
  let s := (s.quench site).modCore site (fun c => { c with resident := none })
  let s := if s.loadErr.contains (d, act) then s else { s with loadErr := s.loadErr ++ [(d, act)] }
  (s.event d CHK_EVENT_LOAD_ERR).logRec 730 d site 0xFFFFFFFF 2 0

/-- Replays that an understudy cannot run any more, carried under R372 without a try: those placed on it that p selects, and their
held steps free to be placed again. -/
def State.unplace (s : State) (site : Nat) (p : Placed → Bool) : State :=
  let l := (s.core site).placed.filter (fun b => b.replay && p b)
  let xs := l.flatMap Placed.streams
  let s := s.modCore site (fun c => { c with placed := c.placed.filter (fun b => !(b.replay && p b)) })
  { s with steps := s.steps.map (fun (st : Step) => if st.phase = StepPhase.held ∧ xs.contains st.stream then { st with rpl := 0 } else st) }.restUnd site

/-- The replays of an act that has failed to load taken from every understudy of a die that does not hold it (R371). -/
def State.unplaceAct (s : State) (d act : Nat) : State :=
  ((s.understudies d).filter (fun u => (s.core u).resident != some act)).foldl (fun s u => s.unplace u (fun p => p.act == act)) s

/-- The next replay of an understudy that needs its act loaded first (R371): not one that has failed to load on the die, and not during a stop or a
reset (R425). -/
def State.prepares (s : State) (site act : Nat) : Bool :=
  let c := s.core site
  s.isUnd site && c.batch.isNone && c.resident != some act && !s.loadErr.contains (dieOf site, act) && !s.workShut &&
  (match c.placed with
   | p :: _ => p.replay && p.act == act
   | [] => false)

/-- REPLAY_PREPARE (R371). -/
def execReplayPrepare (site : Nat) (act : Nat) (s : State) : Res :=
  done (
    if !s.prepares site act then s
    else
      let s := (s.quench site).modCore site (fun c => { c with resident := none })
      match s.loadAct site act with
      | (s, true) => (s.modCore site (fun c => { c with resident := some act })).startLoaded site act
      | (s, false) => ((s.loadFailed site act).unplace site (fun p => p.act == act)).unplaceAct (dieOf site) act)

-- quarantine

/-- CHK_LAST.KIND of a quarantine. -/
def QuarCause.kind : QuarCause → Nat
  | .disagreement => 1
  | .coreError => 2
  | .checkFailures => 3
  | .understudyDisagreement => 4

/-- Whether a core is due for quarantine for a reason (R376). -/
def State.quarOwed (s : State) (site : Nat) (why : QuarCause) : Bool :=
  s.good site && !s.isQuar site && s.quarDue.contains (site, QuarCause.kind why)

/-- The site of a cast set whose place a quarantined site held: its own, or that of the member it replaced (R377). -/
def State.placeOf (s : State) (site : Nat) : Nat :=
  ((s.replaced.find? (fun (p : Nat × Nat × Nat) => p.2.1 == site)).map Prod.fst).getD site

/-- The acts of which a site of a cast set is a member, in ascending order (R377, R400). -/
def State.actsOf (s : State) (site : Nat) : List Nat :=
  (s.actA.filter (fun (_, e) =>
    actV e.toNat && actDies e.toNat (dieOf site) && bitOf (s.asn site) (actCast e.toNat (dieOf site)))).map Prod.fst

/-- The spanning acts that lose their steps with a core (R378): those of which it is a member, and those of which it holds a batch. -/
def State.spansOf (s : State) (site : Nat) : List Nat :=
  let c := s.core site
  (c.placed.map Placed.act ++ c.batches.map Running.act ++ s.actsOf (s.placeOf site)).filter (fun a => actSpan (s.act a))

/-- Whether a quarantine of a core loses a step (R378): placed or running there and not struck, or of a spanning act of which it is a member. -/
def State.lostWith (s : State) (site : Nat) (st : Step) : Bool :=
  (st.phase == .accepted || st.phase == .running) && (st.site == site || (s.spansOf site).contains st.act)

/-- Replays running on a core that is taken away, carried under R372 without a try (DEDUCED, log 39); which understudy failed them before stands (R373). -/
def State.carryReplays (s : State) (site : Nat) : State :=
  let s := s.unplace site (fun _ => true)
  match (s.core site).batch with
  | none => s
  | some b =>
    if b.replay then
      { s with steps := s.steps.map (fun (st : Step) =>
          if st.phase = .replaying ∧ b.slots.any (fun r => r.stream == st.stream) then
            { st with phase := .held, rpl := 0 }
          else st) }
    else s

/-- What a core held of its batches gone. -/
def Core.noBatch (c : Core) : Core :=
  { c with batch := none, ended := [], placed := [], queued := [], stgCount := 0, resident := none }

/-- The ledger or trap cause behind a quarantine's KIND, for its record (R376, R411): a disagreement's, a core error's; check failures have none. -/
def quarCode (kind : Nat) : Nat := if kind = 2 then 0x31 else if kind = 3 then 0 else 0x0A

/-- A core quarantined (R108, R114, R376, R378, R387). -/
def State.quarantine (s : State) (site kind : Nat) : State :=
  let d := dieOf site
  let lost := s.steps.filter (s.lostWith site)
  let s := lost.foldl (fun s st => s.darkStep st 0x21) s
  let s := (s.carryReplays site).modCore site (fun c => c.noBatch)
  let s := (s.quench site).setSafe site true
  let s := s.modCore site (fun c => { c with role := .quarantined })
  let s := (s.setFld d CHK_LAST_KIND kind).setFld d CHK_LAST_SITE site
  let s := { s with
    quarDue := s.quarDue.filter (fun (q : Nat × Nat) => q.1 != site)
    replaced := s.replaced ++ [(site, noSite, s.now)] }
  (s.count 4 d 7 32 1).integrity d CHK_EVENT_QUAR site noStream (quarCode kind)

/-- QUARANTINE (R376, R378). -/
def execQuarantine (site : Nat) (why : QuarCause) (at_ : Nat) (s : State) : Res :=
  let s := s.tick at_
  done (if s.quarOwed site why then s.quarantine site (QuarCause.kind why) else s)

-- promotion

/-- The understudy of highest site index on a die. -/
def State.lastUnd (s : State) (d : Nat) : Option Nat := (s.understudies d).getLast?

/-- A quarantined member's replacement owed and not yet found: the quarantine's instant (R377). -/
def State.promoteOwed (s : State) (site : Nat) : Option Nat :=
  let q := s.placeOf site
  let acts := s.actsOf q
  if s.isQuar site && s.cast q && !acts.any (fun a => s.loadErr.contains (dieOf site, a)) then
    (s.replaced.find? (fun (p : Nat × Nat × Nat) => p.1 == site && p.2.1 == noSite)).map (fun p => p.2.2)
  else none

/-- An understudy made a member in a quarantined site's place (R377). -/
def State.replaceBy (s : State) (site q u tq : Nat) : State :=
  let s := s.modCore u (fun c => { c with role := .worker, resident := none })
  let l := s.replaced.filter (fun (p : Nat × Nat × Nat) => p.1 != q && p.1 != site)
  let s := { s with replaced := l ++ [(q, u, tq)] }
  (s.count 4 (dieOf u) 8 32 1).integrity (dieOf u) CHK_EVENT_PROMOTE u noStream 0

/-- A promotion tried with an understudy (R377). -/
def State.promote (s : State) (site u tq : Nat) : State :=
  let q := s.placeOf site
  let acts := s.actsOf q
  let s := ((s.carryReplays u).modCore u (fun c => c.noBatch)).quench u
  match s.loadActs u acts with
  | (s, some a) => s.loadFailed u a
  | (s, none) =>
    let s := acts.foldl (fun s a => s.startLoaded u a) s
    s.replaceBy site q u tq

/-- PROMOTION (R377): the understudy of highest site index takes a quarantined member's place; with no understudy left the member is
not replaced. -/
def execPromotion (site : Nat) (at_ : Nat) (s : State) : Res :=
  let s := s.tick at_
  done (match s.promoteOwed site, s.lastUnd (dieOf site) with
    | some tq, some u => s.promote site u tq
    | _, _ => s)

-- machine checks

/-- The running batch of a core ended by a machine check (R373, R380): f gives each unended step's abort cause. -/
def State.breakBatch (s : State) (site : Nat) (f : Step → Nat) : State :=
  match (s.core site).batch with
  | none => s
  | some b =>
    let s := s.loseSteps site b f
    s.overBatch site b

/-- The offset in a core's own scratchpad that an effective address of a thread names, through its banks (R98, R331, R380). -/
def State.ownOffset (s : State) (site : Nat) (t : Fin 4) (ea : Nat) : Option Nat :=
  let b := ea / 2 ^ 29 % 8
  let off := ea % 2 ^ 29
  if b = 0 then some off
  else
    let g := ((s.thr site t).bk[Fin.ofNat 8 b]).toNat / 2 ^ 29 * 2 ^ 29 + off
    match s.home (localOf g) with
    | .pad st o => if st = site ∧ s.isLocal g then some o else none
    | _ => none

/-- The stream whose slot holds an offset of the core's scratchpad. -/
def Running.streamAt (b : Running) (a : Nat) : Option Nat :=
  (b.slots.find? (fun r => decide (r.off ≤ a) && decide (a < r.off + r.len))).map SlotRec.stream

/-- A context dead on a core (R365): its threads are halted. -/
def State.killCtx (s : State) (site ctx : Nat) : State :=
  threads.foldl (fun s t =>
    if (s.thr site t).ctx = ctx then
      (s.haltThread site t).modThr site t (fun x => { x with long := none, after := none, l2wait := false })
    else s) s

/-- A batch whose slots are all done with. -/
def Running.void (b : Running) : Running := { b with slots := b.slots.map (fun r => { r with struck := true }) }

/-- The batches of an act staged behind the running one dropped, their stage area released in its turn (R80). -/
def State.dropQueued (s : State) (site act : Nat) : State :=
  let c := s.core site
  let gone := (c.queued.filter (fun q => q.run.act == act)).map (fun q => q.run.void)
  let s := s.modCore site (fun c =>
    { c with
      queued := c.queued.filter (fun q => q.run.act != act)
      ended := c.ended ++ gone })
  s.freeStage site (s.core site).ended.length

/-- The batches of an act placed or staged on a member and not begun lost (R380): steps aborted with 0x07, replays carried. -/
def State.losePlaced (s : State) (site act : Nat) : State :=
  let c := s.core site
  let mine (p : Placed) : Bool := !p.replay && p.act == act
  let xs := (c.placed.filter mine).flatMap Placed.streams ++
    (c.queued.filter (fun q => q.run.act == act)).flatMap (fun q => q.run.slots.map SlotRec.stream)
  let s := (s.steps.filter (fun st =>
    (st.phase == .accepted || st.phase == .running) && st.act == act && xs.contains st.stream)).foldl (fun s st => s.abortStep st 0x07) s
  let s := s.modCore site (fun c => { c with placed := c.placed.filter (fun p => !mine p) })
  (s.dropQueued site act).unplace site (fun p => p.act == act)

/-- Poison consumed by a thread's context at an offset of the core's scratchpad, or elsewhere (R365, R380): the batch is lost where it is the context's. -/
def State.poisonCheck (s : State) (site ctx : Nat) (off : Option Nat) : State :=
  let d := dieOf site
  let s := s.count 4 d 10 32 1
  match (s.core site).batch with
  | none => s.killCtx site ctx
  | some b =>
    if b.ctx ≠ ctx then s.killCtx site ctx
    else
      let hit := off.bind b.streamAt
      let s := s.breakBatch site (fun st => if some st.stream = hit then 0x05 else 0x07)
      let s := (s.losePlaced site b.act).killCtx site ctx
      let s := s.modCore site (fun c => { c with resident := none })
      if b.replay then s else s.holdAct d b.act

/-- The threads of a context that run or have trapped restarted at their entries (R380). -/
def State.restartAll (s : State) (site ctx : Nat) : State :=
  threads.foldl (fun s t =>
    let x := s.thr site t
    if x.ctx = ctx ∧ (x.level ≠ .l0 ∨ !s.halted site t) then (s.startAt site t).setHalt site t false else s) s

/-- A thread stopped at L2 dealt with by its cause (R380); other causes cannot be there and change nothing. -/
def State.handleL2 (s : State) (site : Nat) (t : Fin 4) : State :=
  let x := s.thr site t
  let cause := bitsOf x.sv2.cause.toNat 0 8
  let s := match cause with
    | 0x30 => s.poisonCheck site x.ctx (s.ownOffset site t x.sv2.addr.toNat)
    | 0x31 => (s.breakBatch site (fun _ => 0x09)).owe site 2
    | 0x32 => (s.breakBatch site (fun _ => 0x08)).restartAll site x.ctx
    | _ => s
  s.integrity (dieOf site) CHK_EVENT_MCHK site noStream cause

/-- MACHINE_CHECK_HANDLING (R365, R380). -/
def execMachineCheckHandling (site : Nat) (th : Fin 4) (at_ : Nat) (s : State) : Res :=
  let s := s.tick at_
  done (if s.good site && (s.thr site th).l2wait then s.handleL2 site th else s)

end Sys2Proof.Machine
end

