-- ==== Sys2Proof/Machine/Landing.lean ====
section
/-! DEFINITION. Writes performed at their home, or sent out over the fabric, and what they meet on the mesh (R253, R254, R264, R269, R270,
R274, R275, R280, R282, R320, R356). -/

namespace Sys2Proof.Machine

/-- Whether two writes touch a granule in common. -/
def PWrite.meets (v w : PWrite) : Bool := (granules v.loc v.data.length).any (fun g => (granules w.loc w.data.length).contains g)

/-- Whether a write, the k-th in flight, may be performed or sent now (R280, R282, R356): after earlier writes of its command to the
same granule; a landing write after all of them and, with observed release or over the fabric, after the observed set. -/
def State.landReady (s : State) (k : Nat) (w : PWrite) (far : Bool) : Bool :=
  let before := (s.inflight.take k).filter (fun v => v.cmd == w.cmd)
  !before.any (fun v => v.meets w) &&
  (!w.landing || (before.isEmpty && ((!w.orel && !far) || w.obs.all (fun c => !s.cmdOpen c))))

/-- Whether a write's release has failed: a command of its observed set ended in error (R282). -/
def State.releaseFails (s : State) (w : PWrite) : Bool := w.landing && w.orel && w.obs.any (fun c => s.errCmds.contains c)

/-- A write no longer in flight. -/
def State.unsend (s : State) (k : Nat) : State := { s with inflight := s.inflight.eraseIdx k }

/-- What a write leaves for those who read it: the observed set of its issuer, for a landing write or a completion record (R282). -/
def PWrite.shown (w : PWrite) : List Nat := if w.landing || !w.obs.isEmpty then setAdd w.obs w.cmd else []

/-- Whether a write covers a part of a granule alone, so that the rest is read and merged (R268, R270): one whose beats each do counts so. -/
def PWrite.partly (w : PWrite) : Bool := w.part || w.loc % 64 != 0 || w.data.length % 64 != 0

/-- Bytes landing in memory: a thread's are charged here. Parts of a poisoned granule keep its poison (R270, R316). -/
def State.landMem (s : State) (w : PWrite) : State :=
  let s := match w.req with
    | .thread site _ => s.access w.act (dieOf site) w.loc w.data.length true
    | _ => s
  s.landBytes w.loc w.data (w.poison || (w.part && s.poisoned w.loc w.data.length)) w.shown

/-- Aligned words written to the register space. -/
def State.landRegs (s : State) (r : Requester) (a : Nat) : List Byte → State
  | b0 :: b1 :: b2 :: b3 :: t => (s.writeSpace r a (BitVec.ofNat 32 (leNat [b0, b1, b2, b3]))).landRegs r (a + 4) t
  | _ => s

/-- Who a write of the register space comes from: the channel or core site thread in the context of the command, which it may have left by
now (R12, R310). -/
def PWrite.sender (w : PWrite) : Requester :=
  match w.req with
  | .thread site _ => if site < Config.sites then .posted w.req w.ctx else w.req
  | .chan _ _ => .posted w.req w.ctx
  | .bulk _ _ => .posted w.req w.ctx
  | r => r

/-- A write performed at its home on this module (R229, R257, R264, R274). -/
def State.landHere (s : State) (w : PWrite) : State :=
  match s.home w.loc with
  | .hbm _ => s.landMem w
  | .pad site off => if s.padRefuses site off w.data.length true then s.writeFailed w 4 else s.landMem w
  | .reg d _ => (s.carry w.act (reqDie w.req) d w.data.length).landRegs w.sender w.loc w.data
  | .bcast _ => (s.carryAll w.act (reqDie w.req) w.data.length).landRegs w.sender w.loc w.data
  | .unmapped => (s.unmappedAt (reqDie w.req) w.loc).writeFailed w 3

/-- Whether a channel's write is discarded: 20 µs after a soft reset or a stop (R425, R436). -/
def State.discards (s : State) (w : PWrite) : Bool :=
  (match w.req with
   | .thread _ _ => false
   | _ => true) &&
  (s.resetting == .soft || s.resetting == .stopped) && decide (s.resetAt + 20000 ≤ s.now)

/-- The die whose routers a write crosses on the mesh to its home, or to the port of its plane; none where it does not: a core's own scratchpad,
or the stack, registers or port of a ring unit's own die (R253, R256, R353). -/
def State.crossed (s : State) (w : PWrite) : Option Nat :=
  if !s.isLocal w.loc then
    match w.req with
    | .bulk e _ => if planeOf (localOf w.loc) = some e then none else some e
    | _ => some (reqDie w.req)
  else
    match s.home (localOf w.loc), w.req with
    | .pad site _, .thread st _ => if site = st then none else some (dieOf site)
    | .pad site _, .chan st _ => if site = st then none else some (dieOf site)
    | .pad site _, _ => some (dieOf site)
    | .hbm d, .bulk e _ => if d = e then none else some d
    | .hbm d, .ring e _ => if d = e then none else some d
    | .hbm d, _ => some d
    | .reg d _, .bulk e _ => if d = e then none else some (d % 8)
    | .reg d _, _ => some (d % 8)
    | .bcast _, _ => some (reqDie w.req)
    | .unmapped, _ => none

/-- A write in flight whose payload met a parity error on the mesh (R253): its granule is poisoned. -/
def State.spoilWrite (s : State) (k : Nat) (w : PWrite) : State :=
  match s.crossed w with
  | some d => { s.meshParity d with inflight := s.inflight.set k { w with poison := true } }
  | none => s

/-- The channel whose write it is. -/
def PWrite.chan (w : PWrite) : Option ChanId :=
  match w.req with
  | .chan site c => some (.core site c)
  | .bulk d c => some (.bulk d c)
  | _ => none

/-- Whether a landing write is not performed because its command has met an error (R280, R320). -/
def State.landBarred (s : State) (w : PWrite) : Bool :=
  w.landing &&
  (s.errCmds.contains w.cmd ||
   match w.chan with
   | some ch => (s.chan ch).err.isSome && (s.chan ch).run.any (fun r => r.cmd == w.cmd)
   | none => false)

/-- Whether a write may leave over the fabric in one transaction with the k-th of its command (R280, R356): after earlier writes to the same
granule, and a landing write after all of them and the observed set. -/
def State.landsWith (s : State) (k : Nat) (v : PWrite) : Bool :=
  let before := (s.inflight.take k).filter (fun w => w.cmd == v.cmd)
  !before.any (fun w => w.meets v) &&
  (!v.landing || (!s.landBarred v && !s.releaseFails v && before.isEmpty && v.obs.all (fun c => !s.cmdOpen c)))

/-- Of the writes in flight after the k-th, those of its command that go on from an address granule by granule, `room` bytes at most: with
their places, they leave with it (R354; DEDUCED, log 53). -/
def State.follow (s : State) (k cmd : Nat) : Nat → Nat → List (PWrite × Nat) → List (PWrite × Nat)
  | _, _, [] => []
  | next, room, (v, i) :: t =>
    if v.cmd ≠ cmd then s.follow k cmd next room t
    else if v.tag.isNone ∧ v.loc = next ∧ next % 64 = 0 ∧ v.data.length ≤ room ∧ s.landsWith k v then
      (v, i) :: s.follow k cmd (next + v.data.length) (room - v.data.length) t
    else []

/-- The writes of one transaction that starts with the k-th in flight: up to four granules, 256 bytes at most (R354). -/
def State.packet (s : State) (k : Nat) (w : PWrite) : List (PWrite × Nat) :=
  (w, k) :: s.follow k w.cmd (w.loc + w.data.length) (256 - w.loc % 64 - w.data.length) (s.inflight.zipIdx.drop (k + 1))

/-- A write, the k-th in flight, offered to the fabric with those that leave with it, each granule with its mark (R353, R354, R356, R358); a
thread's is charged its way to the port here. -/
def State.landFar (s : State) (k : Nat) (w : PWrite) : State :=
  let l := s.packet k w
  let data := l.flatMap (fun p => p.1.data)
  let kind : FabKind := if l.any (fun p => p.1.landing) then .landing else .write
  let marks := (l.filter (fun p => p.1.poison)).map (fun p => 2 ^ (p.1.loc / 64 - w.loc / 64))
  let q : FabReq := { s.fabReq kind w.ctx w.loc data.length with data := data, poison := BitVec.ofNat 5 marks.sum }
  let s := match w.req with
    | .thread site _ => s.carry w.act (dieOf site) (s.homeDie w.loc) data.length
    | _ => s
  let gone (i : Nat) : Bool := l.any (fun p => p.2 == i)
  match s.fabSendMsg .write w.act w.loc q with
  | (s, .sent tag) => { s with inflight := s.inflight.zipIdx.map (fun (v, i) => if gone i then { v with tag := some tag } else v) }
  | (s, .ended st) =>
    let t : State := { s with inflight := (s.inflight.zipIdx.filter (fun p => !gone p.2)).map Prod.fst }
    t.writesFailed (l.map Prod.fst) st

/-- A landing write that is not performed: it counts among the bytes that did not land (R320). -/
def State.notLanded (s : State) (k : Nat) (w : PWrite) : State :=
  match w.chan with
  | some ch => (s.unsend k).modChan ch (fun c => c.modRun (fun r =>
      if r.cmd = w.cmd then { r with bad := some (min (r.bad.getD w.off) w.off) } else r))
  | none => s.unsend k

/-- A write that received no answer (R254): whether it was performed is not stated, a free value (log 8). -/
def State.writeTimedOut (s : State) (k : Nat) (w : PWrite) : State :=
  let s := (s.unsend k).meshTimedOut (reqDie w.req) w.loc
  let (x, s) := s.fresh
  (if x % 2 = 1 then s.landHere w else s).writeFailed w 5

/-- A write of this module, the k-th in flight, that nothing holds any more, as it fares on its way (R253, R254, R269). Only one that crosses
the mesh meets a mesh error, and only one that covers a part of a granule reads it. -/
def State.landNear (s : State) (k : Nat) (w : PWrite) (what : Arrival) : State :=
  let t := s.unsend k
  let good := if w.partly then t.readGood w.loc w.data.length else t
  match what with
  | .busError => if (s.crossed w).isSome then s.writeTimedOut k w else good.landHere w
  | .parity =>
    match s.crossed w with
    | some d => (good.meshParity d).landHere { w with poison := true }
    | none => good.landHere w
  | .uncorrectable => (if w.partly then t.spoilt w.loc w.data.length else t).landHere w
  | _ => good.landHere w

/-- WRITE_LAND (R274): write k in flight is performed at its home, or leaves for its node, once nothing holds it. `what` says what it meets:
no answer (R254), a parity error in its payload (R253), or a granule beyond correction that it covers in part (R269). -/
def execWriteLand (k : Nat) (what : Arrival) (s : State) : Res :=
  done (match s.inflight[k]? with
    | none => s
    | some w =>
      let far := nodeOf w.loc != 0
      if s.discards w then s.unsend k
      else if w.tag.isSome then s
      else if s.landBarred w then s.notLanded k w
      else if !s.landReady k w far then s
      else if s.releaseFails w then (s.unsend k).writeFailed w 8
      else if far then
        let s := if what = .parity then s.spoilWrite k w else s
        s.landFar k ((s.inflight[k]?).getD w)
      else s.landNear k w what)

/-- The write in flight over the mesh whose packet was discarded on its way to an address (R253). -/
def State.lostWrite (s : State) (g : Nat) : Option (PWrite × Nat) :=
  (s.inflight.zip (List.range s.inflight.length)).find? (fun (w, _) => w.loc == g && w.tag.isNone && s.isLocal g && (s.crossed w).isSome)

/-- MESH_TIMEOUT (R254): the event and the latched address; `hdr` says that the packet was discarded for the parity of its header
(R253), so that a write to the address does not land. A core's load and a channel's read end by their own commands; a request to another node is timed by
the fabric port (R353). -/
def execMeshTimeout (die addr : Nat) (hdr : Bool) (s : State) : Res :=
  let lose (s : State) : State :=
    match s.lostWrite addr with
    | some (w, k) => (s.unsend k).writeFailed w 5
    | none => s
  done (if die < 8 ∧ s.isLocal addr then (if hdr then lose (s.meshHeader die) else s).meshTimedOut die addr else s)

end Sys2Proof.Machine
end

