-- ==== Sys2Proof/Machine/HostIf.lean ====
section
/-! DEFINITION. Host accesses through the BARs, the completion of a soft reset, and READY (R6, R10, R21, R112, R113, R253, R254,
R391 to R394, R431, R435, R436). -/

namespace Sys2Proof.Machine

-- configuration space

/-- Registers of configuration space that the manual gives an effect (R389, R392, R394, R431), at offsets of the model's own under BAR number 7
(DESIGN CHOICE, log 55): 0 PMCSR, with the power state in [1:0] and No_Soft_Reset in [3]; 4 the Resizable BAR size of BAR2, in [12:8] as 10 for 1 GiB up
to 20 for 1 TiB; 8 MSI-X control, with the function mask in [14]; others read 0. -/
def State.cfgRead (s : State) (off : Nat) : Nat :=
  if off = 0 then (if s.pcie.d3 || s.d3Pend != 0 then 3 else 0) + 8
  else if off = 4 then (s.pcie.bar2Log - 20) <<< 8
  else if off = 8 then b2n s.pcie.fmask <<< 14 + 2047
  else 0

/-- A write of configuration space: BAR2's size from the values it may have, or the function mask, whose release sends what is pending
(R392, R394). The power state is written by D3HOT_ENTRY and D0_RETURN. -/
def State.cfgWrite (s : State) (off v : Nat) : State :=
  if off = 4 then
    let n := bitsOf v 8 5
    if 10 ≤ n ∧ n ≤ 20 then { s with pcie := { s.pcie with bar2Log := n + 20 } } else s
  else if off = 8 then
    let t := { s with pcie := { s.pcie with fmask := bitOf v 14 } }
    if bitOf v 14 then t else t.flushAll
  else s

-- BARs

/-- Whether an access belongs to the firmware paths that the boot ROM serves while no bundle has verified (R418): BAR0's firmware window and the
registers that drive it (DEDUCED, log 55). -/
def bootPath (bar off : Nat) : Bool :=
  bar == 0 && ((decide (0x100000 ≤ off) && decide (off < 0x101000)) || (decide (0x110000 ≤ off) && decide (off < 0x120000)))

/-- Whether a host access can arrive: the link is up, and the function is in D0 after READY (R431, R435), or the boot ROM serves it (R418).
Configuration space is served in D3hot too (PRESUMED, log 55). -/
def State.hostOn (s : State) (bar off : Nat) : Bool :=
  s.linkUp && (bar == 7 || !s.pcie.d3) &&
  (s.flag 0 PWR_STATUS_READY || (!s.flag 0 MGT_STATUS_FW_OK && (s.resetting != .stopped) && bootPath bar off))

/-- The completion of a host read: its bytes and status, 0 success, 1 success with EP set, 2 Completer Abort (R6, R393). -/
def State.complete (s : State) (data : List Byte) (status : Nat) : State := { s with rdData := data, rdStatus := status }

/-- Pending bits 32i to 32i + 31 of the MSI-X pending-bit array (R391). -/
def State.pba (s : State) (i : Nat) : Nat :=
  ((List.range 32).map (fun j => if s.pcie.msixPend.contains (32 * i + j) then 2 ^ j else 0)).foldl (· + ·) 0

/-- The die whose registers an offset of BAR0 reaches over the mesh from die 0, with the offset there (R21, R391): a die's block, or the
control blocks of its cores. -/
def State.bar0Die (s : State) (off : Nat) : Option (Nat × Nat) :=
  if off < 0x2000000 then some (off / 0x400000, off % 0x400000)
  else if off < 0x3000000 then some (s.fld 0 CFG_BAR0_CWIN_DIE, 0x1000000 + (off - 0x2000000))
  else none

/-- A 32-bit read of BAR0 (R391); unimplemented offsets read 0 (R10). -/
def State.bar0Read (s : State) (off : Nat) : State × Nat :=
  match s.bar0Die off with
  | some (d, o) => (s.carry none d 0 4).readReg .host d o
  | none =>
    if off < 0x3300000 then s.readBcast .host (0x1000000 + (off - 0x3000000))
    else if 0x3F00000 ≤ off ∧ off < 0x3F08000 then
      (s, bitsOf (get 0 s.pcie.msixTab ((off - 0x3F00000) / 16)).toNat (8 * (off % 16)) 32)
    else if 0x3F08000 ≤ off ∧ off < 0x3F08100 then (s, s.pba ((off - 0x3F08000) / 4))
    else (s, 0)

/-- A 32-bit write of BAR0 (R391); one to an unimplemented offset is discarded (R10). -/
def State.bar0Write (s : State) (off : Nat) (w : Word) : State :=
  match s.bar0Die off with
  | some (d, o) => (s.carry none 0 d 4).writeReg .host d o w
  | none =>
    if off < 0x3300000 then (s.carryAll none 0 4).writeBcast .host (0x1000000 + (off - 0x3000000)) w
    else if 0x3F00000 ≤ off ∧ off < 0x3F08000 then
      let v := (off - 0x3F00000) / 16
      s.setVector v (setBits (get 0 s.pcie.msixTab v).toNat (8 * (off % 16)) 32 w.toNat)
    else s

/-- Bytes of BAR2 (R392). -/
def State.bar2Size (s : State) : Nat := 2 ^ s.pcie.bar2Log

/-- The local address that an offset of BAR2 or BAR4 reaches (R392). -/
def State.barAddr (s : State) (bar off : Nat) : Nat :=
  if bar = 4 then 0x010000000000 + off
  else if 40 ≤ s.pcie.bar2Log then off
  else s.fld 0 CFG_BAR2_WIN_BASE % (s.bar2Size / 2 ^ 30) * 2 ^ 30 + off

/-- Whether n bytes from an offset lie in the BAR. -/
def State.inBar (s : State) (bar off n : Nat) : Bool :=
  decide (off + n ≤ (if bar = 0 then 0x4000000 else if bar = 4 then 0x80000000 else if bar = 7 then 4096 else s.bar2Size))

/-- Whether a part of a host access reaches what it may not: an unmapped address, a spill unit, a bank of another class (R393). -/
def State.hostRefused (s : State) (a n : Nat) (write : Bool) : Bool :=
  match s.home a with
  | .hbm _ => false
  | .pad site off => s.padRefuses site off n write
  | _ => true

/-- A host access that reached an unmapped address noted by the mesh at die 0 (R264). -/
def State.hostUnmapped (s : State) (l : List (Nat × Nat)) : State :=
  match l.find? (fun p => s.home p.1 == .unmapped) with
  | some p => s.unmappedAt 0 p.1
  | none => s

/-- The address a host access crosses the mesh with (R256): of another die's registers or stack, of any core's control block or scratchpad, or of
the broadcast block; none where the access stays in die 0's ring. -/
def State.hostCrosses (s : State) (bar off : Nat) : Option Nat :=
  if bar = 0 then
    match s.bar0Die off with
    | some p => if p.1 = 0 ∧ p.2 < 0x1000000 then none else some (0x020000000000 + p.1 * 0x4000000 + p.2)
    | none => if off < 0x3300000 then some (0x020020000000 + 0x1000000 + (off - 0x3000000)) else none
  else
    let a := s.barAddr bar off
    match s.home a with
    | .hbm d => if d = 0 then none else some a
    | .pad _ _ => some a
    | _ => none

/-- A host read of memory (R268, R393) as it fares on its way: a payload parity error poisons what it returns (R253), a granule beyond
correction is reported at its stack (R269). -/
def State.hostLoad (s : State) (a n : Nat) (what : Arrival) : State :=
  let l := parts a n
  if l.any (fun p => s.hostRefused p.1 p.2 false) then (s.hostUnmapped l).complete [] 2
  else
    let s := l.foldl (fun s p => s.access none 0 p.1 p.2 false) s
    let s := if what = .uncorrectable then s.spoilt a n else s
    let s := if what = .parity then s.meshParity 0 else s
    s.complete (s.bytes a n) (b2n (s.poisoned a n || what == .uncorrectable || what == .parity))

/-- A host write of memory (R268, R270, R393) as it fares on its way: a payload parity error poisons its granules (R253), a granule beyond
correction that it covers in part is reported and stays poisoned (R269, R270). -/
def State.hostStore (s : State) (a : Nat) (data : List Byte) (ep : Bool) (what : Arrival) : State :=
  let l := parts a data.length
  if l.any (fun p => s.hostRefused p.1 p.2 true) then (s.hostUnmapped l).emit (.aer a)
  else
    let s := l.foldl (fun s p => s.access none 0 p.1 p.2 true) s
    let s := if what = .uncorrectable ∧ l.any (fun p => p.2 != 64) then s.spoilt a data.length else s
    let s := if what = .parity then s.meshParity 0 else s
    s.landBytes a data (ep || what == .parity) []

/-- HOST_READ (R6, R253, R254, R391 to R393): what the host receives stands in rdData and rdStatus. A read that the mesh does not answer
completes with Completer Abort (DEDUCED, log 52). -/
def execHostRead (bar : Nat) (off : Nat) (r : Meeting Nat) (s : State) : Res :=
  let len := r.val
  let what := r.what
  done (
    if !s.hostOn bar off || len == 0 || !s.inBar bar off len then s
    else if bar = 7 then s.complete (leBytes 4 (s.cfgRead off)) 0
    else if bar = 0 ∧ ¬(len = 4 ∧ off % 4 = 0) then s.complete [] 2
    else
      let x := s.hostCrosses bar off
      if what = .busError ∧ x.isSome then (s.meshTimedOut 0 (x.getD 0)).complete [] 2
      else if bar = 0 then
        let hit := what == .parity && x.isSome
        let (s, v) := (if hit then s.meshParity 0 else s).bar0Read off
        s.complete (leBytes 4 v) (b2n hit)
      else s.hostLoad (s.barAddr bar off) len (if what = .parity ∧ x.isNone then .ok else what))

/-- A host write performed (R391 to R393). A poisoned write of a register is discarded (PRESUMED, log 40); one whose payload met a parity error on
the mesh is delivered (R253), with the bits that the sender gave (DESIGN CHOICE, log 14). -/
def State.hostPut (s : State) (bar off : Nat) (data : List Byte) (ep : Bool) (what : Arrival) : State :=
  if bar = 0 then
    let s := if what = .parity then s.meshParity 0 else s
    if data.length = 4 ∧ off % 4 = 0 ∧ !ep then s.bar0Write off (BitVec.ofNat 32 (leNat data)) else s
  else s.hostStore (s.barAddr bar off) data ep what

/-- HOST_WRITE (R6, R253, R254, R285, R391 to R393): posted writes take effect in the order received. Whether a write that the mesh does not
answer was performed is not stated, a free value (log 8). -/
def execHostWrite (bar : Nat) (off : Nat) (data : List Byte) (w : Meeting Bool) (s : State) : Res :=
  let ep := w.val
  let what := w.what
  done (
    if !s.hostOn bar off || data.isEmpty || !s.inBar bar off data.length then s
    else if bar = 7 then (if ep then s else s.cfgWrite off (leNat data))
    else
      match s.hostCrosses bar off with
      | none => s.hostPut bar off data ep (if what = .parity then .ok else what)
      | some g =>
        if what = .busError then
          let (x, t) := (s.meshTimedOut 0 g).fresh
          if x % 2 = 1 then t.hostPut bar off data ep .ok else t
        else s.hostPut bar off data ep what)

-- the runtime restarted

/-- The core that stands for a site of a cast set, safe mode apart (R377). -/
def State.castCore (s : State) (site : Nat) : Option Nat :=
  if !s.good site then none
  else if s.isQuar site then
    (s.replaced.find? (fun (p : Nat × Nat × Nat) => p.1 == site && p.2.1 != noSite)).map (fun p => p.2.1)
  else some site

/-- A cast member given its acts again (R436); one whose load fails stays halted (DEDUCED, log 38). -/
def State.reloadSite (s : State) (site : Nat) : State :=
  match s.castCore site with
  | none => s
  | some m =>
    let acts := s.actsOf site
    match (s.quench m).loadActs m acts with
    | (s, none) => acts.foldl (fun s a => s.startLoaded m a) s
    | (s, some _) => s.quench m

/-- Act programs and core images reloaded from the active act table, and the understudies out of safe mode (R371, R436). -/
def State.reload (s : State) : State :=
  let s := s.asnA.foldl (fun s (site, _) => if s.cast site then s.reloadSite site else s) s
  s.cores.foldl (fun s (site, c) => if c.role = .understudy then s.setSafe site false else s) s

/-- What waited for a soft reset to complete (R434). -/
def State.afterSoft (s : State) : State :=
  let s := match s.preqPend with
    | some v => { s with preqPend := none }.setPreq v
    | none => s
  if s.d3Pend = 3 then s.d3Begin else s

/-- The syllables that an image's bytes spell, two to each, as R266 lays a program image out. -/
def sylsOf : List Byte → List (BitVec 14)
  | a :: b :: t => BitVec.ofNat 14 (a.toNat + 256 * b.toNat) :: sylsOf t
  | _ => []

/-- The runtime component of the active bank in a stage-manager core, started on thread 0 (R417, R435, R436): where it lies in program memory and
where it starts is the model's choice (log 55). -/
def State.startManager (s : State) (site : Nat) : State :=
  let l := sylsOf (s.runtimeBytes.take 0x20000)
  let s := s.modCore site (fun c => { c with pm := putSyls c.pm 0 l })
  ((s.setSafe site false).startAt site 0).setHalt site 0 false

/-- The runtime loaded and started on every stage-manager core. -/
def State.startManagers (s : State) : State := (List.range 16).foldl (fun s m => s.startManager (1568 + m)) s

/-- The execution domain brought up again (R431, R436): what a soft reset has still to do, the runtime, then the acts. -/
def State.restartExec (s : State) : State :=
  let s := (s.softPass (s.resetAt + 30000)).softExec
  let s := { s with execOff := false }.startManagers.reload
  { s with resetting := .none }

/-- SOFT_DONE (R431, R436): the execution domain runs again. -/
def execSoftDone (s : State) : Res :=
  done (
    if s.resetting = .soft then (s.restartExec.event 0 PWR_EVENT_SOFT_DONE).afterSoft
    else if s.resetting = .d0 then s.restartExec.afterSoft
    else s)

/-- Curtain 0 (R32, R435): it falls on the internal source, now. -/
def State.curtainZero (s : State) : State :=
  let s := { s with frame := 0, curtainAt := s.now, curMode := .internal, resetting := .none }
  let s := s.setFld 0 CUR_STATUS_RUN 1
  let s := { s with nominal := s.nominalLen }
  let s := s.assignRoles
  let s := (List.range 8).foldl (fun s d => s.addReq d 31) s
  if s.flag 0 CUR_CTRL_OUT_EN && !s.pinsTaken then s.emit .curtainOut else s

/-- READY (R418, R435): the start-up completes once firmware is verified, the runtime started. -/
def execReady (s : State) : Res :=
  done (
    if (s.resetting = .coldRun ∨ s.resetting = .warm) ∧ s.flag 0 MGT_STATUS_FW_OK ∧ s.pins.pwrgd ∧ s.pins.perst then
      let s := (s.setFld 0 PWR_STATUS_READY 1).setFld 0 PWR_STATUS_STATE 0
      let s := (List.range 8).foldl (fun s d => s.setFld d HBC_STATUS_READY 1) s
      s.startManagers.curtainZero
    else s)

end Sys2Proof.Machine
end

