-- ==== Sys2Proof/Machine/Dispatch.lean ====
section
/-! DEFINITION. The dispatch of a command to its meaning: one arm per constructor. -/

namespace Sys2Proof.Machine

def exec (i : Instr) (s : State) : Host.Outcome State Fault Refusal :=
  match i with
  | .mov op d a => Sys2Proof.Machine.execMov op d a s
  | .add op d a => Sys2Proof.Machine.execAdd op d a s
  | .sub op d a => Sys2Proof.Machine.execSub op d a s
  | .and op d a => Sys2Proof.Machine.execAnd op d a s
  | .or op d a => Sys2Proof.Machine.execOr op d a s
  | .xor op d a => Sys2Proof.Machine.execXor op d a s
  | .shl op d a => Sys2Proof.Machine.execShl op d a s
  | .shr op d a => Sys2Proof.Machine.execShr op d a s
  | .sar op d a => Sys2Proof.Machine.execSar op d a s
  | .mul op d a => Sys2Proof.Machine.execMul op d a s
  | .mulh op d a => Sys2Proof.Machine.execMulh op d a s
  | .mulhu op d a => Sys2Proof.Machine.execMulhu op d a s
  | .slt op d a => Sys2Proof.Machine.execSlt op d a s
  | .sltu op d a => Sys2Proof.Machine.execSltu op d a s
  | .min op d a => Sys2Proof.Machine.execMin op d a s
  | .max op d a => Sys2Proof.Machine.execMax op d a s
  | .addi op d imm => Sys2Proof.Machine.execAddi op d imm s
  | .li op d imm => Sys2Proof.Machine.execLi op d imm s
  | .lih op d imm => Sys2Proof.Machine.execLih op d imm s
  | .andi op d imm => Sys2Proof.Machine.execAndi op d imm s
  | .branch op cond a off => Sys2Proof.Machine.execBranch op cond a off s
  | .br op off => Sys2Proof.Machine.execBr op off s
  | .call op off => Sys2Proof.Machine.execCall op off s
  | .jr op a z => Sys2Proof.Machine.execJr op a z s
  | .callr op a z => Sys2Proof.Machine.execCallr op a z s
  | .ret op z => Sys2Proof.Machine.execRet op z s
  | .loop op k a off => Sys2Proof.Machine.execLoop op k a off s
  | .vmov op d a => Sys2Proof.Machine.execVmov op d a s
  | .vadd op d a => Sys2Proof.Machine.execVadd op d a s
  | .vsub op d a => Sys2Proof.Machine.execVsub op d a s
  | .vmul op d a => Sys2Proof.Machine.execVmul op d a s
  | .vfma op d a => Sys2Proof.Machine.execVfma op d a s
  | .vmin op d a => Sys2Proof.Machine.execVmin op d a s
  | .vmax op d a => Sys2Proof.Machine.execVmax op d a s
  | .vand op d a => Sys2Proof.Machine.execVand op d a s
  | .vor op d a => Sys2Proof.Machine.execVor op d a s
  | .vxor op d a => Sys2Proof.Machine.execVxor op d a s
  | .vshift op d a => Sys2Proof.Machine.execVshift op d a s
  | .vcmp op d a => Sys2Proof.Machine.execVcmp op d a s
  | .vsel op d a => Sys2Proof.Machine.execVsel op d a s
  | .vcvt op d a => Sys2Proof.Machine.execVcvt op d a s
  | .vredSum op d a => Sys2Proof.Machine.execVredSum op d a s
  | .vredMax op d a => Sys2Proof.Machine.execVredMax op d a s
  | .vredMin op d a => Sys2Proof.Machine.execVredMin op d a s
  | .vbc op d a => Sys2Proof.Machine.execVbc op d a s
  | .ldw op d a => Sys2Proof.Machine.execLdw op d a s
  | .ldh op d a => Sys2Proof.Machine.execLdh op d a s
  | .ldhu op d a => Sys2Proof.Machine.execLdhu op d a s
  | .ldb op d a => Sys2Proof.Machine.execLdb op d a s
  | .ldbu op d a => Sys2Proof.Machine.execLdbu op d a s
  | .stw op d a => Sys2Proof.Machine.execStw op d a s
  | .sth op d a => Sys2Proof.Machine.execSth op d a s
  | .stb op d a => Sys2Proof.Machine.execStb op d a s
  | .vld op d a => Sys2Proof.Machine.execVld op d a s
  | .vst op d a => Sys2Proof.Machine.execVst op d a s
  | .ldu op d a => Sys2Proof.Machine.execLdu op d a s
  | .vldu op d a => Sys2Proof.Machine.execVldu op d a s
  | .aadd op d a => Sys2Proof.Machine.execAadd op d a s
  | .acas op d a => Sys2Proof.Machine.execAcas op d a s
  | .aswp op d a => Sys2Proof.Machine.execAswp op d a s
  | .dcClean op d a => Sys2Proof.Machine.execDcClean op d a s
  | .dcInvalidate op d a => Sys2Proof.Machine.execDcInvalidate op d a s
  | .dcCleanInvalidate op d a => Sys2Proof.Machine.execDcCleanInvalidate op d a s
  | .tcfg op d a => Sys2Proof.Machine.execTcfg op d a s
  | .trel op d z => Sys2Proof.Machine.execTrel op d z s
  | .tld op d a => Sys2Proof.Machine.execTld op d a s
  | .tst op d a => Sys2Proof.Machine.execTst op d a s
  | .tmmaAcc0 op a b => Sys2Proof.Machine.execTmmaAcc0 op a b s
  | .tmmaAcc1 op a b => Sys2Proof.Machine.execTmmaAcc1 op a b s
  | .tcvt op d a => Sys2Proof.Machine.execTcvt op d a s
  | .tcvta op d a => Sys2Proof.Machine.execTcvta op d a s
  | .tza op acc a => Sys2Proof.Machine.execTza op acc a s
  | .tmova op d a => Sys2Proof.Machine.execTmova op d a s
  | .trd op t v => Sys2Proof.Machine.execTrd op t v s
  | .twr op t v => Sys2Proof.Machine.execTwr op t v s
  | .tlds op d a => Sys2Proof.Machine.execTlds op d a s
  | .tsts op d a => Sys2Proof.Machine.execTsts op d a s
  | .twa op d a => Sys2Proof.Machine.execTwa op d a s
  | .tileOpComplete site th => Sys2Proof.Machine.execTileOpComplete site th s
  | .tileOpStop site th boundary => Sys2Proof.Machine.execTileOpStop site th boundary s
  | .csig op a b => Sys2Proof.Machine.execCsig op a b s
  | .cwait op a b => Sys2Proof.Machine.execCwait op a b s
  | .ctake op a b => Sys2Proof.Machine.execCtake op a b s
  | .carm op a b => Sys2Proof.Machine.execCarm op a b s
  | .carmDisarm op a b => Sys2Proof.Machine.execCarmDisarm op a b s
  | .qsend op a b => Sys2Proof.Machine.execQsend op a b s
  | .qsendCommit op a b => Sys2Proof.Machine.execQsendCommit op a b s
  | .qrecv op a b => Sys2Proof.Machine.execQrecv op a b s
  | .qrecvRelease op a b => Sys2Proof.Machine.execQrecvRelease op a b s
  | .qrecvReleaseReceive op a b => Sys2Proof.Machine.execQrecvReleaseReceive op a b s
  | .qclose op a b => Sys2Proof.Machine.execQclose op a b s
  | .qopen op a b => Sys2Proof.Machine.execQopen op a b s
  | .dmago op a b => Sys2Proof.Machine.execDmago op a b s
  | .dmawait op a b => Sys2Proof.Machine.execDmawait op a b s
  | .dmawaitDrain op a b => Sys2Proof.Machine.execDmawaitDrain op a b s
  | .mfill op a b => Sys2Proof.Machine.execMfill op a b s
  | .mcopy op a b => Sys2Proof.Machine.execMcopy op a b s
  | .memoryOpComplete site => Sys2Proof.Machine.execMemoryOpComplete site s
  | .nop op a b => Sys2Proof.Machine.execNop op a b s
  | .sleep op a b => Sys2Proof.Machine.execSleep op a b s
  | .trap op a b => Sys2Proof.Machine.execTrap op a b s
  | .brk op a b => Sys2Proof.Machine.execBrk op a b s
  | .eret op a b => Sys2Proof.Machine.execEret op a b s
  | .mfs op a b => Sys2Proof.Machine.execMfs op a b s
  | .mts op a b => Sys2Proof.Machine.execMts op a b s
  | .mfsD op a b => Sys2Proof.Machine.execMfsD op a b s
  | .mtsD op a b => Sys2Proof.Machine.execMtsD op a b s
  | .mtb op a b => Sys2Proof.Machine.execMtb op a b s
  | .mfb op a b => Sys2Proof.Machine.execMfb op a b s
  | .stepend op a b => Sys2Proof.Machine.execStepend op a b s
  | .stependc op a b => Sys2Proof.Machine.execStependc op a b s
  | .batchend op a b => Sys2Proof.Machine.execBatchend op a b s
  | .loadDataArrival site th k what => Sys2Proof.Machine.execLoadDataArrival site th k what s
  | .cacheLineFill site addr demand => Sys2Proof.Machine.execCacheLineFill site addr demand s
  | .wake site th => Sys2Proof.Machine.execWake site th s
  | .timerFire site th at_ => Sys2Proof.Machine.execTimerFire site th at_ s
  | .waitBound site th at_ => Sys2Proof.Machine.execWaitBound site th at_ s
  | .thread0L1Entry site => Sys2Proof.Machine.execThread0L1Entry site s
  | .interruptTake site th => Sys2Proof.Machine.execInterruptTake site th s
  | .breakpointStop site th => Sys2Proof.Machine.execBreakpointStop site th s
  | .budgetCut site at_ => Sys2Proof.Machine.execBudgetCut site at_ s
  | .cueSignalArrival k => Sys2Proof.Machine.execCueSignalArrival k s
  | .queueMessageCommit site q => Sys2Proof.Machine.execQueueMessageCommit site q s
  | .queueSendRetry site th => Sys2Proof.Machine.execQueueSendRetry site th s
  | .threadStart r site th => Sys2Proof.Machine.execThreadStart r site th s
  | .threadHalt r site th => Sys2Proof.Machine.execThreadHalt r site th s
  | .threadResume r site th => Sys2Proof.Machine.execThreadResume r site th s
  | .safeWrite r site v => Sys2Proof.Machine.execSafeWrite r site v s
  | .ctxChange r site th ctx => Sys2Proof.Machine.execCtxChange r site th ctx s
  | .swi r site th => Sys2Proof.Machine.execSwi r site th s
  | .broadcastWrite r img off v => Sys2Proof.Machine.execBroadcastWrite r img off v s
  | .cueCountWrite r site n v => Sys2Proof.Machine.execCueCountWrite r site n v s
  | .regionEnable site k v => Sys2Proof.Machine.execRegionEnable site k v s
  | .claim site k n => Sys2Proof.Machine.execClaim site k n s
  | .release site k n => Sys2Proof.Machine.execRelease site k n s
  | .queueEnable site q v => Sys2Proof.Machine.execQueueEnable site q v s
  | .stagingDiscard site th => Sys2Proof.Machine.execStagingDiscard site th s
  | .cacheInv site => Sys2Proof.Machine.execCacheInv site s
  | .cacheClean site => Sys2Proof.Machine.execCacheClean site s
  | .cacheEnable r site => Sys2Proof.Machine.execCacheEnable r site s
  | .cacheDisable site => Sys2Proof.Machine.execCacheDisable site s
  | .numSeedAccess site th w => Sys2Proof.Machine.execNumSeedAccess site th w s
  | .l2Resume r site th => Sys2Proof.Machine.execL2Resume r site th s
  | .l2Run2 r site th => Sys2Proof.Machine.execL2Run2 r site th s
  | .debugStop r site th => Sys2Proof.Machine.execDebugStop r site th s
  | .debugResume r site th => Sys2Proof.Machine.execDebugResume r site th s
  | .debugStep r site th => Sys2Proof.Machine.execDebugStep r site th s
  | .debugRegAccess r site w => Sys2Proof.Machine.execDebugRegAccess r site w s
  | .dmaCommandStart ch => Sys2Proof.Machine.execDmaCommandStart ch s
  | .dmaBurst ch what => Sys2Proof.Machine.execDmaBurst ch what s
  | .dmaDone ch => Sys2Proof.Machine.execDmaDone ch s
  | .dmaErrorHalt ch => Sys2Proof.Machine.execDmaErrorHalt ch s
  | .dmaTimeout ch at_ => Sys2Proof.Machine.execDmaTimeout ch at_ s
  | .dmaRetry r ch => Sys2Proof.Machine.execDmaRetry r ch s
  | .dmaResume r ch => Sys2Proof.Machine.execDmaResume r ch s
  | .dmaSkip r ch => Sys2Proof.Machine.execDmaSkip r ch s
  | .dmaFlush r ch => Sys2Proof.Machine.execDmaFlush r ch s
  | .bdmaDoorbell r die c v => Sys2Proof.Machine.execBdmaDoorbell r die c v s
  | .bdmaDescriptorFetch die c what => Sys2Proof.Machine.execBdmaDescriptorFetch die c what s
  | .bdmaReq r die line => Sys2Proof.Machine.execBdmaReq r die line s
  | .writeLand k what => Sys2Proof.Machine.execWriteLand k what s
  | .hbmRead die addr ecc cycle => Sys2Proof.Machine.execHbmRead die addr ecc cycle s
  | .meshTimeout die addr hdr => Sys2Proof.Machine.execMeshTimeout die addr hdr s
  | .pmcLoad r die grp target => Sys2Proof.Machine.execPmcLoad r die grp target s
  | .pmcSave r die grp target => Sys2Proof.Machine.execPmcSave r die grp target s
  | .curtain at_ => Sys2Proof.Machine.execCurtain at_ s
  | .curtainInEdge at_ => Sys2Proof.Machine.execCurtainInEdge at_ s
  | .flywheelCurtain at_ => Sys2Proof.Machine.execFlywheelCurtain at_ s
  | .acquisitionTimeout at_ => Sys2Proof.Machine.execAcquisitionTimeout at_ s
  | .arm r => Sys2Proof.Machine.execArm r s
  | .sourceSwitch r src => Sys2Proof.Machine.execSourceSwitch r src s
  | .ppsEdge at_ => Sys2Proof.Machine.execPpsEdge at_ s
  | .clockFix at_ => Sys2Proof.Machine.execClockFix at_ s
  | .boxOfficeClose at_ => Sys2Proof.Machine.execBoxOfficeClose at_ s
  | .guardBandStart at_ => Sys2Proof.Machine.execGuardBandStart at_ s
  | .refreshBurst at_ => Sys2Proof.Machine.execRefreshBurst at_ s
  | .deliveryDeadline at_ => Sys2Proof.Machine.execDeliveryDeadline at_ s
  | .actRelease r die act => Sys2Proof.Machine.execActRelease r die act s
  | .boxEnable r die v => Sys2Proof.Machine.execBoxEnable r die v s
  | .intakeDoorbell r die ring v => Sys2Proof.Machine.execIntakeDoorbell r die ring v s
  | .intakeFetch die ring at_ what => Sys2Proof.Machine.execIntakeFetch die ring at_ what s
  | .forwardedRecord die at_ => Sys2Proof.Machine.execForwardedRecord die at_ s
  | .cbRead r die stream => Sys2Proof.Machine.execCbRead r die stream s
  | .cbWrite r die stream => Sys2Proof.Machine.execCbWrite r die stream s
  | .cbSuspend r die stream => Sys2Proof.Machine.execCbSuspend r die stream s
  | .cbResume r die stream => Sys2Proof.Machine.execCbResume r die stream s
  | .cbFree r die stream => Sys2Proof.Machine.execCbFree r die stream s
  | .cbCopyIn r die stream => Sys2Proof.Machine.execCbCopyIn r die stream s
  | .cbCopyOut r die stream => Sys2Proof.Machine.execCbCopyOut r die stream s
  | .callboardEccError stream => Sys2Proof.Machine.execCallboardEccError stream s
  | .stageBatch site at_ => Sys2Proof.Machine.execStageBatch site at_ s
  | .strike site slot at_ => Sys2Proof.Machine.execStrike site slot at_ s
  | .egressRecord die at_ refused => Sys2Proof.Machine.execEgressRecord die at_ refused s
  | .egressCompletion die ring at_ refused => Sys2Proof.Machine.execEgressCompletion die ring at_ refused s
  | .egressHeadWrite r die ring v => Sys2Proof.Machine.execEgressHeadWrite r die ring v s
  | .replayPrepare site act => Sys2Proof.Machine.execReplayPrepare site act s
  | .replayStage die at_ => Sys2Proof.Machine.execReplayStage die at_ s
  | .quarantine site why at_ => Sys2Proof.Machine.execQuarantine site why at_ s
  | .promotion site at_ => Sys2Proof.Machine.execPromotion site at_ s
  | .machineCheckHandling site th at_ => Sys2Proof.Machine.execMachineCheckHandling site th at_ s
  | .ledgerGranuleLand die => Sys2Proof.Machine.execLedgerGranuleLand die s
  | .ledgerEnable r die => Sys2Proof.Machine.execLedgerEnable r die s
  | .ledgerDisable r die => Sys2Proof.Machine.execLedgerDisable r die s
  | .updateBoundary die => Sys2Proof.Machine.execUpdateBoundary die s
  | .grpReadActive r die g => Sys2Proof.Machine.execGrpReadActive r die g s
  | .grpReadShadow r die g => Sys2Proof.Machine.execGrpReadShadow r die g s
  | .writeShadow r die g => Sys2Proof.Machine.execWriteShadow r die g s
  | .grpReadEta r die g => Sys2Proof.Machine.execGrpReadEta r die g s
  | .eventDelivery die at_ => Sys2Proof.Machine.execEventDelivery die at_ s
  | .holdoffExpiry die g at_ => Sys2Proof.Machine.execHoldoffExpiry die g at_ s
  | .eoi r die t => Sys2Proof.Machine.execEoi r die t s
  | .evgSwset r die src => Sys2Proof.Machine.execEvgSwset r die src s
  | .fabricLinkUp die peerNode peerPort delay => Sys2Proof.Machine.execFabricLinkUp die peerNode peerPort delay s
  | .fabricLinkDown die => Sys2Proof.Machine.execFabricLinkDown die s
  | .retrain r die => Sys2Proof.Machine.execRetrain r die s
  | .flitReceive die seq corrected crcOk => Sys2Proof.Machine.execFlitReceive die seq corrected crcOk s
  | .fabricRequest die q => Sys2Proof.Machine.execFabricRequest die q s
  | .ingressAdmit die at_ => Sys2Proof.Machine.execIngressAdmit die at_ s
  | .fabricResponse tag status data poison => Sys2Proof.Machine.execFabricResponse tag status data poison s
  | .fabricTimeout tag => Sys2Proof.Machine.execFabricTimeout tag s
  | .timeMarkSend at_ => Sys2Proof.Machine.execTimeMarkSend at_ s
  | .timeMarkReceive die lead frame at_ => Sys2Proof.Machine.execTimeMarkReceive die lead frame at_ s
  | .nodeWrite r v => Sys2Proof.Machine.execNodeWrite r v s
  | .hostRead bar off len => Sys2Proof.Machine.execHostRead bar off len s
  | .hostWrite bar off data ep => Sys2Proof.Machine.execHostWrite bar off data ep s
  | .msixUnmask v => Sys2Proof.Machine.execMsixUnmask v s
  | .ctxReadEntry r ctx entry => Sys2Proof.Machine.execCtxReadEntry r ctx entry s
  | .ctxWriteEntry r ctx entry => Sys2Proof.Machine.execCtxWriteEntry r ctx entry s
  | .ctxReadAttr r ctx => Sys2Proof.Machine.execCtxReadAttr r ctx s
  | .ctxWriteAttr r ctx => Sys2Proof.Machine.execCtxWriteAttr r ctx s
  | .publish r ctx => Sys2Proof.Machine.execPublish r ctx s
  | .publishComplete => Sys2Proof.Machine.execPublishComplete s
  | .swapRequest r => Sys2Proof.Machine.execSwapRequest r s
  | .swapValidation at_ => Sys2Proof.Machine.execSwapValidation at_ s
  | .swapCancel r => Sys2Proof.Machine.execSwapCancel r s
  | .ssCopy r => Sys2Proof.Machine.execSsCopy r s
  | .actReadActive r act => Sys2Proof.Machine.execActReadActive r act s
  | .actReadShadow r act => Sys2Proof.Machine.execActReadShadow r act s
  | .actWriteShadow r act => Sys2Proof.Machine.execActWriteShadow r act s
  | .asnReadActive r die site => Sys2Proof.Machine.execAsnReadActive r die site s
  | .asnReadShadow r die site => Sys2Proof.Machine.execAsnReadShadow r die site s
  | .asnWriteShadow r die site => Sys2Proof.Machine.execAsnWriteShadow r die site s
  | .d3hotEntry => Sys2Proof.Machine.execD3hotEntry s
  | .d0Return => Sys2Proof.Machine.execD0Return s
  | .pmeTurnOff => Sys2Proof.Machine.execPmeTurnOff s
  | .heartbeat => Sys2Proof.Machine.execHeartbeat s
  | .takeover => Sys2Proof.Machine.execTakeover s
  | .sensorSample x => Sys2Proof.Machine.execSensorSample x s
  | .eventRetry port => Sys2Proof.Machine.execEventRetry port s
  | .pldmEventAck port => Sys2Proof.Machine.execPldmEventAck port s
  | .logAck r => Sys2Proof.Machine.execLogAck r s
  | .entdaa port addr => Sys2Proof.Machine.execEntdaa port addr s
  | .setdasa port addr => Sys2Proof.Machine.execSetdasa port addr s
  | .mctpControl port cmd arg => Sys2Proof.Machine.execMctpControl port cmd arg s
  | .pldmDiscovery port type cmd => Sys2Proof.Machine.execPldmDiscovery port type cmd s
  | .pldmSensorRead port id => Sys2Proof.Machine.execPldmSensorRead port id s
  | .pldmFruRead port off len => Sys2Proof.Machine.execPldmFruRead port off len s
  | .requestUpdate port bundle => Sys2Proof.Machine.execRequestUpdate port bundle s
  | .getVersion port => Sys2Proof.Machine.execGetVersion port s
  | .getCapabilities port => Sys2Proof.Machine.execGetCapabilities port s
  | .negotiateAlgorithms port extAsym => Sys2Proof.Machine.execNegotiateAlgorithms port extAsym s
  | .getDigests port => Sys2Proof.Machine.execGetDigests port s
  | .getCertificate port slot off len => Sys2Proof.Machine.execGetCertificate port slot off len s
  | .challenge port nonce => Sys2Proof.Machine.execChallenge port nonce s
  | .getMeasurements port index sign nonce => Sys2Proof.Machine.execGetMeasurements port index sign nonce s
  | .chunkSend port handle seq data last => Sys2Proof.Machine.execChunkSend port handle seq data last s
  | .chunkGet port handle seq => Sys2Proof.Machine.execChunkGet port handle seq s
  | .signingComplete => Sys2Proof.Machine.execSigningComplete s
  | .fwVerify r => Sys2Proof.Machine.execFwVerify r s
  | .fwDiscard r => Sys2Proof.Machine.execFwDiscard r s
  | .attestationReady => Sys2Proof.Machine.execAttestationReady s
  | .debugTokenSubmit r => Sys2Proof.Machine.execDebugTokenSubmit r s
  | .dbgacc addr w => Sys2Proof.Machine.execDbgacc addr w s
  | .rehearsalSet r mask => Sys2Proof.Machine.execRehearsalSet r mask s
  | .undervoltageWarning => Sys2Proof.Machine.execUndervoltageWarning s
  | .undervoltageLockout at_ => Sys2Proof.Machine.execUndervoltageLockout at_ s
  | .railsOff => Sys2Proof.Machine.execRailsOff s
  | .overcurrent at_ => Sys2Proof.Machine.execOvercurrent at_ s
  | .overvoltageWarning => Sys2Proof.Machine.execOvervoltageWarning s
  | .overvoltageTrip => Sys2Proof.Machine.execOvervoltageTrip s
  | .lossOf56v => Sys2Proof.Machine.execLossOf56v s
  | .thermalTrip => Sys2Proof.Machine.execThermalTrip s
  | .overpower => Sys2Proof.Machine.execOverpower s
  | .pwrEnRise => Sys2Proof.Machine.execPwrEnRise s
  | .pwrEnFall at_ => Sys2Proof.Machine.execPwrEnFall at_ s
  | .perstNAssert => Sys2Proof.Machine.execPerstNAssert s
  | .perstNRelease => Sys2Proof.Machine.execPerstNRelease s
  | .powerOnReset => Sys2Proof.Machine.execPowerOnReset s
  | .coldReset selfTestFail straps => Sys2Proof.Machine.execColdReset selfTestFail straps s
  | .warmReset why => Sys2Proof.Machine.execWarmReset why s
  | .softReset => Sys2Proof.Machine.execSoftReset s
  | .pwrResetSoft r => Sys2Proof.Machine.execPwrResetSoft r s
  | .pwrResetWarm r => Sys2Proof.Machine.execPwrResetWarm r s
  | .softDone => Sys2Proof.Machine.execSoftDone s
  | .ready => Sys2Proof.Machine.execReady s
  | .preqSet r => Sys2Proof.Machine.execPreqSet r s
  | .preqClear r => Sys2Proof.Machine.execPreqClear r s
  | .readLo r addr => Sys2Proof.Machine.execReadLo r addr s
  | .writeHi r addr v => Sys2Proof.Machine.execWriteHi r addr v s
  | .registerWrite r addr v => Sys2Proof.Machine.execRegisterWrite r addr v s
  | .pcieLinkDown => Sys2Proof.Machine.execPcieLinkDown s
  | .pcieLinkUp gen width => Sys2Proof.Machine.execPcieLinkUp gen width s
  | .busMasterEnable v => Sys2Proof.Machine.execBusMasterEnable v s
  | .stackHot die hot => Sys2Proof.Machine.execStackHot die hot s
  | .pmcCopyComplete die => Sys2Proof.Machine.execPmcCopyComplete die s
  | .cbCopyComplete die => Sys2Proof.Machine.execCbCopyComplete die s
  | .ssCopyComplete => Sys2Proof.Machine.execSsCopyComplete s
  | .fwVerifyComplete => Sys2Proof.Machine.execFwVerifyComplete s
  | .enableEvents port on => Sys2Proof.Machine.execEnableEvents port on s
  | .extest op => Sys2Proof.Machine.execExtest op s

end Sys2Proof.Machine
end

