-- ==== Sys2Proof/Safety.lean ====
section
/-! DEFINITION. The terms that statements about the block use: outcomes, the promise of its pins, what a command may change, and when
a thread runs a bundle of one operation. -/

namespace Sys2Proof.Machine

/-- A safe outcome: the block goes on. No command of it stops the module (faults of threads are trap entries, R328). -/
def Safe (r : Res) : Prop := ∃ t : State, r = .next t

/-- An outcome is a next state with a property. -/
def Yields (r : Res) (p : State → Prop) : Prop := ∃ t : State, r = .next t ∧ p t

/-- ALERT_N is asserted exactly while a record of SEV 2 or 3 has not been acknowledged (R412), and EXTEST has not taken the pin (R341). -/
def AlertInv (s : State) : Prop :=
  s.pins.alert = (s.pins.tap != .extest && s.log.any (fun r => decide (2 ≤ r.sev) && !r.acked))

/-- Every byte of memory reads as before. -/
def MemSame (s t : State) : Prop := ∀ a : Nat, t.byte a = s.byte a

/-- Every byte of memory outside n bytes from an address reads as before. -/
def MemBut (s t : State) (a n : Nat) : Prop := ∀ b : Nat, ¬ (a ≤ b ∧ b < a + n) → t.byte b = s.byte b

/-- Nothing but the cores differs, ALERT_N following the log (R412). -/
def CoresOnly (s t : State) : Prop := { t with cores := s.cores } = s.settle

/-- Nothing but one core differs, which is now c. -/
def OneCore (s t : State) (site : Nat) (c : Core) : Prop :=
  CoresOnly s t ∧ t.core site = c ∧ ∀ k : Nat, k ≠ site → t.core k = s.core k

/-- Nothing but one die's register at an offset differs. -/
def RegOnly (s t : State) (d off : Nat) : Prop :=
  { t with regs := s.regs } = s.settle ∧ ∀ k : Nat, k ≠ dkey d off → t.rg k = s.rg k

-- bundles of one operation

/-- A thread that may issue, with no bundle begun, no late error, no step under way and no progress to resume, is given a whole
bundle of one operation: its prefixes are accepted, no load holds its registers, program memory holds a defined code there, its residue
check is sound, and nothing it reads is beyond correction (R90, R115 to R127, R139, R155, R363, R367). -/
structure Lone (s : State) (i : Iss) (acc : Accepts) (regs : List Nat) : Prop where
  ready : s.ready i.site i.th = true
  empty : (s.thr i.site i.th).bun = none
  calm : (s.thr i.site i.th).late = []
  steady : (s.thr i.site i.th).stepping = false
  fresh : bitOf (s.thr i.site i.th).prog.toNat 31 = false
  loads : (s.thr i.site i.th).loads.any (fun l => regs.contains l.dst) = false
  legal : (Iss.pre i).legal acc = true
  whole : i.stop = true
  defined : (s.core i.site).undefinedAt (Fetched.start_ (s.thr i.site i.th).pc) i = false
  sound : i.residue = false
  clean : i.badRow = none
  intact : i.broken = false

/-- The batch of a core once a bundle of a context has issued: its budget runs (R57). -/
def Core.begun (c : Core) (ctx : Nat) : Option Running :=
  c.batch.map (fun b => if b.ctx = ctx then { b with started := true } else b)

/-- A core after a bundle of n syllables of a thread has retired with the effect f on the thread: the PC goes to the target of a
transfer, else round a loop that ends here, else past the bundle (R133, R139). -/
def Core.ran (c : Core) (t : Fin 4) (n : Nat) (jump : Option (BitVec 16)) (f : Thread → Thread) : Core :=
  let x := c.th[t]
  let back := x.loopBack x.pc
  let y := (f { x with bun := none, wait := none, hold := [], after := none }).setLoops back.2
  let y := { y with pc := jump.getD (back.1.getD (x.pc + BitVec.ofNat 16 n)), bpSkip := false }
  { c with th := c.th.set t y, batch := c.begun x.ctx }

/-- Syllables of a bundle of one operation. -/
def Iss.len (i : Iss) : Nat := i.pfx.length + 1

/-- A command retires its bundle of one operation with the effect f on its thread and nothing else. -/
def Retires (s : State) (r : Res) (i : Iss) (jump : Option (BitVec 16)) (f : Thread → Thread) : Prop :=
  Yields r (fun t => OneCore s t i.site ((s.core i.site).ran i.th (Iss.len i) jump f))

/-- The block as a bundle of one operation begins to retire: its thread holds no bundle and no wait, and a batch of its context has
started (R57, R123). -/
def State.opens (s : State) (i : Iss) : State :=
  (s.markStarted i.site i.th).modThr i.site i.th (fun y => { y with bun := none, wait := none, hold := [], after := none })

/-- Its end: the loop registers of thread x, as it stood before the bundle, go round, but those that the operation itself wrote, and
the PC goes to the target of a transfer, else round a loop that ends here, else past the bundle (R133, R139). -/
def State.closes (s : State) (i : Iss) (x : Thread) (jump : Option (BitVec 16)) (own : List Nat) : State :=
  let back := x.loopBack x.pc
  let t := s.modThr i.site i.th (fun y =>
    { y.setLoops (back.2.filter (fun p => !own.contains p.1)) with
      pc := jump.getD (back.1.getD (x.pc + BitVec.ofNat 16 (Iss.len i))) })
  t.modThr i.site i.th (fun y => { y with bpSkip := false })

/-- A command retires its bundle of one operation with the effect f on the block and nothing else. -/
def Runs (s : State) (r : Res) (i : Iss) (jump : Option (BitVec 16)) (own : List Nat) (f : State → State) : Prop :=
  r = .next ((f (s.opens i)).closes i (s.thr i.site i.th) jump own).settle

/-- What a list of effects does as its bundle retires: every effect, then counts and generator steps (R123, R208). -/
def effectsOf (l : List Eff) (site : Nat) (t : Fin 4) (s : State) : State :=
  l.foldl (fun s e => s.applyNum site t e) ((stregLast l).foldl (fun s e => s.apply site t e) s)

/-- Effects that neither wait nor move control nor write a state register nor close a queue. -/
def Eff.plain : Eff → Bool
  | .push _ | .loopStart _ _ _ _ | .wait _ | .long _ | .jump _ | .streg _ _ _ | .trap _ _ | .brkStop | .eret _ | .qclose _ => false
  | _ => true

/-- Where the PC goes after a bundle of one operation without a transfer (R133, R139). -/
def Thread.onward (x : Thread) (i : Iss) : BitVec 16 := (x.loopBack x.pc).1.getD (x.pc + BitVec.ofNat 16 (Iss.len i))

/-- The thread of a command changed. -/
def State.on (s : State) (i : Iss) (f : Thread → Thread) : State := s.modThr i.site i.th f

/-- A command starts the long tile operation o of its bundle after the effect f: the thread stands at its bundle until the operation is
done, and goes on then where the bundle would have left it (R125, R163). -/
def Starts (s : State) (r : Res) (i : Iss) (f : State → State) (o : TileOp) : Prop :=
  let x := s.thr i.site i.th
  r = .next (((f (s.opens i)).on i (fun y => { y with long := some o })).on i
    (fun y => { y with after := some ⟨x.pc, x.onward i, (x.loopBack x.pc).2, []⟩ })).settle

/-- A command leaves its bundle waiting: the thread keeps the bundle, no register of it changes, and the wait is numbered (R291, R293). -/
def Waits (s : State) (r : Res) (i : Iss) (w : WaitKind) : Prop :=
  Yields r (fun t => ∃ (b : Fetched) (v : Wait), (t.thr i.site i.th).bun = some b ∧ (t.thr i.site i.th).wait = some v ∧ v.kind = w ∧
    (t.thr i.site i.th).pc = (s.thr i.site i.th).pc ∧ (t.thr i.site i.th).s = (s.thr i.site i.th).s ∧
    (t.thr i.site i.th).v = (s.thr i.site i.th).v ∧ (t.thr i.site i.th).p = (s.thr i.site i.th).p)

/-- Generators set to what they stepped to. -/
def Thread.setGens (l : List (Nat × Word)) (x : Thread) : Thread := l.foldl (fun y p => y.setGen p.1 p.2) x

/-- A load or atomic added to those a thread waits for. -/
def Thread.addLoad (l : Load) (x : Thread) : Thread := { x with loads := x.loads ++ [l] }

/-- A thread takes a fault of its bundle of one operation: nothing of it retires (R124, R328). -/
def Faults (s : State) (r : Res) (i : Iss) (slot : Slot) (f : Flt) : Prop := r = .next (s.faultBundle i.site i.th slot.num f).settle

/-- The refusals counted that an access of an operation to its own scratchpad met in a shared bank (R231). -/
def State.counted (s : State) (i : Iss) (off n : Nat) (u : State) : State :=
  let m := s.confOf i.site off n ⟨.n, i.met⟩
  if m = 0 then u else u.countConf i.site m

/-- A scalar register written. -/
def Thread.putS (r : Fin 16) (w : Word) (x : Thread) : Thread := { x with s := x.s.set r w }

/-- A vector register written. -/
def Thread.putV (r : Fin 16) (w : Vec) (x : Thread) : Thread := { x with v := x.v.set r w }

/-- A predicate register written. -/
def Thread.putP (r : Fin 4) (w : BitVec 64) (x : Thread) : Thread := { x with p := x.p.set r w }

end Sys2Proof.Machine
end

