-- ==== Sys2Proof/Certificates/Slice0/Obligations.lean ====
section
/-! DEFINITION. The statements for the provers, from the numbered rules of spec/. -/

open Sys2Proof Sys2Proof.Machine

/-- R131: the results of the 16 operations of class 0b000, run alone in a bundle: the destination takes the result, the PC goes on, and
nothing else changes; a REG.P other than 0, and a REG.B other than 0 for MOV, is an illegal operand. R132: the immediate operations of
class 0b001. -/
def Obligations.ScalarResults : Prop :=
  (∀ (s : State) (i : Iss) (d a : BitVec 3), Lone s i acceptsReg (scalarRegs i d a) →
     ((Iss.pre i).p ≠ 0 → ∀ c ∈ [Instr.mov i d a, .add i d a, .sub i d a, .and i d a, .or i d a, .xor i d a, .shl i d a, .shr i d a,
       .sar i d a, .mul i d a, .mulh i d a, .mulhu i d a, .slt i d a, .sltu i d a, .min i d a, .max i d a],
       Faults s (exec c s) i .S illegalOperand) ∧
     ((Iss.pre i).b ≠ 0 → Faults s (exec (.mov i d a) s) i .S illegalOperand) ∧
     ((Iss.pre i).p = 0 →
       let u := ((s.thr i.site i.th).scalarOps (Iss.pre i) d a).1
       let v := ((s.thr i.site i.th).scalarOps (Iss.pre i) d a).2
       let put (w : Word) := Thread.putS (extReg (Iss.pre i).dh d) w
       ((Iss.pre i).b = 0 →
         Retires s (exec (.mov i d a) s) i none (put ((s.thr i.site i.th).sreg (extReg (Iss.pre i).ah a)))) ∧
       Retires s (exec (.add i d a) s) i none (put (u + v)) ∧
       Retires s (exec (.sub i d a) s) i none (put (u - v)) ∧
       Retires s (exec (.and i d a) s) i none (put (u &&& v)) ∧
       Retires s (exec (.or i d a) s) i none (put (u ||| v)) ∧
       Retires s (exec (.xor i d a) s) i none (put (u ^^^ v)) ∧
       Retires s (exec (.shl i d a) s) i none (put (u <<< (v.toNat % 32))) ∧
       Retires s (exec (.shr i d a) s) i none (put (u >>> (v.toNat % 32))) ∧
       Retires s (exec (.sar i d a) s) i none (put (u.sshiftRight (v.toNat % 32))) ∧
       Retires s (exec (.mul i d a) s) i none (put (BitVec.ofNat 32 (u.toNat * v.toNat))) ∧
       Retires s (exec (.mulh i d a) s) i none (put (BitVec.ofInt 32 (u.toInt * v.toInt / 2 ^ 32))) ∧
       Retires s (exec (.mulhu i d a) s) i none (put (BitVec.ofNat 32 (u.toNat * v.toNat / 2 ^ 32))) ∧
       Retires s (exec (.slt i d a) s) i none (put (if u.toInt < v.toInt then 1 else 0)) ∧
       Retires s (exec (.sltu i d a) s) i none (put (if u.toNat < v.toNat then 1 else 0)) ∧
       Retires s (exec (.min i d a) s) i none (put (if u.toInt < v.toInt then u else v)) ∧
       Retires s (exec (.max i d a) s) i none (put (if u.toInt < v.toInt then v else u)))) ∧
  (∀ (s : State) (i : Iss) (d : BitVec 4) (imm : BitVec 2),
     let r := Fin.ofNat 16 d.toNat
     let x := (s.thr i.site i.th).sreg r
     let m : Word := BitVec.ofNat 32 ((Iss.pre i).immS imm.toNat 2)
     let half : BitVec 16 := BitVec.ofNat 16 ((Iss.pre i).immU imm.toNat 2)
     Lone s i acceptsImm [r.val] →
     Retires s (exec (.addi i d imm) s) i none (Thread.putS r (x + m)) ∧
     Retires s (exec (.li i d imm) s) i none (Thread.putS r m) ∧
     Retires s (exec (.lih i d imm) s) i none (Thread.putS r (half ++ x.setWidth 16)) ∧
     Retires s (exec (.andi i d imm) s) i none (Thread.putS r (x &&& m)))

/-- R132, R133: a branch goes to its target, from the bundle's first syllable, where its condition holds, BR always, and JR to sA; no
register changes. -/
def Obligations.BranchesJump : Prop :=
  ∀ (s : State) (i : Iss) (a : BitVec 4),
    let r := Fin.ofNat 16 a.toNat
    let x := s.thr i.site i.th
    let v := x.sreg r
    let target (off w : Nat) : BitVec 16 := x.pc + BitVec.ofNat 16 ((Iss.pre i).immS off w)
    x.atLoopEnd x.pc = false →
    (∀ (cond off : BitVec 2), Lone s i acceptsImm [r.val] →
      let taken := (cond = 0 ∧ v = 0) ∨ (cond = 1 ∧ v ≠ 0) ∨ (cond = 2 ∧ v.toInt < 0) ∨ (cond = 3 ∧ 0 ≤ v.toInt)
      (taken → Runs s (exec (.branch i cond a off) s) i (some (target off.toNat 2)) [] id) ∧
      (¬ taken → Runs s (exec (.branch i cond a off) s) i none [] id)) ∧
    (∀ off : BitVec 7, Lone s i acceptsImm [] → Runs s (exec (.br i off) s) i (some (target off.toNat 7)) [] id) ∧
    (Lone s i acceptsImm [r.val] → Runs s (exec (.jr i a 0) s) i (some (v.setWidth 16)) [] id)

/-- R134, R135: a call writes the return index to s15 and pushes it on the shadow stack, whose oldest entry goes to the spill unit when 64
are held, and goes to its target; a stack that is full, or whose spill the bank of its place refuses, faults and pushes nothing. R136: RET
pops the shadow stack and goes to s15 where its newest entry agrees; it faults with cause 0x0F on an empty shadow stack and 0x0E on a
mismatch; an entry that comes back from the spill unit meets its bank first. -/
def Obligations.CallsAndReturns : Prop :=
  (∀ (s : State) (i : Iss) (a : BitVec 4) (off : BitVec 7) (c : Instr) (regs : List Nat) (target : BitVec 16),
     let x := s.thr i.site i.th
     let r := Fin.ofNat 16 a.toNat
     let ret : BitVec 16 := x.pc + BitVec.ofNat 16 (Iss.len i)
     let link (u : State) : State := u.on i (Thread.putS 15 (BitVec.ofNat 32 ret.toNat))
     let place := x.spillAddr i.site x.spilled
     (c, regs, target) ∈ [(Instr.call i off, [15], x.pc + BitVec.ofNat 16 ((Iss.pre i).immS off.toNat 7)),
       (Instr.callr i a 0, [r.val, 15], (x.sreg r).setWidth 16)] →
     Lone s i acceptsImm regs → x.atLoopEnd x.pc = false →
     (x.ssDepth = 2112 ∨ (64 ≤ x.ss.length ∧ bitOf x.spill.toNat 7 = false) → Faults s (exec c s) i .S ⟨0x0D, 0, 0, false, none⟩) ∧
     (x.ssDepth < 2112 → x.ss.length < 64 →
       Runs s (exec c s) i (some target) []
         (fun u => (link u).on i (fun y => { y with ss := y.ss ++ [ret], ssDepth := y.ssDepth + 1 }))) ∧
     (∀ (old : BitVec 16) (rest : List (BitVec 16)), x.ss = old :: rest → x.ssDepth < 2112 → 64 ≤ x.ss.length →
       bitOf x.spill.toNat 7 = true →
       (∀ f : Flt, s.spillPort i x.spilled = .error f → Faults s (exec c s) i .S f) ∧
       (∀ l : List Eff, s.spillPort i x.spilled = .ok l →
         Runs s (exec c s) i (some target) []
           (fun u => s.counted i (place - padBase i.site) 2 (((link u).setBytes place (leBytes 2 old.toNat)).on i
             (fun y => { y with ss := rest ++ [ret], ssDepth := y.ssDepth + 1 })))))) ∧
  (∀ (s : State) (i : Iss),
     let x := s.thr i.site i.th
     let top := s.ssEntry i.site i.th (x.ssDepth - 1)
     let pop (u : State) : State := u.on i (fun y => { y with ss := y.ss.dropLast, ssDepth := y.ssDepth - 1 })
     Lone s i acceptsImm [15] → x.atLoopEnd x.pc = false →
     (x.ssDepth = 0 → Faults s (exec (.ret i 0) s) i .S ⟨0x0F, 0, 0, false, none⟩) ∧
     (x.ssDepth ≠ 0 → x.ss ≠ [] → (x.sreg 15).toNat ≠ top → Faults s (exec (.ret i 0) s) i .S ⟨0x0E, 0, 0, false, none⟩) ∧
     (x.ssDepth ≠ 0 → x.ss ≠ [] → (x.sreg 15).toNat = top →
       Runs s (exec (.ret i 0) s) i (some ((x.sreg 15).setWidth 16)) [] pop) ∧
     (x.ssDepth ≠ 0 → x.ss = [] →
       (∀ f : Flt, s.spillPort i (x.ssDepth - 1) = .error f → Faults s (exec (.ret i 0) s) i .S f) ∧
       (∀ l : List Eff, s.spillPort i (x.ssDepth - 1) = .ok l →
         ((x.sreg 15).toNat ≠ top → Faults s (exec (.ret i 0) s) i .S ⟨0x0E, 0, 0, false, none⟩) ∧
         ((x.sreg 15).toNat = top → Runs s (exec (.ret i 0) s) i (some ((x.sreg 15).setWidth 16)) []
           (fun u => s.counted i (x.spillAddr i.site (x.ssDepth - 1) - padBase i.site) 2 (pop u))))))

/-- R138: LOOP loads its loop's registers and makes it active and newer, or, for a count of 0, leaves it inactive and skips its body.
R140: a transfer of control or LOOP in the last bundle of an active loop faults with cause 0x01. -/
def Obligations.LoopsGoRound : Prop :=
  (∀ (s : State) (i : Iss) (a : BitVec 4) (off : BitVec 1) (k : BitVec 1),
     let x := s.thr i.site i.th
     let r := Fin.ofNat 16 a.toNat
     let n := x.sreg r
     let next : BitVec 16 := x.pc + BitVec.ofNat 16 (Iss.len i)
     let last : BitVec 16 := next + BitVec.ofNat 16 ((Iss.pre i).immU off.toNat 1)
     let load (y : Thread) : Thread :=
       if k = 0 then { y with lc0 := n, lp0beg := BitVec.ofNat 32 next.toNat, lp0end := BitVec.ofNat 32 last.toNat }
       else { y with lc1 := n, lp1beg := BitVec.ofNat 32 next.toNat, lp1end := BitVec.ofNat 32 last.toNat }
     Lone s i acceptsImm [r.val] → x.atLoopEnd x.pc = false →
     (n ≠ 0 →
       Runs s (exec (.loop i k a off) s) i none []
         (fun u => u.on i (fun y =>
           load { y with lpctl := BitVec.ofNat 32 (setBits (setBits y.lpctl.toNat k.toNat 1 1) 2 1 k.toNat) }))) ∧
     (∀ m : Nat, n = 0 → (s.core i.site).bundleLen last = some m →
       Runs s (exec (.loop i k a off) s) i (some (last + BitVec.ofNat 16 m)) []
         (fun u => u.on i (fun y => load { y with lpctl := BitVec.ofNat 32 (setBits y.lpctl.toNat k.toNat 1 0) }))) ∧
     (n = 0 → (s.core i.site).bundleLen last = none → Faults s (exec (.loop i k a off) s) i .S illegalExec)) ∧
  (∀ (s : State) (i : Iss) (a : BitVec 4) (cond off : BitVec 2) (far : BitVec 7) (k e : BitVec 1) (c : Instr),
     c ∈ [Instr.branch i cond a off, .br i far, .call i far, .jr i a 0, .callr i a 0, .ret i 0, .loop i k a e] →
     Lone s i acceptsImm [(Fin.ofNat 16 a.toNat).val, 15] → (s.thr i.site i.th).atLoopEnd (s.thr i.site i.th).pc = true →
     Faults s (exec c s) i .S illegalExec)

/-- R142, R194: a vector operation's result holds, in each enabled lane, what the operation delivers there, and in each disabled lane the
old value. -/
def Obligations.LaneResults : Prop :=
  ∀ (c n : Nat) (pr : BitVec 64) (old : Vec) (f : Nat → Nat × Cls) (k : Nat), 0 < fmtWidth c → n * fmtWidth c ≤ 512 → k < n →
    (∀ j : Nat, j < n → (f j).1 < 2 ^ fmtWidth c) →
    elemAt (fmtWidth c) (laneMap c n pr old f).1.toNat k = if pr.getLsbD k then (f k).1 else elemAt (fmtWidth c) old.toNat k

/-- R142 to R144, R192: vector arithmetic and bitwise operations, lane by lane under the predicate: each delivers its lane's result,
rounded once in a floating-point format and wrapped in an integer one; counts and generators move as the elements say. R143: the vector
operations that move elements: VMOV copies the enabled lanes, VSEL takes vA where the predicate is 1 and vB elsewhere, VBC puts a scalar's
low bits in every enabled lane, and VCMP writes a predicate. Details that the spec leaves open are the model's choices: log 24, 54. -/
def Obligations.VectorResults : Prop :=
  (∀ (s : State) (i : Iss) (d a : BitVec 3), Lone s i acceptsVec (vecRegs i d a) →
     let p := Iss.pre i
     let x := s.thr i.site i.th
     let c := p.fmtCode
     let n := lanes c
     let D := extReg p.dh d
     let pr := x.pred p.p
     let mode := x.mode p.rndCode
     let el (v : Vec) (k : Nat) : Nat := elemAt (fmtWidth c) v.toNat k
     let u := (x.vecOps p d a).1
     let v := (x.vecOps p d a).2
     let o := x.vreg D
     let runs (r : Res) (rounds : Bool) (f : Nat → Nat × Cls) : Prop :=
       let out := laneMap c n pr o f
       let g := if rounds ∧ mode = .stoch then x.gensAfter ((List.range n).filter (fun k => pr.getLsbD k)) else []
       Retires s r i none (fun y => ((y.putV D out.1).addCounts out.2).setGens g)
     let exact (dn : Bool) (k : Nat) (op : Bool → Val → Val → Val) (iop : Int → Int → Int) : Nat × Cls :=
       if isFloat c then deliver c mode x.ieee (x.draw k) (op dn (value c (el u k)) (value c (el v k)))
       else (wrap (fmtWidth c) (iop (laneInt c (el u k)) (laneInt c (el v k))), .none)
     let dn := mode == .down
     (vecFmt c = true →
       runs (exec (.vadd i d a) s) (isFloat c) (fun k => exact dn k (fun dn u v => u.add dn v) (fun u v => u + v)) ∧
       runs (exec (.vsub i d a) s) (isFloat c) (fun k => exact dn k (fun dn u v => u.add dn v.neg) (fun u v => u - v)) ∧
       runs (exec (.vmul i d a) s) (isFloat c) (fun k => exact dn k (fun _ u v => u.mul v) (fun u v => u * v)) ∧
       runs (exec (.vand i d a) s) false (fun k => (el u k &&& el v k, .none)) ∧
       runs (exec (.vor i d a) s) false (fun k => (el u k ||| el v k, .none)) ∧
       runs (exec (.vxor i d a) s) false (fun k => (el u k ^^^ el v k, .none)) ∧
       runs (exec (.vmin i d a) s) false (fun k => pick Val.min (fun u v => min u v) x c mode (x.draw k) (el u k) (el v k) (el o k)) ∧
       runs (exec (.vmax i d a) s) false (fun k => pick Val.max (fun u v => max u v) x c mode (x.draw k) (el u k) (el v k) (el o k)) ∧
       (p.hasReg = true →
         runs (exec (.vfma i d a) s) (isFloat c) (fun k =>
           if isFloat c then
             deliver c mode x.ieee (x.draw k) ((value c (el o k)).add dn ((value c (el u k)).mul (value c (el v k))))
           else (wrap (fmtWidth c) (laneInt c (el o k) + laneInt c (el u k) * laneInt c (el v k)), .none)))) ∧
     (intFmt c = true →
       runs (exec (.vshift i d a) s) false (fun k =>
         let m := sgn (fmtWidth c) (el v k)
         (wrap (fmtWidth c) (if 0 ≤ m then laneInt c (el u k) * 2 ^ m.toNat else laneInt c (el u k) / 2 ^ m.natAbs), .none)))) ∧
  (∀ (s : State) (i : Iss) (d a : BitVec 3),
     let p := Iss.pre i
     let x := s.thr i.site i.th
     let c := p.fmtCode
     let n := lanes c
     let D := extReg p.dh d
     let A := extReg p.ah a
     let pr := x.pred p.p
     let el (v : Vec) (k : Nat) : Nat := elemAt (fmtWidth c) v.toNat k
     let B := x.vreg (Fin.ofNat 16 p.b)
     vecFmt c = true →
     (Lone s i acceptsVec (vecRegs i d a) →
       Retires s (exec (.vmov i d a) s) i none (Thread.putV D (laneMap c n pr (x.vreg D) (fun k => (el (x.vreg A) k, .none))).1)) ∧
     (Lone s i acceptsVec (vecRegs i d a) → p.hasReg = true →
       Retires s (exec (.vsel i d a) s) i none (Thread.putV D (laneMap c n pr B (fun k => (el (x.vreg A) k, .none))).1)) ∧
     (Lone s i acceptsVec [16 + D.val, A.val] →
       Retires s (exec (.vbc i d a) s) i none
         (Thread.putV D (laneMap c n pr (x.vreg D) (fun _ => ((x.sreg A).toNat % 2 ^ fmtWidth c, .none))).1)) ∧
     (Lone s i acceptsVec [16 + A.val, 16 + p.b] → p.hasReg = true → d.toNat < 6 → p.dh = 0 → p.p ≠ 0 →
       Retires s (exec (.vcmp i d a) s) i none (Thread.putP (Fin.ofNat 4 p.p)
         (BitVec.ofNat 64 (packElems 1 ((List.range n).map (fun k =>
           b2n ((value c (el (x.vreg A) k)).cmp d.toNat (value c (el B k))))))))))

/-- R143, R199: the reductions write a scalar register from the enabled lanes of vA: a tree of partial sums, each rounded once, or the
largest or smallest of them. R203, R207: VCVT converts the elements of vA from the first format to the second, each rounded once, with one
block scale for an SBF16 result. Details that the spec leaves open are the model's choices: log 22, 23. -/
def Obligations.VectorsReduceAndConvert : Prop :=
  (∀ (s : State) (i : Iss) (d a : BitVec 3),
     let p := Iss.pre i
     let x := s.thr i.site i.th
     let c := p.fmtCode
     let D := extReg p.dh d
     let A := extReg p.ah a
     let mode := x.mode p.rndCode
     let on := enabledLanes c (x.pred p.p) (x.vreg A)
     let runs (r : Res) (out : Nat × Counts × List Nat) : Prop :=
       let g := if mode = .stoch ∧ isFloat c = true then x.gensAfter (out.2.2.map (· % 64)) else []
       Retires s r i none (fun y => ((y.putS D (redWord c out.1)).addCounts out.2.1).setGens g)
     vecFmt c = true → Lone s i acceptsVec [D.val, 16 + A.val] →
     (p.b = 0 → runs (exec (.vredSum i d a) s) (redSum x c mode on)) ∧
     (p.b = 1 → runs (exec (.vredMax i d a) s) (redBest Val.max (fun u v => max u v) leastOf x c mode on)) ∧
     (p.b = 2 → runs (exec (.vredMin i d a) s) (redBest Val.min (fun u v => min u v) greatestOf x c mode on))) ∧
  (∀ (s : State) (i : Iss) (d a : BitVec 3) (f g r0 rnd : Nat),
     let p := Iss.pre i
     let x := s.thr i.site i.th
     let src := fmtOr1 f
     let dst := fmtOr1 g
     let D := extReg p.dh d
     let n := cvtCount src dst
     let mode := x.mode rnd
     let pr := if src = 0xF ∨ dst = 0xF then BitVec.allOnes 64 else x.pred p.p
     let vs := cvtSource src n (x.vreg (extReg p.ah a)).toNat
     Lone s i acceptsCvt (vecRegs i d a) → p.fmts = [(f, r0), (g, rnd)] → cvtPair src dst = true →
     Retires s (exec (.vcvt i d a) s) i none (fun y =>
       ((y.putV D (cvtResult x dst n mode pr (x.vreg D) vs).1).addCounts (cvtResult x dst n mode pr (x.vreg D) vs).2).setGens
         (if mode = .stoch then x.gensAfter ((List.range n).filter (fun k => pr.getLsbD k)) else [])))

/-- R127, R145, R146, R231, R241, R244: a load retires at once and its data comes later: what its own scratchpad or a line its cache holds
stands at is what it reads, a line the cache lacks is asked for and the next one with it, unless it is on its way, and other data of this
module is read when it arrives. R146, R227, R331: data that arrives without an error or poison is written to the load's destination,
extended as its kind says, and the load is over; poisoned data writes nothing, nor does data of the own scratchpad found beyond
correction. R253, R254, R264, R269, R331, R364: a load of this module's data that nothing holds is read at its home as it arrives. Good
data is written to its destination; data that is refused by its bank, or that a timeout or an access error ends, brings cause 0x0B, an
address that nothing occupies cause 0x0A with the unmapped event, and data that meets a parity error on the mesh or bytes beyond
correction in a stack is poison, cause 0x30. The cause is taken at once where the thread stands at a boundary, with the next PC, RETRY 0,
IMP 1, SLOT T and the load's EA, and is kept for its next boundary elsewhere; no destination is written. Details that the spec leaves open
are the model's choices: log 29, 46, 54. -/
def Obligations.LoadsBringData : Prop :=
  (∀ (s : State) (i : Iss) (d a : BitVec 3) (kind : LdKind) (un : Bool) (c : Instr),
     (kind, un, c) ∈ [(.w, false, Instr.ldw i d a), (.h, false, .ldh i d a), (.hu, false, .ldhu i d a), (.b, false, .ldb i d a),
       (.bu, false, .ldbu i d a), (.vec, false, .vld i d a), (.w, true, .ldu i d a), (.vec, true, .vldu i d a)] →
     let p := Iss.pre i
     let x := s.thr i.site i.th
     let dst := (if kind = .vec then 16 else 0) + (extReg p.dh d).val
     let ea := x.effAddr p a
     let n := kind.size
     let port : Via := ⟨.n, i.met⟩
     Lone s i acceptsMem [dst, (extReg p.ah a).val] → (kind = .vec → p.p = 0) →
     (ea % n ≠ 0 → Faults s (exec c s) i .T ⟨0x09, ea, 0, false, none⟩) ∧
     (∀ l : List Eff, s.loadPlan i kind dst ea un = .ok l → Runs s (exec c s) i none [] (effectsOf l i.site i.th)) ∧
     (ea % n = 0 →
       (∀ f : Flt, s.resolve i.site i.th ea n needR port true = .error f → Faults s (exec c s) i .T f) ∧
       (∀ off : Nat, s.resolve i.site i.th ea n needR port true = .ok (.own off) →
         s.memBusy i.site i.th (padBase i.site + off) n (reachOf false true ea) = false →
         Runs s (exec c s) i none [] (fun u => s.counted i off n (u.on i (Thread.addLoad ⟨kind, dst, ea, padBase i.site + off, true, false,
           0, 0, none, some (s.padBytes i.site off n, s.poisoned (padBase i.site + off) n, 0), 0, setsAt s.landObs (padBase i.site + off) n⟩)))) ∧
       (∀ g : Nat, s.resolve i.site i.th ea n needR port true = .ok (.glob g) → (s.isRegSpace g = true → kind = .w) →
         s.memBusy i.site i.th g n (reachOf false false ea) = false →
         (∀ l : Line, s.cacheable i.site g = true → (s.core i.site).line g = some l → (un = false ∨ l.dirty = true) →
           Retires s (exec c s) i none
             (Thread.addLoad ⟨kind, dst, ea, g, false, false, 0, 0, none, some (l.at_ g n, l.poison, 0), 0, l.seenAt g n⟩)) ∧
         (s.cacheable i.site g = true → (s.core i.site).line g = none → un = false → s.isLocal g = true →
           let asked := Thread.addLoad ⟨kind, dst, ea, g, false, true, 0, 0, none, none, 0, []⟩
           ((s.core i.site).demand = none → (s.core i.site).ahead ≠ some (g / 64 * 64) →
             Runs s (exec c s) i none [] (fun u => (u.startMiss i.site i.th (g / 64 * 64)).on i asked)) ∧
           ((s.core i.site).ahead = some (g / 64 * 64) → Retires s (exec c s) i none asked)) ∧
         (s.cacheable i.site g = false ∨ (un = true ∧ ∀ l : Line, (s.core i.site).line g = some l → l.dirty = false) →
           s.isLocal g = true →
           Retires s (exec c s) i none (Thread.addLoad ⟨kind, dst, ea, g, false, false, 0, 0, none, none, 0, []⟩))))) ∧
  (∀ (s : State) (site : Nat) (th : Fin 4) (k : Nat) (what : Arrival) (l : Load) (b : List Byte) (psn : Bool),
     (s.thr site th).loads[k]? = some l → l.resp = some (b, psn, 0) → b.length = l.kind.size → l.kind.consumes = true →
     let n := leNat b
     let word : Word :=
       match l.kind with
       | .h => (BitVec.ofNat 16 n).signExtend 32
       | .b => (BitVec.ofNat 8 n).signExtend 32
       | _ => BitVec.ofNat 32 n
     Yields (exec (.loadDataArrival site th k what) s) (fun t =>
       (t.thr site th).loads = dropIdx (s.thr site th).loads k ∧ (t.thr site th).p = (s.thr site th).p ∧ MemSame s t ∧
       (l.kind = .vec → (t.thr site th).s = (s.thr site th).s) ∧ (l.kind ≠ .vec → (t.thr site th).v = (s.thr site th).v) ∧
       (psn = true ∨ (what = .uncorrectable ∧ l.own = true) →
         (t.thr site th).s = (s.thr site th).s ∧ (t.thr site th).v = (s.thr site th).v) ∧
       (psn = false → what ≠ .uncorrectable →
         (l.kind = .vec → (t.thr site th).v = (s.thr site th).v.set (Fin.ofNat 16 (l.dst - 16)) (BitVec.ofNat 512 n)) ∧
         (l.kind ≠ .vec → (t.thr site th).s = (s.thr site th).s.set (Fin.ofNat 16 l.dst) word)))) ∧
  ((∀ (s : State) (site : Nat) (th : Fin 4) (k : Nat) (l : Load),
     let n := l.kind.size
     let h := s.homeOf l.loc n
     let comes (what : Arrival) (u : State) (cause : Nat) (loc : Option Nat) : Prop :=
       exec (.loadDataArrival site th k what) s = .next ((u.endLoad site th k).loadError site th l cause loc).settle
     let read (u : State) : State := u.chargeBy site l.loc n false
     (s.thr site th).loads[k]? = some l → l.resp = none → l.cached = false → l.cmd = 0 → s.isLocal l.loc = true →
     l.kind ∈ [LdKind.w, .h, .hu, .b, .bu, .vec] → s.loadHeld site th k l = false →
     ((∃ d : Nat, h = .hbm d) ∨ (∃ st off : Nat, h = .pad st off ∧ s.padRefuses st off n false = false) →
       ((s.readGood l.loc n).poisoned l.loc n = false →
         Yields (exec (.loadDataArrival site th k .ok) s) (fun t => MemSame s t ∧ (t.thr site th).loads = dropIdx (s.thr site th).loads k ∧
           (l.kind = .vec → (t.thr site th).s = (s.thr site th).s ∧
             (t.thr site th).v = (s.thr site th).v.set (Fin.ofNat 16 (l.dst - 16)) (BitVec.ofNat 512 (s.le l.loc 64))) ∧
           (l.kind ≠ .vec → (t.thr site th).v = (s.thr site th).v ∧
             (t.thr site th).s = (s.thr site th).s.set (Fin.ofNat 16 l.dst) (BitVec.ofNat 32 (l.kind.value (s.bytes l.loc n)))))) ∧
       ((s.readGood l.loc n).poisoned l.loc n = true → comes .ok (read (s.readGood l.loc n)) 0x30 none) ∧
       comes .parity ((read (s.readGood l.loc n)).meshParity (dieOf site)) 0x30 none) ∧
     (∀ d : Nat, h = .hbm d → comes .uncorrectable (read (s.spoilt l.loc n)) 0x30 none) ∧
     (∀ d off : Nat, h = .reg d off → l.kind = .w →
       let r := ((s.readGood l.loc 4).chargeBy site l.loc 4 false).readSpace (.thread site th) l.loc
       r.2 < 2 ^ 32 → Yields (exec (.loadDataArrival site th k .ok) s) (fun t => t.mem = r.1.mem ∧
         (t.thr site th).s = (r.1.thr site th).s.set (Fin.ofNat 16 l.dst) (BitVec.ofNat 32 r.2) ∧ (t.thr site th).v = (r.1.thr site th).v)) ∧
     (∀ st off : Nat, h = .pad st off → s.padRefuses st off n false = true → comes .ok (read (s.readGood l.loc n)) 0x0B none) ∧
     (h = .unmapped → comes .ok (s.readGood l.loc n) 0x0A (some l.loc)) ∧
     comes .busError (s.meshTimedOut (dieOf site) l.loc) 0x0B none ∧
     comes .accessError s 0x0B none) ∧
   (∀ (s : State) (site : Nat) (th : Fin 4) (l : Load) (cause : Nat) (loc : Option Nat),
     let x := s.thr site th
     let t := s.loadError site th l cause loc
     let y := t.thr site th
     let now := x.atBoundary = true ∧ s.halted site th = false ∧ x.dbgStop = false ∧ x.late = []
     MemSame s t ∧ y.s = x.s ∧ y.v = x.v ∧ y.loads = x.loads ∧
     (∀ g : Nat, loc = some g → t.flag (dieOf site) MSH_EVENT_UNMAPPED = true) ∧
     (¬ now → y.late = x.late ++ [(cause, l.ea)] ∧ y.pc = x.pc ∧ y.level = x.level) ∧
     (now → x.level = .l0 → y.late = [] ∧
       (cause = 0x0A ∨ cause = 0x0B → y.level = .l1 ∧
         y.sv1 = { x.sv1 with pc := x.pc, st := stWord 3 false false true 0, cause := BitVec.ofNat 32 cause, addr := BitVec.ofNat 32 l.ea,
                              prog := x.prog, went := x.after }) ∧
       (cause = 0x30 → y.level = .l2 ∧ y.l2wait = true ∧
         y.sv2 = { x.sv2 with pc := x.pc, st := stWord 3 false false true 0, cause := BitVec.ofNat 32 cause, addr := BitVec.ofNat 32 l.ea,
                              prog := x.prog, went := x.after }))))

/-- R145, R146, R231, R275: a store to the core's own scratchpad writes its bytes as it retires, and no other byte of memory and no
register changes, but for the refusals that its bank counts. R243, R275: a store elsewhere is a command of one write on its way, or goes
into a line that the core's cache holds; memory itself does not change as the store retires. Details that the spec leaves open are the
model's choices: log 29, 54. -/
def Obligations.StoresAreMade : Prop :=
  (∀ (s : State) (i : Iss) (d a : BitVec 3) (n : Nat) (b : List Byte) (reg : Nat) (c : Instr),
     let p := Iss.pre i
     let x := s.thr i.site i.th
     let D := extReg p.dh d
     let ea := x.effAddr p a
     (n, b, reg, c) ∈ [(4, leBytes 4 (x.sreg D).toNat, D.val, Instr.stw i d a), (2, leBytes 2 (x.sreg D).toNat, D.val, .sth i d a),
       (1, leBytes 1 (x.sreg D).toNat, D.val, .stb i d a), (64, leBytes 64 (x.vreg D).toNat, 16 + D.val, .vst i d a)] →
     Lone s i acceptsMem [reg, (extReg p.ah a).val] → (n = 64 → p.p = 0) → ea % n = 0 →
     ∀ off : Nat, s.resolve i.site i.th ea n needW ⟨.n, i.met⟩ false = .ok (.own off) →
       s.memBusy i.site i.th (padBase i.site + off) n (reachOf true true ea) = false → s.slotHeld i.site off n = false →
       Runs s (exec c s) i none [] (fun u => s.counted i off n (u.writeMem (padBase i.site + off) b false)) ∧
       Yields (exec c s) (fun t => t.bytes (padBase i.site + off) n = b ∧ MemBut s t (padBase i.site + off) n)) ∧
  (∀ (s : State) (i : Iss) (d a : BitVec 3) (n : Nat) (b : List Byte) (reg : Nat) (c : Instr),
     let p := Iss.pre i
     let x := s.thr i.site i.th
     let D := extReg p.dh d
     let ea := x.effAddr p a
     (n, b, reg, c) ∈ [(4, leBytes 4 (x.sreg D).toNat, D.val, Instr.stw i d a), (2, leBytes 2 (x.sreg D).toNat, D.val, .sth i d a),
       (1, leBytes 1 (x.sreg D).toNat, D.val, .stb i d a), (64, leBytes 64 (x.vreg D).toNat, 16 + D.val, .vst i d a)] →
     Lone s i acceptsMem [reg, (extReg p.ah a).val] → (n = 64 → p.p = 0) →
     (ea % n ≠ 0 → Faults s (exec c s) i .T ⟨0x09, ea, 0, false, none⟩) ∧
     (∀ f : Flt, ea % n = 0 → s.resolve i.site i.th ea n needW ⟨.n, i.met⟩ false = .error f → Faults s (exec c s) i .T f) ∧
     ∀ g : Nat, ea % n = 0 → s.resolve i.site i.th ea n needW ⟨.n, i.met⟩ false = .ok (.glob g) → (s.isRegSpace g = true → n = 4) →
       s.memBusy i.site i.th g n (reachOf true false ea) = false →
       (s.cacheable i.site g = false → Yields (exec c s) (fun t => MemSame s t ∧ t.nextCmd = s.nextCmd + 1 ∧
         t.inflight = s.inflight ++
           [⟨s.nextCmd, .thread i.site i.th, x.ctx, g, b, false, false, [], none, false, some (i.site, i.th.val), 0, false, s.actOf i.site,
             false⟩] ∧
         (t.thr i.site i.th).pc = x.onward i ∧ (t.thr i.site i.th).s = x.s ∧ (t.thr i.site i.th).v = x.v)) ∧
       (s.cacheable i.site g = true → ((s.core i.site).line g).isSome = true ∨ (n = 64 ∧ (s.core i.site).filling g = false) →
         Runs s (exec c s) i none [] (fun u => u.cacheStore i.site i.th g b)) ∧
       (∀ l : Line, s.cacheable i.site g = true → (s.core i.site).line g = some l → Yields (exec c s) (fun t => MemSame s t ∧
         t.inflight = s.inflight ∧
         (t.core i.site).lines = (s.core i.site).lines.map (fun m => if m.addr = l.addr then l.merge (g % 64) b else m) ∧
         (t.thr i.site i.th).pc = x.onward i ∧ (t.thr i.site i.th).s = x.s ∧ (t.thr i.site i.th).v = x.v)))

/-- R146, R147: an atomic on the core's own scratchpad reads the old word for its destination and stores the new one; elsewhere on this
module it is a command that is performed at its home. Details that the spec leaves open are the model's choices: log 8, 54. -/
def Obligations.AtomicsReadAndWrite : Prop :=
  ∀ (s : State) (i : Iss) (d a : BitVec 3) (kind : LdKind) (c : Instr),
    (kind, c) ∈ [(.aadd, Instr.aadd i d a), (.acas, .acas i d a), (.aswp, .aswp i d a)] →
    let p := Iss.pre i
    let x := s.thr i.site i.th
    let D := extReg p.dh d
    let v := x.sreg D
    let w := x.sreg (Fin.ofNat 16 p.b)
    let ea := x.effAddr p a
    Lone s i acceptsMem [D.val, (extReg p.ah a).val, p.b] → (kind = .acas → p.hasReg = true) →
    (ea % 4 ≠ 0 → Faults s (exec c s) i .T ⟨0x09, ea, 0, false, none⟩) ∧
    (∀ l : List Eff, s.atomicPlan i kind D.val ea v w = .ok l → Runs s (exec c s) i none [] (effectsOf l i.site i.th)) ∧
    (∀ off : Nat, ea % 4 = 0 → s.resolve i.site i.th ea 4 needA ⟨.n, i.met⟩ true = .ok (.own off) →
      s.memBusy i.site i.th (padBase i.site + off) 4 (reachOf true true ea) = false → s.slotHeld i.site off 4 = false →
      let old : Word := BitVec.ofNat 32 (leNat (s.padBytes i.site off 4))
      let ld (u : State) : State := u.on i (Thread.addLoad ⟨kind, D.val, ea, padBase i.site + off, true, false, v, w, none,
        some (leBytes 4 old.toNat, s.poisoned (padBase i.site + off) 4, 0), 0, setsAt s.landObs (padBase i.site + off) 4⟩)
      let st (x : Word) (u : State) : State := (ld u).writeMem (padBase i.site + off) (leBytes 4 x.toNat) false
      let counts := s.counted i off 4
      (kind = .aadd → Runs s (exec c s) i none [] (fun u => counts (st (old + v) u))) ∧
      (kind = .aswp → Runs s (exec c s) i none [] (fun u => counts (st v u))) ∧
      (kind = .acas → old = v → Runs s (exec c s) i none [] (fun u => counts (st w u))) ∧
      (kind = .acas → old ≠ v → Runs s (exec c s) i none [] (fun u => counts (ld u)))) ∧
    (∀ g : Nat, ea % 4 = 0 → s.resolve i.site i.th ea 4 needA ⟨.n, i.met⟩ true = .ok (.glob g) →
      (s.isRegSpace g = true ∨ (s.isLocal g = false ∧ kind ≠ .aadd) → Faults s (exec c s) i .T ⟨0x03, ea, 0, false, none⟩) ∧
      (s.isRegSpace g = false → s.isLocal g = true → s.memBusy i.site i.th g 4 (reachOf true false ea) = false →
        (s.core i.site).filling g = false → (s.core i.site).line g = none →
        Runs s (exec c s) i none [] (fun u =>
          ({ u with nextCmd := u.nextCmd + 1 }.on i (fun y => y.observe [s.nextCmd])).on i
            (Thread.addLoad ⟨kind, D.val, ea, g, false, false, v, w, none, none, s.nextCmd, []⟩))))

/-- R245: the data-cache operations on a line the cache holds: a clean writes a dirty line back and keeps it, an invalidate drops it, a
dirty one unwritten only where the thread's region table grants W over it, a clean and invalidate writes it back and drops it; on a line
it does not hold they do nothing. -/
def Obligations.CacheLineOperations : Prop :=
  ∀ (s : State) (i : Iss) (d a : BitVec 3) (op : Nat) (c : Instr) (g : Nat),
    (op, c) ∈ [(0, Instr.dcClean i d a), (1, .dcInvalidate i d a), (2, .dcCleanInvalidate i d a)] →
    let p := Iss.pre i
    let x := s.thr i.site i.th
    let h := if s.isLocal g then localOf g else g
    Lone s i acceptsMem [(extReg p.ah a).val] → p.b = op →
    (x.bankAddr (x.effAddr p a) = .ok none → Runs s (exec c s) i none [] id) ∧
    (x.bankAddr (x.effAddr p a) = .ok (some g) → (s.core i.site).line h = none → (s.core i.site).filling h = false →
      Runs s (exec c s) i none [] id) ∧
    (∀ f : Flt, x.bankAddr (x.effAddr p a) = .error f → Faults s (exec c s) i .T f) ∧
    (∀ l : Line, x.bankAddr (x.effAddr p a) = .ok (some g) → (s.core i.site).line h = some l →
      (s.core i.site).filling h = false → s.memBusy i.site i.th (h / 64 * 64) 64 ⟨true, false, true⟩ = false →
      let discard := op = 1 ∧ s.lineAllowed x.ctx l.addr needW = true
      Yields (exec c s) (fun t => MemSame s t ∧ (t.thr i.site i.th).pc = x.onward i ∧ (t.thr i.site i.th).s = x.s ∧
        (t.core i.site).lines = (if op = 0 then
            (if l.dirty then (s.core i.site).lines.map (fun m => if m.addr = l.addr then { l with dirty := false } else m)
             else (s.core i.site).lines)
          else ((s.core i.site).lines.map (fun m => if m.addr = l.addr ∧ l.dirty = true ∧ ¬ discard then { l with dirty := false } else m)).filter
            (fun m => m.addr != h / 64 * 64)) ∧
        t.inflight = (if l.dirty = true ∧ ¬ discard then s.inflight ++
            [⟨s.nextCmd, .thread i.site i.th, x.ctx, l.addr, l.bytes, l.poison, false, [], none, false, some (i.site, i.th.val), 0, true,
              s.actOf i.site, false⟩]
          else s.inflight)))

/-- R156 to R158, R164, R169, R170: the tile operations that end at once: TCFG configures a tile, which becomes full and its thread's
context's, TREL empties it, TWR and TRD move a row, TZA makes an accumulator of zeros, TMOVA reads a row of it, draining it where it is
dirty, and TWA writes one. R156, R157, R169: what the words of a configured tile and of a zeroed accumulator say: full, whose, and their
shapes. R164, R165: the scale-side operations: TLDS brings a tile's scale side, TSTS stores it, in the core's own scratchpad as they
retire; a tile without scales moves nothing. Details that the spec leaves open are the model's choices: log 25, 54. -/
def Obligations.TilesAreWritten : Prop :=
  (∀ (s : State) (i : Iss) (d a : BitVec 3),
     let p := Iss.pre i
     let x := s.thr i.site i.th
     let k := s.core i.site
     let A := extReg p.ah a
     let D := extReg p.dh d
     let w := (x.sreg A).toNat
     let n := d.toNat
     let row := p.immS 0 0
     let free (u : Uses) : Prop := k.tileBusy u false = false
     i.site < Config.sites → s.safe i.site = false →
     (Lone s i acceptsTile [A.val] → p.named false false = true → free ⟨[], bothSides n⟩ → s.tileOk i.site i.th n = true →
       bitsOf w 16 16 = 0 → bitsOf w 5 2 = 0 → shapeOk (bitsOf w 11 4) ((bitsOf w 7 4 + 1) * 4) (bitOf w 15) = true →
       Runs s (exec (.tcfg i d a) s) i none [] (fun u => u.modTile i.site n (fun t =>
         ({ t with cfg := BitVec.ofNat 32 (setBits t.cfg.toNat 0 16 w) }).own x.ctx))) ∧
     (Lone s i Accepts.none [] → free ⟨[], bothSides n⟩ → s.tileOk i.site i.th n = true →
       Runs s (exec (.trel i d 0) s) i none [] (fun u => u.modTile i.site n (fun _ => Tile.reset))) ∧
     (Lone s i acceptsRow [16 + A.val] → p.named false false = true → free ⟨[], [n]⟩ → s.tileOk i.site i.th n = true →
       row < (k.tile n).nrows →
       Runs s (exec (.twr i d a) s) i none [] (fun u => u.modTile i.site n (fun t =>
         (t.own x.ctx).setRow row (x.vreg A).toNat false))) ∧
     (p.named false false = true → free ⟨[n], []⟩ → s.tileOk i.site i.th n = true → row < (k.tile n).nrows →
       (Lone s i acceptsRow [16 + A.val] → (k.tile n).poisoned row = false →
         Retires s (exec (.trd i d a) s) i none (Thread.putV A (BitVec.ofNat 512 (leNat ((k.tile n).rowBytes row))))) ∧
       (∀ j : Iss, j = { i with badRow := some (0, row) } → Lone s i acceptsRow [16 + A.val] → (k.tile n).poisoned row = false →
         Faults (s.spoilRows i.site [(n, row)]) (exec (.trd j d a) s) i .M ⟨0x30, 0, 0, false, none⟩) ∧
       (Lone s i acceptsRow [16 + A.val] → (k.tile n).poisoned row = true →
         Faults s (exec (.trd i d a) s) i .M ⟨0x30, 0, 0, false, none⟩)) ∧
     (∀ c : Fin 2, Lone s i acceptsTile [A.val] → p.named false false = true → free ⟨[], [16 + c.val]⟩ →
       s.accOk i.site i.th c.val = true → bitsOf w 11 21 = 0 → d = BitVec.ofNat 3 (4 * c.val) →
       Runs s (exec (.tza i d a) s) i none [] (fun u => u.modAcc i.site c.val (fun _ => zeroedAcc w x.ctx))) ∧
     (let c := bitsOf w 5 1
       let m := bitsOf w 0 5
       Lone s i acceptsTile [A.val, 16 + D.val, 17 + D.val] → p.named true false = true → D.val % 2 = 0 → bitsOf w 6 26 = 0 →
       s.accOk i.site i.th c = true → m < (k.accum c).mrows →
       (free ⟨[16 + c], []⟩ →
         let read (u : State) : State :=
           (u.on i (Thread.putV D ((k.accum c).rowVec m 0))).on i (Thread.putV (D + 1) ((k.accum c).rowVec m 16))
         ((k.accum c).dirty = false → Runs s (exec (.tmova i d a) s) i none [] read) ∧
         ((k.accum c).dirty = true → Runs s (exec (.tmova i d a) s) i none [] (fun u => (read u).drain i.site c))) ∧
       (free ⟨[], [16 + c]⟩ →
         Runs s (exec (.twa i d a) s) i none [] (fun u =>
           u.modAcc i.site c (fun y => y.writeRow m (x.vreg D) (x.vreg (D + 1))))))) ∧
  (∀ (t : Tile) (w ctx m n : Nat), ctx < 64 →
     (t.own ctx).full = true ∧ (t.own ctx).owner = ctx ∧ (t.own ctx).rows = t.rows ∧ (t.own ctx).nrows = t.nrows ∧
     (t.own ctx).rb = t.rb ∧ (t.own ctx).fmt = t.fmt ∧
     (zeroedAcc w ctx).full = true ∧ (zeroedAcc w ctx).owner = ctx ∧ (zeroedAcc w ctx).dirty = false ∧
     (zeroedAcc w ctx).mrows = w % 32 + 1 ∧ (zeroedAcc w ctx).ncols = w / 32 % 32 + 1 ∧ (zeroedAcc w ctx).at_ m n = 0 ∧
     Tile.reset.full = false) ∧
  (∀ (s : State) (i : Iss) (d a : BitVec 3),
     let p := Iss.pre i
     let x := s.thr i.site i.th
     let k := s.core i.site
     let ea := (x.sreg (extReg p.ah a)).toNat
     let t := k.tile d.toNat
     let n := t.scaleBytes
     i.site < Config.sites → s.safe i.site = false → Lone s i acceptsTile [(extReg p.ah a).val] → p.named false false = true →
     s.tileOk i.site i.th d.toNat = true →
     (k.tileBusy ⟨[], [8 + d.toNat]⟩ false = false →
       (ea % 4 ≠ 0 → Faults s (exec (.tlds i d a) s) i .M ⟨0x09, ea, 0, false, none⟩) ∧
       (∀ l : List Eff, s.tldsPlan i d.toNat ea = .ok l → Runs s (exec (.tlds i d a) s) i none [] (effectsOf l i.site i.th)) ∧
       (n = 0 → ea % 4 = 0 → Runs s (exec (.tlds i d a) s) i none [] id) ∧
       (∀ off : Nat, 0 < n → ea % 4 = 0 → s.resolve i.site i.th ea (cdiv n 4 * 4) needR ⟨.n, i.met⟩ false = .ok (.own off) →
         s.memBusy i.site i.th (padBase i.site + off) n (reachOf false true ea) = false →
         Runs s (exec (.tlds i d a) s) i none [] (fun u => s.counted i off (cdiv n 4 * 4) ((u.modTile i.site d.toNat (fun y =>
           { y.own x.ctx with scale := BitVec.ofNat 1024 (setBits y.scale.toNat 0 (8 * n) (leNat (s.padBytes i.site off n))) })).on i
             (fun y => y.observe (setsAt s.landObs (padBase i.site + off) n)))))) ∧
     (k.tileBusy ⟨[8 + d.toNat], []⟩ false = false →
       (ea % 4 ≠ 0 → Faults s (exec (.tsts i d a) s) i .M ⟨0x09, ea, 0, false, none⟩) ∧
       (∀ l : List Eff, s.tstsPlan i d.toNat ea = .ok l → Runs s (exec (.tsts i d a) s) i none [] (effectsOf l i.site i.th)) ∧
       (n = 0 → ea % 4 = 0 → Runs s (exec (.tsts i d a) s) i none [] id) ∧
       (∀ off : Nat, 0 < n → ea % 4 = 0 → s.resolve i.site i.th ea (cdiv n 4 * 4) needW ⟨.n, i.met⟩ false = .ok (.own off) →
         s.memBusy i.site i.th (padBase i.site + off) n (reachOf true true ea) = false → s.slotHeld i.site off n = false →
         Runs s (exec (.tsts i d a) s) i none [] (fun u =>
           s.counted i off (cdiv n 4 * 4) (u.writeMem (padBase i.site + off) (leBytes n t.scale.toNat) (t.anyPoison 0))))))

/-- R163, R167, R171, R175: the long tile operations start from their first row or group where the thread has no progress word. R125,
R163, R171, R174, R176 to R178, R343: a long operation that completes lets its thread go on where its bundle left it, with no progress
word, a trap or return of the bundle after it; one that must stop at a boundary leaves the thread at its bundle with the progress word and
nothing in flight: a row operation at the row, a TMMA with the groups that the boundary closes entered, at the start of the first that it
does not. A boundary at the end completes the operation; a single step takes the first boundary. R175, R204, R208: a conversion from its
next row on is that row converted and written, with its scale where the tile has scales and its counts, and then the rest; no memory and
no accumulator changes. R125, R180: a bundle issued with a valid progress word carries its long operation on from the row it names, and
goes on where it would have gone when it was stopped; where the bundle holds another operation in slot M, or none, it faults with cause
0x10. Details that the spec leaves open are the model's choices: log 30, 42. -/
def Obligations.LongOperations : Prop :=
  (∀ (s : State) (i : Iss) (d a : BitVec 3),
     let p := Iss.pre i
     let x := s.thr i.site i.th
     let k := s.core i.site
     let base := (x.sreg (extReg p.ah a)).toNat
     let stride := if p.hasReg then (x.sreg (Fin.ofNat 16 p.b)).toNat else (k.tile d.toNat).rb
     let tD := k.tile d.toNat
     let tS := k.tile a.toNat
     let free (u : Uses) (mma : Bool) : Prop := k.tileBusy u mma = false
     i.site < Config.sites → s.safe i.site = false →
     (Lone s i acceptsTile (moveRegs i a) → p.named false true = true → s.tileOk i.site i.th d.toNat = true → base % 4 = 0 →
       stride % 4 = 0 →
       (free ⟨[], [d.toNat]⟩ false →
         Starts s (exec (.tld i d a) s) i id ⟨0x2, d.toNat, 0, base, stride, 0, x.ieee, 0, 0, 0, none, none, x.bk, x.slice, x.spill⟩) ∧
       (free ⟨[d.toNat], []⟩ false →
         Starts s (exec (.tst i d a) s) i id ⟨0x3, d.toNat, 0, base, stride, 0, x.ieee, 0, 0, 0, none, none, x.bk, x.slice, x.spill⟩)) ∧
     (Lone s i Accepts.none [] → s.tileOk i.site i.th d.toNat = true → s.tileOk i.site i.th a.toNat = true →
       tD.anyPoison 0 = false → tS.anyPoison 0 = false →
       (s.accOk i.site i.th 0 = true → mmaOk tD tS (k.accum 0) = true → free ⟨bothSides d.toNat ++ bothSides a.toNat, [16]⟩ true →
         Starts s (exec (.tmmaAcc0 i d a) s) i id ⟨0x4, d.toNat, a.toNat, 0, 0, 0, x.ieee, 0, 0, 0, none, none, x.bk, x.slice, x.spill⟩) ∧
       (s.accOk i.site i.th 1 = true → mmaOk tD tS (k.accum 1) = true → free ⟨bothSides d.toNat ++ bothSides a.toNat, [17]⟩ true →
         Starts s (exec (.tmmaAcc1 i d a) s) i id ⟨0x6, d.toNat, a.toNat, 0, 0, 0, x.ieee, 0, 0, 0, none, none, x.bk, x.slice, x.spill⟩)) ∧
     (Lone s i acceptsFmt [] → p.fmtIs tD.fmt = true → s.tileOk i.site i.th d.toNat = true → cvtTyped tD.fmt = true →
       (s.tileOk i.site i.th a.toNat = true → tD.nrows = tS.nrows → tD.elems = tS.elems → cvtTyped tS.fmt = true →
         tS.anyPoison 0 = false → free ⟨bothSides a.toNat, bothSides d.toNat⟩ false →
         Starts s (exec (.tcvt i d a) s) i id ⟨0x5, d.toNat, a.toNat, 0, 0, x.cvtRnd p, x.ieee, 0, 0, 0, none, none, x.bk, x.slice, x.spill⟩) ∧
       (a.toNat < 2 → s.accOk i.site i.th a.toNat = true → tD.nrows = (k.accum a.toNat).mrows → (k.accum a.toNat).ncols ≤ tD.elems →
         free ⟨[16 + a.toNat], bothSides d.toNat⟩ false →
         Starts s (exec (.tcvta i d a) s) i (fun u => if (k.accum a.toNat).dirty then u.drain i.site a.toNat else u)
           ⟨0x7, d.toNat, a.toNat, 0, 0, x.cvtRnd p, x.ieee, 0, 0, 0, none, none, x.bk, x.slice, x.spill⟩))) ∧
  (∀ (s : State) (site : Nat) (th : Fin 4) (o : TileOp) (w : Onward) (what : Arrival) (met : Nat),
     (s.thr site th).long = some o → (s.thr site th).after = some w → s.gated site = false →
     let quiet := w.loops = [] ∧ w.acts = []
     let ended (t : State) : Prop := (t.thr site th).long = none ∧ (t.thr site th).after = none ∧ (t.thr site th).prog = 0 ∧
       (t.thr site th).pc = w.pc
     let onward (u : State) : State := ((w.acts.foldl (fun s e => s.after site th e) (u.modThr site th (fun x =>
       { x.setLoops w.loops with pc := w.pc, long := none, after := none, prog := 0 }))).stepDone site th).settle
     let stops (u t : State) (p : Word) : Prop := (t.thr site th).long = none ∧ (t.thr site th).after = (u.thr site th).after ∧
       (t.thr site th).prog = p ∧ (t.thr site th).pc = (u.thr site th).pc ∧ t.mem = u.mem ∧ (t.core site).tiles = (u.core site).tiles ∧
       (t.core site).acc = (u.core site).acc ∧
       ((u.thr site th).stepping = true → (t.thr site th).stepping = false ∧ (t.thr site th).dbgStop = true)
     (s.stepStop site th o = none →
       (o.mma = true → exec (.tileOpComplete site ⟨th, what, met⟩) s = .next (onward (s.runGroups site th o (fun _ => true))) ∧
         (quiet → Yields (exec (.tileOpComplete site ⟨th, what, met⟩) s) (fun t => ended t ∧ MemSame s t ∧
           (t.core site).tiles = (s.core site).tiles ∧
           (t.core site).acc = ((s.runGroups site th o (fun _ => true)).core site).acc))) ∧
       (∀ u : State, o.mma = false → s.runRows site th (s.rowsOf site o) what met 33 = .reached u → (u.thr site th).after = some w →
         exec (.tileOpComplete site ⟨th, what, met⟩) s = .next (onward u) ∧
         (quiet → Yields (exec (.tileOpComplete site ⟨th, what, met⟩) s) (fun t => ended t ∧ t.mem = u.mem ∧
           (t.core site).tiles = (u.core site).tiles))) ∧
       (∀ u : State, o.mma = false → s.runRows site th (s.rowsOf site o) what met 33 = .halted u →
         exec (.tileOpComplete site ⟨th, what, met⟩) s = .next u.settle)) ∧
     (∀ (u : State) (r : Nat), o.mma = false → s.mustStop site th = true → (∀ k : Nat, s.stepStop site th o = some k → k = r) →
       r % 4 = 0 → o.row < r → s.runRows site th (min r (s.rowsOf site o)) what met 33 = .reached u →
       (r < s.rowsOf site o → Yields (exec (.tileOpStop site ⟨th, what, met⟩ r) s) (fun t => stops u t (progWord o.code false 0 0 r))) ∧
       (s.rowsOf site o ≤ r → (u.thr site th).after = some w → exec (.tileOpStop site ⟨th, what, met⟩ r) s = .next (onward u))) ∧
     (∀ q k : Nat, o.mma = true → s.mustStop site th = true → (∀ j : Nat, s.stepStop site th o = some j → j = 256 * q + k) →
       let groups := s.groupsOf site o
       let u := s.runGroups site th o (entered q k)
       k % 4 = 0 → k ≤ ((s.core site).tile o.d).elems → k < 256 → (o.quad < q ∨ (q = o.quad ∧ o.k < k)) → q ∈ groups.map Prod.fst →
       (groups.all (entered q k) = true → exec (.tileOpStop site ⟨th, what, met⟩ (256 * q + k)) s = .next (onward u)) ∧
       (∀ (done rest : List (Nat × Nat × Nat)) (p g len : Nat), groups = done ++ (p, g, len) :: rest → done.all (entered q k) = true →
         entered q k (p, g, len) = false →
         Yields (exec (.tileOpStop site ⟨th, what, met⟩ (256 * q + k)) s) (fun t => stops u t (progWord o.code false p g 0))))) ∧
  (∀ (s : State) (site : Nat) (th : Fin 4) (o : TileOp) (stop n met : Nat) (what : Arrival),
     (s.thr site th).long = some o → o.code = 0x5 ∨ o.code = 0x7 →
     let k := (s.core site).tile o.s
     let c := (s.core site).accum o.s
     let d := (s.core site).tile o.d
     let vs := if o.code = 0x5 then (List.range k.elems).map (fun j => k.val o.row j)
       else (List.range d.elems).map (fun j => if j < c.ncols then c.val (c.at_ o.row j) else .fin false 0 0)
     let u := s.cvtRow site th o o.row vs
     (stop ≤ o.row → s.runRows site th stop what met (n + 1) = .reached s) ∧
     (o.row < stop → s.runRows site th stop what met (n + 1) =
       (u.modLong site th (fun o => { o with row := o.row + 1 })).runRows site th stop .ok 0 n) ∧
     MemSame s u ∧ (u.core site).acc = (s.core site).acc ∧
     (let z := (s.thr site th).drawRow (decide (Rnd.ofCode o.rnd = .stoch)) vs.length
      let es := convertRow d (Rnd.ofCode o.rnd) o.ovf vs z.2
      u.thr site th = z.1.addCounts (countAll (es.1.map Prod.snd)) ∧
      (o.d < 8 → d.scl = false → (u.core site).tile o.d = (d.own (s.thr site th).ctx).setRow o.row (packElems (fmtWidth d.fmt) (es.1.map Prod.fst)) false))) ∧
  (∀ (s : State) (i : Iss) (d a : BitVec 3) (r quad kpos : Nat) (flt : Bool) (code : Nat),
     let p := Iss.pre i
     let x := s.thr i.site i.th
     let k := s.core i.site
     let base := (x.sreg (extReg p.ah a)).toNat
     let stride := if p.hasReg then (x.sreg (Fin.ofNat 16 p.b)).toNat else (k.tile d.toNat).rb
     let tD := k.tile d.toNat
     let tS := k.tile a.toNat
     let fresh := s.on i (fun y => { y with prog := 0 })
     let resumes (c : Instr) (o : TileOp) : Prop :=
       ((∀ w : Onward, x.after = some w → w.start ≠ x.pc) → Starts s (exec c s) i id o) ∧
       (∀ w : Onward, x.after = some w → w.start = x.pc →
         exec c s = .next (((s.opens i).on i (fun y => { y with long := some o })).on i (fun y => { y with after := some w })).settle)
     r < 32 → quad < 4 → kpos < 128 → 0 < code → code < 8 → x.prog = progWord code flt quad kpos r → i.site < Config.sites → s.safe i.site = false →
     (Lone fresh i Accepts.none [] → Faults s (exec (.nop i 0 0) s) i .S ⟨0x10, 0, 0, false, none⟩) ∧
     (Lone fresh i acceptsTile (moveRegs i a) → p.named false true = true → s.tileOk i.site i.th d.toNat = true → base % 4 = 0 →
       stride % 4 = 0 →
       (code = 2 → k.tileBusy ⟨[], [d.toNat]⟩ false = false →
         resumes (.tld i d a) ⟨0x2, d.toNat, 0, base, stride, 0, x.ieee, r, 0, 0, none, none, x.bk, x.slice, x.spill⟩) ∧
       (code = 3 → k.tileBusy ⟨[d.toNat], []⟩ false = false →
         resumes (.tst i d a) ⟨0x3, d.toNat, 0, base, stride, 0, x.ieee, r, 0, 0, none, none, x.bk, x.slice, x.spill⟩) ∧
       (code ≠ 2 → Faults s (exec (.tld i d a) s) i .M ⟨0x10, 0, 0, false, none⟩)) ∧
     (Lone fresh i Accepts.none [] → s.tileOk i.site i.th d.toNat = true → s.tileOk i.site i.th a.toNat = true →
       tD.anyPoison 0 = false → tS.anyPoison 0 = false →
       (code = 4 → s.accOk i.site i.th 0 = true → mmaOk tD tS (k.accum 0) = true →
         k.tileBusy ⟨bothSides d.toNat ++ bothSides a.toNat, [16]⟩ true = false →
         resumes (.tmmaAcc0 i d a) ⟨0x4, d.toNat, a.toNat, 0, 0, 0, x.ieee, 0, kpos, quad, none, none, x.bk, x.slice, x.spill⟩) ∧
       (code = 6 → s.accOk i.site i.th 1 = true → mmaOk tD tS (k.accum 1) = true →
         k.tileBusy ⟨bothSides d.toNat ++ bothSides a.toNat, [17]⟩ true = false →
         resumes (.tmmaAcc1 i d a) ⟨0x6, d.toNat, a.toNat, 0, 0, 0, x.ieee, 0, kpos, quad, none, none, x.bk, x.slice, x.spill⟩)) ∧
     (Lone fresh i acceptsFmt [] → p.fmtIs tD.fmt = true → s.tileOk i.site i.th d.toNat = true → cvtTyped tD.fmt = true →
       (code = 5 → s.tileOk i.site i.th a.toNat = true → tD.nrows = tS.nrows → tD.elems = tS.elems → cvtTyped tS.fmt = true →
         tS.anyPoison r = false → k.tileBusy ⟨bothSides a.toNat, bothSides d.toNat⟩ false = false →
         resumes (.tcvt i d a) ⟨0x5, d.toNat, a.toNat, 0, 0, x.cvtRnd p, x.ieee, r, 0, 0, none, none, x.bk, x.slice, x.spill⟩) ∧
       (code = 7 → a.toNat < 2 → s.accOk i.site i.th a.toNat = true → tD.nrows = (k.accum a.toNat).mrows →
         (k.accum a.toNat).ncols ≤ tD.elems → (k.accum a.toNat).dirty = false →
         k.tileBusy ⟨[16 + a.toNat], bothSides d.toNat⟩ false = false →
         resumes (.tcvta i d a) ⟨0x7, d.toNat, a.toNat, 0, 0, x.cvtRnd p, x.ieee, r, 0, 0, none, none, x.bk, x.slice, x.spill⟩)))

/-- R171, R202: one group of an integer TMMA entered: every element of its rows and columns grows by its product sum, saturating at the
ends of the 32-bit range, and no other element changes. -/
def Obligations.IntegerGroupsEnter : Prop :=
  ∀ (c : Acc32) (a b : Tile) (ieee : Bool) (ms ns : List Nat) (g len m n : Nat),
    c.int = true → ms.Nodup → ns.Nodup → (∀ k ∈ ns, k < 32) → n < 32 →
    ((c.group a b ieee ms ns g len).1.at_ m n =
      if m ∈ ms ∧ n ∈ ns then BitVec.ofNat 32 (enterInt (c.at_ m n) (groupSum a b m n g len)).1 else c.at_ m n) ∧
    (∀ (old : Word) (t : Int), let p : Val := .fin (decide (t < 0)) t.natAbs 0
      (enterInt old p).1 = wrap 32 (max (-2147483648) (min 2147483647 (old.toInt + t))))

/-- R288, R289: CSIG sends a signal: to the issuing core with the counter its thread's map gives, to another core of this node with REM
needed, and to another node by that node's number; a handle without a valid entry faults with cause 0x11. R292, R294, R295: on a counter
that the thread's map gives: a CWAIT takes one of a non-zero count and answers 0, else it waits, or with a bound of 0 answers 1; a CTAKE
takes one and answers what is left, or faults with cause 0x12; a CARM arms the handle, its wake bit set at once where the count is not 0,
and the disarm clears the arm. Details that the spec leaves open are the model's choices: log 30. -/
def Obligations.CuesAreSentAndTaken : Prop :=
  (∀ (s : State) (i : Iss) (a b : BitVec 3),
     let p := Iss.pre i
     let x := s.thr i.site i.th
     let A := extReg p.ah a
     let w := (x.sreg A).toNat
     let g := tgtOf w
     let h := p.imm
     let sent (m : Signal) (t : State) : Prop := t.signals = s.signals ++ [m] ∧ MemSame s t ∧
       (t.thr i.site i.th).pc = x.onward i ∧ (t.thr i.site i.th).s = x.s ∧ (t.thr i.site i.th).obs = x.obs
     Lone s i acceptsSync [A.val] → p.sync false = true → h < 64 → g.clean = true →
     (g.isLocal = true ∨ (s.tgtHere g = true ∧ g.site = i.site) →
       (∀ (c : Nat) (rem : Bool), s.cueMap i.site x.ctx h = some (c, rem) →
         Yields (exec (.csig i a b) s) (sent ⟨i.site, some c, h, x.ctx, false, b.toNat + 1, x.obs, 0⟩)) ∧
       (s.cueMap i.site x.ctx h = none → Faults s (exec (.csig i a b) s) i .T ⟨0x11, h, 0, false, none⟩)) ∧
     (g.isLocal = false → s.tgtHere g = true → g.site ≠ i.site → s.good g.site = true →
       Yields (exec (.csig i a b) s) (sent ⟨g.site, none, h, x.ctx, true, b.toNat + 1, x.obs, 0⟩)) ∧
     (g.isLocal = false → s.tgtHere g = true → g.site ≠ i.site → s.good g.site = false →
       Faults s (exec (.csig i a b) s) i .T ⟨0x0A, w, 0, false, none⟩) ∧
     (s.tgtHere g = false →
       Yields (exec (.csig i a b) s) (sent ⟨g.site, none, h, x.ctx, true, b.toNat + 1, x.obs, g.node⟩))) ∧
  (∀ (s : State) (i : Iss) (a : BitVec 3) (c : Nat) (rem : Bool),
     let p := Iss.pre i
     let x := s.thr i.site i.th
     let A := extReg p.ah a
     let B := Fin.ofNat 16 p.b
     let h := p.imm
     let n := s.cueCount i.site c
     Lone s i acceptsSync [A.val, B.val] → p.sync true = true →
     (h < 64 → s.cueMap i.site x.ctx h = some (c, rem) →
       (n ≠ 0 → Runs (s.cueTake i.site i.th c) (exec (.cwait i a 0) s) i none [] (fun u => u.on i (Thread.putS A 0))) ∧
       (n = 0 → p.hasReg = true → x.sreg B = 0 → bitOf x.syncCtl.toNat 0 = false →
         Runs s (exec (.cwait i a 0) s) i none [] (fun u => u.on i (Thread.putS A 1))) ∧
       (n = 0 → p.hasReg = true → x.sreg B = 0 → bitOf x.syncCtl.toNat 0 = true →
         Faults s (exec (.cwait i a 0) s) i .T ⟨0x13, 0, 0, false, none⟩) ∧
       (n = 0 → (p.hasReg = true → x.sreg B ≠ 0) → Waits s (exec (.cwait i a 0) s) i (.cwait c)) ∧
       (n ≠ 0 → p.b = 0 → Runs s (exec (.ctake i a 0) s) i none [] (fun u =>
         (u.cueTake i.site i.th c).on i (Thread.putS A (BitVec.ofNat 32 (n - 1))))) ∧
       (n = 0 → p.b = 0 → Faults s (exec (.ctake i a 0) s) i .T ⟨0x12, h, 0, false, none⟩) ∧
       (p.b = 0 → p.ah = 0 → Retires s (exec (.carm i 0 0) s) i none (fun y =>
         let z :=
           { y with
             cueArm := BitVec.ofNat 32 (2 ^ 31 + h)
             armed := some c }
         if n = 0 then z else z.pendSet 0))) ∧
     (p.b = 0 → p.ah = 0 → 64 ≤ h → h < 128 → Retires s (exec (.carmDisarm i 0 0) s) i none (fun y =>
       { y with
         cueArm := BitVec.ofNat 32 (setBits y.cueArm.toNat 31 1 0)
         armed := none })))

/-- R299, R300: QSEND adds the words of its piece to the thread's staging; its COMMIT offers staging and piece to the queue: a queue
closed or off answers 1, one that does not admit it 3, each emptying the staging; a queue that claims it, or is full, holds the thread.
R300, R305, R306: how a commit fares at its queue: 1 where the queue is closed or off, and counted, 3 where it does not admit the context
or the length, else claimed at the ring's tail with the next sequence number, or refused as full; a contribution is taken at once while no
sum waits. R303 to R305: QRECV takes the committed message at the head of an enabled queue, which is held until it is released, answers
that a closed queue without one, or a disabled queue, is over, and waits on an open one; a release frees the ring, before the wait where
it comes with a receive, and QCLOSE, which ends its reader's wait, and QOPEN close and open the queue. Details that the spec leaves open
are the model's choices: log 30, 32, 44. -/
def Obligations.MessagesPass : Prop :=
  (∀ (s : State) (i : Iss) (a : BitVec 3) (d : Nat) (u : State),
     let p := Iss.pre i
     let x := s.thr i.site i.th
     let A := extReg p.ah a
     let B := Fin.ofNat 16 p.b
     let ws := x.piece A p.imm
     let w := (x.sreg B).toNat
     let q := bitsOf w 24 3
     let m : QMsg := ⟨1, x.staging ++ ws, i.site, i.th.val, x.ctx, 0, 0, 0, x.obs⟩
     p.imm < 8 → x.staging.length + ws.length ≤ 32 →
     (Lone s i acceptsSync [16 + A.val] → p.sync false = true →
       Retires s (exec (.qsend i a 0) s) i none (fun y => { y with staging := y.staging ++ ws })) ∧
     (Lone s i acceptsSync [16 + A.val, B.val] → p.sync true = true → p.hasReg = true → dstClean w = true →
       s.dstSite i.site w = some d → (bitOf w 31 = true ∨ s.good d = true) → s.qClaimedBy d q i.site i.th = false →
       (bitOf x.syncCtl.toNat 1 = true → (s.cflag d (QQ_CFG_EN q) = false ∨ s.cflag d (QQ_CFG_CLOSED q) = true) →
         Faults s (exec (.qsendCommit i a 4) s) i .T ⟨0x14, w, 0, false, none⟩) ∧
       (bitOf x.syncCtl.toNat 1 = false ∨ (s.cflag d (QQ_CFG_EN q) = true ∧ s.cflag d (QQ_CFG_CLOSED q) = false) →
       (∀ n : Nat, s.qTry d q m = (u, .status n) →
         Runs (u.on i (fun y => { y with staging := [] })) (exec (.qsendCommit i a 4) s) i none []
           (fun v => v.on i (Thread.putS B (BitVec.ofNat 32 n)))) ∧
       (s.qTry d q m = (u, .claimed) → Yields (exec (.qsendCommit i a 4) s) (fun t =>
         (∃ v : Wait, (t.thr i.site i.th).wait = some v ∧ v.kind = .qsend d q) ∧ (t.thr i.site i.th).staging = (u.thr i.site i.th).staging ∧
         (t.core d).qWriting = (u.core d).qWriting)) ∧
       (s.qTry d q m = (u, .full) → Yields (exec (.qsendCommit i a 4) s) (fun t =>
         ∃ v : Wait, (t.thr i.site i.th).wait = some v ∧ v.kind = .qsend d q))))) ∧
  (∀ (s : State) (site : Nat) (q : Fin 8) (m : QMsg),
     let live := s.cflag site (QQ_CFG_EN q.val) = true ∧ s.cflag site (QQ_CFG_CLOSED q.val) = false
     let k := s.cfld site (QQ_CFG_REGION q.val)
     let comb := s.cflag site (QQ_CFG_COMB q.val) = true
     (¬ live → (s.qTry site q.val m).2 = .status 1 ∧ (s.qTry site q.val m).1 = s.qDiscard site q.val 1) ∧
     (live → s.cflag site (QQ_CFG_ANY q.val) = false → m.ctx ≠ s.cfld site (QQ_CFG_CTX q.val) →
       s.qTry site q.val m = (s, .status 3)) ∧
     (live → (s.cflag site (QQ_CFG_ANY q.val) = true ∨ m.ctx = s.cfld site (QQ_CFG_CTX q.val)) →
       s.crSize site k < qUnits m.words.length ∨ (comb ∧ m.words.length ≠ s.cfld site CQ_CFG_LEN) →
       s.qTry site q.val m = (s, .status 3)) ∧
     (live → (s.cflag site (QQ_CFG_ANY q.val) = true ∨ m.ctx = s.cfld site (QQ_CFG_CTX q.val)) →
       qUnits m.words.length ≤ s.crSize site k → comb → m.words.length = s.cfld site CQ_CFG_LEN →
       ((s.core site).combSum.isSome = true → s.qTry site q.val m = (s, .full)) ∧
       ((s.core site).combSum = none → (s.qTry site q.val m).2 = .status 0)) ∧
     (live → (s.cflag site (QQ_CFG_ANY q.val) = true ∨ m.ctx = s.cfld site (QQ_CFG_CTX q.val)) →
       qUnits m.words.length ≤ s.crSize site k → ¬ comb →
       ((((s.ring site k).claim (s.crSize site k) (qUnits m.words.length)).2 = none → (s.qTry site q.val m).2 = .full)) ∧
       (∀ start : Nat, ((s.ring site k).claim (s.crSize site k) (qUnits m.words.length)).2 = some start →
         (s.qTry site q.val m).2 = .claimed ∧
         ((s.qTry site q.val m).1.core site).qWriting[q] = (s.core site).qWriting[q] ++
           [{ m with start := start, units := qUnits m.words.length, seq := s.cfld site (QQ_CNT_SEQ q.val) }]))) ∧
  (∀ (s : State) (i : Iss) (a b : BitVec 3),
     let p := Iss.pre i
     let x := s.thr i.site i.th
     let A := extReg p.ah a
     let B := Fin.ofNat 16 p.b
     let q := b.toNat
     let qv : Fin 8 := Fin.ofNat 8 q
     let on := s.cflag i.site (QQ_CFG_EN q) = true
     let closed := s.cflag i.site (QQ_CFG_CLOSED q) = true
     let late := p.hasReg = true → x.sreg B ≠ 0
     (Lone s i acceptsSync [A.val, B.val] → p.sync true = true → s.readerOk i.site i.th q = true →
       (p.imm = 0 → s.qHolds i.site q = false →
         (∀ m : QMsg, on → s.qHead i.site q = some m → s.qResult i.site q m < 2 ^ 30 →
           Runs (s.qReceive i.site q i.th) (exec (.qrecv i a b) s) i none []
             (fun u => u.on i (Thread.putS A (BitVec.ofNat 32 (s.qResult i.site q m))))) ∧
         (¬ on ∨ (s.qHead i.site q = none ∧ closed) →
           Runs s (exec (.qrecv i a b) s) i none [] (fun u => u.on i (Thread.putS A 0x80000000))) ∧
         (s.qHead i.site q = none → on → ¬ closed → late → Waits s (exec (.qrecv i a b) s) i (.qrecv q))) ∧
       (p.imm = 1 → s.qHolds i.site q = true →
         Runs s (exec (.qrecvRelease i a b) s) i none [] (fun u => u.qRelease i.site q)) ∧
       (p.imm = 2 → s.qHolds i.site q = true →
         (¬ on → Yields (exec (.qrecvReleaseReceive i a b) s) (fun t => (t.core i.site).qHeld[qv] = none ∧
           (t.thr i.site i.th).s = x.s.set A 0x80000000 ∧ (t.thr i.site i.th).pc = x.onward i)) ∧
         (s.qHead i.site q = none → on → ¬ closed → late → Waits s (exec (.qrecvReleaseReceive i a b) s) i (.qrecv q) ∧
           Yields (exec (.qrecvReleaseReceive i a b) s) (fun t =>
             t.ring i.site (s.cfld i.site (QQ_CFG_REGION q)) = (s.qFreeUnits i.site q).ring i.site (s.cfld i.site (QQ_CFG_REGION q)))) ∧
         (∀ m : QMsg, on → s.qHead i.site q = some m → s.qResult i.site q m < 2 ^ 30 →
           Runs ((s.qRelease i.site q).qReceive i.site q i.th) (exec (.qrecvReleaseReceive i a b) s) i none []
             (fun u => u.on i (Thread.putS A (BitVec.ofNat 32 (s.qResult i.site q m))))))) ∧
     (Lone s i acceptsSync [] → p.sync false = true → p.ah = 0 → (i.th = 0 ∨ s.readerOk i.site i.th q = true) →
       (p.imm = 0 → exec (.qclose i 0 b) s =
         .next (((((s.opens i).qClose i.site q).closes i x none []).tellReader i.site q).settle)) ∧
       (p.imm = 1 → Runs s (exec (.qopen i 0 b) s) i none [] (fun u => u.qOpen i.site q))) ∧
     (∀ (t : State) (m : QMsg), t = s.qReceive i.site q i.th → s.qHead i.site q = some m →
       (t.core i.site).qHeld[qv] = some m ∧ (t.core i.site).qReady[qv] = (s.core i.site).qReady[qv].tail) ∧
     ((s.qRelease i.site q).core i.site).qHeld[qv] = none)

/-- R310, R313 to R315: DMAGO queues the command of a descriptor that passes its checks on a channel and answers its ticket, and is not
ready while the channel holds four, whatever its descriptor; DMAWAIT answers 0 where the ticket is done, or, with DRAIN, every command of
the thread complete, 2 where the channel is halted, and waits otherwise. R234 to R236: MFILL and MCOPY queue a memory-side operation over
the core's scratchpad; the engine writes its rows one after another, of the pattern or of the source as it stood when the operation
started, and the last of them ends it and signals its cue. Details that the spec leaves open are the model's choices: log 31. -/
def Obligations.TransfersAreIssued : Prop :=
  (∀ (s : State) (i : Iss) (a b : BitVec 3),
     let p := Iss.pre i
     let x := s.thr i.site i.th
     let A := extReg p.ah a
     let B := Fin.ofNat 16 p.b
     let ea := (x.sreg A).toNat
     let c : Fin 2 := Fin.ofNat 2 b.toNat
     let k := (s.core i.site).chans[c]
     let desc : BitVec 512 := BitVec.ofNat 512 (leNat (s.padBytes i.site ea 64))
     let n := ea % 65536
     let put (w : Word) (u : State) : State := u.on i (Thread.putS A w)
     (Lone s i acceptsSync [A.val] → p.sync false = true → p.imm = 0 → b.toNat < 2 → ea % 64 = 0 →
       s.checkOwn i.site i.th ea ea 64 needR ⟨.n, i.met⟩ = .ok (.own ea) →
       s.memBusy i.site i.th (padBase i.site + ea) 64 (reachOf false true ea) = false →
       s.poisoned (padBase i.site + ea) 64 = false → s.checkDesc i.site i.th ea (descOf desc) = none → k.queue.length < 4 →
       s.dmaBusy i.site i.th (descOf desc) = false →
       Yields (exec (.dmago i a b) s) (fun t => MemSame s t ∧ t.nextCmd = s.nextCmd + 1 ∧
         (t.core i.site).chans[c] = { k with
           queue := k.queue ++ [⟨desc, k.next, i.th.val, x.ctx, s.actOf i.site, s.nextCmd, x.obs, 0, [], none, none, s.now⟩]
           next := (k.next + 1) % 65536 } ∧
         (t.thr i.site i.th).s = x.s.set A (BitVec.ofNat 32 k.next) ∧ (t.thr i.site i.th).pc = x.onward i)) ∧
     (Lone s i acceptsSync [A.val] → p.sync false = true → p.imm = 0 → b.toNat < 2 → ea % 64 = 0 →
       s.checkOwn i.site i.th ea ea 64 needR ⟨.n, i.met⟩ = .ok (.own ea) → 4 ≤ k.queue.length → exec (.dmago i a b) s = .next s.settle) ∧
     (Lone s i acceptsSync [A.val, B.val] → p.sync true = true → p.imm = 0 →
       (b.toNat < 2 →
         (s.ticketDone i.site b.toNat n = true → Runs s (exec (.dmawait i a b) s) i none [] (put 0)) ∧
         (s.ticketDone i.site b.toNat n = false → k.haltedOn n = true → Runs s (exec (.dmawait i a b) s) i none [] (put 2)) ∧
         (s.ticketDone i.site b.toNat n = false → k.haltedOn n = false → (p.hasReg = true → x.sreg B ≠ 0) →
           Waits s (exec (.dmawait i a b) s) i (.dma b.toNat n))) ∧
       (b.toNat = 2 ∨ b.toNat = 3 →
         (s.drained i.site i.th = true → Runs s (exec (.dmawaitDrain i a b) s) i none [] (put 0)) ∧
         (s.drained i.site i.th = false →
           ((s.core i.site).chans[0].haltedFor i.th || (s.core i.site).chans[1].haltedFor i.th) = true →
           Runs s (exec (.dmawaitDrain i a b) s) i none [] (put 2)) ∧
         (s.drained i.site i.th = false →
           ((s.core i.site).chans[0].haltedFor i.th || (s.core i.site).chans[1].haltedFor i.th) = false →
           (p.hasReg = true → x.sreg B ≠ 0) → Waits s (exec (.dmawaitDrain i a b) s) i .drain)))) ∧
  ((∀ (s : State) (i : Iss) (a b : BitVec 3) (fill : Bool) (c : Instr) (dst src len : Nat) (pat : Word) (cue : Option Nat),
     let p := Iss.pre i
     let x := s.thr i.site i.th
     let u := x.sreg (extReg p.ah a)
     let v := x.sreg (extReg p.dh b)
     let w := x.sreg (Fin.ofNat 16 p.b)
     (fill, c, dst, src, len, pat) ∈ [(true, Instr.mfill i a b, u.toNat, 0, v.toNat, w),
       (false, Instr.mcopy i a b, u.toNat, w.toNat, v.toNat, 0)] →
     Lone s i acceptsSync ((memRegs i a b).map Fin.val) →
     s.memPlan i p fill dst src len pat = .ok [.mem fill dst src len pat cue] →
     (len ≠ 0 → Yields (exec c s) (fun t => MemSame s t ∧ t.nextCmd = s.nextCmd + 1 ∧ (t.thr i.site i.th).pc = x.onward i ∧
       (t.thr i.site i.th).s = x.s ∧
       (t.core i.site).memOps = (s.core i.site).memOps ++ [⟨s.nextCmd, fill, dst, src, len, pat, cue, x.ctx, i.th.val, x.obs, none, 0⟩])) ∧
     (len = 0 → Yields (exec c s) (fun t => MemSame s t ∧ (t.thr i.site i.th).pc = x.onward i ∧
       (t.core i.site).memOps = (s.core i.site).memOps ∧
       (cue = none → t.signals = s.signals) ∧
       (∀ h : Nat, cue = some h → t.signals = s.signals ++
         [⟨i.site, (s.cueMap i.site x.ctx h).map Prod.fst, h, x.ctx, false, 1, x.obs, 0⟩])))) ∧
   (∀ (s : State) (site rows : Nat) (o : MemOp) (rest : List MemOp) (l : List (List Byte × Bool)), (s.core site).memOps = o :: rest →
     l = o.left.getD (s.memRows site o) → (∀ r ∈ l, r.1.length = 64) →
     let place := padBase site + o.dst + 64 * o.done
     let n := (l.take rows).length
     Yields (exec (.memoryOpComplete ⟨site, rows⟩) s) (fun t =>
       t.bytes place (64 * n) = (l.take rows).flatMap Prod.fst ∧ MemBut s t place (64 * n) ∧
       (∀ k : Nat, k < n → place % 64 = 0 → t.poisoned (place + 64 * k) 64 = (l.getD k ([], false)).2) ∧
       (rows < l.length → (t.core site).memOps = { o with left := some (l.drop rows), done := o.done + rows } :: rest ∧
         t.signals = s.signals) ∧
       (l.length ≤ rows → (t.core site).memOps = rest ∧
         t.signals = s.signals ++ o.cue.toList.map (fun h => ⟨site, none, h, o.ctx, false, 1, setAdd o.obs o.cmd, 0⟩)))) ∧
   (∀ (s : State) (site : Nat) (o : MemOp),
     (o.fill = true → s.memRows site o = List.replicate (o.len / 64) ((List.replicate 16 (leBytes 4 o.pat.toNat)).flatten, false)) ∧
     (o.fill = false → (s.memRows site o).flatMap Prod.fst = s.padBytes site o.src (o.len / 64 * 64))))

/-- R95, R96, R150: NOP does nothing; SLEEP, which needs an enabled wake source, goes on where one, or a debug request, is pending and
sleeps otherwise. R80, R151, R152: a step-end of a slot of the running batch marks it ended, with its payload length and whether it asks a
continuation; outside the batch's context it faults; a batch-end with no write-back left in flight ends the batch and empties the stage
registers. Details that the spec leaves open are the model's choices: log 30. -/
def Obligations.BatchesSleepAndEnd : Prop :=
  (∀ (s : State) (i : Iss),
     let x := s.thr i.site i.th
     Lone s i Accepts.none [] →
     Runs s (exec (.nop i 0 0) s) i none [] id ∧
     (x.maskBits = 0 → Faults s (exec (.sleep i 0 0) s) i .S illegalExec) ∧
     (x.maskBits ≠ 0 → x.pendBits &&& (x.maskBits ||| 2 ^ 4) ≠ 0 → Yields (exec (.sleep i 0 0) s) (fun t =>
       (t.thr i.site i.th).wait = none ∧ (t.thr i.site i.th).pc = x.onward i ∧ (t.thr i.site i.th).s = x.s ∧ MemSame s t)) ∧
     (x.maskBits ≠ 0 → x.pendBits &&& (x.maskBits ||| 2 ^ 4) = 0 → Yields (exec (.sleep i 0 0) s) (fun t =>
       (∃ w : Wait, (t.thr i.site i.th).wait = some w ∧ w.kind = .sleep ∧ w.frame = s.frame) ∧
       (t.thr i.site i.th).pc = x.onward i ∧ (t.thr i.site i.th).s = x.s ∧ MemSame s t))) ∧
  (∀ (s : State) (i : Iss) (a b : BitVec 3) (cont : Bool) (c : Instr) (bat : Running) (r : SlotRec),
     let p := Iss.pre i
     let x := s.thr i.site i.th
     let A := extReg p.ah a
     let D := extReg p.dh b
     let n := (x.sreg A).toNat
     let len := (x.sreg D).toNat
     (cont, c) ∈ [(false, Instr.stepend i a b), (true, Instr.stependc i a b)] →
     (Lone s i acceptsReg [A.val, D.val] → p.sys true = true →
       (s.inBatch i = false → Faults s (exec c s) i .S illegalExec) ∧
       ((s.core i.site).batch = some bat → bat.ctx = x.ctx → bat.replay = false → bat.slots[n]? = some r → r.ended = false → len ≤ 64 →
         Yields (exec c s) (fun t => MemSame s t ∧ (t.thr i.site i.th).pc = x.onward i ∧ (t.thr i.site i.th).s = x.s ∧
           (∃ e : Running, (t.core i.site).batch = some e ∧ e.slots.length = bat.slots.length ∧
             e.slots[n]? = some { r with ended := true, payload := len, cont := cont } ∧
             ∀ k : Nat, k ≠ n → e.slots[k]? = bat.slots[k]?)))) ∧
     (Lone s i Accepts.none [] →
       (s.inBatch i = false → Faults s (exec (.batchend i 0 0) s) i .S illegalExec) ∧
       (s.inBatch i = true → (s.cleanAll i.site i.th).cleaning i.site = false →
         Yields (exec (.batchend i 0 0) s) (fun t => (t.core i.site).batch = none ∧ (t.core i.site).stgCount = 0 ∧
           (t.thr i.site i.th).pc = x.onward i ∧ (t.thr i.site i.th).s = x.s)) ∧
       (s.inBatch i = true → (s.cleanAll i.site i.th).cleaning i.site = true →
         Waits s (exec (.batchend i 0 0) s) i .batchEnd)))

/-- R326, R328, R330, R331: TRAP and, outside rehearsal and replay, BRK, from L0: sv1 takes the PC of the next bundle, the cause with the
trap's code and a status that says nothing of a retry, the thread is at L1, thread 0 at its vector and any other halted and delivered to
thread 0; no register of the thread and no memory changes. R342, R343: BRK has no effect in a replay and stops its thread under debug in a
rehearsal context, with WHY 3. R125, R332: ERET of thread 0 at L1 returns it to sv1's PC, level and progress word, and to where a stopped
operation goes on; ERET for a thread delivered to thread 0 returns that thread and lets it run; at L2 a thread returns itself from sv2;
elsewhere ERET faults. Details that the spec leaves open are the model's choices: log 42. -/
def Obligations.TrapsAreTaken : Prop :=
  (∀ (s : State) (i : Iss) (a b : BitVec 3) (c : Instr) (cause : Nat),
     let x := s.thr i.site i.th
     (c, cause) ∈ [(Instr.trap i a b, 0x18 + (a.toNat * 8 + b.toNat) * 2 ^ 16), (Instr.brk i 0 0, 0x19)] →
     Lone s i Accepts.none [] → x.level = .l0 → s.rehearsal x.ctx = false → s.replaying i.site i.th = false →
     Yields (exec c s) (fun t =>
       let y := t.thr i.site i.th
       y.level = .l1 ∧ y.sv1 = ⟨x.onward i, 0, BitVec.ofNat 32 cause, 0, x.prog, x.sv1.scr, none⟩ ∧
       y.s = x.s ∧ y.v = x.v ∧ y.p = x.p ∧ y.bk = x.bk ∧ y.sv2 = x.sv2 ∧ MemSame s t ∧
       (i.th = 0 → y.pc = BitVec.ofNat 16 (bitsOf (s.core i.site).trapCtl.toNat 16 16)) ∧
       (i.th ≠ 0 → y.pc = x.onward i ∧ t.halted i.site i.th = true ∧
         bitOf (t.core i.site).trapPend.toNat i.th.val = true))) ∧
  (∀ (s : State) (i : Iss),
     let x := s.thr i.site i.th
     Lone s i Accepts.none [] →
     (s.replaying i.site i.th = true → Runs s (exec (.brk i 0 0) s) i none [] id) ∧
     (s.replaying i.site i.th = false → s.rehearsal x.ctx = true → Yields (exec (.brk i 0 0) s) (fun t =>
       (t.thr i.site i.th).dbgStop = true ∧ (t.thr i.site i.th).pc = x.onward i ∧ (t.thr i.site i.th).s = x.s ∧
       bitsOf (t.cfld i.site CFG_CORE_DBG_WHY_WHY) (4 * i.th.val) 4 = 3))) ∧
  (∀ (s : State) (i : Iss) (b : BitVec 3),
     let x := s.thr i.site i.th
     Lone s i Accepts.none [] → b.toNat < 4 →
     (x.level = .l2 → b.toNat = i.th.val → Yields (exec (.eret i 0 b) s) (fun t =>
       let y := t.thr i.site i.th
       y.pc = x.sv2.pc ∧ y.prog = x.sv2.prog ∧ y.after = x.sv2.went ∧ y.level = levelOf (bitsOf x.sv2.st.toNat 4 2) ∧ y.s = x.s ∧ y.v = x.v ∧ MemSame s t)) ∧
     (x.level = .l1 → i.th = 0 → b = 0 → Yields (exec (.eret i 0 b) s) (fun t =>
       let y := t.thr i.site 0
       y.pc = x.sv1.pc ∧ y.prog = x.sv1.prog ∧ y.after = x.sv1.went ∧ y.level = levelOf (bitsOf x.sv1.st.toNat 4 2) ∧ y.s = x.s ∧ y.v = x.v ∧ MemSame s t)) ∧
     (∀ u : Fin 4, x.level ≠ .l2 → i.th = 0 → b.toNat = u.val → u ≠ 0 → bitOf (s.core i.site).trapPend.toNat u.val = true →
       Yields (exec (.eret i 0 b) s) (fun t =>
         let y := t.thr i.site u
         y.pc = (s.thr i.site u).sv1.pc ∧ y.prog = (s.thr i.site u).sv1.prog ∧ y.after = (s.thr i.site u).sv1.went ∧ y.level = .l0 ∧
         bitOf (t.core i.site).trapPend.toNat u.val = false ∧ t.halted i.site u = false ∧
         (t.thr i.site 0).pc = x.onward i ∧ (t.thr i.site 0).s = x.s)) ∧
     (x.level = .l0 → i.th = 0 → b = 0 → Faults s (exec (.eret i 0 b) s) i .S illegalExec) ∧
     (x.level ≠ .l2 → i.th ≠ 0 → Faults s (exec (.eret i 0 b) s) i .S illegalExec))

/-- R12, R153, R210: MFS and MFS.D read a state register, of the thread or the thread that thread 0 names, into one or two scalar
registers; MTS and MTS.D write one, unless its value or its register's state does not admit the write; in a context without expert access
an E register stays as it is, with a violation where the write would have changed it. R94 to R96, R98, R99, R105, R137 to R139, R153,
R177, R186, R210, R295, R299, R330: what each number of a state register reads, and, for the registers that a thread owns and that take
what is written, that a write gives the register the bits it has and no other register of the thread another value but those that are read
through it. R153: who may name a state register: every thread its own and its core's, thread 0 another thread's, and no other thread; a
number that names no register of the width is an illegal operand. R101, R102: MTB writes a bank register whose window meets an entry of
the thread's region table, valid, its low bits 0, and faults with cause 0x07 on any other; MFB reads one, bank 0 as 0. Details that the
spec leaves open are the model's choices: log 45. -/
def Obligations.StateRegistersMove : Prop :=
  (∀ (s : State) (i : Iss) (a b : BitVec 3) (n : Nat) (u : Fin 4),
     let p := Iss.pre i
     let x := s.thr i.site i.th
     let A := extReg p.ah a
     let number := p.immU b.toNat 3
     let zero := decide (i.th = 0)
     let l2 := decide (u = i.th) && x.level == .l2
     let v := s.stRead i.site u n
     let own := if u = i.th then [n] else []
     let self := decide (u = i.th)
     p.sys false = true →
     (∀ w : Nat,
       (s.expert (.thread i.site i.th) = true → s.mts i.site i.th u n w = s.stWrite i.site u n w zero l2 self) ∧
       (s.expert (.thread i.site i.th) = false → stExpert n = false → n ≠ 0x046 →
         s.mts i.site i.th u n w = s.stWrite i.site u n w zero l2 self) ∧
       (s.expert (.thread i.site i.th) = false → stExpert n = true →
         (s.stMoves (s.stWrite i.site u n w zero l2 self) i.site u n w = true → s.mts i.site i.th u n w = s.violation (dieOf i.site)) ∧
         (s.stMoves (s.stWrite i.site u n w zero l2 self) i.site u n w = false → s.mts i.site i.th u n w = s))) ∧
     (Lone s i acceptsNum [A.val] → stNumber i.th number 32 = .ok (n, u) →
       (n ≠ 0x025 → Retires s (exec (.mfs i a b) s) i none (Thread.putS A (BitVec.ofNat 32 v))) ∧
       (n = 0x025 → Runs s (exec (.mfs i a b) s) i none [] (fun t =>
         (t.on i (Thread.putS A (BitVec.ofNat 32 v))).modThr i.site u Thread.seedAdvance)) ∧
       (∀ f : Flt, s.stWriteFault i.site i.th n (x.sreg A).toNat = some f → Faults s (exec (.mts i a b) s) i .S f) ∧
       (s.stWriteFault i.site i.th n (x.sreg A).toNat = none → n ≠ 0x084 →
         Runs s (exec (.mts i a b) s) i none own (fun t => t.mts i.site i.th u n (x.sreg A).toNat)) ∧
       (s.stWriteFault i.site i.th n (x.sreg A).toNat = none → n = 0x084 →
         Runs s (exec (.mts i a b) s) i none own (fun t =>
           let w := t.mts i.site i.th u n (x.sreg A).toNat
           w.on i (fun y => { y with hold := (List.range (w.nextCmd - s.nextCmd)).map (fun k => s.nextCmd + k) })))) ∧
     (Lone s i acceptsNum [A.val, A.val + 1] → A.val % 2 = 0 → stNumber i.th number 64 = .ok (n, u) →
       Retires s (exec (.mfsD i a b) s) i none (fun y =>
         (y.putS A (BitVec.ofNat 32 v)).putS (A + 1) (BitVec.ofNat 32 (v / 2 ^ 32))) ∧
       Runs s (exec (.mtsD i a b) s) i none own (fun t =>
         t.mts i.site i.th u n ((x.sreg (A + 1)).toNat * 2 ^ 32 + (x.sreg A).toNat)))) ∧
  ((∀ (s : State) (site : Nat) (t : Fin 4),
     let c := s.core site
     let x := c.th[t]
     let v (n : Nat) : Nat := s.stRead site t n
     v 0x000 = s.cyc ∧ v 0x002 = c.bud ∧ v 0x004 = c.stgBase.toNat ∧ v 0x005 = c.stgCount.toNat ∧ v 0x010 = x.ctx ∧ v 0x011 = x.slice.toNat ∧
     v 0x012 = x.spill.toNat ∧ v 0x014 = x.cmp.toNat ∧ v 0x016 = x.wake.toNat ∧ v 0x017 = x.mwait.toNat ∧ v 0x020 = x.numSat.toNat ∧
     v 0x021 = x.numFlush.toNat ∧ v 0x022 = x.numNan.toNat ∧ v 0x023 = x.numCtl.toNat ∧ v 0x024 = x.numSidx.toNat ∧
     v 0x025 = (x.gen (x.numSidx.toNat % 64)).toNat ∧ v 0x030 = x.lc0.toNat ∧ v 0x031 = x.lc1.toNat ∧ v 0x032 = x.lp0beg.toNat ∧
     v 0x033 = x.lp0end.toNat ∧ v 0x034 = x.lp1beg.toNat ∧ v 0x035 = x.lp1end.toNat ∧ v 0x036 = x.lpctl.toNat ∧ v 0x038 = x.ssDepth ∧
     v 0x039 = x.ssIdx ∧ v 0x03A = s.ssEntry site t x.ssIdx ∧ v 0x040 = x.sv1.pc.toNat ∧ v 0x041 = x.sv1.st.toNat ∧ v 0x042 = x.sv1.cause.toNat ∧
     v 0x043 = x.sv1.addr.toNat ∧ v 0x044 = x.sv1.prog.toNat ∧ v 0x045 = x.sv1.scr.toNat ∧ v 0x046 = c.trapCtl.toNat ∧ v 0x047 = c.trapPend.toNat ∧
     v 0x048 = x.sv2.pc.toNat ∧ v 0x049 = x.sv2.st.toNat ∧ v 0x04A = x.sv2.cause.toNat ∧ v 0x04B = x.sv2.addr.toNat ∧ v 0x04C = x.sv2.prog.toNat ∧
     v 0x04D = x.sv2.scr.toNat ∧ v 0x083 = c.memOps.length ∧ v 0x0B0 = x.syncCtl.toNat ∧ v 0x0B1 = x.cueArm.toNat ∧ v 0x0B2 = x.staging.length ∧
     v 0x100 = x.prog.toNat ∧ v 0x101 = c.mxTol ∧ v 0x103 = c.mxBusy ∧
     (∀ k : Fin 8, v (0x108 + k.val) = (c.tiles[k]).cfg.toNat ∧ v (0x110 + k.val) = (c.tiles[k]).psn.toNat) ∧
     (∀ k : Fin 2, v (0x118 + k.val) = (c.acc[k]).cfg.toNat)) ∧
   (∀ (s : State) (site n w v : Nat) (t : Fin 4) (l2 own : Bool),
     (n, w) ∈ [(0x017, 0xFFFFFFFF), (0x020, 0xFFFFFFFF), (0x021, 0xFFFFFFFF), (0x022, 0xFFFFFFFF), (0x024, 0x7F), (0x030, 0xFFFFFFFF),
       (0x031, 0xFFFFFFFF), (0x032, 0xFFFF), (0x033, 0xFFFF), (0x034, 0xFFFF), (0x035, 0xFFFF), (0x036, 0x7), (0x040, 0xFFFF), (0x041, 0xFB0),
       (0x042, 0x3FFFFF), (0x043, 0xFFFFFFFF), (0x044, 0xFFFFE000), (0x045, 0xFFFFFFFF), (0x0B0, 0x3), (0x0B1, 0x8000003F), (0x100, 0xFFFFE000)] ∨
     ((n, w) ∈ [(0x011, 0x7F007F), (0x012, 0xFF)] ∧ (t = 0 ∨ s.halted site t = true)) →
     let u := s.stWrite site t n v true l2 own
     u.stRead site t n = v &&& w ∧
     (∀ m : Nat, m ≠ n → ¬ (n = 0x024 ∧ m = 0x025) → ¬ (n = 0x012 ∧ m = 0x03A) → u.stRead site t m = s.stRead site t m) ∧
     (∀ (k : Nat) (j : Fin 4), k ≠ site ∨ j ≠ t → u.thr k j = s.thr k j) ∧ MemSame s u)) ∧
  (∀ (t : Fin 4) (n w : Nat),
     (4096 ≤ n ∨ stWidth (n % 512) ≠ some w → stNumber t n w = .error illegalOperand) ∧
     (n < 4096 → stWidth (n % 512) = some w →
       (stCore32 (n % 512) = true ∨ n % 512 = 0 → stNumber t n w = .ok (n % 512, t)) ∧
       (stCore32 (n % 512) = false → n % 512 ≠ 0 →
         (n / 2048 % 2 = 0 → stNumber t n w = .ok (n % 512, t)) ∧
         (n / 2048 % 2 = 1 → (t = 0 ∨ n / 512 % 4 = t.val) → stNumber t n w = .ok (n % 512, Fin.ofNat 4 (n / 512 % 4))) ∧
         (n / 2048 % 2 = 1 → t ≠ 0 → n / 512 % 4 ≠ t.val → stNumber t n w = .error ⟨0x03, n, 0, false, none⟩)))) ∧
  (∀ (s : State) (i : Iss) (a b : BitVec 3),
     let p := Iss.pre i
     let x := s.thr i.site i.th
     let A := extReg p.ah a
     let B := Fin.ofNat 8 b.toNat
     let base := ((x.sreg (A + 1)).toNat * 2 ^ 32 + (x.sreg A).toNat) / 2 ^ 29
     let v := if b = 0 then 0 else (x.bk[B]).toNat
     Lone s i acceptsReg [A.val, A.val + 1] → p.sys false = true → A.val % 2 = 0 →
     (b ≠ 0 → s.bankOverlaps x.ctx base = false → Faults s (exec (.mtb i a b) s) i .S ⟨0x07, b.toNat, 0, false, none⟩) ∧
     (b ≠ 0 → s.bankOverlaps x.ctx base = true → Retires s (exec (.mtb i a b) s) i none (fun y =>
       { y with bk := y.bk.set B (BitVec.ofNat 64 (base * 2 ^ 29 + 1)) })) ∧
     Retires s (exec (.mfb i a b) s) i none (fun y =>
       (y.putS A (BitVec.ofNat 32 v)).putS (A + 1) (BitVec.ofNat 32 (v / 2 ^ 32))))

/-- R90, R115, R120, R122 to R124, R127, R331, R363, R367: an operation of a thread that may not issue, or of a bundle stuck at an
interlock, changes nothing (the model's choice: log 2), and a late error is taken before it; one without the stop bit joins its thread's
bundle; one that clashes with it, by its slot, its prefixes or a seventeenth syllable, or whose code program memory does not hold, faults
the bundle; a whole bundle in which two operations write one register, or of which one faults, or whose core state is beyond correction,
faults with nothing retired, and any other retires whole, its operations having read what stood before it. Details that the spec leaves
open are the model's choices: log 1, 47. -/
def Obligations.BundlesRetireWhole : Prop :=
  ∀ (s : State) (i : Iss) (c : Instr) (o : Op),
    let x := s.thr i.site i.th
    let b := x.bundle
    opOf c s = some o → o.iss = i →
    (s.ready i.site i.th = false → exec c s = .next s.settle) ∧
    (s.ready i.site i.th = true → ∀ cause ea : Nat, ∀ rest : List (Nat × Nat), x.late = (cause, ea) :: rest →
      exec c s = .next (s.takeLate i.site i.th cause ea).settle) ∧
    (s.ready i.site i.th = true → x.late = [] →
    (b.clash o = true ∨ (s.core i.site).undefinedAt b i = true → exec c s = .next (s.faultBundle i.site i.th 0 illegalOp).settle) ∧
    (b.slots.contains o.slot = true ∨ 16 < b.syl + Iss.len i ∨ (b.syl + Iss.len i = 16 ∧ i.stop = false) ∨ (Iss.pre i).legal o.acc = false →
      b.clash o = true) ∧
    (b.clash o = false → (s.core i.site).undefinedAt b i = false → i.stop = false →
      exec c s = .next (s.on i (fun y => { y with bun := some (b.add c o) })).settle) ∧
    (b.clash o = false → (s.core i.site).undefinedAt b i = false → i.stop = true → bitOf x.prog.toNat 31 = false →
      let ops := s.opsOf b ++ [o]
      let n := b.syl + Iss.len i
      (ops.any (Op.stuck x) = true → exec c s = .next s.settle) ∧
      (ops.any (Op.stuck x) = false → (∀ p ∈ ops, p.iss.broken = false) → ops.filterMap Op.badRow = [] →
        closedBy ops = [] →
        (hasDup (ops.flatMap (Op.writes i.th)) = true →
          exec c s = .next (s.faultBundle i.site i.th 0 { illegalOperand with decode := true }).settle) ∧
        (∀ (p : Op) (f : Flt), p ∈ ops → p.plan = .bad f → f.decode = false → (∀ q ∈ ops, q ≠ p → q.flt = none) →
          hasDup (ops.flatMap (Op.writes i.th)) = false → (∀ q ∈ ops, ∀ e ∈ q.effs, ∀ (k : Fin 2) (l m : BitVec 16) (w : Word), e ≠ .loopStart k l m w) →
          exec c s = .next (s.faultBundle i.site i.th p.slot.num f).settle) ∧
        (hasDup (ops.flatMap (Op.writes i.th)) = false → (∀ q ∈ ops, ∃ l : List Eff, q.plan = .ok l ∧ ∀ e ∈ l, e.plain = true) → x.stepping = false →
          exec c s = .next (((effectsOf (ops.flatMap Op.effs) i.site i.th (s.opens i)).on i (fun y =>
            { y.setLoops (x.loopBack b.start).2 with pc := (x.loopBack b.start).1.getD (b.start + BitVec.ofNat 16 n) })).on i
              (fun y => { y with bpSkip := false })).settle)) ∧
      (ops.any (Op.stuck x) = false → o.iss.broken = true → (∀ p ∈ s.opsOf b, p.iss.broken = false) → closedBy ops = [] →
        exec c s = .next (s.faultBundle i.site i.th o.slot.num ⟨0x31, 0, 0, false, none⟩).settle)))

/-- R94 to R97, R243, R244, R254, R274, R278, R288, R292, R300: what arrives at a core or a thread from its own units: a line fills, or
its fetch fails, whose error is kept for the bundle that asked where no load awaits the line (DEDUCED, log 53), or is held back by writes
and reads ahead of it; a sleeping thread wakes, its timer fires, its wait ends at its bound, a CWAIT keeping its counter whatever the map
then says, its refused message is offered again. Time alone changes no thread and no memory but where a soft reset goes on. Details that
the spec leaves open are the model's choices: log 3. -/
def Obligations.ThreadEventsHappen : Prop :=
  ∀ (s : State) (site : Nat) (th : Fin 4) (at_ : Nat),
    let x := s.thr site th
    let c := s.core site
    let u := s.tick at_
    let z := u.thr site th
    (∀ (addr : Nat) (demand : Bool) (v : Fin 4),
      let a := s.spaceOf addr / 64 * 64
      let h := localOf a / 64 * 64
      let g := s.readGood a 64
      let k : Line := ⟨a, (c.pickWay (cacheSet a)).1, false, g.poisoned h 64, BitVec.ofNat 512 (s.le h 64),
        (s.landObs.filter (fun p => decide (h ≤ p.1) && decide (p.1 < h + 64))).map (fun p => (p.1 - h, p.2))⟩
      s.present site = true → s.cacheable site a = true → c.line a = none → s.lineHeld site a = false → s.fillFor site a = some v →
      s.isLocal a = true → (c.pickWay (cacheSet a)).2 = false →
      ((demand = true ∧ (c.demand = none ∨ c.demand = some a)) ∨ c.ahead = some a →
        Yields (exec (.cacheLineFill site addr ⟨demand, .ok⟩) s) (fun t => MemSame s t ∧ t.inflight = s.inflight ∧
          (t.core site).lines = c.lines ++ [k] ∧ (t.core site).filling a = false ∧
          ∀ (j : Nat) (w : Fin 4) (l : Load), (s.thr site w).loads[j]? = some l → l.cached = true → l.resp = none → l.loc / 64 = a / 64 →
            (t.thr site w).loads[j]? =
              some { l with resp := some (k.at_ l.loc l.kind.size, k.poison, 0), seen := k.seenAt l.loc l.kind.size })) ∧
      (demand = true → c.demand = some a → c.awaited a = false →
        Yields (exec (.cacheLineFill site addr ⟨demand, .busError⟩) s) (fun t => MemSame s t ∧ (t.core site).lines = c.lines ∧
          (t.core site).lineErr = some (a, 4) ∧ (t.core site).filling a = false))) ∧
    (∀ addr : Nat, s.lineHeld site (s.spaceOf addr / 64 * 64) = true → ∀ m : Meeting Bool,
      exec (.cacheLineFill site addr m) s = .next s.settle) ∧
    (∀ w : Wait, x.wait = some w → w.kind = .sleep → x.bun = none → x.pendBits &&& (x.maskBits ||| 2 ^ 4) ≠ 0 →
      Yields (exec (.wake site th) s) (fun t => OneCore s t site { c with th := c.th.set th { x with wait := none } })) ∧
    (s.softStage = 0 → MemSame s u ∧ ∀ (k : Nat) (v : Fin 4), u.thr k v = s.thr k v) ∧
    (bitOf z.wake.toNat 8 = true → 0 ≤ sgn 64 (u.cyc + 2 ^ 64 - z.cmp.toNat) →
      Yields (exec (.timerFire site th at_) s) (fun t => t.now = max s.now at_ ∧ t.thr site th = z.pendSet 2 ∧ MemSame u t ∧
        ∀ v : Fin 4, v ≠ th → t.thr site v = u.thr site v)) ∧
    (∀ w : Wait, z.wait = some w → w.kind = .sleep → z.bun = none → u.bounded w = true →
      Yields (exec (.waitBound site th at_) s) (fun t => t.now = max s.now at_ ∧ t.thr site th = { z with wait := none } ∧ MemSame u t)) ∧
    (∀ (i : Iss) (a : BitVec 3) (b : Fetched) (w : Wait), i.site = site → i.th = th → i.broken = false →
      let waits (y : Thread) : Prop := y.bun = some b ∧ b.start = y.pc ∧ y.wait = some w ∧ bitOf y.prog.toNat 31 = false ∧ y.loads = []
      let p := Iss.pre i
      let next (y : Thread) : BitVec 16 := (y.loopBack y.pc).1.getD (y.pc + BitVec.ofNat 16 b.syl)
      (∀ n : Nat, waits z → b.ops = [.cwait i a 0] → p.sync true = true → p.imm < 64 → w.kind = .cwait n → w.dst = (regA i a).val →
        u.cueCount site n = 0 → u.bounded w = true →
        (bitOf z.syncCtl.toNat 0 = false → Yields (exec (.waitBound site th at_) s) (fun t => t.now = max s.now at_ ∧ MemSame u t ∧
          (t.thr site th).s = z.s.set (regA i a) 1 ∧ (t.thr site th).wait = none ∧ (t.thr site th).pc = next z)) ∧
        (bitOf z.syncCtl.toNat 0 = true →
          exec (.waitBound site th at_) s = .next (u.faultBundle site th Slot.T.num ⟨0x13, 0, 0, false, none⟩).settle)) ∧
      (∀ (d n : Nat) (y : State),
        let B := Fin.ofNat 16 p.b
        let word := (x.sreg B).toNat
        let q := bitsOf word 24 3
        let ws := x.piece (regA i a) p.imm
        waits x → b.ops = [.qsendCommit i a 4] → p.sync true = true → p.hasReg = true → p.imm < 8 → x.staging.length + ws.length ≤ 32 →
        dstClean word = true → s.dstSite site word = some d → (bitOf word 31 = true ∨ s.good d = true) → w.kind = .qsend d q →
        w.dst = p.b → s.qClaimedBy d q site th = false → bitOf x.syncCtl.toNat 1 = false →
        s.qTry d q ⟨1, x.staging ++ ws, site, th.val, x.ctx, 0, 0, 0, x.obs⟩ = (y, .status n) →
        Yields (exec (.queueSendRetry site th) s) (fun t => (t.thr site th).s = x.s.set B (BitVec.ofNat 32 n) ∧
          (t.thr site th).staging = [] ∧ (t.thr site th).wait = none ∧ (t.thr site th).pc = next x)))

/-- R327, R333, R334, R343: thread 0 enters L1 for a delivery, a thread takes its software interrupt, a debug stop at the same boundary
before it, or is only woken by it where it is not enabled, and a thread stops before the bundle at its breakpoint. R58: the cut of a batch
whose budget is spent: the batch is over, its stage registers are empty, the breach is recorded on its die, its act is held there, a
step-end that has retired waits for its strike, and every thread of its context but thread 0 that runs or stands at L1 starts again at its
entry. Details that the spec leaves open are the model's choices: log 36. -/
def Obligations.EntriesAreMade : Prop :=
  (∀ (s : State) (site : Nat) (th : Fin 4),
     let x := s.thr site th
     let vec : BitVec 16 := BitVec.ofNat 16 (bitsOf (s.core site).trapCtl.toNat 16 16)
     let swi (t : State) := bitOf (t.cfld site CFG_CORE_SWI_SWI) th.val
     let entered (cause : Nat) (y : Thread) : Prop := y.level = .l1 ∧ y.sv1.pc = x.pc ∧ y.sv1.cause = BitVec.ofNat 32 cause ∧
       y.sv1.addr = 0 ∧ y.sv1.prog = x.prog ∧ y.prog = 0 ∧ y.s = x.s ∧ y.v = x.v ∧ y.p = x.p ∧ y.bk = x.bk ∧ y.sv2 = x.sv2 ∧
       y.bun = none
     (s.canEnter site th = true → x.late = [] → x.wait = none → x.level = .l0 →
       (th = 0 → (s.core site).trapPend ≠ 0 → Yields (exec (.thread0L1Entry site) s) (fun t =>
         entered 0x1B (t.thr site 0) ∧ (t.thr site 0).pc = vec ∧ MemSame s t ∧ (t.core site).trapPend = (s.core site).trapPend)) ∧
       (s.delivered site th = false → swi s = true → bitOf (s.core site).trapCtl.toNat th.val = true → s.bpDue site th = true →
         Yields (exec (.interruptTake site th) s) (fun t => t.thr site th = { x with dbgStop := true, stepping := false } ∧
           swi t = true ∧ bitsOf (t.cfld site CFG_CORE_DBG_WHY_WHY) (4 * th.val) 4 = 2 ∧ MemSame s t)) ∧
       (s.delivered site th = false → swi s = true → bitOf (s.core site).trapCtl.toNat th.val = true → s.bpDue site th = false →
         Yields (exec (.interruptTake site th) s) (fun t => entered 0x1A (t.thr site th) ∧ swi t = false ∧ MemSame s t ∧
           (th = 0 → (t.thr site th).pc = vec) ∧
           (th ≠ 0 → (t.thr site th).pc = x.pc ∧ t.halted site th = true ∧ bitOf (t.core site).trapPend.toNat th.val = true)))) ∧
     (swi s = true → bitOf (s.core site).trapCtl.toNat th.val = false →
       Yields (exec (.interruptTake site th) s) (fun t => t.thr site th = x.pendSet 3 ∧ swi t = false ∧ MemSame s t)) ∧
     (s.canEnter site th = true → x.bun = none → x.wait = none → x.bpSkip = false → s.bpMatch site th = true →
       Yields (exec (.breakpointStop site th) s) (fun t => t.thr site th = { x with dbgStop := true, stepping := false } ∧
         bitsOf (t.cfld site CFG_CORE_DBG_WHY_WHY) (4 * th.val) 4 = 2 ∧ MemSame s t))) ∧
  (∀ (s : State) (site at_ : Nat) (b : Running),
     let u := s.tick at_
     let d := dieOf site
     (u.core site).batch = some b → b.started = true → (u.core site).bud = 0 → u.rehearsal b.ctx = false → u.safe site = false →
     b.replay = false → (u.core site).role ≠ .understudy → (∀ k : Fin 4, (u.thr site k).wait = none) → d < 8 →
     Yields (exec (.budgetCut site at_) s) (fun t =>
       t.now = max s.now at_ ∧ (t.core site).batch = none ∧ (t.core site).stgCount = 0 ∧ (d, b.act) ∈ t.heldActs ∧
       t.fld d BOX_BREACH_ACT = b.act % 2 ^ 12 ∧ t.fld d BOX_BREACH_KIND = 0 ∧ t.flag d BOX_EVENT_BREACH = true ∧
       (t.thr site 0).pc = (u.thr site 0).pc ∧
       (∀ r ∈ b.slots, r.ended = true → r.struck = false → ∃ e ∈ (t.core site).ended, e.act = b.act ∧ r ∈ e.slots) ∧
       ∀ k : Fin 4, k ≠ 0 → (u.thr site k).ctx = b.ctx →
         (u.thr site k).level = .l1 ∨ ((u.thr site k).level = .l0 ∧ u.halted site k = false) →
         let y := t.thr site k
         y.pc = BitVec.ofNat 16 (u.entryPc site k) ∧ y.level = .l0 ∧ y.ss = [] ∧ y.ssDepth = 0 ∧ y.prog = 0 ∧ y.staging = [] ∧
         y.s = (u.thr site k).s ∧ y.v = (u.thr site k).v ∧ t.halted site k = false))

/-- R229, R253, R289 to R291, R301, R302: a signal that arrives is added to its counter, one whose core has no valid entry for it is
recorded there, and the oldest claimed message of a queue is written through the D port, where its bank admits that, and becomes ready for
its reader, a sum counting its round; a message from another core that meets a parity error is written poisoned. Details that the spec
leaves open are the model's choices: log 55. -/
def Obligations.SignalsAndMessagesArrive : Prop :=
  (∀ (s : State) (k : Nat) (g : Signal), s.signals[k]? = some g → g.node = 0 →
    (∀ c : Nat, g.counter = some c → (∀ (t : Fin 4) (w : Wait), (s.thr g.site t).wait = some w → w.kind ≠ .cwait c) →
      (∀ (j : Fin 2) (o : Nat), ((s.core g.site).chans[j]).want ≠ some (c, o)) → s.cueCount g.site c + g.inc ≤ 65535 →
      Yields (exec (.cueSignalArrival k) s) (fun t => t.signals = dropIdx s.signals k ∧ MemSame s t ∧
        t.cueCount g.site c = s.cueCount g.site c + g.inc)) ∧
    (g.counter = none → s.cueMap g.site g.ctx g.handle = none →
      Yields (exec (.cueSignalArrival k) s) (fun t => t.signals = dropIdx s.signals k ∧ MemSame s t ∧ t.cores = s.cores ∧
        t.cfld g.site CFG_CUE_ERR_KIND = 2 ∧ t.cfld g.site CFG_CUE_ERR_CTX = g.ctx % 64 ∧
        t.cfld g.site CFG_CUE_ERR_IDX = g.handle % 64 ∧ t.cflag g.site CFG_CUE_EVENT_UNMAP = true))) ∧
  (∀ (s : State) (site : Nat) (q : Fin 8) (m : QMsg) (rest : List QMsg),
    let reader : Fin 4 := Fin.ofNat 4 (s.cfld site (QQ_CFG_READER q.val))
    let b := qHeader m.kind m.words.length m.site m.th m.ctx m.seq ++ m.words.flatMap (fun w => leBytes 8 w.toNat)
    let a := padBase site + s.qUnitOff site q.val m.start
    (s.core site).qWriting[q] = m :: rest → (m.kind = 1 → (s.thr m.site (Fin.ofNat 4 m.th)).wait = none) →
    (s.thr site reader).wait = none →
    (∀ what : Arrival, Yields (exec (.queueMessageCommit site ⟨q, what⟩) s) (fun t =>
      (t.core site).qWriting[q] = rest ∧ (t.core site).qReady[q] = (s.core site).qReady[q] ++ [m] ∧
      (m.kind = 3 → t.cfld site CQ_STAT_ROUNDS = (s.cfld site CQ_STAT_ROUNDS + 1) % 65536) ∧
      t.thr site reader = (s.thr site reader).pendSet 1 ∧
      (s.padRefuses site (s.qUnitOff site q.val m.start) b.length true = false → t.bytes a b.length = b ∧ MemBut s t a b.length ∧
        (what = .parity → m.kind = 1 → m.site ≠ site → t.poisoned a b.length = true)) ∧
      (s.padRefuses site (s.qUnitOff site q.val m.start) b.length true = true → MemSame s t))))

/-- R12, R105, R107, R108, R290, R334: what a write to a core's control registers does to its threads: start, halt, resume, a change of
safe mode or context, a software interrupt and a cue count; a requester without expert access changes nothing and raises the die's access
violation where it would have, and a request that its thread's state does not admit, or an end of safe mode on a quarantined core, sets
CTRL_ERR or CTX_ERR. Details that the spec leaves open are the model's choices: log 16. -/
def Obligations.CoresAreControlled : Prop :=
  ∀ (s : State) (r : Requester) (site : Nat) (th : Fin 4) (v : Bool) (ctx : Nat) (n : Fin 64) (w : Word),
    let x := s.thr site th
    let errs (f : RF) (c : Instr) : Prop := Yields (exec c s) (fun t => t.cores = s.cores ∧ MemSame s t ∧ t.cflag site f = true)
    let ctrl := errs CFG_CORE_STATUS_CTRL_ERR
    (∀ (c : Instr) (moves : Bool), (c, moves) ∈ [(Instr.threadStart r site th, true), (.threadHalt r site th, !s.halted site th),
        (.threadResume r site th, s.halted site th), (.safeWrite r site v, s.safe site != v), (.ctxChange r site th ctx, ctx % 64 != x.ctx),
        (.cueCountWrite r site n w, s.cueCount site n.val != w.toNat % 65536), (.cacheEnable r site, !s.cflag site DC_CTL_EN)] →
      s.expert r = false →
      (moves = true → Yields (exec c s) (fun t => RegOnly s t (dieOf site) (EVG_SRC_PEND 647).off ∧
        t.fld (dieOf site) (EVG_SRC_PEND 647) = 1)) ∧
      (moves = false → exec c s = .next s.settle)) ∧
    (s.expert r = true →
      (s.halted site th = true → s.copying site = false → Yields (exec (.threadStart r site th) s) (fun t =>
        let y := t.thr site th
        y.pc = BitVec.ofNat 16 (s.entryPc site th) ∧ y.level = .l0 ∧ y.ss = [] ∧ y.ssDepth = 0 ∧ y.staging = [] ∧ y.s = x.s ∧ y.v = x.v ∧
        y.p = x.p ∧ t.halted site th = false ∧ bitOf (t.core site).trapPend.toNat th.val = false ∧ MemSame s t ∧
        ∀ u : Fin 4, u ≠ th → t.thr site u = s.thr site u ∧ t.halted site u = s.halted site u)) ∧
      (s.halted site th = false ∨ s.copying site = true → ctrl (.threadStart r site th)) ∧
      (s.halted site th = false → x.wait = none → Yields (exec (.threadHalt r site th) s) (fun t =>
        t.halted site th = true ∧ t.thr site th = { x with bun := none, wait := none } ∧ MemSame s t)) ∧
      (s.halted site th = true → th = 0 ∨ x.level ≠ .l1 → Yields (exec (.threadResume r site th) s) (fun t =>
        t.halted site th = false ∧ t.cores = s.cores ∧ MemSame s t)) ∧
      (s.halted site th = true → th ≠ 0 → x.level = .l1 → ctrl (.threadResume r site th)) ∧
      (s.safe site ≠ v → s.isQuar site = true → v = false → ctrl (.safeWrite r site v)) ∧
      (s.safe site ≠ v → s.isQuar site = false ∨ v = true →
        ((∀ u : Fin 4, s.halted site u = true ∧ (s.thr site u).long = none) → Yields (exec (.safeWrite r site v) s) (fun t =>
          t.safe site = v ∧ MemSame s t ∧ t.core site = { s.core site with
            tiles := Vector.replicate 8 Tile.reset, acc := Vector.replicate 2 Acc32.reset })) ∧
        ((∃ u : Fin 4, s.halted site u = false) → ctrl (.safeWrite r site v))) ∧
      (ctx % 64 ≠ x.ctx →
        (s.halted site th = true → Yields (exec (.ctxChange r site th ctx) s) (fun t =>
          (t.thr site th).ctx = ctx % 64 ∧ (t.thr site th).staging = [] ∧ (∀ b : Fin 8, bitOf ((t.thr site th).bk[b]).toNat 0 = false) ∧
          (t.thr site th).s = x.s ∧ (t.thr site th).pc = x.pc ∧ MemSame s t)) ∧
        (s.halted site th = false → errs CFG_CORE_STATUS_CTX_ERR (.ctxChange r site th ctx))) ∧
      ((∀ (u : Fin 4) (y : Wait), (s.thr site u).wait = some y → y.kind ≠ .cwait n.val) →
        (∀ (j : Fin 2) (o : Nat), ((s.core site).chans[j]).want ≠ some (n.val, o)) →
        Yields (exec (.cueCountWrite r site n w) s) (fun t => t.cueCount site n.val = w.toNat % 65536 ∧ MemSame s t ∧
          ∀ u : Fin 4, t.thr site u = s.thr site u))) ∧
    (bitOf (s.core site).trapCtl.toNat th.val = true → Yields (exec (.swi r site th) s) (fun t =>
      bitOf (t.cfld site CFG_CORE_SWI_SWI) th.val = true ∧ t.thr site th = x.pendSet 3 ∧ MemSame s t)) ∧
    (bitOf (s.core site).trapCtl.toNat th.val = false → Yields (exec (.swi r site th) s) (fun t =>
      t.thr site th = x.pendSet 3 ∧ t.regs = s.regs ∧ MemSame s t))

/-- R210, R237, R238, R246, R297, R299: each of these commands has a next state, and this one: REGION_ENABLE enables a circular region
empty, CLAIM and RELEASE claim and release it, QUEUE_ENABLE enables a queue empty, what it held counted as discarded, STAGING_DISCARD
empties a staging buffer, CACHE_INV, CACHE_CLEAN, CACHE_ENABLE and CACHE_DISABLE invalidate, clean, enable and disable the data cache, and
NUM_SEED_ACCESS reads or writes a stochastic generator, its index stepping. Details that the spec leaves open are the model's choices: log
20, 21, 44. -/
def Obligations.CoreUnitsAreSet : Prop :=
  ∀ (s : State) (r : Requester) (site n : Nat) (k q : Fin 8) (th : Fin 4) (v w : Word),
    let c := s.core site
    let x := s.thr site th
    let g := s.ring site k.val
    let zero := s.expert (.thread site 0) = true
    (let base := bitsOf v.toNat 0 13
     let size := bitsOf v.toNat 16 13 + 1
     zero → s.cflag site (CR_CFG_EN k.val) = false →
     (bitsOf v.toNat 29 2 ≠ 3 → base + size ≤ 8192 → ∃ t : State, exec (.regionEnable site k v) s = .next t ∧
        t.cflag site (CR_CFG_EN k.val) = true ∧ t.cfld site (CR_CFG_BASE k.val) = base ∧ t.crSize site k.val = size ∧
        t.cfld site (CR_CFG_OWNER k.val) = bitsOf v.toNat 29 2 ∧ t.ring site k.val = ⟨0, 0, 0, size, g.fail⟩ ∧ t.cores = s.cores ∧
        MemSame s t) ∧
     (bitsOf v.toNat 29 2 = 3 ∨ 8192 < base + size → ∃ t : State, exec (.regionEnable site k v) s = .next t ∧
        t.cflag site (CR_CFG_EN k.val) = false ∧ t.cflag site CFG_CORE_STATUS_CTRL_ERR = true ∧ t.ring site k.val = g)) ∧
    (s.cflag site (CR_CFG_EN k.val) = true → s.cfld site (CR_CFG_OWNER k.val) = 0 → n < 2 ^ 14 →
      let size := s.crSize site k.val
      let fits (m : Ring) : Prop := m.head < 8192 ∧ m.tail < 8192 ∧ m.fill < 16384 ∧ m.wrap < 16384
      (fits (g.claim size n).1 → ∃ t : State, exec (.claim site k n) s = .next t ∧
        t.ring site k.val = (g.claim size n).1 ∧ t.cores = s.cores ∧ MemSame s t) ∧
      (fits (g.release size n) → ∃ t : State, exec (.release site k n) s = .next t ∧
        t.ring site k.val = g.release size n ∧ t.cores = s.cores ∧ MemSame s t)) ∧
    (let region := bitsOf v.toNat 17 3
     let size := s.crSize site region
     zero → s.cflag site (QQ_CFG_EN q.val) = false → bitOf v.toNat 29 = false → s.cflag site (CR_CFG_EN region) = true →
     s.cfld site (CR_CFG_OWNER region) = 1 → 4 ≤ size → size ≤ 1024 →
     (∀ p : Fin 8, p ≠ q → s.cflag site (QQ_CFG_EN p.val) = true → s.cfld site (QQ_CFG_REGION p.val) ≠ region) →
     ∃ t : State, exec (.queueEnable site q v) s = .next t ∧
       t.cflag site (QQ_CFG_EN q.val) = true ∧ t.cflag site (QQ_CFG_CLOSED q.val) = false ∧ t.cfld site (QQ_CFG_REGION q.val) = region ∧
       t.cfld site (QQ_CFG_READER q.val) = bitsOf v.toNat 26 2 ∧ t.cfld site (QQ_CFG_CTX q.val) = bitsOf v.toNat 20 6 ∧
       (t.core site).qWriting = c.qWriting.set q [] ∧ (t.core site).qReady = c.qReady.set q [] ∧
       (t.core site).qHeld = c.qHeld.set q ((c.qHeld[q]).filter (fun m => m.units == 0)) ∧ MemSame s t ∧
       (s.cflag site (QQ_CFG_COMB q.val) = false → t.cfld site (QQ_CNT_DISC q.val) = satAdd 16 (s.cfld site (QQ_CNT_DISC q.val))
         ((c.qWriting[q]).length + (c.qReady[q]).length + (if (c.qHeld[q]).any (fun m => m.units != 0) then 1 else 0)))) ∧
    (∃ t : State, exec (.stagingDiscard site th) s = .next t ∧ OneCore s t site { c with th := c.th.set th { x with staging := [] } }) ∧
    (zero → ∃ t : State, exec (.cacheInv site) s = .next t ∧ (t.core site).lines = [] ∧ (t.core site).demand = none ∧
      (t.core site).ahead = none ∧ t.inflight = s.inflight ∧ MemSame s t ∧
      t.cfld site DC_CTL_EN = s.cfld site DC_CTL_EN ∧ (s.cflag site DC_CTL_EN = false → t.cflag site DC_CTL_INVD = true)) ∧
    (zero → (c.lines.map Line.addr).Nodup →
      let clean (t : State) : Prop := (t.core site).lines = c.lines.map (fun l => { l with dirty := false }) ∧ MemSame s t ∧
        t.inflight.length = s.inflight.length + c.lines.countP Line.dirty
      (∃ t : State, exec (.cacheClean site) s = .next t ∧ clean t ∧ t.cfld site DC_CTL_EN = s.cfld site DC_CTL_EN) ∧
      (s.cflag site DC_CTL_EN = true → ∃ t : State, exec (.cacheDisable site) s = .next t ∧
        clean t ∧ t.cflag site DC_CTL_EN = false ∧ t.cflag site DC_CTL_INVD = false)) ∧
    (s.expert r = true → s.cflag site DC_CTL_EN = false →
      (s.cflag site DC_CTL_INVD = true → ∃ t : State, exec (.cacheEnable r site) s = .next t ∧
        t.cflag site DC_CTL_EN = true ∧ t.cores = s.cores ∧ MemSame s t) ∧
      (s.cflag site DC_CTL_INVD = false → ∃ t : State, exec (.cacheEnable r site) s = .next t ∧
        t.cflag site DC_CTL_EN = false ∧ t.cflag site CFG_CORE_STATUS_CTRL_ERR = true ∧ t.cores = s.cores ∧ MemSame s t)) ∧
    (let i : Fin 64 := Fin.ofNat 64 (bitsOf x.numSidx.toNat 0 6)
     let next (y : Thread) : Prop := y.numSidx =
       (if bitOf x.numSidx.toNat 6 then BitVec.ofNat 32 (64 + (i.val + 1) % 64) else x.numSidx)
     (∃ t : State, exec (.numSeedAccess site th none) s = .next t ∧ t.rdData = leBytes 4 (x.seeds[i]).toNat ∧
       (t.thr site th).seeds = x.seeds ∧ next (t.thr site th) ∧ MemSame s t) ∧
     (s.expert (.thread site th) = true → ∃ t : State, exec (.numSeedAccess site th (some w)) s = .next t ∧
       (t.thr site th).seeds = x.seeds.set i (if w = 0 then 1 else w) ∧ next (t.thr site th) ∧ MemSame s t))

/-- R329, R343, R344: a thread stopped at L2 is resumed, to where a stopped operation of it goes on (the model's own field: log 42), or
runs its handler at the word of anyone but its own core; the debug path stops, resumes and steps a thread of a context in rehearsal and
reads and writes the registers of one that does not run. Details that the spec leaves open are the model's choices: log 28. -/
def Obligations.ThreadsAreDebugged : Prop :=
  ∀ (s : State) (r : Requester) (site : Nat) (th : Fin 4),
    let x := s.thr site th
    let one (c : Instr) (y : Thread) : Prop := Yields (exec c s) (fun t => t.thr site th = y ∧ MemSame s t ∧
      ∀ u : Fin 4, u ≠ th → t.thr site u = s.thr site u)
    (s.expert r = true → x.l2wait = true → ownThread r site = false →
      one (.l2Resume r site th)
        { x with
          pc := x.sv2.pc
          level := levelOf (bitsOf x.sv2.st.toNat 4 2)
          prog := x.sv2.prog
          after := x.sv2.went
          l2wait := false } ∧
      one (.l2Run2 r site th) { x with pc := BitVec.ofNat 16 (s.cfld site CFG_CORE_TRAP_VEC2), l2wait := false }) ∧
    (∀ c ∈ [Instr.l2Resume r site th, .l2Run2 r site th],
      (ownThread r site = true ∨ (s.expert r = true ∧ x.l2wait = false) → Yields (exec c s) (fun t =>
        t.cores = s.cores ∧ MemSame s t ∧ t.cflag site CFG_CORE_STATUS_CTRL_ERR = true)) ∧
      (ownThread r site = false → s.expert r = false → x.l2wait = true → Yields (exec c s) (fun t =>
        RegOnly s t (dieOf site) (EVG_SRC_PEND 647).off ∧ t.fld (dieOf site) (EVG_SRC_PEND 647) = 1))) ∧
    (∀ c ∈ [Instr.debugStop r site th, .debugResume r site th, .debugStep r site th],
      (dbgUser r = false → Yields (exec c s) (fun t => RegOnly s t (dieOf site) (EVG_SRC_PEND 647).off ∧
        t.fld (dieOf site) (EVG_SRC_PEND 647) = 1)) ∧
      (dbgUser r = true → s.rehearsal x.ctx = false → Yields (exec c s) (fun t => t.cores = s.cores ∧ MemSame s t ∧
        t.cfld site CFG_CORE_DBG_CTL_ERR = 1)) ∧
      (dbgUser r = true → s.rehearsal x.ctx = true → s.replaying site th = true → exec c s = .next s.settle)) ∧
    (dbgUser r = true → s.rehearsal x.ctx = true → s.replaying site th = false →
      let y := x.pendSet 4
      (x.dbgStop = false → x.wait = none →
        one (.debugStop r site th) { y with bun := none, wait := none, dbgStop := true, stepping := false } ∧
        Yields (exec (.debugStop r site th) s) (fun t => bitsOf (t.cfld site CFG_CORE_DBG_WHY_WHY) (4 * th.val) 4 = 1)) ∧
      (x.dbgStop = true →
        one (.debugResume r site th) { y with dbgStop := false, stepping := false, bpSkip := true } ∧
        one (.debugStep r site th) { y with stepping := true, bpSkip := true })) ∧
    (dbgUser r = true → s.cfld site CFG_CORE_DBG_SEL_THREAD = th.val →
      let i := s.cfld site CFG_CORE_DBG_SEL_WORD
      let item := s.cfld site CFG_CORE_DBG_SEL_ITEM
      (s.dbgReach site th = true →
        (item ≠ 0x025 → Yields (exec (.debugRegAccess r site none) s) (fun t =>
          t.rdData = leBytes 4 (wordOf (s.dbgItem site th item) i) ∧ t.cores = s.cores ∧ MemSame s t)) ∧
        (item = 0x220 → i < 2 → Yields (exec (.debugRegAccess r site none) s) (fun t => t.rdData = leBytes 4 0xFFFFFFFF) ∧
          ∀ w : Word, exec (.debugRegAccess r site (some w)) s = .next s.settle) ∧
        (∀ (n : Fin 16) (w : Word), item = 0x200 + n.val → i = 0 → one (.debugRegAccess r site (some w)) { x with s := x.s.set n w }) ∧
        (∀ (n : Fin 16) (w : Word), item = 0x210 + n.val →
          one (.debugRegAccess r site (some w)) { x with v := x.v.set n (BitVec.ofNat 512 (setWord (x.v[n]).toNat i w)) }) ∧
        (∀ w : Word, item = 0x230 → i = 0 → one (.debugRegAccess r site (some w)) { x with pc := w.setWidth 16 })) ∧
      (s.dbgReach site th = false → ∀ w : Option Word, Yields (exec (.debugRegAccess r site w) s) (fun t =>
        t.cores = s.cores ∧ MemSame s t ∧ t.cfld site CFG_CORE_DBG_CTL_ERR = 1)))

/-- R310, R311, R316 to R321, R324: a DMA channel starts its next command, moves a burst, is done, meets an error and halts with it, and
is restarted, skipped or flushed; a bulk channel's ring and request lines are served. R291, R318: a core channel that needs a request of
its cue counter takes one where the count is not 0, and otherwise waits for it behind what waits there already; what waits for a counter,
threads in a CWAIT and channels alike, is served in the order in which it began to wait, while the count lasts. R318, R324: a doorbell
moves a bulk ring's TAIL, unless more descriptors would be posted than the ring holds; an idle channel fetches the descriptor at HEAD; a
request counts on its line, up to 255. Details that the spec leaves open are the model's choices: log 29, 30, 53, 55. -/
def Obligations.ChannelsRun : Prop :=
  (∀ (s : State) (ch : ChanId) (q : Requester) (at_ : Nat),
     let k := s.chan ch
     let gone (t : State) (r : DmaCmd) : Prop := match ch with
       | .core site c => t.cfld site (CDMA_COMP_LAST c.val) = r.ticket % 65536
       | .bulk d c => t.fld d (BDMA_CH_HEAD_HEAD c) = (s.fld d (BDMA_CH_HEAD_HEAD c) + 1) % 2 ^ 32
     s.chanOk ch = true →
     (∀ (x : DmaCmd) (rest : List DmaCmd), k.run = none → k.halt = false → k.queue = x :: rest →
       s.chanGated ch = false →
       let fresh : Chan := { k with run := some { x with started := s.now }, queue := rest, left := 0, want := none, err := none, dead := false }
       exec (.dmaCommandStart ch) s = .next ((s.setChan ch fresh).wantReq ch).settle ∧
       ((s.setChan ch fresh).needsReq ch = false → Yields (exec (.dmaCommandStart ch) s) (fun t => MemSame s t ∧ t.chan ch = fresh))) ∧
     (s.chanGated ch = true → ∀ c ∈ [Instr.dmaCommandStart ch, .dmaDone ch], exec c s = .next s.settle) ∧
     (∀ r : DmaCmd, k.run = some r →
       let x := descOf r.desc
       (s.chanFree ch = true → (s.pace ch).mode = 0 → k.left = 0 → r.buf = [] →
         (x.gather = false → x.sfix = false → x.dfix = false → x.shost = false → x.dhost = false → x.len = 64 → x.dw = 64 →
           r.done = 0 → x.src % 64 = 0 → x.dst % 64 = 0 → s.isLocal x.src = true → s.isLocal x.dst = true →
           s.isRegSpace x.dst = false → (∃ d : Nat, s.home (localOf x.src) = .hbm d) →
           Yields (exec (.dmaBurst ch .ok) s) (fun t => MemSame s t ∧
             (t.chan ch).run = some { r with done := 64, buf := [], idx := none } ∧
             t.inflight = s.inflight ++ [⟨r.cmd, chanReq ch, r.ctx, localOf x.dst, s.bytes (localOf x.src) 64,
               s.poisoned (localOf x.src) 64, x.land || x.orel, if (x.land || x.orel) = true then r.obs else [], none, x.orel,
               match ch with
               | .core site _ => some (site, r.th)
               | .bulk _ _ => none, 0, false, r.act, false⟩])) ∧
         (x.shost = false → s.memoryAt (s.readAddr r) = true →
           Yields (exec (.dmaBurst ch .accessError) s) (fun t => MemSame s t ∧ (t.chan ch).run = some r ∧ t.inflight = s.inflight ∧
             (t.chan ch).err = some ⟨4, false, s.readAddr r, s.now⟩)) ∧
         (x.shost = false → s.readCrosses ch (s.readAddr r) = true →
           Yields (exec (.dmaBurst ch .busError) s) (fun t => MemSame s t ∧ (t.chan ch).run = some r ∧ t.inflight = s.inflight ∧
             (t.chan ch).err = some ⟨5, false, s.readAddr r, s.now⟩ ∧ t.flag (chanDie ch) MSH_EVENT_TIMEOUT = true))) ∧
       (s.chanGated ch = false → k.halt = false → k.dead = false → k.err = none → s.cmdFinished r = true → x.crec = false →
         Yields (exec (.dmaDone ch) s) (fun t => (t.chan ch).run = none ∧ (t.chan ch).queue = k.queue ∧ t.inflight = s.inflight ∧
           (x.ccue = false → t.signals = s.signals) ∧ gone t r ∧ MemSame s t)) ∧
       (s.chanGated ch = false → k.halt = false → k.dead = false → k.err = none → s.cmdFinished r = true → x.crec = true → x.ccue = false →
         s.isLocal x.cpl = true →
         Yields (exec (.dmaDone ch) s) (fun t => (t.chan ch).run = none ∧ gone t r ∧ MemSame s t ∧ t.signals = s.signals ∧
           t.inflight = s.inflight ++ [⟨s.nextCmd, chanReq ch, r.ctx, localOf x.cpl,
             leBytes 4 x.tag ++ leBytes 1 0 ++ leBytes 1 (chanByte ch) ++ leBytes 2 r.ticket ++ leBytes 4 (r.count x.total) ++ leBytes 4 0,
             false, false, setAdd r.obs r.cmd, none, false, none, 0, false, r.act, true⟩])) ∧
       (∀ (cause : Nat) (dir : Bool) (addr seen : Nat), k.err = some ⟨cause, dir, addr, seen⟩ → k.halt = false → k.dead = false →
         s.fabReading ch = false → s.hostOwed ch = false → s.cmdWrites r.cmd = [] → r.bad = none → cause < 16 → addr < 2 ^ 64 →
         r.count (r.done - r.buf.length) < 2 ^ 32 →
         Yields (exec (.dmaErrorHalt ch) s) (fun t => (t.chan ch).halt = true ∧ (t.chan ch).run = some r ∧ (t.chan ch).err = none ∧
           MemSame s t ∧
           match ch with
           | .core site c => t.cfld site (CDMA_STATUS_CAUSE c.val) = cause ∧ t.cfld site (CDMA_STATUS_DIR c.val) = b2n dir ∧
               t.rg64 (ckey site (CDMA_ERR_ADDR_LO_ADDR c.val).off) = addr ∧ t.cflag site (CDMA_STATUS_EVT c.val) = true ∧
               t.cfld site (CDMA_DONE_COUNT c.val) = r.count (r.done - r.buf.length)
           | .bulk d c => t.fld d (BDMA_CH_STATUS_CAUSE c) = cause ∧ t.fld d (BDMA_CH_STATUS_DIR c) = b2n dir ∧
               t.rg64 (dkey d (BDMA_CH_ERR_ADDR_LO_ADDR c).off) = addr ∧ t.fld d (BDMA_CH_DONE_COUNT c) = r.count (r.done - r.buf.length))) ∧
       (k.halt = true →
         let again (n : Nat) : DmaCmd := { r with done := n, buf := [], idx := none, bad := none, started := s.now }
         let runs (n : Nat) (t : State) : Prop := (t.chan ch).run = some (again n) ∧ (t.chan ch).queue = k.queue ∧ (t.chan ch).halt = false ∧
           (t.chan ch).err = none ∧ r.cmd ∉ t.errCmds ∧ MemSame s t
         (s.checkRun r.ctx (chanOwn ch r) (s.hostOk ch) x = true →
           Yields (exec (.dmaRetry q ch) s) (runs 0) ∧ Yields (exec (.dmaResume q ch) s) (runs (s.doneBytes ch r))) ∧
         (s.checkRun r.ctx (chanOwn ch r) (s.hostOk ch) x = false → ∀ c ∈ [Instr.dmaRetry q ch, .dmaResume q ch],
           Yields (exec c s) (fun t => t.chan ch = k ∧ t.causeOf ch = (if isBulk ch then 1 else 2) ∧ t.doneReg ch = s.doneReg ch ∧
             MemSame s t)) ∧
         Yields (exec (.dmaSkip q ch) s) (fun t => t.chan ch = { k with run := none, halt := false, err := none } ∧
           r.cmd ∈ t.errCmds ∧ gone t r ∧ MemSame s t) ∧
         Yields (exec (.dmaFlush q ch) s) (fun t => t.chan ch = { k with run := none, queue := [], halt := false, err := none } ∧
           r.cmd ∈ t.errCmds ∧ (∀ e ∈ k.queue, e.cmd ∈ t.errCmds) ∧ MemSame s t))) ∧
     (let u := s.tick at_
      let j := u.chan ch
      ∀ r : DmaCmd, j.run = some r → j.halt = false → j.dead = false → j.err = none → r.buf = [] → r.started + u.chanTo ch ≤ u.now →
        Yields (exec (.dmaTimeout ch at_) s) (fun t => t.now = max s.now at_ ∧ MemSame u t ∧ (t.chan ch).run = some r ∧
          (t.chan ch).err = some ⟨6, false, u.nextBeat r, max s.now at_⟩)) ∧
     (k.halt = false → ∀ c ∈ [Instr.dmaRetry q ch, .dmaResume q ch, .dmaSkip q ch, .dmaFlush q ch], exec c s = .next s.settle)) ∧
  ((∀ (s : State) (site : Nat) (j : Fin 2) (r : DmaCmd) (c : Nat) (rem : Bool),
     let ch := ChanId.core site j
     let k := s.chan ch
     k.run = some r → s.needsReq ch = true → k.want = none → s.cueMap site r.ctx (s.pace ch).req = some (c, rem) →
     (s.cueCount site c = 0 → (s.wantReq ch).chan ch = { k with want := some (c, (s.core site).waits) } ∧
       ((s.wantReq ch).core site).waits = (s.core site).waits + 1) ∧
     (s.cueCount site c ≠ 0 → (s.wantReq ch).chan ch = { k with left := (s.pace ch).burst, want := none } ∧
       (s.wantReq ch).cueCount site c = s.cueCount site c - 1)) ∧
   (∀ (s : State) (ch : ChanId), s.needsReq ch = false ∨ isBulk ch = true → s.wantReq ch = s) ∧
   (∀ (s : State) (site c n : Nat),
     (s.waiters site c = [] ∨ s.cueCount site c = 0 → s.serveWaits site c n = s) ∧
     (s.waiters site c ≠ [] → s.cueCount site c ≠ 0 → ∃ v ∈ s.waiters site c, (∀ u ∈ s.waiters site c, v.1 ≤ u.1) ∧
       s.serveWaits site c (n + 1) = (s.serveOne site c v.2).serveWaits site c n)) ∧
   (∀ (s : State) (site c : Nat) (t : Fin 4) (w : Wait), (s.thr site t).wait = some w → w.kind = .cwait c →
     (w.order, Waiter.thread t) ∈ s.waiters site c)) ∧
  (∀ (s : State) (q : Requester) (d c line : Nat) (v : Word),
     let k := s.chan (.bulk d c)
     let posts := (v.toNat + 2 ^ 32 - s.fld d (BDMA_CH_HEAD_HEAD c)) % 2 ^ 32
     let n := s.fld d (BDMA_CH_HEAD_HEAD c)
     let a := s.descAddr d c n
     d < 8 → c < 16 →
     (s.expert q = true →
       (posts ≤ 2 ^ s.fld d (BDMA_CH_CTL_LOG2 c) → Yields (exec (.bdmaDoorbell q d c v) s) (fun t =>
         t.fld d (BDMA_CH_TAIL_TAIL c) = v.toNat ∧ RegOnly s t d (BDMA_CH_TAIL_TAIL c).off)) ∧
       (2 ^ s.fld d (BDMA_CH_CTL_LOG2 c) < posts → Yields (exec (.bdmaDoorbell q d c v) s) (fun t =>
         t.fld d (BDMA_CH_TAIL_TAIL c) = s.fld d (BDMA_CH_TAIL_TAIL c) ∧ t.fld d ⟨BDMA_PTR_ERR_CHAN.off, c, c⟩ = 1 ∧ MemSame s t)) ∧
       Yields (exec (.bdmaReq q d line) s) (fun t =>
         get 0 t.bdmaReq (d * 32 + line % 32) = min 255 (get 0 s.bdmaReq (d * 32 + line % 32) + 1) ∧ t.regs = s.regs ∧ MemSame s t)) ∧
     (s.expert q = false → ∀ i ∈ [Instr.bdmaDoorbell q d c v, .bdmaReq q d line],
       (i = .bdmaDoorbell q d c v → s.fld d (BDMA_CH_TAIL_TAIL c) ≠ v.toNat) → Yields (exec i s) (fun t =>
         RegOnly s t d (EVG_SRC_PEND 647).off ∧ t.fld d (EVG_SRC_PEND 647) = 1)) ∧
     (s.execOff = false → s.flag d (BDMA_CH_CTL_EN c) = true → k.halt = false → k.run = none → k.queue = [] → s.posted d c ≠ 0 →
       (s.ringAt a = true → s.poisoned (localOf a) 64 = false →
         let fits := s.checkRun (s.fld d (BDMA_CH_CTL_CTX c)) none (s.hostOk (.bulk d c)) (descOf (BitVec.ofNat 512 (s.le (localOf a) 64)))
         (fits = true → Yields (exec (.bdmaDescriptorFetch d c .ok) s) (fun t => MemSame s t ∧
           ∃ r : DmaCmd, t.chan (.bulk d c) = { k with queue := [r] } ∧ r.desc = BitVec.ofNat 512 (s.le (localOf a) 64) ∧
             r.ctx = s.fld d (BDMA_CH_CTL_CTX c) ∧ r.cmd = s.nextCmd ∧ r.done = 0)) ∧
         (fits = false → Yields (exec (.bdmaDescriptorFetch d c .ok) s) (fun t => MemSame s t ∧ (t.chan (.bulk d c)).halt = true ∧
           t.fld d (BDMA_CH_STATUS_CAUSE c) = 1))) ∧
       ((s.ringAt a = true ∧ s.poisoned (localOf a) 64 = true) ∨ s.ringAt a = false →
         Yields (exec (.bdmaDescriptorFetch d c .ok) s) (fun t => MemSame s t ∧ (t.chan (.bulk d c)).halt = true ∧
           t.fld d (BDMA_CH_STATUS_CAUSE c) = 9))))

/-- R253, R254, R264, R269, R270, R274, R280, R282, R320, R350, R353, R354: a write that nothing holds lands: its bytes stand at its home
and no other byte changes, poisoned where its payload met a parity error on the mesh, which is counted; at a refusing scratchpad, an
unmapped address or after a failed release nothing is written and its command ends in error, as it does where no answer comes; a landing
write whose command has met an error is not performed; one for another node is offered to the fabric with those that go on from it, in one
transaction, which leaves once its port holds slot credits for it (the die whose counter moves on a parity error, and that a write that
does not cross the mesh meets none, are the model's choice and inference: log 14). Details that the spec leaves open are the model's
choices: log 8, 29, 53. -/
def Obligations.WritesLand : Prop :=
  ∀ (s : State) (k d : Nat) (w : PWrite) (what : Arrival), s.inflight[k]? = some w → s.discards w = false → w.tag = none →
    (s.landBarred w = true → Yields (exec (.writeLand k what) s) (fun t => MemSame s t ∧ t.inflight = s.inflight.eraseIdx k)) ∧
    (nodeOf w.loc = 0 → s.landBarred w = false → s.landReady k w false = true →
      let held : Prop := (∃ d : Nat, s.home w.loc = .hbm d) ∨ (∃ site off : Nat, s.home w.loc = .pad site off ∧
        s.padRefuses site off w.data.length true = false)
      let failed (t : State) : Prop := MemSame s t ∧ (∃ more : List PWrite, t.inflight = s.inflight.eraseIdx k ++ more) ∧ w.cmd ∈ t.errCmds
      let landed (t : State) : Prop := t.bytes w.loc w.data.length = w.data ∧ MemBut s t w.loc w.data.length ∧
        t.inflight = s.inflight.eraseIdx k
      (s.releaseFails w = true → Yields (exec (.writeLand k what) s) failed) ∧
      (s.releaseFails w = false →
        (held →
          Yields (exec (.writeLand k .ok) s) (fun t => landed t ∧ t.errCmds = s.errCmds ∧ t.cores = s.cores ∧
            (w.poison = true → w.data ≠ [] → t.poisoned w.loc w.data.length = true) ∧
            (w.poison = false → w.loc % 64 = 0 → w.data.length = 64 →
              t.poisoned w.loc 64 = (w.part && (s.readGood w.loc 64).poisoned w.loc 64)))) ∧
        (∀ site off : Nat, s.home w.loc = .pad site off → s.padRefuses site off w.data.length true = true →
          Yields (exec (.writeLand k .ok) s) failed) ∧
        (s.home w.loc = .unmapped → Yields (exec (.writeLand k .ok) s) (fun t => failed t ∧
          t.flag (reqDie w.req) MSH_EVENT_UNMAPPED = true ∧ t.rg64 (dkey (reqDie w.req) MSH_ERR_ADDR_LO_ADDR.off) = w.loc % 2 ^ 64)) ∧
        (s.crossed w = none → exec (.writeLand k .parity) s = exec (.writeLand k .ok) s ∧
          exec (.writeLand k .busError) s = exec (.writeLand k .ok) s) ∧
        (s.crossed w = some d → held → Yields (exec (.writeLand k .parity) s) (fun t => landed t ∧
          (w.data ≠ [] → t.poisoned w.loc w.data.length = true) ∧
          t.fld d MSH_ERR_CNT_DATA = satAdd 16 (s.fld d MSH_ERR_CNT_DATA) 1 ∧ t.flag d MSH_EVENT_PARITY = true)) ∧
        (s.crossed w = some d → held → Yields (exec (.writeLand k .busError) s) (fun t => w.cmd ∈ t.errCmds ∧
          t.flag (reqDie w.req) MSH_EVENT_TIMEOUT = true ∧ MemBut s t w.loc w.data.length ∧
          (t.bytes w.loc w.data.length = w.data ∨ MemSame s t))) ∧
        (∀ e : Nat, s.home w.loc = .hbm e → w.partly = true → Yields (exec (.writeLand k .uncorrectable) s) (fun t => landed t ∧
          t.fld e HBC_UE_CNT_COUNT = satAdd 32 (s.fld e HBC_UE_CNT_COUNT) 1 ∧ t.flag e HBC_EVENT_UE = true)))) ∧
    (nodeOf w.loc ≠ 0 → s.landBarred w = false → s.landReady k w true = true → s.releaseFails w = false →
      ∀ e : Nat, planeOf (localOf w.loc) = some e → s.flag e ALF_STATUS_UP = true →
        let l := s.packet k w
        let n := (l.map (fun p => p.1.data.length)).sum
        let kind : FabKind := if l.any (fun p => p.1.landing) then .landing else .write
        Yields (exec (.writeLand k .ok) s) (fun t => MemSame s t ∧ t.errCmds = s.errCmds ∧
          t.fabOut = s.fabOut ++ [⟨s.nextTag, .write, kind, w.loc, n, e, w.act, s.now⟩] ∧
          (e < s.links.length → (s.link e).reqQ = [] → (s.link e).respQ = [] →
            (1 + cdiv n 16 ≤ (s.link e).reqCredit → t.counter 3 e 3 = satAdd 32 (s.counter 3 e 3) (16 * (1 + cdiv n 16)) ∧
              (t.link e).reqQ = [] ∧ (t.link e).reqCredit = (s.link e).reqCredit - (1 + cdiv n 16)) ∧
            ((s.link e).reqCredit < 1 + cdiv n 16 → t.counter 3 e 3 = s.counter 3 e 3 ∧
              (t.link e).reqQ.map Prod.fst = [nodeOf w.loc])) ∧
          (∀ (i : Nat) (v : PWrite), (v, i) ∈ l → t.inflight[i]? = some { v with tag := some s.nextTag })))

/-- R270: writing memory: the bytes written read back and every other byte is as it was, the memory keeps its canonical form (the model's
own representation: log 7, DESIGN CHOICE), poisoned data poisons every granule it touches, and clean data clears the poison of every
granule it covers whole and of no other. -/
def Obligations.MemoryHoldsWrites : Prop :=
  ∀ (s : State) (a : Nat) (l : List Byte) (psn : Bool),
    let t := s.writeMem a l psn
    (Memory.wf s.mem = true → Memory.wf t.mem = true) ∧ t.bytes a l.length = l ∧ MemBut s t a l.length ∧
    (∀ g : Nat,
      let touched := g * 64 < a + l.length ∧ a < g * 64 + 64 ∧ l ≠ []
      let whole := a ≤ g * 64 ∧ g * 64 + 64 ≤ a + l.length
      (psn = true → (g ∈ t.poison ↔ g ∈ s.poison ∨ touched)) ∧ (psn = false → (g ∈ t.poison ↔ g ∈ s.poison ∧ ¬ whole)))

/-- R253, R254, R259, R266, R269, R271: the HBM controllers and the mesh of a die: reads merge or read the stack, an uncorrectable granule
is recorded and reads as poison until a read finds it good, a timeout of an access on this node and a hot stack are recorded, a packet
discarded for its header loses its write, and the program-memory copy loads and saves syllables (the die whose counter moves is the
model's choice: log 14). -/
def Obligations.MeshAndStacksAct : Prop :=
  ∀ (s : State) (r : Requester) (d addr cycle target : Nat) (ecc : EccOutcome) (hot grp : Bool), d < 8 →
    (s.home addr = .hbm d →
      (s.flag d MSH_CTRL_MERGE_EN = true → (s.openMerges d cycle).any (fun m => m.2.1 == addr / 64) = true →
        Yields (exec (.hbmRead d addr ecc cycle) s) (fun t => t.counter 5 d 14 = satAdd 32 (s.counter 5 d 14) 1 ∧ t.regs = s.regs ∧
          t.poison = s.poison ∧ MemSame s t)) ∧
      (s.flag d MSH_CTRL_MERGE_EN = false →
        Yields (exec (.hbmRead d addr .clean cycle) s) (fun t => t.regs = s.regs ∧ t.poison = s.poison ∧ addr / 64 ∉ t.ueRead ∧
          MemSame s t) ∧
        Yields (exec (.hbmRead d addr .corrected cycle) s) (fun t => t.poison = s.poison ∧ MemSame s t ∧
          RegOnly { s with merges := t.merges, ueRead := t.ueRead } t d HBC_CE_CNT_COUNT.off ∧ addr / 64 ∉ t.ueRead ∧
          t.fld d HBC_CE_CNT_COUNT = satAdd 32 (s.fld d HBC_CE_CNT_COUNT) 1) ∧
        Yields (exec (.hbmRead d addr .uncorrectable cycle) s) (fun t => addr / 64 ∈ t.ueRead ∧ t.poison = s.poison ∧ MemSame s t ∧
          t.fld d HBC_UE_CNT_COUNT = satAdd 32 (s.fld d HBC_UE_CNT_COUNT) 1 ∧ t.flag d HBC_EVENT_UE = true ∧
          t.rg64 (dkey d HBC_ERR_ADDR_LO_ADDR.off) = addr / 64 * 64 % 2 ^ 64))) ∧
    (s.isLocal addr = false → ∀ hdr : Bool, exec (.meshTimeout d addr hdr) s = .next s.settle) ∧
    (∀ hdr : Bool, s.isLocal addr = true → Yields (exec (.meshTimeout d addr hdr) s) (fun t => t.flag d MSH_EVENT_TIMEOUT = true ∧
      t.rg64 (dkey d MSH_ERR_ADDR_LO_ADDR.off) = addr % 2 ^ 64 ∧ MemSame s t ∧
      (hdr = false ∨ s.lostWrite addr = none → t.cores = s.cores ∧ t.inflight = s.inflight) ∧
      (∀ (w : PWrite) (k : Nat), hdr = true → s.lostWrite addr = some (w, k) →
        (∃ more : List PWrite, t.inflight = s.inflight.eraseIdx k ++ more) ∧ w.cmd ∈ t.errCmds) ∧
      t.fld d MSH_ERR_CNT_HDR = satAdd 16 (s.fld d MSH_ERR_CNT_HDR) (b2n hdr) ∧ (hdr = true → t.flag d MSH_EVENT_PARITY = true))) ∧
    Yields (exec (.stackHot d hot) s) (fun t => t.flag d HBC_STATUS_HOT = hot ∧ MemSame s t ∧
      (hot = true → s.flag d HBC_STATUS_HOT = false → t.flag d HBC_EVENT_HOT = true)) ∧
    (let units := s.fld d MSH_PMC_RANGE_UNITS
     let first := s.fld d MSH_PMC_RANGE_FIRST
     let g := s.rg64 (dkey d MSH_PMC_HBM_LO_ADDR.off)
     let a := localOf g
     let l := s.pmcTargets d grp (target % 2048)
     s.loader r = true → s.expert r = true → s.flag d MSH_PMC_CMD_BUSY = false → l ≠ [] →
     (∀ st ∈ l, ∀ th : Fin 4, s.halted st th = true) → 0 < units → first + units ≤ 1024 → s.isLocal g = true →
     (∀ j : Nat, j < units → hbmIn (a + 128 * j) 128 = true) →
     ((∀ j : Nat, j < units → s.poisoned (a + 128 * j) 128 = false ∧ (unitSyls (s.bytes (a + 128 * j) 128)).isSome = true) →
       Yields (exec (.pmcLoad r d grp ⟨target, .ok⟩) s) (fun t => t.flag d MSH_PMC_CMD_BUSY = true ∧ get (0, 0) t.copies d = (0, units) ∧
         MemSame s t ∧ ∀ st ∈ l, ∀ j : Nat, j < 64 * units →
           get 0 (t.core st).pm (64 * first + j) = BitVec.ofNat 14 (s.le (a + 2 * j) 2))) ∧
     (grp = false → Yields (exec (.pmcSave r d grp ⟨target, .ok⟩) s) (fun t => t.flag d MSH_PMC_CMD_BUSY = true ∧
       get (0, 0) t.copies d = (0, units) ∧ t.cores = s.cores ∧ MemBut s t a (128 * units) ∧
       ∀ j : Nat, j < 64 * units → t.le (a + 2 * j) 2 = (get 0 (s.core (target % 2048)).pm (64 * first + j)).toNat))) ∧
    (s.flag d MSH_PMC_CMD_BUSY = true → Yields (exec (.pmcCopyComplete d) s) (fun t => t.flag d MSH_PMC_CMD_BUSY = false ∧
      t.fld d MSH_PMC_STATUS_RESULT = (get (0, 0) s.copies d).1 % 2 ^ 8 ∧ t.fld d MSH_PMC_STATUS_DONE = (get (0, 0) s.copies d).2 % 2 ^ 16 ∧
      get (0, 0) t.copies d = (0, 0) ∧ MemSame s t))

/-- R32 to R36, R42, R43, R445, R447: the curtain falls after a period of the internal source, on a qualifying edge or mark of an external
one, and at the end of its window without one, which is a miss; a pulse qualifies that the deglitch filter passes (R445); sources are
armed and switched, the clock of the next frame is fixed and the time of a qualifying pulse captured. Details that the spec leaves open
are the model's choices: log 38, 54. -/
def Obligations.CurtainsFall : Prop :=
  ∀ (s : State) (r : Requester) (at_ src low high : Nat),
    let u := s.tick at_
    let e : Pulse := ⟨at_, low, high⟩
    let edged (t : State) : Prop := t.pins.curArmed = Pulse.rearms e s.pins.curArmed
    let p := s.fld 0 CUR_PERIOD_PERIOD
    let fell (c : Nat) (t : State) : Prop := t.frame = s.frame + 1 ∧ t.curtainAt = max s.now c ∧ t.guardOn = false ∧ t.clockFixed = false
    (s.flag 0 CUR_STATUS_RUN = true →
      (s.edgeAt = none → s.curMode = .internal ∨ s.curMode = .fallback →
        (s.curtainAt + p ≤ at_ → Yields (exec (.curtain at_) s) (fun t => fell (s.curtainAt + p) t ∧ t.now = max s.now at_)) ∧
        (at_ < s.curtainAt + p → exec (.curtain at_) s = .next u.settle)) ∧
      (∀ e : Nat, s.edgeAt = some e → e ≤ at_ → Yields (exec (.curtain at_) s) (fun t => fell e t ∧ t.curMode = .locked)) ∧
      (s.edgeAt = none → s.curMode = .locked →
        (s.pinsTaken = false → Pulse.qualifies e s.pins.curArmed = true → s.fld 0 CUR_CTRL_SRC = 1 →
          (at_ + 200 < s.curtainAt + s.nominal → Yields (exec (.curtainInEdge e) s) (fun t => t.flag 0 CUR_EVENT_PERIOD_ERR = true ∧
            t.frame = s.frame ∧ t.curtainAt = s.curtainAt ∧ t.curMode = .locked ∧ edged t)) ∧
          (s.curtainAt + s.nominal ≤ at_ + 200 → at_ + 200 ≤ s.windowEnd → s.now ≤ at_ →
            Yields (exec (.curtainInEdge e) s) (fun t => fell (at_ + 200) t ∧ edged t)) ∧
          (s.windowEnd < at_ + 200 → s.curtainAt + s.nominal ≤ at_ + 200 →
            exec (.curtainInEdge e) s = .next { u with pins := { u.pins with curArmed := Pulse.rearms e s.pins.curArmed } }.settle)) ∧
        (s.windowEnd ≤ at_ → Yields (exec (.flywheelCurtain at_) s) (fun t => fell s.windowEnd t ∧ t.flag 0 CUR_EVENT_MISS = true ∧
          t.now = max s.now at_)) ∧
        (at_ < s.windowEnd → exec (.flywheelCurtain at_) s = .next u.settle)) ∧
      (s.edgeAt = none → s.curMode = .acquiring → s.curtainAt + 2 * p ≤ at_ →
        Yields (exec (.acquisitionTimeout at_) s) (fun t => fell (s.curtainAt + 2 * p) t ∧ t.curMode = .fallback ∧
          t.flag 0 CUR_STATUS_FALLBACK = true ∧ t.fld 0 CUR_STATUS_ACT_SRC = 0 ∧ t.flag 0 CUR_EVENT_FALLBACK = true)) ∧
      (s.clockFixed = false → s.closeAt - 20000 ≤ max s.now at_ → Yields (exec (.clockFix at_) s) (fun t =>
        t.clockFixed = true ∧ t.overpower = false ∧ t.fld 0 CUR_CLK_NEXT = u.chooseStep ∧ t.frame = s.frame))) ∧
    (s.flag 0 CUR_STATUS_FALLBACK = true → Yields (exec (.arm r) s) (fun t => t.curMode = .acquiring ∧ t.edgeAt = none ∧
      t.flag 0 CUR_STATUS_FALLBACK = false ∧ t.fld 0 CUR_STATUS_MISS_CNT = 0 ∧ t.frame = s.frame)) ∧
    (s.flag 0 CUR_STATUS_FALLBACK = false → exec (.arm r) s = .next s.settle) ∧
    (src < 3 → src ≠ s.fld 0 CUR_CTRL_SRC → Yields (exec (.sourceSwitch r src) s) (fun t => t.fld 0 CUR_CTRL_SRC = src ∧
      t.curMode = (if src = 0 then .internal else .acquiring) ∧ t.edgeAt = none ∧ t.fld 0 CUR_STATUS_MISS_CNT = 0 ∧
      t.frame = s.frame ∧ t.curtainAt = s.curtainAt)) ∧
    (s.pinsTaken = false →
      (Pulse.qualifies e s.pins.curArmed = false →
        exec (.curtainInEdge e) s = .next { u with pins := { u.pins with curArmed := Pulse.rearms e s.pins.curArmed } }.settle) ∧
      (Pulse.qualifies e s.pins.ppsArmed = true → Yields (exec (.ppsEdge e) s) (fun t =>
        t.rg64 (dkey 0 CUR_PPS_LO_TIME.off) = max s.now at_ % 2 ^ 64 ∧ t.pins.ppsArmed = Pulse.rearms e s.pins.ppsArmed)) ∧
      (Pulse.qualifies e s.pins.ppsArmed = false →
        exec (.ppsEdge e) s = .next { u with pins := { u.pins with ppsArmed := Pulse.rearms e s.pins.ppsArmed } }.settle)) ∧
    (s.pinsTaken = true → ∀ c ∈ [Instr.curtainInEdge e, .ppsEdge e], exec c s = .next u.settle) ∧
    ((high < 200 ∨ (low < 200 ∧ s.pins.curArmed = false)) → Pulse.qualifies e s.pins.curArmed = false) ∧
    (200 ≤ low → 200 ≤ high → ∀ b : Bool, Pulse.qualifies e b = true ∧ Pulse.rearms e b = false)

/-- R38, R39, R51, R52, R57, R59, R272, R439: the box office closes once a frame, refuses requests in the order of its checks, opens the
guard band, where an act that used more than its certificate is held and the patrol scrubbers move on and poison what they find beyond
correction (R272), and releases an act; a refresh burst holds the budgets for 8 µs. R45, R46, R51, R52, R64: past the checks of its
stream, a request is refused by an act invalid or not permitted (0x2), by a spanning count used up (0x5) or slots that fit no member
(0xE), and by the first of its charges over its class share (0xB) or over what is left of its budget (0x3 to 0xA); accepted, it is charged
to every budget at once, placed in the fullest open batch that takes it, or in a new one on the member with the most cycles left. A close
decides every request due and shows what it admitted and refused. Details that the spec leaves open are the model's choices: log 36, 49,
54. -/
def Obligations.BoxOfficeDecides : Prop :=
  ((∀ (s : State) (r : Requester) (at_ d act : Nat) (v : Bool) (found : List Scrubbed),
     let u := s.tick at_
     (s.flag 0 CUR_STATUS_RUN = true →
       (s.closedFor ≤ s.frame → s.closeAt ≤ max s.now at_ → Yields (exec (.boxOfficeClose at_) s) (fun t =>
         t.closedFor = s.frame + 1 ∧ t.now = max s.now at_ ∧ t.frame = s.frame)) ∧
       (s.frame < s.closedFor → exec (.boxOfficeClose at_) s = .next u.settle) ∧
       (s.guardOn = false → s.curtainAt + s.nominal - 8000 ≤ max s.now at_ → Yields (exec (.guardBandStart ⟨at_, found⟩) s) (fun t =>
         t.guardOn = true ∧ t.refreshOn = true ∧ t.frame = s.frame ∧
         ∀ k : Nat, k < 8 → s.flag k HBC_SCRUB_EN = true →
           get 0 t.scrub k = (get 0 s.scrub k + s.fld k HBC_SCRUB_RATE) % stackGranules ∧
           ∀ x ∈ found, x.ecc = .uncorrectable → s.scrubs k x.addr = true → t.poison.contains (x.addr / 64) = true)) ∧
       (s.now ≤ at_ → s.refreshOn = false → u.burstAt at_ = true → Yields (exec (.refreshBurst at_) s) (fun t =>
         t.now = at_ + 8000 ∧ t.refreshOn = false ∧ (s.softStage = 0 → t.cores = u.cores ∧ MemSame s t)))) ∧
     (∀ p ∈ s.used, s.certOf p.1 p.2.1 p.2.2.1 < s.useOf p.1 p.2.1 p.2.2.1 → (meterDie p.2.1 p.2.2.1, p.1) ∈ s.breaches.heldActs) ∧
     Yields (exec (.actRelease r d act) s) (fun t => (d, act % 4096) ∉ t.heldActs ∧ t.regs = s.regs ∧
       ∀ p : Nat × Nat, p ≠ (d, act % 4096) → (p ∈ t.heldActs ↔ p ∈ s.heldActs)) ∧
     (d < 8 →
       (v = false ∨ (List.range 8).any s.hbmPromised = false → Yields (exec (.boxEnable r d v) s) (fun t =>
         t.flag d BOX_CTRL_EN = v ∧ RegOnly s t d BOX_CTRL_EN.off)) ∧
       (v = true → (List.range 8).any s.hbmPromised = true → Yields (exec (.boxEnable r d v) s) (fun t =>
         t.flag 0 PWR_EVENT_CFG = true ∧ t.flag d BOX_CTRL_EN = s.flag d BOX_CTRL_EN)))) ∧
   (∀ (s : State) (x : Slice) (shut : Bool) (p code at_ : Nat) (q : Req),
     let st := q.stream
     let a := s.actOfStream st
     let latest (l : Nat) : Prop := ∃ c b g : Nat, q.host = some (c, b, l, g)
     let alone := q.trig = none ∧ q.cont = none
     let refuses (c : Nat) : Prop := s.test x shut p code at_ q = (x, .refused c)
     (shut = true → refuses 0xD) ∧
     (shut = false → ∀ l : Nat, latest l → alone → l < s.frame + 1 → refuses 0xC) ∧
     (shut = false → (¬ alone ∨ ∀ l : Nat, latest l → s.frame + 1 ≤ l) →
       (s.ent st eLife ≠ 1 → refuses 0x1) ∧
       (s.ent st eLife = 1 → s.doomed.contains st = false → s.heldActs.contains (x.die, a) = true → refuses 0x2) ∧
       (s.ent st eLife = 1 → s.doomed.contains st = false → s.heldActs.contains (x.die, a) = false →
         actV (s.act a) = true → bitOf (actCtxMask (s.act a)) (s.ent st eCtx) = true → actSpan (s.act a) = false →
         actStgSize (s.act a) < s.slotUnits st (s.act a) → refuses 0xE)))) ∧
  ((∀ (s : State) (x : Slice) (p code at_ : Nat) (q : Req),
     let st := q.stream
     let a := s.actOfStream st
     let e := s.act a
     let cls := s.reqClass q
     let ms := s.members x.die a at_
     let u := s.slotUnits st e
     let size := actStgSize e
     let decided := s.test x false p code at_ q
     let refuses (c : Nat) : Prop := decided = (x, .refused c)
     let takes (b : OpenBatch) : Prop := b.act = a ∧ b.streams.length < actBatchMax e ∧ b.units + u ≤ size
     let cap (k : Nat) : Nat := s.capacity x.die (k / 2048) p code
     let above (c : Nat × Nat × Nat) : Prop :=
       s.fld x.die (BOX_CLASS_SHARE_SHARE cls) * cap c.1 < (get 0 x.byClass (c.1 * 8 + cls) + c.2.1) * 256
     let spent (c : Nat × Nat × Nat) : Prop := cap c.1 < get 0 x.used c.1 + c.2.1
     let weighed (site : Nat) (fresh : Bool) (bs : List OpenBatch) : Prop :=
       let l := stepCharges e site fresh
       (∀ (l₁ l₂ : List (Nat × Nat × Nat)) (c : Nat × Nat × Nat), l = l₁ ++ c :: l₂ → (∀ y ∈ l₁, ¬ above y ∧ ¬ spent y) →
         (above c → refuses 0xB) ∧ (¬ above c → spent c → refuses c.2.2)) ∧
       ((∀ y ∈ l, ¬ above y ∧ ¬ spent y) → decided.2 = .placed site ∧ decided.1.batches = bs ∧
         ∀ c ∈ l, get 0 decided.1.used c.1 = get 0 x.used c.1 + c.2.1 ∧
           get 0 decided.1.byClass (c.1 * 8 + cls) = get 0 x.byClass (c.1 * 8 + cls) + c.2.1)
     (q.trig = none → q.cont = none → ∀ c b l g : Nat, q.host = some (c, b, l, g) → s.frame + 1 ≤ l) →
     s.ent st eLife = 1 → s.doomed.contains st = false → s.heldActs.contains (x.die, a) = false →
     (actV e = false ∨ bitOf (actCtxMask e) (s.ent st eCtx) = false → refuses 0x2) ∧
     (actV e = true → bitOf (actCtxMask e) (s.ent st eCtx) = true →
       (actSpan e = true →
         (get 0 x.left a = 0 → refuses 0x5) ∧
         (0 < get 0 x.left a →
           ((∀ b ∈ x.batches, b.act = a → b.site ∈ ms → size < b.units + u) → refuses 0xE) ∧
           ((∃ b ∈ x.batches, b.act = a ∧ b.site ∈ ms ∧ b.units + u ≤ size) → ∃ site ∈ ms, decided.2 = .placed site ∧
             decided.1.used = x.used ∧ get 0 decided.1.left a = get 0 x.left a - 1))) ∧
       (actSpan e = false → u ≤ size →
         (∀ (i : Nat) (b : OpenBatch), x.batches[i]? = some b → takes b → b.site < 2048 →
           (∀ (j : Nat) (c : OpenBatch), x.batches[j]? = some c → takes c → c.streams.length < b.streams.length ∨
             (c.streams.length = b.streams.length ∧ (b.site < c.site ∨ (b.site = c.site ∧ i ≤ j)))) →
           weighed b.site false (x.batches.set i { b with streams := b.streams ++ [st], units := b.units + u })) ∧
         ((∀ b ∈ x.batches, ¬ takes b) →
           (ms = [] → refuses 0xE) ∧
           ∀ m ∈ ms, m < 2048 → (∀ k ∈ ms, get 0 x.used (budKey 0 m) < get 0 x.used (budKey 0 k) ∨
               (get 0 x.used (budKey 0 m) = get 0 x.used (budKey 0 k) ∧ m ≤ k)) →
             weighed m true (x.batches ++ [⟨a, m, [st], u⟩]))))) ∧
   (∀ (s : State) (q : Req) (site : Nat),
     let t := s.acceptReq q site
     t.ent q.stream ePend = 0 ∧ t.ent q.stream eAdm = 1 ∧ t.ent q.stream ePendAge = 0 ∧ (∀ y ∈ t.reqs, y.stream ≠ q.stream) ∧
     ∃ x : Step, t.steps = s.steps ++ [x] ∧ x.stream = q.stream ∧ x.frame = s.frame + 1 ∧ x.site = site ∧ x.phase = .accepted) ∧
   ∀ (s : State) (d at_ p code : Nat), d < 8 →
     let r := s.closeSlice d at_ p code
     let n := (r.2.codes.filter (· == 0)).length
     r.2.codes.length = ((s.dropPassed d at_).due d at_).length ∧
     r.1.fld d BOX_ADMIT_COUNT = n % 2 ^ 18 ∧ r.1.fld d BOX_REFUSE_COUNT = (r.2.codes.length - n) % 2 ^ 18 ∧
     r.1.flag d BOX_EVENT_DONE = true ∧ (r.2.codes.any capacityCode = true → r.1.flag d BOX_EVENT_REFUSED = true) ∧
     (s.lgrFree d < lgrRoom → r.1.flag d LGR_EVENT_STOP = true) ∧
     (s.sliceShut d = true → ∀ c ∈ r.2.codes, c = 0xD) ∧
     ∀ (xs : List Slice) (k : Nat), (∀ b ∈ xs.flatMap Slice.batches, actSpan (s.nextSet.act b.act) = false) →
       ((s.placeAll xs true).core k).placed = (s.core k).placed ++
         ((xs.flatMap Slice.batches).filter (fun b => b.site == k)).map (fun b => ⟨b.act, s.frame + 1, b.streams, b.streams.length, false, 0⟩))

/-- R67, R68, R70, R71, R78, R253, R254: a doorbell moves an intake ring's TAIL unless more records would be posted than the ring holds;
the ready rings of a unit are served in turn; a record fetched is discarded and counted where malformed, forwarded to its home die where
that is another, or kept until there is room for it there, and processed otherwise, its request merged or its sample taken; a forwarded
record is processed at home, or stops the die's fetching where it does not fit its allowance, which then begins again with it. Details
that the spec leaves open are the model's choices: log 36, 48. -/
def Obligations.RecordsAreTaken : Prop :=
  ∀ (s : State) (r : Requester) (d ring at_ : Nat) (v : Word) (what : Arrival), d < 8 → ring < 8 →
    let u := s.tick at_
    let posts := (v.toNat + 2 ^ 32 - s.fld d (ITK_RING_HEAD_HEAD ring)) % 2 ^ 32
    let head := u.fld d (ITK_RING_HEAD_HEAD ring)
    let n := head % 2 ^ u.fld d (ITK_RING_CTL_LOG2 ring)
    let b := u.hostBytes (u.rg64 (dkey d (ITK_RING_BASE_LO_ADDR ring).off) + 32 * n) 32
    let ctx := u.fld d (ITK_RING_CTL_CTX ring)
    let w := recLe b 0 4
    let x := bitsOf w 0 18
    let came := u.carry none 0 d 32
    let next (t : State) : Prop := get 0 t.itkTurn d = (ring + 1) % 8
    let past (t : State) : Prop := next t ∧ t.fld d (ITK_RING_HEAD_HEAD ring) = (head + 1) % 2 ^ 32
    let idle (t : State) : Prop := t.cb = u.cb ∧ t.reqs = u.reqs
    let room (h : Nat) : Prop := (u.fwd.filter (fun p => p.1 == h)).length < 1024
    (posts ≤ 2 ^ s.fld d (ITK_RING_CTL_LOG2 ring) → Yields (exec (.intakeDoorbell r d ring v) s) (fun t =>
      t.fld d (ITK_RING_TAIL_TAIL ring) = v.toNat ∧ RegOnly s t d (ITK_RING_TAIL_TAIL ring).off)) ∧
    (2 ^ s.fld d (ITK_RING_CTL_LOG2 ring) < posts → Yields (exec (.intakeDoorbell r d ring v) s) (fun t =>
      t.fld d (ITK_RING_TAIL_TAIL ring) = s.fld d (ITK_RING_TAIL_TAIL ring) ∧ t.fld d ITK_ERR_RING_RING = ring ∧
      t.flag d ITK_EVENT_PTR_ERR = true)) ∧
    (u.itkReady d ring = false ∨ u.itkHasTurn d ring = false → exec (.intakeFetch d ring at_ what) s = .next u.settle) ∧
    (∃ k : Nat, k < 8 ∧ ((∃ j : Nat, j < 8 ∧ u.itkReady d j = true) → u.itkReady d k = true ∧ u.itkHasTurn d k = true)) ∧
    (u.itkReady d ring = true → u.itkHasTurn d ring = true →
      (∀ f : Fwd, u.kept d ring = some f → Yields (exec (.intakeFetch d ring at_ what) s) (fun t => past t ∧ idle t ∧
        t.kept d ring = none ∧ t.fwd = u.fwd ++ [(recHome f.bytes, f)])) ∧
      (u.kept d ring = none →
        (what ≠ .ok → Yields (exec (.intakeFetch d ring at_ what) s) (fun t => t.flag d (ITK_RING_CTL_EN ring) = false ∧
          t.fld d ITK_ERR_RING_RING = ring ∧ t.flag d ITK_EVENT_RING_ERR = true ∧ idle t ∧ next t ∧
          (what = .parity → t.flag d MSH_EVENT_PARITY = true) ∧ (what = .busError → t.flag d MSH_EVENT_TIMEOUT = true))) ∧
        (u.linkUp = true →
          (malformed b = true → Yields (exec (.intakeFetch d ring at_ .ok) s) (fun t => past t ∧ idle t ∧
            t.counter 0 d 8 = satAdd 32 (u.counter 0 d 8) 1 ∧ t.flag d ITK_EVENT_MALFORMED = true)) ∧
          (malformed b = false → streamDie x ≠ d → room (streamDie x) →
            Yields (exec (.intakeFetch d ring at_ .ok) s) (fun t => past t ∧ idle t ∧ t.fwd = u.fwd ++ [(streamDie x, ⟨b, ctx, d⟩)])) ∧
          (malformed b = false → streamDie x ≠ d → ¬ room (streamDie x) →
            Yields (exec (.intakeFetch d ring at_ .ok) s) (fun t => next t ∧ idle t ∧ t.fwd = u.fwd ∧
              t.fld d (ITK_RING_HEAD_HEAD ring) = head ∧ t.kept d ring = some ⟨b, ctx, d⟩)) ∧
          (u.itkBehind d ring b = true → exec (.intakeFetch d ring at_ .ok) s = .next u.settle) ∧
          (malformed b = false → streamDie x = d → u.fwd.any (fun p => p.1 == d) = false →
            (w / 2 ^ 28 = 2 → u.ent x eLife = 0 ∨ u.ent x eCtx = ctx → u.reqs.any (fun q => q.stream == x) = false →
              Yields (exec (.intakeFetch d ring at_ .ok) s) (fun t => past t ∧ t.ent x ePend = 1 ∧ t.reqs = u.reqs ++
                [⟨x, none, none, some (recLe b 4 4 % 8, u.now, recLe b 8 8, recLe b 0x10 8)⟩])) ∧
            (u.ent x eLife ≠ 0 → u.ent x eCtx ≠ ctx → Yields (exec (.intakeFetch d ring at_ .ok) s) (fun t => past t ∧ idle t ∧
              t.flag d ITK_EVENT_FOREIGN = true)) ∧
            (w / 2 ^ 28 = 1 → u.ent x eLife ≠ 0 → u.ent x eCtx = ctx → recLe b 4 4 = u.ent x eNextSeq → u.ent x eHeldMask = 0 →
              (came.itkFits (came.itkProcess b ctx) d = true → Yields (exec (.intakeFetch d ring at_ .ok) s) (fun t => past t ∧
                t.ent x eNextSeq = (u.ent x eNextSeq + 1) % 2 ^ 32 ∧ t.ent x eHeldMask = 0 ∧ t.ent x eLife = u.ent x eLife)) ∧
              (came.itkFits (came.itkProcess b ctx) d = false → Yields (exec (.intakeFetch d ring at_ .ok) s) (fun t => next t ∧ idle t ∧
                t.fld d (ITK_RING_HEAD_HEAD ring) = head ∧ t.itkStop.contains d = true ∧ t.itkNext.contains (d, ring) = true ∧
                t.flag d ITK_EVENT_CAP = true))))))) ∧
    (u.itkMay d fromForward = false → exec (.forwardedRecord d ⟨at_, what⟩) s = .next u.settle) ∧
    (∀ (f : Fwd) (rest : List (Nat × Fwd)), u.itkMay d fromForward = true → takeOf d u.fwd = some (f, rest) →
      (u.itkFits (u.itkProcess f.bytes f.ctx) d = true →
        exec (.forwardedRecord d ⟨at_, .ok⟩) s = .next { (u.itkProcess f.bytes f.ctx).itkResumed d with fwd := rest }.settle) ∧
      (u.itkFits (u.itkProcess f.bytes f.ctx) d = false → Yields (exec (.forwardedRecord d ⟨at_, .ok⟩) s) (fun t => t.fwd = u.fwd ∧
        idle t ∧ t.itkStop.contains d = true ∧ t.itkNext.contains (d, fromForward) = true ∧ t.flag d ITK_EVENT_CAP = true)) ∧
      (what = .parity ∨ what = .busError → Yields (exec (.forwardedRecord d ⟨at_, what⟩) s) (fun t => t.fwd = rest ∧ idle t)))

/-- R65, R66, R253, R254, R366: the callboard's commands read, write, suspend, resume and free an entry and copy entries from and to HBM;
an entry whose words are lost leaves its stream suspended with cause 5. Details that the spec leaves open are the model's choices: log 33,
48. -/
def Obligations.CallboardObeys : Prop :=
  ∀ (s : State) (r : Requester) (d x : Nat) (w : Arrival), d < 8 →
    let run (c : Instr) (res : Nat) (p : State → Prop) : Prop := Yields (exec c s) (fun t =>
      p t ∧ t.fld d CB_STATUS_RESULT = res ∧ t.fld d CB_CMD_STREAM = x ∧ MemSame s t ∧ t.steps = s.steps)
    let same (t : State) : Prop := t.cb = s.cb
    let img := s.cbData d
    let n := s.fld d CB_COPY_CNT_COUNT
    let g := s.rg64 (dkey d CB_COPY_LO_ADDR.off)
    let a := localOf g
    let all := [Instr.cbRead r d x, .cbWrite r d x, .cbSuspend r d x, .cbResume r d x, .cbFree r d x, .cbCopyIn r d ⟨x, w⟩, .cbCopyOut r d ⟨x, w⟩]
    (s.cbUser r = false → ∀ c ∈ all, Yields (exec c s) (fun t => RegOnly s t d (EVG_SRC_PEND 647).off ∧ t.fld d (EVG_SRC_PEND 647) = 1)) ∧
    (s.cbUser r = true → s.flag d CB_CMD_BUSY = true → ∀ c ∈ all, exec c s = .next s.settle) ∧
    (s.cbUser r = true → s.flag d CB_CMD_BUSY = false → streamDie x = d → x < 2 ^ 18 →
      run (.cbRead r d x) 0 (fun t => same t ∧ t.cbData d = s.entry x) ∧
      (s.writeResult x img = 0 → run (.cbWrite r d x) 0 (fun t => (∀ f ∈ hFields, t.ent x f = f.of img) ∧
        (∀ y : Nat, y ≠ x → t.entry y = s.entry y) ∧
        (s.writesFresh x = true → t.ent x eLife = 1 ∧ t.ent x eStream = x ∧ t.ent x eNextSeq = eNextSeq.of img) ∧
        (s.writesFresh x = false → t.ent x eLife = s.ent x eLife ∧ t.ent x eNextSeq = s.ent x eNextSeq))) ∧
      (s.writeResult x img ≠ 0 → run (.cbWrite r d x) (s.writeResult x img) same) ∧
      (s.writesFresh x = false → run (.cbSuspend r d x) 0 (fun t => t.ent x eLife = 2 ∧ t.ent x eSusp = 1)) ∧
      (s.writesFresh x = true → run (.cbSuspend r d x) 7 same) ∧
      (s.ent x eLife = 2 → 1 ≤ s.ent x eSusp → s.ent x eSusp ≤ 4 →
        run (.cbResume r d x) 0 (fun t => t.ent x eLife = 1 ∧ t.ent x eSusp = 0 ∧ t.ent x ePendAge = 0)) ∧
      (s.ent x eLife ≠ 2 → run (.cbResume r d x) 7 same) ∧
      (s.stepBusy x = false → run (.cbFree r d x) 0 (fun t => t.ent x eLife = 0 ∧ ∀ y : Nat, y ≠ x → t.entry y = s.entry y)) ∧
      (s.stepBusy x = true → s.ent x eLife = 1 → run (.cbFree r d x) 1 same) ∧
      (0 < n → s.isLocal g = true → (∀ j : Nat, j < n → hbmIn (a + 64 * j) 64 = true ∧ streamDie (x + j) = d ∧ x + j < 2 ^ 18) →
        ((∀ j : Nat, j < n → s.poisoned (a + 64 * j) 64 = false ∧ s.writeResult (x + j) (s.le (a + 64 * j) 64) = 0) →
          Yields (exec (.cbCopyIn r d ⟨x, .ok⟩) s) (fun t => t.flag d CB_CMD_BUSY = true ∧ get (0, 0) t.copies (8 + d) = (0, n) ∧ MemSame s t ∧
            ∀ j : Nat, j < n → ∀ f ∈ hFields, t.ent (x + j) f = f.of (s.le (a + 64 * j) 64))) ∧
        Yields (exec (.cbCopyOut r d ⟨x, .ok⟩) s) (fun t => t.flag d CB_CMD_BUSY = true ∧ get (0, 0) t.copies (8 + d) = (0, n) ∧ same t ∧
          MemBut s t a (64 * n) ∧ ∀ j : Nat, j < n → t.le (a + 64 * j) 64 = s.entry (x + j)) ∧
        (ringAcross d a = true →
          (∀ c ∈ [Instr.cbCopyIn r d ⟨x, .busError⟩, .cbCopyOut r d ⟨x, .busError⟩], Yields (exec c s) (fun t => same t ∧
            get (0, 0) t.copies (8 + d) = (6, 0) ∧ t.flag d MSH_EVENT_TIMEOUT = true)) ∧
          Yields (exec (.cbCopyIn r d ⟨x, .parity⟩) s) (fun t => same t ∧ get (0, 0) t.copies (8 + d) = (8, 0) ∧
            t.flag d MSH_EVENT_PARITY = true)))) ∧
    (s.flag d CB_CMD_BUSY = true → Yields (exec (.cbCopyComplete d) s) (fun t => t.flag d CB_CMD_BUSY = false ∧ same t ∧ MemSame s t ∧
      t.fld d CB_STATUS_RESULT = (get (0, 0) s.copies (8 + d)).1 % 2 ^ 8 ∧
      t.fld d CB_COPY_CNT_DONE = (get (0, 0) s.copies (8 + d)).2 % 2 ^ 16 ∧ get (0, 0) t.copies (8 + d) = (0, 0))) ∧
    (x < 2 ^ 18 → Yields (exec (.callboardEccError x) s) (fun t => t.ent x eLife = 2 ∧ t.ent x eSusp = 5 ∧ t.ent x eStream = x ∧
      t.stepOf x = none ∧ t.flag (streamDie x) CHK_EVENT_CB_ECC = true ∧
      t.counter 4 (streamDie x) 11 = satAdd 32 (s.counter 4 (streamDie x) 11) 1))

/-- R57, R64, R79 to R82, R240, R253, R254, R342, R364, R369: a placed batch is staged on its member and, where that is free, begun and
its stage cue signalled; where a batch runs there it waits staged behind it; the strike of an ended slot commits its step, holds it where
it is suspect and aborts it where its bytes read as poison, or meet a parity error or no answer on their way; nothing is staged or begun
in a stop or a reset, nor behind a batch of a context in rehearsal that the debugger has stopped; a held step due for replay is placed on
an understudy, or aborted where there is no replay capacity. Details that the spec leaves open are the model's choices: log 39, 49. -/
def Obligations.DirectorsStageAndStrike : Prop :=
  ∀ (s : State) (site d slot at_ : Nat) (st : Step),
    let u := s.tick at_
    let x := st.stream
    (∀ (p : Placed) (rest : List Placed) (u1 : State) (base : Nat),
      let e := u.act p.act
      let n := u.channels x
      let units := u.ent x eStateUnits
      let half := u.halfAddr x (u.ent x eHalf)
      let len := 64 * (1 + n + units) + u.egrRoom st.act
      u.good site = true → u.workShut = false → u.rehStopped site = false → (u.core site).placed = p :: rest → u.safe site = false →
      p.frame ≤ u.frame →
      p.replay = false → u.stepsOf p = [st] → u.ent x eSeen = 0 → hbmIn half (64 * units) = true →
      u.poisoned half (64 * units) = false → u.stageRoom site (actStgReg e) (u.slotUnits x e) = some (u1, base) →
      (u1.directorPad none (streamDie x) site (base * 64) len true).2 = false →
      let staged (t : State) : Prop := (t.core site).placed = rest ∧ t.ent x eAdm = 0 ∧ t.ent x eRun = 1 ∧
        (t.stepOf x).map Step.phase = some .running ∧
        t.bytes (padBase site + base * 64 + 64 * (1 + n)) (64 * units) = u.bytes half (64 * units)
      (∀ b : Running, (u.core site).batch = some b → Yields (exec (.stageBatch site ⟨at_, .ok⟩) s) (fun t => staged t ∧
        (t.core site).batch = some b ∧ (t.core site).bud = (u.core site).bud ∧ t.signals = u.signals ∧
        ∃ q : Ready, (t.core site).queued = (u.core site).queued ++ [q] ∧ q.run.act = p.act ∧ q.run.frame = p.frame ∧ q.base = base ∧
          q.bud = min (2 ^ 32 - 1) (actCycBatch e + p.n * actCycStep e) ∧ q.run.slots.map SlotRec.stream = [x])) ∧
      ((u.core site).batch = none → (u.core site).queued = [] → Yields (exec (.stageBatch site ⟨at_, .ok⟩) s) (fun t => staged t ∧
        (∃ b : Running, (t.core site).batch = some b ∧ b.act = p.act ∧ b.frame = p.frame ∧ b.started = false ∧
          b.slots.map SlotRec.stream = [x]) ∧
        (t.core site).stgCount = 0x80000001 ∧ (t.core site).stgBase = BitVec.ofNat 32 (base * 64) ∧
        (t.core site).bud = min (2 ^ 32 - 1) (actCycBatch e + p.n * actCycStep e) ∧ (t.core site).lines = [] ∧
        t.signals = u.signals ++ [⟨site, none, actStgCue e, actCtx e, true, 1, [], 0⟩]))) ∧
    (u.workShut = true → ∀ w : Arrival, ∀ c ∈ [Instr.stageBatch site ⟨at_, w⟩, .replayStage d ⟨at_, w⟩], exec c s = .next u.settle) ∧
    (u.rehStopped site = true → ∀ w : Arrival, exec (.stageBatch site ⟨at_, w⟩) s = .next u.settle) ∧
    (∀ (q : Ready) (rest : List Ready), u.good site = true → u.workShut = false → u.safe site = false → (u.core site).batch = none →
      (u.core site).queued = q :: rest → Yields (exec (.stageBatch site ⟨at_, .ok⟩) s) (fun t =>
        (∃ b : Running, (t.core site).batch = some b ∧ b.act = q.run.act ∧ b.frame = q.run.frame ∧ b.slots = q.run.slots) ∧
        (t.core site).queued = rest ∧ (t.core site).bud = q.bud ∧ (t.core site).lines = [] ∧
        (t.core site).stgBase = BitVec.ofNat 32 (q.base * 64) ∧
        t.signals = u.signals ++ [⟨site, none, actStgCue (u.act q.run.act), q.run.ctx, true, 1, [], 0⟩])) ∧
    (∀ (b : Running) (r : SlotRec),
      let front := 64 * (1 + r.nchan)
      let half := u.halfAddr x (1 - u.ent x eHalf)
      let psn := u.poisoned (padBase site + r.off + front) (r.len - front)
      u.resetting ≠ .stopped → (u.core site).batches.find? (strikable slot) = some b → b.slots[slot]? = some r → u.stepOf r.stream = some st →
      r.stream = x → st.phase = .running → st.act = b.act → st.frame = b.frame →
      let shut := (u.directorPad (some st.act) (streamDie x) site (r.off + front) (r.len - front) false).2
      (shut = true → Yields (exec (.strike site slot ⟨at_, .ok⟩) s) (fun t => t.stepOf x = none ∧ t.ent x eHalf = u.ent x eHalf ∧
        t.ent x eLife = 2 ∧ t.ent x eSusp = 4 ∧ t.ent x eRun = 0 ∧ t.flag (streamDie x) SD_EVENT_ADDR_FAULT = true ∧ MemSame u t)) ∧
      (shut = false →
        Yields (exec (.strike site slot ⟨at_, .parity⟩) s) (fun t => t.stepOf x = none ∧ t.ent x eHalf = u.ent x eHalf ∧
          t.ent x eLife = 2 ∧ t.ent x eSusp = 3 ∧ t.flag (streamDie x) MSH_EVENT_PARITY = true ∧ MemSame u t) ∧
        Yields (exec (.strike site slot ⟨at_, .busError⟩) s) (fun t => t.stepOf x = none ∧ t.ent x eHalf = u.ent x eHalf ∧
          t.ent x eLife = 2 ∧ t.ent x eSusp = 4 ∧ t.flag (streamDie x) MSH_EVENT_TIMEOUT = true ∧ MemSame u t)) ∧
      (shut = false → psn = true → Yields (exec (.strike site slot ⟨at_, .ok⟩) s) (fun t => t.stepOf x = none ∧ t.ent x eHalf = u.ent x eHalf ∧
        t.ent x eLife = 2 ∧ t.ent x eSusp = 3 ∧ t.ent x eRun = 0 ∧ MemSame u t)) ∧
      (shut = false → psn = false → actAud (u.act st.act) = false → 0 < r.units → hbmIn half (64 * r.units) = true →
        (r.suspect = 0 → r.cont = false → Yields (exec (.strike site slot ⟨at_, .ok⟩) s) (fun t => t.stepOf x = none ∧
          t.ent x eHalf = 1 - u.ent x eHalf ∧ t.ent x eStepCnt = (u.ent x eStepCnt + 1) % 2 ^ 32 ∧ t.ent x eRun = 0 ∧
          t.bytes half (64 * r.units) = u.slotState site r ∧ MemBut u t half (64 * r.units) ∧
          (∃ e : EgrRec, t.backlog = u.backlog ++ [(streamDie x, e)] ∧ e.stream = x ∧ e.status = 0 ∧ e.frame = st.frame ∧
            e.tag = st.tag ∧ e.stepCnt = (u.ent x eStepCnt + 1) % 2 ^ 32))) ∧
        (r.suspect ≠ 0 → (u.directorPad (some st.act) (streamDie x) site r.off front false).2 = false →
          hbmIn (u.holdAddr x) (128 + 64 * r.nchan) = true → Yields (exec (.strike site slot ⟨at_, .ok⟩) s) (fun t =>
          (t.stepOf x).map Step.phase = some .held ∧ t.ent x eHeld = 1 ∧ t.ent x eRun = 0 ∧ t.ent x eHalf = u.ent x eHalf ∧
          t.backlog = u.backlog)))) ∧
    (d < 8 → u.workShut = false → u.rplDue d u.frame = [st] →
      let packed := u.packOne ⟨u.rplUsed, [], []⟩ (u.fld 0 CUR_CLK_CUR) d st
      (∀ v ∈ u.understudies (partner d), (u.core v).placed = []) →
      (packed.2 = .none_ → Yields (exec (.replayStage d ⟨at_, .ok⟩) s) (fun t => t.stepOf x = none ∧ t.ent x eHeld = 0 ∧ t.ent st.req.stream ePend = 1 ∧
        t.flag (streamDie x) CHK_EVENT_NO_RPL = true ∧ t.cores = u.cores)) ∧
      (∀ (y : Pack) (w : Nat) (b : OpenBatch), packed = (y, .placed w) → y.batches = [b] → (u.core b.site).placed = [] →
        (u.core b.site).resident = none → Yields (exec (.replayStage d ⟨at_, .ok⟩) s) (fun t => t.rplUsed = y.used ∧
          (t.core b.site).placed = [⟨b.act, u.frame, b.streams, b.streams.length, true, d⟩] ∧
          (t.stepOf x).map Step.site = some w ∧ (t.stepOf x).map Step.rpl = some u.frame)))

/-- R27, R30, R68, R83, R85, R86, R87, R253, R254, R394, R395: a record is written to its egress ring at TAIL, after the pad or the
discard notice that stands before it, or waits where the ring has no room; a completion, which its coalescing limit forces, makes it
visible and sends the ring's vector; a parity error on the mesh poisons what is written, and no answer is a timeout; a write that the root
complex refuses sets PCIE_ERR; the host returns slots, unmasks a vector, and a deadline is judged once a frame. Details that the spec
leaves open are the model's choices: log 40, 49, 54. -/
def Obligations.EgressDelivers : Prop :=
  ∀ (s : State) (q : Requester) (d k at_ v : Nat) (z : Word) (w : Arrival),
    let u := s.tick at_
    let f := u.egrForce (max s.now at_)
    let calm : Prop := d = 0 ∨ (w ≠ .parity ∧ w ≠ .busError)
    (s.now < at_ → s.softStage = 0 → s.pcie.bme = true → u.linkUp = true → ∀ o ∈ u.egrOwed, o ∈ s.egrOwed ∧
      at_ ≤ o.2.2 + min 10000 (s.fld o.1 EGR_CTRL_COAL)) ∧
    (∀ (r : EgrRec) (rest : List (Nat × EgrRec)), takeRec d (fun r => !r.fresh) u.backlog = none →
      takeRec d EgrRec.fresh u.backlog = some (r, rest) →
      let tail := u.fld d (EGR_RING_TAIL_TAIL r.ring)
      let size := 2 ^ u.fld d (EGR_RING_CTL_LOG2 r.ring)
      let base := u.rg64 (dkey d (EGR_RING_BASE_LO_ADDR r.ring).off)
      let a := base + 64 * (tail % size)
      let key := egrKey d r.ring
      let seq := get 0 u.egrSeq key
      let lost := get 0 u.egrDropped key
      let n := 1 + r.len
      let gap := u.egrToEnd d r.ring
      let b (j : Nat) : List Byte := { u with egrSeq := put 0 u.egrSeq key ((seq + j) % 2 ^ 32) }.egrHeader d r ++ r.payload
      let put_ (j m : Nat) (t : State) : Prop := t.backlog = rest ∧ t.fld d (EGR_RING_TAIL_TAIL r.ring) = (tail + m) % 2 ^ 32 ∧
        get 0 t.egrSeq key = (seq + j) % 2 ^ 32 ∧ get 0 t.egrCount key = (get 0 u.egrCount key + m) % 2 ^ 64 ∧
        t.egrOwed.any (fun (a, b, _) => a == d && b == r.ring) = true ∧ MemSame u t
      (u.egrReady d r = true → d ≠ 0 →
        Yields (exec (.egressRecord d at_ ⟨false, .parity⟩) s) (fun t => t.flag d MSH_EVENT_PARITY = true ∧ t.backlog = rest ∧
          t.hostPoisoned a (b 0).length = true) ∧
        Yields (exec (.egressRecord d at_ ⟨false, .busError⟩) s) (fun t => t.flag d MSH_EVENT_TIMEOUT = true ∧ t.backlog = rest ∧
          t.fld d (EGR_RING_TAIL_TAIL r.ring) = (tail + n) % 2 ^ 32)) ∧
      (u.egrReady d r = true → calm → seq < 2 ^ 32 →
        Yields (exec (.egressRecord d at_ ⟨false, w⟩) s) (fun t => put_ 1 n t ∧ t.hostBytes a (b 0).length = b 0) ∧
        Yields (exec (.egressRecord d at_ ⟨true, w⟩) s) (fun t => t.host = u.host ∧ t.flag d EGR_EVENT_PCIE_ERR = true ∧
          t.fld d (EGR_RING_TAIL_TAIL r.ring) = (tail + n) % 2 ^ 32 ∧ MemSame u t)) ∧
      (u.egrOn d r.ring = true → calm → u.egrShort d r.ring n = true → gap + n ≤ u.egrFree d r.ring → seq < 2 ^ 32 →
          r.payload.length ≤ 64 * r.len →
        Yields (exec (.egressRecord d at_ ⟨false, w⟩) s) (fun t => put_ 2 (gap + n) t ∧ t.hostBytes base (b 1).length = b 1 ∧
          t.hostBytes (a + 3) 1 = [0xFF])) ∧
      (u.egrOn d r.ring = true → calm → lost ≠ 0 → u.egrFree d r.ring ≠ 0 → u.waitingBytes d + r.size ≤ 0x100000 →
          r.payload.length ≤ 64 * r.len →
        Yields (exec (.egressRecord d at_ ⟨false, w⟩) s) (fun t => get 0 t.egrDropped key = 0 ∧ t.hostBytes (a + 3) 1 = [0xFE] ∧
          t.hostBytes (a + 0x2C) 4 = leBytes 4 lost)) ∧
      (u.egrOn d r.ring = false ∨ (lost ≠ 0 ∧ u.egrFree d r.ring = 0) ∨ (lost = 0 ∧ u.egrShort d r.ring n = true ∧ u.egrFree d r.ring < gap) ∨
          (lost = 0 ∧ n ≤ gap ∧ u.egrFree d r.ring < n) →
        u.waitingBytes d + r.size ≤ 0x100000 → ∀ ref : Bool, Yields (exec (.egressRecord d at_ ⟨ref, w⟩) s) (fun t =>
          t.host = u.host ∧ t.backlog.length = u.backlog.length ∧ (d, { r with fresh := false }) ∈ t.backlog ∧
          t.fld d (EGR_RING_TAIL_TAIL r.ring) = tail ∧ (u.egrOn d r.ring = true → t.flag d EGR_EVENT_FULL = true)))) ∧
    (u.egrOwed.any (fun (a, b, _) => a == d && b == k) = false → exec (.egressCompletion d k at_ ⟨false, w⟩) s = .next u.settle) ∧
    (u.pcie.bme = true → u.linkUp = true →
      let n := u.fld d (EGR_RING_CTL_MSIX k)
      (calm → u.egrOwed.any (fun (a, b, _) => a == d && b == k) = true → Yields (exec (.egressCompletion d k at_ ⟨false, w⟩) s) (fun t =>
        t.hostBytes (u.rg64 (dkey d (EGR_RING_CPL_LO_ADDR k).off)) 16 =
          leBytes 8 (get 0 u.egrCount (egrKey d k)) ++ leBytes 4 (get 0 u.egrSeq (egrKey d k) + 2 ^ 32 - 1) ++ leBytes 4 0 ∧
        t.egrOwed.any (fun (a, b, _) => a == d && b == k) = false ∧
        (∀ y ∈ t.deliveries, y.die = d → y.ring = k → y.written = true → y.visible ≠ none) ∧
        (u.flag d (EGR_RING_CTL_MSI_EN k) = false → t.out = u.out) ∧
        (u.flag d (EGR_RING_CTL_MSI_EN k) = true → u.msixOpen n = true → (get 0 u.pcie.msixTab n).toNat % 2 ^ 64 ≠ 0 →
          t.out = u.out ++ [.msix n]))) ∧
      (calm → u.egrOwed.any (fun (a, b, _) => a == d && b == k) = true → Yields (exec (.egressCompletion d k at_ ⟨true, w⟩) s) (fun t =>
        t.host = u.host ∧ t.deliveries = u.deliveries ∧ t.flag d EGR_EVENT_PCIE_ERR = true))) ∧
    (d < 8 → k < 64 →
      let head := s.fld d (EGR_RING_HEAD_HEAD k)
      let tail := s.fld d (EGR_RING_TAIL_TAIL k)
      let used (h : Nat) : Nat := (tail + 2 ^ 32 - h) % 2 ^ 32
      (used z.toNat ≤ used head → Yields (exec (.egressHeadWrite q d k z) s) (fun t => t.fld d (EGR_RING_HEAD_HEAD k) = z.toNat ∧
        RegOnly s t d (EGR_RING_HEAD_HEAD k).off)) ∧
      (used head < used z.toNat → Yields (exec (.egressHeadWrite q d k z) s) (fun t => t.fld d (EGR_RING_HEAD_HEAD k) = head ∧
        t.flag d EGR_EVENT_PTR_ERR = true))) ∧
    (v < 2048 →
      let e := get 0 s.pcie.msixTab v
      let n := setBits e.toNat 96 1 0
      Yields (exec (.msixUnmask v) s) (fun t => (get 0 t.pcie.msixTab v).toNat = n ∧ t.regs = s.regs ∧
        (v ∉ s.pcie.msixPend → t.out = s.out) ∧
        (v ∈ s.pcie.msixPend → s.pcie.fmask = false → s.pcie.bme = true → s.linkUp = true → n % 2 ^ 64 ≠ 0 →
          t.out = s.out ++ [.msix v] ∧ v ∉ t.pcie.msixPend))) ∧
    (s.flag 0 CUR_STATUS_RUN = true → s.deadlineFor < s.frame → s.curtainAt + 25000 ≤ max s.now at_ →
      Yields (exec (.deliveryDeadline at_) s) (fun t => t.deadlineFor = s.frame ∧ t.fld 0 CUR_DELIV_LAST = f.lastDelivery ∧
        ∀ y : Delivery, y ∈ t.deliveries ↔ y ∈ f.deliveries ∧ u.pastDue y.frame y.held = false))

/-- R365, R371, R376 to R380: an understudy is given the act of its next replay; a core due for quarantine is halted in safe mode and its
steps are lost; the last understudy of the die takes the place of a quarantined member; a thread stopped at L2 is dealt with by its cause.
Details that the spec leaves open are the model's choices: log 39. -/
def Obligations.ManagersKeepTheCast : Prop :=
  ∀ (s : State) (site act v tq at_ : Nat) (th : Fin 4) (why : QuarCause),
    let u := s.tick at_
    let d := dieOf site
    (s.prepares site act = true →
      let w := ((s.quench site).modCore site (fun c => { c with resident := none })).loadAct site act
      (w.2 = true → Yields (exec (.replayPrepare site act) s) (fun t => (t.core site).resident = some act ∧
        ∀ x : Fin 4, bitOf (w.1.le (actImg (w.1.act act) + 4) 4) x.val = false →
          t.halted site x = false ∧ (t.thr site x).pc = BitVec.ofNat 16 (w.1.entryPc site x))) ∧
      (w.2 = false → Yields (exec (.replayPrepare site act) s) (fun t => (t.core site).resident = none ∧ (d, act) ∈ t.loadErr ∧
        t.flag d CHK_EVENT_LOAD_ERR = true ∧ ∀ p ∈ (t.core site).placed, p.replay = true → p.act ≠ act))) ∧
    (u.quarOwed site why = true →
      Yields (exec (.quarantine site why at_) s) (fun t => (t.core site).role = .quarantined ∧ t.fld d CHK_LAST_KIND = QuarCause.kind why ∧ t.fld d CHK_LAST_SITE = site ∧
        t.flag d CHK_EVENT_QUAR = true ∧ t.quarOwed site why = false ∧
        ((∀ x : Fin 4, (u.thr site x).wait = none) → (t.core site).batch = none ∧ (t.core site).placed = [] ∧ t.safe site = true ∧ (∀ x : Fin 4, t.halted site x = true) ∧
          t.counter 4 d 7 = satAdd 32 (u.counter 4 d 7) 1 ∧ ∀ st ∈ u.steps, u.lostWith site st = true → t.stepOf st.stream = none))) ∧
    (u.promoteOwed site = some tq →
      let q := u.placeOf site
      let w := (((u.carryReplays v).modCore v (fun c => c.noBatch)).quench v).loadActs v (u.actsOf q)
      (u.lastUnd d = none → exec (.promotion site at_) s = .next u.settle) ∧
      (u.lastUnd d = some v → w.2 = none → Yields (exec (.promotion site at_) s) (fun t => (t.core v).role = .worker ∧
        (q, v, tq) ∈ t.replaced ∧ t.flag (dieOf v) CHK_EVENT_PROMOTE = true)) ∧
      (u.lastUnd d = some v → ∀ a : Nat, w.2 = some a → Yields (exec (.promotion site at_) s) (fun t => (t.core v).resident = none ∧
        t.flag (dieOf v) CHK_EVENT_LOAD_ERR = true ∧ (dieOf v, a) ∈ t.loadErr))) ∧
    (u.good site = true → (u.thr site th).l2wait = true → (u.thr site th).level = .l2 → (u.core site).batch = none →
      (∀ x : Fin 4, (u.thr site x).wait = none) →
      let cause := bitsOf (u.thr site th).sv2.cause.toNat 0 8
      Yields (exec (.machineCheckHandling site th at_) s) (fun t => t.flag d CHK_EVENT_MCHK = true ∧
        (cause = 0x30 → t.halted site th = true ∧ (t.thr site th).l2wait = false ∧
          t.counter 4 d 10 = satAdd 32 (u.counter 4 d 10) 1) ∧
        (cause = 0x31 → t.quarDue.any (fun p => p.1 == site) = true) ∧
        (cause = 0x32 → t.halted site th = false ∧ (t.thr site th).level = .l0 ∧ (t.thr site th).l2wait = false ∧
          (t.thr site th).pc = BitVec.ofNat 16 (u.entryPc site th)))) ∧
    (∀ b : Running, u.good site = true → (u.thr site th).l2wait = true → (u.core site).batch = some b → b.replay = false →
      b.claimed = 0 → (u.core site).ended = [] → bitsOf (u.thr site th).sv2.cause.toNat 0 8 = 0x31 →
      Yields (exec (.machineCheckHandling site th at_) s) (fun t => (t.core site).batch = none ∧
        ∀ st ∈ u.unended b, t.stepOf st.stream = none))

/-- R381, R385: four collected records land as one granule at the tail of the ring, which moves on by four and reports the frame's mark;
EN takes a ring within the die's stack, and its clearing waits for the records owed. Details that the spec leaves open are the model's
choices: log 34. -/
def Obligations.LedgersFill : Prop :=
  ∀ (s : State) (r : Requester) (d : Nat),
    let tail := s.fld d LGR_TAIL_TAIL
    let base := s.rg64 (dkey d LGR_BASE_LO_ADDR.off)
    let log := s.fld d LGR_CTRL_LOG2
    let a := base + 16 * (tail % 2 ^ log)
    (∀ (w x y z : BitVec 128) (rest : List (BitVec 128)), s.lgrWaiting d = w :: x :: y :: z :: rest → hbmIn a 64 = true →
      Yields (exec (.ledgerGranuleLand d) s) (fun t =>
        t.bytes a 64 = [w, x, y, z].flatMap (fun (n : BitVec 128) => leBytes 16 n.toNat) ∧ MemBut s t a 64 ∧
        t.fld d LGR_TAIL_TAIL = (tail + 4) % 2 ^ 32 ∧ t.lgrWaiting d = rest ∧ (∀ k : Nat, k ≠ d → t.lgrWaiting k = s.lgrWaiting k) ∧
        (look s.lgrMark d = some ((tail + 4) % 2 ^ 32 + 1) →
          t.fld d LGR_MARK_TAIL = (tail + 4) % 2 ^ 32 ∧ t.flag d LGR_EVENT_FRAME = true ∧ look t.lgrMark d = none))) ∧
    (s.lgrWaiting d = [] → exec (.ledgerGranuleLand d) s = .next s.settle) ∧
    (d < 8 → s.flag d LGR_CTRL_EN = false →
      (stackIn d base (16 * 2 ^ log) = true →
        Yields (exec (.ledgerEnable r d) s) (fun t => t.flag d LGR_CTRL_EN = true ∧ RegOnly s t d LGR_CTRL_EN.off)) ∧
      (stackIn d base (16 * 2 ^ log) = false → exec (.ledgerEnable r d) s = .next s.settle) ∧
      exec (.ledgerDisable r d) s = .next s.settle) ∧
    (d < 8 → s.flag d LGR_CTRL_EN = true → Yields (exec (.ledgerDisable r d) s) (fun t => t.flag d LGR_CTRL_EN = true ∧
      d ∈ t.lgrOwing ∧ t.regs = s.regs ∧ t.lgrBuf = s.lgrBuf))

/-- R212, R213, R402: a group is read into the data registers, or written into the shadow set where no swap is pending and its checks
pass. R215 to R219, R225, R226: at a group's boundary a marked row's candidate slot is written from its live slot and gradients, which are
zeroed with the mark, and the free map copy names the candidate; with the engine off every row is carried. Details that the spec leaves
open are the model's choices: log 35, 50. -/
def Obligations.GroupsAreUpdated : Prop :=
  (∀ (s : State) (r : Requester) (d g : Nat), d < 8 → g < 1024 →
     let shows (e : BitVec 1024) (t : State) : Prop :=
       (∀ i : Nat, i < 32 → t.fld d (UPD_GRP_DATA_DATA i) = bitsOf e.toNat (32 * i) 32) ∧ t.fld d UPD_GRP_STATUS_RESULT = 0 ∧
       t.grpA = s.grpA ∧ t.grpS = s.grpS ∧ MemSame s t
     let e := s.grpData d
     let n := s.grpResult d g e
     Yields (exec (.grpReadActive r d g) s) (shows (get 0 s.grpA (grpKey d g))) ∧
     Yields (exec (.grpReadShadow r d g) s) (shows (get 0 s.grpS (grpKey d g))) ∧
     Yields (exec (.grpReadEta r d g) s) (fun t => t.fld d (UPD_GRP_DATA_DATA 0) = (get 0 s.etas (grpKey d g)).toNat ∧
       t.fld d UPD_GRP_STATUS_RESULT = 0 ∧ t.grpA = s.grpA ∧ MemSame s t) ∧
     (s.swapPending = true → Yields (exec (.writeShadow r d g) s) (fun t => t.fld 0 CFG_SS_STATUS_WERR = 1 ∧
       RegOnly s t 0 CFG_SS_STATUS_WERR.off)) ∧
     (s.swapPending = false → n = 0 → Yields (exec (.writeShadow r d g) s) (fun t => get 0 t.grpS (grpKey d g) = e ∧
       t.fld d UPD_GRP_STATUS_RESULT = 0 ∧ t.grpA = s.grpA ∧
       ∀ k : Nat, k ≠ grpKey d g → get 0 t.grpS k = get 0 s.grpS k)) ∧
     (s.swapPending = false → n ≠ 0 → Yields (exec (.writeShadow r d g) s) (fun t => t.grpS = s.grpS ∧
       t.fld d UPD_GRP_STATUS_RESULT = n))) ∧
  (∀ (s : State) (d k r cycles : Nat),
     let g := grpAt s.grpA d k
     let half := (s.frame - g.phase) / g.uper % 2
     let copy := s.mapCopy g s.frame
     let live := s.mapSlot g copy r
     let fresh := ((List.range 3).find? (fun c => c != s.le (g.map + 8) 1 && c != s.le (g.map + 9) 1)).getD 0
     let src := g.param + (3 * r + live) * g.slot
     let dst := g.param + (3 * r + (live + 1) % 3) * g.slot
     let mark := g.grad + half * g.ghalf + 4 * r
     let grad := g.grad + half * g.ghalf + g.marksz + r * g.rowb * 128
     let one : Val := .fin false 1 0
     let c (beta : Val) : Val := fsub one (powVal beta (f32 (natVal (s.updates g + 1))))
     let out := (g.rowBlocks (value 1 (get 0 s.etas (grpKey d k)).toNat) (c g.beta1) (c g.beta2) (s.bytes src g.slot)
       (s.bytes grad (g.rowb * 128)) (s.le mark 4) 0 ⟨s.updGens d, Counts.zero, 0, 0⟩ (s.bytes dst g.slot) g.rowb).2
     (boundaryGroups s.grpA d s.frame).filter (fun k => !s.ranAt d k) = [k] → s.guardOn = false →
     (s.flag d UPD_CTRL_EN = false → Yields (exec (.updateBoundary d) s) (fun t => t.fld d UPD_ROWS_DONE_ROWS = 0 ∧
       t.fld d UPD_ROWS_CARRY_ROWS = (s.markedRows g half).length % 2 ^ 32 ∧ MemSame s t ∧ t.ranAt d k = true)) ∧
     (s.flag d UPD_CTRL_EN = true → s.markedRows g half = [r] → (g.dense = true ∨ 1 ≤ g.maxrows) →
       cycles = performCycles s.nominal (s.fld 0 CUR_CLK_CUR) → g.scanCycles + g.rowCycles ≤ cycles → 0 < g.rowCycles →
       g.areasOk d = true → out.length = g.slot →
       Yields (exec (.updateBoundary d) s) (fun t => t.bytes dst g.slot = out ∧
         t.bytes grad (g.rowb * 128) = List.replicate (g.rowb * 128) 0 ∧ t.le mark 4 = 0 ∧
         t.mapSlot g fresh r = (live + 1) % 3 ∧
         (∀ x : Nat, x < g.rows → x ≠ r → t.mapSlot g fresh x = s.mapSlot g copy x) ∧
         t.fld d UPD_ROWS_DONE_ROWS = 1 ∧ t.fld d UPD_ROWS_CARRY_ROWS = 0 ∧ t.ranAt d k = true ∧
         (∀ b : Nat, (∀ p ∈ g.areas, ¬ (p.1 ≤ b ∧ b < p.1 + p.2)) → t.byte b = s.byte b))))

/-- R335 to R340, R411: the taken source goes to its target, which stacks its priority, and is logged where that is a management core; its
group holds off; a hold-off ends at its instant; EOI takes the top of a target's stack; software raises a source of its own. Details that
the spec leaves open are the model's choices: log 40. -/
def Obligations.EventsAreDelivered : Prop :=
  ∀ (s : State) (r : Requester) (d n tg g at_ : Nat),
    let u := s.tick at_
    let prio := u.fld d (EVG_SRC_PRIO n)
    let set := u.fld d (EVG_SRC_TSET n)
    let hold := u.fld d (EVG_GRP_HOLD (n / 16))
    let vec := u.fld d (EVG_MSI_VECTOR (tg - 16))
    (d < 8 → u.flag d EVG_CTRL_EN = true → u.takeSource d = some n → u.firstTarget d set prio = some tg →
      Yields (exec (.eventDelivery d at_) s) (fun t => t.prioOf d tg = ⟨prio, n⟩ :: u.prioOf d tg ∧ t.rpri d tg = prio ∧
        (∀ x : Nat, x ≠ tg → x < 24 → t.prioOf d x = u.prioOf d x) ∧ t.fld d (EVG_TSET_LAST set) = tg ∧
        (0 < hold → t.holdoff = u.holdoff ++ [(d * 64 + n / 16, u.now + hold * 1000)]) ∧ (hold = 0 → t.holdoff = u.holdoff) ∧
        (d ≠ 0 → t.flag d (EVG_SRC_PEND n) = false) ∧
        (8 ≤ tg → tg < 16 → ¬ (720 ≤ n ∧ n ≤ 730) → t.log.any (fun r => r.source == n && r.die == d) = true) ∧
        (tg < 16 → bitOf (t.thr (targetThread d tg).1 (targetThread d tg).2).wake.toNat 19 = true) ∧
        (16 ≤ tg → (get 0 u.pcie.msixTab vec).toNat % 2 ^ 64 ≠ 0 →
          (u.msixOpen vec = true → t.out = u.out ++ [.msix vec]) ∧
          (u.msixOpen vec = false → vec ∈ t.pcie.msixPend ∧ t.out = u.out)))) ∧
    (u.takeSource d = none → exec (.eventDelivery d at_) s = .next u.settle) ∧
    (∀ due : Nat, (d * 64 + g, due) ∈ u.holdoff → due ≤ u.now → Yields (exec (.holdoffExpiry d g at_) s) (fun t =>
      t.holding d g = false ∧ (∀ p : Nat × Nat, p.1 ≠ d * 64 + g → (p ∈ t.holdoff ↔ p ∈ u.holdoff)))) ∧
    (d < 8 → tg < 24 →
      (∀ (e : GEntry) (l : List GEntry), s.prioOf d tg = e :: l → Yields (exec (.eoi r d tg) s) (fun t => t.prioOf d tg = l ∧
        t.regs = s.regs)) ∧
      (s.prioOf d tg = [] → Yields (exec (.eoi r d tg) s) (fun t => t.flag d EVG_ERR_EOI_EMPTY = true ∧ t.prioStk = s.prioStk))) ∧
    (d < 8 → (896 ≤ n ∧ n < 1024 → Yields (exec (.evgSwset r d n) s) (fun t => t.flag d (EVG_SRC_PEND n) = true ∧
        RegOnly s t d (EVG_SRC_PEND n).off)) ∧
      (¬ (896 ≤ n ∧ n < 1024) → exec (.evgSwset r d n) s = .next s.settle))

/-- R346, R348, R349, R350, R351, R362: a trained link is up on four lanes with its peer, with the credits of its buffers; one that goes
down, or is retrained by an expert, or has flits unacknowledged for 20 µs, is counted, and what it holds is gone but the requests that
wait for answers; a flit is accepted in sequence with its CRC right: what it acknowledges leaves the replay buffer, its credits let
requests go that wait for them, and a retry request has the rest sent again, no flit more than 8 times; any other flit is discarded and a
retry asked for. Details that the spec leaves open are the model's choices: log 12, 41, 55. -/
def Obligations.FabricLinks : Prop :=
  ∀ (s : State) (r : Requester) (d node port n at_ : Nat) (w : Trained) (x : Flit) (crc : BitVec 64), d < 8 → d < s.links.length →
    let l := s.link d
    let falls (t : State) : Prop := t.flag d ALF_STATUS_UP = false ∧ t.fld d ALF_STATUS_LANES = 0 ∧ t.flag d ALF_EVENT_DOWN = true ∧
      t.counter 3 d 2 = satAdd 32 (s.counter 3 d 2) 1 ∧ t.fabOut = s.fabOut ∧
      t.fabIn = s.fabIn.map (fun p => if p.1 = d then (p.1, { p.2 with lost := true }) else p) ∧
      (t.link d).replay = [] ∧ (t.link d).reqQ = [] ∧ (t.link d).respQ = [] ∧ (t.link d).reqCredit = 0 ∧ (t.link d).respCredit = 0 ∧
      (t.link d).hbmCredit = l.hbmCredit ∧ (t.link d).portCredit = l.portCredit
    let right : Prop := crc = Config.flitCrc (Flit.covered x) ∧ x.seq = l.rxSeq
    let kept := l.replay.filter (fun p => !acked x.ack p.1)
    let taken : PortLink := { l with
      rxSeq := (x.seq + 1) % 2 ^ 32
      replay := kept
      ackAt := if l.replay.any (fun p => acked x.ack p.1) then s.now else l.ackAt
      reqCredit := l.reqCredit + x.reqCredit
      respCredit := l.respCredit + x.respCredit }
    (s.flag d ALF_CTRL_EN = true → s.flag d ALF_STATUS_UP = false → Yields (exec (.fabricLinkUp d node port w) s) (fun t =>
      t.flag d ALF_STATUS_UP = true ∧ t.fld d ALF_STATUS_LANES = 15 ∧ t.fld d ALF_STATUS_PEER = node % 4096 + 4096 * (port % 16) ∧
      t.fld d ALF_DELAY_NS = w.delay % 65536 ∧ t.flag d ALF_EVENT_UP = true ∧
      t.link d = { l with rxSeq := 0, txSeq := 0, reqCredit := w.reqCredit, respCredit := w.respCredit })) ∧
    (s.flag d ALF_STATUS_UP = true →
      Yields (exec (.fabricLinkDown d) s) falls ∧
      (s.expert r = true → Yields (exec (.retrain r d) s) falls) ∧
      (right → x.retry = false →
        (l.reqQ = [] → l.respQ = [] → Yields (exec (.flitReceive d x n crc) s) (fun t => t.link d = taken ∧ t.out = s.out ∧
          t.counter 3 d 0 = satAdd 32 (s.counter 3 d 0) n)) ∧
        (∀ (m : Nat) (q : FabReq), l.reqQ = [(m, q)] → l.respQ = [] →
          let k := reqSlotBytes q.kind q.len / 16
          (k ≤ taken.reqCredit → Yields (exec (.flitReceive d x n crc) s) (fun t => (t.link d).reqQ = [] ∧
            (t.link d).reqCredit = taken.reqCredit - k ∧ Out.fabric d m q ∈ t.out)) ∧
          (taken.reqCredit < k → Yields (exec (.flitReceive d x n crc) s) (fun t => t.link d = taken ∧ t.out = s.out)))) ∧
      (right → x.retry = true → l.reqQ = [] → l.respQ = [] →
        ((∀ p ∈ kept, p.2 < 8) → Yields (exec (.flitReceive d x n crc) s) (fun t =>
          t.link d = { taken with replay := kept.map (fun p => (p.1, p.2 + 1)) } ∧
          t.out = s.out ++ kept.map (fun p => Out.flit d p.1 (x.seq % 2 ^ 31) 0 0))) ∧
        ((∃ p ∈ kept, 8 ≤ p.2) → Yields (exec (.flitReceive d x n crc) s) (fun t => t.flag d ALF_STATUS_UP = false ∧
          t.flag d ALF_EVENT_DOWN = true ∧ (t.link d).replay = []))) ∧
      (¬ right → Yields (exec (.flitReceive d x n crc) s) (fun t => t.link d = l ∧ t.flag d ALF_STATUS_UP = true ∧
        t.counter 3 d 1 = satAdd 32 (s.counter 3 d 1) 1 ∧ t.out = s.out ++ [.retry d ((l.rxSeq + 2 ^ 32 - 1) % 2 ^ 32)]))) ∧
    (s.now < at_ → l.replay ≠ [] → l.ackAt + 20000 < at_ → (s.tick at_).flag d ALF_STATUS_UP = false) ∧
    (s.flag d ALF_STATUS_UP = false → exec (.fabricLinkDown d) s = .next s.settle ∧
      exec (.flitReceive d x n crc) s = .next s.settle) ∧
    (s.expert r = false → exec (.retrain r d) s = .next (s.violation d).settle)

/-- R270, R288, R350 to R352, R354, R355, R357, R358, R360: a request is translated, or refused with status 2; it takes the credit of both
limiters or is held; it is performed at its home and answered, the answer waiting for slot credits of its class; where its link has gone
down since, it is performed and not answered. Details that the spec leaves open are the model's choices: log 41. -/
def Obligations.IncomingTransactions : Prop :=
  ∀ (s : State) (d at_ lctx : Nat) (q : FabReq) (waited lost : Bool) (rest : List (Nat × FabIn)), d < 8 → d < s.links.length →
    let u := (s.tick at_).growCredit d
    let answers (v : State) (status : Nat) (data : List Byte) (psn : BitVec 5) (t : State) : Prop :=
      let n := respSlotBytes q.kind q.len (status == 0)
      (n / 16 ≤ (v.link d).respCredit → t.fabAns = v.fabAns ++ [⟨d, q.node, status, data, psn⟩]) ∧
      ((v.link d).respCredit < n / 16 → t.fabAns = v.fabAns ∧ (t.link d).respQ = [(n, ⟨d, q.node, status, data, psn⟩)])
    (s.flag d ALF_STATUS_UP = true →
      (s.translate d q = none → (s.link d).respQ = [] → Yields (exec (.fabricRequest d q) s) (fun t => answers s 2 [] 0 t ∧
        t.fabIn = s.fabIn ∧ t.flag d ALF_EVENT_REFUSED = true ∧ t.counter 3 d 5 = satAdd 32 (s.counter 3 d 5) 1 ∧ MemSame s t)) ∧
      (s.translate d q = some lctx → Yields (exec (.fabricRequest d q) s) (fun t =>
        t.fabIn = s.fabIn ++ [(d, ⟨q, lctx, false, false⟩)] ∧ t.fabAns = s.fabAns ∧
        t.counter 3 d 4 = satAdd 32 (s.counter 3 d 4) (reqSlotBytes q.kind q.len) ∧ MemSame s t))) ∧
    (takeOf d u.fabIn = some (⟨q, lctx, waited, lost⟩, rest) →
      let l := u.link d
      let h := u.fabCharge q * 5000
      let p := (reqSlotBytes q.kind q.len + respSlotBytes q.kind q.len true) * 1000
      let run (f : State → Prop) : Prop := Yields (exec (.ingressAdmit d at_) s) (fun t => t.fabIn = rest ∧
        (t.link d).hbmCredit = l.hbmCredit - h ∧ (t.link d).portCredit = l.portCredit - p ∧ f t)
      (¬ (h ≤ l.hbmCredit ∧ p ≤ l.portCredit) →
        (waited = false → Yields (exec (.ingressAdmit d at_) s) (fun t => t.flag d ALF_EVENT_HOLD = true ∧
          t.counter 3 d 7 = satAdd 32 (u.counter 3 d 7) 1 ∧ t.fabAns = u.fabAns ∧ MemSame u t ∧
          (takeOf d t.fabIn).map Prod.fst = some ⟨q, lctx, true, lost⟩)) ∧
        (waited = true → exec (.ingressAdmit d at_) s = .next u.settle)) ∧
      (h ≤ l.hbmCredit → p ≤ l.portCredit → lost = true → l.respQ = [] →
        (u.home q.addr = .hbm d → q.kind = .write → q.data.length = q.len →
          run (fun t => t.fabAns = u.fabAns ∧ (t.link d).respQ = l.respQ ∧ t.bytes q.addr q.len = q.data)) ∧
        (q.kind = .read → run (fun t => t.fabAns = u.fabAns ∧ (t.link d).respQ = l.respQ ∧ MemSame u t))) ∧
      (h ≤ l.hbmCredit → p ≤ l.portCredit → lost = false → u.flag d ALF_STATUS_UP = true → l.respQ = [] →
        (q.kind ≠ .cue → u.fabHere d q = false → run (fun t => answers u 1 [] 0 t ∧ MemSame u t)) ∧
        (u.home q.addr = .hbm d →
          (q.kind = .read → run (fun t => answers u 0 (u.bytes q.addr q.len) (u.marks q.addr q.len) t ∧ MemSame u t)) ∧
          (q.kind = .write ∨ q.kind = .landing → q.data.length = q.len → run (fun t => answers u 0 [] 0 t ∧
            t.bytes q.addr q.len = q.data ∧ MemBut u t q.addr q.len ∧ (∀ g k : Nat, (g, k) ∈ (granules q.addr q.len).zipIdx →
              (q.poison.getLsbD k = true → t.poisoned (64 * g) 64 = true) ∧
              (q.poison.getLsbD k = false → q.addr ≤ 64 * g → 64 * g + 64 ≤ q.addr + q.len → t.poisoned (64 * g) 64 = false)))) ∧
          (q.kind = .atomicAdd → u.poisoned q.addr 4 = true → run (fun t => answers u 0 (leBytes 4 0) 1 t ∧ MemSame u t)) ∧
          (q.kind = .atomicAdd → u.poisoned q.addr 4 = false → run (fun t => answers u 0 (leBytes 4 (u.le q.addr 4)) 0 t ∧
            t.le q.addr 4 = (fabSum (u.inFadd d q.addr) (u.le q.addr 4) (leNat (q.data.take 4))).1 % 2 ^ 32 ∧
            MemBut u t q.addr 4))) ∧
        (q.kind = .cue → u.good q.site = true → dieOf q.site = d → ∀ c : Nat,
          (u.cueMap q.site lctx q.handle = some (c, true) → (∀ x : Fin 4, (u.thr q.site x).wait = none) →
            (∀ x ∈ (u.core q.site).chans, x.want = none) →
            run (fun t => answers u 0 [] 0 t ∧ t.cueCount q.site c = min (u.cueCount q.site c + q.inc) 65535)) ∧
          (u.cueMap q.site lctx q.handle = none → run (fun t => answers u 3 [] 0 t ∧
            t.cflag q.site CFG_CUE_EVENT_UNMAP = true)))))

/-- R350, R351, R352, R353, R354, R359, R361: a request leaves under a tag when its port holds slot credits for it and waits there until
then; an answer, or a timeout after its time, ends its request, whose load is given it; time marks leave every port that sends them and
bring an edge where they are received in time; a write of the node number sets every die's copy. Details that the spec leaves open are the
model's choices: log 8, 41. -/
def Obligations.OutgoingTransactions : Prop :=
  ∀ (s : State) (r : Requester) (d tag status lead frame at_ v : Nat) (data : List Byte) (psn : BitVec 5),
    let u := s.tick at_
    (∀ (o : FabOwner) (act : Option Nat) (g p : Nat) (q : FabReq), planeOf (localOf g) = some p → p < s.links.length →
      let y := s.fabSendMsg o act g q
      let k := reqSlotBytes q.kind q.len / 16
      (s.flag p ALF_STATUS_UP = false → y.2 = .ended 4 ∧ y.1.flag p ALF_EVENT_TIMEOUT = true ∧ y.1.fabOut = s.fabOut) ∧
      (s.flag p ALF_STATUS_UP = true → (s.link p).reqQ = [] → (s.link p).respQ = [] → y.2 = .sent s.nextTag ∧
        y.1.fabOut = s.fabOut ++ [⟨s.nextTag, o, q.kind, g, q.len, p, act, s.now⟩] ∧
        (k ≤ (s.link p).reqCredit → (y.1.link p).reqCredit = (s.link p).reqCredit - k ∧ (y.1.link p).reqQ = [] ∧
          Out.fabric p (nodeOf g) q ∈ y.1.out) ∧
        ((s.link p).reqCredit < k → (y.1.link p).reqQ = [(nodeOf g, q)] ∧ y.1.out = s.out))) ∧
    (s.fabOut.find? (fun f => f.tag == tag) = none → exec (.fabricResponse tag status data psn) s = .next s.settle) ∧
    (u.fabOut.find? (fun f => f.tag == tag) = none → exec (.fabricTimeout ⟨tag, at_⟩) s = .next u.settle) ∧
    (∀ f : FabOut, s.fabOut.find? (fun f => f.tag == tag) = some f →
      (s.flag f.port ALF_STATUS_UP = false → exec (.fabricResponse tag status data psn) s = .next s.settle) ∧
      (s.flag f.port ALF_STATUS_UP = true → status ≤ 3 →
        (status = 0 → f.kind = .read ∨ f.kind = .atomicAdd → data.length = f.len) →
        Yields (exec (.fabricResponse tag status data psn) s) (fun t => t.fabOut = s.fabOut.filter (fun g => g.tag != tag) ∧
          t.counter 3 f.port 4 = satAdd 32 (s.counter 3 f.port 4) (respSlotBytes f.kind f.len (status == 0)) ∧
          (∀ (site x : Nat) (l : Load), f.owner = .load site x → l ∈ (s.thr site (Fin.ofNat 4 x)).loads → l.tag = some tag →
            { l with resp := some (data, psn != 0, status) } ∈ (t.thr site (Fin.ofNat 4 x)).loads) ∧
          (∀ w : PWrite, f.owner = .write → s.inflight.find? (fun w => w.tag == some tag) = some w →
            (∀ y ∈ t.inflight, y.tag ≠ some tag) ∧ (status ≠ 0 → w.cmd ∈ t.errCmds))))) ∧
    (∀ f : FabOut, u.fabOut.find? (fun f => f.tag == tag) = some f →
      let due := f.left + max 1 (u.fld f.port ALF_TIMEOUT_US) * 1000
      (u.now < due → exec (.fabricTimeout ⟨tag, at_⟩) s = .next u.settle) ∧
      (due ≤ u.now → Yields (exec (.fabricTimeout ⟨tag, at_⟩) s) (fun t => t.fabOut = u.fabOut.filter (fun g => g.tag != tag) ∧
        t.flag f.port ALF_EVENT_TIMEOUT = true ∧ t.counter 3 f.port 6 = satAdd 32 (u.counter 3 f.port 6) 1 ∧
        (∀ (site x : Nat) (l : Load), f.owner = .load site x → l ∈ (u.thr site (Fin.ofNat 4 x)).loads → l.tag = some tag →
          { l with resp := some ([], false, 4) } ∈ (t.thr site (Fin.ofNat 4 x)).loads)))) ∧
    (u.flag 0 CUR_STATUS_RUN = true → u.fld 0 CUR_CTRL_SRC ≠ 2 → s.now ≤ at_ → at_ + 10000 = u.curtainAt + u.fld 0 CUR_PERIOD_PERIOD →
      Yields (exec (.timeMarkSend at_) s) (fun t => t.out = u.out ++ ((List.range 8).filter (fun d =>
        u.flag d ALF_TIME_SEND && u.flag d ALF_STATUS_UP)).map (fun d => Out.mark d 10000 ((u.frame + 1) % 2 ^ 32)))) ∧
    (d < 8 → u.fld 0 CUR_CTRL_SRC = 2 → u.flag d ALF_TIME_RECV = true → u.flag d ALF_STATUS_UP = true →
      let delay := u.fld d ALF_DELAY_NS
      let c := at_ + lead - delay
      (lead < delay + 200 → Yields (exec (.timeMarkReceive d lead frame at_) s) (fun t => t.flag d ALF_EVENT_MARK_MISS = true ∧
        t.edgeAt = u.edgeAt)) ∧
      (delay + 200 ≤ lead → u.flag 0 CUR_STATUS_RUN = true → u.edgeAt = none → u.curMode = .locked →
        Yields (exec (.timeMarkReceive d lead frame at_) s) (fun t =>
          t.fld d ALF_TIME_OFS_FRAMES = (frame % 2 ^ 32 + 2 ^ 32 - (u.frame + 1) % 2 ^ 32) % 2 ^ 32 ∧
          (u.curtainAt + u.nominal ≤ c → c ≤ u.windowEnd → t.edgeAt = some c) ∧
          (c < u.curtainAt + u.nominal → t.edgeAt = none ∧ t.flag 0 CUR_EVENT_PERIOD_ERR = true) ∧
          (u.curtainAt + u.nominal ≤ c → u.windowEnd < c → t.edgeAt = none)))) ∧
    Yields (exec (.nodeWrite r v) s) (fun t => ∀ d : Nat, d < 8 → t.fld d ALF_NODE_NODE = v % 4096)

/-- R6, R10, R253, R254, R268, R269, R270, R391, R392, R393, R394, R418: a host read brings a register's value or memory's bytes with the
poison among them, and a completer abort where a part may not be reached; a host write writes what it reaches, all or nothing; what
crosses the mesh is carried from die 0, and may meet a parity error or no answer; configuration space sizes BAR2 and masks the function.
Details that the spec leaves open are the model's choices: log 40, 52, 55. -/
def Obligations.HostAccesses : Prop :=
  ∀ (s : State) (bar off n : Nat) (data : List Byte) (ep : Bool) (w : Arrival),
    let a := s.barAddr bar off
    let d := off / 0x400000
    (s.hostOn bar off = false → exec (.hostRead bar off ⟨n, w⟩) s = .next s.settle ∧ exec (.hostWrite bar off data ⟨ep, w⟩) s = .next s.settle) ∧
    (s.linkUp = true → s.pcie.d3 = false → s.flag 0 PWR_STATUS_READY = true → s.hostOn bar off = true) ∧
    (s.hostOn bar off = true →
    (bar = 7 → 0 < n → off + n ≤ 4096 → Yields (exec (.hostRead bar off ⟨n, w⟩) s) (fun t => t.rdStatus = 0 ∧
        t.rdData = leBytes 4 (s.cfgRead off) ∧ bitOf (s.cfgRead 0) 3 = true)) ∧
    (bar = 7 → data.length = 4 →
      (off = 4 → 10 ≤ bitsOf (leNat data) 8 5 → bitsOf (leNat data) 8 5 ≤ 20 → Yields (exec (.hostWrite bar off data ⟨false, w⟩) s) (fun t =>
        t.bar2Size = 2 ^ 30 * 2 ^ (bitsOf (leNat data) 8 5 - 10) ∧ t.pcie.fmask = s.pcie.fmask)) ∧
      (off = 8 → Yields (exec (.hostWrite bar off data ⟨false, w⟩) s) (fun t => t.pcie.fmask = bitOf (leNat data) 14 ∧
        t.pcie.bar2Log = s.pcie.bar2Log))) ∧
    (bar = 0 → off < 0x2000000 → off % 4 = 0 →
      Yields (exec (.hostRead bar off ⟨4, .ok⟩) s) (fun t => t.rdStatus = 0 ∧
        t.rdData = leBytes 4 ((s.carry none d 0 4).readReg .host d (off % 0x400000)).2) ∧
      (data.length = 4 → ep = false → exec (.hostWrite bar off data ⟨ep, .ok⟩) s =
        .next ((s.carry none 0 d 4).writeReg .host d (off % 0x400000) (BitVec.ofNat 32 (leNat data))).settle) ∧
      (data.length = 4 → ep = true → exec (.hostWrite bar off data ⟨ep, .ok⟩) s = .next s.settle) ∧
      (d ≠ 0 → Yields (exec (.hostRead bar off ⟨4, .busError⟩) s) (fun t => t.rdStatus = 2 ∧ t.rdData = [] ∧
          t.flag 0 MSH_EVENT_TIMEOUT = true ∧ MemSame s t) ∧
        Yields (exec (.hostRead bar off ⟨4, .parity⟩) s) (fun t => t.rdStatus = 1) ∧
        (data.length = 4 → ep = false → exec (.hostWrite bar off data ⟨ep, .parity⟩) s =
          .next (((s.meshParity 0).carry none 0 d 4).writeReg .host d (off % 0x400000) (BitVec.ofNat 32 (leNat data))).settle))) ∧
    (bar = 2 ∨ bar = 4 → 0 < n → s.inBar bar off n = true →
      ((parts a n).any (fun p => s.hostRefused p.1 p.2 false) = false →
        Yields (exec (.hostRead bar off ⟨n, .ok⟩) s) (fun t => t.rdData = s.bytes a n ∧ t.rdStatus = b2n (s.poisoned a n) ∧ MemSame s t) ∧
        Yields (exec (.hostRead bar off ⟨n, .uncorrectable⟩) s) (fun t => t.rdStatus = 1 ∧ MemSame s t) ∧
        (s.hostCrosses bar off ≠ none → Yields (exec (.hostRead bar off ⟨n, .parity⟩) s) (fun t => t.rdStatus = 1 ∧
          t.flag 0 MSH_EVENT_PARITY = true ∧ MemSame s t))) ∧
      ((parts a n).any (fun p => s.hostRefused p.1 p.2 false) = true → Yields (exec (.hostRead bar off ⟨n, .ok⟩) s) (fun t =>
        t.rdData = [] ∧ t.rdStatus = 2 ∧ MemSame s t)) ∧
      (s.hostCrosses bar off ≠ none → Yields (exec (.hostRead bar off ⟨n, .busError⟩) s) (fun t => t.rdData = [] ∧ t.rdStatus = 2 ∧
        t.flag 0 MSH_EVENT_TIMEOUT = true ∧ MemSame s t)) ∧
      (data.length = n → (parts a n).any (fun p => s.hostRefused p.1 p.2 true) = false →
        Yields (exec (.hostWrite bar off data ⟨ep, .ok⟩) s) (fun t => t.bytes a n = data ∧ MemBut s t a n ∧ (ep = true → t.poisoned a n = true)) ∧
        (s.hostCrosses bar off ≠ none → Yields (exec (.hostWrite bar off data ⟨ep, .parity⟩) s) (fun t => t.bytes a n = data ∧
          MemBut s t a n ∧ t.poisoned a n = true ∧ t.flag 0 MSH_EVENT_PARITY = true))) ∧
      (data.length = n → (parts a n).any (fun p => s.hostRefused p.1 p.2 true) = true →
        Yields (exec (.hostWrite bar off data ⟨ep, .ok⟩) s) (fun t => MemSame s t ∧ t.cores = s.cores ∧ t.out = s.out ++ [.aer a])) ∧
      (data.length = n → s.hostCrosses bar off ≠ none → Yields (exec (.hostWrite bar off data ⟨ep, .busError⟩) s) (fun t =>
        t.flag 0 MSH_EVENT_TIMEOUT = true))))

/-- R6, R7, R10 to R12, R109, R110, R341: a register of a unit without actions takes the value each field's access gives it, and its E
fields only from an expert, a posted write being judged by the context that issued it; where its E fields would make a difference it is a
violation; the callboard's registers and the copy of program memory bar others than their users (R65, R266); a pair takes effect at its
_HI register and is read whole from its _LO; a broadcast writes every core addressed; the debug path is shut until it is opened. Details
that the spec leaves open are the model's choices: log 16. -/
def Obligations.RegistersAreWritten : Prop :=
  ∀ (s : State) (r : Requester) (d off : Nat) (v : Word) (row : RegRow), d < 8 → off < 0x1000000 → regRow d off = some row →
    let k := dkey d off
    let a := 0x020000000000 + k
    (isShadow k = false → cbGuarded off = false → row.fields.all (fun f => f.acc == .ro) = false →
      (off / 0x10000 ∈ [5, 7, 10, 15] → isLo off = false → isHi off = false → (s.expert r = true ∨ row.fields.any Fld.expert = false) →
        Yields (exec (.registerWrite r a v) s) (fun t => t.rg k = row.store (s.rg k) v.toNat % 2 ^ 32 ∧ RegOnly s t d off)) ∧
      (s.expert r = true → isLo off = true → Yields (exec (.registerWrite r a v) s) (fun t => t.regs = s.regs ∧ (whoOf r, k, v) ∈ t.loWr)) ∧
      (s.expert r = true → isLo off = false → isHi off = true → off - 4 ∉ [0xE0004, 0xF0010, 0xF0018, 0x12F000] →
        ∀ (rl : RegRow) (w : Word), regRow d (off - 4) = some rl →
          s.loWr.find? (fun p => p.1 == whoOf r && p.2.1 == dkey d (off - 4)) = some (whoOf r, dkey d (off - 4), w) →
          Yields (exec (.writeHi r a v) s) (fun t => t.rg64 (dkey d (off - 4)) =
            (rl.store (s.rg (dkey d (off - 4))) w.toNat + (row.store (s.rg k) v.toNat) <<< 32) % 2 ^ 64))) ∧
    ((s.regView d off).isSome = true → s.barred r off = true → exec (.registerWrite r a v) s = .next (s.violation d).settle) ∧
    ((s.regView d off).isSome = true → s.barred r off = false → s.expert r = false → row.fields.all Fld.expert = true →
      let kept := s.wrAny r d off row (row.basic ((s.regView d off).getD 0) v.toNat)
      (s.wrAny r d off row v.toNat ≠ kept → exec (.registerWrite r a v) s = .next (s.violation d).settle) ∧
      (s.wrAny r d off row v.toNat = kept → exec (.registerWrite r a v) s = .next s.settle)) ∧
    (∀ (q : Requester) (c : Nat), s.expert (.posted q c) = bitOf (s.attr c) 5) ∧
    (isLo off = true → ∀ lo hi : Nat, s.regView d off = some lo → s.regView d (off + 4) = some hi →
      Yields (exec (.readLo r a) s) (fun t => t.rdData = leBytes 4 lo ∧ (r, k + 4, BitVec.ofNat 32 hi) ∈ t.hiCap ∧
        t.regs = s.regs)) ∧
    (s.expert r = true → ∀ (img : Image) (site : Nat), s.good site = true →
      let named := img = .all ∨ ∃ g : Nat, img = .group g ∧ bitOf (s.cfld site CFG_CORE_GROUP_GROUP) (g % 32) = true
      Yields (exec (.broadcastWrite r img 0x00C v) s) (fun t =>
        (named → t.cfld site CFG_CORE_GROUP_GROUP = v.toNat) ∧
        (¬ named → t.cfld site CFG_CORE_GROUP_GROUP = s.cfld site CFG_CORE_GROUP_GROUP))) ∧
    (s.flag 0 ROT_STATUS_DBG_OPEN = false →
      Yields (exec (.dbgacc a none) s) (fun t => t.rdData = leBytes 4 0 ∧ t.regs = s.regs) ∧
      exec (.dbgacc a (some v)) s = .next s.settle) ∧
    (s.flag 0 ROT_STATUS_DBG_OPEN = true →
      Yields (exec (.dbgacc a none) s) (fun t => t.rdData = leBytes 4 (s.readReg .debug d off).2) ∧
      exec (.dbgacc a (some v)) s = .next (s.writeReg .debug d off v).settle)

/-- R106, R398: commands on a context read and write its pending region entries and attributes, but while it is being published; a
publication in progress turns others away, and its end makes the pending table and attributes live together. Details that the spec leaves
open are the model's choices: log 33. -/
def Obligations.ContextsArePublished : Prop :=
  ∀ (s : State) (r : Requester) (ctx entry : Nat), ctx < 64 → entry < 64 →
    let k := ctx * 64 + entry
    let e := (get 0 s.rgnPend k).toNat
    let base := dkey 0 CFG_RGN_BASE_LO_ADDR.off
    let last := dkey 0 CFG_RGN_LAST_LO_ADDR.off
    let attr := dkey 0 CFG_CTX_ATTR_MINCLASS.off
    let result (t : State) (n : Nat) : Prop := t.fld 0 CFG_CTX_CMD_RESULT = n ∧ t.rgnLive = s.rgnLive ∧ t.attrLive = s.attrLive
    Yields (exec (.ctxReadEntry r ctx entry) s) (fun t => t.rg64 base = e % 2 ^ 64 ∧ t.rg64 last = e / 2 ^ 64 ∧ result t 0 ∧
      t.rgnPend = s.rgnPend) ∧
    Yields (exec (.ctxReadAttr r ctx) s) (fun t => t.rg attr = get 0 s.attrPend ctx % 2 ^ 32 ∧ result t 0 ∧ t.attrPend = s.attrPend) ∧
    (s.publishing ≠ some ctx →
      Yields (exec (.ctxWriteEntry r ctx entry) s) (fun t => result t 0 ∧
        get 0 t.rgnPend k = BitVec.ofNat 128 (s.rg64 base + (s.rg64 last) <<< 64) ∧
        ∀ j : Nat, j ≠ k → get 0 t.rgnPend j = get 0 s.rgnPend j) ∧
      Yields (exec (.ctxWriteAttr r ctx) s) (fun t => result t 0 ∧ get 0 t.attrPend ctx = s.rg attr % 64)) ∧
    (s.publishing = some ctx →
      Yields (exec (.ctxWriteEntry r ctx entry) s) (fun t => result t 1 ∧ t.rgnPend = s.rgnPend) ∧
      Yields (exec (.ctxWriteAttr r ctx) s) (fun t => result t 1 ∧ t.attrPend = s.attrPend) ∧
      Yields (exec .publishComplete s) (fun t => t.publishing = none ∧ t.fld 0 CFG_CTX_CMD_PUB = 0 ∧
        get 0 t.rgnLive k = get 0 s.rgnPend k ∧ get 0 t.attrLive ctx = get 0 s.attrPend ctx ∧
        ∀ j : Nat, j / 64 ≠ ctx → get 0 t.rgnLive j = get 0 s.rgnLive j)) ∧
    (s.publishing = none → Yields (exec (.publish r ctx) s) (fun t => t.publishing = some ctx ∧ t.fld 0 CFG_CTX_CMD_PUB = 1 ∧
      result t 0)) ∧
    (s.publishing.isSome = true → Yields (exec (.publish r ctx) s) (fun t => t.publishing = s.publishing ∧ result t 1))

/-- R399, R400, R402, R404: entries of the act table and words of the site assignment are read from either set, and written into the
shadow set where no swap is pending and the checks pass; the site assignment is an expert's. Details that the spec leaves open are the
model's choices: log 37. -/
def Obligations.TablesAreReadAndWritten : Prop :=
  ∀ (s : State) (r : Requester) (a d site : Nat), a < 4096 → d < 8 → site < 196 →
    let shows (e : BitVec 1024) (t : State) : Prop := t.fld 0 CFG_ACT_CMD_RESULT = 0 ∧
      (∀ i : Nat, i < 32 → t.fld 0 (CFG_ACT_DATA_DATA i) = bitsOf e.toNat (32 * i) 32) ∧ t.actA = s.actA ∧ t.actS = s.actS
    let e := s.actData
    let n := actResult a e.toNat
    let k := d * Config.sitesPerDie + site
    let w := s.fld 0 CFG_ASN_DATA_WORD
    let bad := bitsOf w 30 1 = 1 ∨ bitsOf w 16 14 ≠ 0
    let word (x : Word) (t : State) : Prop := t.fld 0 CFG_ASN_CMD_RESULT = 0 ∧ t.fld 0 CFG_ASN_DATA_WORD = x.toNat ∧
      t.asnA = s.asnA ∧ t.asnS = s.asnS
    Yields (exec (.actReadActive r a) s) (shows (get 0 s.actA a)) ∧
    Yields (exec (.actReadShadow r a) s) (shows (get 0 s.actS a)) ∧
    (s.swapPending = true → Yields (exec (.actWriteShadow r a) s) (fun t => t.fld 0 CFG_SS_STATUS_WERR = 1 ∧ t.actS = s.actS)) ∧
    (s.swapPending = false →
      (n = 0 → Yields (exec (.actWriteShadow r a) s) (fun t => t.fld 0 CFG_ACT_CMD_RESULT = 0 ∧ get 0 t.actS a = e ∧ t.actA = s.actA ∧
        ∀ j : Nat, j ≠ a → get 0 t.actS j = get 0 s.actS j)) ∧
      (n ≠ 0 → Yields (exec (.actWriteShadow r a) s) (fun t => t.fld 0 CFG_ACT_CMD_RESULT = n ∧ t.actS = s.actS))) ∧
    (s.expert r = true →
      Yields (exec (.asnReadActive r d site) s) (word (get 0 s.asnA k)) ∧
      Yields (exec (.asnReadShadow r d site) s) (word (get 0 s.asnS k)) ∧
      (s.swapPending = true → Yields (exec (.asnWriteShadow r d site) s) (fun t => t.fld 0 CFG_SS_STATUS_WERR = 1 ∧ t.asnS = s.asnS)) ∧
      (s.swapPending = false →
        (¬ bad → Yields (exec (.asnWriteShadow r d site) s) (fun t => t.fld 0 CFG_ASN_CMD_RESULT = 0 ∧ (get 0 t.asnS k).toNat = w ∧
          t.asnA = s.asnA ∧ ∀ j : Nat, j ≠ k → get 0 t.asnS j = get 0 s.asnS j)) ∧
        (bad → Yields (exec (.asnWriteShadow r d site) s) (fun t => t.fld 0 CFG_ASN_CMD_RESULT = 2 ∧ t.asnS = s.asnS)))) ∧
    (s.expert r = false → exec (.asnReadActive r d site) s = .next (s.violation 0).settle ∧
      exec (.asnReadShadow r d site) s = .next (s.violation 0).settle ∧ exec (.asnWriteShadow r d site) s = .next (s.violation 0).settle)

/-- R401 to R403: a swap request is validated, and the swap falls at the next curtain where its close is still to come, else at the one
after; it is cancelled before its close alone; the active set is copied into the shadow set. Details that the spec leaves open are the
model's choices: log 33, 37. -/
def Obligations.SwapsAreValidated : Prop :=
  ∀ (s : State) (r : Requester) (at_ : Nat),
    let u := s.tick at_
    let n := ({ u with swapReq := false }).swapResult
    let f := if u.beforeClose then u.frame + 1 else u.frame + 2
    (s.swapReq = true →
      (n ≠ 0 → Yields (exec (.swapValidation at_) s) (fun t => t.fld 0 CFG_SS_STATUS_RESULT = n ∧ t.swap = s.swap ∧ t.swapReq = false ∧
        t.swapPending = s.swapPending)) ∧
      (n = 0 → Yields (exec (.swapValidation at_) s) (fun t => t.fld 0 CFG_SS_STATUS_RESULT = 0 ∧ t.swapPending = true ∧
        t.swap = some ⟨f, false⟩ ∧ t.rg64 (dkey 0 CFG_SS_FRAME_LO_FRAME.off) = f % 2 ^ 64 ∧ t.swapReq = false ∧ t.actA = s.actA))) ∧
    (s.flag 0 CFG_SS_CMD_BUSY = true → exec (.swapRequest r) s = .next s.settle ∧ exec (.swapCancel r) s = .next s.settle ∧
      exec (.ssCopy r) s = .next s.settle) ∧
    (s.flag 0 CFG_SS_CMD_BUSY = false →
      exec (.swapRequest r) s = .next ({ s with swapReq := true }).settle ∧
      (∀ w : Swap, s.swap = some w →
        (s.swapClosed w = true → Yields (exec (.swapCancel r) s) (fun t => t.fld 0 CFG_SS_STATUS_WERR = 1 ∧ t.swap = some w)) ∧
        (s.swapClosed w = false → Yields (exec (.swapCancel r) s) (fun t => t.swapPending = false ∧ t.swap = none ∧
          t.actA = s.actA ∧ t.actS = s.actS))) ∧
      (s.swapPending = true → Yields (exec (.ssCopy r) s) (fun t => t.fld 0 CFG_SS_STATUS_WERR = 1 ∧ t.actS = s.actS)) ∧
      (s.swapPending = false → Yields (exec (.ssCopy r) s) (fun t => t.flag 0 CFG_SS_CMD_BUSY = true ∧ t.actS = s.actA ∧
        t.asnS = s.asnA ∧ t.grpS = s.grpA ∧ (∀ k ∈ ssKeys, t.rg (k + 0x800) = s.rg k ∧ t.rg k = s.rg k)))) ∧
    Yields (exec .ssCopyComplete s) (fun t => t.flag 0 CFG_SS_CMD_BUSY = false ∧ RegOnly s t 0 CFG_SS_CMD_BUSY.off)

/-- R341, R406 to R410, R412, R418, R419: the management cores' heartbeat and takeover, telemetry, the error log's readers and the I3C
ports with their MCTP and PLDM answers; a port that does not answer changes nothing. Details that the spec leaves open are the model's
choices: log 15, 55. -/
def Obligations.PortsAreServed : Prop :=
  ∀ (s : State) (r : Requester) (port : Fin 2) (x : Sensors) (scan : TapScan) (on : Bool) (y : Dasa) (addr cmd arg type id off len : Nat),
    let i := port.val
    let p := s.port i
    let tells (c : Instr) (o : List Out) : Prop := Yields (exec c s) (fun t => t.out = s.out ++ o ∧ t.regs = s.regs ∧ MemSame s t)
    exec .heartbeat s = .next ({ s with beatAt := s.upTime }).settle ∧
    (s.flag 0 MGT_STATUS_ACTIVE = false → s.beatAt + 10000000 ≤ s.upTime → Yields (exec .takeover s) (fun t =>
      t.flag 0 MGT_STATUS_ACTIVE = true ∧ t.flag 0 MGT_EVENT_TAKEOVER = true ∧ t.rot.signing = none ∧ t.portUp 0 = false)) ∧
    (s.flag 0 MGT_STATUS_ACTIVE = true ∨ s.upTime < s.beatAt + 10000000 → exec .takeover s = .next s.settle) ∧
    Yields (exec (.sensorSample x) s) (fun t => t.sensors = x ∧ t.regs = s.regs ∧ t.sensor 30 = some (s.fld 0 CUR_CLK_CUR : Int) ∧
      t.sensor 31 = some ((if s.flag 0 CUR_STATUS_RUN then s.frame % 2 ^ 32 else 0 : Nat) : Int) ∧
      t.wattSum = s.wattSum + s.sensors.watts * (s.now - s.wattAt) ∧ t.wattAt = s.now ∧
      (s.secAt + 1000000000 ≤ s.upTime → t.secAt = s.upTime ∧ t.committedSec = s.counter 6 0 14 ∧ t.lateSec = s.counter 6 0 15)) ∧
    Yields (exec (.logAck r) s) (fun t => (∀ y ∈ t.log, y.acked = true) ∧ t.log.length = s.log.length ∧ t.pins.alert = false) ∧
    Yields (exec (.extest scan) s) (fun t => t.pins.tap = scan.instr ∧ t.regs = s.regs ∧
      (scan.instr = .bypass → t.pins.cells = s.pins.cells ∧ t.pins.captured = s.pins.captured) ∧
      (scan.instr ≠ .bypass → t.pins.cells = scan.cells ∧ t.pins.captured = s.pinLevels s.fresh.1 ∧
        t.pins.captured.getLsbD 0 = s.pins.perst ∧ t.pins.captured.getLsbD 3 = s.pins.pwrEn ∧
        (s.pinsTaken = false → t.pins.captured.getLsbD 4 = s.pins.pwrgd ∧ t.pins.captured.getLsbD 6 = !s.pins.alert) ∧
        (s.pinsTaken = true → t.pins.captured.getLsbD 4 = s.pins.cells.getLsbD 4)) ∧
      (scan.instr = .extest → t.pins.alert = false ∧ t.portUp i = false)) ∧
    (s.portUp i = false →
      exec (.pldmEventAck port) s = .next s.settle ∧ exec (.enableEvents port on) s = .next s.settle ∧
      exec (.entdaa port addr) s = .next s.settle ∧ exec (.setdasa port y) s = .next s.settle ∧
      exec (.mctpControl port cmd arg) s = .next s.settle ∧ exec (.pldmDiscovery port type cmd) s = .next s.settle ∧
      exec (.pldmSensorRead port id) s = .next s.settle ∧ exec (.pldmFruRead port off len) s = .next s.settle) ∧
    (s.portUp i = true → i < s.ports.length →
      (s.fwOk = true →
        (∀ (y : LogRec) (l : List LogRec), p.queue = y :: l →
          (p.events = true → tells (.eventRetry port) [.event i y, .inBand i]) ∧
          Yields (exec (.pldmEventAck port) s) (fun t => (t.port i).queue = l ∧ (∀ z ∈ t.log, z.id = y.id → z.acked = true) ∧
            t.out = s.out)) ∧
        Yields (exec (.enableEvents port on) s) (fun t => t.port i = { p with events := on })) ∧
      (s.fwOk = false → ∀ c ∈ [Instr.eventRetry port, .pldmEventAck port, .enableEvents port on], exec c s = .next s.settle) ∧
      (p.dynAddr = none → Yields (exec (.entdaa port addr) s) (fun t => t.port i = { p with dynAddr := some addr } ∧
        t.out = s.out ++ [.provisionedId i (s.provisionedId i)])) ∧
      (p.dynAddr ≠ none → exec (.entdaa port addr) s = .next s.settle) ∧
      (s.provisionedId i / 2 ^ 16 % 2 ^ 16 = 0x5308 ∧ s.provisionedId i / 2 ^ 12 % 16 = s.mid % 16 ∧ s.provisionedId i / 2 ^ 11 % 2 = i) ∧
      (y.target = (if i = 0 then 0x10 else 0x20) + s.mid →
        Yields (exec (.setdasa port y) s) (fun t => t.port i = { p with dynAddr := some y.dyn } ∧ t.out = s.out)) ∧
      (y.target ≠ (if i = 0 then 0x10 else 0x20) + s.mid → exec (.setdasa port y) s = .next s.settle) ∧
      (cmd = 256 → Yields (exec (.mctpControl port cmd arg) s) (fun t => t.port i = { p with unit := max 64 (min 256 arg) } ∧
        t.out = s.out ++ [.mctp i [256, max 64 (min 256 arg)]])) ∧
      (cmd = 1 → Yields (exec (.mctpControl port cmd arg) s) (fun t => t.port i = { p with eid := arg % 256 } ∧
        t.out = s.out ++ [.mctp i [1, arg % 256]])) ∧
      (cmd = 2 → tells (.mctpControl port cmd arg) [.mctp i [2, p.eid]]) ∧
      (cmd = 5 → tells (.mctpControl port cmd arg) [.mctp i [5, 0, 1, 5]]) ∧
      tells (.pldmDiscovery port 0 4) [.pldm i .success (if s.fwOk then [0, 2, 4, 5] else [0, 5])] ∧
      (¬ (type = 0 ∧ 1 ≤ cmd ∧ cmd ≤ 5) → tells (.pldmDiscovery port type cmd) [.pldm i .unsupportedPldmCmd []]) ∧
      (s.fwOk = false → tells (.pldmSensorRead port id) [.pldm i .unsupportedPldmCmd []] ∧
        tells (.pldmFruRead port off len) [.pldm i .unsupportedPldmCmd []]) ∧
      (s.fwOk = true → (∀ v : Int, s.sensor id = some v → tells (.pldmSensorRead port id) [.pldm i .success [v]]) ∧
        (s.sensor id = none → tells (.pldmSensorRead port id) [.pldm i .invalidSensor []]) ∧
        tells (.pldmFruRead port off len) [.pldm i .success ((List.range (min len (0x400 - off))).map (fun k =>
          ((s.fruByte (off + k)).toNat : Int)))]))

/-- R342, R415 to R418, R422: a bundle loads into the inactive bank and is verified there, and becomes active at once where no bank is;
attestation waits for an identity that matches; a debug token opens DBGACC; rehearsal starts at once and ends at the next close. Details
that the spec leaves open are the model's choices: log 9. -/
def Obligations.FirmwareAndDebugOpen : Prop :=
  ∀ (s : State) (r : Requester) (port : Fin 2) (bundle : List Byte) (mask : BitVec 64) (c : Nat),
    let i := port.val
    let b := s.inactive
    let busy := s.rot.verifying || s.rot.loading
    let n := fwCheck (s.bank b)
    let old := s.rg64 (dkey 0 MGT_REH_LO_CTX.off)
    (s.portUp i = true →
      (busy = true → Yields (exec (.requestUpdate port bundle) s) (fun t => t.rot = s.rot ∧ t.out = s.out ++ [.pldm i .retryRequestUpdate []])) ∧
      (busy = false → Yields (exec (.requestUpdate port bundle) s) (fun t => t.bank b = memPutAll [] 0 (bundle.take 0x400000) ∧
        t.bank (!b) = s.bank (!b) ∧ t.rot.verifying = true ∧ t.rot.loading = true ∧ t.rot.next = false ∧ t.rot.active = s.rot.active ∧
        t.flag 0 MGT_FW_CMD_BUSY = true ∧ t.out = s.out ++ [.pldm i .success []]))) ∧
    (busy = true → Yields (exec (.fwVerify r) s) (fun t => t.fld 0 MGT_FW_STATUS_RESULT = 1 ∧ t.rot = s.rot) ∧
      Yields (exec (.fwDiscard r) s) (fun t => t.fld 0 MGT_FW_STATUS_RESULT = 1 ∧ t.rot = s.rot)) ∧
    (busy = false → Yields (exec (.fwVerify r) s) (fun t => t.rot.verifying = true ∧ t.flag 0 MGT_FW_CMD_BUSY = true ∧
        t.bank b = s.bank b) ∧
      Yields (exec (.fwDiscard r) s) (fun t => t.bank b = [] ∧ t.bank (!b) = s.bank (!b) ∧ t.rot.next = false)) ∧
    (s.rot.verifying = true → Yields (exec .fwVerifyComplete s) (fun t => t.fld 0 MGT_FW_STATUS_RESULT = n ∧ t.rot.verifying = false ∧
      t.flag 0 MGT_FW_CMD_BUSY = false ∧
      (n ≠ 0 → t.flag 0 MGT_EVENT_FW_FAIL = true ∧ t.rot.active = s.rot.active ∧ t.rot.next = false) ∧
      (n = 0 → s.rot.active = none → t.rot.active = some b ∧ t.fwOk = true ∧ t.fld 0 MGT_STATUS_BANK = b2n b) ∧
      (n = 0 → s.rot.active ≠ none → t.rot.active = s.rot.active ∧ t.rot.next = true))) ∧
    (s.flag 0 ROT_STATUS_IDERR = true → exec .attestationReady s = .next s.settle) ∧
    (s.flag 0 ROT_STATUS_IDERR = false → Yields (exec .attestationReady s) (fun t => t.flag 0 ROT_STATUS_ATT_READY = true ∧
      RegOnly s t 0 ROT_STATUS_ATT_READY.off)) ∧
    (s.expert r = false → exec (.debugTokenSubmit r) s = .next (s.violation 0).settle ∧
      (old ≠ mask.toNat → exec (.rehearsalSet r mask) s = .next (s.violation 0).settle) ∧
      (old = mask.toNat → exec (.rehearsalSet r mask) s = .next s.settle)) ∧
    (s.expert r = true →
      (s.tokenResult ≠ 0 → Yields (exec (.debugTokenSubmit r) s) (fun t => t.fld 0 ROT_STATUS_RESULT = s.tokenResult ∧
        t.flag 0 ROT_EVENT_TOKEN_FAIL = true ∧ t.flag 0 ROT_STATUS_DBG_OPEN = s.flag 0 ROT_STATUS_DBG_OPEN)) ∧
      (s.tokenResult = 0 → bitOf (bankFld (s.bank b) 0x3FC040 4) 0 = true →
        Yields (exec (.debugTokenSubmit r) s) (fun t => t.fld 0 ROT_STATUS_RESULT = 0 ∧ t.flag 0 ROT_STATUS_DBG_OPEN = true ∧
          t.flag 0 ROT_EVENT_DBG = true)) ∧
      (c < 64 → (∀ k : Nat, s.ctxStopped k = false) → Yields (exec (.rehearsalSet r mask) s) (fun t =>
        t.rg64 (dkey 0 MGT_REH_LO_CTX.off) = mask.toNat ∧
        (bitOf old c = true → bitOf mask.toNat c = false → c ∈ t.rehOff ∧ t.rehearsal c = true) ∧
        (bitOf old c = false → bitOf mask.toNat c = true → t.rehearsal c = true ∧ ∀ st ∈ t.steps, st.ctx = c → st.reh = true))) ∧
      (c < 64 → s.ctxStopped c = true → bitOf old c = true → bitOf mask.toNat c = false →
        Yields (exec (.rehearsalSet r mask) s) (fun t => t.rehearsal c = true ∧ t.flag 0 MGT_DBG_STATUS_ERR = true)))

/-- R406, R415, R418, R420, R421: the SPDM requests in their order, a signature one at a time, and its response read in chunks; without
firmware no request is served. Answers out of order, and those of chunked requests, are the model's reading (log 15). -/
def Obligations.AttestationAnswers : Prop :=
  ∀ (s : State) (port : Fin 2) (alg : AlgOffer) (sign last : Bool) (slot off len nonce index handle seq : Nat) (data : List Byte),
    let i := port.val
    let p := s.port i
    let tells (c : Instr) (a : Answer) (l : List Nat) : Prop := Yields (exec c s) (fun t => t.out = s.out ++ [.spdm i a l] ∧
      t.regs = s.regs ∧ t.rot = s.rot)
    let reads : List Instr := [.getDigests port, .getCertificate port slot off len, .challenge port nonce,
      .getMeasurements port index sign nonce]
    (s.fwOk = false → ∀ c ∈ [.getVersion port, .getCapabilities port, .negotiateAlgorithms port alg, .chunkSend port handle seq data last,
      .chunkGet port handle seq] ++ reads, exec c s = .next s.settle) ∧
    (s.portUp i = true → s.fwOk = true → i < s.ports.length →
      tells (.getVersion port) .success [0x13] ∧
      Yields (exec (.getVersion port) s) (fun t => t.port i = { p with spdm := 1, chunks := [], response := [] }) ∧
      (p.spdm = 0 → tells (.getCapabilities port) .unexpectedRequest []) ∧
      (1 ≤ p.spdm → tells (.getCapabilities port) .success [2 ^ 1 + 2 ^ 2 + 2 ^ 4 + 2 ^ 17] ∧
        Yields (exec (.getCapabilities port) s) (fun t => (t.port i).spdm = max 2 p.spdm)) ∧
      (p.spdm < 2 → tells (.negotiateAlgorithms port alg) .unexpectedRequest []) ∧
      (2 ≤ p.spdm → (alg.extAsym = true ∧ alg.sha256 = true →
          tells (.negotiateAlgorithms port alg) .success [1, 0x0001, 0x0002] ∧
          Yields (exec (.negotiateAlgorithms port alg) s) (fun t => (t.port i).spdm = 3)) ∧
        (alg.extAsym = false ∨ alg.sha256 = false → tells (.negotiateAlgorithms port alg) .unsupportedRequest [] ∧
          Yields (exec (.negotiateAlgorithms port alg) s) (fun t => (t.port i).spdm = 4))) ∧
      (p.spdm < 3 → ∀ c ∈ reads, tells c .unexpectedRequest []) ∧
      (p.spdm = 4 → ∀ c ∈ reads, tells c .unsupportedRequest []) ∧
      (p.spdm = 3 → s.flag 0 ROT_STATUS_ATT_READY = false → ∀ c ∈ reads, tells c .responseNotReady []) ∧
      (p.spdm = 3 → s.flag 0 ROT_STATUS_ATT_READY = true →
        tells (.getDigests port) .success [(sha256 s.chain).toNat] ∧
        (slot ≠ 0 → tells (.getCertificate port slot off len) .invalidRequest []) ∧
        (slot = 0 → tells (.getCertificate port slot off len) .success (((s.chain.drop off).take len).map BitVec.toNat)) ∧
        (5 < index → index ≠ 255 → tells (.getMeasurements port index sign nonce) .invalidRequest []) ∧
        (index ≤ 5 ∨ index = 255 → s.flag 0 MGT_STATUS_ACTIVE = false →
          tells (.getMeasurements port index false nonce) .success (s.measures index)) ∧
        (s.rot.signing.isSome = true ∨ s.flag 0 MGT_STATUS_ACTIVE = true → tells (.challenge port nonce) .responseNotReady [] ∧
          (index ≤ 5 ∨ index = 255 → tells (.getMeasurements port index true nonce) .responseNotReady [])) ∧
        (s.rot.signing = none → s.flag 0 MGT_STATUS_ACTIVE = false →
          exec (.challenge port nonce) s =
            .next ({ s with rot := { s.rot with signing := some (i, [(sha256 s.chain).toNat, nonce]) } }).settle ∧
          (index ≤ 5 ∨ index = 255 → exec (.getMeasurements port index true nonce) s =
            .next ({ s with rot := { s.rot with signing := some (i, nonce :: s.measures index) } }).settle))) ∧
      Yields (exec (.chunkSend port handle seq data last) s) (fun t => t.out = s.out ++ [.spdm i .success [handle, seq]] ∧
        (last = false → (t.port i).chunks = (if seq = 0 then [] else p.chunks) ++ data) ∧ (last = true → (t.port i).chunks = [])) ∧
      (p.response = [] → tells (.chunkGet port handle seq) .unexpectedRequest []) ∧
      (p.response ≠ [] → tells (.chunkGet port handle seq) .success (handle :: seq ::
        ((p.response.drop (seq * s.chunkLen i)).take (s.chunkLen i)).map BitVec.toNat)) ∧ 1 ≤ s.chunkLen i ∧ s.chunkLen i ≤ max 1 p.unit) ∧
    (∀ (req : List Nat), s.rot.signing = some (i, req) → i < s.ports.length →
      (s.flag 0 MGT_STATUS_ACTIVE = false → s.portUp i = true → Yields (exec .signingComplete s) (fun t =>
        t.rot.signing = none ∧ t.out = s.out ++ [.spdm i .largeResponse []] ∧
        (t.port i).response = req.flatMap (leBytes 32) ++ signature s.rot.epoch req)) ∧
      (s.flag 0 MGT_STATUS_ACTIVE = true → Yields (exec .signingComplete s) (fun t => t.rot.signing = none ∧ t.out = s.out ∧
        t.ports = s.ports)))

/-- R405, R423 to R425, R427, R428, R444: warnings are reported; a lockout, an overcurrent or PWR_EN low stops the module in order, every
thread halted, and the rails then go off, to rise again where PWR_EN has; a trip turns them off at once; the loss of the supply takes the
management domain as well. Details that the spec leaves open are the model's choices: log 38, 55. -/
def Obligations.SuppliesStopTheModule : Prop :=
  ∀ (s : State) (at_ site : Nat) (x : Fin 4),
    let u := s.tick at_
    let lost (t : State) : Prop := t.mem = s.mem.filter (fun p => inMgmtPads p.1) ∧ t.cb = [] ∧ t.steps = [] ∧
      t.host = s.host ∧ t.rot = s.rot ∧ t.log = s.log ∧ (1584 ≤ site → t.core site = s.core site) ∧ (site < 1584 → t.core site = Core.reset)
    let dark (t : State) : Prop := t.pins.pwrgd = false ∧ t.resetting = .stopped ∧ lost t
    let stops (c : Instr) (cause : Nat) : Prop := s.resetting ≠ .stopped → s.pins.pwrgd = true →
      Yields (exec c s) (fun t => t.resetting = .stopped ∧ t.pcie = u.pcie ∧ t.resetAt = u.now ∧ t.softStage = 0 ∧ t.workShut = true ∧
        (∀ later : Nat, u.now + 20000 ≤ later → (t.tick later).linkUp = false) ∧
        ((∀ (k : Nat) (y : Fin 4), (u.thr k y).wait = none) → t.fld 0 PWR_STATUS_CAUSE = cause ∧
          (site < 1584 → t.halted site x = true)))
    (s.pins.input = true →
      Yields (exec .undervoltageWarning s) (fun t => t.flag 0 PWR_EVENT_UV_WARN = true ∧ ∃ y ∈ t.log, y.source = 816) ∧
      Yields (exec .overvoltageWarning s) (fun t => t.flag 0 PWR_EVENT_OV_WARN = true ∧ ∃ y ∈ t.log, y.source = 817)) ∧
    stops (.undervoltageLockout at_) 2 ∧ stops (.overcurrent at_) 3 ∧ (s.pinsTaken = false → stops (.pwrEnFall at_) 1) ∧
    (s.pinsTaken = false → Yields (exec (.pwrEnFall at_) s) (fun t => t.pins.pwrEn = false)) ∧
    (s.resetting = .stopped ∨ s.pins.pwrgd = false → exec (.undervoltageLockout at_) s = .next u.settle ∧
      exec (.overcurrent at_) s = .next u.settle) ∧
    (s.resetting = .stopped → s.pins.pwrgd = true → Yields (exec .railsOff s) (fun t => lost t ∧
      t.fld 0 PWR_STATUS_CAUSE = s.fld 0 PWR_STATUS_CAUSE ∧ (¬ (s.pins.rose = true ∧ s.pins.input = true) → dark t) ∧
      (s.pins.rose = true → s.pins.input = true → t.pins.pwrgd = true ∧ t.resetting = .cold))) ∧
    (s.pins.pwrgd = true →
      Yields (exec .overvoltageTrip s) (fun t => dark t ∧ t.fld 0 PWR_STATUS_CAUSE = 4) ∧
      Yields (exec .thermalTrip s) (fun t => dark t ∧ t.fld 0 PWR_STATUS_CAUSE = 5 ∧ t.pins.thermtrip = true)) ∧
    (s.pins.pwrgd = false → exec .overvoltageTrip s = .next s.settle ∧ exec .thermalTrip s = .next s.settle) ∧
    Yields (exec .overpower s) (fun t => t.overpower = true ∧ t.flag 0 PWR_EVENT_OVERPOWER = true ∧ ∃ y ∈ t.log, y.source = 820) ∧
    Yields (exec .lossOf56v s) (fun t => t.pins.input = false ∧ t.pins.pwrgd = false ∧ t.pins.thermtrip = false ∧ t.mem = [] ∧
      t.log = [] ∧ t.regs = [] ∧ t.host = s.host ∧ t.pending = s.pending)

/-- R32, R112, R405, R415, R432, R433, R435, R437, R442, R444, R448: the supply and PWR_EN raise the rails; PERST_N holds and starts a
cold reset, which renews the memory and execution domains, takes the straps and the site map and seeds the dies; READY starts the stage
managers' runtime and the curtains. Details that the spec leaves open are the model's choices: log 9, 38, 55. -/
def Obligations.StartsFollowTheReset : Prop :=
  ∀ (s : State) (fails : List Nat) (straps d k : Nat),
    (s.pins.input = false → Yields (exec .powerOnReset s) (fun t => t.pins.input = true ∧ t.upTime = 0 ∧
      (s.pins.pwrEn = true → t.pins.pwrgd = true ∧ t.pins.clkreq = true ∧ t.resetting = .cold) ∧ (s.pins.pwrEn = false → t.pins.pwrgd = s.pins.pwrgd))) ∧
    (s.pinsTaken = true → exec .pwrEnRise s = .next s.settle ∧ exec .perstNAssert s = .next s.settle ∧
      exec .perstNRelease s = .next s.settle) ∧
    (s.pinsTaken = false →
      Yields (exec .pwrEnRise s) (fun t => t.pins.pwrEn = true ∧ t.pins.thermtrip = false ∧
        (s.pins.input = true → s.pins.pwrgd = false → t.pins.pwrgd = true ∧ t.pins.clkreq = true ∧ t.resetting = .cold) ∧
        (s.resetting = .stopped → s.pins.pwrgd = true → t.pins.rose = true ∧ t.resetting = .stopped)) ∧
      Yields (exec .perstNAssert s) (fun t => t.pins.perst = false ∧
        (s.pins.pwrgd = true → s.resetting ≠ .cold → s.resetting ≠ .stopped → t.resetting = .warm ∧ t.fld 0 PWR_STATUS_CAUSE = 6) ∧
        (s.resetting = .cold ∨ s.resetting = .stopped → t.resetting = s.resetting ∧ t.mem = s.mem)) ∧
      Yields (exec .perstNRelease s) (fun t => t.pins.perst = true ∧ t.resetting = s.resetting ∧ t.regs = s.regs ∧
        (s.resetting = .cold → s.pins.pwrgd = true → t.now = 0))) ∧
    (s.resetting = .cold → s.pins.pwrgd = true → s.pins.perst = true →
      Yields (exec (.coldReset fails straps) s) (fun t => t.mem = s.mem.filter (fun p => inMgmtPads p.1) ∧
        t.poison = s.poison.filter (fun g => inMgmtPads (g * 64)) ∧ t.cb = [] ∧ t.steps = [] ∧ t.resetting = .coldRun ∧
        t.mid = straps % 16 ∧ t.rot.epoch = s.rot.epoch + 1 ∧ t.flag 0 MGT_DBG_STATUS_OPEN = false ∧
        (s.mapOk = true → (k ∈ t.siteBad ↔ k ∈ s.prodBad ∨ (k < Config.sites ∧ k ∈ fails))) ∧
        (s.mapOk = false → (k < Config.sites → t.good k = false)) ∧
        (d < 8 → t.rg64 (dkey d CHK_SEED_LO_SEED.off) ≠ 0) ∧ (s.mapOk = true → fails = [] → t.log = s.log) ∧
        (s.rot.active = none → s.rot.next = false → t.fwOk = false))) ∧
    (s.resetting = .coldRun ∨ s.resetting = .warm → s.fwOk = true → s.pins.pwrgd = true → s.pins.perst = true →
      (∀ (j : Nat) (y : Fin 4), (s.thr j y).wait = none) →
      Yields (exec .ready s) (fun t => t.flag 0 PWR_STATUS_READY = true ∧ t.fld 0 PWR_STATUS_STATE = 0 ∧ t.flag 0 CUR_STATUS_RUN = true ∧
        t.frame = 0 ∧ t.curtainAt = s.now ∧ t.curMode = .internal ∧ t.resetting = .none ∧ (d < 8 → t.flag d HBC_STATUS_READY = true) ∧
        (d < 16 → t.halted (1568 + d) 0 = false))) ∧
    (s.fwOk = false ∨ (s.resetting ≠ .coldRun ∧ s.resetting ≠ .warm) → exec .ready s = .next s.settle)

/-- R114, R342, R405, R431, R432, R434, R436, R437, R440: a warm reset renews both domains and keeps the site map, the roles of
quarantined sites and what is not the module's; a soft reset halts the execution domain, drops DMA commands after 20 µs and resets it
after 30, and it starts anew when it completes. Details that the spec leaves open are the model's choices: log 38, 54. -/
def Obligations.ResetsKeepTheirDomains : Prop :=
  ∀ (s : State) (r : Requester) (site d a at_ : Nat),
    let renewed (t : State) (cause : Nat) : Prop := t.resetting = .warm ∧ t.fld 0 PWR_STATUS_CAUSE = cause ∧
      t.mem = s.mem.filter (fun p => inMgmtPads p.1) ∧ t.cb = [] ∧ t.steps = [] ∧ t.inflight = [] ∧ t.siteBad = s.siteBad ∧
      t.host = s.host ∧ t.log = s.log ∧ t.now = s.now ∧
      (site < 1584 → (s.core site).role = .quarantined → (t.core site).role = .quarantined) ∧ (1584 ≤ site → t.core site = s.core site) ∧
      (d < 8 → t.rg64 (dkey d CHK_SEED_LO_SEED.off) ≠ 0 ∧ t.fld d ALF_NODE_NODE = s.fld d ALF_NODE_NODE)
    let halts (c : Instr) (cause : Nat) : Prop := s.resetting = .none ∨ s.resetting = .soft ∨ s.resetting = .d0 →
      Yields (exec c s) (fun t => t.resetting = .soft ∧ t.softOwed = true ∧ t.softStage = 2 ∧ t.resetAt = s.now ∧
        t.rg64 (dkey 0 MGT_REH_LO_CTX.off) = 0 ∧ t.rehOff = [] ∧
        ((∀ (k : Nat) (y : Fin 4), (s.thr k y).wait = none) → t.fld 0 PWR_STATUS_CAUSE = cause ∧ MemSame s t ∧ t.steps = s.steps ∧
          (site < 1584 → ∀ x : Fin 4, t.halted site x = true)))
    let code (w : WarmCause) : Nat := match w with | .perst => 6 | .hotReset => 7 | .command => 8
    (s.resetting ≠ .cold → s.resetting ≠ .stopped →
      (∀ w : WarmCause, Yields (exec (.warmReset w) s) (fun t => renewed t (code w))) ∧
      (s.expert r = true → Yields (exec (.pwrResetWarm r) s) (fun t => renewed t 8))) ∧
    (s.resetting = .cold ∨ s.resetting = .stopped → ∀ w : WarmCause, exec (.warmReset w) s = .next s.settle) ∧
    (s.expert r = false → exec (.pwrResetWarm r) s = .next (s.violation 0).settle ∧
      exec (.pwrResetSoft r) s = .next (s.violation 0).settle) ∧
    halts .softReset 9 ∧ (s.expert r = true → halts (.pwrResetSoft r) 10) ∧
    (s.softStage = 2 → s.now < at_ →
      let u := s.tick at_
      (s.resetAt + 20000 ≤ at_ → ∀ ch : ChanId, (u.chan ch).run = none ∧ (u.chan ch).queue = []) ∧
      (s.resetAt + 30000 ≤ at_ → u.softStage = 0 ∧ u.execOff = true ∧ u.inflight = [] ∧ (inPads a = true → u.byte a = 0)) ∧
      (at_ < s.resetAt + 20000 → u.softStage = 2 ∧ u.execOff = s.execOff)) ∧
    (s.resetting = .soft ∨ s.resetting = .d0 → Yields (exec .softDone s) (fun t => t.resetting = .none ∧ t.execOff = false ∧
      (s.resetting = .soft → t.flag 0 PWR_EVENT_SOFT_DONE = true) ∧
      (s.softOwed = true → t.steps = [] ∧ t.softOwed = false) ∧
      (s.softStage = 1 ∨ s.softStage = 2 → s.asnA = [] → t.inflight = [] ∧ (inPads a = true → t.byte a = 0) ∧
        (d < 16 → t.halted (1568 + d) 0 = false)))) ∧
    (s.resetting ≠ .soft → s.resetting ≠ .d0 → exec .softDone s = .next s.settle)

/-- R389, R390, R394, R395, R404, R430, R431, R434: P1 is asked for and left; D3hot is entered by stages and left; the host link comes up
and goes down without a reset, and pending messages leave once bus mastering lets them. Details that the spec leaves open are the model's
choices: log 38. -/
def Obligations.PowerStatesAndLinks : Prop :=
  ∀ (s : State) (r : Requester) (gen width v : Nat) (on : Bool),
    let slow := decide (gen < 5) || decide (width < 8)
    let waiting := v ∈ s.pcie.msixPend ∧ bitOf (get 0 s.pcie.msixTab v).toNat 96 = false ∧ s.pcie.fmask = false ∧
      (get 0 s.pcie.msixTab v).toNat % 2 ^ 64 ≠ 0
    (s.resetting = .soft → Yields (exec (.preqSet r) s) (fun t => t.preqPend = some 1 ∧ t.regs = s.regs) ∧
      Yields (exec (.preqClear r) s) (fun t => t.preqPend = some 0 ∧ t.regs = s.regs) ∧
      (s.flag 0 PWR_STATUS_READY = true → s.pcie.d3 = false → s.d3Pend = 0 → Yields (exec .d3hotEntry s) (fun t => t.d3Pend = 3 ∧
        t.regs = s.regs))) ∧
    (s.resetting ≠ .soft →
      Yields (exec (.preqSet r) s) (fun t => t.fld 0 PWR_CTRL_PREQ = 1 ∧ t.fld 0 PWR_STATUS_STATE = s.fld 0 PWR_STATUS_STATE) ∧
      Yields (exec (.preqClear r) s) (fun t => t.fld 0 PWR_CTRL_PREQ = 0 ∧ t.clkGated = false ∧
        (s.clkGated = true → t.fld 0 PWR_STATUS_STATE ≠ 1)) ∧
      (s.flag 0 PWR_STATUS_READY = true → s.pcie.d3 = false → s.d3Pend = 0 → Yields (exec .d3hotEntry s) (fun t => t.d3Pend = 2 ∧
        t.fld 0 PWR_STATUS_STATE = 2))) ∧
    (s.pcie.d3 = true → Yields (exec .d0Return s) (fun t => t.pcie.d3 = false ∧ t.selfRefresh = false ∧ t.execOff = s.execOff ∧
      t.fld 0 PWR_STATUS_STATE = b2n s.clkGated ∧
      (s.resetting = .none → t.resetting = .d0))) ∧
    (s.pcie.d3 = false → s.d3Pend ≠ 0 → Yields (exec .d0Return s) (fun t => t.d3Pend = 0 ∧ t.fld 0 PWR_STATUS_STATE = b2n s.clkGated ∧
      t.resetting = s.resetting)) ∧
    (s.d3Pend = 1 → s.d3Curtain.pcie.d3 = true ∧ s.d3Curtain.execOff = true ∧ s.d3Curtain.selfRefresh = true ∧ s.d3Curtain.steps = []) ∧
    (s.d3Pend = 2 → s.d3Curtain = { s with d3Pend := 1 }) ∧
    Yields (exec .pmeTurnOff s) (fun t => t.out = s.out ++ [.pmeToAck] ∧ t.regs = s.regs) ∧
    Yields (exec .pcieLinkDown s) (fun t => t.pcie.up = false ∧ t.fld 0 CFG_PCIE_STATUS_GEN = 0 ∧ t.fld 0 CFG_PCIE_STATUS_WIDTH = 0 ∧
      t.cores = s.cores ∧ MemSame s t) ∧
    (s.resetting ≠ .stopped → Yields (exec (.pcieLinkUp gen width) s) (fun t => t.pcie.up = true ∧
      t.fld 0 CFG_PCIE_STATUS_GEN = gen % 16 ∧ t.fld 0 CFG_PCIE_STATUS_WIDTH = width % 32 ∧
      t.flag 0 CFG_PCIE_STATUS_DEGRADED = slow ∧ (slow = true → t.log ≠ []) ∧
      (waiting → s.pcie.bme = true → .msix v ∈ t.out ∧ v ∉ t.pcie.msixPend))) ∧
    (s.resetting = .stopped → exec (.pcieLinkUp gen width) s = .next s.settle) ∧
    Yields (exec (.busMasterEnable on) s) (fun t => t.pcie.bme = on ∧ (on = false ∨ s.bdma = [] → t.regs = s.regs) ∧
      (on = true → s.linkUp = true → waiting → .msix v ∈ t.out ∧ v ∉ t.pcie.msixPend) ∧ (on = false → t.out = s.out))

/-- A step takes the command at the front of the queue and runs it on the state with the rest of the queue; on an empty queue the block
idles (the model's choice, log 3). -/
def Obligations.StepsTakeTheFront : Prop :=
  (∀ (s : State) (c : Instr) (rest : List Instr), s.pending = c :: rest → step s = exec c { s with pending := rest }) ∧
  (∀ s : State, s.pending = [] → step s = .next s)

/-- R412: from every state, whatever command waits, a step goes on to a next state in which ALERT_N is asserted exactly while a record of
SEV 2 or 3 has not been acknowledged: no command stops the module. A step on an empty queue keeps that promise. -/
def Obligations.EveryStepGoesOn : Prop :=
  (∀ (s : State) (c : Instr) (rest : List Instr), s.pending = c :: rest → ∃ t : State, step s = .next t ∧ AlertInv t) ∧
  (∀ s : State, s.pending = [] → AlertInv s → ∃ t : State, step s = .next t ∧ AlertInv t)

/-- R8, R9, R102, R107, R111, R156, R158, R169, R199, R208, R249, R308, R330, R433: what reset leaves: every thread halted at L0 with its
generators at their starting values, tiles and accumulators empty, registers at their table values, memory zero, nothing pending. Details
that the spec leaves open are the model's choices: log 6, 7, 13. -/
def Obligations.ResetLeaves : Prop :=
  let s := State.reset
  AlertInv s ∧ Memory.wf s.mem = true ∧ s.pending = [] ∧ (∀ a : Nat, s.byte a = 0) ∧ s.poison = [] ∧
  (∀ (site : Nat) (x : Fin 4), site < Config.sites →
    let y := s.thr site x
    s.halted site x = true ∧ y.level = .l0 ∧ y.ctx = 0 ∧ y.wait = none ∧ y.bun = none ∧ y.ss = [] ∧ y.staging = [] ∧ y.numCtl = 1 ∧
    (∀ i : Fin 64, y.seeds[i] = seedOf i.val) ∧ (∀ b : Fin 8, y.bk[b] &&& 1#64 = 0#64)) ∧
  (∀ (site : Nat) (n : Fin 8), (s.core site).tiles[n] = Tile.reset ∧ Tile.reset.cfg = 0x79F ∧ Tile.reset.rows = []) ∧
  (∀ (site : Nat) (n : Fin 2), (s.core site).acc[n] = Acc32.reset ∧ Acc32.reset.cfg = 0x3FF ∧ Acc32.reset.el = []) ∧
  s.fld 0 CUR_PERIOD_PERIOD = 400000 ∧ s.flag 0 CUR_STATUS_RUN = false ∧ s.flag 0 PWR_STATUS_READY = false ∧
  s.flag 0 MGT_STATUS_FW_OK = false ∧ s.flag 0 CFG_SS_STATUS_PEND = false ∧ s.resetting = .cold ∧ s.clkGated = false ∧ s.execOff = false ∧
  (∀ d : Nat, d < 8 → s.link d = PortLink.reset)

/-- R98, R101, R103, R145, R229, R232, R369: a load, store or atomic at an address that is no multiple of its size, through a bank that is
invalid, past the bank's window or the scratchpad's end, outside the thread's slice, in a bank of another class, in a strict one where it
meets another class's request, or on a staged header, or without the region's permission takes a trap with the effective address, and so
does one of the register space that is not of a word, or an atomic one; alignment is checked first. Details that the spec leaves open are
the model's choices: log 43, 54. -/
def Obligations.AccessesAreChecked : Prop :=
  ∀ (s : State) (i : Iss) (d a : BitVec 3) (c : Instr) (n : Nat) (need : Need) (regs : List Nat),
    let p := Iss.pre i
    let x := s.thr i.site i.th
    let rd := (extReg p.dh d).val
    let ra := (extReg p.ah a).val
    (c, n, need, regs) ∈ [(Instr.ldw i d a, 4, needR, [rd, ra]), (.ldh i d a, 2, needR, [rd, ra]), (.ldhu i d a, 2, needR, [rd, ra]),
      (.ldb i d a, 1, needR, [rd, ra]), (.ldbu i d a, 1, needR, [rd, ra]), (.ldu i d a, 4, needR, [rd, ra]),
      (.vld i d a, 64, needR, [16 + rd, ra]), (.vldu i d a, 64, needR, [16 + rd, ra]), (.stw i d a, 4, needW, [rd, ra]),
      (.sth i d a, 2, needW, [rd, ra]), (.stb i d a, 1, needW, [rd, ra]), (.vst i d a, 64, needW, [16 + rd, ra]),
      (.aadd i d a, 4, needA, [rd, ra]), (.acas i d a, 4, needA, [rd, ra, p.b]), (.aswp i d a, 4, needA, [rd, ra])] →
    Lone s i acceptsMem regs → (n = 64 → p.p = 0) → (c = .acas i d a → p.hasReg = true) →
    let ea := x.effAddr p a
    let off := ea % 2 ^ 29
    let bank := ea / 2 ^ 29 % 8
    let entry := (x.bk[Fin.ofNat 8 bank]).toNat
    let faults (cause : Nat) : Prop := Faults s (exec c s) i .T ⟨cause, ea, 0, false, none⟩
    let met := i.met ≠ 0 ∧ ∃ b ∈ banksOf off n, s.bankCls i.site b = 3 ∧ bitOf (s.cfld i.site SP_CTL_STRICT) b = true
    let closed := s.bankOk i.site off n .n = false ∨ met ∨ (need.w = true ∧ s.slotRo i.site off n = true)
    (ea % n ≠ 0 → faults 0x09) ∧
    (ea % n = 0 → bank = 0 →
      (0x80000 < off + n → faults 0x0A) ∧
      (off + n ≤ 0x80000 → s.sliceOk i.site i.th off n = false → faults 0x04) ∧
      (off + n ≤ 0x80000 → s.sliceOk i.site i.th off n = true → closed → faults 0x05)) ∧
    (ea % n = 0 → bank ≠ 0 →
      (entry % 2 = 0 → faults 0x06) ∧
      (entry % 2 = 1 → s.permitted x.ctx (entry / 2 ^ 29 * 2 ^ 29 + off) n need = false → faults 0x03) ∧
      (∀ g : Nat, s.resolve i.site i.th ea n need ⟨.n, i.met⟩ (need.r) = .ok (.glob g) → s.isRegSpace g = true → (n ≠ 4 ∨ need = needA) →
        faults 0x03))
end

