-- ==== Sys2Proof/Laws/Exec.lean ====
section
/-! SUPPORT. What exec is for each constructor, so that no proof unfolds the dispatch. -/

namespace Sys2Proof.Machine

@[simp] theorem exec_mov (i : Iss) (d a : BitVec 3) (s : State) : exec (.mov i d a) s = execMov i d a s := rfl
@[simp] theorem exec_add (i : Iss) (d a : BitVec 3) (s : State) : exec (.add i d a) s = execAdd i d a s := rfl
@[simp] theorem exec_sub (i : Iss) (d a : BitVec 3) (s : State) : exec (.sub i d a) s = execSub i d a s := rfl
@[simp] theorem exec_and (i : Iss) (d a : BitVec 3) (s : State) : exec (.and i d a) s = execAnd i d a s := rfl
@[simp] theorem exec_or (i : Iss) (d a : BitVec 3) (s : State) : exec (.or i d a) s = execOr i d a s := rfl
@[simp] theorem exec_xor (i : Iss) (d a : BitVec 3) (s : State) : exec (.xor i d a) s = execXor i d a s := rfl
@[simp] theorem exec_shl (i : Iss) (d a : BitVec 3) (s : State) : exec (.shl i d a) s = execShl i d a s := rfl
@[simp] theorem exec_shr (i : Iss) (d a : BitVec 3) (s : State) : exec (.shr i d a) s = execShr i d a s := rfl
@[simp] theorem exec_sar (i : Iss) (d a : BitVec 3) (s : State) : exec (.sar i d a) s = execSar i d a s := rfl
@[simp] theorem exec_mul (i : Iss) (d a : BitVec 3) (s : State) : exec (.mul i d a) s = execMul i d a s := rfl
@[simp] theorem exec_mulh (i : Iss) (d a : BitVec 3) (s : State) : exec (.mulh i d a) s = execMulh i d a s := rfl
@[simp] theorem exec_mulhu (i : Iss) (d a : BitVec 3) (s : State) : exec (.mulhu i d a) s = execMulhu i d a s := rfl
@[simp] theorem exec_slt (i : Iss) (d a : BitVec 3) (s : State) : exec (.slt i d a) s = execSlt i d a s := rfl
@[simp] theorem exec_sltu (i : Iss) (d a : BitVec 3) (s : State) : exec (.sltu i d a) s = execSltu i d a s := rfl
@[simp] theorem exec_min (i : Iss) (d a : BitVec 3) (s : State) : exec (.min i d a) s = execMin i d a s := rfl
@[simp] theorem exec_max (i : Iss) (d a : BitVec 3) (s : State) : exec (.max i d a) s = execMax i d a s := rfl
@[simp] theorem exec_addi (i : Iss) (d : BitVec 4) (imm : BitVec 2) (s : State) : exec (.addi i d imm) s = execAddi i d imm s := rfl
@[simp] theorem exec_li (i : Iss) (d : BitVec 4) (imm : BitVec 2) (s : State) : exec (.li i d imm) s = execLi i d imm s := rfl
@[simp] theorem exec_lih (i : Iss) (d : BitVec 4) (imm : BitVec 2) (s : State) : exec (.lih i d imm) s = execLih i d imm s := rfl
@[simp] theorem exec_andi (i : Iss) (d : BitVec 4) (imm : BitVec 2) (s : State) : exec (.andi i d imm) s = execAndi i d imm s := rfl
@[simp] theorem exec_branch (i : Iss) (cond : BitVec 2) (a : BitVec 4) (off : BitVec 2) (s : State) : exec (.branch i cond a off) s = execBranch i cond a off s := rfl
@[simp] theorem exec_br (i : Iss) (off : BitVec 7) (s : State) : exec (.br i off) s = execBr i off s := rfl
@[simp] theorem exec_call (i : Iss) (off : BitVec 7) (s : State) : exec (.call i off) s = execCall i off s := rfl
@[simp] theorem exec_jr (i : Iss) (a : BitVec 4) (z : BitVec 2) (s : State) : exec (.jr i a z) s = execJr i a z s := rfl
@[simp] theorem exec_callr (i : Iss) (a : BitVec 4) (z : BitVec 2) (s : State) : exec (.callr i a z) s = execCallr i a z s := rfl
@[simp] theorem exec_ret (i : Iss) (z : BitVec 6) (s : State) : exec (.ret i z) s = execRet i z s := rfl
@[simp] theorem exec_loop (i : Iss) (k : BitVec 1) (a : BitVec 4) (off : BitVec 1) (s : State) : exec (.loop i k a off) s = execLoop i k a off s := rfl
@[simp] theorem exec_vmov (i : Iss) (d a : BitVec 3) (s : State) : exec (.vmov i d a) s = execVmov i d a s := rfl
@[simp] theorem exec_vadd (i : Iss) (d a : BitVec 3) (s : State) : exec (.vadd i d a) s = execVadd i d a s := rfl
@[simp] theorem exec_vsub (i : Iss) (d a : BitVec 3) (s : State) : exec (.vsub i d a) s = execVsub i d a s := rfl
@[simp] theorem exec_vmul (i : Iss) (d a : BitVec 3) (s : State) : exec (.vmul i d a) s = execVmul i d a s := rfl
@[simp] theorem exec_vfma (i : Iss) (d a : BitVec 3) (s : State) : exec (.vfma i d a) s = execVfma i d a s := rfl
@[simp] theorem exec_vmin (i : Iss) (d a : BitVec 3) (s : State) : exec (.vmin i d a) s = execVmin i d a s := rfl
@[simp] theorem exec_vmax (i : Iss) (d a : BitVec 3) (s : State) : exec (.vmax i d a) s = execVmax i d a s := rfl
@[simp] theorem exec_vand (i : Iss) (d a : BitVec 3) (s : State) : exec (.vand i d a) s = execVand i d a s := rfl
@[simp] theorem exec_vor (i : Iss) (d a : BitVec 3) (s : State) : exec (.vor i d a) s = execVor i d a s := rfl
@[simp] theorem exec_vxor (i : Iss) (d a : BitVec 3) (s : State) : exec (.vxor i d a) s = execVxor i d a s := rfl
@[simp] theorem exec_vshift (i : Iss) (d a : BitVec 3) (s : State) : exec (.vshift i d a) s = execVshift i d a s := rfl
@[simp] theorem exec_vcmp (i : Iss) (d a : BitVec 3) (s : State) : exec (.vcmp i d a) s = execVcmp i d a s := rfl
@[simp] theorem exec_vsel (i : Iss) (d a : BitVec 3) (s : State) : exec (.vsel i d a) s = execVsel i d a s := rfl
@[simp] theorem exec_vcvt (i : Iss) (d a : BitVec 3) (s : State) : exec (.vcvt i d a) s = execVcvt i d a s := rfl
@[simp] theorem exec_vredSum (i : Iss) (d a : BitVec 3) (s : State) : exec (.vredSum i d a) s = execVredSum i d a s := rfl
@[simp] theorem exec_vredMax (i : Iss) (d a : BitVec 3) (s : State) : exec (.vredMax i d a) s = execVredMax i d a s := rfl
@[simp] theorem exec_vredMin (i : Iss) (d a : BitVec 3) (s : State) : exec (.vredMin i d a) s = execVredMin i d a s := rfl
@[simp] theorem exec_vbc (i : Iss) (d a : BitVec 3) (s : State) : exec (.vbc i d a) s = execVbc i d a s := rfl
@[simp] theorem exec_ldw (i : Iss) (d a : BitVec 3) (s : State) : exec (.ldw i d a) s = execLdw i d a s := rfl
@[simp] theorem exec_ldh (i : Iss) (d a : BitVec 3) (s : State) : exec (.ldh i d a) s = execLdh i d a s := rfl
@[simp] theorem exec_ldhu (i : Iss) (d a : BitVec 3) (s : State) : exec (.ldhu i d a) s = execLdhu i d a s := rfl
@[simp] theorem exec_ldb (i : Iss) (d a : BitVec 3) (s : State) : exec (.ldb i d a) s = execLdb i d a s := rfl
@[simp] theorem exec_ldbu (i : Iss) (d a : BitVec 3) (s : State) : exec (.ldbu i d a) s = execLdbu i d a s := rfl
@[simp] theorem exec_stw (i : Iss) (d a : BitVec 3) (s : State) : exec (.stw i d a) s = execStw i d a s := rfl
@[simp] theorem exec_sth (i : Iss) (d a : BitVec 3) (s : State) : exec (.sth i d a) s = execSth i d a s := rfl
@[simp] theorem exec_stb (i : Iss) (d a : BitVec 3) (s : State) : exec (.stb i d a) s = execStb i d a s := rfl
@[simp] theorem exec_vld (i : Iss) (d a : BitVec 3) (s : State) : exec (.vld i d a) s = execVld i d a s := rfl
@[simp] theorem exec_vst (i : Iss) (d a : BitVec 3) (s : State) : exec (.vst i d a) s = execVst i d a s := rfl
@[simp] theorem exec_ldu (i : Iss) (d a : BitVec 3) (s : State) : exec (.ldu i d a) s = execLdu i d a s := rfl
@[simp] theorem exec_vldu (i : Iss) (d a : BitVec 3) (s : State) : exec (.vldu i d a) s = execVldu i d a s := rfl
@[simp] theorem exec_aadd (i : Iss) (d a : BitVec 3) (s : State) : exec (.aadd i d a) s = execAadd i d a s := rfl
@[simp] theorem exec_acas (i : Iss) (d a : BitVec 3) (s : State) : exec (.acas i d a) s = execAcas i d a s := rfl
@[simp] theorem exec_aswp (i : Iss) (d a : BitVec 3) (s : State) : exec (.aswp i d a) s = execAswp i d a s := rfl
@[simp] theorem exec_dcClean (i : Iss) (d a : BitVec 3) (s : State) : exec (.dcClean i d a) s = execDcClean i d a s := rfl
@[simp] theorem exec_dcInvalidate (i : Iss) (d a : BitVec 3) (s : State) : exec (.dcInvalidate i d a) s = execDcInvalidate i d a s := rfl
@[simp] theorem exec_dcCleanInvalidate (i : Iss) (d a : BitVec 3) (s : State) : exec (.dcCleanInvalidate i d a) s = execDcCleanInvalidate i d a s := rfl
@[simp] theorem exec_tcfg (i : Iss) (d a : BitVec 3) (s : State) : exec (.tcfg i d a) s = execTcfg i d a s := rfl
@[simp] theorem exec_trel (i : Iss) (d z : BitVec 3) (s : State) : exec (.trel i d z) s = execTrel i d z s := rfl
@[simp] theorem exec_tld (i : Iss) (d a : BitVec 3) (s : State) : exec (.tld i d a) s = execTld i d a s := rfl
@[simp] theorem exec_tst (i : Iss) (d a : BitVec 3) (s : State) : exec (.tst i d a) s = execTst i d a s := rfl
@[simp] theorem exec_tmmaAcc0 (i : Iss) (a b : BitVec 3) (s : State) : exec (.tmmaAcc0 i a b) s = execTmmaAcc0 i a b s := rfl
@[simp] theorem exec_tmmaAcc1 (i : Iss) (a b : BitVec 3) (s : State) : exec (.tmmaAcc1 i a b) s = execTmmaAcc1 i a b s := rfl
@[simp] theorem exec_tcvt (i : Iss) (d a : BitVec 3) (s : State) : exec (.tcvt i d a) s = execTcvt i d a s := rfl
@[simp] theorem exec_tcvta (i : Iss) (d a : BitVec 3) (s : State) : exec (.tcvta i d a) s = execTcvta i d a s := rfl
@[simp] theorem exec_tza (i : Iss) (acc : BitVec 3) (a : BitVec 3) (s : State) : exec (.tza i acc a) s = execTza i acc a s := rfl
@[simp] theorem exec_tmova (i : Iss) (d a : BitVec 3) (s : State) : exec (.tmova i d a) s = execTmova i d a s := rfl
@[simp] theorem exec_trd (i : Iss) (t v : BitVec 3) (s : State) : exec (.trd i t v) s = execTrd i t v s := rfl
@[simp] theorem exec_twr (i : Iss) (t v : BitVec 3) (s : State) : exec (.twr i t v) s = execTwr i t v s := rfl
@[simp] theorem exec_tlds (i : Iss) (d a : BitVec 3) (s : State) : exec (.tlds i d a) s = execTlds i d a s := rfl
@[simp] theorem exec_tsts (i : Iss) (d a : BitVec 3) (s : State) : exec (.tsts i d a) s = execTsts i d a s := rfl
@[simp] theorem exec_twa (i : Iss) (d a : BitVec 3) (s : State) : exec (.twa i d a) s = execTwa i d a s := rfl
@[simp] theorem exec_tileOpComplete (site : Nat) (th : TileTurn) (s : State) : exec (.tileOpComplete site th) s = execTileOpComplete site th s := rfl
@[simp] theorem exec_tileOpStop (site : Nat) (th : TileTurn) (boundary : Nat) (s : State) : exec (.tileOpStop site th boundary) s = execTileOpStop site th boundary s := rfl
@[simp] theorem exec_csig (i : Iss) (a b : BitVec 3) (s : State) : exec (.csig i a b) s = execCsig i a b s := rfl
@[simp] theorem exec_cwait (i : Iss) (a b : BitVec 3) (s : State) : exec (.cwait i a b) s = execCwait i a b s := rfl
@[simp] theorem exec_ctake (i : Iss) (a b : BitVec 3) (s : State) : exec (.ctake i a b) s = execCtake i a b s := rfl
@[simp] theorem exec_carm (i : Iss) (a b : BitVec 3) (s : State) : exec (.carm i a b) s = execCarm i a b s := rfl
@[simp] theorem exec_carmDisarm (i : Iss) (a b : BitVec 3) (s : State) : exec (.carmDisarm i a b) s = execCarmDisarm i a b s := rfl
@[simp] theorem exec_qsend (i : Iss) (a b : BitVec 3) (s : State) : exec (.qsend i a b) s = execQsend i a b s := rfl
@[simp] theorem exec_qsendCommit (i : Iss) (a b : BitVec 3) (s : State) : exec (.qsendCommit i a b) s = execQsendCommit i a b s := rfl
@[simp] theorem exec_qrecv (i : Iss) (a b : BitVec 3) (s : State) : exec (.qrecv i a b) s = execQrecv i a b s := rfl
@[simp] theorem exec_qrecvRelease (i : Iss) (a b : BitVec 3) (s : State) : exec (.qrecvRelease i a b) s = execQrecvRelease i a b s := rfl
@[simp] theorem exec_qrecvReleaseReceive (i : Iss) (a b : BitVec 3) (s : State) : exec (.qrecvReleaseReceive i a b) s = execQrecvReleaseReceive i a b s := rfl
@[simp] theorem exec_qclose (i : Iss) (a b : BitVec 3) (s : State) : exec (.qclose i a b) s = execQclose i a b s := rfl
@[simp] theorem exec_qopen (i : Iss) (a b : BitVec 3) (s : State) : exec (.qopen i a b) s = execQopen i a b s := rfl
@[simp] theorem exec_dmago (i : Iss) (a b : BitVec 3) (s : State) : exec (.dmago i a b) s = execDmago i a b s := rfl
@[simp] theorem exec_dmawait (i : Iss) (a b : BitVec 3) (s : State) : exec (.dmawait i a b) s = execDmawait i a b s := rfl
@[simp] theorem exec_dmawaitDrain (i : Iss) (a b : BitVec 3) (s : State) : exec (.dmawaitDrain i a b) s = execDmawaitDrain i a b s := rfl
@[simp] theorem exec_mfill (i : Iss) (a b : BitVec 3) (s : State) : exec (.mfill i a b) s = execMfill i a b s := rfl
@[simp] theorem exec_mcopy (i : Iss) (a b : BitVec 3) (s : State) : exec (.mcopy i a b) s = execMcopy i a b s := rfl
@[simp] theorem exec_memoryOpComplete (site : MemTurn) (s : State) : exec (.memoryOpComplete site) s = execMemoryOpComplete site s := rfl
@[simp] theorem exec_nop (i : Iss) (a b : BitVec 3) (s : State) : exec (.nop i a b) s = execNop i a b s := rfl
@[simp] theorem exec_sleep (i : Iss) (a b : BitVec 3) (s : State) : exec (.sleep i a b) s = execSleep i a b s := rfl
@[simp] theorem exec_trap (i : Iss) (a b : BitVec 3) (s : State) : exec (.trap i a b) s = execTrap i a b s := rfl
@[simp] theorem exec_brk (i : Iss) (a b : BitVec 3) (s : State) : exec (.brk i a b) s = execBrk i a b s := rfl
@[simp] theorem exec_eret (i : Iss) (a b : BitVec 3) (s : State) : exec (.eret i a b) s = execEret i a b s := rfl
@[simp] theorem exec_mfs (i : Iss) (a b : BitVec 3) (s : State) : exec (.mfs i a b) s = execMfs i a b s := rfl
@[simp] theorem exec_mts (i : Iss) (a b : BitVec 3) (s : State) : exec (.mts i a b) s = execMts i a b s := rfl
@[simp] theorem exec_mfsD (i : Iss) (a b : BitVec 3) (s : State) : exec (.mfsD i a b) s = execMfsD i a b s := rfl
@[simp] theorem exec_mtsD (i : Iss) (a b : BitVec 3) (s : State) : exec (.mtsD i a b) s = execMtsD i a b s := rfl
@[simp] theorem exec_mtb (i : Iss) (a b : BitVec 3) (s : State) : exec (.mtb i a b) s = execMtb i a b s := rfl
@[simp] theorem exec_mfb (i : Iss) (a b : BitVec 3) (s : State) : exec (.mfb i a b) s = execMfb i a b s := rfl
@[simp] theorem exec_stepend (i : Iss) (a b : BitVec 3) (s : State) : exec (.stepend i a b) s = execStepend i a b s := rfl
@[simp] theorem exec_stependc (i : Iss) (a b : BitVec 3) (s : State) : exec (.stependc i a b) s = execStependc i a b s := rfl
@[simp] theorem exec_batchend (i : Iss) (a b : BitVec 3) (s : State) : exec (.batchend i a b) s = execBatchend i a b s := rfl
@[simp] theorem exec_loadDataArrival (site : Nat) (th : Fin 4) (k : Nat) (what : Arrival) (s : State) : exec (.loadDataArrival site th k what) s = execLoadDataArrival site th k what s := rfl
@[simp] theorem exec_cacheLineFill (site : Nat) (addr : Nat) (demand : Meeting Bool) (s : State) : exec (.cacheLineFill site addr demand) s = execCacheLineFill site addr demand s := rfl
@[simp] theorem exec_wake (site : Nat) (th : Fin 4) (s : State) : exec (.wake site th) s = execWake site th s := rfl
@[simp] theorem exec_timerFire (site : Nat) (th : Fin 4) (at_ : Nat) (s : State) : exec (.timerFire site th at_) s = execTimerFire site th at_ s := rfl
@[simp] theorem exec_waitBound (site : Nat) (th : Fin 4) (at_ : Nat) (s : State) : exec (.waitBound site th at_) s = execWaitBound site th at_ s := rfl
@[simp] theorem exec_thread0L1Entry (site : Nat) (s : State) : exec (.thread0L1Entry site) s = execThread0L1Entry site s := rfl
@[simp] theorem exec_interruptTake (site : Nat) (th : Fin 4) (s : State) : exec (.interruptTake site th) s = execInterruptTake site th s := rfl
@[simp] theorem exec_breakpointStop (site : Nat) (th : Fin 4) (s : State) : exec (.breakpointStop site th) s = execBreakpointStop site th s := rfl
@[simp] theorem exec_budgetCut (site : Nat) (at_ : Nat) (s : State) : exec (.budgetCut site at_) s = execBudgetCut site at_ s := rfl
@[simp] theorem exec_cueSignalArrival (k : Nat) (s : State) : exec (.cueSignalArrival k) s = execCueSignalArrival k s := rfl
@[simp] theorem exec_queueMessageCommit (site : Nat) (q : Meeting (Fin 8)) (s : State) : exec (.queueMessageCommit site q) s = execQueueMessageCommit site q s := rfl
@[simp] theorem exec_queueSendRetry (site : Nat) (th : Fin 4) (s : State) : exec (.queueSendRetry site th) s = execQueueSendRetry site th s := rfl
@[simp] theorem exec_threadStart (r : Requester) (site : Nat) (th : Fin 4) (s : State) : exec (.threadStart r site th) s = execThreadStart r site th s := rfl
@[simp] theorem exec_threadHalt (r : Requester) (site : Nat) (th : Fin 4) (s : State) : exec (.threadHalt r site th) s = execThreadHalt r site th s := rfl
@[simp] theorem exec_threadResume (r : Requester) (site : Nat) (th : Fin 4) (s : State) : exec (.threadResume r site th) s = execThreadResume r site th s := rfl
@[simp] theorem exec_safeWrite (r : Requester) (site : Nat) (v : Bool) (s : State) : exec (.safeWrite r site v) s = execSafeWrite r site v s := rfl
@[simp] theorem exec_ctxChange (r : Requester) (site : Nat) (th : Fin 4) (ctx : Nat) (s : State) : exec (.ctxChange r site th ctx) s = execCtxChange r site th ctx s := rfl
@[simp] theorem exec_swi (r : Requester) (site : Nat) (th : Fin 4) (s : State) : exec (.swi r site th) s = execSwi r site th s := rfl
@[simp] theorem exec_broadcastWrite (r : Requester) (img : Image) (off : Nat) (v : Word) (s : State) : exec (.broadcastWrite r img off v) s = execBroadcastWrite r img off v s := rfl
@[simp] theorem exec_cueCountWrite (r : Requester) (site : Nat) (n : Fin 64) (v : Word) (s : State) : exec (.cueCountWrite r site n v) s = execCueCountWrite r site n v s := rfl
@[simp] theorem exec_regionEnable (site : Nat) (k : Fin 8) (v : Word) (s : State) : exec (.regionEnable site k v) s = execRegionEnable site k v s := rfl
@[simp] theorem exec_claim (site : Nat) (k : Fin 8) (n : Nat) (s : State) : exec (.claim site k n) s = execClaim site k n s := rfl
@[simp] theorem exec_release (site : Nat) (k : Fin 8) (n : Nat) (s : State) : exec (.release site k n) s = execRelease site k n s := rfl
@[simp] theorem exec_queueEnable (site : Nat) (q : Fin 8) (v : Word) (s : State) : exec (.queueEnable site q v) s = execQueueEnable site q v s := rfl
@[simp] theorem exec_stagingDiscard (site : Nat) (th : Fin 4) (s : State) : exec (.stagingDiscard site th) s = execStagingDiscard site th s := rfl
@[simp] theorem exec_cacheInv (site : Nat) (s : State) : exec (.cacheInv site) s = execCacheInv site s := rfl
@[simp] theorem exec_cacheClean (site : Nat) (s : State) : exec (.cacheClean site) s = execCacheClean site s := rfl
@[simp] theorem exec_cacheEnable (r : Requester) (site : Nat) (s : State) : exec (.cacheEnable r site) s = execCacheEnable r site s := rfl
@[simp] theorem exec_cacheDisable (site : Nat) (s : State) : exec (.cacheDisable site) s = execCacheDisable site s := rfl
@[simp] theorem exec_numSeedAccess (site : Nat) (th : Fin 4) (w : Option Word) (s : State) : exec (.numSeedAccess site th w) s = execNumSeedAccess site th w s := rfl
@[simp] theorem exec_l2Resume (r : Requester) (site : Nat) (th : Fin 4) (s : State) : exec (.l2Resume r site th) s = execL2Resume r site th s := rfl
@[simp] theorem exec_l2Run2 (r : Requester) (site : Nat) (th : Fin 4) (s : State) : exec (.l2Run2 r site th) s = execL2Run2 r site th s := rfl
@[simp] theorem exec_debugStop (r : Requester) (site : Nat) (th : Fin 4) (s : State) : exec (.debugStop r site th) s = execDebugStop r site th s := rfl
@[simp] theorem exec_debugResume (r : Requester) (site : Nat) (th : Fin 4) (s : State) : exec (.debugResume r site th) s = execDebugResume r site th s := rfl
@[simp] theorem exec_debugStep (r : Requester) (site : Nat) (th : Fin 4) (s : State) : exec (.debugStep r site th) s = execDebugStep r site th s := rfl
@[simp] theorem exec_debugRegAccess (r : Requester) (site : Nat) (w : Option Word) (s : State) : exec (.debugRegAccess r site w) s = execDebugRegAccess r site w s := rfl
@[simp] theorem exec_dmaCommandStart (ch : ChanId) (s : State) : exec (.dmaCommandStart ch) s = execDmaCommandStart ch s := rfl
@[simp] theorem exec_dmaBurst (ch : ChanId) (what : Arrival) (s : State) : exec (.dmaBurst ch what) s = execDmaBurst ch what s := rfl
@[simp] theorem exec_dmaDone (ch : ChanId) (s : State) : exec (.dmaDone ch) s = execDmaDone ch s := rfl
@[simp] theorem exec_dmaErrorHalt (ch : ChanId) (s : State) : exec (.dmaErrorHalt ch) s = execDmaErrorHalt ch s := rfl
@[simp] theorem exec_dmaTimeout (ch : ChanId) (at_ : Nat) (s : State) : exec (.dmaTimeout ch at_) s = execDmaTimeout ch at_ s := rfl
@[simp] theorem exec_dmaRetry (r : Requester) (ch : ChanId) (s : State) : exec (.dmaRetry r ch) s = execDmaRetry r ch s := rfl
@[simp] theorem exec_dmaResume (r : Requester) (ch : ChanId) (s : State) : exec (.dmaResume r ch) s = execDmaResume r ch s := rfl
@[simp] theorem exec_dmaSkip (r : Requester) (ch : ChanId) (s : State) : exec (.dmaSkip r ch) s = execDmaSkip r ch s := rfl
@[simp] theorem exec_dmaFlush (r : Requester) (ch : ChanId) (s : State) : exec (.dmaFlush r ch) s = execDmaFlush r ch s := rfl
@[simp] theorem exec_bdmaDoorbell (r : Requester) (die : Nat) (c : Nat) (v : Word) (s : State) : exec (.bdmaDoorbell r die c v) s = execBdmaDoorbell r die c v s := rfl
@[simp] theorem exec_bdmaDescriptorFetch (die : Nat) (c : Nat) (what : Arrival) (s : State) : exec (.bdmaDescriptorFetch die c what) s = execBdmaDescriptorFetch die c what s := rfl
@[simp] theorem exec_bdmaReq (r : Requester) (die : Nat) (line : Nat) (s : State) : exec (.bdmaReq r die line) s = execBdmaReq r die line s := rfl
@[simp] theorem exec_writeLand (k : Nat) (what : Arrival) (s : State) : exec (.writeLand k what) s = execWriteLand k what s := rfl
@[simp] theorem exec_hbmRead (die : Nat) (addr : Nat) (ecc : EccOutcome) (cycle : Nat) (s : State) : exec (.hbmRead die addr ecc cycle) s = execHbmRead die addr ecc cycle s := rfl
@[simp] theorem exec_meshTimeout (die : Nat) (addr : Nat) (hdr : Bool) (s : State) : exec (.meshTimeout die addr hdr) s = execMeshTimeout die addr hdr s := rfl
@[simp] theorem exec_pmcLoad (r : Requester) (die : Nat) (grp : Bool) (target : Meeting Nat) (s : State) : exec (.pmcLoad r die grp target) s = execPmcLoad r die grp target s := rfl
@[simp] theorem exec_pmcSave (r : Requester) (die : Nat) (grp : Bool) (target : Meeting Nat) (s : State) : exec (.pmcSave r die grp target) s = execPmcSave r die grp target s := rfl
@[simp] theorem exec_curtain (at_ : Nat) (s : State) : exec (.curtain at_) s = execCurtain at_ s := rfl
@[simp] theorem exec_curtainInEdge (at_ : Pulse) (s : State) : exec (.curtainInEdge at_) s = execCurtainInEdge at_ s := rfl
@[simp] theorem exec_flywheelCurtain (at_ : Nat) (s : State) : exec (.flywheelCurtain at_) s = execFlywheelCurtain at_ s := rfl
@[simp] theorem exec_acquisitionTimeout (at_ : Nat) (s : State) : exec (.acquisitionTimeout at_) s = execAcquisitionTimeout at_ s := rfl
@[simp] theorem exec_arm (r : Requester) (s : State) : exec (.arm r) s = execArm r s := rfl
@[simp] theorem exec_sourceSwitch (r : Requester) (src : Nat) (s : State) : exec (.sourceSwitch r src) s = execSourceSwitch r src s := rfl
@[simp] theorem exec_ppsEdge (at_ : Pulse) (s : State) : exec (.ppsEdge at_) s = execPpsEdge at_ s := rfl
@[simp] theorem exec_clockFix (at_ : Nat) (s : State) : exec (.clockFix at_) s = execClockFix at_ s := rfl
@[simp] theorem exec_boxOfficeClose (at_ : Nat) (s : State) : exec (.boxOfficeClose at_) s = execBoxOfficeClose at_ s := rfl
@[simp] theorem exec_guardBandStart (at_ : GuardTurn) (s : State) : exec (.guardBandStart at_) s = execGuardBandStart at_ s := rfl
@[simp] theorem exec_refreshBurst (at_ : Nat) (s : State) : exec (.refreshBurst at_) s = execRefreshBurst at_ s := rfl
@[simp] theorem exec_deliveryDeadline (at_ : Nat) (s : State) : exec (.deliveryDeadline at_) s = execDeliveryDeadline at_ s := rfl
@[simp] theorem exec_actRelease (r : Requester) (die : Nat) (act : Nat) (s : State) : exec (.actRelease r die act) s = execActRelease r die act s := rfl
@[simp] theorem exec_boxEnable (r : Requester) (die : Nat) (v : Bool) (s : State) : exec (.boxEnable r die v) s = execBoxEnable r die v s := rfl
@[simp] theorem exec_intakeDoorbell (r : Requester) (die : Nat) (ring : Nat) (v : Word) (s : State) : exec (.intakeDoorbell r die ring v) s = execIntakeDoorbell r die ring v s := rfl
@[simp] theorem exec_intakeFetch (die : Nat) (ring : Nat) (at_ : Nat) (what : Arrival) (s : State) : exec (.intakeFetch die ring at_ what) s = execIntakeFetch die ring at_ what s := rfl
@[simp] theorem exec_forwardedRecord (die : Nat) (at_ : Meeting Nat) (s : State) : exec (.forwardedRecord die at_) s = execForwardedRecord die at_ s := rfl
@[simp] theorem exec_cbRead (r : Requester) (die : Nat) (stream : Nat) (s : State) : exec (.cbRead r die stream) s = execCbRead r die stream s := rfl
@[simp] theorem exec_cbWrite (r : Requester) (die : Nat) (stream : Nat) (s : State) : exec (.cbWrite r die stream) s = execCbWrite r die stream s := rfl
@[simp] theorem exec_cbSuspend (r : Requester) (die : Nat) (stream : Nat) (s : State) : exec (.cbSuspend r die stream) s = execCbSuspend r die stream s := rfl
@[simp] theorem exec_cbResume (r : Requester) (die : Nat) (stream : Nat) (s : State) : exec (.cbResume r die stream) s = execCbResume r die stream s := rfl
@[simp] theorem exec_cbFree (r : Requester) (die : Nat) (stream : Nat) (s : State) : exec (.cbFree r die stream) s = execCbFree r die stream s := rfl
@[simp] theorem exec_cbCopyIn (r : Requester) (die : Nat) (stream : Meeting Nat) (s : State) : exec (.cbCopyIn r die stream) s = execCbCopyIn r die stream s := rfl
@[simp] theorem exec_cbCopyOut (r : Requester) (die : Nat) (stream : Meeting Nat) (s : State) : exec (.cbCopyOut r die stream) s = execCbCopyOut r die stream s := rfl
@[simp] theorem exec_callboardEccError (stream : Nat) (s : State) : exec (.callboardEccError stream) s = execCallboardEccError stream s := rfl
@[simp] theorem exec_stageBatch (site : Nat) (at_ : Meeting Nat) (s : State) : exec (.stageBatch site at_) s = execStageBatch site at_ s := rfl
@[simp] theorem exec_strike (site : Nat) (slot : Nat) (at_ : Meeting Nat) (s : State) : exec (.strike site slot at_) s = execStrike site slot at_ s := rfl
@[simp] theorem exec_egressRecord (die : Nat) (at_ : Nat) (refused : Meeting Bool) (s : State) : exec (.egressRecord die at_ refused) s = execEgressRecord die at_ refused s := rfl
@[simp] theorem exec_egressCompletion (die : Nat) (ring : Nat) (at_ : Nat) (refused : Meeting Bool) (s : State) : exec (.egressCompletion die ring at_ refused) s = execEgressCompletion die ring at_ refused s := rfl
@[simp] theorem exec_egressHeadWrite (r : Requester) (die : Nat) (ring : Nat) (v : Word) (s : State) : exec (.egressHeadWrite r die ring v) s = execEgressHeadWrite r die ring v s := rfl
@[simp] theorem exec_replayPrepare (site : Nat) (act : Nat) (s : State) : exec (.replayPrepare site act) s = execReplayPrepare site act s := rfl
@[simp] theorem exec_replayStage (die : Nat) (at_ : Meeting Nat) (s : State) : exec (.replayStage die at_) s = execReplayStage die at_ s := rfl
@[simp] theorem exec_quarantine (site : Nat) (why : QuarCause) (at_ : Nat) (s : State) : exec (.quarantine site why at_) s = execQuarantine site why at_ s := rfl
@[simp] theorem exec_promotion (site : Nat) (at_ : Nat) (s : State) : exec (.promotion site at_) s = execPromotion site at_ s := rfl
@[simp] theorem exec_machineCheckHandling (site : Nat) (th : Fin 4) (at_ : Nat) (s : State) : exec (.machineCheckHandling site th at_) s = execMachineCheckHandling site th at_ s := rfl
@[simp] theorem exec_ledgerGranuleLand (die : Nat) (s : State) : exec (.ledgerGranuleLand die) s = execLedgerGranuleLand die s := rfl
@[simp] theorem exec_ledgerEnable (r : Requester) (die : Nat) (s : State) : exec (.ledgerEnable r die) s = execLedgerEnable r die s := rfl
@[simp] theorem exec_ledgerDisable (r : Requester) (die : Nat) (s : State) : exec (.ledgerDisable r die) s = execLedgerDisable r die s := rfl
@[simp] theorem exec_updateBoundary (die : Nat) (s : State) : exec (.updateBoundary die) s = execUpdateBoundary die s := rfl
@[simp] theorem exec_grpReadActive (r : Requester) (die : Nat) (g : Nat) (s : State) : exec (.grpReadActive r die g) s = execGrpReadActive r die g s := rfl
@[simp] theorem exec_grpReadShadow (r : Requester) (die : Nat) (g : Nat) (s : State) : exec (.grpReadShadow r die g) s = execGrpReadShadow r die g s := rfl
@[simp] theorem exec_writeShadow (r : Requester) (die : Nat) (g : Nat) (s : State) : exec (.writeShadow r die g) s = execWriteShadow r die g s := rfl
@[simp] theorem exec_grpReadEta (r : Requester) (die : Nat) (g : Nat) (s : State) : exec (.grpReadEta r die g) s = execGrpReadEta r die g s := rfl
@[simp] theorem exec_eventDelivery (die : Nat) (at_ : Nat) (s : State) : exec (.eventDelivery die at_) s = execEventDelivery die at_ s := rfl
@[simp] theorem exec_holdoffExpiry (die : Nat) (g : Nat) (at_ : Nat) (s : State) : exec (.holdoffExpiry die g at_) s = execHoldoffExpiry die g at_ s := rfl
@[simp] theorem exec_eoi (r : Requester) (die : Nat) (t : Nat) (s : State) : exec (.eoi r die t) s = execEoi r die t s := rfl
@[simp] theorem exec_evgSwset (r : Requester) (die : Nat) (src : Nat) (s : State) : exec (.evgSwset r die src) s = execEvgSwset r die src s := rfl
@[simp] theorem exec_fabricLinkUp (die : Nat) (peerNode peerPort : Nat) (delay : Trained) (s : State) : exec (.fabricLinkUp die peerNode peerPort delay) s = execFabricLinkUp die peerNode peerPort delay s := rfl
@[simp] theorem exec_fabricLinkDown (die : Nat) (s : State) : exec (.fabricLinkDown die) s = execFabricLinkDown die s := rfl
@[simp] theorem exec_retrain (r : Requester) (die : Nat) (s : State) : exec (.retrain r die) s = execRetrain r die s := rfl
@[simp] theorem exec_flitReceive (die : Nat) (seq : Flit) (corrected : Nat) (crcOk : BitVec 64) (s : State) : exec (.flitReceive die seq corrected crcOk) s = execFlitReceive die seq corrected crcOk s := rfl
@[simp] theorem exec_fabricRequest (die : Nat) (q : FabReq) (s : State) : exec (.fabricRequest die q) s = execFabricRequest die q s := rfl
@[simp] theorem exec_ingressAdmit (die : Nat) (at_ : Nat) (s : State) : exec (.ingressAdmit die at_) s = execIngressAdmit die at_ s := rfl
@[simp] theorem exec_fabricResponse (tag : Nat) (status : Nat) (data : List Byte) (poison : BitVec 5) (s : State) : exec (.fabricResponse tag status data poison) s = execFabricResponse tag status data poison s := rfl
@[simp] theorem exec_fabricTimeout (tag : TagTurn) (s : State) : exec (.fabricTimeout tag) s = execFabricTimeout tag s := rfl
@[simp] theorem exec_timeMarkSend (at_ : Nat) (s : State) : exec (.timeMarkSend at_) s = execTimeMarkSend at_ s := rfl
@[simp] theorem exec_timeMarkReceive (die : Nat) (lead frame : Nat) (at_ : Nat) (s : State) : exec (.timeMarkReceive die lead frame at_) s = execTimeMarkReceive die lead frame at_ s := rfl
@[simp] theorem exec_nodeWrite (r : Requester) (v : Nat) (s : State) : exec (.nodeWrite r v) s = execNodeWrite r v s := rfl
@[simp] theorem exec_hostRead (bar : Nat) (off : Nat) (len : Meeting Nat) (s : State) : exec (.hostRead bar off len) s = execHostRead bar off len s := rfl
@[simp] theorem exec_hostWrite (bar : Nat) (off : Nat) (data : List Byte) (ep : Meeting Bool) (s : State) : exec (.hostWrite bar off data ep) s = execHostWrite bar off data ep s := rfl
@[simp] theorem exec_msixUnmask (v : Nat) (s : State) : exec (.msixUnmask v) s = execMsixUnmask v s := rfl
@[simp] theorem exec_ctxReadEntry (r : Requester) (ctx entry : Nat) (s : State) : exec (.ctxReadEntry r ctx entry) s = execCtxReadEntry r ctx entry s := rfl
@[simp] theorem exec_ctxWriteEntry (r : Requester) (ctx entry : Nat) (s : State) : exec (.ctxWriteEntry r ctx entry) s = execCtxWriteEntry r ctx entry s := rfl
@[simp] theorem exec_ctxReadAttr (r : Requester) (ctx : Nat) (s : State) : exec (.ctxReadAttr r ctx) s = execCtxReadAttr r ctx s := rfl
@[simp] theorem exec_ctxWriteAttr (r : Requester) (ctx : Nat) (s : State) : exec (.ctxWriteAttr r ctx) s = execCtxWriteAttr r ctx s := rfl
@[simp] theorem exec_publish (r : Requester) (ctx : Nat) (s : State) : exec (.publish r ctx) s = execPublish r ctx s := rfl
@[simp] theorem exec_publishComplete (s : State) : exec (.publishComplete) s = execPublishComplete s := rfl
@[simp] theorem exec_swapRequest (r : Requester) (s : State) : exec (.swapRequest r) s = execSwapRequest r s := rfl
@[simp] theorem exec_swapValidation (at_ : Nat) (s : State) : exec (.swapValidation at_) s = execSwapValidation at_ s := rfl
@[simp] theorem exec_swapCancel (r : Requester) (s : State) : exec (.swapCancel r) s = execSwapCancel r s := rfl
@[simp] theorem exec_ssCopy (r : Requester) (s : State) : exec (.ssCopy r) s = execSsCopy r s := rfl
@[simp] theorem exec_actReadActive (r : Requester) (act : Nat) (s : State) : exec (.actReadActive r act) s = execActReadActive r act s := rfl
@[simp] theorem exec_actReadShadow (r : Requester) (act : Nat) (s : State) : exec (.actReadShadow r act) s = execActReadShadow r act s := rfl
@[simp] theorem exec_actWriteShadow (r : Requester) (act : Nat) (s : State) : exec (.actWriteShadow r act) s = execActWriteShadow r act s := rfl
@[simp] theorem exec_asnReadActive (r : Requester) (die site : Nat) (s : State) : exec (.asnReadActive r die site) s = execAsnReadActive r die site s := rfl
@[simp] theorem exec_asnReadShadow (r : Requester) (die site : Nat) (s : State) : exec (.asnReadShadow r die site) s = execAsnReadShadow r die site s := rfl
@[simp] theorem exec_asnWriteShadow (r : Requester) (die site : Nat) (s : State) : exec (.asnWriteShadow r die site) s = execAsnWriteShadow r die site s := rfl
@[simp] theorem exec_d3hotEntry (s : State) : exec (.d3hotEntry) s = execD3hotEntry s := rfl
@[simp] theorem exec_d0Return (s : State) : exec (.d0Return) s = execD0Return s := rfl
@[simp] theorem exec_pmeTurnOff (s : State) : exec (.pmeTurnOff) s = execPmeTurnOff s := rfl
@[simp] theorem exec_heartbeat (s : State) : exec (.heartbeat) s = execHeartbeat s := rfl
@[simp] theorem exec_takeover (s : State) : exec (.takeover) s = execTakeover s := rfl
@[simp] theorem exec_sensorSample (x : Sensors) (s : State) : exec (.sensorSample x) s = execSensorSample x s := rfl
@[simp] theorem exec_eventRetry (port : Fin 2) (s : State) : exec (.eventRetry port) s = execEventRetry port s := rfl
@[simp] theorem exec_pldmEventAck (port : Fin 2) (s : State) : exec (.pldmEventAck port) s = execPldmEventAck port s := rfl
@[simp] theorem exec_logAck (r : Requester) (s : State) : exec (.logAck r) s = execLogAck r s := rfl
@[simp] theorem exec_entdaa (port : Fin 2) (addr : Nat) (s : State) : exec (.entdaa port addr) s = execEntdaa port addr s := rfl
@[simp] theorem exec_setdasa (port : Fin 2) (addr : Dasa) (s : State) : exec (.setdasa port addr) s = execSetdasa port addr s := rfl
@[simp] theorem exec_mctpControl (port : Fin 2) (cmd : Nat) (arg : Nat) (s : State) : exec (.mctpControl port cmd arg) s = execMctpControl port cmd arg s := rfl
@[simp] theorem exec_pldmDiscovery (port : Fin 2) (type cmd : Nat) (s : State) : exec (.pldmDiscovery port type cmd) s = execPldmDiscovery port type cmd s := rfl
@[simp] theorem exec_pldmSensorRead (port : Fin 2) (id : Nat) (s : State) : exec (.pldmSensorRead port id) s = execPldmSensorRead port id s := rfl
@[simp] theorem exec_pldmFruRead (port : Fin 2) (off len : Nat) (s : State) : exec (.pldmFruRead port off len) s = execPldmFruRead port off len s := rfl
@[simp] theorem exec_requestUpdate (port : Fin 2) (bundle : List Byte) (s : State) : exec (.requestUpdate port bundle) s = execRequestUpdate port bundle s := rfl
@[simp] theorem exec_getVersion (port : Fin 2) (s : State) : exec (.getVersion port) s = execGetVersion port s := rfl
@[simp] theorem exec_getCapabilities (port : Fin 2) (s : State) : exec (.getCapabilities port) s = execGetCapabilities port s := rfl
@[simp] theorem exec_negotiateAlgorithms (port : Fin 2) (extAsym : AlgOffer) (s : State) : exec (.negotiateAlgorithms port extAsym) s = execNegotiateAlgorithms port extAsym s := rfl
@[simp] theorem exec_getDigests (port : Fin 2) (s : State) : exec (.getDigests port) s = execGetDigests port s := rfl
@[simp] theorem exec_getCertificate (port : Fin 2) (slot off len : Nat) (s : State) : exec (.getCertificate port slot off len) s = execGetCertificate port slot off len s := rfl
@[simp] theorem exec_challenge (port : Fin 2) (nonce : Nat) (s : State) : exec (.challenge port nonce) s = execChallenge port nonce s := rfl
@[simp] theorem exec_getMeasurements (port : Fin 2) (index : Nat) (sign : Bool) (nonce : Nat) (s : State) : exec (.getMeasurements port index sign nonce) s = execGetMeasurements port index sign nonce s := rfl
@[simp] theorem exec_chunkSend (port : Fin 2) (handle seq : Nat) (data : List Byte) (last : Bool) (s : State) : exec (.chunkSend port handle seq data last) s = execChunkSend port handle seq data last s := rfl
@[simp] theorem exec_chunkGet (port : Fin 2) (handle seq : Nat) (s : State) : exec (.chunkGet port handle seq) s = execChunkGet port handle seq s := rfl
@[simp] theorem exec_signingComplete (s : State) : exec (.signingComplete) s = execSigningComplete s := rfl
@[simp] theorem exec_fwVerify (r : Requester) (s : State) : exec (.fwVerify r) s = execFwVerify r s := rfl
@[simp] theorem exec_fwDiscard (r : Requester) (s : State) : exec (.fwDiscard r) s = execFwDiscard r s := rfl
@[simp] theorem exec_attestationReady (s : State) : exec (.attestationReady) s = execAttestationReady s := rfl
@[simp] theorem exec_debugTokenSubmit (r : Requester) (s : State) : exec (.debugTokenSubmit r) s = execDebugTokenSubmit r s := rfl
@[simp] theorem exec_dbgacc (addr : Nat) (w : Option Word) (s : State) : exec (.dbgacc addr w) s = execDbgacc addr w s := rfl
@[simp] theorem exec_rehearsalSet (r : Requester) (mask : BitVec 64) (s : State) : exec (.rehearsalSet r mask) s = execRehearsalSet r mask s := rfl
@[simp] theorem exec_undervoltageWarning (s : State) : exec (.undervoltageWarning) s = execUndervoltageWarning s := rfl
@[simp] theorem exec_undervoltageLockout (at_ : Nat) (s : State) : exec (.undervoltageLockout at_) s = execUndervoltageLockout at_ s := rfl
@[simp] theorem exec_railsOff (s : State) : exec (.railsOff) s = execRailsOff s := rfl
@[simp] theorem exec_overcurrent (at_ : Nat) (s : State) : exec (.overcurrent at_) s = execOvercurrent at_ s := rfl
@[simp] theorem exec_overvoltageWarning (s : State) : exec (.overvoltageWarning) s = execOvervoltageWarning s := rfl
@[simp] theorem exec_overvoltageTrip (s : State) : exec (.overvoltageTrip) s = execOvervoltageTrip s := rfl
@[simp] theorem exec_lossOf56v (s : State) : exec (.lossOf56v) s = execLossOf56v s := rfl
@[simp] theorem exec_thermalTrip (s : State) : exec (.thermalTrip) s = execThermalTrip s := rfl
@[simp] theorem exec_overpower (s : State) : exec (.overpower) s = execOverpower s := rfl
@[simp] theorem exec_pwrEnRise (s : State) : exec (.pwrEnRise) s = execPwrEnRise s := rfl
@[simp] theorem exec_pwrEnFall (at_ : Nat) (s : State) : exec (.pwrEnFall at_) s = execPwrEnFall at_ s := rfl
@[simp] theorem exec_perstNAssert (s : State) : exec (.perstNAssert) s = execPerstNAssert s := rfl
@[simp] theorem exec_perstNRelease (s : State) : exec (.perstNRelease) s = execPerstNRelease s := rfl
@[simp] theorem exec_powerOnReset (s : State) : exec (.powerOnReset) s = execPowerOnReset s := rfl
@[simp] theorem exec_coldReset (selfTestFail : List Nat) (straps : Nat) (s : State) : exec (.coldReset selfTestFail straps) s = execColdReset selfTestFail straps s := rfl
@[simp] theorem exec_warmReset (why : WarmCause) (s : State) : exec (.warmReset why) s = execWarmReset why s := rfl
@[simp] theorem exec_softReset (s : State) : exec (.softReset) s = execSoftReset s := rfl
@[simp] theorem exec_pwrResetSoft (r : Requester) (s : State) : exec (.pwrResetSoft r) s = execPwrResetSoft r s := rfl
@[simp] theorem exec_pwrResetWarm (r : Requester) (s : State) : exec (.pwrResetWarm r) s = execPwrResetWarm r s := rfl
@[simp] theorem exec_softDone (s : State) : exec (.softDone) s = execSoftDone s := rfl
@[simp] theorem exec_ready (s : State) : exec (.ready) s = execReady s := rfl
@[simp] theorem exec_preqSet (r : Requester) (s : State) : exec (.preqSet r) s = execPreqSet r s := rfl
@[simp] theorem exec_preqClear (r : Requester) (s : State) : exec (.preqClear r) s = execPreqClear r s := rfl
@[simp] theorem exec_readLo (r : Requester) (addr : Nat) (s : State) : exec (.readLo r addr) s = execReadLo r addr s := rfl
@[simp] theorem exec_writeHi (r : Requester) (addr : Nat) (v : Word) (s : State) : exec (.writeHi r addr v) s = execWriteHi r addr v s := rfl
@[simp] theorem exec_registerWrite (r : Requester) (addr : Nat) (v : Word) (s : State) : exec (.registerWrite r addr v) s = execRegisterWrite r addr v s := rfl
@[simp] theorem exec_pcieLinkDown (s : State) : exec (.pcieLinkDown) s = execPcieLinkDown s := rfl
@[simp] theorem exec_pcieLinkUp (gen width : Nat) (s : State) : exec (.pcieLinkUp gen width) s = execPcieLinkUp gen width s := rfl
@[simp] theorem exec_busMasterEnable (v : Bool) (s : State) : exec (.busMasterEnable v) s = execBusMasterEnable v s := rfl
@[simp] theorem exec_stackHot (die : Nat) (hot : Bool) (s : State) : exec (.stackHot die hot) s = execStackHot die hot s := rfl
@[simp] theorem exec_pmcCopyComplete (die : Nat) (s : State) : exec (.pmcCopyComplete die) s = execPmcCopyComplete die s := rfl
@[simp] theorem exec_cbCopyComplete (die : Nat) (s : State) : exec (.cbCopyComplete die) s = execCbCopyComplete die s := rfl
@[simp] theorem exec_ssCopyComplete (s : State) : exec (.ssCopyComplete) s = execSsCopyComplete s := rfl
@[simp] theorem exec_fwVerifyComplete (s : State) : exec (.fwVerifyComplete) s = execFwVerifyComplete s := rfl
@[simp] theorem exec_enableEvents (port : Fin 2) (on : Bool) (s : State) : exec (.enableEvents port on) s = execEnableEvents port on s := rfl
@[simp] theorem exec_extest (i : TapScan) (s : State) : exec (.extest i) s = execExtest i s := rfl

end Sys2Proof.Machine
end

