-- ==== Sys2Proof/Laws/Maps.lean ====
section
/-! SUPPORT. Sparse tables: reads after writes, and the canonical form kept by every operation on memory. -/

namespace Sys2Proof.Machine

theorem look_nil {α : Type} (k : Nat) : look ([] : SMap α) k = none := rfl

theorem look_insertAt_same {α : Type} (m : SMap α) (k : Nat) (x : α) : look (insertAt m k x) k = some x := by
  induction m with
  | nil => simp [insertAt, look]
  | cons p t ih =>
    obtain ⟨a, y⟩ := p
    simp only [insertAt]
    split
    · simp [look]
    · split
      · simp [look]
      · rename_i h1 h2
        have : a ≠ k := fun h => h2 h.symm
        simp [look, this, ih]

theorem look_insertAt_ne {α : Type} (m : SMap α) {k j : Nat} (h : j ≠ k) (x : α) :
    look (insertAt m k x) j = look m j := by
  induction m with
  | nil => simp [insertAt, look, h.symm]
  | cons p t ih =>
    obtain ⟨a, y⟩ := p
    simp only [insertAt]
    split
    · simp [look, h.symm]
    · split
      · rename_i h2
        subst h2
        simp [look, h.symm]
      · simp only [look, ih]

theorem look_removeAt_same {α : Type} (m : SMap α) (k : Nat) : look (removeAt m k) k = none := by
  induction m with
  | nil => rfl
  | cons p t ih =>
    obtain ⟨a, y⟩ := p
    by_cases h : a = k
    · subst h
      simpa [removeAt] using ih
    · have : (a != k) = true := by simpa using h
      simp only [removeAt, List.filter_cons, this, if_true, look, h, if_false]
      exact ih

theorem look_removeAt_ne {α : Type} (m : SMap α) {k j : Nat} (h : j ≠ k) : look (removeAt m k) j = look m j := by
  induction m with
  | nil => rfl
  | cons p t ih =>
    obtain ⟨a, y⟩ := p
    by_cases ha : a = k
    · subst ha
      simpa [removeAt, look, h.symm] using ih
    · have : (a != k) = true := by simpa using ha
      simp only [removeAt, List.filter_cons, this, if_true, look]
      split
      · rfl
      · exact ih

/-- A key reads as what was put there. -/
@[simp] theorem get_put_same {α : Type} [DecidableEq α] (d : α) (m : SMap α) (k : Nat) (x : α) : get d (put d m k x) k = x := by
  unfold get put
  split
  · rename_i h
    simp [look_removeAt_same, h]
  · simp [look_insertAt_same]

/-- Every other key reads as before. -/
theorem get_put_ne {α : Type} [DecidableEq α] (d : α) (m : SMap α) {k j : Nat} (h : j ≠ k) (x : α) :
    get d (put d m k x) j = get d m j := by
  unfold get put
  split
  · rw [look_removeAt_ne m h]
  · rw [look_insertAt_ne m h]

/-- A table read with one default may be written with that of the key alone. -/
theorem get_put_ne' {α : Type} [DecidableEq α] (d e : α) (m : SMap α) {k j : Nat} (h : j ≠ k) (x : α) :
    get e (put d m k x) j = get e m j := by
  unfold get put
  split
  · rw [look_removeAt_ne m h]
  · rw [look_insertAt_ne m h]

-- the canonical form

theorem risingFrom_insertAt {α : Type} [DecidableEq α] (d : α) (k : Nat) (x : α) (hx : x ≠ d) :
    ∀ (m : SMap α) (lo : Option Nat), (∀ n, lo = some n → n < k) → risingFrom d lo m = true →
      risingFrom d lo (insertAt m k x) = true
  | [], lo, hlo, _ => by
    cases lo with
    | none => simp [insertAt, risingFrom, hx]
    | some n => simp [insertAt, risingFrom, hx, hlo n rfl]
  | (a, y) :: t, lo, hlo, h => by
    have hkey : (match lo with | none => true | some n => decide (n < k)) = true := by
      cases lo with
      | none => rfl
      | some n => simpa using hlo n rfl
    simp only [risingFrom, Bool.and_eq_true] at h
    obtain ⟨⟨h1, h2⟩, h3⟩ := h
    simp only [insertAt]
    split
    · rename_i hlt
      simp [risingFrom, hx, hlt, of_decide_eq_true h2, h3]
      cases lo with
      | none => rfl
      | some n => simpa using hlo n rfl
    · split
      · rename_i h4 h5
        subst h5
        simp [risingFrom, hx, h3]
        cases lo with
        | none => rfl
        | some n => simpa using hlo n rfl
      · rename_i h4 h5
        have ih := risingFrom_insertAt d k x hx t (some a) (fun n hn => by cases hn; omega) h3
        simp only [risingFrom, Bool.and_eq_true]
        exact ⟨⟨h1, h2⟩, ih⟩

theorem risingFrom_mono {α : Type} [DecidableEq α] (d : α) (m : SMap α) {a b : Nat} (h : a ≤ b)
    (hm : risingFrom d (some b) m = true) : risingFrom d (some a) m = true := by
  cases m with
  | nil => rfl
  | cons p t =>
    obtain ⟨c, y⟩ := p
    simp only [risingFrom, Bool.and_eq_true, decide_eq_true_eq] at hm ⊢
    exact ⟨⟨by omega, hm.1.2⟩, hm.2⟩

theorem risingFrom_filter {α : Type} [DecidableEq α] (d : α) (p : Nat × α → Bool) :
    ∀ (m : SMap α) (lo : Option Nat), risingFrom d lo m = true → risingFrom d lo (m.filter p) = true
  | [], _, _ => rfl
  | (a, y) :: t, lo, h => by
    simp only [risingFrom, Bool.and_eq_true] at h
    obtain ⟨⟨h1, h2⟩, h3⟩ := h
    have ih := risingFrom_filter d p t (some a) h3
    rw [List.filter_cons]
    split
    · simp only [risingFrom, Bool.and_eq_true]
      exact ⟨⟨h1, h2⟩, ih⟩
    · cases lo with
      | none =>
        cases hf : t.filter p with
        | nil => rfl
        | cons q u =>
          obtain ⟨c, z⟩ := q
          rw [hf] at ih
          simp only [risingFrom, Bool.and_eq_true] at ih ⊢
          exact ⟨⟨trivial, ih.1.2⟩, ih.2⟩
      | some n =>
        have : n ≤ a := by
          have := of_decide_eq_true h1
          omega
        exact risingFrom_mono d _ this ih

/-- Writing a key keeps the canonical form. -/
theorem SMapWf_put {α : Type} [DecidableEq α] (d : α) (m : SMap α) (k : Nat) (x : α) (h : SMapWf d m = true) :
    SMapWf d (put d m k x) = true := by
  unfold SMapWf put at *
  split
  · exact risingFrom_filter d _ m none h
  · rename_i hx
    exact risingFrom_insertAt d k x hx m none (fun n hn => by cases hn) h

/-- Leaving entries out keeps the canonical form. -/
theorem SMapWf_filter {α : Type} [DecidableEq α] (d : α) (p : Nat × α → Bool) (m : SMap α) (h : SMapWf d m = true) :
    SMapWf d (m.filter p) = true := risingFrom_filter d p m none h

-- memory

/-- A byte written reads back; the others read as before. -/
theorem byte_memPut (m : SMap Byte) (a j : Nat) (b : Byte) :
    get memDefault (memPut m a b) j = if j = a then b else get memDefault m j := by
  split
  · rename_i h
    subst h
    exact get_put_same _ _ _ _
  · rename_i h
    exact get_put_ne _ _ h _

/-- A byte of memory after a write of bytes: the written one in the range, else as before. -/
theorem byte_memPutAll (l : List Byte) : ∀ (m : SMap Byte) (a j : Nat),
    get memDefault (memPutAll m a l) j = if a ≤ j ∧ j < a + l.length then l.getD (j - a) 0 else get memDefault m j := by
  induction l with
  | nil => intro m a j; simp [memPutAll]
  | cons b t ih =>
    intro m a j
    simp only [memPutAll, ih, byte_memPut, List.length_cons]
    by_cases h1 : j = a
    · subst h1; simp
    · by_cases h2 : a + 1 ≤ j ∧ j < a + 1 + t.length
      · have h3 : a ≤ j ∧ j < a + (t.length + 1) := by omega
        obtain ⟨n, hn⟩ : ∃ n, j - a = n + 1 := ⟨j - a - 1, by omega⟩
        have : j - (a + 1) = n := by omega
        simp [h2, h3, hn, this]
      · have h3 : ¬ (a ≤ j ∧ j < a + (t.length + 1)) := by omega
        rw [if_neg h2, if_neg h1, if_neg h3]

/-- Writing bytes keeps memory's canonical form. -/
theorem wf_memPutAll (l : List Byte) : ∀ (m : SMap Byte) (a : Nat), Memory.wf m = true → Memory.wf (memPutAll m a l) = true := by
  induction l with
  | nil => intro m a h; exact h
  | cons b t ih => intro m a h; exact ih _ _ (SMapWf_put _ _ _ _ h)

/-- Every write of memory keeps its canonical form. -/
theorem State.setBytes_wf (s : State) (a : Nat) (l : List Byte) (h : Memory.wf s.mem = true) :
    Memory.wf (s.setBytes a l).mem = true := wf_memPutAll l s.mem a h

theorem State.writeMem_wf (s : State) (a : Nat) (l : List Byte) (p : Bool) (h : Memory.wf s.mem = true) :
    Memory.wf (s.writeMem a l p).mem = true := wf_memPutAll l s.mem a h

/-- Memory at reset has the canonical form. -/
theorem State.reset_wf : Memory.wf State.reset.mem = true := rfl

/-- What a byte reads as after a write of bytes. -/
theorem State.byte_writeMem (s : State) (a j : Nat) (l : List Byte) (p : Bool) :
    (s.writeMem a l p).byte j = if a ≤ j ∧ j < a + l.length then l.getD (j - a) 0 else s.byte j :=
  byte_memPutAll l s.mem a j

theorem State.byte_setBytes (s : State) (a j : Nat) (l : List Byte) :
    (s.setBytes a l).byte j = if a ≤ j ∧ j < a + l.length then l.getD (j - a) 0 else s.byte j :=
  byte_memPutAll l s.mem a j

/-- Bytes written read back. -/
theorem State.bytes_writeMem (s : State) (a : Nat) (l : List Byte) (p : Bool) : (s.writeMem a l p).bytes a l.length = l := by
  unfold State.bytes
  apply List.ext_getElem
  · simp
  · intro n h1 h2
    simp [State.byte_writeMem, h2, List.getD_eq_getElem?_getD]

end Sys2Proof.Machine
end

