-- ==== Sys2Proof/Laws/State.lean ====
section
/-! SUPPORT. What the basic updates of the state leave as it was, field by field. -/

namespace Sys2Proof.Machine

-- setRg
@[simp] theorem State.setRg_pending (s : State) (k v : Nat) : (s.setRg k v).pending = s.pending := rfl
@[simp] theorem State.setRg_now (s : State) (k v : Nat) : (s.setRg k v).now = s.now := rfl
@[simp] theorem State.setRg_upTime (s : State) (k v : Nat) : (s.setRg k v).upTime = s.upTime := rfl
@[simp] theorem State.setRg_frame (s : State) (k v : Nat) : (s.setRg k v).frame = s.frame := rfl
@[simp] theorem State.setRg_curtainAt (s : State) (k v : Nat) : (s.setRg k v).curtainAt = s.curtainAt := rfl
@[simp] theorem State.setRg_nominal (s : State) (k v : Nat) : (s.setRg k v).nominal = s.nominal := rfl
@[simp] theorem State.setRg_curMode (s : State) (k v : Nat) : (s.setRg k v).curMode = s.curMode := rfl
@[simp] theorem State.setRg_edgeAt (s : State) (k v : Nat) : (s.setRg k v).edgeAt = s.edgeAt := rfl
@[simp] theorem State.setRg_clockFixed (s : State) (k v : Nat) : (s.setRg k v).clockFixed = s.clockFixed := rfl
@[simp] theorem State.setRg_overpower (s : State) (k v : Nat) : (s.setRg k v).overpower = s.overpower := rfl
@[simp] theorem State.setRg_closedFor (s : State) (k v : Nat) : (s.setRg k v).closedFor = s.closedFor := rfl
@[simp] theorem State.setRg_guardOn (s : State) (k v : Nat) : (s.setRg k v).guardOn = s.guardOn := rfl
@[simp] theorem State.setRg_refreshOn (s : State) (k v : Nat) : (s.setRg k v).refreshOn = s.refreshOn := rfl
@[simp] theorem State.setRg_hiCap (s : State) (k v : Nat) : (s.setRg k v).hiCap = s.hiCap := rfl
@[simp] theorem State.setRg_loWr (s : State) (k v : Nat) : (s.setRg k v).loWr = s.loWr := rfl
@[simp] theorem State.setRg_cnt (s : State) (k v : Nat) : (s.setRg k v).cnt = s.cnt := rfl
@[simp] theorem State.setRg_mem (s : State) (k v : Nat) : (s.setRg k v).mem = s.mem := rfl
@[simp] theorem State.setRg_poison (s : State) (k v : Nat) : (s.setRg k v).poison = s.poison := rfl
@[simp] theorem State.setRg_ueRead (s : State) (k v : Nat) : (s.setRg k v).ueRead = s.ueRead := rfl
@[simp] theorem State.setRg_host (s : State) (k v : Nat) : (s.setRg k v).host = s.host := rfl
@[simp] theorem State.setRg_hostPoison (s : State) (k v : Nat) : (s.setRg k v).hostPoison = s.hostPoison := rfl
@[simp] theorem State.setRg_inflight (s : State) (k v : Nat) : (s.setRg k v).inflight = s.inflight := rfl
@[simp] theorem State.setRg_signals (s : State) (k v : Nat) : (s.setRg k v).signals = s.signals := rfl
@[simp] theorem State.setRg_nextCmd (s : State) (k v : Nat) : (s.setRg k v).nextCmd = s.nextCmd := rfl
@[simp] theorem State.setRg_landObs (s : State) (k v : Nat) : (s.setRg k v).landObs = s.landObs := rfl
@[simp] theorem State.setRg_errCmds (s : State) (k v : Nat) : (s.setRg k v).errCmds = s.errCmds := rfl
@[simp] theorem State.setRg_cores (s : State) (k v : Nat) : (s.setRg k v).cores = s.cores := rfl
@[simp] theorem State.setRg_cb (s : State) (k v : Nat) : (s.setRg k v).cb = s.cb := rfl
@[simp] theorem State.setRg_cbForce (s : State) (k v : Nat) : (s.setRg k v).cbForce = s.cbForce := rfl
@[simp] theorem State.setRg_reqs (s : State) (k v : Nat) : (s.setRg k v).reqs = s.reqs := rfl
@[simp] theorem State.setRg_steps (s : State) (k v : Nat) : (s.setRg k v).steps = s.steps := rfl
@[simp] theorem State.setRg_deliveries (s : State) (k v : Nat) : (s.setRg k v).deliveries = s.deliveries := rfl
@[simp] theorem State.setRg_heldActs (s : State) (k v : Nat) : (s.setRg k v).heldActs = s.heldActs := rfl
@[simp] theorem State.setRg_used (s : State) (k v : Nat) : (s.setRg k v).used = s.used := rfl
@[simp] theorem State.setRg_admitted (s : State) (k v : Nat) : (s.setRg k v).admitted = s.admitted := rfl
@[simp] theorem State.setRg_fwd (s : State) (k v : Nat) : (s.setRg k v).fwd = s.fwd := rfl
@[simp] theorem State.setRg_gapPend (s : State) (k v : Nat) : (s.setRg k v).gapPend = s.gapPend := rfl
@[simp] theorem State.setRg_doomed (s : State) (k v : Nat) : (s.setRg k v).doomed = s.doomed := rfl
@[simp] theorem State.setRg_deferSyn (s : State) (k v : Nat) : (s.setRg k v).deferSyn = s.deferSyn := rfl
@[simp] theorem State.setRg_postponed (s : State) (k v : Nat) : (s.setRg k v).postponed = s.postponed := rfl
@[simp] theorem State.setRg_itkStop (s : State) (k v : Nat) : (s.setRg k v).itkStop = s.itkStop := rfl
@[simp] theorem State.setRg_itkTurn (s : State) (k v : Nat) : (s.setRg k v).itkTurn = s.itkTurn := rfl
@[simp] theorem State.setRg_itkKept (s : State) (k v : Nat) : (s.setRg k v).itkKept = s.itkKept := rfl
@[simp] theorem State.setRg_itkNext (s : State) (k v : Nat) : (s.setRg k v).itkNext = s.itkNext := rfl
@[simp] theorem State.setRg_backlog (s : State) (k v : Nat) : (s.setRg k v).backlog = s.backlog := rfl
@[simp] theorem State.setRg_egrDropped (s : State) (k v : Nat) : (s.setRg k v).egrDropped = s.egrDropped := rfl
@[simp] theorem State.setRg_egrSeq (s : State) (k v : Nat) : (s.setRg k v).egrSeq = s.egrSeq := rfl
@[simp] theorem State.setRg_egrCount (s : State) (k v : Nat) : (s.setRg k v).egrCount = s.egrCount := rfl
@[simp] theorem State.setRg_egrOwed (s : State) (k v : Nat) : (s.setRg k v).egrOwed = s.egrOwed := rfl
@[simp] theorem State.setRg_actA (s : State) (k v : Nat) : (s.setRg k v).actA = s.actA := rfl
@[simp] theorem State.setRg_actS (s : State) (k v : Nat) : (s.setRg k v).actS = s.actS := rfl
@[simp] theorem State.setRg_asnA (s : State) (k v : Nat) : (s.setRg k v).asnA = s.asnA := rfl
@[simp] theorem State.setRg_asnS (s : State) (k v : Nat) : (s.setRg k v).asnS = s.asnS := rfl
@[simp] theorem State.setRg_grpA (s : State) (k v : Nat) : (s.setRg k v).grpA = s.grpA := rfl
@[simp] theorem State.setRg_grpS (s : State) (k v : Nat) : (s.setRg k v).grpS = s.grpS := rfl
@[simp] theorem State.setRg_swap (s : State) (k v : Nat) : (s.setRg k v).swap = s.swap := rfl
@[simp] theorem State.setRg_swapReq (s : State) (k v : Nat) : (s.setRg k v).swapReq = s.swapReq := rfl
@[simp] theorem State.setRg_rgnLive (s : State) (k v : Nat) : (s.setRg k v).rgnLive = s.rgnLive := rfl
@[simp] theorem State.setRg_rgnPend (s : State) (k v : Nat) : (s.setRg k v).rgnPend = s.rgnPend := rfl
@[simp] theorem State.setRg_attrLive (s : State) (k v : Nat) : (s.setRg k v).attrLive = s.attrLive := rfl
@[simp] theorem State.setRg_attrPend (s : State) (k v : Nat) : (s.setRg k v).attrPend = s.attrPend := rfl
@[simp] theorem State.setRg_publishing (s : State) (k v : Nat) : (s.setRg k v).publishing = s.publishing := rfl
@[simp] theorem State.setRg_updSeeds (s : State) (k v : Nat) : (s.setRg k v).updSeeds = s.updSeeds := rfl
@[simp] theorem State.setRg_etas (s : State) (k v : Nat) : (s.setRg k v).etas = s.etas := rfl
@[simp] theorem State.setRg_grpRuns (s : State) (k v : Nat) : (s.setRg k v).grpRuns = s.grpRuns := rfl
@[simp] theorem State.setRg_uncommitted (s : State) (k v : Nat) : (s.setRg k v).uncommitted = s.uncommitted := rfl
@[simp] theorem State.setRg_numTot (s : State) (k v : Nat) : (s.setRg k v).numTot = s.numTot := rfl
@[simp] theorem State.setRg_lgrBuf (s : State) (k v : Nat) : (s.setRg k v).lgrBuf = s.lgrBuf := rfl
@[simp] theorem State.setRg_lgrSerial (s : State) (k v : Nat) : (s.setRg k v).lgrSerial = s.lgrSerial := rfl
@[simp] theorem State.setRg_lgrMark (s : State) (k v : Nat) : (s.setRg k v).lgrMark = s.lgrMark := rfl
@[simp] theorem State.setRg_lgrOwing (s : State) (k v : Nat) : (s.setRg k v).lgrOwing = s.lgrOwing := rfl
@[simp] theorem State.setRg_prioStk (s : State) (k v : Nat) : (s.setRg k v).prioStk = s.prioStk := rfl
@[simp] theorem State.setRg_holdoff (s : State) (k v : Nat) : (s.setRg k v).holdoff = s.holdoff := rfl
@[simp] theorem State.setRg_loadErr (s : State) (k v : Nat) : (s.setRg k v).loadErr = s.loadErr := rfl
@[simp] theorem State.setRg_replaced (s : State) (k v : Nat) : (s.setRg k v).replaced = s.replaced := rfl
@[simp] theorem State.setRg_merges (s : State) (k v : Nat) : (s.setRg k v).merges = s.merges := rfl
@[simp] theorem State.setRg_copies (s : State) (k v : Nat) : (s.setRg k v).copies = s.copies := rfl
@[simp] theorem State.setRg_scrub (s : State) (k v : Nat) : (s.setRg k v).scrub = s.scrub := rfl
@[simp] theorem State.setRg_bdma (s : State) (k v : Nat) : (s.setRg k v).bdma = s.bdma := rfl
@[simp] theorem State.setRg_bdmaReq (s : State) (k v : Nat) : (s.setRg k v).bdmaReq = s.bdmaReq := rfl
@[simp] theorem State.setRg_fabIn (s : State) (k v : Nat) : (s.setRg k v).fabIn = s.fabIn := rfl
@[simp] theorem State.setRg_fabOut (s : State) (k v : Nat) : (s.setRg k v).fabOut = s.fabOut := rfl
@[simp] theorem State.setRg_fabAns (s : State) (k v : Nat) : (s.setRg k v).fabAns = s.fabAns := rfl
@[simp] theorem State.setRg_nextTag (s : State) (k v : Nat) : (s.setRg k v).nextTag = s.nextTag := rfl
@[simp] theorem State.setRg_links (s : State) (k v : Nat) : (s.setRg k v).links = s.links := rfl
@[simp] theorem State.setRg_log (s : State) (k v : Nat) : (s.setRg k v).log = s.log := rfl
@[simp] theorem State.setRg_logNext (s : State) (k v : Nat) : (s.setRg k v).logNext = s.logNext := rfl
@[simp] theorem State.setRg_ports (s : State) (k v : Nat) : (s.setRg k v).ports = s.ports := rfl
@[simp] theorem State.setRg_sensors (s : State) (k v : Nat) : (s.setRg k v).sensors = s.sensors := rfl
@[simp] theorem State.setRg_secAt (s : State) (k v : Nat) : (s.setRg k v).secAt = s.secAt := rfl
@[simp] theorem State.setRg_committedSec (s : State) (k v : Nat) : (s.setRg k v).committedSec = s.committedSec := rfl
@[simp] theorem State.setRg_lateSec (s : State) (k v : Nat) : (s.setRg k v).lateSec = s.lateSec := rfl
@[simp] theorem State.setRg_deadlineFor (s : State) (k v : Nat) : (s.setRg k v).deadlineFor = s.deadlineFor := rfl
@[simp] theorem State.setRg_beatAt (s : State) (k v : Nat) : (s.setRg k v).beatAt = s.beatAt := rfl
@[simp] theorem State.setRg_sampled (s : State) (k v : Nat) : (s.setRg k v).sampled = s.sampled := rfl
@[simp] theorem State.setRg_rot (s : State) (k v : Nat) : (s.setRg k v).rot = s.rot := rfl
@[simp] theorem State.setRg_prodBad (s : State) (k v : Nat) : (s.setRg k v).prodBad = s.prodBad := rfl
@[simp] theorem State.setRg_grade (s : State) (k v : Nat) : (s.setRg k v).grade = s.grade := rfl
@[simp] theorem State.setRg_siteBad (s : State) (k v : Nat) : (s.setRg k v).siteBad = s.siteBad := rfl
@[simp] theorem State.setRg_mid (s : State) (k v : Nat) : (s.setRg k v).mid = s.mid := rfl
@[simp] theorem State.setRg_pcie (s : State) (k v : Nat) : (s.setRg k v).pcie = s.pcie := rfl
@[simp] theorem State.setRg_pins (s : State) (k v : Nat) : (s.setRg k v).pins = s.pins := rfl
@[simp] theorem State.setRg_resetting (s : State) (k v : Nat) : (s.setRg k v).resetting = s.resetting := rfl
@[simp] theorem State.setRg_resetAt (s : State) (k v : Nat) : (s.setRg k v).resetAt = s.resetAt := rfl
@[simp] theorem State.setRg_softOwed (s : State) (k v : Nat) : (s.setRg k v).softOwed = s.softOwed := rfl
@[simp] theorem State.setRg_softStage (s : State) (k v : Nat) : (s.setRg k v).softStage = s.softStage := rfl
@[simp] theorem State.setRg_execOff (s : State) (k v : Nat) : (s.setRg k v).execOff = s.execOff := rfl
@[simp] theorem State.setRg_selfRefresh (s : State) (k v : Nat) : (s.setRg k v).selfRefresh = s.selfRefresh := rfl
@[simp] theorem State.setRg_clkGated (s : State) (k v : Nat) : (s.setRg k v).clkGated = s.clkGated := rfl
@[simp] theorem State.setRg_wattSum (s : State) (k v : Nat) : (s.setRg k v).wattSum = s.wattSum := rfl
@[simp] theorem State.setRg_wattAt (s : State) (k v : Nat) : (s.setRg k v).wattAt = s.wattAt := rfl
@[simp] theorem State.setRg_exc (s : State) (k v : Nat) : (s.setRg k v).exc = s.exc := rfl
@[simp] theorem State.setRg_preqPend (s : State) (k v : Nat) : (s.setRg k v).preqPend = s.preqPend := rfl
@[simp] theorem State.setRg_d3Pend (s : State) (k v : Nat) : (s.setRg k v).d3Pend = s.d3Pend := rfl
@[simp] theorem State.setRg_rehOff (s : State) (k v : Nat) : (s.setRg k v).rehOff = s.rehOff := rfl
@[simp] theorem State.setRg_disag (s : State) (k v : Nat) : (s.setRg k v).disag = s.disag := rfl
@[simp] theorem State.setRg_quarDue (s : State) (k v : Nat) : (s.setRg k v).quarDue = s.quarDue := rfl
@[simp] theorem State.setRg_rplUsed (s : State) (k v : Nat) : (s.setRg k v).rplUsed = s.rplUsed := rfl
@[simp] theorem State.setRg_rdData (s : State) (k v : Nat) : (s.setRg k v).rdData = s.rdData := rfl
@[simp] theorem State.setRg_rdStatus (s : State) (k v : Nat) : (s.setRg k v).rdStatus = s.rdStatus := rfl
@[simp] theorem State.setRg_out (s : State) (k v : Nat) : (s.setRg k v).out = s.out := rfl
@[simp] theorem State.setRg_free (s : State) (k v : Nat) : (s.setRg k v).free = s.free := rfl

-- setFldAt
@[simp] theorem State.setFldAt_pending (s : State) (k : Nat) (f : RF) (v : Nat) : (s.setFldAt k f v).pending = s.pending := State.setRg_pending s k _
@[simp] theorem State.setFldAt_now (s : State) (k : Nat) (f : RF) (v : Nat) : (s.setFldAt k f v).now = s.now := State.setRg_now s k _
@[simp] theorem State.setFldAt_upTime (s : State) (k : Nat) (f : RF) (v : Nat) : (s.setFldAt k f v).upTime = s.upTime := State.setRg_upTime s k _
@[simp] theorem State.setFldAt_frame (s : State) (k : Nat) (f : RF) (v : Nat) : (s.setFldAt k f v).frame = s.frame := State.setRg_frame s k _
@[simp] theorem State.setFldAt_curtainAt (s : State) (k : Nat) (f : RF) (v : Nat) : (s.setFldAt k f v).curtainAt = s.curtainAt := State.setRg_curtainAt s k _
@[simp] theorem State.setFldAt_nominal (s : State) (k : Nat) (f : RF) (v : Nat) : (s.setFldAt k f v).nominal = s.nominal := State.setRg_nominal s k _
@[simp] theorem State.setFldAt_curMode (s : State) (k : Nat) (f : RF) (v : Nat) : (s.setFldAt k f v).curMode = s.curMode := State.setRg_curMode s k _
@[simp] theorem State.setFldAt_edgeAt (s : State) (k : Nat) (f : RF) (v : Nat) : (s.setFldAt k f v).edgeAt = s.edgeAt := State.setRg_edgeAt s k _
@[simp] theorem State.setFldAt_clockFixed (s : State) (k : Nat) (f : RF) (v : Nat) : (s.setFldAt k f v).clockFixed = s.clockFixed := State.setRg_clockFixed s k _
@[simp] theorem State.setFldAt_overpower (s : State) (k : Nat) (f : RF) (v : Nat) : (s.setFldAt k f v).overpower = s.overpower := State.setRg_overpower s k _
@[simp] theorem State.setFldAt_closedFor (s : State) (k : Nat) (f : RF) (v : Nat) : (s.setFldAt k f v).closedFor = s.closedFor := State.setRg_closedFor s k _
@[simp] theorem State.setFldAt_guardOn (s : State) (k : Nat) (f : RF) (v : Nat) : (s.setFldAt k f v).guardOn = s.guardOn := State.setRg_guardOn s k _
@[simp] theorem State.setFldAt_refreshOn (s : State) (k : Nat) (f : RF) (v : Nat) : (s.setFldAt k f v).refreshOn = s.refreshOn := State.setRg_refreshOn s k _
@[simp] theorem State.setFldAt_hiCap (s : State) (k : Nat) (f : RF) (v : Nat) : (s.setFldAt k f v).hiCap = s.hiCap := State.setRg_hiCap s k _
@[simp] theorem State.setFldAt_loWr (s : State) (k : Nat) (f : RF) (v : Nat) : (s.setFldAt k f v).loWr = s.loWr := State.setRg_loWr s k _
@[simp] theorem State.setFldAt_cnt (s : State) (k : Nat) (f : RF) (v : Nat) : (s.setFldAt k f v).cnt = s.cnt := State.setRg_cnt s k _
@[simp] theorem State.setFldAt_mem (s : State) (k : Nat) (f : RF) (v : Nat) : (s.setFldAt k f v).mem = s.mem := State.setRg_mem s k _
@[simp] theorem State.setFldAt_poison (s : State) (k : Nat) (f : RF) (v : Nat) : (s.setFldAt k f v).poison = s.poison := State.setRg_poison s k _
@[simp] theorem State.setFldAt_ueRead (s : State) (k : Nat) (f : RF) (v : Nat) : (s.setFldAt k f v).ueRead = s.ueRead := State.setRg_ueRead s k _
@[simp] theorem State.setFldAt_host (s : State) (k : Nat) (f : RF) (v : Nat) : (s.setFldAt k f v).host = s.host := State.setRg_host s k _
@[simp] theorem State.setFldAt_hostPoison (s : State) (k : Nat) (f : RF) (v : Nat) : (s.setFldAt k f v).hostPoison = s.hostPoison := State.setRg_hostPoison s k _
@[simp] theorem State.setFldAt_inflight (s : State) (k : Nat) (f : RF) (v : Nat) : (s.setFldAt k f v).inflight = s.inflight := State.setRg_inflight s k _
@[simp] theorem State.setFldAt_signals (s : State) (k : Nat) (f : RF) (v : Nat) : (s.setFldAt k f v).signals = s.signals := State.setRg_signals s k _
@[simp] theorem State.setFldAt_nextCmd (s : State) (k : Nat) (f : RF) (v : Nat) : (s.setFldAt k f v).nextCmd = s.nextCmd := State.setRg_nextCmd s k _
@[simp] theorem State.setFldAt_landObs (s : State) (k : Nat) (f : RF) (v : Nat) : (s.setFldAt k f v).landObs = s.landObs := State.setRg_landObs s k _
@[simp] theorem State.setFldAt_errCmds (s : State) (k : Nat) (f : RF) (v : Nat) : (s.setFldAt k f v).errCmds = s.errCmds := State.setRg_errCmds s k _
@[simp] theorem State.setFldAt_cores (s : State) (k : Nat) (f : RF) (v : Nat) : (s.setFldAt k f v).cores = s.cores := State.setRg_cores s k _
@[simp] theorem State.setFldAt_cb (s : State) (k : Nat) (f : RF) (v : Nat) : (s.setFldAt k f v).cb = s.cb := State.setRg_cb s k _
@[simp] theorem State.setFldAt_cbForce (s : State) (k : Nat) (f : RF) (v : Nat) : (s.setFldAt k f v).cbForce = s.cbForce := State.setRg_cbForce s k _
@[simp] theorem State.setFldAt_reqs (s : State) (k : Nat) (f : RF) (v : Nat) : (s.setFldAt k f v).reqs = s.reqs := State.setRg_reqs s k _
@[simp] theorem State.setFldAt_steps (s : State) (k : Nat) (f : RF) (v : Nat) : (s.setFldAt k f v).steps = s.steps := State.setRg_steps s k _
@[simp] theorem State.setFldAt_deliveries (s : State) (k : Nat) (f : RF) (v : Nat) : (s.setFldAt k f v).deliveries = s.deliveries := State.setRg_deliveries s k _
@[simp] theorem State.setFldAt_heldActs (s : State) (k : Nat) (f : RF) (v : Nat) : (s.setFldAt k f v).heldActs = s.heldActs := State.setRg_heldActs s k _
@[simp] theorem State.setFldAt_used (s : State) (k : Nat) (f : RF) (v : Nat) : (s.setFldAt k f v).used = s.used := State.setRg_used s k _
@[simp] theorem State.setFldAt_admitted (s : State) (k : Nat) (f : RF) (v : Nat) : (s.setFldAt k f v).admitted = s.admitted := State.setRg_admitted s k _
@[simp] theorem State.setFldAt_fwd (s : State) (k : Nat) (f : RF) (v : Nat) : (s.setFldAt k f v).fwd = s.fwd := State.setRg_fwd s k _
@[simp] theorem State.setFldAt_gapPend (s : State) (k : Nat) (f : RF) (v : Nat) : (s.setFldAt k f v).gapPend = s.gapPend := State.setRg_gapPend s k _
@[simp] theorem State.setFldAt_doomed (s : State) (k : Nat) (f : RF) (v : Nat) : (s.setFldAt k f v).doomed = s.doomed := State.setRg_doomed s k _
@[simp] theorem State.setFldAt_deferSyn (s : State) (k : Nat) (f : RF) (v : Nat) : (s.setFldAt k f v).deferSyn = s.deferSyn := State.setRg_deferSyn s k _
@[simp] theorem State.setFldAt_postponed (s : State) (k : Nat) (f : RF) (v : Nat) : (s.setFldAt k f v).postponed = s.postponed := State.setRg_postponed s k _
@[simp] theorem State.setFldAt_itkStop (s : State) (k : Nat) (f : RF) (v : Nat) : (s.setFldAt k f v).itkStop = s.itkStop := State.setRg_itkStop s k _
@[simp] theorem State.setFldAt_itkTurn (s : State) (k : Nat) (f : RF) (v : Nat) : (s.setFldAt k f v).itkTurn = s.itkTurn := State.setRg_itkTurn s k _
@[simp] theorem State.setFldAt_itkKept (s : State) (k : Nat) (f : RF) (v : Nat) : (s.setFldAt k f v).itkKept = s.itkKept := State.setRg_itkKept s k _
@[simp] theorem State.setFldAt_itkNext (s : State) (k : Nat) (f : RF) (v : Nat) : (s.setFldAt k f v).itkNext = s.itkNext := State.setRg_itkNext s k _
@[simp] theorem State.setFldAt_backlog (s : State) (k : Nat) (f : RF) (v : Nat) : (s.setFldAt k f v).backlog = s.backlog := State.setRg_backlog s k _
@[simp] theorem State.setFldAt_egrDropped (s : State) (k : Nat) (f : RF) (v : Nat) : (s.setFldAt k f v).egrDropped = s.egrDropped := State.setRg_egrDropped s k _
@[simp] theorem State.setFldAt_egrSeq (s : State) (k : Nat) (f : RF) (v : Nat) : (s.setFldAt k f v).egrSeq = s.egrSeq := State.setRg_egrSeq s k _
@[simp] theorem State.setFldAt_egrCount (s : State) (k : Nat) (f : RF) (v : Nat) : (s.setFldAt k f v).egrCount = s.egrCount := State.setRg_egrCount s k _
@[simp] theorem State.setFldAt_egrOwed (s : State) (k : Nat) (f : RF) (v : Nat) : (s.setFldAt k f v).egrOwed = s.egrOwed := State.setRg_egrOwed s k _
@[simp] theorem State.setFldAt_actA (s : State) (k : Nat) (f : RF) (v : Nat) : (s.setFldAt k f v).actA = s.actA := State.setRg_actA s k _
@[simp] theorem State.setFldAt_actS (s : State) (k : Nat) (f : RF) (v : Nat) : (s.setFldAt k f v).actS = s.actS := State.setRg_actS s k _
@[simp] theorem State.setFldAt_asnA (s : State) (k : Nat) (f : RF) (v : Nat) : (s.setFldAt k f v).asnA = s.asnA := State.setRg_asnA s k _
@[simp] theorem State.setFldAt_asnS (s : State) (k : Nat) (f : RF) (v : Nat) : (s.setFldAt k f v).asnS = s.asnS := State.setRg_asnS s k _
@[simp] theorem State.setFldAt_grpA (s : State) (k : Nat) (f : RF) (v : Nat) : (s.setFldAt k f v).grpA = s.grpA := State.setRg_grpA s k _
@[simp] theorem State.setFldAt_grpS (s : State) (k : Nat) (f : RF) (v : Nat) : (s.setFldAt k f v).grpS = s.grpS := State.setRg_grpS s k _
@[simp] theorem State.setFldAt_swap (s : State) (k : Nat) (f : RF) (v : Nat) : (s.setFldAt k f v).swap = s.swap := State.setRg_swap s k _
@[simp] theorem State.setFldAt_swapReq (s : State) (k : Nat) (f : RF) (v : Nat) : (s.setFldAt k f v).swapReq = s.swapReq := State.setRg_swapReq s k _
@[simp] theorem State.setFldAt_rgnLive (s : State) (k : Nat) (f : RF) (v : Nat) : (s.setFldAt k f v).rgnLive = s.rgnLive := State.setRg_rgnLive s k _
@[simp] theorem State.setFldAt_rgnPend (s : State) (k : Nat) (f : RF) (v : Nat) : (s.setFldAt k f v).rgnPend = s.rgnPend := State.setRg_rgnPend s k _
@[simp] theorem State.setFldAt_attrLive (s : State) (k : Nat) (f : RF) (v : Nat) : (s.setFldAt k f v).attrLive = s.attrLive := State.setRg_attrLive s k _
@[simp] theorem State.setFldAt_attrPend (s : State) (k : Nat) (f : RF) (v : Nat) : (s.setFldAt k f v).attrPend = s.attrPend := State.setRg_attrPend s k _
@[simp] theorem State.setFldAt_publishing (s : State) (k : Nat) (f : RF) (v : Nat) : (s.setFldAt k f v).publishing = s.publishing := State.setRg_publishing s k _
@[simp] theorem State.setFldAt_updSeeds (s : State) (k : Nat) (f : RF) (v : Nat) : (s.setFldAt k f v).updSeeds = s.updSeeds := State.setRg_updSeeds s k _
@[simp] theorem State.setFldAt_etas (s : State) (k : Nat) (f : RF) (v : Nat) : (s.setFldAt k f v).etas = s.etas := State.setRg_etas s k _
@[simp] theorem State.setFldAt_grpRuns (s : State) (k : Nat) (f : RF) (v : Nat) : (s.setFldAt k f v).grpRuns = s.grpRuns := State.setRg_grpRuns s k _
@[simp] theorem State.setFldAt_uncommitted (s : State) (k : Nat) (f : RF) (v : Nat) : (s.setFldAt k f v).uncommitted = s.uncommitted := State.setRg_uncommitted s k _
@[simp] theorem State.setFldAt_numTot (s : State) (k : Nat) (f : RF) (v : Nat) : (s.setFldAt k f v).numTot = s.numTot := State.setRg_numTot s k _
@[simp] theorem State.setFldAt_lgrBuf (s : State) (k : Nat) (f : RF) (v : Nat) : (s.setFldAt k f v).lgrBuf = s.lgrBuf := State.setRg_lgrBuf s k _
@[simp] theorem State.setFldAt_lgrSerial (s : State) (k : Nat) (f : RF) (v : Nat) : (s.setFldAt k f v).lgrSerial = s.lgrSerial := State.setRg_lgrSerial s k _
@[simp] theorem State.setFldAt_lgrMark (s : State) (k : Nat) (f : RF) (v : Nat) : (s.setFldAt k f v).lgrMark = s.lgrMark := State.setRg_lgrMark s k _
@[simp] theorem State.setFldAt_lgrOwing (s : State) (k : Nat) (f : RF) (v : Nat) : (s.setFldAt k f v).lgrOwing = s.lgrOwing := State.setRg_lgrOwing s k _
@[simp] theorem State.setFldAt_prioStk (s : State) (k : Nat) (f : RF) (v : Nat) : (s.setFldAt k f v).prioStk = s.prioStk := State.setRg_prioStk s k _
@[simp] theorem State.setFldAt_holdoff (s : State) (k : Nat) (f : RF) (v : Nat) : (s.setFldAt k f v).holdoff = s.holdoff := State.setRg_holdoff s k _
@[simp] theorem State.setFldAt_loadErr (s : State) (k : Nat) (f : RF) (v : Nat) : (s.setFldAt k f v).loadErr = s.loadErr := State.setRg_loadErr s k _
@[simp] theorem State.setFldAt_replaced (s : State) (k : Nat) (f : RF) (v : Nat) : (s.setFldAt k f v).replaced = s.replaced := State.setRg_replaced s k _
@[simp] theorem State.setFldAt_merges (s : State) (k : Nat) (f : RF) (v : Nat) : (s.setFldAt k f v).merges = s.merges := State.setRg_merges s k _
@[simp] theorem State.setFldAt_copies (s : State) (k : Nat) (f : RF) (v : Nat) : (s.setFldAt k f v).copies = s.copies := State.setRg_copies s k _
@[simp] theorem State.setFldAt_scrub (s : State) (k : Nat) (f : RF) (v : Nat) : (s.setFldAt k f v).scrub = s.scrub := State.setRg_scrub s k _
@[simp] theorem State.setFldAt_bdma (s : State) (k : Nat) (f : RF) (v : Nat) : (s.setFldAt k f v).bdma = s.bdma := State.setRg_bdma s k _
@[simp] theorem State.setFldAt_bdmaReq (s : State) (k : Nat) (f : RF) (v : Nat) : (s.setFldAt k f v).bdmaReq = s.bdmaReq := State.setRg_bdmaReq s k _
@[simp] theorem State.setFldAt_fabIn (s : State) (k : Nat) (f : RF) (v : Nat) : (s.setFldAt k f v).fabIn = s.fabIn := State.setRg_fabIn s k _
@[simp] theorem State.setFldAt_fabOut (s : State) (k : Nat) (f : RF) (v : Nat) : (s.setFldAt k f v).fabOut = s.fabOut := State.setRg_fabOut s k _
@[simp] theorem State.setFldAt_fabAns (s : State) (k : Nat) (f : RF) (v : Nat) : (s.setFldAt k f v).fabAns = s.fabAns := State.setRg_fabAns s k _
@[simp] theorem State.setFldAt_nextTag (s : State) (k : Nat) (f : RF) (v : Nat) : (s.setFldAt k f v).nextTag = s.nextTag := State.setRg_nextTag s k _
@[simp] theorem State.setFldAt_links (s : State) (k : Nat) (f : RF) (v : Nat) : (s.setFldAt k f v).links = s.links := State.setRg_links s k _
@[simp] theorem State.setFldAt_log (s : State) (k : Nat) (f : RF) (v : Nat) : (s.setFldAt k f v).log = s.log := State.setRg_log s k _
@[simp] theorem State.setFldAt_logNext (s : State) (k : Nat) (f : RF) (v : Nat) : (s.setFldAt k f v).logNext = s.logNext := State.setRg_logNext s k _
@[simp] theorem State.setFldAt_ports (s : State) (k : Nat) (f : RF) (v : Nat) : (s.setFldAt k f v).ports = s.ports := State.setRg_ports s k _
@[simp] theorem State.setFldAt_sensors (s : State) (k : Nat) (f : RF) (v : Nat) : (s.setFldAt k f v).sensors = s.sensors := State.setRg_sensors s k _
@[simp] theorem State.setFldAt_secAt (s : State) (k : Nat) (f : RF) (v : Nat) : (s.setFldAt k f v).secAt = s.secAt := State.setRg_secAt s k _
@[simp] theorem State.setFldAt_committedSec (s : State) (k : Nat) (f : RF) (v : Nat) : (s.setFldAt k f v).committedSec = s.committedSec := State.setRg_committedSec s k _
@[simp] theorem State.setFldAt_lateSec (s : State) (k : Nat) (f : RF) (v : Nat) : (s.setFldAt k f v).lateSec = s.lateSec := State.setRg_lateSec s k _
@[simp] theorem State.setFldAt_deadlineFor (s : State) (k : Nat) (f : RF) (v : Nat) : (s.setFldAt k f v).deadlineFor = s.deadlineFor := State.setRg_deadlineFor s k _
@[simp] theorem State.setFldAt_beatAt (s : State) (k : Nat) (f : RF) (v : Nat) : (s.setFldAt k f v).beatAt = s.beatAt := State.setRg_beatAt s k _
@[simp] theorem State.setFldAt_sampled (s : State) (k : Nat) (f : RF) (v : Nat) : (s.setFldAt k f v).sampled = s.sampled := State.setRg_sampled s k _
@[simp] theorem State.setFldAt_rot (s : State) (k : Nat) (f : RF) (v : Nat) : (s.setFldAt k f v).rot = s.rot := State.setRg_rot s k _
@[simp] theorem State.setFldAt_prodBad (s : State) (k : Nat) (f : RF) (v : Nat) : (s.setFldAt k f v).prodBad = s.prodBad := State.setRg_prodBad s k _
@[simp] theorem State.setFldAt_grade (s : State) (k : Nat) (f : RF) (v : Nat) : (s.setFldAt k f v).grade = s.grade := State.setRg_grade s k _
@[simp] theorem State.setFldAt_siteBad (s : State) (k : Nat) (f : RF) (v : Nat) : (s.setFldAt k f v).siteBad = s.siteBad := State.setRg_siteBad s k _
@[simp] theorem State.setFldAt_mid (s : State) (k : Nat) (f : RF) (v : Nat) : (s.setFldAt k f v).mid = s.mid := State.setRg_mid s k _
@[simp] theorem State.setFldAt_pcie (s : State) (k : Nat) (f : RF) (v : Nat) : (s.setFldAt k f v).pcie = s.pcie := State.setRg_pcie s k _
@[simp] theorem State.setFldAt_pins (s : State) (k : Nat) (f : RF) (v : Nat) : (s.setFldAt k f v).pins = s.pins := State.setRg_pins s k _
@[simp] theorem State.setFldAt_resetting (s : State) (k : Nat) (f : RF) (v : Nat) : (s.setFldAt k f v).resetting = s.resetting := State.setRg_resetting s k _
@[simp] theorem State.setFldAt_resetAt (s : State) (k : Nat) (f : RF) (v : Nat) : (s.setFldAt k f v).resetAt = s.resetAt := State.setRg_resetAt s k _
@[simp] theorem State.setFldAt_softOwed (s : State) (k : Nat) (f : RF) (v : Nat) : (s.setFldAt k f v).softOwed = s.softOwed := State.setRg_softOwed s k _
@[simp] theorem State.setFldAt_softStage (s : State) (k : Nat) (f : RF) (v : Nat) : (s.setFldAt k f v).softStage = s.softStage := State.setRg_softStage s k _
@[simp] theorem State.setFldAt_execOff (s : State) (k : Nat) (f : RF) (v : Nat) : (s.setFldAt k f v).execOff = s.execOff := State.setRg_execOff s k _
@[simp] theorem State.setFldAt_selfRefresh (s : State) (k : Nat) (f : RF) (v : Nat) : (s.setFldAt k f v).selfRefresh = s.selfRefresh := State.setRg_selfRefresh s k _
@[simp] theorem State.setFldAt_clkGated (s : State) (k : Nat) (f : RF) (v : Nat) : (s.setFldAt k f v).clkGated = s.clkGated := State.setRg_clkGated s k _
@[simp] theorem State.setFldAt_wattSum (s : State) (k : Nat) (f : RF) (v : Nat) : (s.setFldAt k f v).wattSum = s.wattSum := State.setRg_wattSum s k _
@[simp] theorem State.setFldAt_wattAt (s : State) (k : Nat) (f : RF) (v : Nat) : (s.setFldAt k f v).wattAt = s.wattAt := State.setRg_wattAt s k _
@[simp] theorem State.setFldAt_exc (s : State) (k : Nat) (f : RF) (v : Nat) : (s.setFldAt k f v).exc = s.exc := State.setRg_exc s k _
@[simp] theorem State.setFldAt_preqPend (s : State) (k : Nat) (f : RF) (v : Nat) : (s.setFldAt k f v).preqPend = s.preqPend := State.setRg_preqPend s k _
@[simp] theorem State.setFldAt_d3Pend (s : State) (k : Nat) (f : RF) (v : Nat) : (s.setFldAt k f v).d3Pend = s.d3Pend := State.setRg_d3Pend s k _
@[simp] theorem State.setFldAt_rehOff (s : State) (k : Nat) (f : RF) (v : Nat) : (s.setFldAt k f v).rehOff = s.rehOff := State.setRg_rehOff s k _
@[simp] theorem State.setFldAt_disag (s : State) (k : Nat) (f : RF) (v : Nat) : (s.setFldAt k f v).disag = s.disag := State.setRg_disag s k _
@[simp] theorem State.setFldAt_quarDue (s : State) (k : Nat) (f : RF) (v : Nat) : (s.setFldAt k f v).quarDue = s.quarDue := State.setRg_quarDue s k _
@[simp] theorem State.setFldAt_rplUsed (s : State) (k : Nat) (f : RF) (v : Nat) : (s.setFldAt k f v).rplUsed = s.rplUsed := State.setRg_rplUsed s k _
@[simp] theorem State.setFldAt_rdData (s : State) (k : Nat) (f : RF) (v : Nat) : (s.setFldAt k f v).rdData = s.rdData := State.setRg_rdData s k _
@[simp] theorem State.setFldAt_rdStatus (s : State) (k : Nat) (f : RF) (v : Nat) : (s.setFldAt k f v).rdStatus = s.rdStatus := State.setRg_rdStatus s k _
@[simp] theorem State.setFldAt_out (s : State) (k : Nat) (f : RF) (v : Nat) : (s.setFldAt k f v).out = s.out := State.setRg_out s k _
@[simp] theorem State.setFldAt_free (s : State) (k : Nat) (f : RF) (v : Nat) : (s.setFldAt k f v).free = s.free := State.setRg_free s k _

-- setFld
@[simp] theorem State.setFld_pending (s : State) (d : Nat) (f : RF) (v : Nat) : (s.setFld d f v).pending = s.pending := State.setFldAt_pending s _ f v
@[simp] theorem State.setFld_now (s : State) (d : Nat) (f : RF) (v : Nat) : (s.setFld d f v).now = s.now := State.setFldAt_now s _ f v
@[simp] theorem State.setFld_upTime (s : State) (d : Nat) (f : RF) (v : Nat) : (s.setFld d f v).upTime = s.upTime := State.setFldAt_upTime s _ f v
@[simp] theorem State.setFld_frame (s : State) (d : Nat) (f : RF) (v : Nat) : (s.setFld d f v).frame = s.frame := State.setFldAt_frame s _ f v
@[simp] theorem State.setFld_curtainAt (s : State) (d : Nat) (f : RF) (v : Nat) : (s.setFld d f v).curtainAt = s.curtainAt := State.setFldAt_curtainAt s _ f v
@[simp] theorem State.setFld_nominal (s : State) (d : Nat) (f : RF) (v : Nat) : (s.setFld d f v).nominal = s.nominal := State.setFldAt_nominal s _ f v
@[simp] theorem State.setFld_curMode (s : State) (d : Nat) (f : RF) (v : Nat) : (s.setFld d f v).curMode = s.curMode := State.setFldAt_curMode s _ f v
@[simp] theorem State.setFld_edgeAt (s : State) (d : Nat) (f : RF) (v : Nat) : (s.setFld d f v).edgeAt = s.edgeAt := State.setFldAt_edgeAt s _ f v
@[simp] theorem State.setFld_clockFixed (s : State) (d : Nat) (f : RF) (v : Nat) : (s.setFld d f v).clockFixed = s.clockFixed := State.setFldAt_clockFixed s _ f v
@[simp] theorem State.setFld_overpower (s : State) (d : Nat) (f : RF) (v : Nat) : (s.setFld d f v).overpower = s.overpower := State.setFldAt_overpower s _ f v
@[simp] theorem State.setFld_closedFor (s : State) (d : Nat) (f : RF) (v : Nat) : (s.setFld d f v).closedFor = s.closedFor := State.setFldAt_closedFor s _ f v
@[simp] theorem State.setFld_guardOn (s : State) (d : Nat) (f : RF) (v : Nat) : (s.setFld d f v).guardOn = s.guardOn := State.setFldAt_guardOn s _ f v
@[simp] theorem State.setFld_refreshOn (s : State) (d : Nat) (f : RF) (v : Nat) : (s.setFld d f v).refreshOn = s.refreshOn := State.setFldAt_refreshOn s _ f v
@[simp] theorem State.setFld_hiCap (s : State) (d : Nat) (f : RF) (v : Nat) : (s.setFld d f v).hiCap = s.hiCap := State.setFldAt_hiCap s _ f v
@[simp] theorem State.setFld_loWr (s : State) (d : Nat) (f : RF) (v : Nat) : (s.setFld d f v).loWr = s.loWr := State.setFldAt_loWr s _ f v
@[simp] theorem State.setFld_cnt (s : State) (d : Nat) (f : RF) (v : Nat) : (s.setFld d f v).cnt = s.cnt := State.setFldAt_cnt s _ f v
@[simp] theorem State.setFld_mem (s : State) (d : Nat) (f : RF) (v : Nat) : (s.setFld d f v).mem = s.mem := State.setFldAt_mem s _ f v
@[simp] theorem State.setFld_poison (s : State) (d : Nat) (f : RF) (v : Nat) : (s.setFld d f v).poison = s.poison := State.setFldAt_poison s _ f v
@[simp] theorem State.setFld_ueRead (s : State) (d : Nat) (f : RF) (v : Nat) : (s.setFld d f v).ueRead = s.ueRead := State.setFldAt_ueRead s _ f v
@[simp] theorem State.setFld_host (s : State) (d : Nat) (f : RF) (v : Nat) : (s.setFld d f v).host = s.host := State.setFldAt_host s _ f v
@[simp] theorem State.setFld_hostPoison (s : State) (d : Nat) (f : RF) (v : Nat) : (s.setFld d f v).hostPoison = s.hostPoison := State.setFldAt_hostPoison s _ f v
@[simp] theorem State.setFld_inflight (s : State) (d : Nat) (f : RF) (v : Nat) : (s.setFld d f v).inflight = s.inflight := State.setFldAt_inflight s _ f v
@[simp] theorem State.setFld_signals (s : State) (d : Nat) (f : RF) (v : Nat) : (s.setFld d f v).signals = s.signals := State.setFldAt_signals s _ f v
@[simp] theorem State.setFld_nextCmd (s : State) (d : Nat) (f : RF) (v : Nat) : (s.setFld d f v).nextCmd = s.nextCmd := State.setFldAt_nextCmd s _ f v
@[simp] theorem State.setFld_landObs (s : State) (d : Nat) (f : RF) (v : Nat) : (s.setFld d f v).landObs = s.landObs := State.setFldAt_landObs s _ f v
@[simp] theorem State.setFld_errCmds (s : State) (d : Nat) (f : RF) (v : Nat) : (s.setFld d f v).errCmds = s.errCmds := State.setFldAt_errCmds s _ f v
@[simp] theorem State.setFld_cores (s : State) (d : Nat) (f : RF) (v : Nat) : (s.setFld d f v).cores = s.cores := State.setFldAt_cores s _ f v
@[simp] theorem State.setFld_cb (s : State) (d : Nat) (f : RF) (v : Nat) : (s.setFld d f v).cb = s.cb := State.setFldAt_cb s _ f v
@[simp] theorem State.setFld_cbForce (s : State) (d : Nat) (f : RF) (v : Nat) : (s.setFld d f v).cbForce = s.cbForce := State.setFldAt_cbForce s _ f v
@[simp] theorem State.setFld_reqs (s : State) (d : Nat) (f : RF) (v : Nat) : (s.setFld d f v).reqs = s.reqs := State.setFldAt_reqs s _ f v
@[simp] theorem State.setFld_steps (s : State) (d : Nat) (f : RF) (v : Nat) : (s.setFld d f v).steps = s.steps := State.setFldAt_steps s _ f v
@[simp] theorem State.setFld_deliveries (s : State) (d : Nat) (f : RF) (v : Nat) : (s.setFld d f v).deliveries = s.deliveries := State.setFldAt_deliveries s _ f v
@[simp] theorem State.setFld_heldActs (s : State) (d : Nat) (f : RF) (v : Nat) : (s.setFld d f v).heldActs = s.heldActs := State.setFldAt_heldActs s _ f v
@[simp] theorem State.setFld_used (s : State) (d : Nat) (f : RF) (v : Nat) : (s.setFld d f v).used = s.used := State.setFldAt_used s _ f v
@[simp] theorem State.setFld_admitted (s : State) (d : Nat) (f : RF) (v : Nat) : (s.setFld d f v).admitted = s.admitted := State.setFldAt_admitted s _ f v
@[simp] theorem State.setFld_fwd (s : State) (d : Nat) (f : RF) (v : Nat) : (s.setFld d f v).fwd = s.fwd := State.setFldAt_fwd s _ f v
@[simp] theorem State.setFld_gapPend (s : State) (d : Nat) (f : RF) (v : Nat) : (s.setFld d f v).gapPend = s.gapPend := State.setFldAt_gapPend s _ f v
@[simp] theorem State.setFld_doomed (s : State) (d : Nat) (f : RF) (v : Nat) : (s.setFld d f v).doomed = s.doomed := State.setFldAt_doomed s _ f v
@[simp] theorem State.setFld_deferSyn (s : State) (d : Nat) (f : RF) (v : Nat) : (s.setFld d f v).deferSyn = s.deferSyn := State.setFldAt_deferSyn s _ f v
@[simp] theorem State.setFld_postponed (s : State) (d : Nat) (f : RF) (v : Nat) : (s.setFld d f v).postponed = s.postponed := State.setFldAt_postponed s _ f v
@[simp] theorem State.setFld_itkStop (s : State) (d : Nat) (f : RF) (v : Nat) : (s.setFld d f v).itkStop = s.itkStop := State.setFldAt_itkStop s _ f v
@[simp] theorem State.setFld_itkTurn (s : State) (d : Nat) (f : RF) (v : Nat) : (s.setFld d f v).itkTurn = s.itkTurn := State.setFldAt_itkTurn s _ f v
@[simp] theorem State.setFld_itkKept (s : State) (d : Nat) (f : RF) (v : Nat) : (s.setFld d f v).itkKept = s.itkKept := State.setFldAt_itkKept s _ f v
@[simp] theorem State.setFld_itkNext (s : State) (d : Nat) (f : RF) (v : Nat) : (s.setFld d f v).itkNext = s.itkNext := State.setFldAt_itkNext s _ f v
@[simp] theorem State.setFld_backlog (s : State) (d : Nat) (f : RF) (v : Nat) : (s.setFld d f v).backlog = s.backlog := State.setFldAt_backlog s _ f v
@[simp] theorem State.setFld_egrDropped (s : State) (d : Nat) (f : RF) (v : Nat) : (s.setFld d f v).egrDropped = s.egrDropped := State.setFldAt_egrDropped s _ f v
@[simp] theorem State.setFld_egrSeq (s : State) (d : Nat) (f : RF) (v : Nat) : (s.setFld d f v).egrSeq = s.egrSeq := State.setFldAt_egrSeq s _ f v
@[simp] theorem State.setFld_egrCount (s : State) (d : Nat) (f : RF) (v : Nat) : (s.setFld d f v).egrCount = s.egrCount := State.setFldAt_egrCount s _ f v
@[simp] theorem State.setFld_egrOwed (s : State) (d : Nat) (f : RF) (v : Nat) : (s.setFld d f v).egrOwed = s.egrOwed := State.setFldAt_egrOwed s _ f v
@[simp] theorem State.setFld_actA (s : State) (d : Nat) (f : RF) (v : Nat) : (s.setFld d f v).actA = s.actA := State.setFldAt_actA s _ f v
@[simp] theorem State.setFld_actS (s : State) (d : Nat) (f : RF) (v : Nat) : (s.setFld d f v).actS = s.actS := State.setFldAt_actS s _ f v
@[simp] theorem State.setFld_asnA (s : State) (d : Nat) (f : RF) (v : Nat) : (s.setFld d f v).asnA = s.asnA := State.setFldAt_asnA s _ f v
@[simp] theorem State.setFld_asnS (s : State) (d : Nat) (f : RF) (v : Nat) : (s.setFld d f v).asnS = s.asnS := State.setFldAt_asnS s _ f v
@[simp] theorem State.setFld_grpA (s : State) (d : Nat) (f : RF) (v : Nat) : (s.setFld d f v).grpA = s.grpA := State.setFldAt_grpA s _ f v
@[simp] theorem State.setFld_grpS (s : State) (d : Nat) (f : RF) (v : Nat) : (s.setFld d f v).grpS = s.grpS := State.setFldAt_grpS s _ f v
@[simp] theorem State.setFld_swap (s : State) (d : Nat) (f : RF) (v : Nat) : (s.setFld d f v).swap = s.swap := State.setFldAt_swap s _ f v
@[simp] theorem State.setFld_swapReq (s : State) (d : Nat) (f : RF) (v : Nat) : (s.setFld d f v).swapReq = s.swapReq := State.setFldAt_swapReq s _ f v
@[simp] theorem State.setFld_rgnLive (s : State) (d : Nat) (f : RF) (v : Nat) : (s.setFld d f v).rgnLive = s.rgnLive := State.setFldAt_rgnLive s _ f v
@[simp] theorem State.setFld_rgnPend (s : State) (d : Nat) (f : RF) (v : Nat) : (s.setFld d f v).rgnPend = s.rgnPend := State.setFldAt_rgnPend s _ f v
@[simp] theorem State.setFld_attrLive (s : State) (d : Nat) (f : RF) (v : Nat) : (s.setFld d f v).attrLive = s.attrLive := State.setFldAt_attrLive s _ f v
@[simp] theorem State.setFld_attrPend (s : State) (d : Nat) (f : RF) (v : Nat) : (s.setFld d f v).attrPend = s.attrPend := State.setFldAt_attrPend s _ f v
@[simp] theorem State.setFld_publishing (s : State) (d : Nat) (f : RF) (v : Nat) : (s.setFld d f v).publishing = s.publishing := State.setFldAt_publishing s _ f v
@[simp] theorem State.setFld_updSeeds (s : State) (d : Nat) (f : RF) (v : Nat) : (s.setFld d f v).updSeeds = s.updSeeds := State.setFldAt_updSeeds s _ f v
@[simp] theorem State.setFld_etas (s : State) (d : Nat) (f : RF) (v : Nat) : (s.setFld d f v).etas = s.etas := State.setFldAt_etas s _ f v
@[simp] theorem State.setFld_grpRuns (s : State) (d : Nat) (f : RF) (v : Nat) : (s.setFld d f v).grpRuns = s.grpRuns := State.setFldAt_grpRuns s _ f v
@[simp] theorem State.setFld_uncommitted (s : State) (d : Nat) (f : RF) (v : Nat) : (s.setFld d f v).uncommitted = s.uncommitted := State.setFldAt_uncommitted s _ f v
@[simp] theorem State.setFld_numTot (s : State) (d : Nat) (f : RF) (v : Nat) : (s.setFld d f v).numTot = s.numTot := State.setFldAt_numTot s _ f v
@[simp] theorem State.setFld_lgrBuf (s : State) (d : Nat) (f : RF) (v : Nat) : (s.setFld d f v).lgrBuf = s.lgrBuf := State.setFldAt_lgrBuf s _ f v
@[simp] theorem State.setFld_lgrSerial (s : State) (d : Nat) (f : RF) (v : Nat) : (s.setFld d f v).lgrSerial = s.lgrSerial := State.setFldAt_lgrSerial s _ f v
@[simp] theorem State.setFld_lgrMark (s : State) (d : Nat) (f : RF) (v : Nat) : (s.setFld d f v).lgrMark = s.lgrMark := State.setFldAt_lgrMark s _ f v
@[simp] theorem State.setFld_lgrOwing (s : State) (d : Nat) (f : RF) (v : Nat) : (s.setFld d f v).lgrOwing = s.lgrOwing := State.setFldAt_lgrOwing s _ f v
@[simp] theorem State.setFld_prioStk (s : State) (d : Nat) (f : RF) (v : Nat) : (s.setFld d f v).prioStk = s.prioStk := State.setFldAt_prioStk s _ f v
@[simp] theorem State.setFld_holdoff (s : State) (d : Nat) (f : RF) (v : Nat) : (s.setFld d f v).holdoff = s.holdoff := State.setFldAt_holdoff s _ f v
@[simp] theorem State.setFld_loadErr (s : State) (d : Nat) (f : RF) (v : Nat) : (s.setFld d f v).loadErr = s.loadErr := State.setFldAt_loadErr s _ f v
@[simp] theorem State.setFld_replaced (s : State) (d : Nat) (f : RF) (v : Nat) : (s.setFld d f v).replaced = s.replaced := State.setFldAt_replaced s _ f v
@[simp] theorem State.setFld_merges (s : State) (d : Nat) (f : RF) (v : Nat) : (s.setFld d f v).merges = s.merges := State.setFldAt_merges s _ f v
@[simp] theorem State.setFld_copies (s : State) (d : Nat) (f : RF) (v : Nat) : (s.setFld d f v).copies = s.copies := State.setFldAt_copies s _ f v
@[simp] theorem State.setFld_scrub (s : State) (d : Nat) (f : RF) (v : Nat) : (s.setFld d f v).scrub = s.scrub := State.setFldAt_scrub s _ f v
@[simp] theorem State.setFld_bdma (s : State) (d : Nat) (f : RF) (v : Nat) : (s.setFld d f v).bdma = s.bdma := State.setFldAt_bdma s _ f v
@[simp] theorem State.setFld_bdmaReq (s : State) (d : Nat) (f : RF) (v : Nat) : (s.setFld d f v).bdmaReq = s.bdmaReq := State.setFldAt_bdmaReq s _ f v
@[simp] theorem State.setFld_fabIn (s : State) (d : Nat) (f : RF) (v : Nat) : (s.setFld d f v).fabIn = s.fabIn := State.setFldAt_fabIn s _ f v
@[simp] theorem State.setFld_fabOut (s : State) (d : Nat) (f : RF) (v : Nat) : (s.setFld d f v).fabOut = s.fabOut := State.setFldAt_fabOut s _ f v
@[simp] theorem State.setFld_fabAns (s : State) (d : Nat) (f : RF) (v : Nat) : (s.setFld d f v).fabAns = s.fabAns := State.setFldAt_fabAns s _ f v
@[simp] theorem State.setFld_nextTag (s : State) (d : Nat) (f : RF) (v : Nat) : (s.setFld d f v).nextTag = s.nextTag := State.setFldAt_nextTag s _ f v
@[simp] theorem State.setFld_links (s : State) (d : Nat) (f : RF) (v : Nat) : (s.setFld d f v).links = s.links := State.setFldAt_links s _ f v
@[simp] theorem State.setFld_log (s : State) (d : Nat) (f : RF) (v : Nat) : (s.setFld d f v).log = s.log := State.setFldAt_log s _ f v
@[simp] theorem State.setFld_logNext (s : State) (d : Nat) (f : RF) (v : Nat) : (s.setFld d f v).logNext = s.logNext := State.setFldAt_logNext s _ f v
@[simp] theorem State.setFld_ports (s : State) (d : Nat) (f : RF) (v : Nat) : (s.setFld d f v).ports = s.ports := State.setFldAt_ports s _ f v
@[simp] theorem State.setFld_sensors (s : State) (d : Nat) (f : RF) (v : Nat) : (s.setFld d f v).sensors = s.sensors := State.setFldAt_sensors s _ f v
@[simp] theorem State.setFld_secAt (s : State) (d : Nat) (f : RF) (v : Nat) : (s.setFld d f v).secAt = s.secAt := State.setFldAt_secAt s _ f v
@[simp] theorem State.setFld_committedSec (s : State) (d : Nat) (f : RF) (v : Nat) : (s.setFld d f v).committedSec = s.committedSec := State.setFldAt_committedSec s _ f v
@[simp] theorem State.setFld_lateSec (s : State) (d : Nat) (f : RF) (v : Nat) : (s.setFld d f v).lateSec = s.lateSec := State.setFldAt_lateSec s _ f v
@[simp] theorem State.setFld_deadlineFor (s : State) (d : Nat) (f : RF) (v : Nat) : (s.setFld d f v).deadlineFor = s.deadlineFor := State.setFldAt_deadlineFor s _ f v
@[simp] theorem State.setFld_beatAt (s : State) (d : Nat) (f : RF) (v : Nat) : (s.setFld d f v).beatAt = s.beatAt := State.setFldAt_beatAt s _ f v
@[simp] theorem State.setFld_sampled (s : State) (d : Nat) (f : RF) (v : Nat) : (s.setFld d f v).sampled = s.sampled := State.setFldAt_sampled s _ f v
@[simp] theorem State.setFld_rot (s : State) (d : Nat) (f : RF) (v : Nat) : (s.setFld d f v).rot = s.rot := State.setFldAt_rot s _ f v
@[simp] theorem State.setFld_prodBad (s : State) (d : Nat) (f : RF) (v : Nat) : (s.setFld d f v).prodBad = s.prodBad := State.setFldAt_prodBad s _ f v
@[simp] theorem State.setFld_grade (s : State) (d : Nat) (f : RF) (v : Nat) : (s.setFld d f v).grade = s.grade := State.setFldAt_grade s _ f v
@[simp] theorem State.setFld_siteBad (s : State) (d : Nat) (f : RF) (v : Nat) : (s.setFld d f v).siteBad = s.siteBad := State.setFldAt_siteBad s _ f v
@[simp] theorem State.setFld_mid (s : State) (d : Nat) (f : RF) (v : Nat) : (s.setFld d f v).mid = s.mid := State.setFldAt_mid s _ f v
@[simp] theorem State.setFld_pcie (s : State) (d : Nat) (f : RF) (v : Nat) : (s.setFld d f v).pcie = s.pcie := State.setFldAt_pcie s _ f v
@[simp] theorem State.setFld_pins (s : State) (d : Nat) (f : RF) (v : Nat) : (s.setFld d f v).pins = s.pins := State.setFldAt_pins s _ f v
@[simp] theorem State.setFld_resetting (s : State) (d : Nat) (f : RF) (v : Nat) : (s.setFld d f v).resetting = s.resetting := State.setFldAt_resetting s _ f v
@[simp] theorem State.setFld_resetAt (s : State) (d : Nat) (f : RF) (v : Nat) : (s.setFld d f v).resetAt = s.resetAt := State.setFldAt_resetAt s _ f v
@[simp] theorem State.setFld_softOwed (s : State) (d : Nat) (f : RF) (v : Nat) : (s.setFld d f v).softOwed = s.softOwed := State.setFldAt_softOwed s _ f v
@[simp] theorem State.setFld_softStage (s : State) (d : Nat) (f : RF) (v : Nat) : (s.setFld d f v).softStage = s.softStage := State.setFldAt_softStage s _ f v
@[simp] theorem State.setFld_execOff (s : State) (d : Nat) (f : RF) (v : Nat) : (s.setFld d f v).execOff = s.execOff := State.setFldAt_execOff s _ f v
@[simp] theorem State.setFld_selfRefresh (s : State) (d : Nat) (f : RF) (v : Nat) : (s.setFld d f v).selfRefresh = s.selfRefresh := State.setFldAt_selfRefresh s _ f v
@[simp] theorem State.setFld_clkGated (s : State) (d : Nat) (f : RF) (v : Nat) : (s.setFld d f v).clkGated = s.clkGated := State.setFldAt_clkGated s _ f v
@[simp] theorem State.setFld_wattSum (s : State) (d : Nat) (f : RF) (v : Nat) : (s.setFld d f v).wattSum = s.wattSum := State.setFldAt_wattSum s _ f v
@[simp] theorem State.setFld_wattAt (s : State) (d : Nat) (f : RF) (v : Nat) : (s.setFld d f v).wattAt = s.wattAt := State.setFldAt_wattAt s _ f v
@[simp] theorem State.setFld_exc (s : State) (d : Nat) (f : RF) (v : Nat) : (s.setFld d f v).exc = s.exc := State.setFldAt_exc s _ f v
@[simp] theorem State.setFld_preqPend (s : State) (d : Nat) (f : RF) (v : Nat) : (s.setFld d f v).preqPend = s.preqPend := State.setFldAt_preqPend s _ f v
@[simp] theorem State.setFld_d3Pend (s : State) (d : Nat) (f : RF) (v : Nat) : (s.setFld d f v).d3Pend = s.d3Pend := State.setFldAt_d3Pend s _ f v
@[simp] theorem State.setFld_rehOff (s : State) (d : Nat) (f : RF) (v : Nat) : (s.setFld d f v).rehOff = s.rehOff := State.setFldAt_rehOff s _ f v
@[simp] theorem State.setFld_disag (s : State) (d : Nat) (f : RF) (v : Nat) : (s.setFld d f v).disag = s.disag := State.setFldAt_disag s _ f v
@[simp] theorem State.setFld_quarDue (s : State) (d : Nat) (f : RF) (v : Nat) : (s.setFld d f v).quarDue = s.quarDue := State.setFldAt_quarDue s _ f v
@[simp] theorem State.setFld_rplUsed (s : State) (d : Nat) (f : RF) (v : Nat) : (s.setFld d f v).rplUsed = s.rplUsed := State.setFldAt_rplUsed s _ f v
@[simp] theorem State.setFld_rdData (s : State) (d : Nat) (f : RF) (v : Nat) : (s.setFld d f v).rdData = s.rdData := State.setFldAt_rdData s _ f v
@[simp] theorem State.setFld_rdStatus (s : State) (d : Nat) (f : RF) (v : Nat) : (s.setFld d f v).rdStatus = s.rdStatus := State.setFldAt_rdStatus s _ f v
@[simp] theorem State.setFld_out (s : State) (d : Nat) (f : RF) (v : Nat) : (s.setFld d f v).out = s.out := State.setFldAt_out s _ f v
@[simp] theorem State.setFld_free (s : State) (d : Nat) (f : RF) (v : Nat) : (s.setFld d f v).free = s.free := State.setFldAt_free s _ f v

-- setCfld
@[simp] theorem State.setCfld_pending (s : State) (c : Nat) (f : RF) (v : Nat) : (s.setCfld c f v).pending = s.pending := State.setFldAt_pending s _ f v
@[simp] theorem State.setCfld_now (s : State) (c : Nat) (f : RF) (v : Nat) : (s.setCfld c f v).now = s.now := State.setFldAt_now s _ f v
@[simp] theorem State.setCfld_upTime (s : State) (c : Nat) (f : RF) (v : Nat) : (s.setCfld c f v).upTime = s.upTime := State.setFldAt_upTime s _ f v
@[simp] theorem State.setCfld_frame (s : State) (c : Nat) (f : RF) (v : Nat) : (s.setCfld c f v).frame = s.frame := State.setFldAt_frame s _ f v
@[simp] theorem State.setCfld_curtainAt (s : State) (c : Nat) (f : RF) (v : Nat) : (s.setCfld c f v).curtainAt = s.curtainAt := State.setFldAt_curtainAt s _ f v
@[simp] theorem State.setCfld_nominal (s : State) (c : Nat) (f : RF) (v : Nat) : (s.setCfld c f v).nominal = s.nominal := State.setFldAt_nominal s _ f v
@[simp] theorem State.setCfld_curMode (s : State) (c : Nat) (f : RF) (v : Nat) : (s.setCfld c f v).curMode = s.curMode := State.setFldAt_curMode s _ f v
@[simp] theorem State.setCfld_edgeAt (s : State) (c : Nat) (f : RF) (v : Nat) : (s.setCfld c f v).edgeAt = s.edgeAt := State.setFldAt_edgeAt s _ f v
@[simp] theorem State.setCfld_clockFixed (s : State) (c : Nat) (f : RF) (v : Nat) : (s.setCfld c f v).clockFixed = s.clockFixed := State.setFldAt_clockFixed s _ f v
@[simp] theorem State.setCfld_overpower (s : State) (c : Nat) (f : RF) (v : Nat) : (s.setCfld c f v).overpower = s.overpower := State.setFldAt_overpower s _ f v
@[simp] theorem State.setCfld_closedFor (s : State) (c : Nat) (f : RF) (v : Nat) : (s.setCfld c f v).closedFor = s.closedFor := State.setFldAt_closedFor s _ f v
@[simp] theorem State.setCfld_guardOn (s : State) (c : Nat) (f : RF) (v : Nat) : (s.setCfld c f v).guardOn = s.guardOn := State.setFldAt_guardOn s _ f v
@[simp] theorem State.setCfld_refreshOn (s : State) (c : Nat) (f : RF) (v : Nat) : (s.setCfld c f v).refreshOn = s.refreshOn := State.setFldAt_refreshOn s _ f v
@[simp] theorem State.setCfld_hiCap (s : State) (c : Nat) (f : RF) (v : Nat) : (s.setCfld c f v).hiCap = s.hiCap := State.setFldAt_hiCap s _ f v
@[simp] theorem State.setCfld_loWr (s : State) (c : Nat) (f : RF) (v : Nat) : (s.setCfld c f v).loWr = s.loWr := State.setFldAt_loWr s _ f v
@[simp] theorem State.setCfld_cnt (s : State) (c : Nat) (f : RF) (v : Nat) : (s.setCfld c f v).cnt = s.cnt := State.setFldAt_cnt s _ f v
@[simp] theorem State.setCfld_mem (s : State) (c : Nat) (f : RF) (v : Nat) : (s.setCfld c f v).mem = s.mem := State.setFldAt_mem s _ f v
@[simp] theorem State.setCfld_poison (s : State) (c : Nat) (f : RF) (v : Nat) : (s.setCfld c f v).poison = s.poison := State.setFldAt_poison s _ f v
@[simp] theorem State.setCfld_ueRead (s : State) (c : Nat) (f : RF) (v : Nat) : (s.setCfld c f v).ueRead = s.ueRead := State.setFldAt_ueRead s _ f v
@[simp] theorem State.setCfld_host (s : State) (c : Nat) (f : RF) (v : Nat) : (s.setCfld c f v).host = s.host := State.setFldAt_host s _ f v
@[simp] theorem State.setCfld_hostPoison (s : State) (c : Nat) (f : RF) (v : Nat) : (s.setCfld c f v).hostPoison = s.hostPoison := State.setFldAt_hostPoison s _ f v
@[simp] theorem State.setCfld_inflight (s : State) (c : Nat) (f : RF) (v : Nat) : (s.setCfld c f v).inflight = s.inflight := State.setFldAt_inflight s _ f v
@[simp] theorem State.setCfld_signals (s : State) (c : Nat) (f : RF) (v : Nat) : (s.setCfld c f v).signals = s.signals := State.setFldAt_signals s _ f v
@[simp] theorem State.setCfld_nextCmd (s : State) (c : Nat) (f : RF) (v : Nat) : (s.setCfld c f v).nextCmd = s.nextCmd := State.setFldAt_nextCmd s _ f v
@[simp] theorem State.setCfld_landObs (s : State) (c : Nat) (f : RF) (v : Nat) : (s.setCfld c f v).landObs = s.landObs := State.setFldAt_landObs s _ f v
@[simp] theorem State.setCfld_errCmds (s : State) (c : Nat) (f : RF) (v : Nat) : (s.setCfld c f v).errCmds = s.errCmds := State.setFldAt_errCmds s _ f v
@[simp] theorem State.setCfld_cores (s : State) (c : Nat) (f : RF) (v : Nat) : (s.setCfld c f v).cores = s.cores := State.setFldAt_cores s _ f v
@[simp] theorem State.setCfld_cb (s : State) (c : Nat) (f : RF) (v : Nat) : (s.setCfld c f v).cb = s.cb := State.setFldAt_cb s _ f v
@[simp] theorem State.setCfld_cbForce (s : State) (c : Nat) (f : RF) (v : Nat) : (s.setCfld c f v).cbForce = s.cbForce := State.setFldAt_cbForce s _ f v
@[simp] theorem State.setCfld_reqs (s : State) (c : Nat) (f : RF) (v : Nat) : (s.setCfld c f v).reqs = s.reqs := State.setFldAt_reqs s _ f v
@[simp] theorem State.setCfld_steps (s : State) (c : Nat) (f : RF) (v : Nat) : (s.setCfld c f v).steps = s.steps := State.setFldAt_steps s _ f v
@[simp] theorem State.setCfld_deliveries (s : State) (c : Nat) (f : RF) (v : Nat) : (s.setCfld c f v).deliveries = s.deliveries := State.setFldAt_deliveries s _ f v
@[simp] theorem State.setCfld_heldActs (s : State) (c : Nat) (f : RF) (v : Nat) : (s.setCfld c f v).heldActs = s.heldActs := State.setFldAt_heldActs s _ f v
@[simp] theorem State.setCfld_used (s : State) (c : Nat) (f : RF) (v : Nat) : (s.setCfld c f v).used = s.used := State.setFldAt_used s _ f v
@[simp] theorem State.setCfld_admitted (s : State) (c : Nat) (f : RF) (v : Nat) : (s.setCfld c f v).admitted = s.admitted := State.setFldAt_admitted s _ f v
@[simp] theorem State.setCfld_fwd (s : State) (c : Nat) (f : RF) (v : Nat) : (s.setCfld c f v).fwd = s.fwd := State.setFldAt_fwd s _ f v
@[simp] theorem State.setCfld_gapPend (s : State) (c : Nat) (f : RF) (v : Nat) : (s.setCfld c f v).gapPend = s.gapPend := State.setFldAt_gapPend s _ f v
@[simp] theorem State.setCfld_doomed (s : State) (c : Nat) (f : RF) (v : Nat) : (s.setCfld c f v).doomed = s.doomed := State.setFldAt_doomed s _ f v
@[simp] theorem State.setCfld_deferSyn (s : State) (c : Nat) (f : RF) (v : Nat) : (s.setCfld c f v).deferSyn = s.deferSyn := State.setFldAt_deferSyn s _ f v
@[simp] theorem State.setCfld_postponed (s : State) (c : Nat) (f : RF) (v : Nat) : (s.setCfld c f v).postponed = s.postponed := State.setFldAt_postponed s _ f v
@[simp] theorem State.setCfld_itkStop (s : State) (c : Nat) (f : RF) (v : Nat) : (s.setCfld c f v).itkStop = s.itkStop := State.setFldAt_itkStop s _ f v
@[simp] theorem State.setCfld_itkTurn (s : State) (c : Nat) (f : RF) (v : Nat) : (s.setCfld c f v).itkTurn = s.itkTurn := State.setFldAt_itkTurn s _ f v
@[simp] theorem State.setCfld_itkKept (s : State) (c : Nat) (f : RF) (v : Nat) : (s.setCfld c f v).itkKept = s.itkKept := State.setFldAt_itkKept s _ f v
@[simp] theorem State.setCfld_itkNext (s : State) (c : Nat) (f : RF) (v : Nat) : (s.setCfld c f v).itkNext = s.itkNext := State.setFldAt_itkNext s _ f v
@[simp] theorem State.setCfld_backlog (s : State) (c : Nat) (f : RF) (v : Nat) : (s.setCfld c f v).backlog = s.backlog := State.setFldAt_backlog s _ f v
@[simp] theorem State.setCfld_egrDropped (s : State) (c : Nat) (f : RF) (v : Nat) : (s.setCfld c f v).egrDropped = s.egrDropped := State.setFldAt_egrDropped s _ f v
@[simp] theorem State.setCfld_egrSeq (s : State) (c : Nat) (f : RF) (v : Nat) : (s.setCfld c f v).egrSeq = s.egrSeq := State.setFldAt_egrSeq s _ f v
@[simp] theorem State.setCfld_egrCount (s : State) (c : Nat) (f : RF) (v : Nat) : (s.setCfld c f v).egrCount = s.egrCount := State.setFldAt_egrCount s _ f v
@[simp] theorem State.setCfld_egrOwed (s : State) (c : Nat) (f : RF) (v : Nat) : (s.setCfld c f v).egrOwed = s.egrOwed := State.setFldAt_egrOwed s _ f v
@[simp] theorem State.setCfld_actA (s : State) (c : Nat) (f : RF) (v : Nat) : (s.setCfld c f v).actA = s.actA := State.setFldAt_actA s _ f v
@[simp] theorem State.setCfld_actS (s : State) (c : Nat) (f : RF) (v : Nat) : (s.setCfld c f v).actS = s.actS := State.setFldAt_actS s _ f v
@[simp] theorem State.setCfld_asnA (s : State) (c : Nat) (f : RF) (v : Nat) : (s.setCfld c f v).asnA = s.asnA := State.setFldAt_asnA s _ f v
@[simp] theorem State.setCfld_asnS (s : State) (c : Nat) (f : RF) (v : Nat) : (s.setCfld c f v).asnS = s.asnS := State.setFldAt_asnS s _ f v
@[simp] theorem State.setCfld_grpA (s : State) (c : Nat) (f : RF) (v : Nat) : (s.setCfld c f v).grpA = s.grpA := State.setFldAt_grpA s _ f v
@[simp] theorem State.setCfld_grpS (s : State) (c : Nat) (f : RF) (v : Nat) : (s.setCfld c f v).grpS = s.grpS := State.setFldAt_grpS s _ f v
@[simp] theorem State.setCfld_swap (s : State) (c : Nat) (f : RF) (v : Nat) : (s.setCfld c f v).swap = s.swap := State.setFldAt_swap s _ f v
@[simp] theorem State.setCfld_swapReq (s : State) (c : Nat) (f : RF) (v : Nat) : (s.setCfld c f v).swapReq = s.swapReq := State.setFldAt_swapReq s _ f v
@[simp] theorem State.setCfld_rgnLive (s : State) (c : Nat) (f : RF) (v : Nat) : (s.setCfld c f v).rgnLive = s.rgnLive := State.setFldAt_rgnLive s _ f v
@[simp] theorem State.setCfld_rgnPend (s : State) (c : Nat) (f : RF) (v : Nat) : (s.setCfld c f v).rgnPend = s.rgnPend := State.setFldAt_rgnPend s _ f v
@[simp] theorem State.setCfld_attrLive (s : State) (c : Nat) (f : RF) (v : Nat) : (s.setCfld c f v).attrLive = s.attrLive := State.setFldAt_attrLive s _ f v
@[simp] theorem State.setCfld_attrPend (s : State) (c : Nat) (f : RF) (v : Nat) : (s.setCfld c f v).attrPend = s.attrPend := State.setFldAt_attrPend s _ f v
@[simp] theorem State.setCfld_publishing (s : State) (c : Nat) (f : RF) (v : Nat) : (s.setCfld c f v).publishing = s.publishing := State.setFldAt_publishing s _ f v
@[simp] theorem State.setCfld_updSeeds (s : State) (c : Nat) (f : RF) (v : Nat) : (s.setCfld c f v).updSeeds = s.updSeeds := State.setFldAt_updSeeds s _ f v
@[simp] theorem State.setCfld_etas (s : State) (c : Nat) (f : RF) (v : Nat) : (s.setCfld c f v).etas = s.etas := State.setFldAt_etas s _ f v
@[simp] theorem State.setCfld_grpRuns (s : State) (c : Nat) (f : RF) (v : Nat) : (s.setCfld c f v).grpRuns = s.grpRuns := State.setFldAt_grpRuns s _ f v
@[simp] theorem State.setCfld_uncommitted (s : State) (c : Nat) (f : RF) (v : Nat) : (s.setCfld c f v).uncommitted = s.uncommitted := State.setFldAt_uncommitted s _ f v
@[simp] theorem State.setCfld_numTot (s : State) (c : Nat) (f : RF) (v : Nat) : (s.setCfld c f v).numTot = s.numTot := State.setFldAt_numTot s _ f v
@[simp] theorem State.setCfld_lgrBuf (s : State) (c : Nat) (f : RF) (v : Nat) : (s.setCfld c f v).lgrBuf = s.lgrBuf := State.setFldAt_lgrBuf s _ f v
@[simp] theorem State.setCfld_lgrSerial (s : State) (c : Nat) (f : RF) (v : Nat) : (s.setCfld c f v).lgrSerial = s.lgrSerial := State.setFldAt_lgrSerial s _ f v
@[simp] theorem State.setCfld_lgrMark (s : State) (c : Nat) (f : RF) (v : Nat) : (s.setCfld c f v).lgrMark = s.lgrMark := State.setFldAt_lgrMark s _ f v
@[simp] theorem State.setCfld_lgrOwing (s : State) (c : Nat) (f : RF) (v : Nat) : (s.setCfld c f v).lgrOwing = s.lgrOwing := State.setFldAt_lgrOwing s _ f v
@[simp] theorem State.setCfld_prioStk (s : State) (c : Nat) (f : RF) (v : Nat) : (s.setCfld c f v).prioStk = s.prioStk := State.setFldAt_prioStk s _ f v
@[simp] theorem State.setCfld_holdoff (s : State) (c : Nat) (f : RF) (v : Nat) : (s.setCfld c f v).holdoff = s.holdoff := State.setFldAt_holdoff s _ f v
@[simp] theorem State.setCfld_loadErr (s : State) (c : Nat) (f : RF) (v : Nat) : (s.setCfld c f v).loadErr = s.loadErr := State.setFldAt_loadErr s _ f v
@[simp] theorem State.setCfld_replaced (s : State) (c : Nat) (f : RF) (v : Nat) : (s.setCfld c f v).replaced = s.replaced := State.setFldAt_replaced s _ f v
@[simp] theorem State.setCfld_merges (s : State) (c : Nat) (f : RF) (v : Nat) : (s.setCfld c f v).merges = s.merges := State.setFldAt_merges s _ f v
@[simp] theorem State.setCfld_copies (s : State) (c : Nat) (f : RF) (v : Nat) : (s.setCfld c f v).copies = s.copies := State.setFldAt_copies s _ f v
@[simp] theorem State.setCfld_scrub (s : State) (c : Nat) (f : RF) (v : Nat) : (s.setCfld c f v).scrub = s.scrub := State.setFldAt_scrub s _ f v
@[simp] theorem State.setCfld_bdma (s : State) (c : Nat) (f : RF) (v : Nat) : (s.setCfld c f v).bdma = s.bdma := State.setFldAt_bdma s _ f v
@[simp] theorem State.setCfld_bdmaReq (s : State) (c : Nat) (f : RF) (v : Nat) : (s.setCfld c f v).bdmaReq = s.bdmaReq := State.setFldAt_bdmaReq s _ f v
@[simp] theorem State.setCfld_fabIn (s : State) (c : Nat) (f : RF) (v : Nat) : (s.setCfld c f v).fabIn = s.fabIn := State.setFldAt_fabIn s _ f v
@[simp] theorem State.setCfld_fabOut (s : State) (c : Nat) (f : RF) (v : Nat) : (s.setCfld c f v).fabOut = s.fabOut := State.setFldAt_fabOut s _ f v
@[simp] theorem State.setCfld_fabAns (s : State) (c : Nat) (f : RF) (v : Nat) : (s.setCfld c f v).fabAns = s.fabAns := State.setFldAt_fabAns s _ f v
@[simp] theorem State.setCfld_nextTag (s : State) (c : Nat) (f : RF) (v : Nat) : (s.setCfld c f v).nextTag = s.nextTag := State.setFldAt_nextTag s _ f v
@[simp] theorem State.setCfld_links (s : State) (c : Nat) (f : RF) (v : Nat) : (s.setCfld c f v).links = s.links := State.setFldAt_links s _ f v
@[simp] theorem State.setCfld_log (s : State) (c : Nat) (f : RF) (v : Nat) : (s.setCfld c f v).log = s.log := State.setFldAt_log s _ f v
@[simp] theorem State.setCfld_logNext (s : State) (c : Nat) (f : RF) (v : Nat) : (s.setCfld c f v).logNext = s.logNext := State.setFldAt_logNext s _ f v
@[simp] theorem State.setCfld_ports (s : State) (c : Nat) (f : RF) (v : Nat) : (s.setCfld c f v).ports = s.ports := State.setFldAt_ports s _ f v
@[simp] theorem State.setCfld_sensors (s : State) (c : Nat) (f : RF) (v : Nat) : (s.setCfld c f v).sensors = s.sensors := State.setFldAt_sensors s _ f v
@[simp] theorem State.setCfld_secAt (s : State) (c : Nat) (f : RF) (v : Nat) : (s.setCfld c f v).secAt = s.secAt := State.setFldAt_secAt s _ f v
@[simp] theorem State.setCfld_committedSec (s : State) (c : Nat) (f : RF) (v : Nat) : (s.setCfld c f v).committedSec = s.committedSec := State.setFldAt_committedSec s _ f v
@[simp] theorem State.setCfld_lateSec (s : State) (c : Nat) (f : RF) (v : Nat) : (s.setCfld c f v).lateSec = s.lateSec := State.setFldAt_lateSec s _ f v
@[simp] theorem State.setCfld_deadlineFor (s : State) (c : Nat) (f : RF) (v : Nat) : (s.setCfld c f v).deadlineFor = s.deadlineFor := State.setFldAt_deadlineFor s _ f v
@[simp] theorem State.setCfld_beatAt (s : State) (c : Nat) (f : RF) (v : Nat) : (s.setCfld c f v).beatAt = s.beatAt := State.setFldAt_beatAt s _ f v
@[simp] theorem State.setCfld_sampled (s : State) (c : Nat) (f : RF) (v : Nat) : (s.setCfld c f v).sampled = s.sampled := State.setFldAt_sampled s _ f v
@[simp] theorem State.setCfld_rot (s : State) (c : Nat) (f : RF) (v : Nat) : (s.setCfld c f v).rot = s.rot := State.setFldAt_rot s _ f v
@[simp] theorem State.setCfld_prodBad (s : State) (c : Nat) (f : RF) (v : Nat) : (s.setCfld c f v).prodBad = s.prodBad := State.setFldAt_prodBad s _ f v
@[simp] theorem State.setCfld_grade (s : State) (c : Nat) (f : RF) (v : Nat) : (s.setCfld c f v).grade = s.grade := State.setFldAt_grade s _ f v
@[simp] theorem State.setCfld_siteBad (s : State) (c : Nat) (f : RF) (v : Nat) : (s.setCfld c f v).siteBad = s.siteBad := State.setFldAt_siteBad s _ f v
@[simp] theorem State.setCfld_mid (s : State) (c : Nat) (f : RF) (v : Nat) : (s.setCfld c f v).mid = s.mid := State.setFldAt_mid s _ f v
@[simp] theorem State.setCfld_pcie (s : State) (c : Nat) (f : RF) (v : Nat) : (s.setCfld c f v).pcie = s.pcie := State.setFldAt_pcie s _ f v
@[simp] theorem State.setCfld_pins (s : State) (c : Nat) (f : RF) (v : Nat) : (s.setCfld c f v).pins = s.pins := State.setFldAt_pins s _ f v
@[simp] theorem State.setCfld_resetting (s : State) (c : Nat) (f : RF) (v : Nat) : (s.setCfld c f v).resetting = s.resetting := State.setFldAt_resetting s _ f v
@[simp] theorem State.setCfld_resetAt (s : State) (c : Nat) (f : RF) (v : Nat) : (s.setCfld c f v).resetAt = s.resetAt := State.setFldAt_resetAt s _ f v
@[simp] theorem State.setCfld_softOwed (s : State) (c : Nat) (f : RF) (v : Nat) : (s.setCfld c f v).softOwed = s.softOwed := State.setFldAt_softOwed s _ f v
@[simp] theorem State.setCfld_softStage (s : State) (c : Nat) (f : RF) (v : Nat) : (s.setCfld c f v).softStage = s.softStage := State.setFldAt_softStage s _ f v
@[simp] theorem State.setCfld_execOff (s : State) (c : Nat) (f : RF) (v : Nat) : (s.setCfld c f v).execOff = s.execOff := State.setFldAt_execOff s _ f v
@[simp] theorem State.setCfld_selfRefresh (s : State) (c : Nat) (f : RF) (v : Nat) : (s.setCfld c f v).selfRefresh = s.selfRefresh := State.setFldAt_selfRefresh s _ f v
@[simp] theorem State.setCfld_clkGated (s : State) (c : Nat) (f : RF) (v : Nat) : (s.setCfld c f v).clkGated = s.clkGated := State.setFldAt_clkGated s _ f v
@[simp] theorem State.setCfld_wattSum (s : State) (c : Nat) (f : RF) (v : Nat) : (s.setCfld c f v).wattSum = s.wattSum := State.setFldAt_wattSum s _ f v
@[simp] theorem State.setCfld_wattAt (s : State) (c : Nat) (f : RF) (v : Nat) : (s.setCfld c f v).wattAt = s.wattAt := State.setFldAt_wattAt s _ f v
@[simp] theorem State.setCfld_exc (s : State) (c : Nat) (f : RF) (v : Nat) : (s.setCfld c f v).exc = s.exc := State.setFldAt_exc s _ f v
@[simp] theorem State.setCfld_preqPend (s : State) (c : Nat) (f : RF) (v : Nat) : (s.setCfld c f v).preqPend = s.preqPend := State.setFldAt_preqPend s _ f v
@[simp] theorem State.setCfld_d3Pend (s : State) (c : Nat) (f : RF) (v : Nat) : (s.setCfld c f v).d3Pend = s.d3Pend := State.setFldAt_d3Pend s _ f v
@[simp] theorem State.setCfld_rehOff (s : State) (c : Nat) (f : RF) (v : Nat) : (s.setCfld c f v).rehOff = s.rehOff := State.setFldAt_rehOff s _ f v
@[simp] theorem State.setCfld_disag (s : State) (c : Nat) (f : RF) (v : Nat) : (s.setCfld c f v).disag = s.disag := State.setFldAt_disag s _ f v
@[simp] theorem State.setCfld_quarDue (s : State) (c : Nat) (f : RF) (v : Nat) : (s.setCfld c f v).quarDue = s.quarDue := State.setFldAt_quarDue s _ f v
@[simp] theorem State.setCfld_rplUsed (s : State) (c : Nat) (f : RF) (v : Nat) : (s.setCfld c f v).rplUsed = s.rplUsed := State.setFldAt_rplUsed s _ f v
@[simp] theorem State.setCfld_rdData (s : State) (c : Nat) (f : RF) (v : Nat) : (s.setCfld c f v).rdData = s.rdData := State.setFldAt_rdData s _ f v
@[simp] theorem State.setCfld_rdStatus (s : State) (c : Nat) (f : RF) (v : Nat) : (s.setCfld c f v).rdStatus = s.rdStatus := State.setFldAt_rdStatus s _ f v
@[simp] theorem State.setCfld_out (s : State) (c : Nat) (f : RF) (v : Nat) : (s.setCfld c f v).out = s.out := State.setFldAt_out s _ f v
@[simp] theorem State.setCfld_free (s : State) (c : Nat) (f : RF) (v : Nat) : (s.setCfld c f v).free = s.free := State.setFldAt_free s _ f v

-- setRg64
@[simp] theorem State.setRg64_pending (s : State) (k v : Nat) : (s.setRg64 k v).pending = s.pending := (State.setRg_pending _ (k + 4) _).trans (State.setRg_pending s k _)
@[simp] theorem State.setRg64_now (s : State) (k v : Nat) : (s.setRg64 k v).now = s.now := (State.setRg_now _ (k + 4) _).trans (State.setRg_now s k _)
@[simp] theorem State.setRg64_upTime (s : State) (k v : Nat) : (s.setRg64 k v).upTime = s.upTime := (State.setRg_upTime _ (k + 4) _).trans (State.setRg_upTime s k _)
@[simp] theorem State.setRg64_frame (s : State) (k v : Nat) : (s.setRg64 k v).frame = s.frame := (State.setRg_frame _ (k + 4) _).trans (State.setRg_frame s k _)
@[simp] theorem State.setRg64_curtainAt (s : State) (k v : Nat) : (s.setRg64 k v).curtainAt = s.curtainAt := (State.setRg_curtainAt _ (k + 4) _).trans (State.setRg_curtainAt s k _)
@[simp] theorem State.setRg64_nominal (s : State) (k v : Nat) : (s.setRg64 k v).nominal = s.nominal := (State.setRg_nominal _ (k + 4) _).trans (State.setRg_nominal s k _)
@[simp] theorem State.setRg64_curMode (s : State) (k v : Nat) : (s.setRg64 k v).curMode = s.curMode := (State.setRg_curMode _ (k + 4) _).trans (State.setRg_curMode s k _)
@[simp] theorem State.setRg64_edgeAt (s : State) (k v : Nat) : (s.setRg64 k v).edgeAt = s.edgeAt := (State.setRg_edgeAt _ (k + 4) _).trans (State.setRg_edgeAt s k _)
@[simp] theorem State.setRg64_clockFixed (s : State) (k v : Nat) : (s.setRg64 k v).clockFixed = s.clockFixed := (State.setRg_clockFixed _ (k + 4) _).trans (State.setRg_clockFixed s k _)
@[simp] theorem State.setRg64_overpower (s : State) (k v : Nat) : (s.setRg64 k v).overpower = s.overpower := (State.setRg_overpower _ (k + 4) _).trans (State.setRg_overpower s k _)
@[simp] theorem State.setRg64_closedFor (s : State) (k v : Nat) : (s.setRg64 k v).closedFor = s.closedFor := (State.setRg_closedFor _ (k + 4) _).trans (State.setRg_closedFor s k _)
@[simp] theorem State.setRg64_guardOn (s : State) (k v : Nat) : (s.setRg64 k v).guardOn = s.guardOn := (State.setRg_guardOn _ (k + 4) _).trans (State.setRg_guardOn s k _)
@[simp] theorem State.setRg64_refreshOn (s : State) (k v : Nat) : (s.setRg64 k v).refreshOn = s.refreshOn := (State.setRg_refreshOn _ (k + 4) _).trans (State.setRg_refreshOn s k _)
@[simp] theorem State.setRg64_hiCap (s : State) (k v : Nat) : (s.setRg64 k v).hiCap = s.hiCap := (State.setRg_hiCap _ (k + 4) _).trans (State.setRg_hiCap s k _)
@[simp] theorem State.setRg64_loWr (s : State) (k v : Nat) : (s.setRg64 k v).loWr = s.loWr := (State.setRg_loWr _ (k + 4) _).trans (State.setRg_loWr s k _)
@[simp] theorem State.setRg64_cnt (s : State) (k v : Nat) : (s.setRg64 k v).cnt = s.cnt := (State.setRg_cnt _ (k + 4) _).trans (State.setRg_cnt s k _)
@[simp] theorem State.setRg64_mem (s : State) (k v : Nat) : (s.setRg64 k v).mem = s.mem := (State.setRg_mem _ (k + 4) _).trans (State.setRg_mem s k _)
@[simp] theorem State.setRg64_poison (s : State) (k v : Nat) : (s.setRg64 k v).poison = s.poison := (State.setRg_poison _ (k + 4) _).trans (State.setRg_poison s k _)
@[simp] theorem State.setRg64_ueRead (s : State) (k v : Nat) : (s.setRg64 k v).ueRead = s.ueRead := (State.setRg_ueRead _ (k + 4) _).trans (State.setRg_ueRead s k _)
@[simp] theorem State.setRg64_host (s : State) (k v : Nat) : (s.setRg64 k v).host = s.host := (State.setRg_host _ (k + 4) _).trans (State.setRg_host s k _)
@[simp] theorem State.setRg64_hostPoison (s : State) (k v : Nat) : (s.setRg64 k v).hostPoison = s.hostPoison := (State.setRg_hostPoison _ (k + 4) _).trans (State.setRg_hostPoison s k _)
@[simp] theorem State.setRg64_inflight (s : State) (k v : Nat) : (s.setRg64 k v).inflight = s.inflight := (State.setRg_inflight _ (k + 4) _).trans (State.setRg_inflight s k _)
@[simp] theorem State.setRg64_signals (s : State) (k v : Nat) : (s.setRg64 k v).signals = s.signals := (State.setRg_signals _ (k + 4) _).trans (State.setRg_signals s k _)
@[simp] theorem State.setRg64_nextCmd (s : State) (k v : Nat) : (s.setRg64 k v).nextCmd = s.nextCmd := (State.setRg_nextCmd _ (k + 4) _).trans (State.setRg_nextCmd s k _)
@[simp] theorem State.setRg64_landObs (s : State) (k v : Nat) : (s.setRg64 k v).landObs = s.landObs := (State.setRg_landObs _ (k + 4) _).trans (State.setRg_landObs s k _)
@[simp] theorem State.setRg64_errCmds (s : State) (k v : Nat) : (s.setRg64 k v).errCmds = s.errCmds := (State.setRg_errCmds _ (k + 4) _).trans (State.setRg_errCmds s k _)
@[simp] theorem State.setRg64_cores (s : State) (k v : Nat) : (s.setRg64 k v).cores = s.cores := (State.setRg_cores _ (k + 4) _).trans (State.setRg_cores s k _)
@[simp] theorem State.setRg64_cb (s : State) (k v : Nat) : (s.setRg64 k v).cb = s.cb := (State.setRg_cb _ (k + 4) _).trans (State.setRg_cb s k _)
@[simp] theorem State.setRg64_cbForce (s : State) (k v : Nat) : (s.setRg64 k v).cbForce = s.cbForce := (State.setRg_cbForce _ (k + 4) _).trans (State.setRg_cbForce s k _)
@[simp] theorem State.setRg64_reqs (s : State) (k v : Nat) : (s.setRg64 k v).reqs = s.reqs := (State.setRg_reqs _ (k + 4) _).trans (State.setRg_reqs s k _)
@[simp] theorem State.setRg64_steps (s : State) (k v : Nat) : (s.setRg64 k v).steps = s.steps := (State.setRg_steps _ (k + 4) _).trans (State.setRg_steps s k _)
@[simp] theorem State.setRg64_deliveries (s : State) (k v : Nat) : (s.setRg64 k v).deliveries = s.deliveries := (State.setRg_deliveries _ (k + 4) _).trans (State.setRg_deliveries s k _)
@[simp] theorem State.setRg64_heldActs (s : State) (k v : Nat) : (s.setRg64 k v).heldActs = s.heldActs := (State.setRg_heldActs _ (k + 4) _).trans (State.setRg_heldActs s k _)
@[simp] theorem State.setRg64_used (s : State) (k v : Nat) : (s.setRg64 k v).used = s.used := (State.setRg_used _ (k + 4) _).trans (State.setRg_used s k _)
@[simp] theorem State.setRg64_admitted (s : State) (k v : Nat) : (s.setRg64 k v).admitted = s.admitted := (State.setRg_admitted _ (k + 4) _).trans (State.setRg_admitted s k _)
@[simp] theorem State.setRg64_fwd (s : State) (k v : Nat) : (s.setRg64 k v).fwd = s.fwd := (State.setRg_fwd _ (k + 4) _).trans (State.setRg_fwd s k _)
@[simp] theorem State.setRg64_gapPend (s : State) (k v : Nat) : (s.setRg64 k v).gapPend = s.gapPend := (State.setRg_gapPend _ (k + 4) _).trans (State.setRg_gapPend s k _)
@[simp] theorem State.setRg64_doomed (s : State) (k v : Nat) : (s.setRg64 k v).doomed = s.doomed := (State.setRg_doomed _ (k + 4) _).trans (State.setRg_doomed s k _)
@[simp] theorem State.setRg64_deferSyn (s : State) (k v : Nat) : (s.setRg64 k v).deferSyn = s.deferSyn := (State.setRg_deferSyn _ (k + 4) _).trans (State.setRg_deferSyn s k _)
@[simp] theorem State.setRg64_postponed (s : State) (k v : Nat) : (s.setRg64 k v).postponed = s.postponed := (State.setRg_postponed _ (k + 4) _).trans (State.setRg_postponed s k _)
@[simp] theorem State.setRg64_itkStop (s : State) (k v : Nat) : (s.setRg64 k v).itkStop = s.itkStop := (State.setRg_itkStop _ (k + 4) _).trans (State.setRg_itkStop s k _)
@[simp] theorem State.setRg64_itkTurn (s : State) (k v : Nat) : (s.setRg64 k v).itkTurn = s.itkTurn := (State.setRg_itkTurn _ (k + 4) _).trans (State.setRg_itkTurn s k _)
@[simp] theorem State.setRg64_itkKept (s : State) (k v : Nat) : (s.setRg64 k v).itkKept = s.itkKept := (State.setRg_itkKept _ (k + 4) _).trans (State.setRg_itkKept s k _)
@[simp] theorem State.setRg64_itkNext (s : State) (k v : Nat) : (s.setRg64 k v).itkNext = s.itkNext := (State.setRg_itkNext _ (k + 4) _).trans (State.setRg_itkNext s k _)
@[simp] theorem State.setRg64_backlog (s : State) (k v : Nat) : (s.setRg64 k v).backlog = s.backlog := (State.setRg_backlog _ (k + 4) _).trans (State.setRg_backlog s k _)
@[simp] theorem State.setRg64_egrDropped (s : State) (k v : Nat) : (s.setRg64 k v).egrDropped = s.egrDropped := (State.setRg_egrDropped _ (k + 4) _).trans (State.setRg_egrDropped s k _)
@[simp] theorem State.setRg64_egrSeq (s : State) (k v : Nat) : (s.setRg64 k v).egrSeq = s.egrSeq := (State.setRg_egrSeq _ (k + 4) _).trans (State.setRg_egrSeq s k _)
@[simp] theorem State.setRg64_egrCount (s : State) (k v : Nat) : (s.setRg64 k v).egrCount = s.egrCount := (State.setRg_egrCount _ (k + 4) _).trans (State.setRg_egrCount s k _)
@[simp] theorem State.setRg64_egrOwed (s : State) (k v : Nat) : (s.setRg64 k v).egrOwed = s.egrOwed := (State.setRg_egrOwed _ (k + 4) _).trans (State.setRg_egrOwed s k _)
@[simp] theorem State.setRg64_actA (s : State) (k v : Nat) : (s.setRg64 k v).actA = s.actA := (State.setRg_actA _ (k + 4) _).trans (State.setRg_actA s k _)
@[simp] theorem State.setRg64_actS (s : State) (k v : Nat) : (s.setRg64 k v).actS = s.actS := (State.setRg_actS _ (k + 4) _).trans (State.setRg_actS s k _)
@[simp] theorem State.setRg64_asnA (s : State) (k v : Nat) : (s.setRg64 k v).asnA = s.asnA := (State.setRg_asnA _ (k + 4) _).trans (State.setRg_asnA s k _)
@[simp] theorem State.setRg64_asnS (s : State) (k v : Nat) : (s.setRg64 k v).asnS = s.asnS := (State.setRg_asnS _ (k + 4) _).trans (State.setRg_asnS s k _)
@[simp] theorem State.setRg64_grpA (s : State) (k v : Nat) : (s.setRg64 k v).grpA = s.grpA := (State.setRg_grpA _ (k + 4) _).trans (State.setRg_grpA s k _)
@[simp] theorem State.setRg64_grpS (s : State) (k v : Nat) : (s.setRg64 k v).grpS = s.grpS := (State.setRg_grpS _ (k + 4) _).trans (State.setRg_grpS s k _)
@[simp] theorem State.setRg64_swap (s : State) (k v : Nat) : (s.setRg64 k v).swap = s.swap := (State.setRg_swap _ (k + 4) _).trans (State.setRg_swap s k _)
@[simp] theorem State.setRg64_swapReq (s : State) (k v : Nat) : (s.setRg64 k v).swapReq = s.swapReq := (State.setRg_swapReq _ (k + 4) _).trans (State.setRg_swapReq s k _)
@[simp] theorem State.setRg64_rgnLive (s : State) (k v : Nat) : (s.setRg64 k v).rgnLive = s.rgnLive := (State.setRg_rgnLive _ (k + 4) _).trans (State.setRg_rgnLive s k _)
@[simp] theorem State.setRg64_rgnPend (s : State) (k v : Nat) : (s.setRg64 k v).rgnPend = s.rgnPend := (State.setRg_rgnPend _ (k + 4) _).trans (State.setRg_rgnPend s k _)
@[simp] theorem State.setRg64_attrLive (s : State) (k v : Nat) : (s.setRg64 k v).attrLive = s.attrLive := (State.setRg_attrLive _ (k + 4) _).trans (State.setRg_attrLive s k _)
@[simp] theorem State.setRg64_attrPend (s : State) (k v : Nat) : (s.setRg64 k v).attrPend = s.attrPend := (State.setRg_attrPend _ (k + 4) _).trans (State.setRg_attrPend s k _)
@[simp] theorem State.setRg64_publishing (s : State) (k v : Nat) : (s.setRg64 k v).publishing = s.publishing := (State.setRg_publishing _ (k + 4) _).trans (State.setRg_publishing s k _)
@[simp] theorem State.setRg64_updSeeds (s : State) (k v : Nat) : (s.setRg64 k v).updSeeds = s.updSeeds := (State.setRg_updSeeds _ (k + 4) _).trans (State.setRg_updSeeds s k _)
@[simp] theorem State.setRg64_etas (s : State) (k v : Nat) : (s.setRg64 k v).etas = s.etas := (State.setRg_etas _ (k + 4) _).trans (State.setRg_etas s k _)
@[simp] theorem State.setRg64_grpRuns (s : State) (k v : Nat) : (s.setRg64 k v).grpRuns = s.grpRuns := (State.setRg_grpRuns _ (k + 4) _).trans (State.setRg_grpRuns s k _)
@[simp] theorem State.setRg64_uncommitted (s : State) (k v : Nat) : (s.setRg64 k v).uncommitted = s.uncommitted := (State.setRg_uncommitted _ (k + 4) _).trans (State.setRg_uncommitted s k _)
@[simp] theorem State.setRg64_numTot (s : State) (k v : Nat) : (s.setRg64 k v).numTot = s.numTot := (State.setRg_numTot _ (k + 4) _).trans (State.setRg_numTot s k _)
@[simp] theorem State.setRg64_lgrBuf (s : State) (k v : Nat) : (s.setRg64 k v).lgrBuf = s.lgrBuf := (State.setRg_lgrBuf _ (k + 4) _).trans (State.setRg_lgrBuf s k _)
@[simp] theorem State.setRg64_lgrSerial (s : State) (k v : Nat) : (s.setRg64 k v).lgrSerial = s.lgrSerial := (State.setRg_lgrSerial _ (k + 4) _).trans (State.setRg_lgrSerial s k _)
@[simp] theorem State.setRg64_lgrMark (s : State) (k v : Nat) : (s.setRg64 k v).lgrMark = s.lgrMark := (State.setRg_lgrMark _ (k + 4) _).trans (State.setRg_lgrMark s k _)
@[simp] theorem State.setRg64_lgrOwing (s : State) (k v : Nat) : (s.setRg64 k v).lgrOwing = s.lgrOwing := (State.setRg_lgrOwing _ (k + 4) _).trans (State.setRg_lgrOwing s k _)
@[simp] theorem State.setRg64_prioStk (s : State) (k v : Nat) : (s.setRg64 k v).prioStk = s.prioStk := (State.setRg_prioStk _ (k + 4) _).trans (State.setRg_prioStk s k _)
@[simp] theorem State.setRg64_holdoff (s : State) (k v : Nat) : (s.setRg64 k v).holdoff = s.holdoff := (State.setRg_holdoff _ (k + 4) _).trans (State.setRg_holdoff s k _)
@[simp] theorem State.setRg64_loadErr (s : State) (k v : Nat) : (s.setRg64 k v).loadErr = s.loadErr := (State.setRg_loadErr _ (k + 4) _).trans (State.setRg_loadErr s k _)
@[simp] theorem State.setRg64_replaced (s : State) (k v : Nat) : (s.setRg64 k v).replaced = s.replaced := (State.setRg_replaced _ (k + 4) _).trans (State.setRg_replaced s k _)
@[simp] theorem State.setRg64_merges (s : State) (k v : Nat) : (s.setRg64 k v).merges = s.merges := (State.setRg_merges _ (k + 4) _).trans (State.setRg_merges s k _)
@[simp] theorem State.setRg64_copies (s : State) (k v : Nat) : (s.setRg64 k v).copies = s.copies := (State.setRg_copies _ (k + 4) _).trans (State.setRg_copies s k _)
@[simp] theorem State.setRg64_scrub (s : State) (k v : Nat) : (s.setRg64 k v).scrub = s.scrub := (State.setRg_scrub _ (k + 4) _).trans (State.setRg_scrub s k _)
@[simp] theorem State.setRg64_bdma (s : State) (k v : Nat) : (s.setRg64 k v).bdma = s.bdma := (State.setRg_bdma _ (k + 4) _).trans (State.setRg_bdma s k _)
@[simp] theorem State.setRg64_bdmaReq (s : State) (k v : Nat) : (s.setRg64 k v).bdmaReq = s.bdmaReq := (State.setRg_bdmaReq _ (k + 4) _).trans (State.setRg_bdmaReq s k _)
@[simp] theorem State.setRg64_fabIn (s : State) (k v : Nat) : (s.setRg64 k v).fabIn = s.fabIn := (State.setRg_fabIn _ (k + 4) _).trans (State.setRg_fabIn s k _)
@[simp] theorem State.setRg64_fabOut (s : State) (k v : Nat) : (s.setRg64 k v).fabOut = s.fabOut := (State.setRg_fabOut _ (k + 4) _).trans (State.setRg_fabOut s k _)
@[simp] theorem State.setRg64_fabAns (s : State) (k v : Nat) : (s.setRg64 k v).fabAns = s.fabAns := (State.setRg_fabAns _ (k + 4) _).trans (State.setRg_fabAns s k _)
@[simp] theorem State.setRg64_nextTag (s : State) (k v : Nat) : (s.setRg64 k v).nextTag = s.nextTag := (State.setRg_nextTag _ (k + 4) _).trans (State.setRg_nextTag s k _)
@[simp] theorem State.setRg64_links (s : State) (k v : Nat) : (s.setRg64 k v).links = s.links := (State.setRg_links _ (k + 4) _).trans (State.setRg_links s k _)
@[simp] theorem State.setRg64_log (s : State) (k v : Nat) : (s.setRg64 k v).log = s.log := (State.setRg_log _ (k + 4) _).trans (State.setRg_log s k _)
@[simp] theorem State.setRg64_logNext (s : State) (k v : Nat) : (s.setRg64 k v).logNext = s.logNext := (State.setRg_logNext _ (k + 4) _).trans (State.setRg_logNext s k _)
@[simp] theorem State.setRg64_ports (s : State) (k v : Nat) : (s.setRg64 k v).ports = s.ports := (State.setRg_ports _ (k + 4) _).trans (State.setRg_ports s k _)
@[simp] theorem State.setRg64_sensors (s : State) (k v : Nat) : (s.setRg64 k v).sensors = s.sensors := (State.setRg_sensors _ (k + 4) _).trans (State.setRg_sensors s k _)
@[simp] theorem State.setRg64_secAt (s : State) (k v : Nat) : (s.setRg64 k v).secAt = s.secAt := (State.setRg_secAt _ (k + 4) _).trans (State.setRg_secAt s k _)
@[simp] theorem State.setRg64_committedSec (s : State) (k v : Nat) : (s.setRg64 k v).committedSec = s.committedSec := (State.setRg_committedSec _ (k + 4) _).trans (State.setRg_committedSec s k _)
@[simp] theorem State.setRg64_lateSec (s : State) (k v : Nat) : (s.setRg64 k v).lateSec = s.lateSec := (State.setRg_lateSec _ (k + 4) _).trans (State.setRg_lateSec s k _)
@[simp] theorem State.setRg64_deadlineFor (s : State) (k v : Nat) : (s.setRg64 k v).deadlineFor = s.deadlineFor := (State.setRg_deadlineFor _ (k + 4) _).trans (State.setRg_deadlineFor s k _)
@[simp] theorem State.setRg64_beatAt (s : State) (k v : Nat) : (s.setRg64 k v).beatAt = s.beatAt := (State.setRg_beatAt _ (k + 4) _).trans (State.setRg_beatAt s k _)
@[simp] theorem State.setRg64_sampled (s : State) (k v : Nat) : (s.setRg64 k v).sampled = s.sampled := (State.setRg_sampled _ (k + 4) _).trans (State.setRg_sampled s k _)
@[simp] theorem State.setRg64_rot (s : State) (k v : Nat) : (s.setRg64 k v).rot = s.rot := (State.setRg_rot _ (k + 4) _).trans (State.setRg_rot s k _)
@[simp] theorem State.setRg64_prodBad (s : State) (k v : Nat) : (s.setRg64 k v).prodBad = s.prodBad := (State.setRg_prodBad _ (k + 4) _).trans (State.setRg_prodBad s k _)
@[simp] theorem State.setRg64_grade (s : State) (k v : Nat) : (s.setRg64 k v).grade = s.grade := (State.setRg_grade _ (k + 4) _).trans (State.setRg_grade s k _)
@[simp] theorem State.setRg64_siteBad (s : State) (k v : Nat) : (s.setRg64 k v).siteBad = s.siteBad := (State.setRg_siteBad _ (k + 4) _).trans (State.setRg_siteBad s k _)
@[simp] theorem State.setRg64_mid (s : State) (k v : Nat) : (s.setRg64 k v).mid = s.mid := (State.setRg_mid _ (k + 4) _).trans (State.setRg_mid s k _)
@[simp] theorem State.setRg64_pcie (s : State) (k v : Nat) : (s.setRg64 k v).pcie = s.pcie := (State.setRg_pcie _ (k + 4) _).trans (State.setRg_pcie s k _)
@[simp] theorem State.setRg64_pins (s : State) (k v : Nat) : (s.setRg64 k v).pins = s.pins := (State.setRg_pins _ (k + 4) _).trans (State.setRg_pins s k _)
@[simp] theorem State.setRg64_resetting (s : State) (k v : Nat) : (s.setRg64 k v).resetting = s.resetting := (State.setRg_resetting _ (k + 4) _).trans (State.setRg_resetting s k _)
@[simp] theorem State.setRg64_resetAt (s : State) (k v : Nat) : (s.setRg64 k v).resetAt = s.resetAt := (State.setRg_resetAt _ (k + 4) _).trans (State.setRg_resetAt s k _)
@[simp] theorem State.setRg64_softOwed (s : State) (k v : Nat) : (s.setRg64 k v).softOwed = s.softOwed := (State.setRg_softOwed _ (k + 4) _).trans (State.setRg_softOwed s k _)
@[simp] theorem State.setRg64_softStage (s : State) (k v : Nat) : (s.setRg64 k v).softStage = s.softStage := (State.setRg_softStage _ (k + 4) _).trans (State.setRg_softStage s k _)
@[simp] theorem State.setRg64_execOff (s : State) (k v : Nat) : (s.setRg64 k v).execOff = s.execOff := (State.setRg_execOff _ (k + 4) _).trans (State.setRg_execOff s k _)
@[simp] theorem State.setRg64_selfRefresh (s : State) (k v : Nat) : (s.setRg64 k v).selfRefresh = s.selfRefresh := (State.setRg_selfRefresh _ (k + 4) _).trans (State.setRg_selfRefresh s k _)
@[simp] theorem State.setRg64_clkGated (s : State) (k v : Nat) : (s.setRg64 k v).clkGated = s.clkGated := (State.setRg_clkGated _ (k + 4) _).trans (State.setRg_clkGated s k _)
@[simp] theorem State.setRg64_wattSum (s : State) (k v : Nat) : (s.setRg64 k v).wattSum = s.wattSum := (State.setRg_wattSum _ (k + 4) _).trans (State.setRg_wattSum s k _)
@[simp] theorem State.setRg64_wattAt (s : State) (k v : Nat) : (s.setRg64 k v).wattAt = s.wattAt := (State.setRg_wattAt _ (k + 4) _).trans (State.setRg_wattAt s k _)
@[simp] theorem State.setRg64_exc (s : State) (k v : Nat) : (s.setRg64 k v).exc = s.exc := (State.setRg_exc _ (k + 4) _).trans (State.setRg_exc s k _)
@[simp] theorem State.setRg64_preqPend (s : State) (k v : Nat) : (s.setRg64 k v).preqPend = s.preqPend := (State.setRg_preqPend _ (k + 4) _).trans (State.setRg_preqPend s k _)
@[simp] theorem State.setRg64_d3Pend (s : State) (k v : Nat) : (s.setRg64 k v).d3Pend = s.d3Pend := (State.setRg_d3Pend _ (k + 4) _).trans (State.setRg_d3Pend s k _)
@[simp] theorem State.setRg64_rehOff (s : State) (k v : Nat) : (s.setRg64 k v).rehOff = s.rehOff := (State.setRg_rehOff _ (k + 4) _).trans (State.setRg_rehOff s k _)
@[simp] theorem State.setRg64_disag (s : State) (k v : Nat) : (s.setRg64 k v).disag = s.disag := (State.setRg_disag _ (k + 4) _).trans (State.setRg_disag s k _)
@[simp] theorem State.setRg64_quarDue (s : State) (k v : Nat) : (s.setRg64 k v).quarDue = s.quarDue := (State.setRg_quarDue _ (k + 4) _).trans (State.setRg_quarDue s k _)
@[simp] theorem State.setRg64_rplUsed (s : State) (k v : Nat) : (s.setRg64 k v).rplUsed = s.rplUsed := (State.setRg_rplUsed _ (k + 4) _).trans (State.setRg_rplUsed s k _)
@[simp] theorem State.setRg64_rdData (s : State) (k v : Nat) : (s.setRg64 k v).rdData = s.rdData := (State.setRg_rdData _ (k + 4) _).trans (State.setRg_rdData s k _)
@[simp] theorem State.setRg64_rdStatus (s : State) (k v : Nat) : (s.setRg64 k v).rdStatus = s.rdStatus := (State.setRg_rdStatus _ (k + 4) _).trans (State.setRg_rdStatus s k _)
@[simp] theorem State.setRg64_out (s : State) (k v : Nat) : (s.setRg64 k v).out = s.out := (State.setRg_out _ (k + 4) _).trans (State.setRg_out s k _)
@[simp] theorem State.setRg64_free (s : State) (k v : Nat) : (s.setRg64 k v).free = s.free := (State.setRg_free _ (k + 4) _).trans (State.setRg_free s k _)

-- setHalt
@[simp] theorem State.setHalt_pending (s : State) (c : Nat) (h : Fin 4) (v : Bool) : (s.setHalt c h v).pending = s.pending := State.setCfld_pending s c _ _
@[simp] theorem State.setHalt_now (s : State) (c : Nat) (h : Fin 4) (v : Bool) : (s.setHalt c h v).now = s.now := State.setCfld_now s c _ _
@[simp] theorem State.setHalt_upTime (s : State) (c : Nat) (h : Fin 4) (v : Bool) : (s.setHalt c h v).upTime = s.upTime := State.setCfld_upTime s c _ _
@[simp] theorem State.setHalt_frame (s : State) (c : Nat) (h : Fin 4) (v : Bool) : (s.setHalt c h v).frame = s.frame := State.setCfld_frame s c _ _
@[simp] theorem State.setHalt_curtainAt (s : State) (c : Nat) (h : Fin 4) (v : Bool) : (s.setHalt c h v).curtainAt = s.curtainAt := State.setCfld_curtainAt s c _ _
@[simp] theorem State.setHalt_nominal (s : State) (c : Nat) (h : Fin 4) (v : Bool) : (s.setHalt c h v).nominal = s.nominal := State.setCfld_nominal s c _ _
@[simp] theorem State.setHalt_curMode (s : State) (c : Nat) (h : Fin 4) (v : Bool) : (s.setHalt c h v).curMode = s.curMode := State.setCfld_curMode s c _ _
@[simp] theorem State.setHalt_edgeAt (s : State) (c : Nat) (h : Fin 4) (v : Bool) : (s.setHalt c h v).edgeAt = s.edgeAt := State.setCfld_edgeAt s c _ _
@[simp] theorem State.setHalt_clockFixed (s : State) (c : Nat) (h : Fin 4) (v : Bool) : (s.setHalt c h v).clockFixed = s.clockFixed := State.setCfld_clockFixed s c _ _
@[simp] theorem State.setHalt_overpower (s : State) (c : Nat) (h : Fin 4) (v : Bool) : (s.setHalt c h v).overpower = s.overpower := State.setCfld_overpower s c _ _
@[simp] theorem State.setHalt_closedFor (s : State) (c : Nat) (h : Fin 4) (v : Bool) : (s.setHalt c h v).closedFor = s.closedFor := State.setCfld_closedFor s c _ _
@[simp] theorem State.setHalt_guardOn (s : State) (c : Nat) (h : Fin 4) (v : Bool) : (s.setHalt c h v).guardOn = s.guardOn := State.setCfld_guardOn s c _ _
@[simp] theorem State.setHalt_refreshOn (s : State) (c : Nat) (h : Fin 4) (v : Bool) : (s.setHalt c h v).refreshOn = s.refreshOn := State.setCfld_refreshOn s c _ _
@[simp] theorem State.setHalt_hiCap (s : State) (c : Nat) (h : Fin 4) (v : Bool) : (s.setHalt c h v).hiCap = s.hiCap := State.setCfld_hiCap s c _ _
@[simp] theorem State.setHalt_loWr (s : State) (c : Nat) (h : Fin 4) (v : Bool) : (s.setHalt c h v).loWr = s.loWr := State.setCfld_loWr s c _ _
@[simp] theorem State.setHalt_cnt (s : State) (c : Nat) (h : Fin 4) (v : Bool) : (s.setHalt c h v).cnt = s.cnt := State.setCfld_cnt s c _ _
@[simp] theorem State.setHalt_mem (s : State) (c : Nat) (h : Fin 4) (v : Bool) : (s.setHalt c h v).mem = s.mem := State.setCfld_mem s c _ _
@[simp] theorem State.setHalt_poison (s : State) (c : Nat) (h : Fin 4) (v : Bool) : (s.setHalt c h v).poison = s.poison := State.setCfld_poison s c _ _
@[simp] theorem State.setHalt_ueRead (s : State) (c : Nat) (h : Fin 4) (v : Bool) : (s.setHalt c h v).ueRead = s.ueRead := State.setCfld_ueRead s c _ _
@[simp] theorem State.setHalt_host (s : State) (c : Nat) (h : Fin 4) (v : Bool) : (s.setHalt c h v).host = s.host := State.setCfld_host s c _ _
@[simp] theorem State.setHalt_hostPoison (s : State) (c : Nat) (h : Fin 4) (v : Bool) : (s.setHalt c h v).hostPoison = s.hostPoison := State.setCfld_hostPoison s c _ _
@[simp] theorem State.setHalt_inflight (s : State) (c : Nat) (h : Fin 4) (v : Bool) : (s.setHalt c h v).inflight = s.inflight := State.setCfld_inflight s c _ _
@[simp] theorem State.setHalt_signals (s : State) (c : Nat) (h : Fin 4) (v : Bool) : (s.setHalt c h v).signals = s.signals := State.setCfld_signals s c _ _
@[simp] theorem State.setHalt_nextCmd (s : State) (c : Nat) (h : Fin 4) (v : Bool) : (s.setHalt c h v).nextCmd = s.nextCmd := State.setCfld_nextCmd s c _ _
@[simp] theorem State.setHalt_landObs (s : State) (c : Nat) (h : Fin 4) (v : Bool) : (s.setHalt c h v).landObs = s.landObs := State.setCfld_landObs s c _ _
@[simp] theorem State.setHalt_errCmds (s : State) (c : Nat) (h : Fin 4) (v : Bool) : (s.setHalt c h v).errCmds = s.errCmds := State.setCfld_errCmds s c _ _
@[simp] theorem State.setHalt_cores (s : State) (c : Nat) (h : Fin 4) (v : Bool) : (s.setHalt c h v).cores = s.cores := State.setCfld_cores s c _ _
@[simp] theorem State.setHalt_cb (s : State) (c : Nat) (h : Fin 4) (v : Bool) : (s.setHalt c h v).cb = s.cb := State.setCfld_cb s c _ _
@[simp] theorem State.setHalt_cbForce (s : State) (c : Nat) (h : Fin 4) (v : Bool) : (s.setHalt c h v).cbForce = s.cbForce := State.setCfld_cbForce s c _ _
@[simp] theorem State.setHalt_reqs (s : State) (c : Nat) (h : Fin 4) (v : Bool) : (s.setHalt c h v).reqs = s.reqs := State.setCfld_reqs s c _ _
@[simp] theorem State.setHalt_steps (s : State) (c : Nat) (h : Fin 4) (v : Bool) : (s.setHalt c h v).steps = s.steps := State.setCfld_steps s c _ _
@[simp] theorem State.setHalt_deliveries (s : State) (c : Nat) (h : Fin 4) (v : Bool) : (s.setHalt c h v).deliveries = s.deliveries := State.setCfld_deliveries s c _ _
@[simp] theorem State.setHalt_heldActs (s : State) (c : Nat) (h : Fin 4) (v : Bool) : (s.setHalt c h v).heldActs = s.heldActs := State.setCfld_heldActs s c _ _
@[simp] theorem State.setHalt_used (s : State) (c : Nat) (h : Fin 4) (v : Bool) : (s.setHalt c h v).used = s.used := State.setCfld_used s c _ _
@[simp] theorem State.setHalt_admitted (s : State) (c : Nat) (h : Fin 4) (v : Bool) : (s.setHalt c h v).admitted = s.admitted := State.setCfld_admitted s c _ _
@[simp] theorem State.setHalt_fwd (s : State) (c : Nat) (h : Fin 4) (v : Bool) : (s.setHalt c h v).fwd = s.fwd := State.setCfld_fwd s c _ _
@[simp] theorem State.setHalt_gapPend (s : State) (c : Nat) (h : Fin 4) (v : Bool) : (s.setHalt c h v).gapPend = s.gapPend := State.setCfld_gapPend s c _ _
@[simp] theorem State.setHalt_doomed (s : State) (c : Nat) (h : Fin 4) (v : Bool) : (s.setHalt c h v).doomed = s.doomed := State.setCfld_doomed s c _ _
@[simp] theorem State.setHalt_deferSyn (s : State) (c : Nat) (h : Fin 4) (v : Bool) : (s.setHalt c h v).deferSyn = s.deferSyn := State.setCfld_deferSyn s c _ _
@[simp] theorem State.setHalt_postponed (s : State) (c : Nat) (h : Fin 4) (v : Bool) : (s.setHalt c h v).postponed = s.postponed := State.setCfld_postponed s c _ _
@[simp] theorem State.setHalt_itkStop (s : State) (c : Nat) (h : Fin 4) (v : Bool) : (s.setHalt c h v).itkStop = s.itkStop := State.setCfld_itkStop s c _ _
@[simp] theorem State.setHalt_itkTurn (s : State) (c : Nat) (h : Fin 4) (v : Bool) : (s.setHalt c h v).itkTurn = s.itkTurn := State.setCfld_itkTurn s c _ _
@[simp] theorem State.setHalt_itkKept (s : State) (c : Nat) (h : Fin 4) (v : Bool) : (s.setHalt c h v).itkKept = s.itkKept := State.setCfld_itkKept s c _ _
@[simp] theorem State.setHalt_itkNext (s : State) (c : Nat) (h : Fin 4) (v : Bool) : (s.setHalt c h v).itkNext = s.itkNext := State.setCfld_itkNext s c _ _
@[simp] theorem State.setHalt_backlog (s : State) (c : Nat) (h : Fin 4) (v : Bool) : (s.setHalt c h v).backlog = s.backlog := State.setCfld_backlog s c _ _
@[simp] theorem State.setHalt_egrDropped (s : State) (c : Nat) (h : Fin 4) (v : Bool) : (s.setHalt c h v).egrDropped = s.egrDropped := State.setCfld_egrDropped s c _ _
@[simp] theorem State.setHalt_egrSeq (s : State) (c : Nat) (h : Fin 4) (v : Bool) : (s.setHalt c h v).egrSeq = s.egrSeq := State.setCfld_egrSeq s c _ _
@[simp] theorem State.setHalt_egrCount (s : State) (c : Nat) (h : Fin 4) (v : Bool) : (s.setHalt c h v).egrCount = s.egrCount := State.setCfld_egrCount s c _ _
@[simp] theorem State.setHalt_egrOwed (s : State) (c : Nat) (h : Fin 4) (v : Bool) : (s.setHalt c h v).egrOwed = s.egrOwed := State.setCfld_egrOwed s c _ _
@[simp] theorem State.setHalt_actA (s : State) (c : Nat) (h : Fin 4) (v : Bool) : (s.setHalt c h v).actA = s.actA := State.setCfld_actA s c _ _
@[simp] theorem State.setHalt_actS (s : State) (c : Nat) (h : Fin 4) (v : Bool) : (s.setHalt c h v).actS = s.actS := State.setCfld_actS s c _ _
@[simp] theorem State.setHalt_asnA (s : State) (c : Nat) (h : Fin 4) (v : Bool) : (s.setHalt c h v).asnA = s.asnA := State.setCfld_asnA s c _ _
@[simp] theorem State.setHalt_asnS (s : State) (c : Nat) (h : Fin 4) (v : Bool) : (s.setHalt c h v).asnS = s.asnS := State.setCfld_asnS s c _ _
@[simp] theorem State.setHalt_grpA (s : State) (c : Nat) (h : Fin 4) (v : Bool) : (s.setHalt c h v).grpA = s.grpA := State.setCfld_grpA s c _ _
@[simp] theorem State.setHalt_grpS (s : State) (c : Nat) (h : Fin 4) (v : Bool) : (s.setHalt c h v).grpS = s.grpS := State.setCfld_grpS s c _ _
@[simp] theorem State.setHalt_swap (s : State) (c : Nat) (h : Fin 4) (v : Bool) : (s.setHalt c h v).swap = s.swap := State.setCfld_swap s c _ _
@[simp] theorem State.setHalt_swapReq (s : State) (c : Nat) (h : Fin 4) (v : Bool) : (s.setHalt c h v).swapReq = s.swapReq := State.setCfld_swapReq s c _ _
@[simp] theorem State.setHalt_rgnLive (s : State) (c : Nat) (h : Fin 4) (v : Bool) : (s.setHalt c h v).rgnLive = s.rgnLive := State.setCfld_rgnLive s c _ _
@[simp] theorem State.setHalt_rgnPend (s : State) (c : Nat) (h : Fin 4) (v : Bool) : (s.setHalt c h v).rgnPend = s.rgnPend := State.setCfld_rgnPend s c _ _
@[simp] theorem State.setHalt_attrLive (s : State) (c : Nat) (h : Fin 4) (v : Bool) : (s.setHalt c h v).attrLive = s.attrLive := State.setCfld_attrLive s c _ _
@[simp] theorem State.setHalt_attrPend (s : State) (c : Nat) (h : Fin 4) (v : Bool) : (s.setHalt c h v).attrPend = s.attrPend := State.setCfld_attrPend s c _ _
@[simp] theorem State.setHalt_publishing (s : State) (c : Nat) (h : Fin 4) (v : Bool) : (s.setHalt c h v).publishing = s.publishing := State.setCfld_publishing s c _ _
@[simp] theorem State.setHalt_updSeeds (s : State) (c : Nat) (h : Fin 4) (v : Bool) : (s.setHalt c h v).updSeeds = s.updSeeds := State.setCfld_updSeeds s c _ _
@[simp] theorem State.setHalt_etas (s : State) (c : Nat) (h : Fin 4) (v : Bool) : (s.setHalt c h v).etas = s.etas := State.setCfld_etas s c _ _
@[simp] theorem State.setHalt_grpRuns (s : State) (c : Nat) (h : Fin 4) (v : Bool) : (s.setHalt c h v).grpRuns = s.grpRuns := State.setCfld_grpRuns s c _ _
@[simp] theorem State.setHalt_uncommitted (s : State) (c : Nat) (h : Fin 4) (v : Bool) : (s.setHalt c h v).uncommitted = s.uncommitted := State.setCfld_uncommitted s c _ _
@[simp] theorem State.setHalt_numTot (s : State) (c : Nat) (h : Fin 4) (v : Bool) : (s.setHalt c h v).numTot = s.numTot := State.setCfld_numTot s c _ _
@[simp] theorem State.setHalt_lgrBuf (s : State) (c : Nat) (h : Fin 4) (v : Bool) : (s.setHalt c h v).lgrBuf = s.lgrBuf := State.setCfld_lgrBuf s c _ _
@[simp] theorem State.setHalt_lgrSerial (s : State) (c : Nat) (h : Fin 4) (v : Bool) : (s.setHalt c h v).lgrSerial = s.lgrSerial := State.setCfld_lgrSerial s c _ _
@[simp] theorem State.setHalt_lgrMark (s : State) (c : Nat) (h : Fin 4) (v : Bool) : (s.setHalt c h v).lgrMark = s.lgrMark := State.setCfld_lgrMark s c _ _
@[simp] theorem State.setHalt_lgrOwing (s : State) (c : Nat) (h : Fin 4) (v : Bool) : (s.setHalt c h v).lgrOwing = s.lgrOwing := State.setCfld_lgrOwing s c _ _
@[simp] theorem State.setHalt_prioStk (s : State) (c : Nat) (h : Fin 4) (v : Bool) : (s.setHalt c h v).prioStk = s.prioStk := State.setCfld_prioStk s c _ _
@[simp] theorem State.setHalt_holdoff (s : State) (c : Nat) (h : Fin 4) (v : Bool) : (s.setHalt c h v).holdoff = s.holdoff := State.setCfld_holdoff s c _ _
@[simp] theorem State.setHalt_loadErr (s : State) (c : Nat) (h : Fin 4) (v : Bool) : (s.setHalt c h v).loadErr = s.loadErr := State.setCfld_loadErr s c _ _
@[simp] theorem State.setHalt_replaced (s : State) (c : Nat) (h : Fin 4) (v : Bool) : (s.setHalt c h v).replaced = s.replaced := State.setCfld_replaced s c _ _
@[simp] theorem State.setHalt_merges (s : State) (c : Nat) (h : Fin 4) (v : Bool) : (s.setHalt c h v).merges = s.merges := State.setCfld_merges s c _ _
@[simp] theorem State.setHalt_copies (s : State) (c : Nat) (h : Fin 4) (v : Bool) : (s.setHalt c h v).copies = s.copies := State.setCfld_copies s c _ _
@[simp] theorem State.setHalt_scrub (s : State) (c : Nat) (h : Fin 4) (v : Bool) : (s.setHalt c h v).scrub = s.scrub := State.setCfld_scrub s c _ _
@[simp] theorem State.setHalt_bdma (s : State) (c : Nat) (h : Fin 4) (v : Bool) : (s.setHalt c h v).bdma = s.bdma := State.setCfld_bdma s c _ _
@[simp] theorem State.setHalt_bdmaReq (s : State) (c : Nat) (h : Fin 4) (v : Bool) : (s.setHalt c h v).bdmaReq = s.bdmaReq := State.setCfld_bdmaReq s c _ _
@[simp] theorem State.setHalt_fabIn (s : State) (c : Nat) (h : Fin 4) (v : Bool) : (s.setHalt c h v).fabIn = s.fabIn := State.setCfld_fabIn s c _ _
@[simp] theorem State.setHalt_fabOut (s : State) (c : Nat) (h : Fin 4) (v : Bool) : (s.setHalt c h v).fabOut = s.fabOut := State.setCfld_fabOut s c _ _
@[simp] theorem State.setHalt_fabAns (s : State) (c : Nat) (h : Fin 4) (v : Bool) : (s.setHalt c h v).fabAns = s.fabAns := State.setCfld_fabAns s c _ _
@[simp] theorem State.setHalt_nextTag (s : State) (c : Nat) (h : Fin 4) (v : Bool) : (s.setHalt c h v).nextTag = s.nextTag := State.setCfld_nextTag s c _ _
@[simp] theorem State.setHalt_links (s : State) (c : Nat) (h : Fin 4) (v : Bool) : (s.setHalt c h v).links = s.links := State.setCfld_links s c _ _
@[simp] theorem State.setHalt_log (s : State) (c : Nat) (h : Fin 4) (v : Bool) : (s.setHalt c h v).log = s.log := State.setCfld_log s c _ _
@[simp] theorem State.setHalt_logNext (s : State) (c : Nat) (h : Fin 4) (v : Bool) : (s.setHalt c h v).logNext = s.logNext := State.setCfld_logNext s c _ _
@[simp] theorem State.setHalt_ports (s : State) (c : Nat) (h : Fin 4) (v : Bool) : (s.setHalt c h v).ports = s.ports := State.setCfld_ports s c _ _
@[simp] theorem State.setHalt_sensors (s : State) (c : Nat) (h : Fin 4) (v : Bool) : (s.setHalt c h v).sensors = s.sensors := State.setCfld_sensors s c _ _
@[simp] theorem State.setHalt_secAt (s : State) (c : Nat) (h : Fin 4) (v : Bool) : (s.setHalt c h v).secAt = s.secAt := State.setCfld_secAt s c _ _
@[simp] theorem State.setHalt_committedSec (s : State) (c : Nat) (h : Fin 4) (v : Bool) : (s.setHalt c h v).committedSec = s.committedSec := State.setCfld_committedSec s c _ _
@[simp] theorem State.setHalt_lateSec (s : State) (c : Nat) (h : Fin 4) (v : Bool) : (s.setHalt c h v).lateSec = s.lateSec := State.setCfld_lateSec s c _ _
@[simp] theorem State.setHalt_deadlineFor (s : State) (c : Nat) (h : Fin 4) (v : Bool) : (s.setHalt c h v).deadlineFor = s.deadlineFor := State.setCfld_deadlineFor s c _ _
@[simp] theorem State.setHalt_beatAt (s : State) (c : Nat) (h : Fin 4) (v : Bool) : (s.setHalt c h v).beatAt = s.beatAt := State.setCfld_beatAt s c _ _
@[simp] theorem State.setHalt_sampled (s : State) (c : Nat) (h : Fin 4) (v : Bool) : (s.setHalt c h v).sampled = s.sampled := State.setCfld_sampled s c _ _
@[simp] theorem State.setHalt_rot (s : State) (c : Nat) (h : Fin 4) (v : Bool) : (s.setHalt c h v).rot = s.rot := State.setCfld_rot s c _ _
@[simp] theorem State.setHalt_prodBad (s : State) (c : Nat) (h : Fin 4) (v : Bool) : (s.setHalt c h v).prodBad = s.prodBad := State.setCfld_prodBad s c _ _
@[simp] theorem State.setHalt_grade (s : State) (c : Nat) (h : Fin 4) (v : Bool) : (s.setHalt c h v).grade = s.grade := State.setCfld_grade s c _ _
@[simp] theorem State.setHalt_siteBad (s : State) (c : Nat) (h : Fin 4) (v : Bool) : (s.setHalt c h v).siteBad = s.siteBad := State.setCfld_siteBad s c _ _
@[simp] theorem State.setHalt_mid (s : State) (c : Nat) (h : Fin 4) (v : Bool) : (s.setHalt c h v).mid = s.mid := State.setCfld_mid s c _ _
@[simp] theorem State.setHalt_pcie (s : State) (c : Nat) (h : Fin 4) (v : Bool) : (s.setHalt c h v).pcie = s.pcie := State.setCfld_pcie s c _ _
@[simp] theorem State.setHalt_pins (s : State) (c : Nat) (h : Fin 4) (v : Bool) : (s.setHalt c h v).pins = s.pins := State.setCfld_pins s c _ _
@[simp] theorem State.setHalt_resetting (s : State) (c : Nat) (h : Fin 4) (v : Bool) : (s.setHalt c h v).resetting = s.resetting := State.setCfld_resetting s c _ _
@[simp] theorem State.setHalt_resetAt (s : State) (c : Nat) (h : Fin 4) (v : Bool) : (s.setHalt c h v).resetAt = s.resetAt := State.setCfld_resetAt s c _ _
@[simp] theorem State.setHalt_softOwed (s : State) (c : Nat) (h : Fin 4) (v : Bool) : (s.setHalt c h v).softOwed = s.softOwed := State.setCfld_softOwed s c _ _
@[simp] theorem State.setHalt_softStage (s : State) (c : Nat) (h : Fin 4) (v : Bool) : (s.setHalt c h v).softStage = s.softStage := State.setCfld_softStage s c _ _
@[simp] theorem State.setHalt_execOff (s : State) (c : Nat) (h : Fin 4) (v : Bool) : (s.setHalt c h v).execOff = s.execOff := State.setCfld_execOff s c _ _
@[simp] theorem State.setHalt_selfRefresh (s : State) (c : Nat) (h : Fin 4) (v : Bool) : (s.setHalt c h v).selfRefresh = s.selfRefresh := State.setCfld_selfRefresh s c _ _
@[simp] theorem State.setHalt_clkGated (s : State) (c : Nat) (h : Fin 4) (v : Bool) : (s.setHalt c h v).clkGated = s.clkGated := State.setCfld_clkGated s c _ _
@[simp] theorem State.setHalt_wattSum (s : State) (c : Nat) (h : Fin 4) (v : Bool) : (s.setHalt c h v).wattSum = s.wattSum := State.setCfld_wattSum s c _ _
@[simp] theorem State.setHalt_wattAt (s : State) (c : Nat) (h : Fin 4) (v : Bool) : (s.setHalt c h v).wattAt = s.wattAt := State.setCfld_wattAt s c _ _
@[simp] theorem State.setHalt_exc (s : State) (c : Nat) (h : Fin 4) (v : Bool) : (s.setHalt c h v).exc = s.exc := State.setCfld_exc s c _ _
@[simp] theorem State.setHalt_preqPend (s : State) (c : Nat) (h : Fin 4) (v : Bool) : (s.setHalt c h v).preqPend = s.preqPend := State.setCfld_preqPend s c _ _
@[simp] theorem State.setHalt_d3Pend (s : State) (c : Nat) (h : Fin 4) (v : Bool) : (s.setHalt c h v).d3Pend = s.d3Pend := State.setCfld_d3Pend s c _ _
@[simp] theorem State.setHalt_rehOff (s : State) (c : Nat) (h : Fin 4) (v : Bool) : (s.setHalt c h v).rehOff = s.rehOff := State.setCfld_rehOff s c _ _
@[simp] theorem State.setHalt_disag (s : State) (c : Nat) (h : Fin 4) (v : Bool) : (s.setHalt c h v).disag = s.disag := State.setCfld_disag s c _ _
@[simp] theorem State.setHalt_quarDue (s : State) (c : Nat) (h : Fin 4) (v : Bool) : (s.setHalt c h v).quarDue = s.quarDue := State.setCfld_quarDue s c _ _
@[simp] theorem State.setHalt_rplUsed (s : State) (c : Nat) (h : Fin 4) (v : Bool) : (s.setHalt c h v).rplUsed = s.rplUsed := State.setCfld_rplUsed s c _ _
@[simp] theorem State.setHalt_rdData (s : State) (c : Nat) (h : Fin 4) (v : Bool) : (s.setHalt c h v).rdData = s.rdData := State.setCfld_rdData s c _ _
@[simp] theorem State.setHalt_rdStatus (s : State) (c : Nat) (h : Fin 4) (v : Bool) : (s.setHalt c h v).rdStatus = s.rdStatus := State.setCfld_rdStatus s c _ _
@[simp] theorem State.setHalt_out (s : State) (c : Nat) (h : Fin 4) (v : Bool) : (s.setHalt c h v).out = s.out := State.setCfld_out s c _ _
@[simp] theorem State.setHalt_free (s : State) (c : Nat) (h : Fin 4) (v : Bool) : (s.setHalt c h v).free = s.free := State.setCfld_free s c _ _

-- setCounter
@[simp] theorem State.setCounter_pending (s : State) (u d x v : Nat) : (s.setCounter u d x v).pending = s.pending := rfl
@[simp] theorem State.setCounter_now (s : State) (u d x v : Nat) : (s.setCounter u d x v).now = s.now := rfl
@[simp] theorem State.setCounter_upTime (s : State) (u d x v : Nat) : (s.setCounter u d x v).upTime = s.upTime := rfl
@[simp] theorem State.setCounter_frame (s : State) (u d x v : Nat) : (s.setCounter u d x v).frame = s.frame := rfl
@[simp] theorem State.setCounter_curtainAt (s : State) (u d x v : Nat) : (s.setCounter u d x v).curtainAt = s.curtainAt := rfl
@[simp] theorem State.setCounter_nominal (s : State) (u d x v : Nat) : (s.setCounter u d x v).nominal = s.nominal := rfl
@[simp] theorem State.setCounter_curMode (s : State) (u d x v : Nat) : (s.setCounter u d x v).curMode = s.curMode := rfl
@[simp] theorem State.setCounter_edgeAt (s : State) (u d x v : Nat) : (s.setCounter u d x v).edgeAt = s.edgeAt := rfl
@[simp] theorem State.setCounter_clockFixed (s : State) (u d x v : Nat) : (s.setCounter u d x v).clockFixed = s.clockFixed := rfl
@[simp] theorem State.setCounter_overpower (s : State) (u d x v : Nat) : (s.setCounter u d x v).overpower = s.overpower := rfl
@[simp] theorem State.setCounter_closedFor (s : State) (u d x v : Nat) : (s.setCounter u d x v).closedFor = s.closedFor := rfl
@[simp] theorem State.setCounter_guardOn (s : State) (u d x v : Nat) : (s.setCounter u d x v).guardOn = s.guardOn := rfl
@[simp] theorem State.setCounter_refreshOn (s : State) (u d x v : Nat) : (s.setCounter u d x v).refreshOn = s.refreshOn := rfl
@[simp] theorem State.setCounter_regs (s : State) (u d x v : Nat) : (s.setCounter u d x v).regs = s.regs := rfl
@[simp] theorem State.setCounter_hiCap (s : State) (u d x v : Nat) : (s.setCounter u d x v).hiCap = s.hiCap := rfl
@[simp] theorem State.setCounter_loWr (s : State) (u d x v : Nat) : (s.setCounter u d x v).loWr = s.loWr := rfl
@[simp] theorem State.setCounter_mem (s : State) (u d x v : Nat) : (s.setCounter u d x v).mem = s.mem := rfl
@[simp] theorem State.setCounter_poison (s : State) (u d x v : Nat) : (s.setCounter u d x v).poison = s.poison := rfl
@[simp] theorem State.setCounter_ueRead (s : State) (u d x v : Nat) : (s.setCounter u d x v).ueRead = s.ueRead := rfl
@[simp] theorem State.setCounter_host (s : State) (u d x v : Nat) : (s.setCounter u d x v).host = s.host := rfl
@[simp] theorem State.setCounter_hostPoison (s : State) (u d x v : Nat) : (s.setCounter u d x v).hostPoison = s.hostPoison := rfl
@[simp] theorem State.setCounter_inflight (s : State) (u d x v : Nat) : (s.setCounter u d x v).inflight = s.inflight := rfl
@[simp] theorem State.setCounter_signals (s : State) (u d x v : Nat) : (s.setCounter u d x v).signals = s.signals := rfl
@[simp] theorem State.setCounter_nextCmd (s : State) (u d x v : Nat) : (s.setCounter u d x v).nextCmd = s.nextCmd := rfl
@[simp] theorem State.setCounter_landObs (s : State) (u d x v : Nat) : (s.setCounter u d x v).landObs = s.landObs := rfl
@[simp] theorem State.setCounter_errCmds (s : State) (u d x v : Nat) : (s.setCounter u d x v).errCmds = s.errCmds := rfl
@[simp] theorem State.setCounter_cores (s : State) (u d x v : Nat) : (s.setCounter u d x v).cores = s.cores := rfl
@[simp] theorem State.setCounter_cb (s : State) (u d x v : Nat) : (s.setCounter u d x v).cb = s.cb := rfl
@[simp] theorem State.setCounter_cbForce (s : State) (u d x v : Nat) : (s.setCounter u d x v).cbForce = s.cbForce := rfl
@[simp] theorem State.setCounter_reqs (s : State) (u d x v : Nat) : (s.setCounter u d x v).reqs = s.reqs := rfl
@[simp] theorem State.setCounter_steps (s : State) (u d x v : Nat) : (s.setCounter u d x v).steps = s.steps := rfl
@[simp] theorem State.setCounter_deliveries (s : State) (u d x v : Nat) : (s.setCounter u d x v).deliveries = s.deliveries := rfl
@[simp] theorem State.setCounter_heldActs (s : State) (u d x v : Nat) : (s.setCounter u d x v).heldActs = s.heldActs := rfl
@[simp] theorem State.setCounter_used (s : State) (u d x v : Nat) : (s.setCounter u d x v).used = s.used := rfl
@[simp] theorem State.setCounter_admitted (s : State) (u d x v : Nat) : (s.setCounter u d x v).admitted = s.admitted := rfl
@[simp] theorem State.setCounter_fwd (s : State) (u d x v : Nat) : (s.setCounter u d x v).fwd = s.fwd := rfl
@[simp] theorem State.setCounter_gapPend (s : State) (u d x v : Nat) : (s.setCounter u d x v).gapPend = s.gapPend := rfl
@[simp] theorem State.setCounter_doomed (s : State) (u d x v : Nat) : (s.setCounter u d x v).doomed = s.doomed := rfl
@[simp] theorem State.setCounter_deferSyn (s : State) (u d x v : Nat) : (s.setCounter u d x v).deferSyn = s.deferSyn := rfl
@[simp] theorem State.setCounter_postponed (s : State) (u d x v : Nat) : (s.setCounter u d x v).postponed = s.postponed := rfl
@[simp] theorem State.setCounter_itkStop (s : State) (u d x v : Nat) : (s.setCounter u d x v).itkStop = s.itkStop := rfl
@[simp] theorem State.setCounter_itkTurn (s : State) (u d x v : Nat) : (s.setCounter u d x v).itkTurn = s.itkTurn := rfl
@[simp] theorem State.setCounter_itkKept (s : State) (u d x v : Nat) : (s.setCounter u d x v).itkKept = s.itkKept := rfl
@[simp] theorem State.setCounter_itkNext (s : State) (u d x v : Nat) : (s.setCounter u d x v).itkNext = s.itkNext := rfl
@[simp] theorem State.setCounter_backlog (s : State) (u d x v : Nat) : (s.setCounter u d x v).backlog = s.backlog := rfl
@[simp] theorem State.setCounter_egrDropped (s : State) (u d x v : Nat) : (s.setCounter u d x v).egrDropped = s.egrDropped := rfl
@[simp] theorem State.setCounter_egrSeq (s : State) (u d x v : Nat) : (s.setCounter u d x v).egrSeq = s.egrSeq := rfl
@[simp] theorem State.setCounter_egrCount (s : State) (u d x v : Nat) : (s.setCounter u d x v).egrCount = s.egrCount := rfl
@[simp] theorem State.setCounter_egrOwed (s : State) (u d x v : Nat) : (s.setCounter u d x v).egrOwed = s.egrOwed := rfl
@[simp] theorem State.setCounter_actA (s : State) (u d x v : Nat) : (s.setCounter u d x v).actA = s.actA := rfl
@[simp] theorem State.setCounter_actS (s : State) (u d x v : Nat) : (s.setCounter u d x v).actS = s.actS := rfl
@[simp] theorem State.setCounter_asnA (s : State) (u d x v : Nat) : (s.setCounter u d x v).asnA = s.asnA := rfl
@[simp] theorem State.setCounter_asnS (s : State) (u d x v : Nat) : (s.setCounter u d x v).asnS = s.asnS := rfl
@[simp] theorem State.setCounter_grpA (s : State) (u d x v : Nat) : (s.setCounter u d x v).grpA = s.grpA := rfl
@[simp] theorem State.setCounter_grpS (s : State) (u d x v : Nat) : (s.setCounter u d x v).grpS = s.grpS := rfl
@[simp] theorem State.setCounter_swap (s : State) (u d x v : Nat) : (s.setCounter u d x v).swap = s.swap := rfl
@[simp] theorem State.setCounter_swapReq (s : State) (u d x v : Nat) : (s.setCounter u d x v).swapReq = s.swapReq := rfl
@[simp] theorem State.setCounter_rgnLive (s : State) (u d x v : Nat) : (s.setCounter u d x v).rgnLive = s.rgnLive := rfl
@[simp] theorem State.setCounter_rgnPend (s : State) (u d x v : Nat) : (s.setCounter u d x v).rgnPend = s.rgnPend := rfl
@[simp] theorem State.setCounter_attrLive (s : State) (u d x v : Nat) : (s.setCounter u d x v).attrLive = s.attrLive := rfl
@[simp] theorem State.setCounter_attrPend (s : State) (u d x v : Nat) : (s.setCounter u d x v).attrPend = s.attrPend := rfl
@[simp] theorem State.setCounter_publishing (s : State) (u d x v : Nat) : (s.setCounter u d x v).publishing = s.publishing := rfl
@[simp] theorem State.setCounter_updSeeds (s : State) (u d x v : Nat) : (s.setCounter u d x v).updSeeds = s.updSeeds := rfl
@[simp] theorem State.setCounter_etas (s : State) (u d x v : Nat) : (s.setCounter u d x v).etas = s.etas := rfl
@[simp] theorem State.setCounter_grpRuns (s : State) (u d x v : Nat) : (s.setCounter u d x v).grpRuns = s.grpRuns := rfl
@[simp] theorem State.setCounter_uncommitted (s : State) (u d x v : Nat) : (s.setCounter u d x v).uncommitted = s.uncommitted := rfl
@[simp] theorem State.setCounter_numTot (s : State) (u d x v : Nat) : (s.setCounter u d x v).numTot = s.numTot := rfl
@[simp] theorem State.setCounter_lgrBuf (s : State) (u d x v : Nat) : (s.setCounter u d x v).lgrBuf = s.lgrBuf := rfl
@[simp] theorem State.setCounter_lgrSerial (s : State) (u d x v : Nat) : (s.setCounter u d x v).lgrSerial = s.lgrSerial := rfl
@[simp] theorem State.setCounter_lgrMark (s : State) (u d x v : Nat) : (s.setCounter u d x v).lgrMark = s.lgrMark := rfl
@[simp] theorem State.setCounter_lgrOwing (s : State) (u d x v : Nat) : (s.setCounter u d x v).lgrOwing = s.lgrOwing := rfl
@[simp] theorem State.setCounter_prioStk (s : State) (u d x v : Nat) : (s.setCounter u d x v).prioStk = s.prioStk := rfl
@[simp] theorem State.setCounter_holdoff (s : State) (u d x v : Nat) : (s.setCounter u d x v).holdoff = s.holdoff := rfl
@[simp] theorem State.setCounter_loadErr (s : State) (u d x v : Nat) : (s.setCounter u d x v).loadErr = s.loadErr := rfl
@[simp] theorem State.setCounter_replaced (s : State) (u d x v : Nat) : (s.setCounter u d x v).replaced = s.replaced := rfl
@[simp] theorem State.setCounter_merges (s : State) (u d x v : Nat) : (s.setCounter u d x v).merges = s.merges := rfl
@[simp] theorem State.setCounter_copies (s : State) (u d x v : Nat) : (s.setCounter u d x v).copies = s.copies := rfl
@[simp] theorem State.setCounter_scrub (s : State) (u d x v : Nat) : (s.setCounter u d x v).scrub = s.scrub := rfl
@[simp] theorem State.setCounter_bdma (s : State) (u d x v : Nat) : (s.setCounter u d x v).bdma = s.bdma := rfl
@[simp] theorem State.setCounter_bdmaReq (s : State) (u d x v : Nat) : (s.setCounter u d x v).bdmaReq = s.bdmaReq := rfl
@[simp] theorem State.setCounter_fabIn (s : State) (u d x v : Nat) : (s.setCounter u d x v).fabIn = s.fabIn := rfl
@[simp] theorem State.setCounter_fabOut (s : State) (u d x v : Nat) : (s.setCounter u d x v).fabOut = s.fabOut := rfl
@[simp] theorem State.setCounter_fabAns (s : State) (u d x v : Nat) : (s.setCounter u d x v).fabAns = s.fabAns := rfl
@[simp] theorem State.setCounter_nextTag (s : State) (u d x v : Nat) : (s.setCounter u d x v).nextTag = s.nextTag := rfl
@[simp] theorem State.setCounter_links (s : State) (u d x v : Nat) : (s.setCounter u d x v).links = s.links := rfl
@[simp] theorem State.setCounter_log (s : State) (u d x v : Nat) : (s.setCounter u d x v).log = s.log := rfl
@[simp] theorem State.setCounter_logNext (s : State) (u d x v : Nat) : (s.setCounter u d x v).logNext = s.logNext := rfl
@[simp] theorem State.setCounter_ports (s : State) (u d x v : Nat) : (s.setCounter u d x v).ports = s.ports := rfl
@[simp] theorem State.setCounter_sensors (s : State) (u d x v : Nat) : (s.setCounter u d x v).sensors = s.sensors := rfl
@[simp] theorem State.setCounter_secAt (s : State) (u d x v : Nat) : (s.setCounter u d x v).secAt = s.secAt := rfl
@[simp] theorem State.setCounter_committedSec (s : State) (u d x v : Nat) : (s.setCounter u d x v).committedSec = s.committedSec := rfl
@[simp] theorem State.setCounter_lateSec (s : State) (u d x v : Nat) : (s.setCounter u d x v).lateSec = s.lateSec := rfl
@[simp] theorem State.setCounter_deadlineFor (s : State) (u d x v : Nat) : (s.setCounter u d x v).deadlineFor = s.deadlineFor := rfl
@[simp] theorem State.setCounter_beatAt (s : State) (u d x v : Nat) : (s.setCounter u d x v).beatAt = s.beatAt := rfl
@[simp] theorem State.setCounter_sampled (s : State) (u d x v : Nat) : (s.setCounter u d x v).sampled = s.sampled := rfl
@[simp] theorem State.setCounter_rot (s : State) (u d x v : Nat) : (s.setCounter u d x v).rot = s.rot := rfl
@[simp] theorem State.setCounter_prodBad (s : State) (u d x v : Nat) : (s.setCounter u d x v).prodBad = s.prodBad := rfl
@[simp] theorem State.setCounter_grade (s : State) (u d x v : Nat) : (s.setCounter u d x v).grade = s.grade := rfl
@[simp] theorem State.setCounter_siteBad (s : State) (u d x v : Nat) : (s.setCounter u d x v).siteBad = s.siteBad := rfl
@[simp] theorem State.setCounter_mid (s : State) (u d x v : Nat) : (s.setCounter u d x v).mid = s.mid := rfl
@[simp] theorem State.setCounter_pcie (s : State) (u d x v : Nat) : (s.setCounter u d x v).pcie = s.pcie := rfl
@[simp] theorem State.setCounter_pins (s : State) (u d x v : Nat) : (s.setCounter u d x v).pins = s.pins := rfl
@[simp] theorem State.setCounter_resetting (s : State) (u d x v : Nat) : (s.setCounter u d x v).resetting = s.resetting := rfl
@[simp] theorem State.setCounter_resetAt (s : State) (u d x v : Nat) : (s.setCounter u d x v).resetAt = s.resetAt := rfl
@[simp] theorem State.setCounter_softOwed (s : State) (u d x v : Nat) : (s.setCounter u d x v).softOwed = s.softOwed := rfl
@[simp] theorem State.setCounter_softStage (s : State) (u d x v : Nat) : (s.setCounter u d x v).softStage = s.softStage := rfl
@[simp] theorem State.setCounter_execOff (s : State) (u d x v : Nat) : (s.setCounter u d x v).execOff = s.execOff := rfl
@[simp] theorem State.setCounter_selfRefresh (s : State) (u d x v : Nat) : (s.setCounter u d x v).selfRefresh = s.selfRefresh := rfl
@[simp] theorem State.setCounter_clkGated (s : State) (u d x v : Nat) : (s.setCounter u d x v).clkGated = s.clkGated := rfl
@[simp] theorem State.setCounter_wattSum (s : State) (u d x v : Nat) : (s.setCounter u d x v).wattSum = s.wattSum := rfl
@[simp] theorem State.setCounter_wattAt (s : State) (u d x v : Nat) : (s.setCounter u d x v).wattAt = s.wattAt := rfl
@[simp] theorem State.setCounter_exc (s : State) (u d x v : Nat) : (s.setCounter u d x v).exc = s.exc := rfl
@[simp] theorem State.setCounter_preqPend (s : State) (u d x v : Nat) : (s.setCounter u d x v).preqPend = s.preqPend := rfl
@[simp] theorem State.setCounter_d3Pend (s : State) (u d x v : Nat) : (s.setCounter u d x v).d3Pend = s.d3Pend := rfl
@[simp] theorem State.setCounter_rehOff (s : State) (u d x v : Nat) : (s.setCounter u d x v).rehOff = s.rehOff := rfl
@[simp] theorem State.setCounter_disag (s : State) (u d x v : Nat) : (s.setCounter u d x v).disag = s.disag := rfl
@[simp] theorem State.setCounter_quarDue (s : State) (u d x v : Nat) : (s.setCounter u d x v).quarDue = s.quarDue := rfl
@[simp] theorem State.setCounter_rplUsed (s : State) (u d x v : Nat) : (s.setCounter u d x v).rplUsed = s.rplUsed := rfl
@[simp] theorem State.setCounter_rdData (s : State) (u d x v : Nat) : (s.setCounter u d x v).rdData = s.rdData := rfl
@[simp] theorem State.setCounter_rdStatus (s : State) (u d x v : Nat) : (s.setCounter u d x v).rdStatus = s.rdStatus := rfl
@[simp] theorem State.setCounter_out (s : State) (u d x v : Nat) : (s.setCounter u d x v).out = s.out := rfl
@[simp] theorem State.setCounter_free (s : State) (u d x v : Nat) : (s.setCounter u d x v).free = s.free := rfl

-- count
@[simp] theorem State.count_pending (s : State) (u d x w n : Nat) : (s.count u d x w n).pending = s.pending := State.setCounter_pending s u d x _
@[simp] theorem State.count_now (s : State) (u d x w n : Nat) : (s.count u d x w n).now = s.now := State.setCounter_now s u d x _
@[simp] theorem State.count_upTime (s : State) (u d x w n : Nat) : (s.count u d x w n).upTime = s.upTime := State.setCounter_upTime s u d x _
@[simp] theorem State.count_frame (s : State) (u d x w n : Nat) : (s.count u d x w n).frame = s.frame := State.setCounter_frame s u d x _
@[simp] theorem State.count_curtainAt (s : State) (u d x w n : Nat) : (s.count u d x w n).curtainAt = s.curtainAt := State.setCounter_curtainAt s u d x _
@[simp] theorem State.count_nominal (s : State) (u d x w n : Nat) : (s.count u d x w n).nominal = s.nominal := State.setCounter_nominal s u d x _
@[simp] theorem State.count_curMode (s : State) (u d x w n : Nat) : (s.count u d x w n).curMode = s.curMode := State.setCounter_curMode s u d x _
@[simp] theorem State.count_edgeAt (s : State) (u d x w n : Nat) : (s.count u d x w n).edgeAt = s.edgeAt := State.setCounter_edgeAt s u d x _
@[simp] theorem State.count_clockFixed (s : State) (u d x w n : Nat) : (s.count u d x w n).clockFixed = s.clockFixed := State.setCounter_clockFixed s u d x _
@[simp] theorem State.count_overpower (s : State) (u d x w n : Nat) : (s.count u d x w n).overpower = s.overpower := State.setCounter_overpower s u d x _
@[simp] theorem State.count_closedFor (s : State) (u d x w n : Nat) : (s.count u d x w n).closedFor = s.closedFor := State.setCounter_closedFor s u d x _
@[simp] theorem State.count_guardOn (s : State) (u d x w n : Nat) : (s.count u d x w n).guardOn = s.guardOn := State.setCounter_guardOn s u d x _
@[simp] theorem State.count_refreshOn (s : State) (u d x w n : Nat) : (s.count u d x w n).refreshOn = s.refreshOn := State.setCounter_refreshOn s u d x _
@[simp] theorem State.count_regs (s : State) (u d x w n : Nat) : (s.count u d x w n).regs = s.regs := State.setCounter_regs s u d x _
@[simp] theorem State.count_hiCap (s : State) (u d x w n : Nat) : (s.count u d x w n).hiCap = s.hiCap := State.setCounter_hiCap s u d x _
@[simp] theorem State.count_loWr (s : State) (u d x w n : Nat) : (s.count u d x w n).loWr = s.loWr := State.setCounter_loWr s u d x _
@[simp] theorem State.count_mem (s : State) (u d x w n : Nat) : (s.count u d x w n).mem = s.mem := State.setCounter_mem s u d x _
@[simp] theorem State.count_poison (s : State) (u d x w n : Nat) : (s.count u d x w n).poison = s.poison := State.setCounter_poison s u d x _
@[simp] theorem State.count_ueRead (s : State) (u d x w n : Nat) : (s.count u d x w n).ueRead = s.ueRead := State.setCounter_ueRead s u d x _
@[simp] theorem State.count_host (s : State) (u d x w n : Nat) : (s.count u d x w n).host = s.host := State.setCounter_host s u d x _
@[simp] theorem State.count_hostPoison (s : State) (u d x w n : Nat) : (s.count u d x w n).hostPoison = s.hostPoison := State.setCounter_hostPoison s u d x _
@[simp] theorem State.count_inflight (s : State) (u d x w n : Nat) : (s.count u d x w n).inflight = s.inflight := State.setCounter_inflight s u d x _
@[simp] theorem State.count_signals (s : State) (u d x w n : Nat) : (s.count u d x w n).signals = s.signals := State.setCounter_signals s u d x _
@[simp] theorem State.count_nextCmd (s : State) (u d x w n : Nat) : (s.count u d x w n).nextCmd = s.nextCmd := State.setCounter_nextCmd s u d x _
@[simp] theorem State.count_landObs (s : State) (u d x w n : Nat) : (s.count u d x w n).landObs = s.landObs := State.setCounter_landObs s u d x _
@[simp] theorem State.count_errCmds (s : State) (u d x w n : Nat) : (s.count u d x w n).errCmds = s.errCmds := State.setCounter_errCmds s u d x _
@[simp] theorem State.count_cores (s : State) (u d x w n : Nat) : (s.count u d x w n).cores = s.cores := State.setCounter_cores s u d x _
@[simp] theorem State.count_cb (s : State) (u d x w n : Nat) : (s.count u d x w n).cb = s.cb := State.setCounter_cb s u d x _
@[simp] theorem State.count_cbForce (s : State) (u d x w n : Nat) : (s.count u d x w n).cbForce = s.cbForce := State.setCounter_cbForce s u d x _
@[simp] theorem State.count_reqs (s : State) (u d x w n : Nat) : (s.count u d x w n).reqs = s.reqs := State.setCounter_reqs s u d x _
@[simp] theorem State.count_steps (s : State) (u d x w n : Nat) : (s.count u d x w n).steps = s.steps := State.setCounter_steps s u d x _
@[simp] theorem State.count_deliveries (s : State) (u d x w n : Nat) : (s.count u d x w n).deliveries = s.deliveries := State.setCounter_deliveries s u d x _
@[simp] theorem State.count_heldActs (s : State) (u d x w n : Nat) : (s.count u d x w n).heldActs = s.heldActs := State.setCounter_heldActs s u d x _
@[simp] theorem State.count_used (s : State) (u d x w n : Nat) : (s.count u d x w n).used = s.used := State.setCounter_used s u d x _
@[simp] theorem State.count_admitted (s : State) (u d x w n : Nat) : (s.count u d x w n).admitted = s.admitted := State.setCounter_admitted s u d x _
@[simp] theorem State.count_fwd (s : State) (u d x w n : Nat) : (s.count u d x w n).fwd = s.fwd := State.setCounter_fwd s u d x _
@[simp] theorem State.count_gapPend (s : State) (u d x w n : Nat) : (s.count u d x w n).gapPend = s.gapPend := State.setCounter_gapPend s u d x _
@[simp] theorem State.count_doomed (s : State) (u d x w n : Nat) : (s.count u d x w n).doomed = s.doomed := State.setCounter_doomed s u d x _
@[simp] theorem State.count_deferSyn (s : State) (u d x w n : Nat) : (s.count u d x w n).deferSyn = s.deferSyn := State.setCounter_deferSyn s u d x _
@[simp] theorem State.count_postponed (s : State) (u d x w n : Nat) : (s.count u d x w n).postponed = s.postponed := State.setCounter_postponed s u d x _
@[simp] theorem State.count_itkStop (s : State) (u d x w n : Nat) : (s.count u d x w n).itkStop = s.itkStop := State.setCounter_itkStop s u d x _
@[simp] theorem State.count_itkTurn (s : State) (u d x w n : Nat) : (s.count u d x w n).itkTurn = s.itkTurn := State.setCounter_itkTurn s u d x _
@[simp] theorem State.count_itkKept (s : State) (u d x w n : Nat) : (s.count u d x w n).itkKept = s.itkKept := State.setCounter_itkKept s u d x _
@[simp] theorem State.count_itkNext (s : State) (u d x w n : Nat) : (s.count u d x w n).itkNext = s.itkNext := State.setCounter_itkNext s u d x _
@[simp] theorem State.count_backlog (s : State) (u d x w n : Nat) : (s.count u d x w n).backlog = s.backlog := State.setCounter_backlog s u d x _
@[simp] theorem State.count_egrDropped (s : State) (u d x w n : Nat) : (s.count u d x w n).egrDropped = s.egrDropped := State.setCounter_egrDropped s u d x _
@[simp] theorem State.count_egrSeq (s : State) (u d x w n : Nat) : (s.count u d x w n).egrSeq = s.egrSeq := State.setCounter_egrSeq s u d x _
@[simp] theorem State.count_egrCount (s : State) (u d x w n : Nat) : (s.count u d x w n).egrCount = s.egrCount := State.setCounter_egrCount s u d x _
@[simp] theorem State.count_egrOwed (s : State) (u d x w n : Nat) : (s.count u d x w n).egrOwed = s.egrOwed := State.setCounter_egrOwed s u d x _
@[simp] theorem State.count_actA (s : State) (u d x w n : Nat) : (s.count u d x w n).actA = s.actA := State.setCounter_actA s u d x _
@[simp] theorem State.count_actS (s : State) (u d x w n : Nat) : (s.count u d x w n).actS = s.actS := State.setCounter_actS s u d x _
@[simp] theorem State.count_asnA (s : State) (u d x w n : Nat) : (s.count u d x w n).asnA = s.asnA := State.setCounter_asnA s u d x _
@[simp] theorem State.count_asnS (s : State) (u d x w n : Nat) : (s.count u d x w n).asnS = s.asnS := State.setCounter_asnS s u d x _
@[simp] theorem State.count_grpA (s : State) (u d x w n : Nat) : (s.count u d x w n).grpA = s.grpA := State.setCounter_grpA s u d x _
@[simp] theorem State.count_grpS (s : State) (u d x w n : Nat) : (s.count u d x w n).grpS = s.grpS := State.setCounter_grpS s u d x _
@[simp] theorem State.count_swap (s : State) (u d x w n : Nat) : (s.count u d x w n).swap = s.swap := State.setCounter_swap s u d x _
@[simp] theorem State.count_swapReq (s : State) (u d x w n : Nat) : (s.count u d x w n).swapReq = s.swapReq := State.setCounter_swapReq s u d x _
@[simp] theorem State.count_rgnLive (s : State) (u d x w n : Nat) : (s.count u d x w n).rgnLive = s.rgnLive := State.setCounter_rgnLive s u d x _
@[simp] theorem State.count_rgnPend (s : State) (u d x w n : Nat) : (s.count u d x w n).rgnPend = s.rgnPend := State.setCounter_rgnPend s u d x _
@[simp] theorem State.count_attrLive (s : State) (u d x w n : Nat) : (s.count u d x w n).attrLive = s.attrLive := State.setCounter_attrLive s u d x _
@[simp] theorem State.count_attrPend (s : State) (u d x w n : Nat) : (s.count u d x w n).attrPend = s.attrPend := State.setCounter_attrPend s u d x _
@[simp] theorem State.count_publishing (s : State) (u d x w n : Nat) : (s.count u d x w n).publishing = s.publishing := State.setCounter_publishing s u d x _
@[simp] theorem State.count_updSeeds (s : State) (u d x w n : Nat) : (s.count u d x w n).updSeeds = s.updSeeds := State.setCounter_updSeeds s u d x _
@[simp] theorem State.count_etas (s : State) (u d x w n : Nat) : (s.count u d x w n).etas = s.etas := State.setCounter_etas s u d x _
@[simp] theorem State.count_grpRuns (s : State) (u d x w n : Nat) : (s.count u d x w n).grpRuns = s.grpRuns := State.setCounter_grpRuns s u d x _
@[simp] theorem State.count_uncommitted (s : State) (u d x w n : Nat) : (s.count u d x w n).uncommitted = s.uncommitted := State.setCounter_uncommitted s u d x _
@[simp] theorem State.count_numTot (s : State) (u d x w n : Nat) : (s.count u d x w n).numTot = s.numTot := State.setCounter_numTot s u d x _
@[simp] theorem State.count_lgrBuf (s : State) (u d x w n : Nat) : (s.count u d x w n).lgrBuf = s.lgrBuf := State.setCounter_lgrBuf s u d x _
@[simp] theorem State.count_lgrSerial (s : State) (u d x w n : Nat) : (s.count u d x w n).lgrSerial = s.lgrSerial := State.setCounter_lgrSerial s u d x _
@[simp] theorem State.count_lgrMark (s : State) (u d x w n : Nat) : (s.count u d x w n).lgrMark = s.lgrMark := State.setCounter_lgrMark s u d x _
@[simp] theorem State.count_lgrOwing (s : State) (u d x w n : Nat) : (s.count u d x w n).lgrOwing = s.lgrOwing := State.setCounter_lgrOwing s u d x _
@[simp] theorem State.count_prioStk (s : State) (u d x w n : Nat) : (s.count u d x w n).prioStk = s.prioStk := State.setCounter_prioStk s u d x _
@[simp] theorem State.count_holdoff (s : State) (u d x w n : Nat) : (s.count u d x w n).holdoff = s.holdoff := State.setCounter_holdoff s u d x _
@[simp] theorem State.count_loadErr (s : State) (u d x w n : Nat) : (s.count u d x w n).loadErr = s.loadErr := State.setCounter_loadErr s u d x _
@[simp] theorem State.count_replaced (s : State) (u d x w n : Nat) : (s.count u d x w n).replaced = s.replaced := State.setCounter_replaced s u d x _
@[simp] theorem State.count_merges (s : State) (u d x w n : Nat) : (s.count u d x w n).merges = s.merges := State.setCounter_merges s u d x _
@[simp] theorem State.count_copies (s : State) (u d x w n : Nat) : (s.count u d x w n).copies = s.copies := State.setCounter_copies s u d x _
@[simp] theorem State.count_scrub (s : State) (u d x w n : Nat) : (s.count u d x w n).scrub = s.scrub := State.setCounter_scrub s u d x _
@[simp] theorem State.count_bdma (s : State) (u d x w n : Nat) : (s.count u d x w n).bdma = s.bdma := State.setCounter_bdma s u d x _
@[simp] theorem State.count_bdmaReq (s : State) (u d x w n : Nat) : (s.count u d x w n).bdmaReq = s.bdmaReq := State.setCounter_bdmaReq s u d x _
@[simp] theorem State.count_fabIn (s : State) (u d x w n : Nat) : (s.count u d x w n).fabIn = s.fabIn := State.setCounter_fabIn s u d x _
@[simp] theorem State.count_fabOut (s : State) (u d x w n : Nat) : (s.count u d x w n).fabOut = s.fabOut := State.setCounter_fabOut s u d x _
@[simp] theorem State.count_fabAns (s : State) (u d x w n : Nat) : (s.count u d x w n).fabAns = s.fabAns := State.setCounter_fabAns s u d x _
@[simp] theorem State.count_nextTag (s : State) (u d x w n : Nat) : (s.count u d x w n).nextTag = s.nextTag := State.setCounter_nextTag s u d x _
@[simp] theorem State.count_links (s : State) (u d x w n : Nat) : (s.count u d x w n).links = s.links := State.setCounter_links s u d x _
@[simp] theorem State.count_log (s : State) (u d x w n : Nat) : (s.count u d x w n).log = s.log := State.setCounter_log s u d x _
@[simp] theorem State.count_logNext (s : State) (u d x w n : Nat) : (s.count u d x w n).logNext = s.logNext := State.setCounter_logNext s u d x _
@[simp] theorem State.count_ports (s : State) (u d x w n : Nat) : (s.count u d x w n).ports = s.ports := State.setCounter_ports s u d x _
@[simp] theorem State.count_sensors (s : State) (u d x w n : Nat) : (s.count u d x w n).sensors = s.sensors := State.setCounter_sensors s u d x _
@[simp] theorem State.count_secAt (s : State) (u d x w n : Nat) : (s.count u d x w n).secAt = s.secAt := State.setCounter_secAt s u d x _
@[simp] theorem State.count_committedSec (s : State) (u d x w n : Nat) : (s.count u d x w n).committedSec = s.committedSec := State.setCounter_committedSec s u d x _
@[simp] theorem State.count_lateSec (s : State) (u d x w n : Nat) : (s.count u d x w n).lateSec = s.lateSec := State.setCounter_lateSec s u d x _
@[simp] theorem State.count_deadlineFor (s : State) (u d x w n : Nat) : (s.count u d x w n).deadlineFor = s.deadlineFor := State.setCounter_deadlineFor s u d x _
@[simp] theorem State.count_beatAt (s : State) (u d x w n : Nat) : (s.count u d x w n).beatAt = s.beatAt := State.setCounter_beatAt s u d x _
@[simp] theorem State.count_sampled (s : State) (u d x w n : Nat) : (s.count u d x w n).sampled = s.sampled := State.setCounter_sampled s u d x _
@[simp] theorem State.count_rot (s : State) (u d x w n : Nat) : (s.count u d x w n).rot = s.rot := State.setCounter_rot s u d x _
@[simp] theorem State.count_prodBad (s : State) (u d x w n : Nat) : (s.count u d x w n).prodBad = s.prodBad := State.setCounter_prodBad s u d x _
@[simp] theorem State.count_grade (s : State) (u d x w n : Nat) : (s.count u d x w n).grade = s.grade := State.setCounter_grade s u d x _
@[simp] theorem State.count_siteBad (s : State) (u d x w n : Nat) : (s.count u d x w n).siteBad = s.siteBad := State.setCounter_siteBad s u d x _
@[simp] theorem State.count_mid (s : State) (u d x w n : Nat) : (s.count u d x w n).mid = s.mid := State.setCounter_mid s u d x _
@[simp] theorem State.count_pcie (s : State) (u d x w n : Nat) : (s.count u d x w n).pcie = s.pcie := State.setCounter_pcie s u d x _
@[simp] theorem State.count_pins (s : State) (u d x w n : Nat) : (s.count u d x w n).pins = s.pins := State.setCounter_pins s u d x _
@[simp] theorem State.count_resetting (s : State) (u d x w n : Nat) : (s.count u d x w n).resetting = s.resetting := State.setCounter_resetting s u d x _
@[simp] theorem State.count_resetAt (s : State) (u d x w n : Nat) : (s.count u d x w n).resetAt = s.resetAt := State.setCounter_resetAt s u d x _
@[simp] theorem State.count_softOwed (s : State) (u d x w n : Nat) : (s.count u d x w n).softOwed = s.softOwed := State.setCounter_softOwed s u d x _
@[simp] theorem State.count_softStage (s : State) (u d x w n : Nat) : (s.count u d x w n).softStage = s.softStage := State.setCounter_softStage s u d x _
@[simp] theorem State.count_execOff (s : State) (u d x w n : Nat) : (s.count u d x w n).execOff = s.execOff := State.setCounter_execOff s u d x _
@[simp] theorem State.count_selfRefresh (s : State) (u d x w n : Nat) : (s.count u d x w n).selfRefresh = s.selfRefresh := State.setCounter_selfRefresh s u d x _
@[simp] theorem State.count_clkGated (s : State) (u d x w n : Nat) : (s.count u d x w n).clkGated = s.clkGated := State.setCounter_clkGated s u d x _
@[simp] theorem State.count_wattSum (s : State) (u d x w n : Nat) : (s.count u d x w n).wattSum = s.wattSum := State.setCounter_wattSum s u d x _
@[simp] theorem State.count_wattAt (s : State) (u d x w n : Nat) : (s.count u d x w n).wattAt = s.wattAt := State.setCounter_wattAt s u d x _
@[simp] theorem State.count_exc (s : State) (u d x w n : Nat) : (s.count u d x w n).exc = s.exc := State.setCounter_exc s u d x _
@[simp] theorem State.count_preqPend (s : State) (u d x w n : Nat) : (s.count u d x w n).preqPend = s.preqPend := State.setCounter_preqPend s u d x _
@[simp] theorem State.count_d3Pend (s : State) (u d x w n : Nat) : (s.count u d x w n).d3Pend = s.d3Pend := State.setCounter_d3Pend s u d x _
@[simp] theorem State.count_rehOff (s : State) (u d x w n : Nat) : (s.count u d x w n).rehOff = s.rehOff := State.setCounter_rehOff s u d x _
@[simp] theorem State.count_disag (s : State) (u d x w n : Nat) : (s.count u d x w n).disag = s.disag := State.setCounter_disag s u d x _
@[simp] theorem State.count_quarDue (s : State) (u d x w n : Nat) : (s.count u d x w n).quarDue = s.quarDue := State.setCounter_quarDue s u d x _
@[simp] theorem State.count_rplUsed (s : State) (u d x w n : Nat) : (s.count u d x w n).rplUsed = s.rplUsed := State.setCounter_rplUsed s u d x _
@[simp] theorem State.count_rdData (s : State) (u d x w n : Nat) : (s.count u d x w n).rdData = s.rdData := State.setCounter_rdData s u d x _
@[simp] theorem State.count_rdStatus (s : State) (u d x w n : Nat) : (s.count u d x w n).rdStatus = s.rdStatus := State.setCounter_rdStatus s u d x _
@[simp] theorem State.count_out (s : State) (u d x w n : Nat) : (s.count u d x w n).out = s.out := State.setCounter_out s u d x _
@[simp] theorem State.count_free (s : State) (u d x w n : Nat) : (s.count u d x w n).free = s.free := State.setCounter_free s u d x _

-- setCore
@[simp] theorem State.setCore_pending (s : State) (k : Nat) (c : Core) : (s.setCore k c).pending = s.pending := rfl
@[simp] theorem State.setCore_now (s : State) (k : Nat) (c : Core) : (s.setCore k c).now = s.now := rfl
@[simp] theorem State.setCore_upTime (s : State) (k : Nat) (c : Core) : (s.setCore k c).upTime = s.upTime := rfl
@[simp] theorem State.setCore_frame (s : State) (k : Nat) (c : Core) : (s.setCore k c).frame = s.frame := rfl
@[simp] theorem State.setCore_curtainAt (s : State) (k : Nat) (c : Core) : (s.setCore k c).curtainAt = s.curtainAt := rfl
@[simp] theorem State.setCore_nominal (s : State) (k : Nat) (c : Core) : (s.setCore k c).nominal = s.nominal := rfl
@[simp] theorem State.setCore_curMode (s : State) (k : Nat) (c : Core) : (s.setCore k c).curMode = s.curMode := rfl
@[simp] theorem State.setCore_edgeAt (s : State) (k : Nat) (c : Core) : (s.setCore k c).edgeAt = s.edgeAt := rfl
@[simp] theorem State.setCore_clockFixed (s : State) (k : Nat) (c : Core) : (s.setCore k c).clockFixed = s.clockFixed := rfl
@[simp] theorem State.setCore_overpower (s : State) (k : Nat) (c : Core) : (s.setCore k c).overpower = s.overpower := rfl
@[simp] theorem State.setCore_closedFor (s : State) (k : Nat) (c : Core) : (s.setCore k c).closedFor = s.closedFor := rfl
@[simp] theorem State.setCore_guardOn (s : State) (k : Nat) (c : Core) : (s.setCore k c).guardOn = s.guardOn := rfl
@[simp] theorem State.setCore_refreshOn (s : State) (k : Nat) (c : Core) : (s.setCore k c).refreshOn = s.refreshOn := rfl
@[simp] theorem State.setCore_regs (s : State) (k : Nat) (c : Core) : (s.setCore k c).regs = s.regs := rfl
@[simp] theorem State.setCore_hiCap (s : State) (k : Nat) (c : Core) : (s.setCore k c).hiCap = s.hiCap := rfl
@[simp] theorem State.setCore_loWr (s : State) (k : Nat) (c : Core) : (s.setCore k c).loWr = s.loWr := rfl
@[simp] theorem State.setCore_cnt (s : State) (k : Nat) (c : Core) : (s.setCore k c).cnt = s.cnt := rfl
@[simp] theorem State.setCore_mem (s : State) (k : Nat) (c : Core) : (s.setCore k c).mem = s.mem := rfl
@[simp] theorem State.setCore_poison (s : State) (k : Nat) (c : Core) : (s.setCore k c).poison = s.poison := rfl
@[simp] theorem State.setCore_ueRead (s : State) (k : Nat) (c : Core) : (s.setCore k c).ueRead = s.ueRead := rfl
@[simp] theorem State.setCore_host (s : State) (k : Nat) (c : Core) : (s.setCore k c).host = s.host := rfl
@[simp] theorem State.setCore_hostPoison (s : State) (k : Nat) (c : Core) : (s.setCore k c).hostPoison = s.hostPoison := rfl
@[simp] theorem State.setCore_inflight (s : State) (k : Nat) (c : Core) : (s.setCore k c).inflight = s.inflight := rfl
@[simp] theorem State.setCore_signals (s : State) (k : Nat) (c : Core) : (s.setCore k c).signals = s.signals := rfl
@[simp] theorem State.setCore_nextCmd (s : State) (k : Nat) (c : Core) : (s.setCore k c).nextCmd = s.nextCmd := rfl
@[simp] theorem State.setCore_landObs (s : State) (k : Nat) (c : Core) : (s.setCore k c).landObs = s.landObs := rfl
@[simp] theorem State.setCore_errCmds (s : State) (k : Nat) (c : Core) : (s.setCore k c).errCmds = s.errCmds := rfl
@[simp] theorem State.setCore_cb (s : State) (k : Nat) (c : Core) : (s.setCore k c).cb = s.cb := rfl
@[simp] theorem State.setCore_cbForce (s : State) (k : Nat) (c : Core) : (s.setCore k c).cbForce = s.cbForce := rfl
@[simp] theorem State.setCore_reqs (s : State) (k : Nat) (c : Core) : (s.setCore k c).reqs = s.reqs := rfl
@[simp] theorem State.setCore_steps (s : State) (k : Nat) (c : Core) : (s.setCore k c).steps = s.steps := rfl
@[simp] theorem State.setCore_deliveries (s : State) (k : Nat) (c : Core) : (s.setCore k c).deliveries = s.deliveries := rfl
@[simp] theorem State.setCore_heldActs (s : State) (k : Nat) (c : Core) : (s.setCore k c).heldActs = s.heldActs := rfl
@[simp] theorem State.setCore_used (s : State) (k : Nat) (c : Core) : (s.setCore k c).used = s.used := rfl
@[simp] theorem State.setCore_admitted (s : State) (k : Nat) (c : Core) : (s.setCore k c).admitted = s.admitted := rfl
@[simp] theorem State.setCore_fwd (s : State) (k : Nat) (c : Core) : (s.setCore k c).fwd = s.fwd := rfl
@[simp] theorem State.setCore_gapPend (s : State) (k : Nat) (c : Core) : (s.setCore k c).gapPend = s.gapPend := rfl
@[simp] theorem State.setCore_doomed (s : State) (k : Nat) (c : Core) : (s.setCore k c).doomed = s.doomed := rfl
@[simp] theorem State.setCore_deferSyn (s : State) (k : Nat) (c : Core) : (s.setCore k c).deferSyn = s.deferSyn := rfl
@[simp] theorem State.setCore_postponed (s : State) (k : Nat) (c : Core) : (s.setCore k c).postponed = s.postponed := rfl
@[simp] theorem State.setCore_itkStop (s : State) (k : Nat) (c : Core) : (s.setCore k c).itkStop = s.itkStop := rfl
@[simp] theorem State.setCore_itkTurn (s : State) (k : Nat) (c : Core) : (s.setCore k c).itkTurn = s.itkTurn := rfl
@[simp] theorem State.setCore_itkKept (s : State) (k : Nat) (c : Core) : (s.setCore k c).itkKept = s.itkKept := rfl
@[simp] theorem State.setCore_itkNext (s : State) (k : Nat) (c : Core) : (s.setCore k c).itkNext = s.itkNext := rfl
@[simp] theorem State.setCore_backlog (s : State) (k : Nat) (c : Core) : (s.setCore k c).backlog = s.backlog := rfl
@[simp] theorem State.setCore_egrDropped (s : State) (k : Nat) (c : Core) : (s.setCore k c).egrDropped = s.egrDropped := rfl
@[simp] theorem State.setCore_egrSeq (s : State) (k : Nat) (c : Core) : (s.setCore k c).egrSeq = s.egrSeq := rfl
@[simp] theorem State.setCore_egrCount (s : State) (k : Nat) (c : Core) : (s.setCore k c).egrCount = s.egrCount := rfl
@[simp] theorem State.setCore_egrOwed (s : State) (k : Nat) (c : Core) : (s.setCore k c).egrOwed = s.egrOwed := rfl
@[simp] theorem State.setCore_actA (s : State) (k : Nat) (c : Core) : (s.setCore k c).actA = s.actA := rfl
@[simp] theorem State.setCore_actS (s : State) (k : Nat) (c : Core) : (s.setCore k c).actS = s.actS := rfl
@[simp] theorem State.setCore_asnA (s : State) (k : Nat) (c : Core) : (s.setCore k c).asnA = s.asnA := rfl
@[simp] theorem State.setCore_asnS (s : State) (k : Nat) (c : Core) : (s.setCore k c).asnS = s.asnS := rfl
@[simp] theorem State.setCore_grpA (s : State) (k : Nat) (c : Core) : (s.setCore k c).grpA = s.grpA := rfl
@[simp] theorem State.setCore_grpS (s : State) (k : Nat) (c : Core) : (s.setCore k c).grpS = s.grpS := rfl
@[simp] theorem State.setCore_swap (s : State) (k : Nat) (c : Core) : (s.setCore k c).swap = s.swap := rfl
@[simp] theorem State.setCore_swapReq (s : State) (k : Nat) (c : Core) : (s.setCore k c).swapReq = s.swapReq := rfl
@[simp] theorem State.setCore_rgnLive (s : State) (k : Nat) (c : Core) : (s.setCore k c).rgnLive = s.rgnLive := rfl
@[simp] theorem State.setCore_rgnPend (s : State) (k : Nat) (c : Core) : (s.setCore k c).rgnPend = s.rgnPend := rfl
@[simp] theorem State.setCore_attrLive (s : State) (k : Nat) (c : Core) : (s.setCore k c).attrLive = s.attrLive := rfl
@[simp] theorem State.setCore_attrPend (s : State) (k : Nat) (c : Core) : (s.setCore k c).attrPend = s.attrPend := rfl
@[simp] theorem State.setCore_publishing (s : State) (k : Nat) (c : Core) : (s.setCore k c).publishing = s.publishing := rfl
@[simp] theorem State.setCore_updSeeds (s : State) (k : Nat) (c : Core) : (s.setCore k c).updSeeds = s.updSeeds := rfl
@[simp] theorem State.setCore_etas (s : State) (k : Nat) (c : Core) : (s.setCore k c).etas = s.etas := rfl
@[simp] theorem State.setCore_grpRuns (s : State) (k : Nat) (c : Core) : (s.setCore k c).grpRuns = s.grpRuns := rfl
@[simp] theorem State.setCore_uncommitted (s : State) (k : Nat) (c : Core) : (s.setCore k c).uncommitted = s.uncommitted := rfl
@[simp] theorem State.setCore_numTot (s : State) (k : Nat) (c : Core) : (s.setCore k c).numTot = s.numTot := rfl
@[simp] theorem State.setCore_lgrBuf (s : State) (k : Nat) (c : Core) : (s.setCore k c).lgrBuf = s.lgrBuf := rfl
@[simp] theorem State.setCore_lgrSerial (s : State) (k : Nat) (c : Core) : (s.setCore k c).lgrSerial = s.lgrSerial := rfl
@[simp] theorem State.setCore_lgrMark (s : State) (k : Nat) (c : Core) : (s.setCore k c).lgrMark = s.lgrMark := rfl
@[simp] theorem State.setCore_lgrOwing (s : State) (k : Nat) (c : Core) : (s.setCore k c).lgrOwing = s.lgrOwing := rfl
@[simp] theorem State.setCore_prioStk (s : State) (k : Nat) (c : Core) : (s.setCore k c).prioStk = s.prioStk := rfl
@[simp] theorem State.setCore_holdoff (s : State) (k : Nat) (c : Core) : (s.setCore k c).holdoff = s.holdoff := rfl
@[simp] theorem State.setCore_loadErr (s : State) (k : Nat) (c : Core) : (s.setCore k c).loadErr = s.loadErr := rfl
@[simp] theorem State.setCore_replaced (s : State) (k : Nat) (c : Core) : (s.setCore k c).replaced = s.replaced := rfl
@[simp] theorem State.setCore_merges (s : State) (k : Nat) (c : Core) : (s.setCore k c).merges = s.merges := rfl
@[simp] theorem State.setCore_copies (s : State) (k : Nat) (c : Core) : (s.setCore k c).copies = s.copies := rfl
@[simp] theorem State.setCore_scrub (s : State) (k : Nat) (c : Core) : (s.setCore k c).scrub = s.scrub := rfl
@[simp] theorem State.setCore_bdma (s : State) (k : Nat) (c : Core) : (s.setCore k c).bdma = s.bdma := rfl
@[simp] theorem State.setCore_bdmaReq (s : State) (k : Nat) (c : Core) : (s.setCore k c).bdmaReq = s.bdmaReq := rfl
@[simp] theorem State.setCore_fabIn (s : State) (k : Nat) (c : Core) : (s.setCore k c).fabIn = s.fabIn := rfl
@[simp] theorem State.setCore_fabOut (s : State) (k : Nat) (c : Core) : (s.setCore k c).fabOut = s.fabOut := rfl
@[simp] theorem State.setCore_fabAns (s : State) (k : Nat) (c : Core) : (s.setCore k c).fabAns = s.fabAns := rfl
@[simp] theorem State.setCore_nextTag (s : State) (k : Nat) (c : Core) : (s.setCore k c).nextTag = s.nextTag := rfl
@[simp] theorem State.setCore_links (s : State) (k : Nat) (c : Core) : (s.setCore k c).links = s.links := rfl
@[simp] theorem State.setCore_log (s : State) (k : Nat) (c : Core) : (s.setCore k c).log = s.log := rfl
@[simp] theorem State.setCore_logNext (s : State) (k : Nat) (c : Core) : (s.setCore k c).logNext = s.logNext := rfl
@[simp] theorem State.setCore_ports (s : State) (k : Nat) (c : Core) : (s.setCore k c).ports = s.ports := rfl
@[simp] theorem State.setCore_sensors (s : State) (k : Nat) (c : Core) : (s.setCore k c).sensors = s.sensors := rfl
@[simp] theorem State.setCore_secAt (s : State) (k : Nat) (c : Core) : (s.setCore k c).secAt = s.secAt := rfl
@[simp] theorem State.setCore_committedSec (s : State) (k : Nat) (c : Core) : (s.setCore k c).committedSec = s.committedSec := rfl
@[simp] theorem State.setCore_lateSec (s : State) (k : Nat) (c : Core) : (s.setCore k c).lateSec = s.lateSec := rfl
@[simp] theorem State.setCore_deadlineFor (s : State) (k : Nat) (c : Core) : (s.setCore k c).deadlineFor = s.deadlineFor := rfl
@[simp] theorem State.setCore_beatAt (s : State) (k : Nat) (c : Core) : (s.setCore k c).beatAt = s.beatAt := rfl
@[simp] theorem State.setCore_sampled (s : State) (k : Nat) (c : Core) : (s.setCore k c).sampled = s.sampled := rfl
@[simp] theorem State.setCore_rot (s : State) (k : Nat) (c : Core) : (s.setCore k c).rot = s.rot := rfl
@[simp] theorem State.setCore_prodBad (s : State) (k : Nat) (c : Core) : (s.setCore k c).prodBad = s.prodBad := rfl
@[simp] theorem State.setCore_grade (s : State) (k : Nat) (c : Core) : (s.setCore k c).grade = s.grade := rfl
@[simp] theorem State.setCore_siteBad (s : State) (k : Nat) (c : Core) : (s.setCore k c).siteBad = s.siteBad := rfl
@[simp] theorem State.setCore_mid (s : State) (k : Nat) (c : Core) : (s.setCore k c).mid = s.mid := rfl
@[simp] theorem State.setCore_pcie (s : State) (k : Nat) (c : Core) : (s.setCore k c).pcie = s.pcie := rfl
@[simp] theorem State.setCore_pins (s : State) (k : Nat) (c : Core) : (s.setCore k c).pins = s.pins := rfl
@[simp] theorem State.setCore_resetting (s : State) (k : Nat) (c : Core) : (s.setCore k c).resetting = s.resetting := rfl
@[simp] theorem State.setCore_resetAt (s : State) (k : Nat) (c : Core) : (s.setCore k c).resetAt = s.resetAt := rfl
@[simp] theorem State.setCore_softOwed (s : State) (k : Nat) (c : Core) : (s.setCore k c).softOwed = s.softOwed := rfl
@[simp] theorem State.setCore_softStage (s : State) (k : Nat) (c : Core) : (s.setCore k c).softStage = s.softStage := rfl
@[simp] theorem State.setCore_execOff (s : State) (k : Nat) (c : Core) : (s.setCore k c).execOff = s.execOff := rfl
@[simp] theorem State.setCore_selfRefresh (s : State) (k : Nat) (c : Core) : (s.setCore k c).selfRefresh = s.selfRefresh := rfl
@[simp] theorem State.setCore_clkGated (s : State) (k : Nat) (c : Core) : (s.setCore k c).clkGated = s.clkGated := rfl
@[simp] theorem State.setCore_wattSum (s : State) (k : Nat) (c : Core) : (s.setCore k c).wattSum = s.wattSum := rfl
@[simp] theorem State.setCore_wattAt (s : State) (k : Nat) (c : Core) : (s.setCore k c).wattAt = s.wattAt := rfl
@[simp] theorem State.setCore_exc (s : State) (k : Nat) (c : Core) : (s.setCore k c).exc = s.exc := rfl
@[simp] theorem State.setCore_preqPend (s : State) (k : Nat) (c : Core) : (s.setCore k c).preqPend = s.preqPend := rfl
@[simp] theorem State.setCore_d3Pend (s : State) (k : Nat) (c : Core) : (s.setCore k c).d3Pend = s.d3Pend := rfl
@[simp] theorem State.setCore_rehOff (s : State) (k : Nat) (c : Core) : (s.setCore k c).rehOff = s.rehOff := rfl
@[simp] theorem State.setCore_disag (s : State) (k : Nat) (c : Core) : (s.setCore k c).disag = s.disag := rfl
@[simp] theorem State.setCore_quarDue (s : State) (k : Nat) (c : Core) : (s.setCore k c).quarDue = s.quarDue := rfl
@[simp] theorem State.setCore_rplUsed (s : State) (k : Nat) (c : Core) : (s.setCore k c).rplUsed = s.rplUsed := rfl
@[simp] theorem State.setCore_rdData (s : State) (k : Nat) (c : Core) : (s.setCore k c).rdData = s.rdData := rfl
@[simp] theorem State.setCore_rdStatus (s : State) (k : Nat) (c : Core) : (s.setCore k c).rdStatus = s.rdStatus := rfl
@[simp] theorem State.setCore_out (s : State) (k : Nat) (c : Core) : (s.setCore k c).out = s.out := rfl
@[simp] theorem State.setCore_free (s : State) (k : Nat) (c : Core) : (s.setCore k c).free = s.free := rfl

-- modCore
@[simp] theorem State.modCore_pending (s : State) (k : Nat) (f : Core → Core) : (s.modCore k f).pending = s.pending := State.setCore_pending s k _
@[simp] theorem State.modCore_now (s : State) (k : Nat) (f : Core → Core) : (s.modCore k f).now = s.now := State.setCore_now s k _
@[simp] theorem State.modCore_upTime (s : State) (k : Nat) (f : Core → Core) : (s.modCore k f).upTime = s.upTime := State.setCore_upTime s k _
@[simp] theorem State.modCore_frame (s : State) (k : Nat) (f : Core → Core) : (s.modCore k f).frame = s.frame := State.setCore_frame s k _
@[simp] theorem State.modCore_curtainAt (s : State) (k : Nat) (f : Core → Core) : (s.modCore k f).curtainAt = s.curtainAt := State.setCore_curtainAt s k _
@[simp] theorem State.modCore_nominal (s : State) (k : Nat) (f : Core → Core) : (s.modCore k f).nominal = s.nominal := State.setCore_nominal s k _
@[simp] theorem State.modCore_curMode (s : State) (k : Nat) (f : Core → Core) : (s.modCore k f).curMode = s.curMode := State.setCore_curMode s k _
@[simp] theorem State.modCore_edgeAt (s : State) (k : Nat) (f : Core → Core) : (s.modCore k f).edgeAt = s.edgeAt := State.setCore_edgeAt s k _
@[simp] theorem State.modCore_clockFixed (s : State) (k : Nat) (f : Core → Core) : (s.modCore k f).clockFixed = s.clockFixed := State.setCore_clockFixed s k _
@[simp] theorem State.modCore_overpower (s : State) (k : Nat) (f : Core → Core) : (s.modCore k f).overpower = s.overpower := State.setCore_overpower s k _
@[simp] theorem State.modCore_closedFor (s : State) (k : Nat) (f : Core → Core) : (s.modCore k f).closedFor = s.closedFor := State.setCore_closedFor s k _
@[simp] theorem State.modCore_guardOn (s : State) (k : Nat) (f : Core → Core) : (s.modCore k f).guardOn = s.guardOn := State.setCore_guardOn s k _
@[simp] theorem State.modCore_refreshOn (s : State) (k : Nat) (f : Core → Core) : (s.modCore k f).refreshOn = s.refreshOn := State.setCore_refreshOn s k _
@[simp] theorem State.modCore_regs (s : State) (k : Nat) (f : Core → Core) : (s.modCore k f).regs = s.regs := State.setCore_regs s k _
@[simp] theorem State.modCore_hiCap (s : State) (k : Nat) (f : Core → Core) : (s.modCore k f).hiCap = s.hiCap := State.setCore_hiCap s k _
@[simp] theorem State.modCore_loWr (s : State) (k : Nat) (f : Core → Core) : (s.modCore k f).loWr = s.loWr := State.setCore_loWr s k _
@[simp] theorem State.modCore_cnt (s : State) (k : Nat) (f : Core → Core) : (s.modCore k f).cnt = s.cnt := State.setCore_cnt s k _
@[simp] theorem State.modCore_mem (s : State) (k : Nat) (f : Core → Core) : (s.modCore k f).mem = s.mem := State.setCore_mem s k _
@[simp] theorem State.modCore_poison (s : State) (k : Nat) (f : Core → Core) : (s.modCore k f).poison = s.poison := State.setCore_poison s k _
@[simp] theorem State.modCore_ueRead (s : State) (k : Nat) (f : Core → Core) : (s.modCore k f).ueRead = s.ueRead := State.setCore_ueRead s k _
@[simp] theorem State.modCore_host (s : State) (k : Nat) (f : Core → Core) : (s.modCore k f).host = s.host := State.setCore_host s k _
@[simp] theorem State.modCore_hostPoison (s : State) (k : Nat) (f : Core → Core) : (s.modCore k f).hostPoison = s.hostPoison := State.setCore_hostPoison s k _
@[simp] theorem State.modCore_inflight (s : State) (k : Nat) (f : Core → Core) : (s.modCore k f).inflight = s.inflight := State.setCore_inflight s k _
@[simp] theorem State.modCore_signals (s : State) (k : Nat) (f : Core → Core) : (s.modCore k f).signals = s.signals := State.setCore_signals s k _
@[simp] theorem State.modCore_nextCmd (s : State) (k : Nat) (f : Core → Core) : (s.modCore k f).nextCmd = s.nextCmd := State.setCore_nextCmd s k _
@[simp] theorem State.modCore_landObs (s : State) (k : Nat) (f : Core → Core) : (s.modCore k f).landObs = s.landObs := State.setCore_landObs s k _
@[simp] theorem State.modCore_errCmds (s : State) (k : Nat) (f : Core → Core) : (s.modCore k f).errCmds = s.errCmds := State.setCore_errCmds s k _
@[simp] theorem State.modCore_cb (s : State) (k : Nat) (f : Core → Core) : (s.modCore k f).cb = s.cb := State.setCore_cb s k _
@[simp] theorem State.modCore_cbForce (s : State) (k : Nat) (f : Core → Core) : (s.modCore k f).cbForce = s.cbForce := State.setCore_cbForce s k _
@[simp] theorem State.modCore_reqs (s : State) (k : Nat) (f : Core → Core) : (s.modCore k f).reqs = s.reqs := State.setCore_reqs s k _
@[simp] theorem State.modCore_steps (s : State) (k : Nat) (f : Core → Core) : (s.modCore k f).steps = s.steps := State.setCore_steps s k _
@[simp] theorem State.modCore_deliveries (s : State) (k : Nat) (f : Core → Core) : (s.modCore k f).deliveries = s.deliveries := State.setCore_deliveries s k _
@[simp] theorem State.modCore_heldActs (s : State) (k : Nat) (f : Core → Core) : (s.modCore k f).heldActs = s.heldActs := State.setCore_heldActs s k _
@[simp] theorem State.modCore_used (s : State) (k : Nat) (f : Core → Core) : (s.modCore k f).used = s.used := State.setCore_used s k _
@[simp] theorem State.modCore_admitted (s : State) (k : Nat) (f : Core → Core) : (s.modCore k f).admitted = s.admitted := State.setCore_admitted s k _
@[simp] theorem State.modCore_fwd (s : State) (k : Nat) (f : Core → Core) : (s.modCore k f).fwd = s.fwd := State.setCore_fwd s k _
@[simp] theorem State.modCore_gapPend (s : State) (k : Nat) (f : Core → Core) : (s.modCore k f).gapPend = s.gapPend := State.setCore_gapPend s k _
@[simp] theorem State.modCore_doomed (s : State) (k : Nat) (f : Core → Core) : (s.modCore k f).doomed = s.doomed := State.setCore_doomed s k _
@[simp] theorem State.modCore_deferSyn (s : State) (k : Nat) (f : Core → Core) : (s.modCore k f).deferSyn = s.deferSyn := State.setCore_deferSyn s k _
@[simp] theorem State.modCore_postponed (s : State) (k : Nat) (f : Core → Core) : (s.modCore k f).postponed = s.postponed := State.setCore_postponed s k _
@[simp] theorem State.modCore_itkStop (s : State) (k : Nat) (f : Core → Core) : (s.modCore k f).itkStop = s.itkStop := State.setCore_itkStop s k _
@[simp] theorem State.modCore_itkTurn (s : State) (k : Nat) (f : Core → Core) : (s.modCore k f).itkTurn = s.itkTurn := State.setCore_itkTurn s k _
@[simp] theorem State.modCore_itkKept (s : State) (k : Nat) (f : Core → Core) : (s.modCore k f).itkKept = s.itkKept := State.setCore_itkKept s k _
@[simp] theorem State.modCore_itkNext (s : State) (k : Nat) (f : Core → Core) : (s.modCore k f).itkNext = s.itkNext := State.setCore_itkNext s k _
@[simp] theorem State.modCore_backlog (s : State) (k : Nat) (f : Core → Core) : (s.modCore k f).backlog = s.backlog := State.setCore_backlog s k _
@[simp] theorem State.modCore_egrDropped (s : State) (k : Nat) (f : Core → Core) : (s.modCore k f).egrDropped = s.egrDropped := State.setCore_egrDropped s k _
@[simp] theorem State.modCore_egrSeq (s : State) (k : Nat) (f : Core → Core) : (s.modCore k f).egrSeq = s.egrSeq := State.setCore_egrSeq s k _
@[simp] theorem State.modCore_egrCount (s : State) (k : Nat) (f : Core → Core) : (s.modCore k f).egrCount = s.egrCount := State.setCore_egrCount s k _
@[simp] theorem State.modCore_egrOwed (s : State) (k : Nat) (f : Core → Core) : (s.modCore k f).egrOwed = s.egrOwed := State.setCore_egrOwed s k _
@[simp] theorem State.modCore_actA (s : State) (k : Nat) (f : Core → Core) : (s.modCore k f).actA = s.actA := State.setCore_actA s k _
@[simp] theorem State.modCore_actS (s : State) (k : Nat) (f : Core → Core) : (s.modCore k f).actS = s.actS := State.setCore_actS s k _
@[simp] theorem State.modCore_asnA (s : State) (k : Nat) (f : Core → Core) : (s.modCore k f).asnA = s.asnA := State.setCore_asnA s k _
@[simp] theorem State.modCore_asnS (s : State) (k : Nat) (f : Core → Core) : (s.modCore k f).asnS = s.asnS := State.setCore_asnS s k _
@[simp] theorem State.modCore_grpA (s : State) (k : Nat) (f : Core → Core) : (s.modCore k f).grpA = s.grpA := State.setCore_grpA s k _
@[simp] theorem State.modCore_grpS (s : State) (k : Nat) (f : Core → Core) : (s.modCore k f).grpS = s.grpS := State.setCore_grpS s k _
@[simp] theorem State.modCore_swap (s : State) (k : Nat) (f : Core → Core) : (s.modCore k f).swap = s.swap := State.setCore_swap s k _
@[simp] theorem State.modCore_swapReq (s : State) (k : Nat) (f : Core → Core) : (s.modCore k f).swapReq = s.swapReq := State.setCore_swapReq s k _
@[simp] theorem State.modCore_rgnLive (s : State) (k : Nat) (f : Core → Core) : (s.modCore k f).rgnLive = s.rgnLive := State.setCore_rgnLive s k _
@[simp] theorem State.modCore_rgnPend (s : State) (k : Nat) (f : Core → Core) : (s.modCore k f).rgnPend = s.rgnPend := State.setCore_rgnPend s k _
@[simp] theorem State.modCore_attrLive (s : State) (k : Nat) (f : Core → Core) : (s.modCore k f).attrLive = s.attrLive := State.setCore_attrLive s k _
@[simp] theorem State.modCore_attrPend (s : State) (k : Nat) (f : Core → Core) : (s.modCore k f).attrPend = s.attrPend := State.setCore_attrPend s k _
@[simp] theorem State.modCore_publishing (s : State) (k : Nat) (f : Core → Core) : (s.modCore k f).publishing = s.publishing := State.setCore_publishing s k _
@[simp] theorem State.modCore_updSeeds (s : State) (k : Nat) (f : Core → Core) : (s.modCore k f).updSeeds = s.updSeeds := State.setCore_updSeeds s k _
@[simp] theorem State.modCore_etas (s : State) (k : Nat) (f : Core → Core) : (s.modCore k f).etas = s.etas := State.setCore_etas s k _
@[simp] theorem State.modCore_grpRuns (s : State) (k : Nat) (f : Core → Core) : (s.modCore k f).grpRuns = s.grpRuns := State.setCore_grpRuns s k _
@[simp] theorem State.modCore_uncommitted (s : State) (k : Nat) (f : Core → Core) : (s.modCore k f).uncommitted = s.uncommitted := State.setCore_uncommitted s k _
@[simp] theorem State.modCore_numTot (s : State) (k : Nat) (f : Core → Core) : (s.modCore k f).numTot = s.numTot := State.setCore_numTot s k _
@[simp] theorem State.modCore_lgrBuf (s : State) (k : Nat) (f : Core → Core) : (s.modCore k f).lgrBuf = s.lgrBuf := State.setCore_lgrBuf s k _
@[simp] theorem State.modCore_lgrSerial (s : State) (k : Nat) (f : Core → Core) : (s.modCore k f).lgrSerial = s.lgrSerial := State.setCore_lgrSerial s k _
@[simp] theorem State.modCore_lgrMark (s : State) (k : Nat) (f : Core → Core) : (s.modCore k f).lgrMark = s.lgrMark := State.setCore_lgrMark s k _
@[simp] theorem State.modCore_lgrOwing (s : State) (k : Nat) (f : Core → Core) : (s.modCore k f).lgrOwing = s.lgrOwing := State.setCore_lgrOwing s k _
@[simp] theorem State.modCore_prioStk (s : State) (k : Nat) (f : Core → Core) : (s.modCore k f).prioStk = s.prioStk := State.setCore_prioStk s k _
@[simp] theorem State.modCore_holdoff (s : State) (k : Nat) (f : Core → Core) : (s.modCore k f).holdoff = s.holdoff := State.setCore_holdoff s k _
@[simp] theorem State.modCore_loadErr (s : State) (k : Nat) (f : Core → Core) : (s.modCore k f).loadErr = s.loadErr := State.setCore_loadErr s k _
@[simp] theorem State.modCore_replaced (s : State) (k : Nat) (f : Core → Core) : (s.modCore k f).replaced = s.replaced := State.setCore_replaced s k _
@[simp] theorem State.modCore_merges (s : State) (k : Nat) (f : Core → Core) : (s.modCore k f).merges = s.merges := State.setCore_merges s k _
@[simp] theorem State.modCore_copies (s : State) (k : Nat) (f : Core → Core) : (s.modCore k f).copies = s.copies := State.setCore_copies s k _
@[simp] theorem State.modCore_scrub (s : State) (k : Nat) (f : Core → Core) : (s.modCore k f).scrub = s.scrub := State.setCore_scrub s k _
@[simp] theorem State.modCore_bdma (s : State) (k : Nat) (f : Core → Core) : (s.modCore k f).bdma = s.bdma := State.setCore_bdma s k _
@[simp] theorem State.modCore_bdmaReq (s : State) (k : Nat) (f : Core → Core) : (s.modCore k f).bdmaReq = s.bdmaReq := State.setCore_bdmaReq s k _
@[simp] theorem State.modCore_fabIn (s : State) (k : Nat) (f : Core → Core) : (s.modCore k f).fabIn = s.fabIn := State.setCore_fabIn s k _
@[simp] theorem State.modCore_fabOut (s : State) (k : Nat) (f : Core → Core) : (s.modCore k f).fabOut = s.fabOut := State.setCore_fabOut s k _
@[simp] theorem State.modCore_fabAns (s : State) (k : Nat) (f : Core → Core) : (s.modCore k f).fabAns = s.fabAns := State.setCore_fabAns s k _
@[simp] theorem State.modCore_nextTag (s : State) (k : Nat) (f : Core → Core) : (s.modCore k f).nextTag = s.nextTag := State.setCore_nextTag s k _
@[simp] theorem State.modCore_links (s : State) (k : Nat) (f : Core → Core) : (s.modCore k f).links = s.links := State.setCore_links s k _
@[simp] theorem State.modCore_log (s : State) (k : Nat) (f : Core → Core) : (s.modCore k f).log = s.log := State.setCore_log s k _
@[simp] theorem State.modCore_logNext (s : State) (k : Nat) (f : Core → Core) : (s.modCore k f).logNext = s.logNext := State.setCore_logNext s k _
@[simp] theorem State.modCore_ports (s : State) (k : Nat) (f : Core → Core) : (s.modCore k f).ports = s.ports := State.setCore_ports s k _
@[simp] theorem State.modCore_sensors (s : State) (k : Nat) (f : Core → Core) : (s.modCore k f).sensors = s.sensors := State.setCore_sensors s k _
@[simp] theorem State.modCore_secAt (s : State) (k : Nat) (f : Core → Core) : (s.modCore k f).secAt = s.secAt := State.setCore_secAt s k _
@[simp] theorem State.modCore_committedSec (s : State) (k : Nat) (f : Core → Core) : (s.modCore k f).committedSec = s.committedSec := State.setCore_committedSec s k _
@[simp] theorem State.modCore_lateSec (s : State) (k : Nat) (f : Core → Core) : (s.modCore k f).lateSec = s.lateSec := State.setCore_lateSec s k _
@[simp] theorem State.modCore_deadlineFor (s : State) (k : Nat) (f : Core → Core) : (s.modCore k f).deadlineFor = s.deadlineFor := State.setCore_deadlineFor s k _
@[simp] theorem State.modCore_beatAt (s : State) (k : Nat) (f : Core → Core) : (s.modCore k f).beatAt = s.beatAt := State.setCore_beatAt s k _
@[simp] theorem State.modCore_sampled (s : State) (k : Nat) (f : Core → Core) : (s.modCore k f).sampled = s.sampled := State.setCore_sampled s k _
@[simp] theorem State.modCore_rot (s : State) (k : Nat) (f : Core → Core) : (s.modCore k f).rot = s.rot := State.setCore_rot s k _
@[simp] theorem State.modCore_prodBad (s : State) (k : Nat) (f : Core → Core) : (s.modCore k f).prodBad = s.prodBad := State.setCore_prodBad s k _
@[simp] theorem State.modCore_grade (s : State) (k : Nat) (f : Core → Core) : (s.modCore k f).grade = s.grade := State.setCore_grade s k _
@[simp] theorem State.modCore_siteBad (s : State) (k : Nat) (f : Core → Core) : (s.modCore k f).siteBad = s.siteBad := State.setCore_siteBad s k _
@[simp] theorem State.modCore_mid (s : State) (k : Nat) (f : Core → Core) : (s.modCore k f).mid = s.mid := State.setCore_mid s k _
@[simp] theorem State.modCore_pcie (s : State) (k : Nat) (f : Core → Core) : (s.modCore k f).pcie = s.pcie := State.setCore_pcie s k _
@[simp] theorem State.modCore_pins (s : State) (k : Nat) (f : Core → Core) : (s.modCore k f).pins = s.pins := State.setCore_pins s k _
@[simp] theorem State.modCore_resetting (s : State) (k : Nat) (f : Core → Core) : (s.modCore k f).resetting = s.resetting := State.setCore_resetting s k _
@[simp] theorem State.modCore_resetAt (s : State) (k : Nat) (f : Core → Core) : (s.modCore k f).resetAt = s.resetAt := State.setCore_resetAt s k _
@[simp] theorem State.modCore_softOwed (s : State) (k : Nat) (f : Core → Core) : (s.modCore k f).softOwed = s.softOwed := State.setCore_softOwed s k _
@[simp] theorem State.modCore_softStage (s : State) (k : Nat) (f : Core → Core) : (s.modCore k f).softStage = s.softStage := State.setCore_softStage s k _
@[simp] theorem State.modCore_execOff (s : State) (k : Nat) (f : Core → Core) : (s.modCore k f).execOff = s.execOff := State.setCore_execOff s k _
@[simp] theorem State.modCore_selfRefresh (s : State) (k : Nat) (f : Core → Core) : (s.modCore k f).selfRefresh = s.selfRefresh := State.setCore_selfRefresh s k _
@[simp] theorem State.modCore_clkGated (s : State) (k : Nat) (f : Core → Core) : (s.modCore k f).clkGated = s.clkGated := State.setCore_clkGated s k _
@[simp] theorem State.modCore_wattSum (s : State) (k : Nat) (f : Core → Core) : (s.modCore k f).wattSum = s.wattSum := State.setCore_wattSum s k _
@[simp] theorem State.modCore_wattAt (s : State) (k : Nat) (f : Core → Core) : (s.modCore k f).wattAt = s.wattAt := State.setCore_wattAt s k _
@[simp] theorem State.modCore_exc (s : State) (k : Nat) (f : Core → Core) : (s.modCore k f).exc = s.exc := State.setCore_exc s k _
@[simp] theorem State.modCore_preqPend (s : State) (k : Nat) (f : Core → Core) : (s.modCore k f).preqPend = s.preqPend := State.setCore_preqPend s k _
@[simp] theorem State.modCore_d3Pend (s : State) (k : Nat) (f : Core → Core) : (s.modCore k f).d3Pend = s.d3Pend := State.setCore_d3Pend s k _
@[simp] theorem State.modCore_rehOff (s : State) (k : Nat) (f : Core → Core) : (s.modCore k f).rehOff = s.rehOff := State.setCore_rehOff s k _
@[simp] theorem State.modCore_disag (s : State) (k : Nat) (f : Core → Core) : (s.modCore k f).disag = s.disag := State.setCore_disag s k _
@[simp] theorem State.modCore_quarDue (s : State) (k : Nat) (f : Core → Core) : (s.modCore k f).quarDue = s.quarDue := State.setCore_quarDue s k _
@[simp] theorem State.modCore_rplUsed (s : State) (k : Nat) (f : Core → Core) : (s.modCore k f).rplUsed = s.rplUsed := State.setCore_rplUsed s k _
@[simp] theorem State.modCore_rdData (s : State) (k : Nat) (f : Core → Core) : (s.modCore k f).rdData = s.rdData := State.setCore_rdData s k _
@[simp] theorem State.modCore_rdStatus (s : State) (k : Nat) (f : Core → Core) : (s.modCore k f).rdStatus = s.rdStatus := State.setCore_rdStatus s k _
@[simp] theorem State.modCore_out (s : State) (k : Nat) (f : Core → Core) : (s.modCore k f).out = s.out := State.setCore_out s k _
@[simp] theorem State.modCore_free (s : State) (k : Nat) (f : Core → Core) : (s.modCore k f).free = s.free := State.setCore_free s k _

-- modThr
@[simp] theorem State.modThr_pending (s : State) (k : Nat) (h : Fin 4) (f : Thread → Thread) : (s.modThr k h f).pending = s.pending := State.modCore_pending s k _
@[simp] theorem State.modThr_now (s : State) (k : Nat) (h : Fin 4) (f : Thread → Thread) : (s.modThr k h f).now = s.now := State.modCore_now s k _
@[simp] theorem State.modThr_upTime (s : State) (k : Nat) (h : Fin 4) (f : Thread → Thread) : (s.modThr k h f).upTime = s.upTime := State.modCore_upTime s k _
@[simp] theorem State.modThr_frame (s : State) (k : Nat) (h : Fin 4) (f : Thread → Thread) : (s.modThr k h f).frame = s.frame := State.modCore_frame s k _
@[simp] theorem State.modThr_curtainAt (s : State) (k : Nat) (h : Fin 4) (f : Thread → Thread) : (s.modThr k h f).curtainAt = s.curtainAt := State.modCore_curtainAt s k _
@[simp] theorem State.modThr_nominal (s : State) (k : Nat) (h : Fin 4) (f : Thread → Thread) : (s.modThr k h f).nominal = s.nominal := State.modCore_nominal s k _
@[simp] theorem State.modThr_curMode (s : State) (k : Nat) (h : Fin 4) (f : Thread → Thread) : (s.modThr k h f).curMode = s.curMode := State.modCore_curMode s k _
@[simp] theorem State.modThr_edgeAt (s : State) (k : Nat) (h : Fin 4) (f : Thread → Thread) : (s.modThr k h f).edgeAt = s.edgeAt := State.modCore_edgeAt s k _
@[simp] theorem State.modThr_clockFixed (s : State) (k : Nat) (h : Fin 4) (f : Thread → Thread) : (s.modThr k h f).clockFixed = s.clockFixed := State.modCore_clockFixed s k _
@[simp] theorem State.modThr_overpower (s : State) (k : Nat) (h : Fin 4) (f : Thread → Thread) : (s.modThr k h f).overpower = s.overpower := State.modCore_overpower s k _
@[simp] theorem State.modThr_closedFor (s : State) (k : Nat) (h : Fin 4) (f : Thread → Thread) : (s.modThr k h f).closedFor = s.closedFor := State.modCore_closedFor s k _
@[simp] theorem State.modThr_guardOn (s : State) (k : Nat) (h : Fin 4) (f : Thread → Thread) : (s.modThr k h f).guardOn = s.guardOn := State.modCore_guardOn s k _
@[simp] theorem State.modThr_refreshOn (s : State) (k : Nat) (h : Fin 4) (f : Thread → Thread) : (s.modThr k h f).refreshOn = s.refreshOn := State.modCore_refreshOn s k _
@[simp] theorem State.modThr_regs (s : State) (k : Nat) (h : Fin 4) (f : Thread → Thread) : (s.modThr k h f).regs = s.regs := State.modCore_regs s k _
@[simp] theorem State.modThr_hiCap (s : State) (k : Nat) (h : Fin 4) (f : Thread → Thread) : (s.modThr k h f).hiCap = s.hiCap := State.modCore_hiCap s k _
@[simp] theorem State.modThr_loWr (s : State) (k : Nat) (h : Fin 4) (f : Thread → Thread) : (s.modThr k h f).loWr = s.loWr := State.modCore_loWr s k _
@[simp] theorem State.modThr_cnt (s : State) (k : Nat) (h : Fin 4) (f : Thread → Thread) : (s.modThr k h f).cnt = s.cnt := State.modCore_cnt s k _
@[simp] theorem State.modThr_mem (s : State) (k : Nat) (h : Fin 4) (f : Thread → Thread) : (s.modThr k h f).mem = s.mem := State.modCore_mem s k _
@[simp] theorem State.modThr_poison (s : State) (k : Nat) (h : Fin 4) (f : Thread → Thread) : (s.modThr k h f).poison = s.poison := State.modCore_poison s k _
@[simp] theorem State.modThr_ueRead (s : State) (k : Nat) (h : Fin 4) (f : Thread → Thread) : (s.modThr k h f).ueRead = s.ueRead := State.modCore_ueRead s k _
@[simp] theorem State.modThr_host (s : State) (k : Nat) (h : Fin 4) (f : Thread → Thread) : (s.modThr k h f).host = s.host := State.modCore_host s k _
@[simp] theorem State.modThr_hostPoison (s : State) (k : Nat) (h : Fin 4) (f : Thread → Thread) : (s.modThr k h f).hostPoison = s.hostPoison := State.modCore_hostPoison s k _
@[simp] theorem State.modThr_inflight (s : State) (k : Nat) (h : Fin 4) (f : Thread → Thread) : (s.modThr k h f).inflight = s.inflight := State.modCore_inflight s k _
@[simp] theorem State.modThr_signals (s : State) (k : Nat) (h : Fin 4) (f : Thread → Thread) : (s.modThr k h f).signals = s.signals := State.modCore_signals s k _
@[simp] theorem State.modThr_nextCmd (s : State) (k : Nat) (h : Fin 4) (f : Thread → Thread) : (s.modThr k h f).nextCmd = s.nextCmd := State.modCore_nextCmd s k _
@[simp] theorem State.modThr_landObs (s : State) (k : Nat) (h : Fin 4) (f : Thread → Thread) : (s.modThr k h f).landObs = s.landObs := State.modCore_landObs s k _
@[simp] theorem State.modThr_errCmds (s : State) (k : Nat) (h : Fin 4) (f : Thread → Thread) : (s.modThr k h f).errCmds = s.errCmds := State.modCore_errCmds s k _
@[simp] theorem State.modThr_cb (s : State) (k : Nat) (h : Fin 4) (f : Thread → Thread) : (s.modThr k h f).cb = s.cb := State.modCore_cb s k _
@[simp] theorem State.modThr_cbForce (s : State) (k : Nat) (h : Fin 4) (f : Thread → Thread) : (s.modThr k h f).cbForce = s.cbForce := State.modCore_cbForce s k _
@[simp] theorem State.modThr_reqs (s : State) (k : Nat) (h : Fin 4) (f : Thread → Thread) : (s.modThr k h f).reqs = s.reqs := State.modCore_reqs s k _
@[simp] theorem State.modThr_steps (s : State) (k : Nat) (h : Fin 4) (f : Thread → Thread) : (s.modThr k h f).steps = s.steps := State.modCore_steps s k _
@[simp] theorem State.modThr_deliveries (s : State) (k : Nat) (h : Fin 4) (f : Thread → Thread) : (s.modThr k h f).deliveries = s.deliveries := State.modCore_deliveries s k _
@[simp] theorem State.modThr_heldActs (s : State) (k : Nat) (h : Fin 4) (f : Thread → Thread) : (s.modThr k h f).heldActs = s.heldActs := State.modCore_heldActs s k _
@[simp] theorem State.modThr_used (s : State) (k : Nat) (h : Fin 4) (f : Thread → Thread) : (s.modThr k h f).used = s.used := State.modCore_used s k _
@[simp] theorem State.modThr_admitted (s : State) (k : Nat) (h : Fin 4) (f : Thread → Thread) : (s.modThr k h f).admitted = s.admitted := State.modCore_admitted s k _
@[simp] theorem State.modThr_fwd (s : State) (k : Nat) (h : Fin 4) (f : Thread → Thread) : (s.modThr k h f).fwd = s.fwd := State.modCore_fwd s k _
@[simp] theorem State.modThr_gapPend (s : State) (k : Nat) (h : Fin 4) (f : Thread → Thread) : (s.modThr k h f).gapPend = s.gapPend := State.modCore_gapPend s k _
@[simp] theorem State.modThr_doomed (s : State) (k : Nat) (h : Fin 4) (f : Thread → Thread) : (s.modThr k h f).doomed = s.doomed := State.modCore_doomed s k _
@[simp] theorem State.modThr_deferSyn (s : State) (k : Nat) (h : Fin 4) (f : Thread → Thread) : (s.modThr k h f).deferSyn = s.deferSyn := State.modCore_deferSyn s k _
@[simp] theorem State.modThr_postponed (s : State) (k : Nat) (h : Fin 4) (f : Thread → Thread) : (s.modThr k h f).postponed = s.postponed := State.modCore_postponed s k _
@[simp] theorem State.modThr_itkStop (s : State) (k : Nat) (h : Fin 4) (f : Thread → Thread) : (s.modThr k h f).itkStop = s.itkStop := State.modCore_itkStop s k _
@[simp] theorem State.modThr_itkTurn (s : State) (k : Nat) (h : Fin 4) (f : Thread → Thread) : (s.modThr k h f).itkTurn = s.itkTurn := State.modCore_itkTurn s k _
@[simp] theorem State.modThr_itkKept (s : State) (k : Nat) (h : Fin 4) (f : Thread → Thread) : (s.modThr k h f).itkKept = s.itkKept := State.modCore_itkKept s k _
@[simp] theorem State.modThr_itkNext (s : State) (k : Nat) (h : Fin 4) (f : Thread → Thread) : (s.modThr k h f).itkNext = s.itkNext := State.modCore_itkNext s k _
@[simp] theorem State.modThr_backlog (s : State) (k : Nat) (h : Fin 4) (f : Thread → Thread) : (s.modThr k h f).backlog = s.backlog := State.modCore_backlog s k _
@[simp] theorem State.modThr_egrDropped (s : State) (k : Nat) (h : Fin 4) (f : Thread → Thread) : (s.modThr k h f).egrDropped = s.egrDropped := State.modCore_egrDropped s k _
@[simp] theorem State.modThr_egrSeq (s : State) (k : Nat) (h : Fin 4) (f : Thread → Thread) : (s.modThr k h f).egrSeq = s.egrSeq := State.modCore_egrSeq s k _
@[simp] theorem State.modThr_egrCount (s : State) (k : Nat) (h : Fin 4) (f : Thread → Thread) : (s.modThr k h f).egrCount = s.egrCount := State.modCore_egrCount s k _
@[simp] theorem State.modThr_egrOwed (s : State) (k : Nat) (h : Fin 4) (f : Thread → Thread) : (s.modThr k h f).egrOwed = s.egrOwed := State.modCore_egrOwed s k _
@[simp] theorem State.modThr_actA (s : State) (k : Nat) (h : Fin 4) (f : Thread → Thread) : (s.modThr k h f).actA = s.actA := State.modCore_actA s k _
@[simp] theorem State.modThr_actS (s : State) (k : Nat) (h : Fin 4) (f : Thread → Thread) : (s.modThr k h f).actS = s.actS := State.modCore_actS s k _
@[simp] theorem State.modThr_asnA (s : State) (k : Nat) (h : Fin 4) (f : Thread → Thread) : (s.modThr k h f).asnA = s.asnA := State.modCore_asnA s k _
@[simp] theorem State.modThr_asnS (s : State) (k : Nat) (h : Fin 4) (f : Thread → Thread) : (s.modThr k h f).asnS = s.asnS := State.modCore_asnS s k _
@[simp] theorem State.modThr_grpA (s : State) (k : Nat) (h : Fin 4) (f : Thread → Thread) : (s.modThr k h f).grpA = s.grpA := State.modCore_grpA s k _
@[simp] theorem State.modThr_grpS (s : State) (k : Nat) (h : Fin 4) (f : Thread → Thread) : (s.modThr k h f).grpS = s.grpS := State.modCore_grpS s k _
@[simp] theorem State.modThr_swap (s : State) (k : Nat) (h : Fin 4) (f : Thread → Thread) : (s.modThr k h f).swap = s.swap := State.modCore_swap s k _
@[simp] theorem State.modThr_swapReq (s : State) (k : Nat) (h : Fin 4) (f : Thread → Thread) : (s.modThr k h f).swapReq = s.swapReq := State.modCore_swapReq s k _
@[simp] theorem State.modThr_rgnLive (s : State) (k : Nat) (h : Fin 4) (f : Thread → Thread) : (s.modThr k h f).rgnLive = s.rgnLive := State.modCore_rgnLive s k _
@[simp] theorem State.modThr_rgnPend (s : State) (k : Nat) (h : Fin 4) (f : Thread → Thread) : (s.modThr k h f).rgnPend = s.rgnPend := State.modCore_rgnPend s k _
@[simp] theorem State.modThr_attrLive (s : State) (k : Nat) (h : Fin 4) (f : Thread → Thread) : (s.modThr k h f).attrLive = s.attrLive := State.modCore_attrLive s k _
@[simp] theorem State.modThr_attrPend (s : State) (k : Nat) (h : Fin 4) (f : Thread → Thread) : (s.modThr k h f).attrPend = s.attrPend := State.modCore_attrPend s k _
@[simp] theorem State.modThr_publishing (s : State) (k : Nat) (h : Fin 4) (f : Thread → Thread) : (s.modThr k h f).publishing = s.publishing := State.modCore_publishing s k _
@[simp] theorem State.modThr_updSeeds (s : State) (k : Nat) (h : Fin 4) (f : Thread → Thread) : (s.modThr k h f).updSeeds = s.updSeeds := State.modCore_updSeeds s k _
@[simp] theorem State.modThr_etas (s : State) (k : Nat) (h : Fin 4) (f : Thread → Thread) : (s.modThr k h f).etas = s.etas := State.modCore_etas s k _
@[simp] theorem State.modThr_grpRuns (s : State) (k : Nat) (h : Fin 4) (f : Thread → Thread) : (s.modThr k h f).grpRuns = s.grpRuns := State.modCore_grpRuns s k _
@[simp] theorem State.modThr_uncommitted (s : State) (k : Nat) (h : Fin 4) (f : Thread → Thread) : (s.modThr k h f).uncommitted = s.uncommitted := State.modCore_uncommitted s k _
@[simp] theorem State.modThr_numTot (s : State) (k : Nat) (h : Fin 4) (f : Thread → Thread) : (s.modThr k h f).numTot = s.numTot := State.modCore_numTot s k _
@[simp] theorem State.modThr_lgrBuf (s : State) (k : Nat) (h : Fin 4) (f : Thread → Thread) : (s.modThr k h f).lgrBuf = s.lgrBuf := State.modCore_lgrBuf s k _
@[simp] theorem State.modThr_lgrSerial (s : State) (k : Nat) (h : Fin 4) (f : Thread → Thread) : (s.modThr k h f).lgrSerial = s.lgrSerial := State.modCore_lgrSerial s k _
@[simp] theorem State.modThr_lgrMark (s : State) (k : Nat) (h : Fin 4) (f : Thread → Thread) : (s.modThr k h f).lgrMark = s.lgrMark := State.modCore_lgrMark s k _
@[simp] theorem State.modThr_lgrOwing (s : State) (k : Nat) (h : Fin 4) (f : Thread → Thread) : (s.modThr k h f).lgrOwing = s.lgrOwing := State.modCore_lgrOwing s k _
@[simp] theorem State.modThr_prioStk (s : State) (k : Nat) (h : Fin 4) (f : Thread → Thread) : (s.modThr k h f).prioStk = s.prioStk := State.modCore_prioStk s k _
@[simp] theorem State.modThr_holdoff (s : State) (k : Nat) (h : Fin 4) (f : Thread → Thread) : (s.modThr k h f).holdoff = s.holdoff := State.modCore_holdoff s k _
@[simp] theorem State.modThr_loadErr (s : State) (k : Nat) (h : Fin 4) (f : Thread → Thread) : (s.modThr k h f).loadErr = s.loadErr := State.modCore_loadErr s k _
@[simp] theorem State.modThr_replaced (s : State) (k : Nat) (h : Fin 4) (f : Thread → Thread) : (s.modThr k h f).replaced = s.replaced := State.modCore_replaced s k _
@[simp] theorem State.modThr_merges (s : State) (k : Nat) (h : Fin 4) (f : Thread → Thread) : (s.modThr k h f).merges = s.merges := State.modCore_merges s k _
@[simp] theorem State.modThr_copies (s : State) (k : Nat) (h : Fin 4) (f : Thread → Thread) : (s.modThr k h f).copies = s.copies := State.modCore_copies s k _
@[simp] theorem State.modThr_scrub (s : State) (k : Nat) (h : Fin 4) (f : Thread → Thread) : (s.modThr k h f).scrub = s.scrub := State.modCore_scrub s k _
@[simp] theorem State.modThr_bdma (s : State) (k : Nat) (h : Fin 4) (f : Thread → Thread) : (s.modThr k h f).bdma = s.bdma := State.modCore_bdma s k _
@[simp] theorem State.modThr_bdmaReq (s : State) (k : Nat) (h : Fin 4) (f : Thread → Thread) : (s.modThr k h f).bdmaReq = s.bdmaReq := State.modCore_bdmaReq s k _
@[simp] theorem State.modThr_fabIn (s : State) (k : Nat) (h : Fin 4) (f : Thread → Thread) : (s.modThr k h f).fabIn = s.fabIn := State.modCore_fabIn s k _
@[simp] theorem State.modThr_fabOut (s : State) (k : Nat) (h : Fin 4) (f : Thread → Thread) : (s.modThr k h f).fabOut = s.fabOut := State.modCore_fabOut s k _
@[simp] theorem State.modThr_fabAns (s : State) (k : Nat) (h : Fin 4) (f : Thread → Thread) : (s.modThr k h f).fabAns = s.fabAns := State.modCore_fabAns s k _
@[simp] theorem State.modThr_nextTag (s : State) (k : Nat) (h : Fin 4) (f : Thread → Thread) : (s.modThr k h f).nextTag = s.nextTag := State.modCore_nextTag s k _
@[simp] theorem State.modThr_links (s : State) (k : Nat) (h : Fin 4) (f : Thread → Thread) : (s.modThr k h f).links = s.links := State.modCore_links s k _
@[simp] theorem State.modThr_log (s : State) (k : Nat) (h : Fin 4) (f : Thread → Thread) : (s.modThr k h f).log = s.log := State.modCore_log s k _
@[simp] theorem State.modThr_logNext (s : State) (k : Nat) (h : Fin 4) (f : Thread → Thread) : (s.modThr k h f).logNext = s.logNext := State.modCore_logNext s k _
@[simp] theorem State.modThr_ports (s : State) (k : Nat) (h : Fin 4) (f : Thread → Thread) : (s.modThr k h f).ports = s.ports := State.modCore_ports s k _
@[simp] theorem State.modThr_sensors (s : State) (k : Nat) (h : Fin 4) (f : Thread → Thread) : (s.modThr k h f).sensors = s.sensors := State.modCore_sensors s k _
@[simp] theorem State.modThr_secAt (s : State) (k : Nat) (h : Fin 4) (f : Thread → Thread) : (s.modThr k h f).secAt = s.secAt := State.modCore_secAt s k _
@[simp] theorem State.modThr_committedSec (s : State) (k : Nat) (h : Fin 4) (f : Thread → Thread) : (s.modThr k h f).committedSec = s.committedSec := State.modCore_committedSec s k _
@[simp] theorem State.modThr_lateSec (s : State) (k : Nat) (h : Fin 4) (f : Thread → Thread) : (s.modThr k h f).lateSec = s.lateSec := State.modCore_lateSec s k _
@[simp] theorem State.modThr_deadlineFor (s : State) (k : Nat) (h : Fin 4) (f : Thread → Thread) : (s.modThr k h f).deadlineFor = s.deadlineFor := State.modCore_deadlineFor s k _
@[simp] theorem State.modThr_beatAt (s : State) (k : Nat) (h : Fin 4) (f : Thread → Thread) : (s.modThr k h f).beatAt = s.beatAt := State.modCore_beatAt s k _
@[simp] theorem State.modThr_sampled (s : State) (k : Nat) (h : Fin 4) (f : Thread → Thread) : (s.modThr k h f).sampled = s.sampled := State.modCore_sampled s k _
@[simp] theorem State.modThr_rot (s : State) (k : Nat) (h : Fin 4) (f : Thread → Thread) : (s.modThr k h f).rot = s.rot := State.modCore_rot s k _
@[simp] theorem State.modThr_prodBad (s : State) (k : Nat) (h : Fin 4) (f : Thread → Thread) : (s.modThr k h f).prodBad = s.prodBad := State.modCore_prodBad s k _
@[simp] theorem State.modThr_grade (s : State) (k : Nat) (h : Fin 4) (f : Thread → Thread) : (s.modThr k h f).grade = s.grade := State.modCore_grade s k _
@[simp] theorem State.modThr_siteBad (s : State) (k : Nat) (h : Fin 4) (f : Thread → Thread) : (s.modThr k h f).siteBad = s.siteBad := State.modCore_siteBad s k _
@[simp] theorem State.modThr_mid (s : State) (k : Nat) (h : Fin 4) (f : Thread → Thread) : (s.modThr k h f).mid = s.mid := State.modCore_mid s k _
@[simp] theorem State.modThr_pcie (s : State) (k : Nat) (h : Fin 4) (f : Thread → Thread) : (s.modThr k h f).pcie = s.pcie := State.modCore_pcie s k _
@[simp] theorem State.modThr_pins (s : State) (k : Nat) (h : Fin 4) (f : Thread → Thread) : (s.modThr k h f).pins = s.pins := State.modCore_pins s k _
@[simp] theorem State.modThr_resetting (s : State) (k : Nat) (h : Fin 4) (f : Thread → Thread) : (s.modThr k h f).resetting = s.resetting := State.modCore_resetting s k _
@[simp] theorem State.modThr_resetAt (s : State) (k : Nat) (h : Fin 4) (f : Thread → Thread) : (s.modThr k h f).resetAt = s.resetAt := State.modCore_resetAt s k _
@[simp] theorem State.modThr_softOwed (s : State) (k : Nat) (h : Fin 4) (f : Thread → Thread) : (s.modThr k h f).softOwed = s.softOwed := State.modCore_softOwed s k _
@[simp] theorem State.modThr_softStage (s : State) (k : Nat) (h : Fin 4) (f : Thread → Thread) : (s.modThr k h f).softStage = s.softStage := State.modCore_softStage s k _
@[simp] theorem State.modThr_execOff (s : State) (k : Nat) (h : Fin 4) (f : Thread → Thread) : (s.modThr k h f).execOff = s.execOff := State.modCore_execOff s k _
@[simp] theorem State.modThr_selfRefresh (s : State) (k : Nat) (h : Fin 4) (f : Thread → Thread) : (s.modThr k h f).selfRefresh = s.selfRefresh := State.modCore_selfRefresh s k _
@[simp] theorem State.modThr_clkGated (s : State) (k : Nat) (h : Fin 4) (f : Thread → Thread) : (s.modThr k h f).clkGated = s.clkGated := State.modCore_clkGated s k _
@[simp] theorem State.modThr_wattSum (s : State) (k : Nat) (h : Fin 4) (f : Thread → Thread) : (s.modThr k h f).wattSum = s.wattSum := State.modCore_wattSum s k _
@[simp] theorem State.modThr_wattAt (s : State) (k : Nat) (h : Fin 4) (f : Thread → Thread) : (s.modThr k h f).wattAt = s.wattAt := State.modCore_wattAt s k _
@[simp] theorem State.modThr_exc (s : State) (k : Nat) (h : Fin 4) (f : Thread → Thread) : (s.modThr k h f).exc = s.exc := State.modCore_exc s k _
@[simp] theorem State.modThr_preqPend (s : State) (k : Nat) (h : Fin 4) (f : Thread → Thread) : (s.modThr k h f).preqPend = s.preqPend := State.modCore_preqPend s k _
@[simp] theorem State.modThr_d3Pend (s : State) (k : Nat) (h : Fin 4) (f : Thread → Thread) : (s.modThr k h f).d3Pend = s.d3Pend := State.modCore_d3Pend s k _
@[simp] theorem State.modThr_rehOff (s : State) (k : Nat) (h : Fin 4) (f : Thread → Thread) : (s.modThr k h f).rehOff = s.rehOff := State.modCore_rehOff s k _
@[simp] theorem State.modThr_disag (s : State) (k : Nat) (h : Fin 4) (f : Thread → Thread) : (s.modThr k h f).disag = s.disag := State.modCore_disag s k _
@[simp] theorem State.modThr_quarDue (s : State) (k : Nat) (h : Fin 4) (f : Thread → Thread) : (s.modThr k h f).quarDue = s.quarDue := State.modCore_quarDue s k _
@[simp] theorem State.modThr_rplUsed (s : State) (k : Nat) (h : Fin 4) (f : Thread → Thread) : (s.modThr k h f).rplUsed = s.rplUsed := State.modCore_rplUsed s k _
@[simp] theorem State.modThr_rdData (s : State) (k : Nat) (h : Fin 4) (f : Thread → Thread) : (s.modThr k h f).rdData = s.rdData := State.modCore_rdData s k _
@[simp] theorem State.modThr_rdStatus (s : State) (k : Nat) (h : Fin 4) (f : Thread → Thread) : (s.modThr k h f).rdStatus = s.rdStatus := State.modCore_rdStatus s k _
@[simp] theorem State.modThr_out (s : State) (k : Nat) (h : Fin 4) (f : Thread → Thread) : (s.modThr k h f).out = s.out := State.modCore_out s k _
@[simp] theorem State.modThr_free (s : State) (k : Nat) (h : Fin 4) (f : Thread → Thread) : (s.modThr k h f).free = s.free := State.modCore_free s k _

-- setBytes
@[simp] theorem State.setBytes_pending (s : State) (a : Nat) (l : List Byte) : (s.setBytes a l).pending = s.pending := rfl
@[simp] theorem State.setBytes_now (s : State) (a : Nat) (l : List Byte) : (s.setBytes a l).now = s.now := rfl
@[simp] theorem State.setBytes_upTime (s : State) (a : Nat) (l : List Byte) : (s.setBytes a l).upTime = s.upTime := rfl
@[simp] theorem State.setBytes_frame (s : State) (a : Nat) (l : List Byte) : (s.setBytes a l).frame = s.frame := rfl
@[simp] theorem State.setBytes_curtainAt (s : State) (a : Nat) (l : List Byte) : (s.setBytes a l).curtainAt = s.curtainAt := rfl
@[simp] theorem State.setBytes_nominal (s : State) (a : Nat) (l : List Byte) : (s.setBytes a l).nominal = s.nominal := rfl
@[simp] theorem State.setBytes_curMode (s : State) (a : Nat) (l : List Byte) : (s.setBytes a l).curMode = s.curMode := rfl
@[simp] theorem State.setBytes_edgeAt (s : State) (a : Nat) (l : List Byte) : (s.setBytes a l).edgeAt = s.edgeAt := rfl
@[simp] theorem State.setBytes_clockFixed (s : State) (a : Nat) (l : List Byte) : (s.setBytes a l).clockFixed = s.clockFixed := rfl
@[simp] theorem State.setBytes_overpower (s : State) (a : Nat) (l : List Byte) : (s.setBytes a l).overpower = s.overpower := rfl
@[simp] theorem State.setBytes_closedFor (s : State) (a : Nat) (l : List Byte) : (s.setBytes a l).closedFor = s.closedFor := rfl
@[simp] theorem State.setBytes_guardOn (s : State) (a : Nat) (l : List Byte) : (s.setBytes a l).guardOn = s.guardOn := rfl
@[simp] theorem State.setBytes_refreshOn (s : State) (a : Nat) (l : List Byte) : (s.setBytes a l).refreshOn = s.refreshOn := rfl
@[simp] theorem State.setBytes_regs (s : State) (a : Nat) (l : List Byte) : (s.setBytes a l).regs = s.regs := rfl
@[simp] theorem State.setBytes_hiCap (s : State) (a : Nat) (l : List Byte) : (s.setBytes a l).hiCap = s.hiCap := rfl
@[simp] theorem State.setBytes_loWr (s : State) (a : Nat) (l : List Byte) : (s.setBytes a l).loWr = s.loWr := rfl
@[simp] theorem State.setBytes_cnt (s : State) (a : Nat) (l : List Byte) : (s.setBytes a l).cnt = s.cnt := rfl
@[simp] theorem State.setBytes_poison (s : State) (a : Nat) (l : List Byte) : (s.setBytes a l).poison = s.poison := rfl
@[simp] theorem State.setBytes_ueRead (s : State) (a : Nat) (l : List Byte) : (s.setBytes a l).ueRead = s.ueRead := rfl
@[simp] theorem State.setBytes_host (s : State) (a : Nat) (l : List Byte) : (s.setBytes a l).host = s.host := rfl
@[simp] theorem State.setBytes_hostPoison (s : State) (a : Nat) (l : List Byte) : (s.setBytes a l).hostPoison = s.hostPoison := rfl
@[simp] theorem State.setBytes_inflight (s : State) (a : Nat) (l : List Byte) : (s.setBytes a l).inflight = s.inflight := rfl
@[simp] theorem State.setBytes_signals (s : State) (a : Nat) (l : List Byte) : (s.setBytes a l).signals = s.signals := rfl
@[simp] theorem State.setBytes_nextCmd (s : State) (a : Nat) (l : List Byte) : (s.setBytes a l).nextCmd = s.nextCmd := rfl
@[simp] theorem State.setBytes_landObs (s : State) (a : Nat) (l : List Byte) : (s.setBytes a l).landObs = s.landObs := rfl
@[simp] theorem State.setBytes_errCmds (s : State) (a : Nat) (l : List Byte) : (s.setBytes a l).errCmds = s.errCmds := rfl
@[simp] theorem State.setBytes_cores (s : State) (a : Nat) (l : List Byte) : (s.setBytes a l).cores = s.cores := rfl
@[simp] theorem State.setBytes_cb (s : State) (a : Nat) (l : List Byte) : (s.setBytes a l).cb = s.cb := rfl
@[simp] theorem State.setBytes_cbForce (s : State) (a : Nat) (l : List Byte) : (s.setBytes a l).cbForce = s.cbForce := rfl
@[simp] theorem State.setBytes_reqs (s : State) (a : Nat) (l : List Byte) : (s.setBytes a l).reqs = s.reqs := rfl
@[simp] theorem State.setBytes_steps (s : State) (a : Nat) (l : List Byte) : (s.setBytes a l).steps = s.steps := rfl
@[simp] theorem State.setBytes_deliveries (s : State) (a : Nat) (l : List Byte) : (s.setBytes a l).deliveries = s.deliveries := rfl
@[simp] theorem State.setBytes_heldActs (s : State) (a : Nat) (l : List Byte) : (s.setBytes a l).heldActs = s.heldActs := rfl
@[simp] theorem State.setBytes_used (s : State) (a : Nat) (l : List Byte) : (s.setBytes a l).used = s.used := rfl
@[simp] theorem State.setBytes_admitted (s : State) (a : Nat) (l : List Byte) : (s.setBytes a l).admitted = s.admitted := rfl
@[simp] theorem State.setBytes_fwd (s : State) (a : Nat) (l : List Byte) : (s.setBytes a l).fwd = s.fwd := rfl
@[simp] theorem State.setBytes_gapPend (s : State) (a : Nat) (l : List Byte) : (s.setBytes a l).gapPend = s.gapPend := rfl
@[simp] theorem State.setBytes_doomed (s : State) (a : Nat) (l : List Byte) : (s.setBytes a l).doomed = s.doomed := rfl
@[simp] theorem State.setBytes_deferSyn (s : State) (a : Nat) (l : List Byte) : (s.setBytes a l).deferSyn = s.deferSyn := rfl
@[simp] theorem State.setBytes_postponed (s : State) (a : Nat) (l : List Byte) : (s.setBytes a l).postponed = s.postponed := rfl
@[simp] theorem State.setBytes_itkStop (s : State) (a : Nat) (l : List Byte) : (s.setBytes a l).itkStop = s.itkStop := rfl
@[simp] theorem State.setBytes_itkTurn (s : State) (a : Nat) (l : List Byte) : (s.setBytes a l).itkTurn = s.itkTurn := rfl
@[simp] theorem State.setBytes_itkKept (s : State) (a : Nat) (l : List Byte) : (s.setBytes a l).itkKept = s.itkKept := rfl
@[simp] theorem State.setBytes_itkNext (s : State) (a : Nat) (l : List Byte) : (s.setBytes a l).itkNext = s.itkNext := rfl
@[simp] theorem State.setBytes_backlog (s : State) (a : Nat) (l : List Byte) : (s.setBytes a l).backlog = s.backlog := rfl
@[simp] theorem State.setBytes_egrDropped (s : State) (a : Nat) (l : List Byte) : (s.setBytes a l).egrDropped = s.egrDropped := rfl
@[simp] theorem State.setBytes_egrSeq (s : State) (a : Nat) (l : List Byte) : (s.setBytes a l).egrSeq = s.egrSeq := rfl
@[simp] theorem State.setBytes_egrCount (s : State) (a : Nat) (l : List Byte) : (s.setBytes a l).egrCount = s.egrCount := rfl
@[simp] theorem State.setBytes_egrOwed (s : State) (a : Nat) (l : List Byte) : (s.setBytes a l).egrOwed = s.egrOwed := rfl
@[simp] theorem State.setBytes_actA (s : State) (a : Nat) (l : List Byte) : (s.setBytes a l).actA = s.actA := rfl
@[simp] theorem State.setBytes_actS (s : State) (a : Nat) (l : List Byte) : (s.setBytes a l).actS = s.actS := rfl
@[simp] theorem State.setBytes_asnA (s : State) (a : Nat) (l : List Byte) : (s.setBytes a l).asnA = s.asnA := rfl
@[simp] theorem State.setBytes_asnS (s : State) (a : Nat) (l : List Byte) : (s.setBytes a l).asnS = s.asnS := rfl
@[simp] theorem State.setBytes_grpA (s : State) (a : Nat) (l : List Byte) : (s.setBytes a l).grpA = s.grpA := rfl
@[simp] theorem State.setBytes_grpS (s : State) (a : Nat) (l : List Byte) : (s.setBytes a l).grpS = s.grpS := rfl
@[simp] theorem State.setBytes_swap (s : State) (a : Nat) (l : List Byte) : (s.setBytes a l).swap = s.swap := rfl
@[simp] theorem State.setBytes_swapReq (s : State) (a : Nat) (l : List Byte) : (s.setBytes a l).swapReq = s.swapReq := rfl
@[simp] theorem State.setBytes_rgnLive (s : State) (a : Nat) (l : List Byte) : (s.setBytes a l).rgnLive = s.rgnLive := rfl
@[simp] theorem State.setBytes_rgnPend (s : State) (a : Nat) (l : List Byte) : (s.setBytes a l).rgnPend = s.rgnPend := rfl
@[simp] theorem State.setBytes_attrLive (s : State) (a : Nat) (l : List Byte) : (s.setBytes a l).attrLive = s.attrLive := rfl
@[simp] theorem State.setBytes_attrPend (s : State) (a : Nat) (l : List Byte) : (s.setBytes a l).attrPend = s.attrPend := rfl
@[simp] theorem State.setBytes_publishing (s : State) (a : Nat) (l : List Byte) : (s.setBytes a l).publishing = s.publishing := rfl
@[simp] theorem State.setBytes_updSeeds (s : State) (a : Nat) (l : List Byte) : (s.setBytes a l).updSeeds = s.updSeeds := rfl
@[simp] theorem State.setBytes_etas (s : State) (a : Nat) (l : List Byte) : (s.setBytes a l).etas = s.etas := rfl
@[simp] theorem State.setBytes_grpRuns (s : State) (a : Nat) (l : List Byte) : (s.setBytes a l).grpRuns = s.grpRuns := rfl
@[simp] theorem State.setBytes_uncommitted (s : State) (a : Nat) (l : List Byte) : (s.setBytes a l).uncommitted = s.uncommitted := rfl
@[simp] theorem State.setBytes_numTot (s : State) (a : Nat) (l : List Byte) : (s.setBytes a l).numTot = s.numTot := rfl
@[simp] theorem State.setBytes_lgrBuf (s : State) (a : Nat) (l : List Byte) : (s.setBytes a l).lgrBuf = s.lgrBuf := rfl
@[simp] theorem State.setBytes_lgrSerial (s : State) (a : Nat) (l : List Byte) : (s.setBytes a l).lgrSerial = s.lgrSerial := rfl
@[simp] theorem State.setBytes_lgrMark (s : State) (a : Nat) (l : List Byte) : (s.setBytes a l).lgrMark = s.lgrMark := rfl
@[simp] theorem State.setBytes_lgrOwing (s : State) (a : Nat) (l : List Byte) : (s.setBytes a l).lgrOwing = s.lgrOwing := rfl
@[simp] theorem State.setBytes_prioStk (s : State) (a : Nat) (l : List Byte) : (s.setBytes a l).prioStk = s.prioStk := rfl
@[simp] theorem State.setBytes_holdoff (s : State) (a : Nat) (l : List Byte) : (s.setBytes a l).holdoff = s.holdoff := rfl
@[simp] theorem State.setBytes_loadErr (s : State) (a : Nat) (l : List Byte) : (s.setBytes a l).loadErr = s.loadErr := rfl
@[simp] theorem State.setBytes_replaced (s : State) (a : Nat) (l : List Byte) : (s.setBytes a l).replaced = s.replaced := rfl
@[simp] theorem State.setBytes_merges (s : State) (a : Nat) (l : List Byte) : (s.setBytes a l).merges = s.merges := rfl
@[simp] theorem State.setBytes_copies (s : State) (a : Nat) (l : List Byte) : (s.setBytes a l).copies = s.copies := rfl
@[simp] theorem State.setBytes_scrub (s : State) (a : Nat) (l : List Byte) : (s.setBytes a l).scrub = s.scrub := rfl
@[simp] theorem State.setBytes_bdma (s : State) (a : Nat) (l : List Byte) : (s.setBytes a l).bdma = s.bdma := rfl
@[simp] theorem State.setBytes_bdmaReq (s : State) (a : Nat) (l : List Byte) : (s.setBytes a l).bdmaReq = s.bdmaReq := rfl
@[simp] theorem State.setBytes_fabIn (s : State) (a : Nat) (l : List Byte) : (s.setBytes a l).fabIn = s.fabIn := rfl
@[simp] theorem State.setBytes_fabOut (s : State) (a : Nat) (l : List Byte) : (s.setBytes a l).fabOut = s.fabOut := rfl
@[simp] theorem State.setBytes_fabAns (s : State) (a : Nat) (l : List Byte) : (s.setBytes a l).fabAns = s.fabAns := rfl
@[simp] theorem State.setBytes_nextTag (s : State) (a : Nat) (l : List Byte) : (s.setBytes a l).nextTag = s.nextTag := rfl
@[simp] theorem State.setBytes_links (s : State) (a : Nat) (l : List Byte) : (s.setBytes a l).links = s.links := rfl
@[simp] theorem State.setBytes_log (s : State) (a : Nat) (l : List Byte) : (s.setBytes a l).log = s.log := rfl
@[simp] theorem State.setBytes_logNext (s : State) (a : Nat) (l : List Byte) : (s.setBytes a l).logNext = s.logNext := rfl
@[simp] theorem State.setBytes_ports (s : State) (a : Nat) (l : List Byte) : (s.setBytes a l).ports = s.ports := rfl
@[simp] theorem State.setBytes_sensors (s : State) (a : Nat) (l : List Byte) : (s.setBytes a l).sensors = s.sensors := rfl
@[simp] theorem State.setBytes_secAt (s : State) (a : Nat) (l : List Byte) : (s.setBytes a l).secAt = s.secAt := rfl
@[simp] theorem State.setBytes_committedSec (s : State) (a : Nat) (l : List Byte) : (s.setBytes a l).committedSec = s.committedSec := rfl
@[simp] theorem State.setBytes_lateSec (s : State) (a : Nat) (l : List Byte) : (s.setBytes a l).lateSec = s.lateSec := rfl
@[simp] theorem State.setBytes_deadlineFor (s : State) (a : Nat) (l : List Byte) : (s.setBytes a l).deadlineFor = s.deadlineFor := rfl
@[simp] theorem State.setBytes_beatAt (s : State) (a : Nat) (l : List Byte) : (s.setBytes a l).beatAt = s.beatAt := rfl
@[simp] theorem State.setBytes_sampled (s : State) (a : Nat) (l : List Byte) : (s.setBytes a l).sampled = s.sampled := rfl
@[simp] theorem State.setBytes_rot (s : State) (a : Nat) (l : List Byte) : (s.setBytes a l).rot = s.rot := rfl
@[simp] theorem State.setBytes_prodBad (s : State) (a : Nat) (l : List Byte) : (s.setBytes a l).prodBad = s.prodBad := rfl
@[simp] theorem State.setBytes_grade (s : State) (a : Nat) (l : List Byte) : (s.setBytes a l).grade = s.grade := rfl
@[simp] theorem State.setBytes_siteBad (s : State) (a : Nat) (l : List Byte) : (s.setBytes a l).siteBad = s.siteBad := rfl
@[simp] theorem State.setBytes_mid (s : State) (a : Nat) (l : List Byte) : (s.setBytes a l).mid = s.mid := rfl
@[simp] theorem State.setBytes_pcie (s : State) (a : Nat) (l : List Byte) : (s.setBytes a l).pcie = s.pcie := rfl
@[simp] theorem State.setBytes_pins (s : State) (a : Nat) (l : List Byte) : (s.setBytes a l).pins = s.pins := rfl
@[simp] theorem State.setBytes_resetting (s : State) (a : Nat) (l : List Byte) : (s.setBytes a l).resetting = s.resetting := rfl
@[simp] theorem State.setBytes_resetAt (s : State) (a : Nat) (l : List Byte) : (s.setBytes a l).resetAt = s.resetAt := rfl
@[simp] theorem State.setBytes_softOwed (s : State) (a : Nat) (l : List Byte) : (s.setBytes a l).softOwed = s.softOwed := rfl
@[simp] theorem State.setBytes_softStage (s : State) (a : Nat) (l : List Byte) : (s.setBytes a l).softStage = s.softStage := rfl
@[simp] theorem State.setBytes_execOff (s : State) (a : Nat) (l : List Byte) : (s.setBytes a l).execOff = s.execOff := rfl
@[simp] theorem State.setBytes_selfRefresh (s : State) (a : Nat) (l : List Byte) : (s.setBytes a l).selfRefresh = s.selfRefresh := rfl
@[simp] theorem State.setBytes_clkGated (s : State) (a : Nat) (l : List Byte) : (s.setBytes a l).clkGated = s.clkGated := rfl
@[simp] theorem State.setBytes_wattSum (s : State) (a : Nat) (l : List Byte) : (s.setBytes a l).wattSum = s.wattSum := rfl
@[simp] theorem State.setBytes_wattAt (s : State) (a : Nat) (l : List Byte) : (s.setBytes a l).wattAt = s.wattAt := rfl
@[simp] theorem State.setBytes_exc (s : State) (a : Nat) (l : List Byte) : (s.setBytes a l).exc = s.exc := rfl
@[simp] theorem State.setBytes_preqPend (s : State) (a : Nat) (l : List Byte) : (s.setBytes a l).preqPend = s.preqPend := rfl
@[simp] theorem State.setBytes_d3Pend (s : State) (a : Nat) (l : List Byte) : (s.setBytes a l).d3Pend = s.d3Pend := rfl
@[simp] theorem State.setBytes_rehOff (s : State) (a : Nat) (l : List Byte) : (s.setBytes a l).rehOff = s.rehOff := rfl
@[simp] theorem State.setBytes_disag (s : State) (a : Nat) (l : List Byte) : (s.setBytes a l).disag = s.disag := rfl
@[simp] theorem State.setBytes_quarDue (s : State) (a : Nat) (l : List Byte) : (s.setBytes a l).quarDue = s.quarDue := rfl
@[simp] theorem State.setBytes_rplUsed (s : State) (a : Nat) (l : List Byte) : (s.setBytes a l).rplUsed = s.rplUsed := rfl
@[simp] theorem State.setBytes_rdData (s : State) (a : Nat) (l : List Byte) : (s.setBytes a l).rdData = s.rdData := rfl
@[simp] theorem State.setBytes_rdStatus (s : State) (a : Nat) (l : List Byte) : (s.setBytes a l).rdStatus = s.rdStatus := rfl
@[simp] theorem State.setBytes_out (s : State) (a : Nat) (l : List Byte) : (s.setBytes a l).out = s.out := rfl
@[simp] theorem State.setBytes_free (s : State) (a : Nat) (l : List Byte) : (s.setBytes a l).free = s.free := rfl

-- writeMem
@[simp] theorem State.writeMem_pending (s : State) (a : Nat) (l : List Byte) (p : Bool) : (s.writeMem a l p).pending = s.pending := State.setBytes_pending s a l
@[simp] theorem State.writeMem_now (s : State) (a : Nat) (l : List Byte) (p : Bool) : (s.writeMem a l p).now = s.now := State.setBytes_now s a l
@[simp] theorem State.writeMem_upTime (s : State) (a : Nat) (l : List Byte) (p : Bool) : (s.writeMem a l p).upTime = s.upTime := State.setBytes_upTime s a l
@[simp] theorem State.writeMem_frame (s : State) (a : Nat) (l : List Byte) (p : Bool) : (s.writeMem a l p).frame = s.frame := State.setBytes_frame s a l
@[simp] theorem State.writeMem_curtainAt (s : State) (a : Nat) (l : List Byte) (p : Bool) : (s.writeMem a l p).curtainAt = s.curtainAt := State.setBytes_curtainAt s a l
@[simp] theorem State.writeMem_nominal (s : State) (a : Nat) (l : List Byte) (p : Bool) : (s.writeMem a l p).nominal = s.nominal := State.setBytes_nominal s a l
@[simp] theorem State.writeMem_curMode (s : State) (a : Nat) (l : List Byte) (p : Bool) : (s.writeMem a l p).curMode = s.curMode := State.setBytes_curMode s a l
@[simp] theorem State.writeMem_edgeAt (s : State) (a : Nat) (l : List Byte) (p : Bool) : (s.writeMem a l p).edgeAt = s.edgeAt := State.setBytes_edgeAt s a l
@[simp] theorem State.writeMem_clockFixed (s : State) (a : Nat) (l : List Byte) (p : Bool) : (s.writeMem a l p).clockFixed = s.clockFixed := State.setBytes_clockFixed s a l
@[simp] theorem State.writeMem_overpower (s : State) (a : Nat) (l : List Byte) (p : Bool) : (s.writeMem a l p).overpower = s.overpower := State.setBytes_overpower s a l
@[simp] theorem State.writeMem_closedFor (s : State) (a : Nat) (l : List Byte) (p : Bool) : (s.writeMem a l p).closedFor = s.closedFor := State.setBytes_closedFor s a l
@[simp] theorem State.writeMem_guardOn (s : State) (a : Nat) (l : List Byte) (p : Bool) : (s.writeMem a l p).guardOn = s.guardOn := State.setBytes_guardOn s a l
@[simp] theorem State.writeMem_refreshOn (s : State) (a : Nat) (l : List Byte) (p : Bool) : (s.writeMem a l p).refreshOn = s.refreshOn := State.setBytes_refreshOn s a l
@[simp] theorem State.writeMem_regs (s : State) (a : Nat) (l : List Byte) (p : Bool) : (s.writeMem a l p).regs = s.regs := State.setBytes_regs s a l
@[simp] theorem State.writeMem_hiCap (s : State) (a : Nat) (l : List Byte) (p : Bool) : (s.writeMem a l p).hiCap = s.hiCap := State.setBytes_hiCap s a l
@[simp] theorem State.writeMem_loWr (s : State) (a : Nat) (l : List Byte) (p : Bool) : (s.writeMem a l p).loWr = s.loWr := State.setBytes_loWr s a l
@[simp] theorem State.writeMem_cnt (s : State) (a : Nat) (l : List Byte) (p : Bool) : (s.writeMem a l p).cnt = s.cnt := State.setBytes_cnt s a l
@[simp] theorem State.writeMem_host (s : State) (a : Nat) (l : List Byte) (p : Bool) : (s.writeMem a l p).host = s.host := State.setBytes_host s a l
@[simp] theorem State.writeMem_hostPoison (s : State) (a : Nat) (l : List Byte) (p : Bool) : (s.writeMem a l p).hostPoison = s.hostPoison := State.setBytes_hostPoison s a l
@[simp] theorem State.writeMem_inflight (s : State) (a : Nat) (l : List Byte) (p : Bool) : (s.writeMem a l p).inflight = s.inflight := State.setBytes_inflight s a l
@[simp] theorem State.writeMem_signals (s : State) (a : Nat) (l : List Byte) (p : Bool) : (s.writeMem a l p).signals = s.signals := State.setBytes_signals s a l
@[simp] theorem State.writeMem_nextCmd (s : State) (a : Nat) (l : List Byte) (p : Bool) : (s.writeMem a l p).nextCmd = s.nextCmd := State.setBytes_nextCmd s a l
@[simp] theorem State.writeMem_errCmds (s : State) (a : Nat) (l : List Byte) (p : Bool) : (s.writeMem a l p).errCmds = s.errCmds := State.setBytes_errCmds s a l
@[simp] theorem State.writeMem_cores (s : State) (a : Nat) (l : List Byte) (p : Bool) : (s.writeMem a l p).cores = s.cores := State.setBytes_cores s a l
@[simp] theorem State.writeMem_cb (s : State) (a : Nat) (l : List Byte) (p : Bool) : (s.writeMem a l p).cb = s.cb := State.setBytes_cb s a l
@[simp] theorem State.writeMem_cbForce (s : State) (a : Nat) (l : List Byte) (p : Bool) : (s.writeMem a l p).cbForce = s.cbForce := State.setBytes_cbForce s a l
@[simp] theorem State.writeMem_reqs (s : State) (a : Nat) (l : List Byte) (p : Bool) : (s.writeMem a l p).reqs = s.reqs := State.setBytes_reqs s a l
@[simp] theorem State.writeMem_steps (s : State) (a : Nat) (l : List Byte) (p : Bool) : (s.writeMem a l p).steps = s.steps := State.setBytes_steps s a l
@[simp] theorem State.writeMem_deliveries (s : State) (a : Nat) (l : List Byte) (p : Bool) : (s.writeMem a l p).deliveries = s.deliveries := State.setBytes_deliveries s a l
@[simp] theorem State.writeMem_heldActs (s : State) (a : Nat) (l : List Byte) (p : Bool) : (s.writeMem a l p).heldActs = s.heldActs := State.setBytes_heldActs s a l
@[simp] theorem State.writeMem_used (s : State) (a : Nat) (l : List Byte) (p : Bool) : (s.writeMem a l p).used = s.used := State.setBytes_used s a l
@[simp] theorem State.writeMem_admitted (s : State) (a : Nat) (l : List Byte) (p : Bool) : (s.writeMem a l p).admitted = s.admitted := State.setBytes_admitted s a l
@[simp] theorem State.writeMem_fwd (s : State) (a : Nat) (l : List Byte) (p : Bool) : (s.writeMem a l p).fwd = s.fwd := State.setBytes_fwd s a l
@[simp] theorem State.writeMem_gapPend (s : State) (a : Nat) (l : List Byte) (p : Bool) : (s.writeMem a l p).gapPend = s.gapPend := State.setBytes_gapPend s a l
@[simp] theorem State.writeMem_doomed (s : State) (a : Nat) (l : List Byte) (p : Bool) : (s.writeMem a l p).doomed = s.doomed := State.setBytes_doomed s a l
@[simp] theorem State.writeMem_deferSyn (s : State) (a : Nat) (l : List Byte) (p : Bool) : (s.writeMem a l p).deferSyn = s.deferSyn := State.setBytes_deferSyn s a l
@[simp] theorem State.writeMem_postponed (s : State) (a : Nat) (l : List Byte) (p : Bool) : (s.writeMem a l p).postponed = s.postponed := State.setBytes_postponed s a l
@[simp] theorem State.writeMem_itkStop (s : State) (a : Nat) (l : List Byte) (p : Bool) : (s.writeMem a l p).itkStop = s.itkStop := State.setBytes_itkStop s a l
@[simp] theorem State.writeMem_itkTurn (s : State) (a : Nat) (l : List Byte) (p : Bool) : (s.writeMem a l p).itkTurn = s.itkTurn := State.setBytes_itkTurn s a l
@[simp] theorem State.writeMem_itkKept (s : State) (a : Nat) (l : List Byte) (p : Bool) : (s.writeMem a l p).itkKept = s.itkKept := State.setBytes_itkKept s a l
@[simp] theorem State.writeMem_itkNext (s : State) (a : Nat) (l : List Byte) (p : Bool) : (s.writeMem a l p).itkNext = s.itkNext := State.setBytes_itkNext s a l
@[simp] theorem State.writeMem_backlog (s : State) (a : Nat) (l : List Byte) (p : Bool) : (s.writeMem a l p).backlog = s.backlog := State.setBytes_backlog s a l
@[simp] theorem State.writeMem_egrDropped (s : State) (a : Nat) (l : List Byte) (p : Bool) : (s.writeMem a l p).egrDropped = s.egrDropped := State.setBytes_egrDropped s a l
@[simp] theorem State.writeMem_egrSeq (s : State) (a : Nat) (l : List Byte) (p : Bool) : (s.writeMem a l p).egrSeq = s.egrSeq := State.setBytes_egrSeq s a l
@[simp] theorem State.writeMem_egrCount (s : State) (a : Nat) (l : List Byte) (p : Bool) : (s.writeMem a l p).egrCount = s.egrCount := State.setBytes_egrCount s a l
@[simp] theorem State.writeMem_egrOwed (s : State) (a : Nat) (l : List Byte) (p : Bool) : (s.writeMem a l p).egrOwed = s.egrOwed := State.setBytes_egrOwed s a l
@[simp] theorem State.writeMem_actA (s : State) (a : Nat) (l : List Byte) (p : Bool) : (s.writeMem a l p).actA = s.actA := State.setBytes_actA s a l
@[simp] theorem State.writeMem_actS (s : State) (a : Nat) (l : List Byte) (p : Bool) : (s.writeMem a l p).actS = s.actS := State.setBytes_actS s a l
@[simp] theorem State.writeMem_asnA (s : State) (a : Nat) (l : List Byte) (p : Bool) : (s.writeMem a l p).asnA = s.asnA := State.setBytes_asnA s a l
@[simp] theorem State.writeMem_asnS (s : State) (a : Nat) (l : List Byte) (p : Bool) : (s.writeMem a l p).asnS = s.asnS := State.setBytes_asnS s a l
@[simp] theorem State.writeMem_grpA (s : State) (a : Nat) (l : List Byte) (p : Bool) : (s.writeMem a l p).grpA = s.grpA := State.setBytes_grpA s a l
@[simp] theorem State.writeMem_grpS (s : State) (a : Nat) (l : List Byte) (p : Bool) : (s.writeMem a l p).grpS = s.grpS := State.setBytes_grpS s a l
@[simp] theorem State.writeMem_swap (s : State) (a : Nat) (l : List Byte) (p : Bool) : (s.writeMem a l p).swap = s.swap := State.setBytes_swap s a l
@[simp] theorem State.writeMem_swapReq (s : State) (a : Nat) (l : List Byte) (p : Bool) : (s.writeMem a l p).swapReq = s.swapReq := State.setBytes_swapReq s a l
@[simp] theorem State.writeMem_rgnLive (s : State) (a : Nat) (l : List Byte) (p : Bool) : (s.writeMem a l p).rgnLive = s.rgnLive := State.setBytes_rgnLive s a l
@[simp] theorem State.writeMem_rgnPend (s : State) (a : Nat) (l : List Byte) (p : Bool) : (s.writeMem a l p).rgnPend = s.rgnPend := State.setBytes_rgnPend s a l
@[simp] theorem State.writeMem_attrLive (s : State) (a : Nat) (l : List Byte) (p : Bool) : (s.writeMem a l p).attrLive = s.attrLive := State.setBytes_attrLive s a l
@[simp] theorem State.writeMem_attrPend (s : State) (a : Nat) (l : List Byte) (p : Bool) : (s.writeMem a l p).attrPend = s.attrPend := State.setBytes_attrPend s a l
@[simp] theorem State.writeMem_publishing (s : State) (a : Nat) (l : List Byte) (p : Bool) : (s.writeMem a l p).publishing = s.publishing := State.setBytes_publishing s a l
@[simp] theorem State.writeMem_updSeeds (s : State) (a : Nat) (l : List Byte) (p : Bool) : (s.writeMem a l p).updSeeds = s.updSeeds := State.setBytes_updSeeds s a l
@[simp] theorem State.writeMem_etas (s : State) (a : Nat) (l : List Byte) (p : Bool) : (s.writeMem a l p).etas = s.etas := State.setBytes_etas s a l
@[simp] theorem State.writeMem_grpRuns (s : State) (a : Nat) (l : List Byte) (p : Bool) : (s.writeMem a l p).grpRuns = s.grpRuns := State.setBytes_grpRuns s a l
@[simp] theorem State.writeMem_uncommitted (s : State) (a : Nat) (l : List Byte) (p : Bool) : (s.writeMem a l p).uncommitted = s.uncommitted := State.setBytes_uncommitted s a l
@[simp] theorem State.writeMem_numTot (s : State) (a : Nat) (l : List Byte) (p : Bool) : (s.writeMem a l p).numTot = s.numTot := State.setBytes_numTot s a l
@[simp] theorem State.writeMem_lgrBuf (s : State) (a : Nat) (l : List Byte) (p : Bool) : (s.writeMem a l p).lgrBuf = s.lgrBuf := State.setBytes_lgrBuf s a l
@[simp] theorem State.writeMem_lgrSerial (s : State) (a : Nat) (l : List Byte) (p : Bool) : (s.writeMem a l p).lgrSerial = s.lgrSerial := State.setBytes_lgrSerial s a l
@[simp] theorem State.writeMem_lgrMark (s : State) (a : Nat) (l : List Byte) (p : Bool) : (s.writeMem a l p).lgrMark = s.lgrMark := State.setBytes_lgrMark s a l
@[simp] theorem State.writeMem_lgrOwing (s : State) (a : Nat) (l : List Byte) (p : Bool) : (s.writeMem a l p).lgrOwing = s.lgrOwing := State.setBytes_lgrOwing s a l
@[simp] theorem State.writeMem_prioStk (s : State) (a : Nat) (l : List Byte) (p : Bool) : (s.writeMem a l p).prioStk = s.prioStk := State.setBytes_prioStk s a l
@[simp] theorem State.writeMem_holdoff (s : State) (a : Nat) (l : List Byte) (p : Bool) : (s.writeMem a l p).holdoff = s.holdoff := State.setBytes_holdoff s a l
@[simp] theorem State.writeMem_loadErr (s : State) (a : Nat) (l : List Byte) (p : Bool) : (s.writeMem a l p).loadErr = s.loadErr := State.setBytes_loadErr s a l
@[simp] theorem State.writeMem_replaced (s : State) (a : Nat) (l : List Byte) (p : Bool) : (s.writeMem a l p).replaced = s.replaced := State.setBytes_replaced s a l
@[simp] theorem State.writeMem_copies (s : State) (a : Nat) (l : List Byte) (p : Bool) : (s.writeMem a l p).copies = s.copies := State.setBytes_copies s a l
@[simp] theorem State.writeMem_scrub (s : State) (a : Nat) (l : List Byte) (p : Bool) : (s.writeMem a l p).scrub = s.scrub := State.setBytes_scrub s a l
@[simp] theorem State.writeMem_bdma (s : State) (a : Nat) (l : List Byte) (p : Bool) : (s.writeMem a l p).bdma = s.bdma := State.setBytes_bdma s a l
@[simp] theorem State.writeMem_bdmaReq (s : State) (a : Nat) (l : List Byte) (p : Bool) : (s.writeMem a l p).bdmaReq = s.bdmaReq := State.setBytes_bdmaReq s a l
@[simp] theorem State.writeMem_fabIn (s : State) (a : Nat) (l : List Byte) (p : Bool) : (s.writeMem a l p).fabIn = s.fabIn := State.setBytes_fabIn s a l
@[simp] theorem State.writeMem_fabOut (s : State) (a : Nat) (l : List Byte) (p : Bool) : (s.writeMem a l p).fabOut = s.fabOut := State.setBytes_fabOut s a l
@[simp] theorem State.writeMem_fabAns (s : State) (a : Nat) (l : List Byte) (p : Bool) : (s.writeMem a l p).fabAns = s.fabAns := State.setBytes_fabAns s a l
@[simp] theorem State.writeMem_nextTag (s : State) (a : Nat) (l : List Byte) (p : Bool) : (s.writeMem a l p).nextTag = s.nextTag := State.setBytes_nextTag s a l
@[simp] theorem State.writeMem_links (s : State) (a : Nat) (l : List Byte) (p : Bool) : (s.writeMem a l p).links = s.links := State.setBytes_links s a l
@[simp] theorem State.writeMem_log (s : State) (a : Nat) (l : List Byte) (p : Bool) : (s.writeMem a l p).log = s.log := State.setBytes_log s a l
@[simp] theorem State.writeMem_logNext (s : State) (a : Nat) (l : List Byte) (p : Bool) : (s.writeMem a l p).logNext = s.logNext := State.setBytes_logNext s a l
@[simp] theorem State.writeMem_ports (s : State) (a : Nat) (l : List Byte) (p : Bool) : (s.writeMem a l p).ports = s.ports := State.setBytes_ports s a l
@[simp] theorem State.writeMem_sensors (s : State) (a : Nat) (l : List Byte) (p : Bool) : (s.writeMem a l p).sensors = s.sensors := State.setBytes_sensors s a l
@[simp] theorem State.writeMem_secAt (s : State) (a : Nat) (l : List Byte) (p : Bool) : (s.writeMem a l p).secAt = s.secAt := State.setBytes_secAt s a l
@[simp] theorem State.writeMem_committedSec (s : State) (a : Nat) (l : List Byte) (p : Bool) : (s.writeMem a l p).committedSec = s.committedSec := State.setBytes_committedSec s a l
@[simp] theorem State.writeMem_lateSec (s : State) (a : Nat) (l : List Byte) (p : Bool) : (s.writeMem a l p).lateSec = s.lateSec := State.setBytes_lateSec s a l
@[simp] theorem State.writeMem_deadlineFor (s : State) (a : Nat) (l : List Byte) (p : Bool) : (s.writeMem a l p).deadlineFor = s.deadlineFor := State.setBytes_deadlineFor s a l
@[simp] theorem State.writeMem_beatAt (s : State) (a : Nat) (l : List Byte) (p : Bool) : (s.writeMem a l p).beatAt = s.beatAt := State.setBytes_beatAt s a l
@[simp] theorem State.writeMem_sampled (s : State) (a : Nat) (l : List Byte) (p : Bool) : (s.writeMem a l p).sampled = s.sampled := State.setBytes_sampled s a l
@[simp] theorem State.writeMem_rot (s : State) (a : Nat) (l : List Byte) (p : Bool) : (s.writeMem a l p).rot = s.rot := State.setBytes_rot s a l
@[simp] theorem State.writeMem_prodBad (s : State) (a : Nat) (l : List Byte) (p : Bool) : (s.writeMem a l p).prodBad = s.prodBad := State.setBytes_prodBad s a l
@[simp] theorem State.writeMem_grade (s : State) (a : Nat) (l : List Byte) (p : Bool) : (s.writeMem a l p).grade = s.grade := State.setBytes_grade s a l
@[simp] theorem State.writeMem_siteBad (s : State) (a : Nat) (l : List Byte) (p : Bool) : (s.writeMem a l p).siteBad = s.siteBad := State.setBytes_siteBad s a l
@[simp] theorem State.writeMem_mid (s : State) (a : Nat) (l : List Byte) (p : Bool) : (s.writeMem a l p).mid = s.mid := State.setBytes_mid s a l
@[simp] theorem State.writeMem_pcie (s : State) (a : Nat) (l : List Byte) (p : Bool) : (s.writeMem a l p).pcie = s.pcie := State.setBytes_pcie s a l
@[simp] theorem State.writeMem_pins (s : State) (a : Nat) (l : List Byte) (p : Bool) : (s.writeMem a l p).pins = s.pins := State.setBytes_pins s a l
@[simp] theorem State.writeMem_resetting (s : State) (a : Nat) (l : List Byte) (p : Bool) : (s.writeMem a l p).resetting = s.resetting := State.setBytes_resetting s a l
@[simp] theorem State.writeMem_resetAt (s : State) (a : Nat) (l : List Byte) (p : Bool) : (s.writeMem a l p).resetAt = s.resetAt := State.setBytes_resetAt s a l
@[simp] theorem State.writeMem_softOwed (s : State) (a : Nat) (l : List Byte) (p : Bool) : (s.writeMem a l p).softOwed = s.softOwed := State.setBytes_softOwed s a l
@[simp] theorem State.writeMem_softStage (s : State) (a : Nat) (l : List Byte) (p : Bool) : (s.writeMem a l p).softStage = s.softStage := State.setBytes_softStage s a l
@[simp] theorem State.writeMem_execOff (s : State) (a : Nat) (l : List Byte) (p : Bool) : (s.writeMem a l p).execOff = s.execOff := State.setBytes_execOff s a l
@[simp] theorem State.writeMem_selfRefresh (s : State) (a : Nat) (l : List Byte) (p : Bool) : (s.writeMem a l p).selfRefresh = s.selfRefresh := State.setBytes_selfRefresh s a l
@[simp] theorem State.writeMem_clkGated (s : State) (a : Nat) (l : List Byte) (p : Bool) : (s.writeMem a l p).clkGated = s.clkGated := State.setBytes_clkGated s a l
@[simp] theorem State.writeMem_wattSum (s : State) (a : Nat) (l : List Byte) (p : Bool) : (s.writeMem a l p).wattSum = s.wattSum := State.setBytes_wattSum s a l
@[simp] theorem State.writeMem_wattAt (s : State) (a : Nat) (l : List Byte) (p : Bool) : (s.writeMem a l p).wattAt = s.wattAt := State.setBytes_wattAt s a l
@[simp] theorem State.writeMem_exc (s : State) (a : Nat) (l : List Byte) (p : Bool) : (s.writeMem a l p).exc = s.exc := State.setBytes_exc s a l
@[simp] theorem State.writeMem_preqPend (s : State) (a : Nat) (l : List Byte) (p : Bool) : (s.writeMem a l p).preqPend = s.preqPend := State.setBytes_preqPend s a l
@[simp] theorem State.writeMem_d3Pend (s : State) (a : Nat) (l : List Byte) (p : Bool) : (s.writeMem a l p).d3Pend = s.d3Pend := State.setBytes_d3Pend s a l
@[simp] theorem State.writeMem_rehOff (s : State) (a : Nat) (l : List Byte) (p : Bool) : (s.writeMem a l p).rehOff = s.rehOff := State.setBytes_rehOff s a l
@[simp] theorem State.writeMem_disag (s : State) (a : Nat) (l : List Byte) (p : Bool) : (s.writeMem a l p).disag = s.disag := State.setBytes_disag s a l
@[simp] theorem State.writeMem_quarDue (s : State) (a : Nat) (l : List Byte) (p : Bool) : (s.writeMem a l p).quarDue = s.quarDue := State.setBytes_quarDue s a l
@[simp] theorem State.writeMem_rplUsed (s : State) (a : Nat) (l : List Byte) (p : Bool) : (s.writeMem a l p).rplUsed = s.rplUsed := State.setBytes_rplUsed s a l
@[simp] theorem State.writeMem_rdData (s : State) (a : Nat) (l : List Byte) (p : Bool) : (s.writeMem a l p).rdData = s.rdData := State.setBytes_rdData s a l
@[simp] theorem State.writeMem_rdStatus (s : State) (a : Nat) (l : List Byte) (p : Bool) : (s.writeMem a l p).rdStatus = s.rdStatus := State.setBytes_rdStatus s a l
@[simp] theorem State.writeMem_out (s : State) (a : Nat) (l : List Byte) (p : Bool) : (s.writeMem a l p).out = s.out := State.setBytes_out s a l
@[simp] theorem State.writeMem_free (s : State) (a : Nat) (l : List Byte) (p : Bool) : (s.writeMem a l p).free = s.free := State.setBytes_free s a l

-- emit
@[simp] theorem State.emit_pending (s : State) (o : Out) : (s.emit o).pending = s.pending := rfl
@[simp] theorem State.emit_now (s : State) (o : Out) : (s.emit o).now = s.now := rfl
@[simp] theorem State.emit_upTime (s : State) (o : Out) : (s.emit o).upTime = s.upTime := rfl
@[simp] theorem State.emit_frame (s : State) (o : Out) : (s.emit o).frame = s.frame := rfl
@[simp] theorem State.emit_curtainAt (s : State) (o : Out) : (s.emit o).curtainAt = s.curtainAt := rfl
@[simp] theorem State.emit_nominal (s : State) (o : Out) : (s.emit o).nominal = s.nominal := rfl
@[simp] theorem State.emit_curMode (s : State) (o : Out) : (s.emit o).curMode = s.curMode := rfl
@[simp] theorem State.emit_edgeAt (s : State) (o : Out) : (s.emit o).edgeAt = s.edgeAt := rfl
@[simp] theorem State.emit_clockFixed (s : State) (o : Out) : (s.emit o).clockFixed = s.clockFixed := rfl
@[simp] theorem State.emit_overpower (s : State) (o : Out) : (s.emit o).overpower = s.overpower := rfl
@[simp] theorem State.emit_closedFor (s : State) (o : Out) : (s.emit o).closedFor = s.closedFor := rfl
@[simp] theorem State.emit_guardOn (s : State) (o : Out) : (s.emit o).guardOn = s.guardOn := rfl
@[simp] theorem State.emit_refreshOn (s : State) (o : Out) : (s.emit o).refreshOn = s.refreshOn := rfl
@[simp] theorem State.emit_regs (s : State) (o : Out) : (s.emit o).regs = s.regs := rfl
@[simp] theorem State.emit_hiCap (s : State) (o : Out) : (s.emit o).hiCap = s.hiCap := rfl
@[simp] theorem State.emit_loWr (s : State) (o : Out) : (s.emit o).loWr = s.loWr := rfl
@[simp] theorem State.emit_cnt (s : State) (o : Out) : (s.emit o).cnt = s.cnt := rfl
@[simp] theorem State.emit_mem (s : State) (o : Out) : (s.emit o).mem = s.mem := rfl
@[simp] theorem State.emit_poison (s : State) (o : Out) : (s.emit o).poison = s.poison := rfl
@[simp] theorem State.emit_ueRead (s : State) (o : Out) : (s.emit o).ueRead = s.ueRead := rfl
@[simp] theorem State.emit_host (s : State) (o : Out) : (s.emit o).host = s.host := rfl
@[simp] theorem State.emit_hostPoison (s : State) (o : Out) : (s.emit o).hostPoison = s.hostPoison := rfl
@[simp] theorem State.emit_inflight (s : State) (o : Out) : (s.emit o).inflight = s.inflight := rfl
@[simp] theorem State.emit_signals (s : State) (o : Out) : (s.emit o).signals = s.signals := rfl
@[simp] theorem State.emit_nextCmd (s : State) (o : Out) : (s.emit o).nextCmd = s.nextCmd := rfl
@[simp] theorem State.emit_landObs (s : State) (o : Out) : (s.emit o).landObs = s.landObs := rfl
@[simp] theorem State.emit_errCmds (s : State) (o : Out) : (s.emit o).errCmds = s.errCmds := rfl
@[simp] theorem State.emit_cores (s : State) (o : Out) : (s.emit o).cores = s.cores := rfl
@[simp] theorem State.emit_cb (s : State) (o : Out) : (s.emit o).cb = s.cb := rfl
@[simp] theorem State.emit_cbForce (s : State) (o : Out) : (s.emit o).cbForce = s.cbForce := rfl
@[simp] theorem State.emit_reqs (s : State) (o : Out) : (s.emit o).reqs = s.reqs := rfl
@[simp] theorem State.emit_steps (s : State) (o : Out) : (s.emit o).steps = s.steps := rfl
@[simp] theorem State.emit_deliveries (s : State) (o : Out) : (s.emit o).deliveries = s.deliveries := rfl
@[simp] theorem State.emit_heldActs (s : State) (o : Out) : (s.emit o).heldActs = s.heldActs := rfl
@[simp] theorem State.emit_used (s : State) (o : Out) : (s.emit o).used = s.used := rfl
@[simp] theorem State.emit_admitted (s : State) (o : Out) : (s.emit o).admitted = s.admitted := rfl
@[simp] theorem State.emit_fwd (s : State) (o : Out) : (s.emit o).fwd = s.fwd := rfl
@[simp] theorem State.emit_gapPend (s : State) (o : Out) : (s.emit o).gapPend = s.gapPend := rfl
@[simp] theorem State.emit_doomed (s : State) (o : Out) : (s.emit o).doomed = s.doomed := rfl
@[simp] theorem State.emit_deferSyn (s : State) (o : Out) : (s.emit o).deferSyn = s.deferSyn := rfl
@[simp] theorem State.emit_postponed (s : State) (o : Out) : (s.emit o).postponed = s.postponed := rfl
@[simp] theorem State.emit_itkStop (s : State) (o : Out) : (s.emit o).itkStop = s.itkStop := rfl
@[simp] theorem State.emit_itkTurn (s : State) (o : Out) : (s.emit o).itkTurn = s.itkTurn := rfl
@[simp] theorem State.emit_itkKept (s : State) (o : Out) : (s.emit o).itkKept = s.itkKept := rfl
@[simp] theorem State.emit_itkNext (s : State) (o : Out) : (s.emit o).itkNext = s.itkNext := rfl
@[simp] theorem State.emit_backlog (s : State) (o : Out) : (s.emit o).backlog = s.backlog := rfl
@[simp] theorem State.emit_egrDropped (s : State) (o : Out) : (s.emit o).egrDropped = s.egrDropped := rfl
@[simp] theorem State.emit_egrSeq (s : State) (o : Out) : (s.emit o).egrSeq = s.egrSeq := rfl
@[simp] theorem State.emit_egrCount (s : State) (o : Out) : (s.emit o).egrCount = s.egrCount := rfl
@[simp] theorem State.emit_egrOwed (s : State) (o : Out) : (s.emit o).egrOwed = s.egrOwed := rfl
@[simp] theorem State.emit_actA (s : State) (o : Out) : (s.emit o).actA = s.actA := rfl
@[simp] theorem State.emit_actS (s : State) (o : Out) : (s.emit o).actS = s.actS := rfl
@[simp] theorem State.emit_asnA (s : State) (o : Out) : (s.emit o).asnA = s.asnA := rfl
@[simp] theorem State.emit_asnS (s : State) (o : Out) : (s.emit o).asnS = s.asnS := rfl
@[simp] theorem State.emit_grpA (s : State) (o : Out) : (s.emit o).grpA = s.grpA := rfl
@[simp] theorem State.emit_grpS (s : State) (o : Out) : (s.emit o).grpS = s.grpS := rfl
@[simp] theorem State.emit_swap (s : State) (o : Out) : (s.emit o).swap = s.swap := rfl
@[simp] theorem State.emit_swapReq (s : State) (o : Out) : (s.emit o).swapReq = s.swapReq := rfl
@[simp] theorem State.emit_rgnLive (s : State) (o : Out) : (s.emit o).rgnLive = s.rgnLive := rfl
@[simp] theorem State.emit_rgnPend (s : State) (o : Out) : (s.emit o).rgnPend = s.rgnPend := rfl
@[simp] theorem State.emit_attrLive (s : State) (o : Out) : (s.emit o).attrLive = s.attrLive := rfl
@[simp] theorem State.emit_attrPend (s : State) (o : Out) : (s.emit o).attrPend = s.attrPend := rfl
@[simp] theorem State.emit_publishing (s : State) (o : Out) : (s.emit o).publishing = s.publishing := rfl
@[simp] theorem State.emit_updSeeds (s : State) (o : Out) : (s.emit o).updSeeds = s.updSeeds := rfl
@[simp] theorem State.emit_etas (s : State) (o : Out) : (s.emit o).etas = s.etas := rfl
@[simp] theorem State.emit_grpRuns (s : State) (o : Out) : (s.emit o).grpRuns = s.grpRuns := rfl
@[simp] theorem State.emit_uncommitted (s : State) (o : Out) : (s.emit o).uncommitted = s.uncommitted := rfl
@[simp] theorem State.emit_numTot (s : State) (o : Out) : (s.emit o).numTot = s.numTot := rfl
@[simp] theorem State.emit_lgrBuf (s : State) (o : Out) : (s.emit o).lgrBuf = s.lgrBuf := rfl
@[simp] theorem State.emit_lgrSerial (s : State) (o : Out) : (s.emit o).lgrSerial = s.lgrSerial := rfl
@[simp] theorem State.emit_lgrMark (s : State) (o : Out) : (s.emit o).lgrMark = s.lgrMark := rfl
@[simp] theorem State.emit_lgrOwing (s : State) (o : Out) : (s.emit o).lgrOwing = s.lgrOwing := rfl
@[simp] theorem State.emit_prioStk (s : State) (o : Out) : (s.emit o).prioStk = s.prioStk := rfl
@[simp] theorem State.emit_holdoff (s : State) (o : Out) : (s.emit o).holdoff = s.holdoff := rfl
@[simp] theorem State.emit_loadErr (s : State) (o : Out) : (s.emit o).loadErr = s.loadErr := rfl
@[simp] theorem State.emit_replaced (s : State) (o : Out) : (s.emit o).replaced = s.replaced := rfl
@[simp] theorem State.emit_merges (s : State) (o : Out) : (s.emit o).merges = s.merges := rfl
@[simp] theorem State.emit_copies (s : State) (o : Out) : (s.emit o).copies = s.copies := rfl
@[simp] theorem State.emit_scrub (s : State) (o : Out) : (s.emit o).scrub = s.scrub := rfl
@[simp] theorem State.emit_bdma (s : State) (o : Out) : (s.emit o).bdma = s.bdma := rfl
@[simp] theorem State.emit_bdmaReq (s : State) (o : Out) : (s.emit o).bdmaReq = s.bdmaReq := rfl
@[simp] theorem State.emit_fabIn (s : State) (o : Out) : (s.emit o).fabIn = s.fabIn := rfl
@[simp] theorem State.emit_fabOut (s : State) (o : Out) : (s.emit o).fabOut = s.fabOut := rfl
@[simp] theorem State.emit_fabAns (s : State) (o : Out) : (s.emit o).fabAns = s.fabAns := rfl
@[simp] theorem State.emit_nextTag (s : State) (o : Out) : (s.emit o).nextTag = s.nextTag := rfl
@[simp] theorem State.emit_links (s : State) (o : Out) : (s.emit o).links = s.links := rfl
@[simp] theorem State.emit_log (s : State) (o : Out) : (s.emit o).log = s.log := rfl
@[simp] theorem State.emit_logNext (s : State) (o : Out) : (s.emit o).logNext = s.logNext := rfl
@[simp] theorem State.emit_ports (s : State) (o : Out) : (s.emit o).ports = s.ports := rfl
@[simp] theorem State.emit_sensors (s : State) (o : Out) : (s.emit o).sensors = s.sensors := rfl
@[simp] theorem State.emit_secAt (s : State) (o : Out) : (s.emit o).secAt = s.secAt := rfl
@[simp] theorem State.emit_committedSec (s : State) (o : Out) : (s.emit o).committedSec = s.committedSec := rfl
@[simp] theorem State.emit_lateSec (s : State) (o : Out) : (s.emit o).lateSec = s.lateSec := rfl
@[simp] theorem State.emit_deadlineFor (s : State) (o : Out) : (s.emit o).deadlineFor = s.deadlineFor := rfl
@[simp] theorem State.emit_beatAt (s : State) (o : Out) : (s.emit o).beatAt = s.beatAt := rfl
@[simp] theorem State.emit_sampled (s : State) (o : Out) : (s.emit o).sampled = s.sampled := rfl
@[simp] theorem State.emit_rot (s : State) (o : Out) : (s.emit o).rot = s.rot := rfl
@[simp] theorem State.emit_prodBad (s : State) (o : Out) : (s.emit o).prodBad = s.prodBad := rfl
@[simp] theorem State.emit_grade (s : State) (o : Out) : (s.emit o).grade = s.grade := rfl
@[simp] theorem State.emit_siteBad (s : State) (o : Out) : (s.emit o).siteBad = s.siteBad := rfl
@[simp] theorem State.emit_mid (s : State) (o : Out) : (s.emit o).mid = s.mid := rfl
@[simp] theorem State.emit_pcie (s : State) (o : Out) : (s.emit o).pcie = s.pcie := rfl
@[simp] theorem State.emit_pins (s : State) (o : Out) : (s.emit o).pins = s.pins := rfl
@[simp] theorem State.emit_resetting (s : State) (o : Out) : (s.emit o).resetting = s.resetting := rfl
@[simp] theorem State.emit_resetAt (s : State) (o : Out) : (s.emit o).resetAt = s.resetAt := rfl
@[simp] theorem State.emit_softOwed (s : State) (o : Out) : (s.emit o).softOwed = s.softOwed := rfl
@[simp] theorem State.emit_softStage (s : State) (o : Out) : (s.emit o).softStage = s.softStage := rfl
@[simp] theorem State.emit_execOff (s : State) (o : Out) : (s.emit o).execOff = s.execOff := rfl
@[simp] theorem State.emit_selfRefresh (s : State) (o : Out) : (s.emit o).selfRefresh = s.selfRefresh := rfl
@[simp] theorem State.emit_clkGated (s : State) (o : Out) : (s.emit o).clkGated = s.clkGated := rfl
@[simp] theorem State.emit_wattSum (s : State) (o : Out) : (s.emit o).wattSum = s.wattSum := rfl
@[simp] theorem State.emit_wattAt (s : State) (o : Out) : (s.emit o).wattAt = s.wattAt := rfl
@[simp] theorem State.emit_exc (s : State) (o : Out) : (s.emit o).exc = s.exc := rfl
@[simp] theorem State.emit_preqPend (s : State) (o : Out) : (s.emit o).preqPend = s.preqPend := rfl
@[simp] theorem State.emit_d3Pend (s : State) (o : Out) : (s.emit o).d3Pend = s.d3Pend := rfl
@[simp] theorem State.emit_rehOff (s : State) (o : Out) : (s.emit o).rehOff = s.rehOff := rfl
@[simp] theorem State.emit_disag (s : State) (o : Out) : (s.emit o).disag = s.disag := rfl
@[simp] theorem State.emit_quarDue (s : State) (o : Out) : (s.emit o).quarDue = s.quarDue := rfl
@[simp] theorem State.emit_rplUsed (s : State) (o : Out) : (s.emit o).rplUsed = s.rplUsed := rfl
@[simp] theorem State.emit_rdData (s : State) (o : Out) : (s.emit o).rdData = s.rdData := rfl
@[simp] theorem State.emit_rdStatus (s : State) (o : Out) : (s.emit o).rdStatus = s.rdStatus := rfl
@[simp] theorem State.emit_free (s : State) (o : Out) : (s.emit o).free = s.free := rfl

-- settle
@[simp] theorem State.settle_pending (s : State)  : (s.settle).pending = s.pending := rfl
@[simp] theorem State.settle_now (s : State)  : (s.settle).now = s.now := rfl
@[simp] theorem State.settle_upTime (s : State)  : (s.settle).upTime = s.upTime := rfl
@[simp] theorem State.settle_frame (s : State)  : (s.settle).frame = s.frame := rfl
@[simp] theorem State.settle_curtainAt (s : State)  : (s.settle).curtainAt = s.curtainAt := rfl
@[simp] theorem State.settle_nominal (s : State)  : (s.settle).nominal = s.nominal := rfl
@[simp] theorem State.settle_curMode (s : State)  : (s.settle).curMode = s.curMode := rfl
@[simp] theorem State.settle_edgeAt (s : State)  : (s.settle).edgeAt = s.edgeAt := rfl
@[simp] theorem State.settle_clockFixed (s : State)  : (s.settle).clockFixed = s.clockFixed := rfl
@[simp] theorem State.settle_overpower (s : State)  : (s.settle).overpower = s.overpower := rfl
@[simp] theorem State.settle_closedFor (s : State)  : (s.settle).closedFor = s.closedFor := rfl
@[simp] theorem State.settle_guardOn (s : State)  : (s.settle).guardOn = s.guardOn := rfl
@[simp] theorem State.settle_refreshOn (s : State)  : (s.settle).refreshOn = s.refreshOn := rfl
@[simp] theorem State.settle_regs (s : State)  : (s.settle).regs = s.regs := rfl
@[simp] theorem State.settle_hiCap (s : State)  : (s.settle).hiCap = s.hiCap := rfl
@[simp] theorem State.settle_loWr (s : State)  : (s.settle).loWr = s.loWr := rfl
@[simp] theorem State.settle_cnt (s : State)  : (s.settle).cnt = s.cnt := rfl
@[simp] theorem State.settle_mem (s : State)  : (s.settle).mem = s.mem := rfl
@[simp] theorem State.settle_poison (s : State)  : (s.settle).poison = s.poison := rfl
@[simp] theorem State.settle_ueRead (s : State)  : (s.settle).ueRead = s.ueRead := rfl
@[simp] theorem State.settle_host (s : State)  : (s.settle).host = s.host := rfl
@[simp] theorem State.settle_hostPoison (s : State)  : (s.settle).hostPoison = s.hostPoison := rfl
@[simp] theorem State.settle_inflight (s : State)  : (s.settle).inflight = s.inflight := rfl
@[simp] theorem State.settle_signals (s : State)  : (s.settle).signals = s.signals := rfl
@[simp] theorem State.settle_nextCmd (s : State)  : (s.settle).nextCmd = s.nextCmd := rfl
@[simp] theorem State.settle_landObs (s : State)  : (s.settle).landObs = s.landObs := rfl
@[simp] theorem State.settle_errCmds (s : State)  : (s.settle).errCmds = s.errCmds := rfl
@[simp] theorem State.settle_cores (s : State)  : (s.settle).cores = s.cores := rfl
@[simp] theorem State.settle_cb (s : State)  : (s.settle).cb = s.cb := rfl
@[simp] theorem State.settle_cbForce (s : State)  : (s.settle).cbForce = s.cbForce := rfl
@[simp] theorem State.settle_reqs (s : State)  : (s.settle).reqs = s.reqs := rfl
@[simp] theorem State.settle_steps (s : State)  : (s.settle).steps = s.steps := rfl
@[simp] theorem State.settle_deliveries (s : State)  : (s.settle).deliveries = s.deliveries := rfl
@[simp] theorem State.settle_heldActs (s : State)  : (s.settle).heldActs = s.heldActs := rfl
@[simp] theorem State.settle_used (s : State)  : (s.settle).used = s.used := rfl
@[simp] theorem State.settle_admitted (s : State)  : (s.settle).admitted = s.admitted := rfl
@[simp] theorem State.settle_fwd (s : State)  : (s.settle).fwd = s.fwd := rfl
@[simp] theorem State.settle_gapPend (s : State)  : (s.settle).gapPend = s.gapPend := rfl
@[simp] theorem State.settle_doomed (s : State)  : (s.settle).doomed = s.doomed := rfl
@[simp] theorem State.settle_deferSyn (s : State)  : (s.settle).deferSyn = s.deferSyn := rfl
@[simp] theorem State.settle_postponed (s : State)  : (s.settle).postponed = s.postponed := rfl
@[simp] theorem State.settle_itkStop (s : State)  : (s.settle).itkStop = s.itkStop := rfl
@[simp] theorem State.settle_itkTurn (s : State)  : (s.settle).itkTurn = s.itkTurn := rfl
@[simp] theorem State.settle_itkKept (s : State)  : (s.settle).itkKept = s.itkKept := rfl
@[simp] theorem State.settle_itkNext (s : State)  : (s.settle).itkNext = s.itkNext := rfl
@[simp] theorem State.settle_backlog (s : State)  : (s.settle).backlog = s.backlog := rfl
@[simp] theorem State.settle_egrDropped (s : State)  : (s.settle).egrDropped = s.egrDropped := rfl
@[simp] theorem State.settle_egrSeq (s : State)  : (s.settle).egrSeq = s.egrSeq := rfl
@[simp] theorem State.settle_egrCount (s : State)  : (s.settle).egrCount = s.egrCount := rfl
@[simp] theorem State.settle_egrOwed (s : State)  : (s.settle).egrOwed = s.egrOwed := rfl
@[simp] theorem State.settle_actA (s : State)  : (s.settle).actA = s.actA := rfl
@[simp] theorem State.settle_actS (s : State)  : (s.settle).actS = s.actS := rfl
@[simp] theorem State.settle_asnA (s : State)  : (s.settle).asnA = s.asnA := rfl
@[simp] theorem State.settle_asnS (s : State)  : (s.settle).asnS = s.asnS := rfl
@[simp] theorem State.settle_grpA (s : State)  : (s.settle).grpA = s.grpA := rfl
@[simp] theorem State.settle_grpS (s : State)  : (s.settle).grpS = s.grpS := rfl
@[simp] theorem State.settle_swap (s : State)  : (s.settle).swap = s.swap := rfl
@[simp] theorem State.settle_swapReq (s : State)  : (s.settle).swapReq = s.swapReq := rfl
@[simp] theorem State.settle_rgnLive (s : State)  : (s.settle).rgnLive = s.rgnLive := rfl
@[simp] theorem State.settle_rgnPend (s : State)  : (s.settle).rgnPend = s.rgnPend := rfl
@[simp] theorem State.settle_attrLive (s : State)  : (s.settle).attrLive = s.attrLive := rfl
@[simp] theorem State.settle_attrPend (s : State)  : (s.settle).attrPend = s.attrPend := rfl
@[simp] theorem State.settle_publishing (s : State)  : (s.settle).publishing = s.publishing := rfl
@[simp] theorem State.settle_updSeeds (s : State)  : (s.settle).updSeeds = s.updSeeds := rfl
@[simp] theorem State.settle_etas (s : State)  : (s.settle).etas = s.etas := rfl
@[simp] theorem State.settle_grpRuns (s : State)  : (s.settle).grpRuns = s.grpRuns := rfl
@[simp] theorem State.settle_uncommitted (s : State)  : (s.settle).uncommitted = s.uncommitted := rfl
@[simp] theorem State.settle_numTot (s : State)  : (s.settle).numTot = s.numTot := rfl
@[simp] theorem State.settle_lgrBuf (s : State)  : (s.settle).lgrBuf = s.lgrBuf := rfl
@[simp] theorem State.settle_lgrSerial (s : State)  : (s.settle).lgrSerial = s.lgrSerial := rfl
@[simp] theorem State.settle_lgrMark (s : State)  : (s.settle).lgrMark = s.lgrMark := rfl
@[simp] theorem State.settle_lgrOwing (s : State)  : (s.settle).lgrOwing = s.lgrOwing := rfl
@[simp] theorem State.settle_prioStk (s : State)  : (s.settle).prioStk = s.prioStk := rfl
@[simp] theorem State.settle_holdoff (s : State)  : (s.settle).holdoff = s.holdoff := rfl
@[simp] theorem State.settle_loadErr (s : State)  : (s.settle).loadErr = s.loadErr := rfl
@[simp] theorem State.settle_replaced (s : State)  : (s.settle).replaced = s.replaced := rfl
@[simp] theorem State.settle_merges (s : State)  : (s.settle).merges = s.merges := rfl
@[simp] theorem State.settle_copies (s : State)  : (s.settle).copies = s.copies := rfl
@[simp] theorem State.settle_scrub (s : State)  : (s.settle).scrub = s.scrub := rfl
@[simp] theorem State.settle_bdma (s : State)  : (s.settle).bdma = s.bdma := rfl
@[simp] theorem State.settle_bdmaReq (s : State)  : (s.settle).bdmaReq = s.bdmaReq := rfl
@[simp] theorem State.settle_fabIn (s : State)  : (s.settle).fabIn = s.fabIn := rfl
@[simp] theorem State.settle_fabOut (s : State)  : (s.settle).fabOut = s.fabOut := rfl
@[simp] theorem State.settle_fabAns (s : State)  : (s.settle).fabAns = s.fabAns := rfl
@[simp] theorem State.settle_nextTag (s : State)  : (s.settle).nextTag = s.nextTag := rfl
@[simp] theorem State.settle_links (s : State)  : (s.settle).links = s.links := rfl
@[simp] theorem State.settle_log (s : State)  : (s.settle).log = s.log := rfl
@[simp] theorem State.settle_logNext (s : State)  : (s.settle).logNext = s.logNext := rfl
@[simp] theorem State.settle_ports (s : State)  : (s.settle).ports = s.ports := rfl
@[simp] theorem State.settle_sensors (s : State)  : (s.settle).sensors = s.sensors := rfl
@[simp] theorem State.settle_secAt (s : State)  : (s.settle).secAt = s.secAt := rfl
@[simp] theorem State.settle_committedSec (s : State)  : (s.settle).committedSec = s.committedSec := rfl
@[simp] theorem State.settle_lateSec (s : State)  : (s.settle).lateSec = s.lateSec := rfl
@[simp] theorem State.settle_deadlineFor (s : State)  : (s.settle).deadlineFor = s.deadlineFor := rfl
@[simp] theorem State.settle_beatAt (s : State)  : (s.settle).beatAt = s.beatAt := rfl
@[simp] theorem State.settle_sampled (s : State)  : (s.settle).sampled = s.sampled := rfl
@[simp] theorem State.settle_rot (s : State)  : (s.settle).rot = s.rot := rfl
@[simp] theorem State.settle_prodBad (s : State)  : (s.settle).prodBad = s.prodBad := rfl
@[simp] theorem State.settle_grade (s : State)  : (s.settle).grade = s.grade := rfl
@[simp] theorem State.settle_siteBad (s : State)  : (s.settle).siteBad = s.siteBad := rfl
@[simp] theorem State.settle_mid (s : State)  : (s.settle).mid = s.mid := rfl
@[simp] theorem State.settle_pcie (s : State)  : (s.settle).pcie = s.pcie := rfl
@[simp] theorem State.settle_resetting (s : State)  : (s.settle).resetting = s.resetting := rfl
@[simp] theorem State.settle_resetAt (s : State)  : (s.settle).resetAt = s.resetAt := rfl
@[simp] theorem State.settle_softOwed (s : State)  : (s.settle).softOwed = s.softOwed := rfl
@[simp] theorem State.settle_softStage (s : State)  : (s.settle).softStage = s.softStage := rfl
@[simp] theorem State.settle_execOff (s : State)  : (s.settle).execOff = s.execOff := rfl
@[simp] theorem State.settle_selfRefresh (s : State)  : (s.settle).selfRefresh = s.selfRefresh := rfl
@[simp] theorem State.settle_clkGated (s : State)  : (s.settle).clkGated = s.clkGated := rfl
@[simp] theorem State.settle_wattSum (s : State)  : (s.settle).wattSum = s.wattSum := rfl
@[simp] theorem State.settle_wattAt (s : State)  : (s.settle).wattAt = s.wattAt := rfl
@[simp] theorem State.settle_exc (s : State)  : (s.settle).exc = s.exc := rfl
@[simp] theorem State.settle_preqPend (s : State)  : (s.settle).preqPend = s.preqPend := rfl
@[simp] theorem State.settle_d3Pend (s : State)  : (s.settle).d3Pend = s.d3Pend := rfl
@[simp] theorem State.settle_rehOff (s : State)  : (s.settle).rehOff = s.rehOff := rfl
@[simp] theorem State.settle_disag (s : State)  : (s.settle).disag = s.disag := rfl
@[simp] theorem State.settle_quarDue (s : State)  : (s.settle).quarDue = s.quarDue := rfl
@[simp] theorem State.settle_rplUsed (s : State)  : (s.settle).rplUsed = s.rplUsed := rfl
@[simp] theorem State.settle_rdData (s : State)  : (s.settle).rdData = s.rdData := rfl
@[simp] theorem State.settle_rdStatus (s : State)  : (s.settle).rdStatus = s.rdStatus := rfl
@[simp] theorem State.settle_out (s : State)  : (s.settle).out = s.out := rfl
@[simp] theorem State.settle_free (s : State)  : (s.settle).free = s.free := rfl

end Sys2Proof.Machine
end

