-- ==== Sys2Proof/Laws/Regs.lean ====
section
/-! SUPPORT. Fields of registers and cores: reads after writes. -/

namespace Sys2Proof

theorem bitsOf_lt (n lo w : Nat) : bitsOf n lo w < 2 ^ w := Nat.mod_lt _ (by positivity)

/-- A number as the part above a field, the field and the part below. -/
theorem bits_split (n lo w : Nat) : n = n / 2 ^ (lo + w) * 2 ^ (lo + w) + bitsOf n lo w * 2 ^ lo + n % 2 ^ lo := by
  have h1 : n = n / 2 ^ lo * 2 ^ lo + n % 2 ^ lo := by
    rw [Nat.mul_comm]; exact (Nat.div_add_mod n (2 ^ lo)).symm
  have h2 : n / 2 ^ lo = n / 2 ^ lo / 2 ^ w * 2 ^ w + n / 2 ^ lo % 2 ^ w := by
    rw [Nat.mul_comm]; exact (Nat.div_add_mod _ _).symm
  have h3 : n / 2 ^ lo / 2 ^ w = n / 2 ^ (lo + w) := by rw [Nat.div_div_eq_div_mul, pow_add]
  unfold bitsOf
  rw [Nat.shiftRight_eq_div_pow]
  calc n = n / 2 ^ lo * 2 ^ lo + n % 2 ^ lo := h1
    _ = (n / 2 ^ lo / 2 ^ w * 2 ^ w + n / 2 ^ lo % 2 ^ w) * 2 ^ lo + n % 2 ^ lo := by rw [← h2]
    _ = n / 2 ^ (lo + w) * 2 ^ (lo + w) + n / 2 ^ lo % 2 ^ w * 2 ^ lo + n % 2 ^ lo := by
      rw [h3, pow_add]; ring

/-- A number with a field replaced, in the same three parts. -/
theorem setBits_split (n lo w v : Nat) :
    setBits n lo w v = n / 2 ^ (lo + w) * 2 ^ (lo + w) + v % 2 ^ w * 2 ^ lo + n % 2 ^ lo := by
  have h := bits_split n lo w
  unfold setBits
  rw [Nat.shiftLeft_eq, Nat.shiftLeft_eq]
  omega

theorem parts_div (h m l lo w : Nat) (hl : l < 2 ^ lo) :
    (h * 2 ^ (lo + w) + m * 2 ^ lo + l) / 2 ^ lo = h * 2 ^ w + m := by
  have : h * 2 ^ (lo + w) + m * 2 ^ lo + l = l + 2 ^ lo * (h * 2 ^ w + m) := by rw [pow_add]; ring
  rw [this, Nat.add_mul_div_left _ _ (by positivity), Nat.div_eq_of_lt hl]
  omega

/-- A field read after it was written. -/
@[simp] theorem bitsOf_setBits (n lo w v : Nat) : bitsOf (setBits n lo w v) lo w = v % 2 ^ w := by
  rw [setBits_split]
  unfold bitsOf
  rw [Nat.shiftRight_eq_div_pow, parts_div _ _ _ _ _ (Nat.mod_lt _ (by positivity)),
    Nat.mul_comm, Nat.mul_add_mod, Nat.mod_mod]

theorem testBit_bitsOf (n lo w i : Nat) : (bitsOf n lo w).testBit i = (decide (i < w) && n.testBit (lo + i)) := by
  unfold bitsOf
  rw [Nat.testBit_mod_two_pow, Nat.testBit_shiftRight]

/-- Bits of a number with a field replaced. -/
theorem testBit_setBits (n lo w v i : Nat) :
    (setBits n lo w v).testBit i = if lo ≤ i ∧ i < lo + w then v.testBit (i - lo) else n.testBit i := by
  have hm : v % 2 ^ w < 2 ^ w := Nat.mod_lt _ (by positivity)
  have hl : n % 2 ^ lo < 2 ^ lo := Nat.mod_lt _ (by positivity)
  have e : setBits n lo w v = 2 ^ lo * (2 ^ w * (n / 2 ^ (lo + w)) + v % 2 ^ w) + n % 2 ^ lo := by
    rw [setBits_split, pow_add]; ring
  rw [e, Nat.testBit_two_pow_mul_add _ hl, Nat.testBit_mod_two_pow]
  by_cases h1 : i < lo
  · have : ¬ (lo ≤ i ∧ i < lo + w) := by omega
    simp [h1, this]
  · rw [if_neg h1, Nat.testBit_two_pow_mul_add _ hm, Nat.testBit_mod_two_pow, Nat.testBit_div_two_pow]
    by_cases h2 : i - lo < w
    · have : lo ≤ i ∧ i < lo + w := by omega
      simp [h2, this]
    · have h3 : ¬ (lo ≤ i ∧ i < lo + w) := by omega
      have h5 : i - lo - w + (lo + w) = i := by omega
      simp [h2, h3, h5]

/-- A field beside the one written reads as before. -/
theorem bitsOf_setBits_ne (n lo w v lo' w' : Nat) (h : lo' + w' ≤ lo ∨ lo + w ≤ lo') :
    bitsOf (setBits n lo w v) lo' w' = bitsOf n lo' w' := by
  apply Nat.eq_of_testBit_eq
  intro i
  rw [testBit_bitsOf, testBit_bitsOf, testBit_setBits]
  by_cases hi : i < w'
  · have : ¬ (lo ≤ lo' + i ∧ lo' + i < lo + w) := by omega
    simp [this]
  · simp [hi]

theorem bitsOf_mod (n lo w k : Nat) (h : lo + w ≤ k) : bitsOf (n % 2 ^ k) lo w = bitsOf n lo w := by
  apply Nat.eq_of_testBit_eq
  intro i
  rw [testBit_bitsOf, testBit_bitsOf, Nat.testBit_mod_two_pow]
  by_cases hi : i < w
  · have : lo + i < k := by omega
    simp [this]
  · simp [hi]

end Sys2Proof

namespace Sys2Proof.Machine

/-- The field lies in a 32-bit register. -/
def RF.ok (f : RF) : Prop := f.lo ≤ f.hi ∧ f.hi < 32

/-- Two fields of one register share no bit. -/
def RF.apart (f g : RF) : Prop := f.hi < g.lo ∨ g.hi < f.lo

@[simp] theorem State.rg_setRg (s : State) (k v : Nat) : (s.setRg k v).rg k = v % 2 ^ 32 := by
  simp [State.rg, State.setRg]

theorem State.rg_setRg_ne (s : State) {k j : Nat} (h : j ≠ k) (v : Nat) : (s.setRg k v).rg j = s.rg j := by
  simp only [State.rg, State.setRg]
  rw [get_put_ne' _ _ _ h]

/-- A field read after it was written. -/
theorem State.fldAt_setFldAt (s : State) (k : Nat) (f : RF) (v : Nat) (h : f.ok) :
    (s.setFldAt k f v).fldAt k f = v % 2 ^ (f.hi - f.lo + 1) := by
  have h1 : f.lo + (f.hi - f.lo + 1) ≤ 32 := by unfold RF.ok at h; omega
  simp only [State.fldAt, State.setFldAt, State.rg_setRg]
  rw [bitsOf_mod _ _ _ _ h1, bitsOf_setBits]

/-- Another field of the same register. -/
theorem State.fldAt_setFldAt_apart (s : State) (k : Nat) (f g : RF) (v : Nat) (hf : f.ok) (hg : g.ok) (h : f.apart g) :
    (s.setFldAt k f v).fldAt k g = s.fldAt k g := by
  have h1 : g.lo + (g.hi - g.lo + 1) ≤ 32 := by unfold RF.ok at hg; omega
  simp only [State.fldAt, State.setFldAt, State.rg_setRg]
  rw [bitsOf_mod _ _ _ _ h1, bitsOf_setBits_ne]
  unfold RF.apart at h
  unfold RF.ok at hf hg
  omega

/-- A field of another register. -/
theorem State.fldAt_setFldAt_ne (s : State) {k j : Nat} (h : j ≠ k) (f g : RF) (v : Nat) :
    (s.setFldAt k f v).fldAt j g = s.fldAt j g := by
  simp only [State.fldAt, State.setFldAt]
  rw [State.rg_setRg_ne s h]

theorem State.fld_setFld (s : State) (d : Nat) (f : RF) (v : Nat) (h : f.ok) :
    (s.setFld d f v).fld d f = v % 2 ^ (f.hi - f.lo + 1) := State.fldAt_setFldAt s _ f v h

theorem State.cfld_setCfld (s : State) (site : Nat) (f : RF) (v : Nat) (h : f.ok) :
    (s.setCfld site f v).cfld site f = v % 2 ^ (f.hi - f.lo + 1) := State.fldAt_setFldAt s _ f v h

/-- Registers of another address. -/
theorem State.fld_setFld_ne (s : State) (d e : Nat) (f g : RF) (v : Nat) (h : dkey e g.off ≠ dkey d f.off) :
    (s.setFld d f v).fld e g = s.fld e g := State.fldAt_setFldAt_ne s h f g v

/-- Another field of the same address. -/
theorem State.fld_setFld_apart (s : State) (d : Nat) (f g : RF) (v : Nat) (hf : f.ok) (hg : g.ok) (ho : f.off = g.off)
    (h : f.apart g) : (s.setFld d f v).fld d g = s.fld d g := by
  unfold State.setFld State.fld
  rw [ho]
  exact State.fldAt_setFldAt_apart s _ f g v hf hg h

-- cores and threads

@[simp] theorem State.core_setCore (s : State) (k : Nat) (c : Core) : (s.setCore k c).core k = c := by
  simp [State.core, State.setCore]

theorem State.core_setCore_ne (s : State) {k j : Nat} (h : j ≠ k) (c : Core) : (s.setCore k c).core j = s.core j := by
  simp only [State.core, State.setCore]
  rw [get_put_ne _ _ h]

@[simp] theorem State.core_modCore (s : State) (k : Nat) (f : Core → Core) : (s.modCore k f).core k = f (s.core k) := by
  simp [State.modCore]

theorem State.core_modCore_ne (s : State) {k j : Nat} (h : j ≠ k) (f : Core → Core) : (s.modCore k f).core j = s.core j :=
  State.core_setCore_ne s h _

@[simp] theorem State.core_modThr (s : State) (k : Nat) (t : Fin 4) (f : Thread → Thread) :
    (s.modThr k t f).core k = { s.core k with th := (s.core k).th.set t (f (s.core k).th[t]) } := by
  simp [State.modThr]

theorem State.core_modThr_ne (s : State) {k j : Nat} (h : j ≠ k) (t : Fin 4) (f : Thread → Thread) :
    (s.modThr k t f).core j = s.core j := State.core_modCore_ne s h _

@[simp] theorem State.thr_modThr (s : State) (k : Nat) (t : Fin 4) (f : Thread → Thread) :
    (s.modThr k t f).thr k t = f (s.thr k t) := by
  simp [State.thr]

theorem State.thr_modThr_other (s : State) (k : Nat) {t u : Fin 4} (h : u ≠ t) (f : Thread → Thread) :
    (s.modThr k t f).thr k u = s.thr k u := by
  have h1 : t.val ≠ u.val := fun e => h (Fin.ext e.symm)
  simp [State.thr, h1]

theorem State.thr_modThr_ne (s : State) {k j : Nat} (h : j ≠ k) (t u : Fin 4) (f : Thread → Thread) :
    (s.modThr k t f).thr j u = s.thr j u := by
  simp only [State.thr]
  rw [State.core_modThr_ne s h]

-- counters

@[simp] theorem State.counter_setCounter (s : State) (u d x v : Nat) : (s.setCounter u d x v).counter u d x = v := by
  simp [State.counter, State.setCounter]

@[simp] theorem State.counter_count (s : State) (u d x w n : Nat) :
    (s.count u d x w n).counter u d x = satAdd w (s.counter u d x) n := by
  simp [State.count]

end Sys2Proof.Machine
end

