-- ==== Sys2Proof/Laws/Frames.lean ====
section
/-! SUPPORT. What each shared operation of Machine/Ops.lean can change, said once: `Light` for those that touch registers, counters
and metered use alone. -/

namespace Sys2Proof.Machine

/-- Only registers, counters behind index registers, and metered use may differ. -/
def Light (s t : State) : Prop := { t with regs := s.regs, cnt := s.cnt, used := s.used } = s

theorem Light.refl (s : State) : Light s s := rfl

theorem Light.trans {s t u : State} (h : Light s t) (k : Light t u) : Light s u := by
  have h' := congrArg (fun x : State => { x with regs := s.regs, cnt := s.cnt, used := s.used }) k
  exact h'.trans h

/-- A fold of light operations is light. -/
theorem Light.foldl {α : Type} (f : State → α → State) (h : ∀ s a, Light s (f s a)) (l : List α) :
    ∀ s : State, Light s (l.foldl f s) := by
  induction l with
  | nil => intro s; exact Light.refl s
  | cons a t ih => intro s; exact (h s a).trans (ih _)

theorem State.setRg_light (s : State) (k v : Nat) : Light s (s.setRg k v) := rfl

theorem State.setFldAt_light (s : State) (k : Nat) (f : RF) (v : Nat) : Light s (s.setFldAt k f v) := s.setRg_light k _

theorem State.setFld_light (s : State) (d : Nat) (f : RF) (v : Nat) : Light s (s.setFld d f v) := s.setFldAt_light _ f v

theorem State.setCfld_light (s : State) (c : Nat) (f : RF) (v : Nat) : Light s (s.setCfld c f v) := s.setFldAt_light _ f v

theorem State.setRg64_light (s : State) (k v : Nat) : Light s (s.setRg64 k v) :=
  (s.setRg_light k _).trans (State.setRg_light _ _ _)

theorem State.countFld_light (s : State) (d : Nat) (f : RF) (n : Nat) : Light s (s.countFld d f n) := s.setFld_light d f _

theorem State.setCounter_light (s : State) (u d x v : Nat) : Light s (s.setCounter u d x v) := rfl

theorem State.count_light (s : State) (u d x w n : Nat) : Light s (s.count u d x w n) := s.setCounter_light u d x _

theorem State.raise_light (s : State) (d n : Nat) : Light s (s.raise d n) := by
  unfold State.raise
  split
  · exact s.setFld_light _ _ _
  · exact Light.refl s

theorem State.eventBit_light (s : State) (d off bit : Nat) : Light s (s.eventBit d off bit) := by
  unfold State.eventBit
  dsimp only
  split
  · exact Light.refl s
  · split
    · exact (s.setFld_light _ _ _).trans (State.raise_light _ _ _)
    · exact s.setFld_light _ _ _

theorem State.event_light (s : State) (d : Nat) (f : RF) : Light s (s.event d f) := s.eventBit_light d _ _

theorem State.violation_light (s : State) (d : Nat) : Light s (s.violation d) := s.raise_light d 647

theorem State.unmappedAt_light (s : State) (d a : Nat) : Light s (s.unmappedAt d a) :=
  (s.event_light d _).trans (State.setRg64_light _ _ _)

theorem State.meter_light (s : State) (a k p n : Nat) : Light s (s.meter a k p n) := by
  unfold State.meter
  split
  · exact Light.refl s
  · split <;> rfl

theorem State.carry_light (s : State) (a : Option Nat) (src dst n : Nat) : Light s (s.carry a src dst n) := by
  unfold State.carry
  dsimp only
  split
  · exact Light.refl s
  · split
    · exact Light.refl s
    · cases a with
      | none => exact s.count_light _ _ _ _ _
      | some a => exact (s.count_light _ _ _ _ _).trans (State.meter_light _ _ _ _ _)

theorem State.charge_light (s : State) (g n : Nat) (w : Bool) : Light s (s.charge g n w) := by
  unfold State.charge
  split
  · split
    · exact s.count_light _ _ _ _ _
    · exact Light.refl s
  · exact Light.refl s

/-- An access changes the accounts alone (R59, R257, R268). -/
theorem State.access_light (s : State) (a : Option Nat) (d g n : Nat) (w : Bool) : Light s (s.access a d g n w) := by
  unfold State.access
  dsimp only
  have h1 := s.charge_light g n w
  have h3 : Light s (if w = true then (s.charge g n w).carry a d (s.homeDie g) n else
      (s.charge g n w).carry a (s.homeDie g) d n) := by
    split
    · exact h1.trans (State.carry_light _ _ _ _ _)
    · exact h1.trans (State.carry_light _ _ _ _ _)
  split
  · exact h3.trans (State.meter_light _ _ _ _ _)
  · exact h3

-- what a light operation keeps

/-- What does not look at registers, counters and metered use is as it was: apply with `rfl` to a field of State. -/
theorem Light.same {s t : State} (h : Light s t) {α : Type} (f : State → α)
    (hf : ∀ (u : State) (r : SMap Word) (c : SMap Nat) (v : List (Nat × Nat × Nat × Nat)), f { u with regs := r, cnt := c, used := v } = f u) :
    f t = f s := by
  rw [← hf t s.regs s.cnt s.used, h]

-- the raised source and the event bit

/-- The end of every command settles the signal pins and answers the next state. -/
theorem done_eq (s : State) : done s = .next s.settle := rfl

/-- A source that is raised becomes pending, if the spec lists it (R335, R338). -/
theorem State.raise_pend (s : State) (d n : Nat) (h : srcListed n = true) : s.raise d n = s.setFld d (EVG_SRC_PEND n) 1 := by
  simp [State.raise, h]

end Sys2Proof.Machine
end

