-- ==== Sys2Proof/Laws/Bundles.lean ====
section
/-! SUPPORT. Bundles of one operation: from the effects an operation plans to the state its retirement leaves. -/

namespace Sys2Proof.Machine
/-- A command that reads as an operation issues it. -/
theorem issues {c : Instr} {s : State} {o : Op} (h : opOf c s = some o) :
    ∃ op : State → Op, op s = o ∧ ∀ u : State, opOf c u = some (op u) ∧ exec c u = done (u.issue c op) := by
  cases c <;> first | exact ⟨_, Option.some.inj h, fun _ => ⟨rfl, rfl⟩⟩ | cases h

/-- The bundle of one operation, evaluated. -/
def loneBun (s : State) (n : Instr) (i : Iss) (o : Op) : Bun := bunOf i.th ((Fetched.start_ (s.thr i.site i.th).pc).add n o) [o]

/-- The bundle that a thread without one gathers is new at its PC. -/
theorem Thread.bundle_start (x : Thread) (h : x.bun = none) : x.bundle = Fetched.start_ x.pc := by simp [Thread.bundle, h]

/-- A bundle of one operation decodes. -/
theorem Lone.noClash {s : State} {i : Iss} {acc : Accepts} {regs : List Nat} (h : Lone s i acc regs) (o : Op) (hi : o.iss = i)
    (ha : o.acc = acc) (pc : BitVec 16) : (Fetched.start_ pc).clash o = false := by
  have hl := h.legal
  have hlen : i.pfx.length ≤ 3 := by
    simp [Pre.legal, Iss.pre] at hl
    omega
  simp [Fetched.clash, Fetched.start_, hi, ha, hl]
  omega

/-- Without progress to resume an operation runs as it is (R180). -/
theorem Op.under_fresh (prog : Nat) (o : Op) (h : bitOf prog 31 = false) : o.under prog = o := by simp [Op.under, h]

/-- A bundle of one operation that need not wait, of state that is intact, is offered for retirement. -/
theorem State.issueAll_one (s : State) (site : Nat) (t : Fin 4) (f : Fetched) (eval : State → List Op) (o : Op) (he : eval s = [o])
    (hp : bitOf (s.thr site t).prog.toNat 31 = false) (hs : o.stuck (s.thr site t) = false) (hi : o.iss.broken = false)
    (hb : o.badRow = none) : s.issueAll site t f eval = some (s.retire site t (bunOf t f [o])) := by
  simp [State.issueAll, he, Op.under_fresh _ _ hp, hs, hi, hb]

/-- A command alone in its bundle whose operation comes to the plan p, meeting no row beyond correction. -/
def Asks (s : State) (op : State → Op) (i : Iss) (slot : Slot) (acc : Accepts) (regs : List Nat) (p : Plan) : Prop :=
  Lone s i acc regs ∧ ∃ (code : Option Nat) (dst : List Nat), op s = ⟨i, slot, acc, code, regs, dst, p, none⟩

/-- An operation read from its prefixes, alone in its bundle. -/
theorem Asks.of {s : State} {op : State → Op} {i : Iss} {slot : Slot} {acc : Accepts} {regs : List Nat} {p : Plan} (dst : List Nat)
    (body : Pre → Plan) (h : Lone s i acc regs) (ho : op s = .of i slot acc regs dst body) (hb : body (Iss.pre i) = p) :
    Asks s op i slot acc regs p := ⟨h, none, dst, by rw [ho, ← hb]; rfl⟩

/-- A bundle of one operation that does not wait is offered for retirement; the readers of a queue it closes are told. -/
theorem Asks.issue {s : State} {op : State → Op} {i : Iss} {slot : Slot} {acc : Accepts} {regs : List Nat} {p : Plan}
    (k : Asks s op i slot acc regs p) (hp : p ≠ .stall) (n : Instr) :
    s.issue n op = (closedBy [op s]).foldl (fun u q => u.tellReader i.site q)
      (s.retire i.site i.th (loneBun s n i (op s))) := by
  obtain ⟨h, code, dst, ho⟩ := k
  have hb : (op s).badRow = none := by rw [ho]; unfold Op.badRow; cases p <;> rfl
  have hs : (op s).stuck (s.thr i.site i.th) = false := by rw [ho]; simpa [Op.stuck, hp] using h.loads
  have hi : (op s).iss = i := by rw [ho]
  have hc := h.noClash (op s) (by rw [ho]) (by rw [ho]) (s.thr i.site i.th).pc
  unfold State.issue
  dsimp only
  rw [hi, h.ready, h.calm, Thread.bundle_start _ h.empty, hc, h.defined, h.whole]
  simp only [Bool.not_true, Bool.false_eq_true, if_false, Bool.or_false]
  rw [State.issueAll_one s i.site i.th _ _ (op s) rfl h.fresh hs (by rw [hi]; exact h.intact) hb]
  rfl

/-- What the bundle of one operation holds. -/
theorem loneBun_ok (s : State) (n : Instr) (i : Iss) (slot : Slot) (acc : Accepts) (code : Option Nat) (regs dst : List Nat)
    (l : List Eff) : loneBun s n i ⟨i, slot, acc, code, regs, dst, .ok l, none⟩ =
      ⟨(s.thr i.site i.th).pc, Iss.len i, [slot], l, [], l.any Eff.isLong,
        l.flatMap (Eff.writes i.th),
        (Fetched.start_ (s.thr i.site i.th).pc).add n ⟨i, slot, acc, code, regs, dst, .ok l, none⟩⟩ := by
  simp [loneBun, bunOf, Fetched.add, Fetched.start_, Op.effs, Op.flt, Op.writes, Iss.len]

/-- A list of such effects. -/
def Plain (l : List Eff) : Prop := l.all Eff.plain = true

theorem Plain.mem {l : List Eff} (h : Plain l) {e : Eff} (he : e ∈ l) : e.plain = true := List.all_eq_true.1 h e he

theorem Plain.place {l : List Eff} (h : Plain l) (c : Core) (n : BitVec 16) : l.flatMap (c.placeEff n) = l := by
  induction l with
  | nil => rfl
  | cons e t ih =>
    have h1 := h.mem (List.mem_cons_self ..)
    rw [List.flatMap_cons, ih (List.all_eq_true.2 fun x hx => h.mem (List.mem_cons_of_mem _ hx))]
    cases e <;> first | rfl | cases h1

/-- Whatever a plain effect is not, a list of them holds none of. -/
theorem Plain.noneOf {l : List Eff} (h : Plain l) (f : Eff → Bool) (hf : ∀ e : Eff, e.plain = true → f e = false) : l.any f = false := by
  rw [List.any_eq_false]
  intro e he
  simp [hf e (h.mem he)]

theorem Plain.lost {l : List Eff} (h : Plain l) (c : Core) (n : BitVec 16) : l.any (c.loopLost n) = false :=
  h.noneOf _ (fun e he => by cases e <;> first | rfl | cases he)

theorem Plain.noWait {l : List Eff} (h : Plain l) : waitOf l = none ∧ batchWait l = none ∧ jumpOf l = none := by
  refine ⟨?_, ?_, ?_⟩ <;> refine List.findSome?_eq_none_iff.2 (fun e he => ?_) <;> have h1 := h.mem he <;>
    cases e <;> first | rfl | cases h1

theorem Plain.noLoop {l : List Eff} (h : Plain l) (t : Fin 4) (n : Nat) : writesLoop t l n = false :=
  h.noneOf _ (fun e he => by cases e <;> first | rfl | cases he)

theorem Plain.short {l : List Eff} (h : Plain l) : l.any Eff.isLong = false :=
  h.noneOf _ (fun e he => by cases e <;> first | rfl | cases he)

/-- Writes of state registers come last; where there are none the order stays. -/
theorem stregLast_of {l : List Eff} (h : l.any Eff.isStreg = false) : stregLast l = l := by
  rw [List.any_eq_false] at h
  unfold stregLast
  rw [List.filter_eq_self.2 (fun e he => by simpa using h e he), List.filter_eq_nil_iff.2 (fun e he => h e he), List.append_nil]

theorem Plain.order {l : List Eff} (h : Plain l) : stregLast l = l :=
  stregLast_of (h.noneOf _ (fun e he => by cases e <;> first | rfl | cases he))

theorem Plain.open_ {l : List Eff} (h : Plain l) : l.filterMap Eff.closes = [] := by
  rw [List.filterMap_eq_nil_iff]
  intro e he
  have h1 := h.mem he
  cases e <;> first | rfl | cases h1

theorem Thread.setLoops_stepping (x : Thread) (l : List (Nat × Word)) : (x.setLoops l).stepping = x.stepping := by
  unfold Thread.setLoops
  induction l generalizing x with
  | nil => rfl
  | cons p t ih =>
    rw [List.foldl_cons, ih]
    dsimp only
    split
    · rfl
    · split <;> rfl

/-- Only core `site` may differ. -/
def OnlyCore (s t : State) (site : Nat) : Prop := { t with cores := s.cores } = s ∧ ∀ k, k ≠ site → t.core k = s.core k

theorem OnlyCore.refl (s : State) (site : Nat) : OnlyCore s s site := ⟨rfl, fun _ _ => rfl⟩

theorem OnlyCore.trans {s t u : State} {site : Nat} (h : OnlyCore s t site) (k : OnlyCore t u site) : OnlyCore s u site := by
  refine ⟨?_, fun j hj => (k.2 j hj).trans (h.2 j hj)⟩
  have h' := congrArg (fun x : State => { x with cores := s.cores }) k.1
  exact h'.trans h.1

theorem State.modCore_only (s : State) (site : Nat) (f : Core → Core) : OnlyCore s (s.modCore site f) site :=
  ⟨rfl, fun _ h => State.core_modCore_ne s h f⟩

theorem State.modThr_only (s : State) (site : Nat) (t : Fin 4) (f : Thread → Thread) : OnlyCore s (s.modThr site t f) site :=
  State.modCore_only s site _

theorem OnlyCore.one {s t : State} {site : Nat} {c : Core} (h : OnlyCore s t site) (hc : t.core site = c) : OneCore s t.settle site c := by
  refine ⟨?_, hc, h.2⟩
  have h' := congrArg State.settle h.1
  exact h'

theorem State.stepDone_plain (s : State) (site : Nat) (t : Fin 4) (h : (s.thr site t).stepping = false) :
  s.stepDone site t = s.modThr site t (fun x => { x with bpSkip := false }) := by
  unfold State.stepDone
  dsimp only
  rw [State.thr_modThr, h]
  rfl

theorem State.markStarted_core (s : State) (site : Nat) (t : Fin 4) :
   (s.markStarted site t).core site = { s.core site with batch := (s.core site).begun (s.thr site t).ctx } := by
  unfold State.markStarted
  rw [State.core_modCore]
  rfl

/-- Effects that come to one change of their thread. -/
def Local (l : List Eff) (site : Nat) (t : Fin 4) (f : Thread → Thread) : Prop :=
  ∀ s : State, OnlyCore s (effectsOf l site t s) site ∧
    (effectsOf l site t s).core site = { s.core site with th := (s.core site).th.set t (f (s.core site).th[t]) } ∧
    l.foldl (fun s e => s.after site t e) s = s

/-- An effect that is one change of the thread. -/
theorem local_modThr (l : List Eff) (site : Nat) (t : Fin 4) (f : Thread → Thread)
    (h : ∀ s : State, effectsOf l site t s = s.modThr site t f) (ha : ∀ s : State, l.foldl (fun s e => s.after site t e) s = s) :
    Local l site t f := by
  intro s
  rw [h]
  exact ⟨State.modThr_only s site t f, State.core_modThr s site t f, ha s⟩

/-- One register effect is a change of the thread. -/
theorem local_s (site : Nat) (t : Fin 4) (r : Fin 16) (w : Word) : Local [.s r w] site t (Thread.putS r w) :=
  local_modThr _ _ _ _ (fun _ => rfl) (fun _ => rfl)

theorem local_v (site : Nat) (t : Fin 4) (r : Fin 16) (w : Vec) : Local [.v r w] site t (Thread.putV r w) :=
  local_modThr _ _ _ _ (fun _ => rfl) (fun _ => rfl)

theorem local_p (site : Nat) (t : Fin 4) (r : Fin 4) (w : BitVec 64) : Local [.p r w] site t (Thread.putP r w) :=
  local_modThr _ _ _ _ (fun _ => rfl) (fun _ => rfl)

-- operations that change more than their thread

theorem State.opens_stepping (s : State) (i : Iss) : ((s.opens i).thr i.site i.th).stepping = (s.thr i.site i.th).stepping := by
  unfold State.opens
  rw [State.thr_modThr]
  unfold State.thr
  rw [State.markStarted_core]

/-- The commit of a bundle that starts no long operation, moves no thread after its retirement and leaves the thread's single step
alone. -/
theorem State.commit_runs (s : State) (i : Iss) (b : Bun) (f : State → State) (own : List Nat)
    (hstart : b.start = (s.thr i.site i.th).pc) (hsyl : b.syl = Iss.len i)
    (hlong : b.hasLong = false) (hw : ∀ n, writesLoop i.th b.effs n = own.contains n)
    (ha : ∀ u : State, b.effs.foldl (fun s e => s.after i.site i.th e) u = u)
    (hf : b.effs.foldl (fun s e => s.applyNum i.site i.th e)
      ((stregLast b.effs).foldl (fun s e => s.apply i.site i.th e) (s.opens i)) = f (s.opens i))
    (hst : ((f (s.opens i)).thr i.site i.th).stepping = false) :
    s.commit i.site i.th b = (f (s.opens i)).closes i (s.thr i.site i.th) (jumpOf b.effs) own := by
  have ho : (s.markStarted i.site i.th).modThr i.site i.th
    (fun y => { y with bun := none, wait := none, hold := [], after := none }) = s.opens i := rfl
  unfold State.commit
  dsimp only
  rw [hlong, hstart, hsyl, ho, hf]
  simp only [hw, Bool.false_eq_true, if_false, Bool.false_and, Bool.not_false, List.filter_true]
  rw [ha, State.stepDone_plain]
  · rfl
  · rw [State.thr_modThr]
    show (Thread.setLoops _ _).stepping = false
    rw [Thread.setLoops_stepping, hst]

/-- A whole bundle of one operation that waits for nothing is committed with its effects placed. -/
theorem Asks.commit {s : State} {op : State → Op} {i : Iss} {slot : Slot} {acc : Accepts} {regs : List Nat} {l : List Eff}
    (q : Asks s op i slot acc regs (.ok l)) (n : Instr) (k : List Eff)
    (hk : l.flatMap ((s.core i.site).placeEff ((s.thr i.site i.th).pc + BitVec.ofNat 16 (Iss.len i))) = k)
    (hl : l.any ((s.core i.site).loopLost ((s.thr i.site i.th).pc + BitVec.ofNat 16 (Iss.len i))) = false)
    (hd : hasDup (l.flatMap (Eff.writes i.th)) = false) (hw : waitOf k = none) (hbw : batchWait k = none)
    (hq : l.filterMap Eff.closes = []) :
    s.issue n op = s.commit i.site i.th { loneBun s n i (op s) with effs := k } := by
  rw [q.issue (by simp) n]
  obtain ⟨h, code, dst, ho⟩ := q
  have hc : closedBy [op s] = [] := by rw [ho]; simpa [closedBy, Op.effs] using hq
  rw [hc, List.foldl_nil, ho, loneBun_ok]
  unfold State.retire Core.place
  dsimp only
  rw [hk, hl, hd, h.fresh]
  simp only [Bool.false_and, Bool.false_eq_true, if_false, List.append_nil, firstFault, List.find?_nil]
  unfold State.settleBun
  dsimp only
  rw [hbw]
  dsimp only
  unfold State.tryBun
  dsimp only
  rw [hw]

/-- A whole bundle of one operation that starts no long operation, closes no queue and waits for nothing: it runs with the effects f. -/
theorem runs_of {s : State} {op : State → Op} {i : Iss} {slot : Slot} {acc : Accepts} {regs : List Nat} {l : List Eff}
    (q : Asks s op i slot acc regs (.ok l)) (n : Instr) (k : List Eff) (f : State → State) (own : List Nat)
    (hk : l.flatMap ((s.core i.site).placeEff ((s.thr i.site i.th).pc + BitVec.ofNat 16 (Iss.len i))) = k)
    (hl : l.any ((s.core i.site).loopLost ((s.thr i.site i.th).pc + BitVec.ofNat 16 (Iss.len i))) = false)
    (hd : hasDup (l.flatMap (Eff.writes i.th)) = false) (hwt : waitOf k = none) (hbw : batchWait k = none)
    (hlong : l.any Eff.isLong = false)
    (hq : l.filterMap Eff.closes = [])
    (hw : ∀ n, writesLoop i.th k n = own.contains n)
    (ha : ∀ u : State, k.foldl (fun s e => s.after i.site i.th e) u = u)
    (hf : k.foldl (fun s e => s.applyNum i.site i.th e) ((stregLast k).foldl (fun s e => s.apply i.site i.th e) (s.opens i)) = f (s.opens i))
    (hst : ((f (s.opens i)).thr i.site i.th).stepping = false) :
    Runs s (done (s.issue n op)) i (jumpOf k) own f := by
  unfold Runs
  rw [q.commit n k hk hl hd hwt hbw hq, done_eq]
  obtain ⟨h, code, dst, ho⟩ := q
  congr 2
  rw [ho, loneBun_ok]
  exact State.commit_runs s i _ f own rfl rfl hlong hw ha hf hst

/-- The same for effects that need no placing. -/
theorem runs_plain {s : State} {op : State → Op} {i : Iss} {slot : Slot} {acc : Accepts} {regs : List Nat} {l : List Eff}
    (q : Asks s op i slot acc regs (.ok l)) (n : Instr) (f : State → State)
    (hp : Plain l) (hd : hasDup (l.flatMap (Eff.writes i.th)) = false)
    (ha : ∀ u : State, l.foldl (fun s e => s.after i.site i.th e) u = u)
    (hf : l.foldl (fun s e => s.applyNum i.site i.th e) (l.foldl (fun s e => s.apply i.site i.th e) (s.opens i)) = f (s.opens i))
    (hst : ((f (s.opens i)).thr i.site i.th).stepping = false) :
    Runs s (done (s.issue n op)) i none [] f := by
  have := runs_of q n l f [] (hp.place _ _) (hp.lost _ _) hd hp.noWait.1 hp.noWait.2.1 hp.short hp.open_
    (fun n => by simpa using hp.noLoop i.th n) ha (by rw [hp.order]; exact hf) hst
  rw [hp.noWait.2.2] at this
  exact this

-- operations that change only their thread

theorem State.opens_only (s : State) (i : Iss) : OnlyCore s (s.opens i) i.site :=
  (State.modCore_only s i.site _).trans (State.modThr_only (s.markStarted i.site i.th) i.site i.th _)

theorem State.opens_core (s : State) (i : Iss) : (s.opens i).core i.site =
    let y := { (s.core i.site).th[i.th] with bun := none, wait := none, hold := [], after := none }
    { s.core i.site with batch := (s.core i.site).begun (s.thr i.site i.th).ctx, th := (s.core i.site).th.set i.th y } := by
  unfold State.opens
  rw [State.core_modThr, State.markStarted_core]

theorem State.closes_only (s : State) (i : Iss) (x : Thread) (j : Option (BitVec 16)) (own : List Nat) :
    OnlyCore s (s.closes i x j own) i.site := by
  unfold State.closes
  dsimp only
  exact OnlyCore.trans (State.modThr_only s i.site i.th _) (State.modThr_only _ i.site i.th _)

theorem State.closes_core (s : State) (i : Iss) (x : Thread) (j : Option (BitVec 16)) (own : List Nat) :
    (s.closes i x j own).core i.site =
      let back := x.loopBack x.pc
      let y := (s.core i.site).th[i.th].setLoops (back.2.filter (fun p => !own.contains p.1))
      let z := { y with pc := j.getD (back.1.getD (x.pc + BitVec.ofNat 16 (Iss.len i))), bpSkip := false }
      { s.core i.site with th := (s.core i.site).th.set i.th z } := by
  unfold State.closes
  dsimp only
  rw [State.core_modThr, State.core_modThr]
  simp

/-- A whole bundle of one operation that only changes its thread: it retires with that change. -/
theorem retires_local {s : State} {op : State → Op} {i : Iss} {slot : Slot} {acc : Accepts} {regs : List Nat} {l : List Eff}
    (q : Asks s op i slot acc regs (.ok l)) (n : Instr) (f : Thread → Thread) (hp : Plain l)
    (hd : hasDup (l.flatMap (Eff.writes i.th)) = false) (hf : Local l i.site i.th f)
    (hst : ∀ x : Thread, (f x).stepping = x.stepping) :
    Retires s (done (s.issue n op)) i none f := by
  have hc := hf (s.opens i)
  have hthr : (effectsOf l i.site i.th (s.opens i)).thr i.site i.th = f ((s.opens i).thr i.site i.th) := by
    unfold State.thr
    rw [hc.2.1]
    simp
  have hr := runs_plain q n (effectsOf l i.site i.th) hp hd (fun u => (hf u).2.2) (by unfold effectsOf; rw [hp.order])
    (by rw [hthr, hst, State.opens_stepping]; exact q.1.steady)
  have ho : OnlyCore s ((effectsOf l i.site i.th (s.opens i)).closes i (s.thr i.site i.th) none []) i.site :=
    ((State.opens_only s i).trans hc.1).trans (State.closes_only _ i _ _ _)
  have hcore : ((effectsOf l i.site i.th (s.opens i)).closes i (s.thr i.site i.th) none []).core i.site =
      (s.core i.site).ran i.th (Iss.len i) none f := by
    rw [State.closes_core]
    dsimp only
    rw [hc.2.1, State.opens_core]
    unfold Core.ran
    simp [State.thr]
  exact ⟨_, hr, ho.one hcore⟩

-- common shapes

theorem Lone.opened {s : State} {i : Iss} {acc : Accepts} {regs : List Nat} (h : Lone s i acc regs) :
    ((s.opens i).thr i.site i.th).stepping = false := by
  rw [State.opens_stepping]; exact h.steady

/-- Fewer registers hold a bundle less. -/
theorem Lone.sub {s : State} {i : Iss} {acc : Accepts} {regs more : List Nat} (h : Lone s i acc more)
    (hs : ∀ r ∈ regs, r ∈ more) : Lone s i acc regs := by
  refine { h with loads := ?_ }
  have := h.loads
  rw [List.any_eq_false] at this ⊢
  intro l hl
  have h1 := this l hl
  simp only [List.contains_iff_mem] at h1 ⊢
  exact fun h2 => h1 (hs _ h2)

/-- A bundle of one transfer. -/
theorem runs_jump {s : State} {op : State → Op} {i : Iss} {slot : Slot} {acc : Accepts} {regs : List Nat} {pc : BitVec 16}
    (q : Asks s op i slot acc regs (.ok [.jump pc])) (n : Instr) : Runs s (done (s.issue n op)) i (some pc) [] id :=
  runs_of q n [.jump pc] id [] rfl rfl rfl rfl rfl rfl rfl (fun _ => rfl) (fun _ => rfl) rfl q.1.opened

/-- A bundle of one operation without effects. -/
theorem runs_nothing {s : State} {op : State → Op} {i : Iss} {slot : Slot} {acc : Accepts} {regs : List Nat}
    (q : Asks s op i slot acc regs (.ok [])) (n : Instr) : Runs s (done (s.issue n op)) i none [] id :=
  runs_of q n [] id [] rfl rfl rfl rfl rfl rfl rfl (fun _ => rfl) (fun _ => rfl) rfl q.1.opened

/-- A bundle of one operation with one effect that neither waits nor moves its thread. -/
theorem runs_one {s : State} {op : State → Op} {i : Iss} {slot : Slot} {acc : Accepts} {regs : List Nat} {e : Eff}
    (q : Asks s op i slot acc regs (.ok [e])) (n : Instr) (f : State → State) (hp : e.plain = true)
    (hd : hasDup (e.writes i.th) = false) (ha : ∀ u : State, u.after i.site i.th e = u)
    (hf : ((s.opens i).apply i.site i.th e).applyNum i.site i.th e = f (s.opens i))
    (hst : ((f (s.opens i)).thr i.site i.th).stepping = false) :
    Runs s (done (s.issue n op)) i none [] f :=
  runs_plain q n f (by simp [Plain, hp]) (by simpa using hd) ha hf hst

/-- The one fault of a bundle is the one it records (R124). -/
theorem firstFault_one (slot : Slot) (f : Flt) : firstFault [(slot, f)] = some (slot, f) := by
  unfold firstFault
  simp only [List.find?_cons, List.find?_nil]
  cases f.decode <;> cases slot <;> rfl

/-- A bundle of one operation that faults. -/
theorem faults_of {s : State} {op : State → Op} {i : Iss} {slot : Slot} {acc : Accepts} {regs : List Nat} {f : Flt}
    (q : Asks s op i slot acc regs (.bad f)) (n : Instr) (hdup : hasDup (op s).dst = false) :
    Faults s (done (s.issue n op)) i slot f := by
  have hr : s.retire i.site i.th (loneBun s n i (op s)) = s.faultBundle i.site i.th slot.num f := by
    obtain ⟨h, code, dst, ho⟩ := q
    have hb : loneBun s n i (op s) = ⟨(s.thr i.site i.th).pc, Iss.len i, [slot], [], [(slot, f)], false, dst,
        (Fetched.start_ (s.thr i.site i.th).pc).add n (op s)⟩ := by
      rw [ho]
      simp [loneBun, bunOf, Fetched.add, Fetched.start_, Op.effs, Op.flt, Op.writes, Iss.len]
    have hd : hasDup dst = false := by rw [ho] at hdup; exact hdup
    rw [hb]
    unfold State.retire Core.place
    dsimp only
    rw [hd, h.fresh]
    simp [firstFault_one]
  have hc : closedBy [op s] = [] := by
    obtain ⟨h, code, dst, ho⟩ := q
    rw [ho]
    rfl
  unfold Faults
  rw [q.issue (by simp) n, done_eq, hc, List.foldl_nil, hr]

/-- A thread's change is settled by what it does to the thread as it stands. -/
theorem State.modThr_congr (s : State) (site : Nat) (t : Fin 4) (f g : Thread → Thread) (h : f (s.thr site t) = g (s.thr site t)) :
    s.modThr site t f = s.modThr site t g := by
  unfold State.modThr State.modCore
  have : f (s.core site).th[t] = g (s.core site).th[t] := h
  simp only [this]

/-- The thread as its bundle begins to retire. -/
theorem State.opens_thr (s : State) (i : Iss) :
    (s.opens i).thr i.site i.th = { s.thr i.site i.th with bun := none, wait := none, hold := [], after := none } := by
  unfold State.thr; rw [State.opens_core]; simp

@[simp] theorem State.thr_on (s : State) (i : Iss) (f : Thread → Thread) : (s.on i f).thr i.site i.th = f (s.thr i.site i.th) :=
  State.thr_modThr s i.site i.th f

@[simp] theorem State.thr_setBytes (s : State) (a : Nat) (l : List Byte) (k : Nat) (t : Fin 4) :
    (s.setBytes a l).thr k t = s.thr k t := rfl

/-- A push leaves a single step alone. -/
theorem State.pushSs_stepping (s : State) (site : Nat) (t : Fin 4) (r : BitVec 16) :
    ((s.pushSs site t r).thr site t).stepping = (s.thr site t).stepping := by
  unfold State.pushSs
  dsimp only
  split
  · split <;> simp
  · simp

@[simp] theorem Thread.putS_stepping (r : Fin 16) (w : Word) (x : Thread) : (Thread.putS r w x).stepping = x.stepping := rfl
@[simp] theorem Thread.putV_stepping (r : Fin 16) (w : Vec) (x : Thread) : (Thread.putV r w x).stepping = x.stepping := rfl
@[simp] theorem Thread.putP_stepping (r : Fin 4) (w : BitVec 64) (x : Thread) : (Thread.putP r w x).stepping = x.stepping := rfl
@[simp] theorem Thread.addLoad_stepping (l : Load) (x : Thread) : (Thread.addLoad l x).stepping = x.stepping := rfl
@[simp] theorem Thread.addCounts_stepping (c : Counts) (x : Thread) : (x.addCounts c).stepping = x.stepping := rfl
@[simp] theorem Thread.popSs_stepping (x : Thread) : x.popSs.stepping = x.stepping := rfl
@[simp] theorem Thread.setGens_stepping (l : List (Nat × Word)) (x : Thread) : (Thread.setGens l x).stepping = x.stepping := by
  unfold Thread.setGens
  induction l generalizing x with
  | nil => rfl
  | cons p t ih => rw [List.foldl_cons, ih]; rfl

/-- A bundle of one call: the return index in s15 and on the shadow stack, and the transfer. -/
theorem runs_call {s : State} {op : State → Op} {i : Iss} {slot : Slot} {acc : Accepts} {regs : List Nat} {pc : BitVec 16}
    (q : Asks s op i slot acc regs (.ok [.push 0, .jump pc])) (n : Instr) :
    let ret : BitVec 16 := (s.thr i.site i.th).pc + BitVec.ofNat 16 (Iss.len i)
    Runs s (done (s.issue n op)) i (some pc) []
      (fun u => (u.on i (Thread.putS 15 (BitVec.ofNat 32 ret.toNat))).pushSs i.site i.th ret) := by
  intro ret
  exact runs_of q n [.push ret, .jump pc] _ [] rfl (by simp [Core.loopLost]) rfl rfl rfl rfl rfl (fun _ => rfl) (fun _ => rfl)
    (by rw [stregLast_of rfl]; simp only [List.foldl_cons, List.foldl_nil, State.apply, State.applyNum]; rfl)
    (by rw [State.pushSs_stepping, State.thr_on, Thread.putS_stepping]; exact q.1.opened)

/-- What a bundle does matters only where it begins to retire. -/
theorem Runs.congr {s : State} {r : Res} {i : Iss} {j : Option (BitVec 16)} {own : List Nat} {f g : State → State}
    (h : Runs s r i j own f) (e : f (s.opens i) = g (s.opens i)) : Runs s r i j own g := by
  unfold Runs at *
  rw [h, e]

/-- Counts of nothing change nothing (R208). -/
theorem Thread.addCounts_zero (x : Thread) : x.addCounts Counts.zero = x := by
  unfold Thread.addCounts Counts.zero satAdd
  have h : ∀ w : Word, BitVec.ofNat 32 (min (w.toNat + 0) (2^32-1)) = w := by
    intro w
    apply BitVec.eq_of_toNat_eq
    have := w.isLt
    simp
    omega
  simp only [h]

/-- The counts and generator steps that follow a result. -/
def numTail (c : Counts) (g : List (Nat × Word)) (m : Prop) [Decidable m] : List Eff := c.eff ++ (if m then [.gens g] else [])

/-- They are one change of the thread, made after the effects before them (R208). -/
theorem numTail_apply (c : Counts) (g : List (Nat × Word)) (m : Prop) [Decidable m] (site : Nat) (t : Fin 4) :
    Plain (numTail c g m) ∧ (numTail c g m).flatMap (Eff.writes t) = [] ∧
    (∀ s : State, (numTail c g m).foldl (fun s e => s.apply site t e) s = s) ∧
    (∀ s : State, (numTail c g m).foldl (fun s e => s.after site t e) s = s) ∧
    Local (numTail c g m) site t (fun y => (y.addCounts c).setGens (if m then g else [])) := by
  have one (l : List Eff) (hl : Plain l) (ha : ∀ s : State, l.foldl (fun s e => s.apply site t e) s = s) (f : Thread → Thread)
      (hf : ∀ s : State, OnlyCore s (l.foldl (fun s e => s.applyNum site t e) s) site ∧
        (l.foldl (fun s e => s.applyNum site t e) s).core site =
          { s.core site with th := (s.core site).th.set t (f (s.core site).th[t]) })
      (hb : ∀ s : State, l.foldl (fun s e => s.after site t e) s = s) : Local l site t f := by
    intro s
    have e : effectsOf l site t s = l.foldl (fun s e => s.applyNum site t e) s := by unfold effectsOf; rw [hl.order, ha]
    rw [e]
    exact ⟨(hf s).1, (hf s).2, hb s⟩
  by_cases hc : c = Counts.zero <;> by_cases hm : m
  · have e : numTail c g m = [.gens g] := by simp [numTail, Counts.eff, hc, hm]
    rw [e]
    refine ⟨rfl, rfl, fun _ => rfl, fun _ => rfl, one [.gens g] rfl (fun _ => rfl) _ (fun s => ?_) (fun _ => rfl)⟩
    simp only [List.foldl_cons, List.foldl_nil, State.applyNum]
    refine ⟨State.modThr_only s site t _, ?_⟩
    rw [State.core_modThr]
    simp [hm, hc, Thread.addCounts_zero, Thread.setGens]
  · have e : numTail c g m = [] := by simp [numTail, Counts.eff, hc, hm]
    rw [e]
    refine ⟨rfl, rfl, fun _ => rfl, fun _ => rfl, one [] rfl (fun _ => rfl) _ (fun s => ⟨OnlyCore.refl s site, ?_⟩) (fun _ => rfl)⟩
    simp [hm, hc, Thread.addCounts_zero, Thread.setGens]
  · have e : numTail c g m = [.counts c.sat c.flush c.nan, .gens g] := by simp [numTail, Counts.eff, hc, hm]
    rw [e]
    refine ⟨rfl, rfl, fun _ => rfl, fun _ => rfl, one [.counts c.sat c.flush c.nan, .gens g] rfl (fun _ => rfl) _ (fun s => ?_) (fun _ => rfl)⟩
    simp only [List.foldl_cons, List.foldl_nil, State.applyNum]
    refine ⟨(State.modThr_only s site t _).trans (State.modThr_only _ site t _), ?_⟩
    rw [State.core_modThr, State.core_modThr]
    simp [hm, Thread.setGens]
  · have e : numTail c g m = [.counts c.sat c.flush c.nan] := by simp [numTail, Counts.eff, hc, hm]
    rw [e]
    refine ⟨rfl, rfl, fun _ => rfl, fun _ => rfl, one [.counts c.sat c.flush c.nan] rfl (fun _ => rfl) _ (fun s => ?_) (fun _ => rfl)⟩
    simp only [List.foldl_cons, List.foldl_nil, State.applyNum]
    refine ⟨State.modThr_only s site t _, ?_⟩
    rw [State.core_modThr]
    simp [hm, Thread.setGens]

/-- Effects on the thread that count nothing, with what follows them. -/
theorem Local.append {a b : List Eff} {site : Nat} {t : Fin 4} {f g : Thread → Thread} (ha : Local a site t f) (hb : Local b site t g)
    (hpa : Plain a) (hpb : Plain b) (hn : ∀ u : State, a.foldl (fun s e => s.applyNum site t e) u = u)
    (hq : ∀ u : State, b.foldl (fun s e => s.apply site t e) u = u) : Local (a ++ b) site t (fun x => g (f x)) := by
  intro s
  have hp : Plain (a ++ b) := by unfold Plain; rw [List.all_append, hpa, hpb]; rfl
  have e : effectsOf (a ++ b) site t s = effectsOf b site t (effectsOf a site t s) := by
    unfold effectsOf
    simp only [hp.order, hpa.order, hpb.order, List.foldl_append, hq, hn]
  obtain ⟨h1, h2, h3⟩ := ha s
  obtain ⟨k1, k2, k3⟩ := hb (effectsOf a site t s)
  rw [e]
  refine ⟨h1.trans k1, ?_, by rw [List.foldl_append, h3, (hb s).2.2]⟩
  rw [k2, h2]
  simp

/-- A bundle of one operation with a numeric result in a register. -/
theorem retires_numeric {s : State} {op : State → Op} {i : Iss} {slot : Slot} {acc : Accepts} {regs : List Nat} (e : Eff)
    (put : Thread → Thread) (c : Counts) (g : List (Nat × Word)) (m : Prop) [Decidable m]
    (q : Asks s op i slot acc regs (.ok ([e] ++ c.eff ++ (if m then [.gens g] else [])))) (n : Instr)
    (he : Local [e] i.site i.th put) (hp : e.plain = true) (hn : ∀ u : State, u.applyNum i.site i.th e = u)
    (hw : hasDup (e.writes i.th) = false) (hst : ∀ x : Thread, (put x).stepping = x.stepping) :
    Retires s (done (s.issue n op)) i none (fun y => ((put y).addCounts c).setGens (if m then g else [])) := by
  obtain ⟨t1, t2, t3, t4, t5⟩ := numTail_apply c g m i.site i.th
  rw [List.append_assoc] at q
  have hl : Plain [e] := by simp [Plain, hp]
  refine retires_local q n _ ?_ ?_ (he.append t5 hl t1 hn t3) (fun x => by simp [hst])
  · unfold Plain
    rw [List.all_append, hl]
    exact t1
  · rw [List.flatMap_append]
    show hasDup (_ ++ (numTail c g m).flatMap _) = false
    rw [t2]
    simpa using hw

-- what a bundle leaves alone beside its thread and its operation's own effect

/-- What does not look at the cores is as it was: apply with `rfl` to a field of State. -/
theorem OnlyCore.same {s t : State} {site : Nat} (h : OnlyCore s t site) {α : Type} (f : State → α)
    (hf : ∀ (u : State) (c : SMap Core), f { u with cores := c } = f u) : f t = f s := by
  rw [← hf t s.cores, h.1]

/-- The state that a bundle leaves: the operation's own effect between the two ends of the bundle, which change their core alone. -/
theorem Runs.yields {s : State} {r : Res} {i : Iss} {j : Option (BitVec 16)} {own : List Nat} {f : State → State}
    (h : Runs s r i j own f) :
    ∃ u t : State, OnlyCore s u i.site ∧ u = s.opens i ∧ t = (f u).closes i (s.thr i.site i.th) j own ∧
      OnlyCore (f u) t i.site ∧ r = .next t.settle :=
  ⟨s.opens i, _, State.opens_only s i, rfl, rfl, State.closes_only _ i _ _ _, h⟩

end Sys2Proof.Machine
end

