-- ==== Sys2Proof/WellFormed.lean ====
section
/-! DEFINITION. Which commands are well formed: every number a command names lies in the range the spec gives it. -/

namespace Sys2Proof

/-- A thread operation names a core: a site (R16), or a stage-manager or management core (log 18), and a row of a tile (R155). -/
def issWf (i : Iss) : Bool := decide (i.site < 1586) && i.badRow.all (fun r => decide (r.2 < 32))

/-- A requester stands on a site or die of the module (R11, R15, R16, R310); a ring unit has the number of its register block (R263). -/
def reqWf : Requester → Bool
  | .host => true
  | .thread site _ => decide (site < 1586)
  | .chan site _ => decide (site < 1586)
  | .bulk die c => decide (die < 8) && decide (c < 16)
  | .ring die unit => decide (die < 8) && decide (unit < 19)
  | .stage m => decide (m < 16)
  | .mgmt => true
  | .debug => true
  | .posted r _ => reqWf r

/-- A channel of a site or die (R310). -/
def chanWf : ChanId → Bool
  | .core site _ => decide (site < 1586)
  | .bulk die c => decide (die < 8) && decide (c < 16)

/-- A broadcast image: the all-cores image or one of 32 groups (R109). -/
def imageWf : Image → Bool
  | .all => true
  | .group g => decide (g < 32)

/-- A flit's fields in their widths (R348). -/
def flitWf (f : Flit) : Bool :=
  decide (f.seq < 2 ^ 32) && decide (f.ack < 2 ^ 31) && decide (f.reqCredit < 2 ^ 32) && decide (f.respCredit < 2 ^ 32) &&
  decide (f.kind < 256) && decide (f.payload < 2 ^ 56) && f.slots.length == 288

/-- An incoming fabric request: a 12-bit node (R261), a context (R14), a local address (R261) and at most 256 bytes (R354). -/
def fabWf (q : FabReq) : Bool :=
  decide (q.node < 4096) && decide (q.ctx < 64) && decide (q.addr < 2 ^ 52) && decide (q.len ≤ 256) && decide (q.handle < 64)

/-- A command is well formed. -/
def Instr.wf : Instr → Bool
  | .mov i _ _ => issWf i
  | .add i _ _ => issWf i
  | .sub i _ _ => issWf i
  | .and i _ _ => issWf i
  | .or i _ _ => issWf i
  | .xor i _ _ => issWf i
  | .shl i _ _ => issWf i
  | .shr i _ _ => issWf i
  | .sar i _ _ => issWf i
  | .mul i _ _ => issWf i
  | .mulh i _ _ => issWf i
  | .mulhu i _ _ => issWf i
  | .slt i _ _ => issWf i
  | .sltu i _ _ => issWf i
  | .min i _ _ => issWf i
  | .max i _ _ => issWf i
  | .addi i _ _ => issWf i
  | .li i _ _ => issWf i
  | .lih i _ _ => issWf i
  | .andi i _ _ => issWf i
  | .branch i _ _ _ => issWf i
  | .br i _ => issWf i
  | .call i _ => issWf i
  | .jr i _ _ => issWf i
  | .callr i _ _ => issWf i
  | .ret i _ => issWf i
  | .loop i _ _ _ => issWf i
  | .vmov i _ _ => issWf i
  | .vadd i _ _ => issWf i
  | .vsub i _ _ => issWf i
  | .vmul i _ _ => issWf i
  | .vfma i _ _ => issWf i
  | .vmin i _ _ => issWf i
  | .vmax i _ _ => issWf i
  | .vand i _ _ => issWf i
  | .vor i _ _ => issWf i
  | .vxor i _ _ => issWf i
  | .vshift i _ _ => issWf i
  | .vcmp i _ _ => issWf i
  | .vsel i _ _ => issWf i
  | .vcvt i _ _ => issWf i
  | .vredSum i _ _ => issWf i
  | .vredMax i _ _ => issWf i
  | .vredMin i _ _ => issWf i
  | .vbc i _ _ => issWf i
  | .ldw i _ _ => issWf i
  | .ldh i _ _ => issWf i
  | .ldhu i _ _ => issWf i
  | .ldb i _ _ => issWf i
  | .ldbu i _ _ => issWf i
  | .stw i _ _ => issWf i
  | .sth i _ _ => issWf i
  | .stb i _ _ => issWf i
  | .vld i _ _ => issWf i
  | .vst i _ _ => issWf i
  | .ldu i _ _ => issWf i
  | .vldu i _ _ => issWf i
  | .aadd i _ _ => issWf i
  | .acas i _ _ => issWf i
  | .aswp i _ _ => issWf i
  | .dcClean i _ _ => issWf i
  | .dcInvalidate i _ _ => issWf i
  | .dcCleanInvalidate i _ _ => issWf i
  | .tcfg i _ _ => issWf i
  | .trel i _ _ => issWf i
  | .tld i _ _ => issWf i
  | .tst i _ _ => issWf i
  | .tmmaAcc0 i _ _ => issWf i
  | .tmmaAcc1 i _ _ => issWf i
  | .tcvt i _ _ => issWf i
  | .tcvta i _ _ => issWf i
  | .tza i _ _ => issWf i
  | .tmova i _ _ => issWf i
  | .trd i _ _ => issWf i
  | .twr i _ _ => issWf i
  | .tlds i _ _ => issWf i
  | .tsts i _ _ => issWf i
  | .twa i _ _ => issWf i
  | .tileOpComplete site _ => decide (site < 1586)
  | .tileOpStop site _ _ => decide (site < 1586)
  | .csig i _ _ => issWf i
  | .cwait i _ _ => issWf i
  | .ctake i _ _ => issWf i
  | .carm i _ _ => issWf i
  | .carmDisarm i _ _ => issWf i
  | .qsend i _ _ => issWf i
  | .qsendCommit i _ _ => issWf i
  | .qrecv i _ _ => issWf i
  | .qrecvRelease i _ _ => issWf i
  | .qrecvReleaseReceive i _ _ => issWf i
  | .qclose i _ _ => issWf i
  | .qopen i _ _ => issWf i
  | .dmago i _ _ => issWf i
  | .dmawait i _ _ => issWf i
  | .dmawaitDrain i _ _ => issWf i
  | .mfill i _ _ => issWf i
  | .mcopy i _ _ => issWf i
  | .memoryOpComplete m => decide (m.site < 1586)
  | .nop i _ _ => issWf i
  | .sleep i _ _ => issWf i
  | .trap i _ _ => issWf i
  | .brk i _ _ => issWf i
  | .eret i _ _ => issWf i
  | .mfs i _ _ => issWf i
  | .mts i _ _ => issWf i
  | .mfsD i _ _ => issWf i
  | .mtsD i _ _ => issWf i
  | .mtb i _ _ => issWf i
  | .mfb i _ _ => issWf i
  | .stepend i _ _ => issWf i
  | .stependc i _ _ => issWf i
  | .batchend i _ _ => issWf i
  | .loadDataArrival site _ _ _ => decide (site < 1586)
  | .cacheLineFill site _ _ => decide (site < 1586)
  | .wake site _ => decide (site < 1586)
  | .timerFire site _ _ => decide (site < 1586)
  | .waitBound site _ _ => decide (site < 1586)
  | .thread0L1Entry site => decide (site < 1586)
  | .interruptTake site _ => decide (site < 1586)
  | .breakpointStop site _ => decide (site < 1586)
  | .budgetCut site _ => decide (site < 1586)
  | .cueSignalArrival _ => true
  | .queueMessageCommit site _ => decide (site < 1586)
  | .queueSendRetry site _ => decide (site < 1586)
  | .threadStart r site _ => reqWf r && decide (site < 1586)
  | .threadHalt r site _ => reqWf r && decide (site < 1586)
  | .threadResume r site _ => reqWf r && decide (site < 1586)
  | .safeWrite r site _ => reqWf r && decide (site < 1586)
  | .ctxChange r site _ ctx => reqWf r && decide (site < 1586) && decide (ctx < 64)
  | .swi r site _ => reqWf r && decide (site < 1586)
  | .broadcastWrite r img _ _ => reqWf r && imageWf img
  | .cueCountWrite r site _ _ => reqWf r && decide (site < 1586)
  | .regionEnable site _ _ => decide (site < 1586)
  | .claim site _ _ => decide (site < 1586)
  | .release site _ _ => decide (site < 1586)
  | .queueEnable site _ _ => decide (site < 1586)
  | .stagingDiscard site _ => decide (site < 1586)
  | .cacheInv site => decide (site < 1586)
  | .cacheClean site => decide (site < 1586)
  | .cacheEnable r site => reqWf r && decide (site < 1586)
  | .cacheDisable site => decide (site < 1586)
  | .numSeedAccess site _ _ => decide (site < 1586)
  | .l2Resume r site _ => reqWf r && decide (site < 1586)
  | .l2Run2 r site _ => reqWf r && decide (site < 1586)
  | .debugStop r site _ => reqWf r && decide (site < 1586)
  | .debugResume r site _ => reqWf r && decide (site < 1586)
  | .debugStep r site _ => reqWf r && decide (site < 1586)
  | .debugRegAccess r site _ => reqWf r && decide (site < 1586)
  | .dmaCommandStart ch => chanWf ch
  | .dmaBurst ch _ => chanWf ch
  | .dmaDone ch => chanWf ch
  | .dmaErrorHalt ch => chanWf ch
  | .dmaTimeout ch _ => chanWf ch
  | .dmaRetry r ch => reqWf r && chanWf ch
  | .dmaResume r ch => reqWf r && chanWf ch
  | .dmaSkip r ch => reqWf r && chanWf ch
  | .dmaFlush r ch => reqWf r && chanWf ch
  | .bdmaDoorbell r die c _ => reqWf r && decide (die < 8) && decide (c < 16)
  | .bdmaDescriptorFetch die c _ => decide (die < 8) && decide (c < 16)
  | .bdmaReq r die line => reqWf r && decide (die < 8) && decide (line < 32)
  | .writeLand _ _ => true
  | .hbmRead die _ _ _ => decide (die < 8)
  | .meshTimeout die _ _ => decide (die < 8)
  | .pmcLoad r die _ target => reqWf r && decide (die < 8) && decide (target.val < 2048)
  | .pmcSave r die _ target => reqWf r && decide (die < 8) && decide (target.val < 2048)
  | .curtain _ => true
  | .curtainInEdge _ => true
  | .flywheelCurtain _ => true
  | .acquisitionTimeout _ => true
  | .arm r => reqWf r
  | .sourceSwitch r _ => reqWf r
  | .ppsEdge _ => true
  | .clockFix _ => true
  | .boxOfficeClose _ => true
  | .guardBandStart _ => true
  | .refreshBurst _ => true
  | .deliveryDeadline _ => true
  | .actRelease r die act => reqWf r && decide (die < 8) && decide (act < 4096)
  | .boxEnable r die _ => reqWf r && decide (die < 8)
  | .intakeDoorbell r die ring _ => reqWf r && decide (die < 8) && decide (ring < 8)
  | .intakeFetch die ring _ _ => decide (die < 8) && decide (ring < 8)
  | .forwardedRecord die _ => decide (die < 8)
  | .cbRead r die stream => reqWf r && decide (die < 8) && decide (stream < 2 ^ 18)
  | .cbWrite r die stream => reqWf r && decide (die < 8) && decide (stream < 2 ^ 18)
  | .cbSuspend r die stream => reqWf r && decide (die < 8) && decide (stream < 2 ^ 18)
  | .cbResume r die stream => reqWf r && decide (die < 8) && decide (stream < 2 ^ 18)
  | .cbFree r die stream => reqWf r && decide (die < 8) && decide (stream < 2 ^ 18)
  | .cbCopyIn r die stream => reqWf r && decide (die < 8) && decide (stream.val < 2 ^ 18)
  | .cbCopyOut r die stream => reqWf r && decide (die < 8) && decide (stream.val < 2 ^ 18)
  | .callboardEccError stream => decide (stream < 2 ^ 18)
  | .stageBatch site _ => decide (site < 1586)
  | .strike site _ _ => decide (site < 1586)
  | .egressRecord die _ _ => decide (die < 8)
  | .egressCompletion die ring _ _ => decide (die < 8) && decide (ring < 64)
  | .egressHeadWrite r die ring _ => reqWf r && decide (die < 8) && decide (ring < 64)
  | .replayPrepare site act => decide (site < 1586) && decide (act < 4096)
  | .replayStage die _ => decide (die < 8)
  | .quarantine site _ _ => decide (site < 1586)
  | .promotion site _ => decide (site < 1586)
  | .machineCheckHandling site _ _ => decide (site < 1586)
  | .ledgerGranuleLand die => decide (die < 8)
  | .ledgerEnable r die => reqWf r && decide (die < 8)
  | .ledgerDisable r die => reqWf r && decide (die < 8)
  | .updateBoundary die => decide (die < 8)
  | .grpReadActive r die g => reqWf r && decide (die < 8) && decide (g < 1024)
  | .grpReadShadow r die g => reqWf r && decide (die < 8) && decide (g < 1024)
  | .writeShadow r die g => reqWf r && decide (die < 8) && decide (g < 1024)
  | .grpReadEta r die g => reqWf r && decide (die < 8) && decide (g < 1024)
  | .eventDelivery die _ => decide (die < 8)
  | .holdoffExpiry die g _ => decide (die < 8) && decide (g < 64)
  | .eoi r die t => reqWf r && decide (die < 8) && decide (t < 24)
  | .evgSwset r die src => reqWf r && decide (die < 8) && decide (src < 1024)
  | .fabricLinkUp die _ _ _ => decide (die < 8)
  | .fabricLinkDown die => decide (die < 8)
  | .retrain r die => reqWf r && decide (die < 8)
  | .flitReceive die f _ _ => decide (die < 8) && flitWf f
  | .fabricRequest die q => decide (die < 8) && fabWf q
  | .ingressAdmit die _ => decide (die < 8)
  | .fabricResponse _ _ _ _ => true
  | .fabricTimeout _ => true
  | .timeMarkSend _ => true
  | .timeMarkReceive die _ _ _ => decide (die < 8)
  | .nodeWrite r _ => reqWf r
  | .hostRead bar _ _ => (bar == 0 || bar == 2 || bar == 4 || bar == 7)
  | .hostWrite bar _ _ _ => (bar == 0 || bar == 2 || bar == 4 || bar == 7)
  | .msixUnmask v => decide (v < 2048)
  | .ctxReadEntry r ctx entry => reqWf r && decide (ctx < 64) && decide (entry < 64)
  | .ctxWriteEntry r ctx entry => reqWf r && decide (ctx < 64) && decide (entry < 64)
  | .ctxReadAttr r ctx => reqWf r && decide (ctx < 64)
  | .ctxWriteAttr r ctx => reqWf r && decide (ctx < 64)
  | .publish r ctx => reqWf r && decide (ctx < 64)
  | .publishComplete => true
  | .swapRequest r => reqWf r
  | .swapValidation _ => true
  | .swapCancel r => reqWf r
  | .ssCopy r => reqWf r
  | .actReadActive r act => reqWf r && decide (act < 4096)
  | .actReadShadow r act => reqWf r && decide (act < 4096)
  | .actWriteShadow r act => reqWf r && decide (act < 4096)
  | .asnReadActive r die site => reqWf r && decide (die < 8) && decide (site < Config.sitesPerDie)
  | .asnReadShadow r die site => reqWf r && decide (die < 8) && decide (site < Config.sitesPerDie)
  | .asnWriteShadow r die site => reqWf r && decide (die < 8) && decide (site < Config.sitesPerDie)
  | .d3hotEntry => true
  | .d0Return => true
  | .pmeTurnOff => true
  | .heartbeat => true
  | .takeover => true
  | .sensorSample x => (x.dieTemp.length == 8 && x.stackTemp.length == 8)
  | .eventRetry _ => true
  | .pldmEventAck _ => true
  | .logAck r => reqWf r
  | .entdaa _ _ => true
  | .setdasa _ _ => true
  | .mctpControl _ _ _ => true
  | .pldmDiscovery _ _ _ => true
  | .pldmSensorRead _ _ => true
  | .pldmFruRead _ _ _ => true
  | .requestUpdate _ _ => true
  | .getVersion _ => true
  | .getCapabilities _ => true
  | .negotiateAlgorithms _ _ => true
  | .getDigests _ => true
  | .getCertificate _ _ _ _ => true
  | .challenge _ _ => true
  | .getMeasurements _ _ _ _ => true
  | .chunkSend _ _ _ _ _ => true
  | .chunkGet _ _ _ => true
  | .signingComplete => true
  | .fwVerify r => reqWf r
  | .fwDiscard r => reqWf r
  | .attestationReady => true
  | .debugTokenSubmit r => reqWf r
  | .dbgacc _ _ => true
  | .rehearsalSet r _ => reqWf r
  | .undervoltageWarning => true
  | .undervoltageLockout _ => true
  | .railsOff => true
  | .overcurrent _ => true
  | .overvoltageWarning => true
  | .overvoltageTrip => true
  | .lossOf56v => true
  | .thermalTrip => true
  | .overpower => true
  | .pwrEnRise => true
  | .pwrEnFall _ => true
  | .perstNAssert => true
  | .perstNRelease => true
  | .powerOnReset => true
  | .coldReset _ _ => true
  | .warmReset _ => true
  | .softReset => true
  | .pwrResetSoft r => reqWf r
  | .pwrResetWarm r => reqWf r
  | .softDone => true
  | .ready => true
  | .preqSet r => reqWf r
  | .preqClear r => reqWf r
  | .readLo r addr => reqWf r && (addr % 4 == 0 && decide (addr < 2 ^ 52))
  | .writeHi r addr _ => reqWf r && (addr % 4 == 0 && decide (addr < 2 ^ 52))
  | .registerWrite r addr _ => reqWf r && (addr % 4 == 0 && decide (addr < 2 ^ 52))
  | .pcieLinkDown => true
  | .pcieLinkUp gen _ => decide (gen < 8)
  | .busMasterEnable _ => true
  | .stackHot die _ => decide (die < 8)
  | .pmcCopyComplete die => decide (die < 8)
  | .cbCopyComplete die => decide (die < 8)
  | .ssCopyComplete => true
  | .fwVerifyComplete => true
  | .enableEvents _ _ => true
  | .extest _ => true

end Sys2Proof
end

