-- ==== Sys2Proof/Tests/Slice0.lean ====
section
/-! SUPPORT. Tests: ill-formed commands are refused, one witness for the hypotheses of each statement and its clauses, and commands on
small states. -/

namespace Sys2Proof.Tests

set_option Elab.async false

open Sys2Proof Sys2Proof.Machine

/-- The block out of reset, core 0 out of safe mode and its thread 0 let run. -/
def run : State := ({ State.reset with resetting := .none }.setCfld 0 CFG_CORE_CTRL_SAFE 0).setCfld 0 CFG_CORE_CTRL_HALT 14

/-- Context 0 has expert access. -/
def adept (s : State) : State := { s with attrLive := [(0, 0x20)] }

/-- Its thread 0 changed. -/
def run0 (f : Thread → Thread) : State := run.modThr 0 0 f

/-- Thread 0 of core 0 issues a bundle of one operation after the prefixes. -/
def op (l : List Pfx) : Iss := ⟨0, 0, l, true, false, 0, none, false⟩

/-- `Lone`, decided. -/
def lone (s : State) (i : Iss) (acc : Accepts) (regs : List Nat) : Bool :=
  let x := s.thr i.site i.th
  s.ready i.site i.th && x.bun.isNone && x.late.isEmpty && !x.stepping && !bitOf x.prog.toNat 31 &&
  !x.loads.any (fun l => regs.contains l.dst) && (Iss.pre i).legal acc && i.stop &&
  !(s.core i.site).undefinedAt (Fetched.start_ x.pc) i && !i.residue && i.met == 0 && i.badRow.isNone && !i.broken

theorem lone_of {s : State} {i : Iss} {acc : Accepts} {regs : List Nat} (h : lone s i acc regs = true) : Lone s i acc regs := by
  constructor <;> simp_all [lone]

/-- A property of the next state, decided. -/
def after (r : Res) (p : State → Bool) : Bool :=
  match r with
  | .next t => p t
  | _ => false

-- O1

/-- s0 all ones, s1 a shift of 33, s2 the least number. -/
def sc : State := run0 (fun x => { x with pc := 0xFFFF, s := ((x.s.set 0 0xFFFFFFFF).set 1 33).set 2 0x80000000 })

theorem wit_scalar : Lone sc (op []) acceptsReg (scalarRegs (op []) 0 1) ∧ (Iss.pre (op [])).p = 0 ∧ (Iss.pre (op [])).b = 0 := by
  refine ⟨lone_of ?_, ?_⟩ <;> decide +kernel

theorem wit_scalar_pred : Lone sc (op [.reg 15 true true 3]) acceptsReg (scalarRegs (op [.reg 15 true true 3]) 7 7) ∧
    (Iss.pre (op [.reg 15 true true 3])).p ≠ 0 ∧ (Iss.pre (op [.reg 15 true true 3])).b ≠ 0 := by
  refine ⟨lone_of ?_, ?_⟩ <;> decide +kernel

theorem wit_immediate : Lone sc (op [.imm 0x1FF, .imm 0x1FF, .imm 0x1FF]) acceptsImm [15] := lone_of (by decide +kernel)

theorem test_add_wraps : after (exec (.add (op []) 0 1) sc) (fun t => (t.thr 0 0).s[0] == 32 && (t.thr 0 0).pc == 0) = true := by
  decide +kernel

theorem test_shl_mod_32 : after (exec (.shl (op []) 0 1) sc) (fun t => (t.thr 0 0).s[0] == 0xFFFFFFFE) = true := by decide +kernel

theorem test_sar_sign : after (exec (.sar (op []) 2 1) sc) (fun t => (t.thr 0 0).s[2] == 0xC0000000) = true := by decide +kernel

theorem test_mulh : after (exec (.mulh (op []) 2 0) sc) (fun t => (t.thr 0 0).s[2] == 0) = true := by decide +kernel

theorem test_sltu : after (exec (.sltu (op []) 2 0) sc) (fun t => (t.thr 0 0).s[2] == 1) = true := by decide +kernel

theorem test_slt : after (exec (.slt (op []) 2 0) sc) (fun t => (t.thr 0 0).s[2] == 1) = true := by decide +kernel

/-- LI without prefixes reaches -2 (R132). -/
theorem test_li_least : after (exec (.li (op []) 3 2) sc) (fun t => (t.thr 0 0).s[3] == 0xFFFFFFFE) = true := by decide +kernel

/-- LIH replaces the upper half. -/
theorem test_lih : after (exec (.lih (op [.imm 0x91, .imm 0x115]) 2 1) sc) (fun t => (t.thr 0 0).s[2] == 0x8C550000) = true := by
  decide +kernel

-- O2

theorem wit_branch : (sc.thr 0 0).atLoopEnd (sc.thr 0 0).pc = false ∧ Lone sc (op []) acceptsImm [15] ∧ Lone sc (op []) acceptsImm [] ∧
    (sc.thr 0 0).sreg 3 = 0 ∧ (sc.thr 0 0).sreg 0 ≠ 0 ∧ (sc.thr 0 0).sreg 2 = 0x80000000 := by
  refine ⟨?_, lone_of ?_, lone_of ?_, ?_⟩ <;> decide +kernel

/-- A branch of -2 syllables, taken on the least number. -/
theorem test_branch_back : after (exec (.branch (op []) 2 2 2) sc) (fun t => (t.thr 0 0).pc == 0xFFFD) = true := by decide +kernel

-- O3

/-- A thread with n entries in its shadow stack, m in the core, the spill unit enabled at unit 127. -/
def called (n m : Nat) : State := run0 (fun x =>
  { x with pc := 9, spill := 0xFF, ss := List.replicate m 5, ssDepth := n, s := x.s.set 15 5 })

theorem wit_call : Lone (called 63 63) (op []) acceptsImm [15] ∧ ((called 63 63).thr 0 0).ss.length = 63 ∧
    ((called 63 63).thr 0 0).atLoopEnd 9 = false := by
  refine ⟨lone_of ?_, ?_⟩ <;> decide +kernel

theorem wit_call_spill : Lone (called 2111 64) (op []) acceptsImm [3, 15] ∧ ((called 2111 64).thr 0 0).ssDepth < 2112 ∧
    ((called 2111 64).thr 0 0).ss = 5 :: List.replicate 63 5 ∧ 64 ≤ ((called 2111 64).thr 0 0).ss.length ∧
    bitOf ((called 2111 64).thr 0 0).spill.toNat 7 = true := by
  refine ⟨lone_of ?_, ?_⟩ <;> decide +kernel

theorem wit_ret : Lone (called 1 1) (op []) acceptsImm [15] ∧ ((called 1 1).thr 0 0).ssDepth ≠ 0 ∧
    (((called 1 1).thr 0 0).sreg 15).toNat = (called 1 1).ssEntry 0 0 0 := by
  refine ⟨lone_of ?_, ?_⟩ <;> decide +kernel

theorem wit_ret_mismatch : Lone (called 65 1) (op []) acceptsImm [15] ∧ ((called 65 0).thr 0 0).ssDepth ≠ 0 ∧
    (((called 65 0).thr 0 0).sreg 15).toNat ≠ (called 65 0).ssEntry 0 0 64 := by
  refine ⟨lone_of ?_, ?_⟩ <;> decide +kernel

theorem wit_ret_empty : Lone (called 0 0) (op []) acceptsImm [15] ∧ ((called 0 0).thr 0 0).ssDepth = 0 := by
  refine ⟨lone_of ?_, ?_⟩ <;> decide +kernel

theorem test_call : after (exec (.call (op []) 0x40) (called 63 63)) (fun t =>
    (t.thr 0 0).pc == 9 - 64 && (t.thr 0 0).s[15] == 10 && (t.thr 0 0).ssDepth == 64) = true := by decide +kernel

-- O4

/-- Loop 0 active, its last bundle at 9; program memory's syllable 11 carries a stop bit. -/
def looping : State := (run0 (fun x => { x with pc := 9, lc0 := 2, lp0beg := 7, lp0end := 9, lpctl := 1 })).modCore 0
  (fun c => { c with pm := [(11, 0x2000)] })

/-- No loop active. -/
def flat : State := looping.modThr 0 0 (fun x => { x with lpctl := 0, s := x.s.set 1 7 })

theorem wit_loop : Lone flat (op []) acceptsImm [1] ∧ (flat.thr 0 0).atLoopEnd 9 = false ∧ (flat.thr 0 0).sreg 1 ≠ 0 ∧
    (flat.thr 0 0).sreg 0 = 0 ∧ (flat.core 0).bundleLen (9 + 1 + 1) = some 1 ∧ (run.core 0).bundleLen (9 + 1 + 1) = none := by
  refine ⟨lone_of ?_, ?_⟩ <;> decide +kernel

theorem wit_loop_end : Lone looping (op []) acceptsImm [1, 15] ∧ (looping.thr 0 0).atLoopEnd (looping.thr 0 0).pc = true := by
  refine ⟨lone_of ?_, ?_⟩ <;> decide +kernel

theorem test_loop_skips : after (exec (.loop (op []) 1 0 1) flat) (fun t => (t.thr 0 0).pc == 12 && (t.thr 0 0).lpctl == 0) = true := by
  decide +kernel

theorem test_loop_goes_round : after (exec (.nop (op []) 0 0) looping) (fun t => (t.thr 0 0).pc == 7 && (t.thr 0 0).lc0 == 1) = true := by
  decide +kernel

-- O5 to O7

theorem wit_lanes : 0 < fmtWidth 0xC ∧ 64 * fmtWidth 0xC ≤ 512 ∧ 63 < 64 ∧
    ∀ j : Nat, j < 64 → ((fun _ => (255, Cls.none)) j : Nat × Cls).1 < 2 ^ fmtWidth 0xC :=
  ⟨by decide, by decide, by decide, fun _ _ => (by decide : 255 < 2 ^ fmtWidth 0xC)⟩

theorem wit_vector : Lone sc (op [.reg 15 true true 3]) acceptsVec (vecRegs (op [.reg 15 true true 3]) 5 7) ∧
    vecFmt (Iss.pre (op [.reg 15 true true 3])).fmtCode = true ∧ (Iss.pre (op [.reg 15 true true 3])).hasReg = true := by
  refine ⟨lone_of ?_, ?_⟩ <;> decide +kernel

theorem wit_vector_int : Lone sc (op [.fmt 0xD 0]) acceptsVec (vecRegs (op [.fmt 0xD 0]) 7 7) ∧
    intFmt (Iss.pre (op [.fmt 0xD 0])).fmtCode = true := by
  refine ⟨lone_of ?_, ?_⟩ <;> decide +kernel

theorem wit_broadcast : Lone sc (op []) acceptsVec [16 + 7, 7] ∧ vecFmt (Iss.pre (op [])).fmtCode = true := by
  refine ⟨lone_of ?_, ?_⟩ <;> decide +kernel

theorem wit_compare : Lone sc (op [.reg 0 false true 1]) acceptsVec [16 + 15, 16 + 0] ∧ (5 : BitVec 3).toNat < 6 ∧
    (Iss.pre (op [.reg 0 false true 1])).dh = 0 ∧ (Iss.pre (op [.reg 0 false true 1])).p ≠ 0 := by
  refine ⟨lone_of ?_, ?_⟩ <;> decide +kernel

theorem wit_reduce : Lone sc (op [.reg 2 false false 0]) acceptsVec [7, 16 + 7] ∧ (Iss.pre (op [.reg 2 false false 0])).b = 2 ∧
    (Iss.pre (op [.reg 1 false false 0])).b = 1 ∧ (Iss.pre (op [])).b = 0 ∧ Lone sc (op [.reg 1 false false 0]) acceptsVec [7, 16 + 7] ∧
    Lone sc (op []) acceptsVec [7, 16 + 7] := by
  refine ⟨lone_of ?_, ?_, ?_, ?_, lone_of ?_, lone_of ?_⟩ <;> decide +kernel

theorem wit_convert : Lone sc (op [.fmt 1 0, .fmt 0xF 5]) acceptsCvt (vecRegs (op [.fmt 1 0, .fmt 0xF 5]) 0 1) ∧
    (Iss.pre (op [.fmt 1 0, .fmt 0xF 5])).fmts = [(1, 0), (0xF, 5)] ∧ cvtPair (fmtOr1 1) (fmtOr1 0xF) = true := by
  refine ⟨lone_of ?_, ?_⟩ <;> decide +kernel

/-- v0 holds 1.0 and v1 2^-24 in lane 0, FP32. -/
def vc : State := run0 (fun x => { x with v := (x.v.set 0 0x3F800000).set 1 0x33800000 })

/-- 1.0 + 2^-24 is a tie, which rounds to even (R196). -/
theorem test_vadd_tie : after (exec (.vadd (op []) 0 1) vc) (fun t => (t.thr 0 0).v[0] == 0x3F800000) = true := by decide +kernel

/-- INT8 addition wraps (R143). -/
theorem test_vadd_int8 : after (exec (.vadd (op [.fmt 0xC 0]) 2 2) (run0 (fun x => { x with v := x.v.set 2 0x80 })))
    (fun t => (t.thr 0 0).v[2] == 0) = true := by decide +kernel

-- O8 to O11, O60

/-- s1 is an address of the own scratchpad, s2 of HBM through bank 1, s3 of another core's scratchpad through bank 2; the region table
of context 0 grants everything; v1 all ones. -/
def mm : State := { run0 (fun x => { x with pc := 4, s := (((x.s.set 0 7).set 1 0x7FFC0).set 2 0x20000040).set 3 0x40000080
                                            bk := (x.bk.set 1 1).set 2 0x10000000001, v := x.v.set 1 (BitVec.allOnes 512) }) with
  rgnLive := [(0, 0xFFFFFFFFFFFFF0000000000000000 ||| (0xF <<< 64))] }

/-- The data cache on; it holds line 0x80, dirty. -/
def cached : State := (mm.setCfld 0 DC_CTL_EN 1).modCore 0 (fun c => { c with lines := [⟨0x80, 0, true, false, 5, []⟩] })

theorem wit_load_own : Lone mm (op []) acceptsMem [16 + 0, 1] ∧ ((mm.thr 0 0).effAddr (Iss.pre (op [])) 1) % 64 = 0 ∧
    mm.resolve 0 0 0x7FFC0 64 needR ⟨.n, 0⟩ true = .ok (.own 0x7FFC0) ∧ mm.memBusy 0 0 (padBase 0 + 0x7FFC0) 64 (reachOf false true 0x7FFC0) = false ∧
    (mm.loadPlan (op []) .vec 16 0x7FFC0 false) =
      .ok [.load ⟨.vec, 16, 0x7FFC0, padBase 0 + 0x7FFC0, true, false, 0, 0, none, some (List.replicate 64 0, false, 0), 0, []⟩] := by
  refine ⟨lone_of ?_, ?_⟩ <;> decide +kernel

theorem wit_load_hbm : Lone mm (op []) acceptsMem [0, 2] ∧ mm.resolve 0 0 0x20000040 4 needR ⟨.n, 0⟩ true = .ok (.glob 0x40) ∧
    mm.isRegSpace 0x40 = false ∧ mm.memBusy 0 0 0x40 4 (reachOf false false 0x20000040) = false ∧ mm.cacheable 0 0x40 = false ∧ mm.isLocal 0x40 = true := by
  refine ⟨lone_of ?_, ?_⟩ <;> decide +kernel

theorem wit_load_miss : Lone cached (op []) acceptsMem [0, 2] ∧ cached.resolve 0 0 0x20000040 4 needR ⟨.n, 0⟩ true = .ok (.glob 0x40) ∧
    cached.memBusy 0 0 0x40 4 (reachOf false false 0x20000040) = false ∧ cached.cacheable 0 0x40 = true ∧ (cached.core 0).line 0x40 = none ∧
    (cached.core 0).demand = none ∧ (cached.core 0).ahead = none ∧ cached.isLocal 0x40 = true := by
  refine ⟨lone_of ?_, ?_⟩ <;> decide +kernel

theorem wit_load_hit : Lone cached (op [.imm 0x7C]) acceptsMem [0, 2] ∧
    cached.resolve 0 0 0x200000BC 4 needR ⟨.n, 0⟩ true = .ok (.glob 0xBC) ∧ cached.memBusy 0 0 0xBC 4 (reachOf false false 0x200000BC) = false ∧
    cached.cacheable 0 0xBC = true ∧ (cached.core 0).line 0xBC = some ⟨0x80, 0, true, false, 5, []⟩ := by
  refine ⟨lone_of ?_, ?_⟩ <;> decide +kernel

/-- A byte, and a poisoned vector, have arrived. -/
def landed : State := run0 (fun x => { x with loads := [⟨.b, 15, 0, padBase 0, true, false, 0, 0, none, some ([0x80], false, 0), 0, []⟩,
  ⟨.vec, 31, 0, padBase 0, true, false, 0, 0, none, some (List.replicate 64 1, true, 0), 0, []⟩] })

theorem wit_arrival : (landed.thr 0 0).loads[0]? =
      some ⟨.b, 15, 0, padBase 0, true, false, 0, 0, none, some ([0x80], false, 0), 0, []⟩ ∧ [(0x80 : Byte)].length = LdKind.b.size ∧
    LdKind.b.consumes = true ∧ ((landed.thr 0 0).loads[1]?.map (·.resp)) = some (some (List.replicate 64 1, true, 0)) ∧
    LdKind.vec.consumes = true ∧ (List.replicate 64 (1 : Byte)).length = LdKind.vec.size := by decide +kernel

theorem test_ldb_sign : after (exec (.loadDataArrival 0 0 0 .ok) landed) (fun t =>
    (t.thr 0 0).s[15] == 0xFFFFFF80 && (t.thr 0 0).loads.length == 1) = true := by decide +kernel

theorem test_poison_consumed : after (exec (.loadDataArrival 0 0 1 .ok) landed) (fun t =>
    (t.thr 0 0).v[15] == 0 && (t.thr 0 0).loads.length == 1) = true := by decide +kernel

theorem wit_store_own : Lone mm (op []) acceptsMem [16 + 1, 1] ∧ mm.resolve 0 0 0x7FFC0 64 needW ⟨.n, 0⟩ false = .ok (.own 0x7FFC0) ∧
    mm.memBusy 0 0 (padBase 0 + 0x7FFC0) 64 (reachOf true true 0x7FFC0) = false ∧ mm.slotHeld 0 0x7FFC0 64 = false := by
  refine ⟨lone_of ?_, ?_⟩ <;> decide +kernel

theorem wit_store_hbm : Lone mm (op []) acceptsMem [0, 2] ∧ mm.resolve 0 0 0x20000040 4 needW ⟨.n, 0⟩ false = .ok (.glob 0x40) ∧
    mm.isRegSpace 0x40 = false ∧ mm.memBusy 0 0 0x40 4 (reachOf true false 0x20000040) = false ∧ mm.cacheable 0 0x40 = false := by
  refine ⟨lone_of ?_, ?_⟩ <;> decide +kernel

theorem wit_store_line : Lone cached (op [.imm 0x40]) acceptsMem [16 + 1, 2] ∧
    cached.resolve 0 0 0x20000080 64 needW ⟨.n, 0⟩ false = .ok (.glob 0x80) ∧ cached.memBusy 0 0 0x80 64 (reachOf true false 0x20000080) = false ∧
    cached.cacheable 0 0x80 = true ∧ (cached.core 0).line 0x80 = some ⟨0x80, 0, true, false, 5, []⟩ := by
  refine ⟨lone_of ?_, ?_⟩ <;> decide +kernel

theorem test_stb : after (exec (.stb (op [.imm 0x3F]) 0 1) mm) (fun t =>
    t.byte (padBase 0 + 0x7FFFF) == 7 && t.mem.length == 1 && (t.thr 0 0).pc == 6) = true := by decide +kernel

theorem test_stw_posted : after (exec (.stw (op []) 0 2) mm) (fun t =>
    t.inflight.map (·.data) == [[7, 0, 0, 0]] && t.mem == []) = true := by decide +kernel

theorem wit_atomic_own : Lone mm (op []) acceptsMem [0, 1, 0] ∧ mm.resolve 0 0 0x7FFC0 4 needA ⟨.n, 0⟩ true = .ok (.own 0x7FFC0) ∧
    mm.memBusy 0 0 (padBase 0 + 0x7FFC0) 4 (reachOf true true 0x7FFC0) = false ∧ mm.slotHeld 0 0x7FFC0 4 = false := by
  refine ⟨lone_of ?_, ?_⟩ <;> decide +kernel

theorem wit_cas : Lone mm (op [.reg 4 false false 0]) acceptsMem [5, 1, 4] ∧ (Iss.pre (op [.reg 4 false false 0])).hasReg = true ∧
    (mm.thr 0 0).sreg 5 = 0 ∧ (mm.thr 0 0).sreg 0 ≠ 0 := by
  refine ⟨lone_of ?_, ?_⟩ <;> decide +kernel


theorem wit_atomic_hbm : Lone mm (op []) acceptsMem [0, 2, 0] ∧ mm.resolve 0 0 0x20000040 4 needA ⟨.n, 0⟩ true = .ok (.glob 0x40) ∧
    mm.isRegSpace 0x40 = false ∧ mm.isLocal 0x40 = true ∧ mm.memBusy 0 0 0x40 4 (reachOf true false 0x20000040) = false ∧ (mm.core 0).line 0x40 = none := by
  refine ⟨lone_of ?_, ?_⟩ <;> decide +kernel

theorem test_aswp : after (exec (.aswp (op []) 0 1) mm) (fun t => t.byte (padBase 0 + 0x7FFC0) == 7) = true := by decide +kernel

theorem wit_dc : Lone cached (op [.reg 1 false false 0]) acceptsMem [1] ∧
    (cached.thr 0 0).bankAddr ((cached.thr 0 0).effAddr (Iss.pre (op [.reg 1 false false 0])) 1) = .ok none ∧
    (cached.thr 0 0).bankAddr ((cached.thr 0 0).effAddr (Iss.pre (op [.reg 1 false false 0])) 2) = .ok (some 0x40) ∧
    (cached.core 0).line 0x40 = none ∧ (Iss.pre (op [.reg 1 false false 0])).b = 1 := by
  refine ⟨lone_of ?_, ?_⟩ <;> decide +kernel

theorem wit_dc_line : Lone cached (op [.imm 0x40, .reg 2 false false 0]) acceptsMem [2] ∧
    (cached.thr 0 0).bankAddr ((cached.thr 0 0).effAddr (Iss.pre (op [.imm 0x40, .reg 2 false false 0])) 2) = .ok (some 0x80) ∧
    (cached.core 0).line 0x80 = some ⟨0x80, 0, true, false, 5, []⟩ ∧ cached.memBusy 0 0 0x80 64 (reachOf true false 0x20000080) = false ∧
    cached.permitted 0 0x80 64 needW = true := by
  refine ⟨lone_of ?_, ?_⟩ <;> decide +kernel

theorem test_dc_invalidate_discards : after (exec (.dcInvalidate (op [.imm 0x40, .reg 1 false false 0]) 0 2) cached) (fun t =>
    (t.core 0).lines == [] && t.inflight == []) = true := by decide +kernel

theorem test_dc_clean : after (exec (.dcClean (op [.imm 0x40]) 0 2) cached) (fun t =>
    (t.core 0).lines.map (·.dirty) == [false] && t.inflight.map (·.loc) == [0x80]) = true := by decide +kernel

-- O12 to O14

/-- Tile 1 of 4 rows of 32 bytes INT8, full; tile 2 the same with scales; both accumulators INT32 4 x 4; s1 a tile configuration,
s2 that of an accumulator, s3 names accumulator 1 row 3. -/
def tl : State := (run0 (fun x => { x with pc := 2, s := (((x.s.set 1 0x6383).set 2 0x463).set 3 0x23).set 4 0x40 })).modCore 0 (fun c =>
  { c with tiles := (c.tiles.set 1 ⟨[(0, 5)], 0, 0, 0x80006383⟩).set 2 ⟨[], 7, 0, 0x8000E383⟩
           acc := c.acc.map (fun _ => ⟨[], 0xC0000463, [], [], [], []⟩) })

theorem wit_tile : (0 : Nat) < Config.sites ∧ tl.safe 0 = false ∧ Lone tl (op []) acceptsTile [1] ∧ (Iss.pre (op [])).named false false = true ∧
    (tl.core 0).tileBusy ⟨[], bothSides 7⟩ false = false ∧ tl.tileOk 0 0 7 = true ∧ bitsOf 0x6383 16 16 = 0 ∧ bitsOf 0x6383 5 2 = 0 ∧
    shapeOk (bitsOf 0x6383 11 4) ((bitsOf 0x6383 7 4 + 1) * 4) (bitOf 0x6383 15) = true := by
  refine ⟨?_, ?_, lone_of ?_, ?_⟩ <;> decide +kernel

theorem wit_tile_row : Lone tl (op [.imm 3]) acceptsRow [16 + 7] ∧ Lone tl (op []) Accepts.none [] ∧ tl.tileOk 0 0 1 = true ∧
    (Iss.pre (op [.imm 3])).immS 0 0 < ((tl.core 0).tile 1).nrows ∧ ((tl.core 0).tile 1).poisoned 3 = false ∧
    (tl.core 0).tileBusy ⟨[1], []⟩ false = false ∧ (tl.core 0).tileBusy ⟨[], [1]⟩ false = false := by
  refine ⟨lone_of ?_, lone_of ?_, ?_⟩ <;> decide +kernel

theorem wit_acc : Lone tl (op []) acceptsTile [2] ∧ tl.accOk 0 0 1 = true ∧ bitsOf 0x463 11 21 = 0 ∧ (4 : BitVec 3) = BitVec.ofNat 3 (4 * 1) ∧
    (tl.core 0).tileBusy ⟨[], [17]⟩ false = false ∧ Lone tl (op []) acceptsTile [3, 16 + 6, 17 + 6] ∧
    (Iss.pre (op [])).named true false = true ∧ bitsOf 0x23 6 26 = 0 ∧ bitsOf 0x23 5 1 = 1 ∧ bitsOf 0x23 0 5 < ((tl.core 0).accum 1).mrows ∧
    (tl.core 0).tileBusy ⟨[17], []⟩ false = false ∧ ((tl.core 0).accum 1).dirty = true ∧ ((run.core 0).accum 1).dirty = false := by
  refine ⟨lone_of ?_, ?_, ?_, ?_, ?_, lone_of ?_, ?_⟩ <;> decide +kernel

theorem wit_scales : Lone tl (op []) acceptsTile [4] ∧ tl.tileOk 0 0 2 = true ∧ ((tl.core 0).tile 2).scaleBytes = 4 ∧
    ((tl.core 0).tile 1).scaleBytes = 0 ∧ tl.resolve 0 0 0x40 4 needR ⟨.n, 0⟩ false = .ok (.own 0x40) ∧
    tl.resolve 0 0 0x40 4 needW ⟨.n, 0⟩ false = .ok (.own 0x40) ∧ tl.memBusy 0 0 (padBase 0 + 0x40) 4 (reachOf true true 0x40) = false ∧
    tl.memBusy 0 0 (padBase 0 + 0x40) 4 (reachOf false true 0x40) = false ∧ tl.slotHeld 0 0x40 4 = false ∧
    (tl.core 0).tileBusy ⟨[], [10]⟩ false = false ∧ (tl.core 0).tileBusy ⟨[10], []⟩ false = false := by
  refine ⟨lone_of ?_, ?_⟩ <;> decide +kernel

theorem test_tsts : after (exec (.tsts (op []) 2 4) tl) (fun t => t.byte (padBase 0 + 0x40) == 7) = true := by decide +kernel

theorem test_tcfg : after (exec (.tcfg (op []) 3 1) tl) (fun t => ((t.core 0).tile 3).cfg == 0x80006383) = true := by decide +kernel

theorem wit_long : Lone tl (op []) acceptsTile (moveRegs (op []) 4) ∧ (Iss.pre (op [])).named false true = true ∧ 0x40 % 4 = 0 ∧
    ((tl.core 0).tile 1).rb % 4 = 0 ∧ ((tl.core 0).tile 1).anyPoison 0 = false ∧ tl.accOk 0 0 0 = true ∧
    mmaOk ((tl.core 0).tile 1) ((tl.core 0).tile 1) ((tl.core 0).accum 0) = true ∧
    (tl.core 0).tileBusy ⟨bothSides 1 ++ bothSides 1, [16]⟩ true = false ∧ (tl.core 0).tileBusy ⟨bothSides 1 ++ bothSides 1, [17]⟩ true = false := by
  refine ⟨lone_of ?_, ?_⟩ <;> decide +kernel

theorem wit_cvt : Lone tl (op []) acceptsFmt [] ∧ cvtTyped ((tl.core 0).tile 1).fmt = true ∧ Lone tl (op [.fmt 0xC 0]) acceptsFmt [] ∧
    (Iss.pre (op [.fmt 0xC 0])).fmtIs ((tl.core 0).tile 1).fmt = true ∧ (tl.core 0).tileBusy ⟨bothSides 1, bothSides 1⟩ false = false ∧
    ((tl.core 0).tile 1).nrows = ((tl.core 0).accum 1).mrows ∧ ((tl.core 0).accum 1).ncols ≤ ((tl.core 0).tile 1).elems ∧
    (tl.core 0).tileBusy ⟨[17], bothSides 1⟩ false = false := by
  refine ⟨lone_of ?_, ?_, lone_of ?_, ?_⟩ <;> decide +kernel

/-- Thread 0 runs a TLD of tile 1 from the own scratchpad; with HALT set it must stop at a boundary. -/
def loading : State := tl.modThr 0 0 (fun x =>
  { x with long := some ⟨2, 1, 0, 0x100, 32, 0, false, 0, 0, 0, none, none, (tl.thr 0 0).bk, (tl.thr 0 0).slice, (tl.thr 0 0).spill⟩, after := some ⟨2, 3, [], []⟩ })

/-- It runs a TMMA. -/
def multiplying : State := tl.modThr 0 0 (fun x =>
  { x with long := some ⟨4, 1, 1, 0, 0, 0, false, 0, 0, 0, none, none, (tl.thr 0 0).bk, (tl.thr 0 0).slice, (tl.thr 0 0).spill⟩, after := some ⟨2, 3, [], []⟩ })

theorem wit_long_ends : (loading.thr 0 0).long = some ⟨2, 1, 0, 0x100, 32, 0, false, 0, 0, 0, none, none, (tl.thr 0 0).bk, (tl.thr 0 0).slice, (tl.thr 0 0).spill⟩ ∧
    (loading.thr 0 0).after = some ⟨2, 3, [], []⟩ ∧ loading.gated 0 = false ∧
    (match loading.runRows 0 0 (loading.rowsOf 0 ⟨2, 1, 0, 0x100, 32, 0, false, 0, 0, 0, none, none, (tl.thr 0 0).bk, (tl.thr 0 0).slice, (tl.thr 0 0).spill⟩) .ok 0 33 with
      | .reached u => (u.thr 0 0).after == some ⟨2, 3, [], []⟩
      | _ => false) = true ∧
    (multiplying.thr 0 0).after = some ⟨2, 3, [], []⟩ ∧ multiplying.gated 0 = false := by decide +kernel

/-- Tile 1 with 8 rows, the thread halted. -/
def stopping : State := (loading.modTile 0 1 (fun t => { t with cfg := 0x80006387 })).setHalt 0 0 true

theorem wit_long_stops : stopping.mustStop 0 0 = true ∧ 4 < stopping.rowsOf 0 ⟨2, 1, 0, 0x100, 32, 0, false, 0, 0, 0, none, none, (tl.thr 0 0).bk, (tl.thr 0 0).slice, (tl.thr 0 0).spill⟩ ∧
    (match stopping.runRows 0 0 4 .ok 0 33 with
      | .reached _ => true
      | _ => false) = true := by decide +kernel

theorem test_long_stop : after (exec (.tileOpStop 0 ⟨0, .ok, 0⟩ 4) stopping) (fun t => (t.thr 0 0).prog == progWord 2 false 0 0 4) = true := by
  decide +kernel

/-- A TLD of tile 1 stopped at row 31. -/
def resumed (code : Nat) : State := tl.modThr 0 0 (fun x => { x with prog := progWord code true 0 0 31 })

theorem wit_resume : Lone ((resumed 2).on (op []) (fun y => { y with prog := 0 })) (op []) acceptsTile (moveRegs (op []) 4) ∧
    Lone ((resumed 3).on (op []) (fun y => { y with prog := 0 })) (op []) Accepts.none [] ∧
    ((resumed 3).core 0).tileBusy ⟨[1], []⟩ false = false ∧ ((resumed 2).core 0).tileBusy ⟨[], [1]⟩ false = false ∧
    (resumed 2).safe 0 = false ∧ (resumed 2).tileOk 0 0 1 = true := by
  refine ⟨lone_of ?_, lone_of ?_, ?_⟩ <;> decide +kernel

theorem wit_group : (((tl.core 0).accum 0).int) = true ∧ [0, 31].Nodup ∧ [31].Nodup ∧ (∀ k ∈ [31], k < 32) := by decide +kernel

-- O15 to O17

/-- Cue handle 63 of context 0 maps to counter 5 on core 0 with a count of 1, handle 62 to counter 6 with 0; s1 and s2 name targets. -/
def cues : State :=
  let s := run0 (fun x => { x with pc := 2, s := ((x.s.set 1 0x80000000).set 2 7).set 3 0x00002005 })
  let s := s.setCfld 0 (CFG_CUE_BIND_V 0) 1
  let s := s.setCfld 0 (CFG_CUE_MAP_V 63) 1
  let s := s.setCfld 0 (CFG_CUE_MAP_CNT 63) 5
  let s := s.setCfld 0 (CFG_CUE_MAP_V 62) 1
  let s := s.setCfld 0 (CFG_CUE_MAP_CNT 62) 6
  s.setCue 0 5 1

theorem wit_cue_map : cues.cueMap 0 0 63 = some (5, false) ∧ cues.cueMap 0 0 62 = some (6, false) ∧ cues.cueMap 0 0 0 = none ∧
    cues.cueCount 0 5 = 1 ∧ cues.cueCount 0 6 = 0 := by decide +kernel

theorem wit_csig : Lone cues (op [.imm 63]) acceptsSync [1] ∧ (Iss.pre (op [.imm 63])).sync false = true ∧
    (Iss.pre (op [.imm 63])).imm = 63 ∧ (tgtOf 0x80000000).clean = true ∧ (tgtOf 0x80000000).isLocal = true ∧
    (tgtOf 7).isLocal = false ∧ cues.tgtHere (tgtOf 7) = true ∧ (tgtOf 7).site ≠ 0 ∧ cues.good (tgtOf 7).site = true ∧
    cues.tgtHere (tgtOf 0x2005) = false ∧ (tgtOf 0x2005).clean = true ∧ Lone cues (op []) acceptsSync [1] := by
  refine ⟨lone_of ?_, ?_, ?_, ?_, ?_, ?_, ?_, ?_, ?_, ?_, ?_, lone_of ?_⟩ <;> decide +kernel

theorem wit_cwait : Lone cues (op [.imm 63]) acceptsSync [1, 0] ∧ (Iss.pre (op [.imm 63])).sync true = true ∧
    Lone cues (op [.imm 62, .reg 0 false false 0]) acceptsSync [1, 0] ∧ (Iss.pre (op [.imm 62, .reg 0 false false 0])).hasReg = true ∧
    (Iss.pre (op [.imm 62, .reg 0 false false 0])).imm = 62 ∧ (cues.thr 0 0).sreg 0 = 0 ∧ bitOf (cues.thr 0 0).syncCtl.toNat 0 = false ∧
    (Iss.pre (op [.imm 62])).hasReg = false ∧ Lone cues (op [.imm 62]) acceptsSync [1, 0] := by
  refine ⟨lone_of ?_, ?_, lone_of ?_, ?_, ?_, ?_, ?_, ?_, lone_of ?_⟩ <;> decide +kernel

theorem wit_disarm : Lone cues (op [.imm 127]) acceptsSync [0, 0] ∧ (Iss.pre (op [.imm 127])).imm = 127 ∧ (Iss.pre (op [.imm 127])).b = 0 := by
  refine ⟨lone_of ?_, ?_⟩ <;> decide +kernel

theorem test_cwait_takes : after (exec (.cwait (op [.imm 63]) 1 0) cues) (fun t => t.cueCount 0 5 == 0 && (t.thr 0 0).s[1] == 0) = true := by
  decide +kernel

theorem test_ctake_underflow : after (exec (.ctake (op [.imm 62]) 1 0) cues) (fun t =>
    (t.thr 0 0).sv1.cause == 0x12 && (t.thr 0 0).sv1.addr == 62) = true := by decide +kernel

theorem test_carm_fires : after (exec (.carm (op [.imm 63]) 0 0) cues) (fun t => (t.thr 0 0).pendBits == 1) = true := by decide +kernel

/-- Queue 2 of core 0 on region 1 of 16 units, for context 0, read by thread 0; s2 names it. -/
def queued : State :=
  let s := run0 (fun x => { x with pc := 2, s := x.s.set 2 0x82000000, staging := List.replicate 31 9 })
  let s := s.setCfld 0 (QQ_CFG_EN 2) 1
  let s := s.setCfld 0 (QQ_CFG_REGION 2) 1
  s.setCfld 0 (CR_CFG_SIZEM1 1) 15

theorem wit_qsend : Lone queued (op []) acceptsSync [16 + 1] ∧ (Iss.pre (op [])).imm < 8 ∧
    (queued.thr 0 0).staging.length + ((queued.thr 0 0).piece 1 0).length ≤ 32 ∧
    Lone queued (op [.reg 2 false false 0]) acceptsSync [16 + 1, 2] ∧ dstClean 0x82000000 = true ∧
    queued.dstSite 0 0x82000000 = some 0 ∧ bitOf 0x82000000 31 = true ∧ queued.qClaimedBy 0 2 0 0 = false ∧
    bitOf (queued.thr 0 0).syncCtl.toNat 1 = false := by
  refine ⟨lone_of ?_, ?_, ?_, lone_of ?_, ?_⟩ <;> decide +kernel

theorem wit_qtry : (queued.qTry 0 2 ⟨1, List.replicate 32 9, 0, 0, 0, 0, 0, 0, []⟩).2 = .claimed ∧
    (queued.qTry 0 2 ⟨1, List.replicate 32 9, 0, 0, 1, 0, 0, 0, []⟩).2 = .status 3 ∧
    (queued.qTry 0 3 ⟨1, List.replicate 32 9, 0, 0, 0, 0, 0, 0, []⟩).2 = .status 1 ∧
    ((queued.setCfld 0 (CR_FILL_FILL 1) 16).qTry 0 2 ⟨1, List.replicate 32 9, 0, 0, 0, 0, 0, 0, []⟩).2 = .full := by decide +kernel

/-- A message stands at its head; in `held` it is received. -/
def headed : State := queued.modCore 0 (fun c => { c with qReady := c.qReady.set 2 [⟨1, [3], 0, 1, 0, 0, 1, 0, []⟩] })
def held : State := headed.modCore 0 (fun c => { c with qHeld := c.qHeld.set 2 (some ⟨1, [3], 0, 1, 0, 0, 1, 0, []⟩) })

theorem wit_qrecv : Lone headed (op []) acceptsSync [1, 0] ∧ (Iss.pre (op [])).sync true = true ∧ headed.readerOk 0 0 2 = true ∧
    headed.qHolds 0 2 = false ∧ headed.qHead 0 2 = some ⟨1, [3], 0, 1, 0, 0, 1, 0, []⟩ ∧
    headed.qResult 0 2 ⟨1, [3], 0, 1, 0, 0, 1, 0, []⟩ < 2 ^ 30 ∧ queued.qHead 0 2 = none ∧ run.qHead 0 2 = none ∧
    run.cflag 0 (QQ_CFG_EN 2) = false ∧ run.readerOk 0 0 2 = true ∧ (Iss.pre (op [])).hasReg = false := by
  refine ⟨lone_of ?_, ?_⟩ <;> decide +kernel

theorem wit_qrelease : Lone held (op [.imm 1]) acceptsSync [1, 0] ∧ (Iss.pre (op [.imm 1])).imm = 1 ∧ held.qHolds 0 2 = true ∧
    Lone held (op [.imm 2]) acceptsSync [1, 0] ∧ (Iss.pre (op [.imm 2])).imm = 2 ∧ Lone held (op [.imm 1]) acceptsSync [] ∧
    (Iss.pre (op [.imm 1])).sync false = true ∧ (Iss.pre (op [.imm 1])).ah = 0 := by
  refine ⟨lone_of ?_, ?_, ?_, lone_of ?_, ?_, lone_of ?_, ?_⟩ <;> decide +kernel

theorem test_qrecv_result : after (exec (.qrecv (op []) 1 2) headed) (fun t => (t.thr 0 0).s[1] == 0x80008) = true := by decide +kernel

/-- A descriptor of 64 bytes from the own scratchpad's window to HBM at s1; the region table grants everything; fills of HBM. -/
def descr : State := mm.setBytes (padBase 0 + 0x7FFC0) (leBytes 4 0 ++ leBytes 4 64 ++ leBytes 8 0x10000000000 ++ leBytes 8 0x1000)

theorem wit_dmago : Lone descr (op []) acceptsSync [1] ∧ (Iss.pre (op [])).imm = 0 ∧ 0x7FFC0 % 64 = 0 ∧
    descr.checkOwn 0 0 0x7FFC0 0x7FFC0 64 needR ⟨.n, 0⟩ = .ok (.own 0x7FFC0) ∧ descr.memBusy 0 0 (padBase 0 + 0x7FFC0) 64 (reachOf false true 0x7FFC0) = false ∧
    descr.poisoned (padBase 0 + 0x7FFC0) 64 = false ∧
    descr.checkDesc 0 0 0x7FFC0 (descOf (BitVec.ofNat 512 (leNat (descr.padBytes 0 0x7FFC0 64)))) = none ∧
    (descr.core 0).chans[1].queue.length < 4 ∧
    descr.dmaBusy 0 0 (descOf (BitVec.ofNat 512 (leNat (descr.padBytes 0 0x7FFC0 64)))) = false := by
  refine ⟨lone_of ?_, ?_⟩ <;> decide +kernel

theorem test_dmago_ticket : after (exec (.dmago (op []) 1 1) descr) (fun t =>
    (t.thr 0 0).s[1] == 0 && ((t.core 0).chans[1].queue.map (·.ticket)) == [0] && (t.core 0).chans[1].next == 1) = true := by decide +kernel

/-- A channel halted on a command of thread 0. -/
def haltedCh : State := run.modCore 0 (fun c => { c with chans := c.chans.set 1 { Chan.reset with
  run := some ⟨0, 0, 0, 0, none, 0, [], 0, [], none, none, 0⟩, halt := true } })

theorem wit_dmawait : Lone run (op []) acceptsSync [1, 0] ∧ run.ticketDone 0 1 0xFFFF = true ∧ run.ticketDone 0 1 0 = false ∧
    (run.core 0).chans[1].haltedOn 0 = false ∧ Lone haltedCh (op []) acceptsSync [1, 0] ∧ haltedCh.ticketDone 0 1 0 = false ∧
    (haltedCh.core 0).chans[1].haltedOn 0 = true := by
  refine ⟨lone_of ?_, ?_, ?_, ?_, lone_of ?_, ?_⟩ <;> decide +kernel

theorem wit_drain : run.drained 0 0 = true ∧ haltedCh.drained 0 0 = false ∧ (haltedCh.core 0).chans[1].haltedFor 0 = true ∧
    (after (exec (.dmago (op []) 1 1) descr) (fun t => !t.drained 0 0 && !(t.core 0).chans[1].haltedFor 0)) = true := by decide +kernel

/-- s1 is a destination at the scratchpad's end, s2 a source, s3 a length of 64. -/
def mfilling : State := run0 (fun x => { x with s := ((x.s.set 1 0x7FFC0).set 2 0).set 3 64 })

theorem wit_mem : Lone mfilling (op [.reg 0 false false 0]) acceptsSync ((memRegs (op [.reg 0 false false 0]) 1 3).map Fin.val) ∧
    mfilling.memPlan (op [.reg 0 false false 0]) (Iss.pre (op [.reg 0 false false 0])) true 0x7FFC0 0 64 0 =
      .ok [.mem true 0x7FFC0 0 64 0 none] ∧
    mfilling.memPlan (op [.reg 0 false false 0]) (Iss.pre (op [.reg 0 false false 0])) false 0x7FFC0 0 0 0 =
      .ok [.mem false 0x7FFC0 0 0 0 none] := by
  refine ⟨lone_of ?_, ?_⟩ <;> decide +kernel

/-- A copy and a fill of the core wait. -/
def filling : State := run.modCore 0 (fun c => { c with memOps := [⟨1, true, 0x7FFC0, 0, 64, 0x04030201, some 3, 0, 0, [], none, 0⟩,
  ⟨2, false, 0, 0x7FFC0, 64, 0, none, 0, 0, [], none, 0⟩] })

theorem wit_mem_done : (filling.core 0).memOps.map (·.len % 64) = [0, 0] ∧ (filling.core 0).memOps.map (·.fill) = [true, false] := by
  decide +kernel

theorem test_mfill : after (exec (.memoryOpComplete ⟨0, 9⟩) filling) (fun t =>
    t.byte (padBase 0 + 0x7FFFF) == 4 && t.mem.length == 64 && t.signals.map (·.handle) == [3]) = true := by decide +kernel

-- O18 to O21

/-- Thread 0 with wake sources 0 and 1 enabled, source 1 pending. -/
def waking (pend : Nat) : State := run0 (fun x => { x with wake := BitVec.ofNat 32 (3 + 2 ^ 16 * pend) })

theorem wit_sleep : Lone run (op []) Accepts.none [] ∧ (run.thr 0 0).maskBits = 0 ∧ Lone (waking 2) (op []) Accepts.none [] ∧
    ((waking 2).thr 0 0).maskBits ≠ 0 ∧ ((waking 2).thr 0 0).pendBits &&& (((waking 2).thr 0 0).maskBits ||| 2 ^ 4) ≠ 0 ∧
    Lone (waking 4) (op []) Accepts.none [] ∧ ((waking 4).thr 0 0).pendBits &&& (((waking 4).thr 0 0).maskBits ||| 2 ^ 4) = 0 := by
  refine ⟨lone_of ?_, ?_, lone_of ?_, ?_, ?_, lone_of ?_, ?_⟩ <;> decide +kernel

/-- A batch of act 1 with one slot runs on core 0; s1 names the slot, s2 its length 64. -/
def batched : State := (run0 (fun x => { x with s := (x.s.set 1 0).set 2 64 })).modCore 0 (fun c => { c with
  batch := some ⟨1, 0, 0, false, 0, [⟨5, 0, 256, 1, 0, false, 0, false, false, 0⟩], 1, true, []⟩, stgCount := 1 })

theorem wit_stepend : Lone batched (op []) acceptsReg [1, 2] ∧ (Iss.pre (op [])).sys true = true ∧ batched.inBatch (op []) = true ∧
    run.inBatch (op []) = false ∧ ((batched.core 0).batch.map (fun b => b.slots[0]?.map (·.ended))) = some (some false) := by
  refine ⟨lone_of ?_, ?_⟩ <;> decide +kernel

theorem wit_batchend : Lone batched (op []) Accepts.none [] ∧ (batched.cleanAll 0 0).cleaning 0 = false ∧
    (((batched.setCfld 0 DC_CTL_EN 1).modCore 0 (fun c => { c with lines := [⟨0x80, 0, true, false, 5, []⟩] })).cleanAll 0 0).cleaning 0 = true := by
  refine ⟨lone_of ?_, ?_⟩ <;> decide +kernel

theorem test_batchend : after (exec (.batchend (op []) 0 0) batched) (fun t => (t.core 0).batch == none && (t.core 0).stgCount == 0) = true := by
  decide +kernel

/-- Thread 0 at level l, thread 1 delivered, at L1. -/
def trapped (l : Level) : State := ((run0 (fun x => { x with level := l, sv1 := { x.sv1 with pc := 77 }, sv2 := { x.sv2 with pc := 99 } })).modThr
  0 1 (fun x => { x with level := .l1, sv1 := { x.sv1 with pc := 55 } })).modCore 0 (fun c => { c with trapCtl := 0x50000002, trapPend := 2 })

theorem wit_trap : Lone run (op []) Accepts.none [] ∧ (run.thr 0 0).level = .l0 ∧ run.rehearsal 0 = false ∧ run.replaying 0 0 = false ∧
    (run.setRg64 (dkey 0 MGT_REH_LO_CTX.off) 1).rehearsal 0 = true ∧
    (batched.modCore 0 (fun c => { c with batch := c.batch.map (fun b => { b with replay := true }) })).replaying 0 0 = true := by
  refine ⟨lone_of ?_, ?_⟩ <;> decide +kernel

theorem wit_eret : Lone (trapped .l1) (op []) Accepts.none [] ∧ Lone (trapped .l2) (op []) Accepts.none [] ∧
    ((trapped .l1).thr 0 0).level = .l1 ∧ bitOf ((trapped .l1).core 0).trapPend.toNat 1 = true ∧
    Lone (run.setHalt 0 3 false) ⟨0, 3, [], true, false, 0, none, false⟩ Accepts.none [] ∧ ((run.setHalt 0 3 false).thr 0 3).level ≠ .l2 := by
  refine ⟨lone_of ?_, lone_of ?_, ?_, ?_, lone_of ?_, ?_⟩ <;> decide +kernel

/-- Thread 3 traps: it stops, and is delivered to thread 0 (R327). -/
theorem test_trap_delivers : after (exec (.trap ⟨0, 3, [], true, false, 0, none, false⟩ 7 7) (run.setHalt 0 3 false)) (fun t =>
    (t.core 0).trapPend == 8 && t.halted 0 3 && (t.thr 0 3).sv1.cause == 0x3F0018 && (t.thr 0 3).sv1.pc == 1) = true := by decide +kernel

theorem test_eret_returns : after (exec (.eret (op []) 0 0) (trapped .l1)) (fun t => (t.thr 0 0).pc == 77 && (t.thr 0 0).level == .l0) = true := by
  decide +kernel

theorem wit_stregs : Lone run (op []) acceptsNum [7] ∧ (Iss.pre (op [])).sys false = true ∧
    stNumber 0 ((Iss.pre (op [])).immU 3 3) 32 = .ok (3, 0) ∧ stNumber 0 0x025 32 = .ok (0x025, 0) ∧
    stNumber 0 0x084 32 = .ok (0x084, 0) ∧ run.stWriteFault 0 0 0x084 5 = none ∧ (adept run).stWriteFault 0 0 0x084 1 ≠ none ∧
    run.stWriteFault 0 0 0x030 1 = none ∧ Lone run (op [.imm 2]) acceptsNum [6, 7] ∧ stNumber 0 0x014 64 = .ok (0x014, 0) := by
  refine ⟨lone_of ?_, ?_, ?_, ?_, ?_, ?_, ?_, ?_, lone_of ?_, ?_⟩ <;> decide +kernel

/-- Register 0xE14 names thread 3's cmp, which thread 0 and thread 3 may name and thread 2 not (R153). -/
theorem wit_stnumber : stNumber 0 0xE14 64 = .ok (0x014, 3) ∧ stNumber 3 0xE14 64 = .ok (0x014, 3) ∧
    stNumber 2 0xE14 64 = .error ⟨0x03, 0xE14, 0, false, none⟩ ∧ stNumber 0 4096 32 = .error illegalOperand ∧
    stNumber 2 0xE02 32 = .ok (2, 2) ∧ stNumber 2 0xE00 64 = .ok (0, 2) := by decide +kernel

theorem wit_bank : Lone mm (op []) acceptsReg [2, 3] ∧ (Iss.pre (op [])).sys false = true ∧ mm.bankOverlaps 0 0 = true ∧
    run.bankOverlaps 0 0 = false ∧ Lone run (op []) acceptsReg [6, 7] := by
  refine ⟨lone_of ?_, ?_, ?_, ?_, lone_of ?_⟩ <;> decide +kernel

/-- A bundle of some operations fetched at PC 3, s0 and s2 aligned places, s1 not, v1 in lane 0 a 9. -/
def gathered (syl : Nat) (slots : List Slot) (ops : List Instr) : State := run0 (fun x =>
  { x with pc := 3, s := (x.s.set 0 1).set 1 2, v := x.v.set 1 9, bun := some ⟨3, syl, slots, ops⟩ })

/-- An operation of the thread's bundle that is not its last. -/
def part : Iss := { op [] with stop := false }

/-- A move of v1 to v2 has filled 15 syllables. -/
def full : State := gathered 15 [.V] [.vmov part 2 1]

theorem wit_bundle : full.ready 0 0 = true ∧ (full.thr 0 0).late = [] ∧ (Iss.pre (op [])).legal acceptsReg = true ∧
    run.ready 0 3 = false ∧ (run0 (fun x => { x with late := [(5, 0x40)] })).ready 0 0 = true ∧
    ((opOf (.add (op []) 0 1) full).map (fun o => (full.thr 0 0).bundle.clash o)) = some false ∧
    (full.core 0).undefinedAt (full.thr 0 0).bundle (op []) = false ∧
    ((opOf (.add (op []) 0 1) full).map (fun o => (full.opsOf (full.thr 0 0).bundle ++ [o]).any (Op.stuck (full.thr 0 0)))) = some false ∧
    ((opOf (.add (op []) 0 1) full).map (fun o => closedBy (full.opsOf (full.thr 0 0).bundle ++ [o]))) = some [] := by decide +kernel

/-- It clashes with a second move, and with an operation of two syllables. -/
theorem wit_bundle_clash : ((opOf (.vmov (op []) 3 1) full).map (fun o => (full.thr 0 0).bundle.clash o)) = some true ∧
    ((opOf (.addi (op [.imm 1]) 3 1) full).map (fun o => (full.thr 0 0).bundle.clash o)) = some true := by decide +kernel

/-- An operation finds its thread's state beyond correction (R363). -/
theorem wit_bundle_broken : ((opOf (.add { op [] with broken := true } 0 1) full).map (fun o => o.iss.broken)) = some true ∧
    (full.opsOf (full.thr 0 0).bundle).all (fun p => !p.iss.broken) = true ∧
    after (exec (.add { op [] with broken := true } 0 1) full) (fun t => (t.thr 0 0).sv2.cause == 0x31 && (t.thr 0 0).v[2] == 0) = true := by
  decide +kernel

/-- The adder reads s1 before the bundle's other operation writes anything, and 16 syllables are whole. -/
theorem test_bundle : after (exec (.add (op []) 0 1) full) (fun t =>
    (t.thr 0 0).s[0] == 3 && (t.thr 0 0).v[2] == 9 && (t.thr 0 0).pc == 19) = true := by decide +kernel

/-- Two operations write s0, one of which itself faults (R123, R124). -/
theorem test_bundle_twice : after (exec (.add (op []) 0 1) (gathered 1 [.T] [.ldw part 0 1])) (fun t =>
    (t.thr 0 0).s[0] == 1 && (t.thr 0 0).sv1.cause == 2) = true := by decide +kernel

-- O22 to O24

/-- The fetch of line 0x40 is under way for no load. -/
def abandoned : State := cached.modCore 0 (fun c => { c with demand := some 0x40 })

/-- A load of line 0x40 waits for it. -/
def missing : State := abandoned.modThr 0 0 (fun x => { x with loads := [⟨.w, 0, 0x20000040, 0x40, false, true, 0, 0, none, none, 0, []⟩] })

theorem wit_fill : missing.present 0 = true ∧ missing.cacheable 0 0x40 = true ∧ (missing.core 0).line 0x40 = none ∧
    missing.lineBusy 0 0x40 = false ∧ missing.fillFor 0 0x40 = some 0 ∧ missing.isLocal 0x40 = true ∧
    ((missing.core 0).pickWay (cacheSet 0x40)).2 = false ∧ (missing.core 0).demand = some 0x40 ∧
    (abandoned.core 0).demand = some 0x40 ∧ (abandoned.core 0).awaited 0x40 = false := by decide +kernel

/-- Thread 0 sleeps, bounded by cycle n. -/
def sleeping (pend n : Nat) : State := (waking pend).modThr 0 0 (fun x => { x with wait := some ⟨.sleep, 1, some n, 0, 0, none⟩ })

theorem wit_wake : ((sleeping 2 0).thr 0 0).wait = some ⟨.sleep, 1, some 0, 0, 0, none⟩ ∧ ((sleeping 2 0).thr 0 0).bun = none ∧
    ((sleeping 2 0).thr 0 0).pendBits &&& (((sleeping 2 0).thr 0 0).maskBits ||| 2 ^ 4) ≠ 0 ∧
    ((sleeping 16 0).thr 0 0).pendBits &&& (((sleeping 16 0).thr 0 0).maskBits ||| 2 ^ 4) ≠ 0 := by decide +kernel

theorem wit_timer : bitOf ((run0 (fun x => { x with wake := 0x100, cmp := 17 })).thr 0 0).wake.toNat 8 = true ∧
    0 ≤ sgn 64 (((run0 (fun x => { x with wake := 0x100, cmp := 17 })).tick 10).cyc + 2 ^ 64 - 17) := by decide +kernel

/-- Thread 0 waits for counter 6 with a bundle of a CWAIT, its sync.ctl w. -/
def taking (w : Word) : State := cues.modThr 0 0 (fun x =>
  { x with syncCtl := w, wait := some ⟨.cwait 6, 1, some 17, 0, 0, none⟩, bun := some ⟨2, 2, [.T], [.cwait (op [.imm 62]) 1 0]⟩ })

theorem wit_bound : ((sleeping 0 17).tick 10).bounded ⟨.sleep, 1, some 17, 0, 0, none⟩ = true ∧
    ((sleeping 0 17).tick 9).bounded ⟨.sleep, 1, some 17, 0, 0, none⟩ = false ∧ ((taking 0).thr 0 0).pc = 2 ∧
    (Iss.pre (op [.imm 62])).sync true = true ∧ (taking 0).cueMap 0 0 62 = some (6, false) ∧ (regA (op [.imm 62]) 1).val = 1 ∧
    (taking 0).cueCount 0 6 = 0 ∧ ((taking 0).tick 10).bounded ⟨.cwait 6, 1, some 17, 0, 0, none⟩ = true ∧ ((taking 0).thr 0 0).loads = [] ∧
    bitOf ((taking 0).thr 0 0).syncCtl.toNat 0 = false ∧ bitOf ((taking 1).thr 0 0).syncCtl.toNat 0 = true := by decide +kernel

theorem test_wait_out : after (exec (.waitBound 0 0 10) (taking 0)) (fun t =>
    (t.thr 0 0).s[1] == 1 && (t.thr 0 0).wait == none && (t.thr 0 0).pc == 4) = true := by decide +kernel

theorem test_wait_out_faults : after (exec (.waitBound 0 0 10) (taking 1)) (fun t => (t.thr 0 0).sv1.cause == 0x13) = true := by
  decide +kernel

/-- Thread 0 waits to send to queue 3, which is off, with a bundle of a QSEND. -/
def sending : State := (run0 (fun x => { x with s := x.s.set 2 0x83000000 })).modThr 0 0 (fun x =>
  { x with wait := some ⟨.qsend 0 3, 2, some 17, 0, 0, none⟩, bun := some ⟨0, 2, [.T], [.qsendCommit (op [.reg 2 false false 0]) 0 4]⟩ })

theorem wit_retry : (sending.thr 0 0).pc = 0 ∧ sending.qClaimedBy 0 3 0 0 = false ∧ dstClean 0x83000000 = true ∧
    sending.dstSite 0 0x83000000 = some 0 ∧ bitOf 0x83000000 31 = true ∧ (Iss.pre (op [.reg 2 false false 0])).sync true = true ∧
    (sending.thr 0 0).staging.length + ((sending.thr 0 0).piece 0 0).length ≤ 32 ∧ bitOf (sending.thr 0 0).syncCtl.toNat 1 = false ∧
    (sending.qTry 0 3 ⟨1, (sending.thr 0 0).piece 0 0, 0, 0, 0, 0, 0, 0, []⟩).2 = .status 1 := by decide +kernel

theorem test_retry : after (exec (.queueSendRetry 0 0) sending) (fun t =>
    (t.thr 0 0).s[2] == 1 && (t.thr 0 0).wait == none && (t.thr 0 0).pc == 2) = true := by decide +kernel

theorem wit_enter : (trapped .l0).canEnter 0 0 = true ∧ ((trapped .l0).core 0).trapPend ≠ 0 ∧
    ((run.modCore 0 (fun c => { c with trapCtl := 1 })).setCfld 0 CFG_CORE_SWI_SWI 1).canEnter 0 0 = true ∧
    ((run.modCore 0 (fun c => { c with trapCtl := 1 })).setCfld 0 CFG_CORE_SWI_SWI 1).delivered 0 0 = false ∧
    bitOf ((run.setCfld 0 CFG_CORE_SWI_SWI 8).cfld 0 CFG_CORE_SWI_SWI) 3 = true ∧ bitOf (run.core 0).trapCtl.toNat 3 = false := by
  decide +kernel

theorem test_swi_wakes : after (exec (.interruptTake 0 3) (run.setCfld 0 CFG_CORE_SWI_SWI 8)) (fun t =>
    (t.thr 0 3).pendBits == 8 && t.cfld 0 CFG_CORE_SWI_SWI == 0) = true := by decide +kernel

/-- A breakpoint of thread 0 at PC 0 in a rehearsal context. -/
def broken : State :=
  let s := run.setRg64 (dkey 0 MGT_REH_LO_CTX.off) 1
  let s := s.setCfld 0 (CFG_CORE_DBG_BP_EN 3) 1
  s.setCfld 0 (CFG_CORE_DBG_BP_THREADS 3) 1

theorem wit_breakpoint : broken.canEnter 0 0 = true ∧ (broken.thr 0 0).bpSkip = false ∧ broken.bpMatch 0 0 = true := by decide +kernel

theorem wit_cut : ((batched.tick 5).core 0).batch.map (·.started) = some true ∧ ((batched.tick 5).core 0).bud = 0 ∧
    (batched.tick 5).rehearsal 0 = false ∧ (batched.tick 5).safe 0 = false ∧
    (∀ k : Fin 4, ((batched.tick 5).thr 0 k).wait = none) ∧ dieOf 0 < 8 := by decide +kernel

theorem test_cut : after (exec (.budgetCut 0 5) batched) (fun t => (t.core 0).batch == none && t.heldActs == [(0, 1)]) = true := by
  decide +kernel

/-- A signal to counter 5 of core 0 and one whose handle is not mapped. -/
def signalled : State := { run with signals := [⟨0, some 5, 63, 0, false, 8, [], 0⟩, ⟨0, none, 63, 2, true, 1, [], 0⟩] }

theorem wit_signal : signalled.signals[0]? = some ⟨0, some 5, 63, 0, false, 8, [], 0⟩ ∧
    (∀ t : Fin 4, (signalled.thr 0 t).wait = none) ∧ (signalled.setCue 0 5 65527).cueCount 0 5 + 8 ≤ 65535 ∧
    signalled.signals[1]? = some ⟨0, none, 63, 2, true, 1, [], 0⟩ ∧ signalled.cueMap 0 2 63 = none := by decide +kernel

theorem test_signal : after (exec (.cueSignalArrival 0) (signalled.setCue 0 5 65527)) (fun t => t.cueCount 0 5 == 65535) = true := by
  decide +kernel

/-- A message of one word waits to be written in queue 2. -/
def writing : State := queued.modCore 0 (fun c => { c with qWriting := c.qWriting.set 2 [⟨0, [3], 0, 1, 0, 0, 2, 1, []⟩] })

theorem wit_commit : (writing.core 0).qWriting[2] = [⟨0, [3], 0, 1, 0, 0, 2, 1, []⟩] ∧
    (writing.thr 0 (Fin.ofNat 4 (writing.cfld 0 (QQ_CFG_READER 2)))).wait = none := by decide +kernel

-- O25 to O28

/-- A requester without expert access: thread 1 of core 0, in context 0. -/
def lay : Requester := .thread 0 1

theorem wit_experts : run.expert lay = false ∧ run.expert .host = true := by decide +kernel

theorem wit_threads : run.halted 0 3 = true ∧ run.halted 0 0 = false ∧ run.copying 0 = false ∧ (run.thr 0 0).wait = none ∧
    (trapped .l0).halted 0 1 = true ∧ ((trapped .l0).thr 0 1).level = .l1 ∧
    ((run.setFld 0 MSH_PMC_CMD_BUSY 1)).copying 0 = true := by decide +kernel

theorem wit_safe : run.safe 0 ≠ true ∧ (∀ u : Fin 4, (run.setHalt 0 0 true).halted 0 u = true ∧ ((run.setHalt 0 0 true).thr 0 u).long = none) ∧
    (∃ u : Fin 4, run.halted 0 u = false) ∧ 63 % 64 ≠ (run.thr 0 3).ctx := by decide +kernel

theorem wit_swi : bitOf ((trapped .l0).core 0).trapCtl.toNat 1 = true ∧ bitOf (run.core 0).trapCtl.toNat 1 = false ∧
    (∀ (u : Fin 4), (run.thr 0 u).wait = none) := by decide +kernel

theorem test_start : after (exec (.threadStart .host 0 3) run) (fun t => !t.halted 0 3 && !t.halted 0 0 && t.halted 0 2) = true := by
  decide +kernel

theorem test_start_lay : after (exec (.threadStart lay 0 3) run) (fun t => t.halted 0 3 && t.fld 0 (EVG_SRC_PEND 647) == 1) = true := by
  decide +kernel

theorem test_resume_l1 : after (exec (.threadResume .host 0 1) (trapped .l0)) (fun t => t.halted 0 1 && t.cflag 0 CFG_CORE_STATUS_CTRL_ERR) = true := by
  decide +kernel

/-- Region 0 enabled for software, region 1 for a queue, 4 units each. -/
def regions : State :=
  let s := (adept run).setCfld 0 (CR_CFG_EN 0) 1
  let s := s.setCfld 0 (CR_CFG_SIZEM1 0) 3
  let s := s.setCfld 0 (CR_FILL_WRAP 0) 4
  let s := s.setCfld 0 (CR_CFG_EN 1) 1
  let s := s.setCfld 0 (CR_CFG_OWNER 1) 1
  s.setCfld 0 (CR_CFG_SIZEM1 1) 3

theorem wit_region : run.cflag 0 (CR_CFG_EN 7) = false ∧ bitsOf 0x1FFE0001 29 2 ≠ 3 ∧ bitsOf 0x1FFE0001 0 13 + (bitsOf 0x1FFE0001 16 13 + 1) ≤ 8192 ∧
    8192 < bitsOf 0x1FFE0002 0 13 + (bitsOf 0x1FFE0002 16 13 + 1) := by decide +kernel

theorem wit_claim : regions.cflag 0 (CR_CFG_EN 0) = true ∧ regions.cfld 0 (CR_CFG_OWNER 0) = 0 ∧
    ((regions.ring 0 0).claim (regions.crSize 0 0) 4).2 = some 0 ∧ ((regions.ring 0 0).claim (regions.crSize 0 0) 4).1 = ⟨0, 0, 4, 4, false⟩ ∧
    ((regions.ring 0 0).claim (regions.crSize 0 0) 5).2 = none ∧ ((regions.ring 0 0).release (regions.crSize 0 0) 1).head < 8192 ∧
    ((regions.ring 0 0).release (regions.crSize 0 0) 1).fill < 16384 := by decide +kernel

theorem test_claim_fails : after (exec (.claim 0 0 5) regions) (fun t => t.cflag 0 (CR_FILL_FAIL 0) && t.cfld 0 (CR_FILL_FILL 0) == 0) = true := by
  decide +kernel

theorem wit_queue_enable : regions.cflag 0 (QQ_CFG_EN 7) = false ∧ bitOf 0x8C020000 29 = false ∧ bitsOf 0x8C020000 17 3 = 1 ∧
    regions.cflag 0 (CR_CFG_EN 1) = true ∧ regions.cfld 0 (CR_CFG_OWNER 1) = 1 ∧ regions.crSize 0 1 = 4 ∧
    (∀ p : Fin 8, regions.cflag 0 (QQ_CFG_EN p.val) = false) := by decide +kernel

theorem test_queue_enable : after (exec (.queueEnable 0 7 0x8C020000) regions) (fun t =>
    t.cflag 0 (QQ_CFG_EN 7) && t.cfld 0 (QQ_CFG_READER 7) == 3) = true := by decide +kernel

theorem wit_cache : (adept cached).expert (.thread 0 0) = true ∧ (((cached.core 0).lines).map Line.addr).Nodup ∧ cached.cflag 0 DC_CTL_EN = true ∧ run.cflag 0 DC_CTL_EN = false ∧
    run.cflag 0 DC_CTL_INVD = false ∧ (run.setCfld 0 DC_CTL_INVD 1).cflag 0 DC_CTL_INVD = true := by decide +kernel

theorem test_cache_disable : after (exec (.cacheDisable 0) (adept cached)) (fun t =>
    !t.cflag 0 DC_CTL_EN && (t.core 0).lines.map (·.dirty) == [false] && t.inflight.length == 1) = true := by decide +kernel

/-- The generator index steps from 63 to 0 with AUTO (R210). -/
theorem test_seed_auto : after (exec (.numSeedAccess 0 0 none) (run0 (fun x => { x with numSidx := 127 }))) (fun t =>
    (t.thr 0 0).numSidx == 64) = true := by decide +kernel

/-- Thread 1 stopped at L2; thread 0 debug-stopped, in a rehearsal context. -/
def stopped2 : State := ((run.setRg64 (dkey 0 MGT_REH_LO_CTX.off) 1).modThr 0 1 (fun x =>
  { x with l2wait := true, level := .l2, sv2 := { x.sv2 with pc := 44, st := 0x10 } })).modThr 0 0 (fun x => { x with dbgStop := true })

theorem wit_l2 : (stopped2.thr 0 1).l2wait = true ∧ ownThread .mgmt 0 = false ∧ ownThread (.thread 0 1) 0 = true ∧
    (stopped2.modCore 0 (fun c => c)).expert .mgmt = true ∧ ({ stopped2 with attrLive := [(0, 0x20)] }).expert (.thread 0 1) = true := by
  decide +kernel

theorem test_l2_resume : after (exec (.l2Resume .mgmt 0 1) stopped2) (fun t => (t.thr 0 1).pc == 44 && (t.thr 0 1).level == .l1) = true := by
  decide +kernel

theorem wit_debug : dbgUser .debug = true ∧ dbgUser .host = false ∧ run.rehearsal (run.thr 0 0).ctx = false ∧
    stopped2.rehearsal (stopped2.thr 0 0).ctx = true ∧ stopped2.replaying 0 0 = false ∧ (stopped2.thr 0 0).dbgStop = true ∧
    (stopped2.thr 0 2).dbgStop = false ∧ (stopped2.thr 0 2).wait = none ∧
    ((batched.modCore 0 (fun c => { c with batch := c.batch.map (fun b => { b with replay := true }) })).setRg64
      (dkey 0 MGT_REH_LO_CTX.off) 1).replaying 0 0 = true := by decide +kernel

theorem wit_debug_items : run.cfld 0 CFG_CORE_DBG_SEL_THREAD = (0 : Fin 4).val ∧ run.dbgReach 0 0 = false ∧ stopped2.dbgReach 0 0 = true ∧
    (stopped2.setCfld 0 CFG_CORE_DBG_SEL_ITEM 0x20F).cfld 0 CFG_CORE_DBG_SEL_ITEM = 0x200 + (15 : Fin 16).val ∧
    (stopped2.setCfld 0 CFG_CORE_DBG_SEL_ITEM 0x230).cfld 0 CFG_CORE_DBG_SEL_WORD = 0 := by decide +kernel

theorem test_debug_s15 : after (exec (.debugRegAccess .debug 0 (some 6)) (stopped2.setCfld 0 CFG_CORE_DBG_SEL_ITEM 0x20F)) (fun t =>
    (t.thr 0 0).s[15] == 6) = true := by decide +kernel

-- O28: channels

/-- Command of 64 bytes from HBM 0x1000 to HBM 0x2000, both widths 64 (codes 4). -/
def copyCmd (done : Nat) : DmaCmd := ⟨BitVec.ofNat 512 (0x480000 + 64 * 2 ^ 32 + 0x1000 * 2 ^ 64 + 0x2000 * 2 ^ 128), 5, 0, 0, none, 9, [], done, [], none, none, 0⟩

/-- Channel 1 of core 0 with k; a region table that grants everything. -/
def chan1 (k : Chan) : State := mm.modCore 0 (fun c => { c with chans := c.chans.set 1 k })

theorem wit_chan_start : (chan1 { Chan.reset with queue := [copyCmd 0] }).chanOk (.core 0 1) = true ∧
    ((chan1 { Chan.reset with queue := [copyCmd 0] }).chan (.core 0 1)).run = none ∧ run.chanOk (.bulk 7 15) = true := by decide +kernel

/-- It runs. -/
def moving : State := chan1 { Chan.reset with run := some (copyCmd 0) }
/-- It has moved everything, with an error or halted. -/
def movedAll (err : Option ChanErr) (halt : Bool) : State :=
  chan1 { Chan.reset with run := some (copyCmd 64), err := err, halt := halt, queue := [copyCmd 0] }

theorem wit_burst : moving.chanFree (.core 0 1) = true ∧ (moving.pace (.core 0 1)).mode = 0 ∧
    (let x := descOf (copyCmd 0).desc;
      x.gather = false ∧ x.sfix = false ∧ x.dfix = false ∧ x.shost = false ∧ x.dhost = false ∧ x.len = 64 ∧ x.dw = 64 ∧
      x.src = 0x1000 ∧ x.dst = 0x2000 ∧ x.crec = false ∧ x.ccue = false) ∧
    moving.isLocal 0x1000 = true ∧ moving.isRegSpace 0x2000 = false ∧ moving.home (localOf 0x1000) = .hbm 0 := by decide +kernel

theorem wit_done : (movedAll none false).cmdFinished (copyCmd 64) = true ∧
    (let r := { copyCmd 64 with desc := (copyCmd 64).desc ||| BitVec.ofNat 512 (2 ^ 26 + 0x3000 * 2 ^ 256) };
      (descOf r.desc).crec = true ∧ (descOf r.desc).ccue = false ∧ (movedAll none false).cmdFinished r = true ∧
      (movedAll none false).rangeOk 0 ((descOf r.desc).cpl, 16, true, 16, false) false = true ∧
      (movedAll none false).isLocal (descOf r.desc).cpl = true) := by decide +kernel

theorem wit_chan_error : ((movedAll (some ⟨15, true, 2 ^ 64 - 1, 0⟩) false).chan (.core 0 1)).err = some ⟨15, true, 2 ^ 64 - 1, 0⟩ ∧
    (movedAll (some ⟨15, true, 2 ^ 64 - 1, 0⟩) false).fabReading (.core 0 1) = false ∧
    (movedAll (some ⟨15, true, 2 ^ 64 - 1, 0⟩) false).cmdWrites 9 = [] ∧ (copyCmd 64).bad = none ∧
    (copyCmd 64).count 64 < 2 ^ 32 ∧ 0 + moving.chanTo (.core 0 1) ≤ max moving.now 1000000000 := by decide +kernel

theorem wit_restart : ((movedAll none true).chan (.core 0 1)).halt = true ∧
    (movedAll none true).checkRun 0 (some (0, 0)) ((movedAll none true).hostOk (.core 0 1)) (descOf (copyCmd 64).desc) = true := by
  decide +kernel

theorem test_burst : after (exec (.dmaBurst (.core 0 1) .ok) (moving.setBytes 0x1000 [7])) (fun t =>
    t.inflight.map (fun w => (w.loc, w.data.head?)) == [(0x2000, some 7)]) = true := by decide +kernel

theorem test_flush : after (exec (.dmaFlush .host (.core 0 1)) (movedAll none true)) (fun t => t.chan (.core 0 1) == Chan.reset && t.errCmds == [9]) = true := by
  decide +kernel

/-- Bulk channel 15 of die 7 enabled with a ring of 2 descriptors at 0x1000, one posted: the copy of `copyCmd`. -/
def bulked : State :=
  let s := mm.setFld 7 (BDMA_CH_CTL_EN 15) 1
  let s := s.setFld 7 (BDMA_CH_CTL_LOG2 15) 1
  let s := s.setRg64 (dkey 7 (BDMA_CH_RING_LO_ADDR 15).off) 0x1000
  (s.setFld 7 (BDMA_CH_TAIL_TAIL 15) 1).setBytes 0x1000 (leBytes 24 (copyCmd 0).desc.toNat)

theorem wit_bulk : bulked.flag 7 (BDMA_CH_CTL_EN 15) = true ∧ bulked.posted 7 15 ≠ 0 ∧ bulked.ringAt (bulked.descAddr 7 15 0) = true ∧
    bulked.poisoned (localOf (bulked.descAddr 7 15 0)) 64 = false ∧
    bulked.checkRun 0 none (bulked.hostOk (.bulk 7 15)) (descOf (BitVec.ofNat 512 (bulked.le (localOf (bulked.descAddr 7 15 0)) 64))) = true ∧
    ({ bulked with poison := [0x40] }).poisoned (localOf (bulked.descAddr 7 15 0)) 64 = true := by decide +kernel

/-- A ring of 2 holds 2 and not 3. -/
theorem wit_doorbell : (2 + 2 ^ 32 - bulked.fld 7 (BDMA_CH_HEAD_HEAD 15)) % 2 ^ 32 ≤ 2 ^ bulked.fld 7 (BDMA_CH_CTL_LOG2 15) ∧
    2 ^ bulked.fld 7 (BDMA_CH_CTL_LOG2 15) < (3 + 2 ^ 32 - bulked.fld 7 (BDMA_CH_HEAD_HEAD 15)) % 2 ^ 32 := by decide +kernel

theorem test_bulk_fetch : after (exec (.bdmaDescriptorFetch 7 15 .ok) bulked) (fun t =>
    (t.chan (.bulk 7 15)).queue.map (fun r => (descOf r.desc).dst) == [0x2000]) = true := by decide +kernel

-- O29 to O31

/-- Writes under way: to HBM, to core 3's scratchpad, to a hole, and a release whose command 4 failed. -/
def flying : State := { run with errCmds := [4], inflight :=
  [⟨1, .host, 0, 0x41, [1, 2], true, false, [], none, false, none, 0, false, none, false⟩,
   ⟨2, .thread 0 0, 0, 0x010000300000, [1, 2, 3, 4], false, false, [], none, false, some (0, 0), 0, false, none, false⟩,
   ⟨3, .host, 0, 0x00A000000000, [1], false, false, [], none, false, none, 0, false, none, false⟩,
   ⟨5, .chan 0 1, 0, 0x40, [1], false, true, [4], none, true, none, 0, false, none, false⟩] }

theorem wit_land : (flying.inflight.map flying.discards) = [false, false, false, false] ∧
    (flying.inflight.map (fun w => (w.tag, nodeOf w.loc))) = [(none, 0), (none, 0), (none, 0), (none, 0)] ∧
    ((List.range 4).map (fun k => (flying.inflight[k]?).map (fun w => flying.landReady k w false))) = List.replicate 4 (some true) ∧
    (flying.inflight.map flying.releaseFails) = [false, false, false, true] ∧
    (flying.inflight.map (fun w => flying.home w.loc)) = [.hbm 0, .pad 3 0, .unmapped, .hbm 0] ∧
    flying.padRefuses 3 0 4 true = false ∧ (flying.setCfld 3 SP_BMAP_MAP 0).padRefuses 3 0 4 true = true := by decide +kernel

theorem test_land_poison : after (exec (.writeLand 0 .ok) flying) (fun t => t.byte 0x42 == 2 && t.poison == [1] && t.inflight.length == 3) = true := by
  decide +kernel

theorem test_land_fails : after (exec (.writeLand 3 .ok) flying) (fun t => t.byte 0x40 == 0 && t.errCmds == [4, 5]) = true := by decide +kernel

/-- A merge entry of line 0x40 is open on die 7's controller. -/
def merging : State := { run with merges := [(7, (7 * Config.stackBytes + 0x40) / 64, 0)] }

theorem wit_hbm : run.home (7 * Config.stackBytes + 0x40) = .hbm 7 ∧ (merging.setFld 7 MSH_CTRL_MERGE_EN 1).flag 7 MSH_CTRL_MERGE_EN = true ∧
    (merging.openMerges 7 32).any (fun m => m.2.1 == (7 * Config.stackBytes + 0x40) / 64) = true ∧
    (merging.openMerges 7 33) = [] ∧ (run.setFld 7 MSH_CTRL_MERGE_EN 0).flag 7 MSH_CTRL_MERGE_EN = false := by decide +kernel

theorem test_uncorrectable : after (exec (.hbmRead 7 (7 * Config.stackBytes + 0x41) .uncorrectable 0) (run.setFld 7 MSH_CTRL_MERGE_EN 0)) (fun t =>
    t.poison == [] && t.ueRead == [(7 * Config.stackBytes + 0x40) / 64] && t.fld 7 HBC_UE_CNT_COUNT == 1) = true := by decide +kernel

/-- The program-memory copy of die 0 is set to one unit, to unit 1023, from 0x1000. -/
def copying : State :=
  let s := (run.setHalt 0 0 true).setFld 0 MSH_PMC_RANGE_UNITS 1
  let s := s.setFld 0 MSH_PMC_RANGE_FIRST 1023
  (s.setRg64 (dkey 0 MSH_PMC_HBM_LO_ADDR.off) 0x1000).setBytes 0x1000 [0xFF, 0x3F]

theorem wit_pmc : copying.loader .host = true ∧ copying.flag 0 MSH_PMC_CMD_BUSY = false ∧ copying.pmcTargets 0 false 0 = [0] ∧
    (∀ th : Fin 4, copying.halted 0 th = true) ∧ copying.fld 0 MSH_PMC_RANGE_UNITS = 1 ∧ copying.fld 0 MSH_PMC_RANGE_FIRST + 1 ≤ 1024 ∧
    copying.rg64 (dkey 0 MSH_PMC_HBM_LO_ADDR.off) = 0x1000 ∧ copying.isLocal 0x1000 = true ∧ hbmIn 0x1000 128 = true ∧
    copying.poisoned 0x1000 128 = false ∧ (unitSyls (copying.bytes 0x1000 128)).isSome = true := by decide +kernel

theorem test_pmc_load : after (exec (.pmcLoad .host 0 false ⟨0, .ok⟩) copying) (fun t => (t.core 0).pm == [(65472, 0x3FFF)]) = true := by decide +kernel

-- O32 to O36

/-- Curtains run. -/
def live : State := run.setFld 0 CUR_STATUS_RUN 1

/-- The pin is the source, and locked; the nominal length is 399,600 ns. -/
def pinned : State := { live.setFld 0 CUR_CTRL_SRC 1 with curMode := .locked, nominal := 399600 }

theorem wit_curtain : live.flag 0 CUR_STATUS_RUN = true ∧ live.edgeAt = none ∧ live.curMode = .internal ∧
    live.curtainAt + live.fld 0 CUR_PERIOD_PERIOD ≤ 400000 ∧ 399999 < live.curtainAt + live.fld 0 CUR_PERIOD_PERIOD ∧
    live.clockFixed = false ∧ live.closeAt - 20000 ≤ max live.now (live.closeAt - 20000) ∧
    ({ live with edgeAt := some 399600 }).edgeAt = some 399600 ∧ ({ live with edgeAt := some 399600 }).flag 0 CUR_STATUS_RUN = true := by
  decide +kernel

theorem wit_edges : pinned.flag 0 CUR_STATUS_RUN = true ∧ pinned.edgeAt = none ∧ pinned.curMode = .locked ∧ pinned.pinsTaken = false ∧
    pinned.fld 0 CUR_CTRL_SRC = 1 ∧ 399399 + 200 < pinned.curtainAt + pinned.nominal ∧ pinned.curtainAt + pinned.nominal ≤ 399400 + 200 ∧
    400200 + 200 ≤ pinned.windowEnd ∧ pinned.now ≤ 400200 ∧ pinned.windowEnd < 400201 + 200 ∧ pinned.windowEnd ≤ 400400 ∧
    400399 < pinned.windowEnd := by decide +kernel

theorem wit_sources : ({ live with curMode := .acquiring }).flag 0 CUR_STATUS_RUN = true ∧ ({ live with curMode := .acquiring }).edgeAt = none ∧
    live.curtainAt + 2 * live.fld 0 CUR_PERIOD_PERIOD ≤ 800000 ∧ (live.setFld 0 CUR_STATUS_FALLBACK 1).flag 0 CUR_STATUS_FALLBACK = true ∧
    live.flag 0 CUR_STATUS_FALLBACK = false ∧ (2 : Nat) ≠ live.fld 0 CUR_CTRL_SRC := by decide +kernel

theorem test_window : after (exec (.curtainInEdge ⟨400200, 200, 200⟩) pinned) (fun t => t.frame == 1 && t.curtainAt == 400400) = true := by decide +kernel

theorem test_early : after (exec (.curtainInEdge ⟨399399, 200, 200⟩) pinned) (fun t => t.frame == 0 && t.flag 0 CUR_EVENT_PERIOD_ERR) = true := by
  decide +kernel

theorem test_third_miss : after (exec (.flywheelCurtain 400400) (pinned.setFld 0 CUR_STATUS_MISS_CNT 2)) (fun t =>
    t.flag 0 CUR_STATUS_FALLBACK && t.flag 0 CUR_EVENT_FALLBACK && t.frame == 1) = true := by decide +kernel

/-- A frame of 2.5 ms. -/
def longFrame : State := { live with nominal := 2500000 }

/-- Act 5 used 9 bytes of the HBM of die 1 and was certified 7. -/
def overused : State := { live with used := [(5, 1, 1, 9)], admitted := [(5, 1, 1, 7)] }

theorem wit_box : live.flag 0 CUR_STATUS_RUN = true ∧ live.closedFor ≤ live.frame ∧ live.closeAt ≤ max live.now live.closeAt ∧
    ({ live with closedFor := 1 }).frame < ({ live with closedFor := 1 }).closedFor ∧ live.guardOn = false ∧
    live.curtainAt + live.nominal - 8000 ≤ max live.now 392000 ∧ longFrame.now ≤ 2000000 ∧ longFrame.refreshOn = false ∧
    (longFrame.tick 2000000).burstAt 2000000 = true ∧ overused.certOf 5 1 1 < overused.useOf 5 1 1 ∧
    (List.range 8).any live.hbmPromised = false ∧ (List.range 8).any (live.setFld 7 BOX_HBM_CAP_CAP (2 ^ 31)).hbmPromised = true := by
  decide +kernel

theorem test_breach : (1, 5) ∈ overused.breaches.heldActs := by decide +kernel

/-- Fields of a callboard entry. -/
def ent (l : List (EF × Nat)) : Nat := l.foldl (fun n (f, v) => setBits n f.lo f.w v) 0

/-- Stream 0x3FFFF of context 63 is active with act 4095, which is valid for it and has no staging room. -/
def boxed : State := { live with cb := [(0x3FFFF, BitVec.ofNat 512 (ent [(eLife, 1), (eCtx, 63), (eAct, 4095), (eStateUnits, 1)]))]
                                 actA := [(4095, BitVec.ofNat 1024 (2 ^ 0x268 + 2 ^ (0x200 + 63)))] }

/-- Slice 7, nothing charged. -/
def slice7 : Slice := { die := 7, used := [], byClass := [], left := [], deal := [], batches := [], codes := [] }

/-- A request of a host part alone. -/
def asked (x latest : Nat) : Req := ⟨x, none, none, some (3, 0, latest, 9)⟩

theorem wit_test : (asked 0x3FFFF 0).host = some (3, 0, 0, 9) ∧ 0 < boxed.frame + 1 ∧ boxed.frame + 1 ≤ 1 ∧ boxed.ent 5 eLife ≠ 1 ∧
    boxed.ent 0x3FFFF eLife = 1 ∧ boxed.doomed.contains 0x3FFFF = false ∧
    ({ boxed with heldActs := [(7, 4095)] }).heldActs.contains (slice7.die, boxed.actOfStream 0x3FFFF) = true ∧
    boxed.heldActs.contains (slice7.die, boxed.actOfStream 0x3FFFF) = false ∧ actV (boxed.act (boxed.actOfStream 0x3FFFF)) = true ∧
    bitOf (actCtxMask (boxed.act (boxed.actOfStream 0x3FFFF))) (boxed.ent 0x3FFFF eCtx) = true ∧
    actSpan (boxed.act (boxed.actOfStream 0x3FFFF)) = false ∧
    actStgSize (boxed.act (boxed.actOfStream 0x3FFFF)) < boxed.slotUnits 0x3FFFF (boxed.act (boxed.actOfStream 0x3FFFF)) := by decide +kernel

theorem test_checks_in_order : (boxed.test slice7 false 400000 0 0 (asked 0x3FFFF 0)).2 = .refused 0xC ∧
    (({ boxed with heldActs := [(7, 4095)] }).test slice7 false 400000 0 0 (asked 0x3FFFF 1)).2 = .refused 0x2 ∧
    (boxed.test slice7 false 400000 0 0 (asked 0x3FFFF 1)).2 = .refused 0xE := by decide +kernel

/-- Intake ring 7 of die 7, of 64 records at host address 0x1000, for context 63; its HEAD stands before the wrap and one record is
posted; the record at index 63 is that of r. -/
def intake (r : List Byte) : State :=
  let s := { boxed with pcie := { boxed.pcie with up := true, bme := true } }
  let s := s.setFld 7 ITK_CTRL_EN 1
  let s := s.setFld 7 (ITK_RING_CTL_EN 7) 1
  let s := s.setFld 7 (ITK_RING_CTL_LOG2 7) 6
  let s := s.setFld 7 (ITK_RING_CTL_CTX 7) 63
  let s := s.setRg64 (dkey 7 (ITK_RING_BASE_LO_ADDR 7).off) 0x1000
  let s := s.setFld 7 (ITK_RING_HEAD_HEAD 7) (2 ^ 32 - 1)
  (s.setFld 7 (ITK_RING_TAIL_TAIL 7) 0).setHostBytes (0x1000 + 32 * 63) r false

/-- A record of a kind for a stream. -/
def record (kind x second : Nat) : List Byte := leBytes 32 (x + kind * 2 ^ 28 + second * 2 ^ 32 + 9 * 2 ^ 64)

/-- What the doorbell writes: 2 and 1 records past a HEAD of 2^32 - 1 in a ring of 64, and 65. -/
theorem wit_itk_door : (63 + 2 ^ 32 - (intake []).fld 7 (ITK_RING_HEAD_HEAD 7)) % 2 ^ 32 ≤ 2 ^ (intake []).fld 7 (ITK_RING_CTL_LOG2 7) ∧
    2 ^ (intake []).fld 7 (ITK_RING_CTL_LOG2 7) < (64 + 2 ^ 32 - (intake []).fld 7 (ITK_RING_HEAD_HEAD 7)) % 2 ^ 32 := by decide +kernel

theorem wit_itk_ready : run.itkReady 7 7 = false ∧ (intake (record 1 0x3FFFF 0)).itkReady 7 7 = true ∧ (intake []).linkUp = true ∧
    (intake (record 1 0x3FFFF 0)).hostBytes (0x1000 + 32 * ((2 ^ 32 - 1) % 2 ^ 6)) 32 = record 1 0x3FFFF 0 := by decide +kernel

theorem wit_itk_records : malformed (record 3 0x3FFFF 0) = true ∧ malformed (record 1 0x7FFF 0) = false ∧ streamDie 0x7FFF ≠ 7 ∧
    malformed (record 2 0x3FFFF 7) = false ∧ streamDie 0x3FFFF = 7 ∧ recLe (record 2 0x3FFFF 7) 0 4 / 2 ^ 28 = 2 ∧
    (intake (record 2 0x3FFFF 7)).ent 0x3FFFF eCtx = 63 ∧ (intake []).reqs.any (fun q => q.stream == 0x3FFFF) = false ∧
    ((intake []).setFld 7 (ITK_RING_CTL_CTX 7) 62).fld 7 (ITK_RING_CTL_CTX 7) ≠ (intake []).ent 0x3FFFF eCtx ∧
    recLe (record 1 0x3FFFF 0) 4 4 = (intake []).ent 0x3FFFF eNextSeq ∧ (intake []).ent 0x3FFFF eHeldMask = 0 := by decide +kernel

theorem wit_itk_fits : ((intake (record 1 0x3FFFF 0)).tick 5).itkFits (((intake (record 1 0x3FFFF 0)).tick 5).itkProcess (record 1 0x3FFFF 0) 63) 7 =
    true := by decide +kernel

/-- A forwarded sample waits at die 7 with the allowance spent. -/
def forwarded (cap : Nat) : State :=
  { (intake []).setFld 7 ITK_HBM_CAP_CAP cap with fwd := [(3, ⟨[], 0, 0⟩), (7, ⟨record 1 0x3FFFF 0, 63, 0⟩)] }

theorem wit_itk_forwarded : (forwarded 0).itkStop.contains 7 = false ∧
    takeOf 7 (forwarded 0).fwd = some (⟨record 1 0x3FFFF 0, 63, 0⟩, [(3, ⟨[], 0, 0⟩)]) ∧
    ((forwarded (2 ^ 20)).tick 5).itkFits (((forwarded (2 ^ 20)).tick 5).itkProcess (record 1 0x3FFFF 0) 63) 7 = true ∧
    ((forwarded 0).tick 5).itkFits (((forwarded 0).tick 5).itkProcess (record 1 0x3FFFF 0) 63) 7 = false := by decide +kernel

theorem test_foreign : after (exec (.intakeFetch 7 7 5 .ok) ((intake (record 1 0x3FFFF 0)).setFld 7 (ITK_RING_CTL_CTX 7) 62)) (fun t =>
    t.flag 7 ITK_EVENT_FOREIGN && t.fld 7 (ITK_RING_HEAD_HEAD 7) == 0) = true := by decide +kernel

/-- An image that passes every check of a WRITE to stream 0x3FFFF with ring 63 of context 63, and one with SCALE out of bounds. -/
def image : Nat := ent [(eCtx, 63), (eRing, 63), (eStateUnits, 1), (eBufAddr, 0x10000), (eBufSets, 1), (eRateMax, 0x3F800000),
  (eNextSeq, 0xFFFFFFFF), (eScale, 142)]

/-- Die 7's command registers hold an image; egress ring 63 is enabled for context 63; HBM holds the image at die 7's stack. -/
def board (img life : Nat) : State :=
  let s := live.setFld 7 (EGR_RING_CTL_EN 63) 1
  let s := s.setFld 7 (EGR_RING_CTL_CTX 63) 63
  let s := s.setCbData 7 img
  let s := s.setFld 7 CB_COPY_CNT_COUNT 1
  let s := s.setBytes 0x3000 (leBytes 64 img)
  ({ s with cb := [(0x3FFFF, BitVec.ofNat 512 (ent [(eLife, life), (eSusp, 4)]))] }).setRg64 (dkey 7 CB_COPY_LO_ADDR.off) 0x3000

theorem wit_callboard : run.cbUser lay = false ∧ (board image 1).cbUser .host = true ∧ ((board image 1).setFld 7 CB_CMD_BUSY 1).flag 7 CB_CMD_BUSY = true ∧
    (board image 1).flag 7 CB_CMD_BUSY = false ∧ streamDie 0x3FFFF = 7 := by decide +kernel

theorem wit_cb_write : (board image 1).cbData 7 = image ∧ (board image 1).writeResult 0x3FFFF image = 0 ∧ (board image 1).writesFresh 0x3FFFF = false ∧
    (board image 0).writesFresh 0x3FFFF = true ∧ (board 0 1).cbData 7 = 0 ∧ (board 0 1).writeResult 0x3FFFF 0 ≠ 0 := by decide +kernel

theorem wit_cb_life : (board image 2).ent 0x3FFFF eLife = 2 ∧ (board image 2).ent 0x3FFFF eSusp = 4 ∧ (board image 1).ent 0x3FFFF eLife ≠ 2 ∧
    (board image 1).stepBusy 0x3FFFF = false ∧ ((board image 1).setEnt 0x3FFFF eHeld 1).stepBusy 0x3FFFF = true ∧
    ((board image 1).setEnt 0x3FFFF eHeld 1).ent 0x3FFFF eLife = 1 := by decide +kernel

theorem wit_cb_copy : (board image 1).fld 7 CB_COPY_CNT_COUNT = 1 ∧ (board image 1).rg64 (dkey 7 CB_COPY_LO_ADDR.off) = 0x3000 ∧
    (board image 1).isLocal 0x3000 = true ∧ hbmIn (localOf 0x3000) 64 = true ∧ (board image 1).poisoned 0x3000 64 = false ∧
    (board image 1).le 0x3000 64 = image := by decide +kernel

theorem test_cb_resume : after (exec (.cbResume .host 7 0x3FFFF) (board image 2)) (fun t => t.ent 0x3FFFF eLife == 1) = true := by decide +kernel

theorem test_cb_lost : after (exec (.callboardEccError 0x3FFFF) (board image 1)) (fun t => t.ent 0x3FFFF eSusp == 5 && t.ent 0x3FFFF eLife == 2) = true := by
  decide +kernel

-- O37 to O39

/-- Act 4095: valid for context 63, cast on dies 3 and 7, one step a batch, 3 units of staging in region 2. -/
def act4095 : Nat := 2 ^ 0x268 + 2 ^ (0x200 + 63) + 0x88 * 2 ^ 0x260 + 3 * 2 ^ (8 * 0x52) + 2 * 2 ^ (8 * 0x4F) + 2 ^ 32

/-- A step of stream 0x3FFFF in frame 0 on core 0. -/
def step0 (ph : StepPhase) : Step := ⟨0x3FFFF, 4095, 0, 63, 3, true, 9, 0, asked 0x3FFFF 1, 0, ph, 0, 0, 0, 0, 0, false, false⟩

/-- Stream 0x3FFFF with a step on core 0, whose staging region 2 has 3 units. -/
def staged (ph : StepPhase) (f : Core → Core) : State :=
  let s := boxed.setCfld 0 (CR_CFG_EN 2) 1
  let s := s.setCfld 0 (CR_CFG_OWNER 2) 2
  let s := s.setCfld 0 (CR_CFG_SIZEM1 2) 2
  ({ s with actA := [(4095, BitVec.ofNat 1024 act4095)], steps := [step0 ph] }).modCore 0 f

/-- Placed on it. -/
def placed0 : State := staged .accepted (fun c => { c with placed := [⟨4095, 0, [0x3FFFF], 1, false, 0⟩] })

theorem wit_stage : placed0.good 0 = true ∧ ((placed0.tick 5).core 0).placed = [⟨4095, 0, [0x3FFFF], 1, false, 0⟩] ∧
    ((placed0.tick 5).core 0).batch = none ∧ placed0.safe 0 = false ∧ (0 : Nat) ≤ placed0.frame ∧
    (placed0.tick 5).stepsOf ⟨4095, 0, [0x3FFFF], 1, false, 0⟩ = [step0 .accepted] ∧ placed0.ent 0x3FFFF eSeen = 0 ∧
    hbmIn (placed0.halfAddr 0x3FFFF (placed0.ent 0x3FFFF eHalf)) (64 * placed0.ent 0x3FFFF eStateUnits) = true ∧
    placed0.poisoned (placed0.halfAddr 0x3FFFF (placed0.ent 0x3FFFF eHalf)) (64 * placed0.ent 0x3FFFF eStateUnits) = false ∧
    ((placed0.tick 5).stageRoom 0 (actStgReg (placed0.act 4095)) (placed0.slotUnits 0x3FFFF (placed0.act 4095))).isSome = true := by
  decide +kernel

/-- Its slot has ended. -/
def ended0 (suspect : Nat) : State := staged .running (fun c =>
  { c with batch := some ⟨4095, 0, 63, false, 7, [⟨0x3FFFF, 0x40, 192, 1, 1, true, 0, false, false, suspect⟩], 1, true, []⟩ })

theorem wit_strike : (ended0 0).resetting ≠ .stopped ∧
    (((ended0 0).tick 5).core 0).batches.find? (strikable 0) =
      some ⟨4095, 0, 63, false, 7, [⟨0x3FFFF, 0x40, 192, 1, 1, true, 0, false, false, 0⟩], 1, true, []⟩ ∧
    (ended0 0).stepOf 0x3FFFF = some (step0 .running) ∧ (ended0 0).poisoned (padBase 0 + 0x40 + 128) 64 = false ∧
    ({ ended0 0 with poison := [(padBase 0 + 192) / 64] }).poisoned (padBase 0 + 0x40 + 128) 64 = true ∧
    actAud ((ended0 0).act 4095) = false ∧ hbmIn ((ended0 0).halfAddr 0x3FFFF 1) 64 = true ∧
    (((ended0 0x12).tick 5).core 0).batches.find? (strikable 0) =
      some ⟨4095, 0, 63, false, 7, [⟨0x3FFFF, 0x40, 192, 1, 1, true, 0, false, false, 0x12⟩], 1, true, []⟩ ∧
    hbmIn ((ended0 0x12).holdAddr 0x3FFFF) 192 = true := by decide +kernel

theorem test_commit : after (exec (.strike 0 0 ⟨5, .ok⟩) (ended0 0)) (fun t => t.ent 0x3FFFF eHalf == 1 && t.backlog.length == 1 && t.steps == []) = true := by
  decide +kernel

theorem test_hold : after (exec (.strike 0 0 ⟨5, .ok⟩) (ended0 0x12)) (fun t => t.ent 0x3FFFF eHeld == 1 && t.backlog == []) = true := by decide +kernel

/-- The step is held and its replay due in frame 1; site 783 of die 3 may be an understudy. -/
def due (und : Bool) : State :=
  let s := { staged .held (fun c => c) with frame := 1 }
  if und then (s.setCfld 783 CFG_CORE_CTRL_SAFE 0).modCore 783 (fun c => { c with role := .understudy }) else s

theorem wit_replay : ((due true).tick 5).rplDue 7 1 = [step0 .held] ∧ ((due true).tick 5).understudies 3 = [783] ∧
    (((due true).tick 5).core 783).placed = [] ∧ (((due true).tick 5).core 783).resident = none ∧
    (((due true).tick 5).packOne ⟨[], [], []⟩ ((due true).fld 0 CUR_CLK_CUR) 7 (step0 .held)).2 = .placed 783 ∧
    (((due true).tick 5).packOne ⟨[], [], []⟩ ((due true).fld 0 CUR_CLK_CUR) 7 (step0 .held)).1.batches = [⟨4095, 783, [0x3FFFF], 3⟩] := by
  decide +kernel

theorem wit_no_replay : ((due false).tick 5).rplDue 7 1 = [step0 .held] ∧ ((due false).tick 5).understudies 3 = [] ∧
    (((due false).tick 5).packOne ⟨[], [], []⟩ ((due false).fld 0 CUR_CLK_CUR) 7 (step0 .held)).2 = .none_ := by decide +kernel

theorem test_replay : after (exec (.replayStage 7 ⟨5, .ok⟩) (due true)) (fun t => (t.core 783).placed == [⟨4095, 1, [0x3FFFF], 1, true, 7⟩]) = true := by
  decide +kernel

/-- A record of 2 slots for egress ring 63 of die 7, fresh or waiting. -/
def rec2 (fresh : Bool) : EgrRec := ⟨63, 0x3FFFF, 0, 63, 4095, 0, 1, 0, 1, 0, 9, 0, List.replicate 64 3, fresh⟩

/-- The ring has 64 slots, TAIL at the last but one with 2 free or none. -/
def egress (head : Nat) : State :=
  let s := { live with pcie := { live.pcie with up := true, bme := true, msixTab := [(5, 1)] }, backlog := [(2, rec2 true), (7, rec2 true)] }
  let s := s.setFld 7 EGR_CTRL_EN 1
  let s := s.setFld 7 (EGR_RING_CTL_EN 63) 1
  let s := s.setFld 7 (EGR_RING_CTL_LOG2 63) 6
  let s := s.setFld 7 (EGR_RING_CTL_MSIX 63) 5
  let s := s.setFld 7 (EGR_RING_CTL_MSI_EN 63) 1
  let s := s.setFld 7 (EGR_RING_HEAD_HEAD 63) head
  s.setFld 7 (EGR_RING_TAIL_TAIL 63) 62

theorem wit_egress : takeRec 7 (fun r => !r.fresh) (egress 0).backlog = none ∧
    takeRec 7 EgrRec.fresh (egress 0).backlog = some (rec2 true, [(2, rec2 true)]) ∧ ((egress 0).tick 5).egrReady 7 (rec2 true) = true ∧
    get 0 (egress 0).egrDropped (egrKey 7 63) = 0 ∧ 1 + (rec2 true).len ≤ (egress 0).egrToEnd 7 63 ∧
    ((egress (2 ^ 32 - 1)).tick 5).egrReady 7 (rec2 true) = false ∧ (egress (2 ^ 32 - 1)).waitingBytes 7 + (rec2 true).size ≤ 0x100000 := by decide +kernel

/-- Its completion is owed; vector 5 is open. -/
def owing : State := { egress 0 with egrOwed := [(7, 63, 0)] }

theorem wit_completion : owing.egrOwed.any (fun (a, b, _) => a == 7 && b == 63) = true ∧ owing.pcie.bme = true ∧ (owing.tick 5).linkUp = true ∧
    owing.flag 7 (EGR_RING_CTL_MSI_EN 63) = true ∧ (owing.tick 5).msixOpen 5 = true ∧ (get 0 owing.pcie.msixTab 5).toNat % 2 ^ 64 ≠ 0 ∧
    (owing.setFld 7 (EGR_RING_CTL_MSI_EN 63) 0).flag 7 (EGR_RING_CTL_MSI_EN 63) = false := by decide +kernel

/-- A head moved from 60 to 62 leaves 0 of 2 slots used, to 59 would leave 3. -/
theorem wit_head : (62 + 2 ^ 32 - 62) % 2 ^ 32 ≤ (62 + 2 ^ 32 - (egress 60).fld 7 (EGR_RING_HEAD_HEAD 63)) % 2 ^ 32 ∧
    (egress 60).fld 7 (EGR_RING_TAIL_TAIL 63) = 62 ∧
    (62 + 2 ^ 32 - (egress 60).fld 7 (EGR_RING_HEAD_HEAD 63)) % 2 ^ 32 < (62 + 2 ^ 32 - 59) % 2 ^ 32 := by decide +kernel

/-- Vector 2047 is masked and its message pending. -/
def vectored : State := { live with pcie := { live.pcie with up := true, bme := true, msixTab := [(2047, 1 + 2 ^ 96)], msixPend := [2047] } }

theorem wit_msix : (2047 : Nat) ∈ vectored.pcie.msixPend ∧ 2046 ∉ vectored.pcie.msixPend ∧ vectored.pcie.fmask = false ∧ vectored.pcie.bme = true ∧
    vectored.linkUp = true ∧ setBits (get 0 vectored.pcie.msixTab 2047).toNat 96 1 0 % 2 ^ 64 ≠ 0 := by decide +kernel

theorem test_msix : after (exec (.msixUnmask 2047) vectored) (fun t => t.out == [.msix 2047] && t.pcie.msixPend == []) = true := by decide +kernel

theorem wit_deadline : ({ live with frame := 1 }).flag 0 CUR_STATUS_RUN = true ∧ ({ live with frame := 1 }).deadlineFor < 1 ∧
    live.curtainAt + 25000 ≤ max live.now 25000 := by decide +kernel

/-- Site 783 of die 3 is an understudy with a replay of act 4095 placed. -/
def ready (psn : Bool) : State :=
  let s := (due true).modCore 783 (fun c => { c with placed := [⟨4095, 1, [0x3FFFF], 1, true, 7⟩] })
  let s := { s with steps := [{ step0 .held with site := 783, rpl := 1 }] }
  if psn then { s with poison := [0] } else s

theorem wit_prepare : (ready false).prepares 783 4095 = true ∧ (ready true).prepares 783 4095 = true := by decide +kernel

theorem wit_prepare_loads : ((((ready true).quench 783).modCore 783 (fun c => { c with resident := none })).loadAct 783 4095).2 = false ∧
    ((((ready false).quench 783).modCore 783 (fun c => { c with resident := none })).loadAct 783 4095).2 = true := by decide +kernel

/-- Core 0 runs a batch of one step and is due for quarantine; site 195 is an understudy of its die. -/
def bad : State :=
  let s := ended0 0
  let s := s.modCore 0 (fun c => { c with batch := c.batch.map (fun b => { b with slots := b.slots.map (fun r => { r with ended := false }) }) })
  let s := (s.setCfld 195 CFG_CORE_CTRL_SAFE 0).modCore 195 (fun c => { c with role := .understudy })
  { s with quarDue := [(0, 2)] }

theorem wit_quarantine : (bad.tick 5).quarOwed 0 .coreError = true ∧ (∀ x : Fin 4, ((bad.tick 5).thr 0 x).wait = none) ∧
    (bad.tick 5).lostWith 0 (step0 .running) = true ∧ (bad.tick 5).steps = [step0 .running] := by decide +kernel

/-- Site 0, of cast set 0 of its die, is quarantined and its place owed a replacement. -/
def vacant (und : Bool) : State :=
  let s := if und then bad else ended0 0
  let s := { s with asnA := [(0, 1)], replaced := [(0, noSite, 7)] }
  s.modCore 0 (fun c => { c with role := .quarantined, batch := none })

theorem wit_promotion : ((vacant true).tick 5).promoteOwed 0 = some 7 ∧ ((vacant true).tick 5).lastUnd 0 = some 195 ∧
    ((vacant false).tick 5).promoteOwed 0 = some 7 ∧ ((vacant false).tick 5).lastUnd 0 = none ∧ ((vacant true).tick 5).actsOf 0 = [] ∧
    ((((((vacant true).tick 5).carryReplays 195).modCore 195 (fun c => c.noBatch)).quench 195).loadActs 195
      (((vacant true).tick 5).actsOf (((vacant true).tick 5).placeOf 0))).2 = none := by decide +kernel

/-- Act 4095 has a cast on die 0 as well and its image reads as poison. -/
def unloadable : State := { vacant true with actA := [(4095, BitVec.ofNat 1024 (act4095 + 2 ^ 0x260))], poison := [0] }

theorem wit_promotion_fails : (unloadable.tick 5).promoteOwed 0 = some 7 ∧ (unloadable.tick 5).lastUnd 0 = some 195 ∧
    (((((unloadable.tick 5).carryReplays 195).modCore 195 (fun c => c.noBatch)).quench 195).loadActs 195
      ((unloadable.tick 5).actsOf ((unloadable.tick 5).placeOf 0))).2 = some 4095 := by decide +kernel

/-- Thread 3 of core 0 waits at L2 with a cause; a batch runs or none. -/
def checked (cause : Nat) (b : Bool) : State :=
  (bad.modCore 0 (fun c => if b then { c with batch := c.batch.map (fun r => { r with claimed := 0 }) } else { c with batch := none })).modThr 0 3 (fun x =>
    { x with l2wait := true, level := .l2, sv2 := { x.sv2 with cause := BitVec.ofNat 32 cause } })

theorem wit_machine_check : ((checked 0x30 false).tick 5).good 0 = true ∧ (((checked 0x30 false).tick 5).thr 0 3).l2wait = true ∧
    (((checked 0x30 false).tick 5).thr 0 3).level = .l2 ∧ (((checked 0x30 false).tick 5).core 0).batch = none ∧
    (∀ x : Fin 4, (((checked 0x30 false).tick 5).thr 0 x).wait = none) ∧
    bitsOf (((checked 0x31 true).tick 5).thr 0 3).sv2.cause.toNat 0 8 = 0x31 ∧
    (((checked 0x31 true).tick 5).core 0).batch.map (fun b => (b.replay, b.claimed)) = some (false, 0) ∧
    (((checked 0x31 true).tick 5).core 0).ended = [] := by decide +kernel

-- O40 to O42

/-- Die 7's ledger: a ring of 2^18 records at its stack, TAIL 4 before the wrap, four records collected, the frame's mark at the granule's
end. -/
def ledger (en : Bool) : State :=
  let s := { live with lgrBuf := [(7, 1), (3, 9), (7, 2), (7, 3), (7, 2 ^ 127), (7, 5)], lgrMark := [(7, 1)] }
  let s := s.setFld 7 LGR_CTRL_LOG2 18
  let s := s.setRg64 (dkey 7 LGR_BASE_LO_ADDR.off) (7 * Config.stackBytes)
  (s.setFld 7 LGR_CTRL_EN (b2n en)).setFld 7 LGR_TAIL_TAIL (2 ^ 32 - 4)

theorem wit_ledger : (ledger true).lgrWaiting 7 = [1, 2, 3, 2 ^ 127, 5] ∧
    hbmIn ((ledger true).rg64 (dkey 7 LGR_BASE_LO_ADDR.off) + 16 * ((ledger true).fld 7 LGR_TAIL_TAIL % 2 ^ (ledger true).fld 7 LGR_CTRL_LOG2)) 64 =
      true ∧
    look (ledger true).lgrMark 7 = some (((ledger true).fld 7 LGR_TAIL_TAIL + 4) % 2 ^ 32 + 1) ∧ run.lgrWaiting 7 = [] ∧
    (ledger false).flag 7 LGR_CTRL_EN = false ∧ stackIn 7 (7 * Config.stackBytes) (16 * 2 ^ 18) = true ∧
    ((ledger false).setRg64 (dkey 7 LGR_BASE_LO_ADDR.off) 0).flag 7 LGR_CTRL_EN = false ∧ stackIn 7 0 (16 * 2 ^ 18) = false ∧
    (ledger true).flag 7 LGR_CTRL_EN = true := by decide +kernel

theorem test_ledger : after (exec (.ledgerGranuleLand 7) (ledger true)) (fun t =>
    t.byte (7 * Config.stackBytes + 16 * (2 ^ 18 - 4)) == 1 && t.byte (7 * Config.stackBytes + 16 * 2 ^ 18 - 1) == 0x80 &&
    t.fld 7 LGR_MARK_TAIL == 0 && t.flag 7 LGR_EVENT_FRAME) = true := by decide +kernel

/-- Bytes of a group's descriptor: offset, size, value. -/
def desc (l : List (Nat × Nat × Nat)) : Nat := l.foldl (fun n (o, k, v) => setBits n (8 * o) (8 * k) v) 0

/-- Group 1023 of die 7: SGD on two rows of 32 FP32 values. -/
def group1023 : Nat :=
  let a := 7 * Config.stackBytes
  desc [(0, 4, 2 ^ 31 + 2 ^ 20 + 2 ^ 16), (6, 1, 1), (8, 8, a), (0x10, 8, a + 0x1000), (0x18, 8, a + 0x2000), (0x20, 4, 2), (0x24, 4, 1), (0x2C, 4, 1),
    (0x3C, 4, 0x3F800000), (0x40, 4, 0x3F800000), (0x50, 4, 1), (0x54, 4, 0x7F800000), (0x5C, 1, 1), (0x60, 4, 1), (0x64, 4, 1)]

/-- It is active and its data registers hold e; row 1 is marked; the engine is on or off. -/
def grouped (e : Nat) (en : Bool) : State :=
  let s := (run.setFld 7 UPD_CTRL_EN (b2n en)).setGrpData 7 (BitVec.ofNat 1024 e)
  let s := s.setBytes (7 * Config.stackBytes + 0x1004) [1]
  { s with grpA := [(grpKey 7 1023, BitVec.ofNat 1024 group1023)] }

theorem wit_group_write : (grouped group1023 true).swapPending = false ∧ (grouped group1023 true).grpData 7 = BitVec.ofNat 1024 group1023 ∧
    (grouped group1023 true).grpResult 7 1023 (BitVec.ofNat 1024 group1023) = 0 ∧
    (grouped group1023 true).grpResult 7 1023 (BitVec.ofNat 1024 (group1023 + 1)) = 2 ∧
    (grouped group1023 true).grpResult 6 1023 (BitVec.ofNat 1024 group1023) = 6 ∧
    (grouped group1023 true).grpResult 7 1023 (BitVec.ofNat 1024 (group1023 + 2 ^ 25)) = 7 ∧
    ((grouped group1023 true).setFld 0 CFG_SS_STATUS_PEND 1).swapPending = true := by decide +kernel

theorem wit_boundary : ((boundaryGroups (grouped 0 true).grpA 7 0).filter (fun k => !(grouped 0 true).ranAt 7 k)) = [1023] ∧
    (grouped 0 true).guardOn = false ∧ (grouped 0 true).flag 7 UPD_CTRL_EN = true ∧ (grouped 0 false).flag 7 UPD_CTRL_EN = false ∧
    (let g := grpAt (grouped 0 true).grpA 7 1023;
      (grouped 0 true).markedRows g 0 = [1] ∧ g.dense = false ∧ 1 ≤ g.maxrows ∧
      g.scanCycles + g.rowCycles ≤ performCycles (grouped 0 true).nominal ((grouped 0 true).fld 0 CUR_CLK_CUR) ∧ 0 < g.rowCycles ∧
      g.areasOk 7 = true ∧ g.slot = 128) := by decide +kernel

theorem wit_boundary_row :
    (let s := grouped 0 true;
      let g := grpAt s.grpA 7 1023;
      let one : Val := .fin false 1 0;
      (g.rowBlocks (value 1 0) (fsub one (powVal g.beta1 (f32 (natVal 1)))) (fsub one (powVal g.beta2 (f32 (natVal 1))))
        (List.replicate 128 0) (List.replicate 128 0) 1 0 ⟨s.updGens 7, Counts.zero, 0, 0⟩ (List.replicate 128 0) g.rowb).2.length = g.slot) := by
  decide +kernel

theorem test_group_idle : after (exec (.updateBoundary 7) (grouped 0 false)) (fun t => t.fld 7 UPD_ROWS_CARRY_ROWS == 1) = true := by decide +kernel

/-- Source 1023 of die 7 is raised, of priority 15, for target set 0 of targets n alone, and holds off its group. -/
def raised (n hold : Nat) : State :=
  let s := (run.setFld 7 EVG_CTRL_EN 1).setFld 7 (EVG_SRC_PEND 1023) 1
  let s := (s.setFld 7 (EVG_SRC_EN 1023) 1).setFld 7 (EVG_SRC_PRIO 1023) 15
  let s := (s.setFld 7 (EVG_SRC_TSET 1023) 0).setFld 7 (EVG_TSET_MASK 0) (2 ^ n)
  let s := (s.setFld 7 (EVG_TGT_EN n) 1).setFld 7 (EVG_GRP_HOLD 63) hold
  let s := if 16 ≤ n then (s.setFld 7 (EVG_MSI_EN (n - 16)) 1).setFld 7 (EVG_MSI_VECTOR (n - 16)) 2047 else s
  { s with pcie := { vectored.pcie with msixTab := [(2047, 1)], msixPend := [] } }

theorem wit_event : (raised 15 0).flag 7 EVG_CTRL_EN = true ∧ ((raised 15 0).tick 5).takeSource 7 = some 1023 ∧
    ((raised 15 0).tick 5).firstTarget 7 0 15 = some 15 ∧ ((raised 23 4).tick 5).takeSource 7 = some 1023 ∧
    ((raised 23 4).tick 5).firstTarget 7 0 15 = some 23 ∧ (raised 23 4).fld 7 (EVG_GRP_HOLD (1023 / 16)) = 4 ∧
    (raised 15 0).fld 7 (EVG_GRP_HOLD (1023 / 16)) = 0 ∧ (raised 23 4).fld 7 (EVG_MSI_VECTOR (23 - 16)) = 2047 ∧
    (get 0 (raised 23 4).pcie.msixTab 2047).toNat % 2 ^ 64 ≠ 0 ∧ ((raised 23 4).tick 5).msixOpen 2047 = true ∧
    (({ raised 23 4 with pcie := { (raised 23 4).pcie with fmask := true } }).tick 5).msixOpen 2047 = false ∧ (run.tick 5).takeSource 7 = none := by
  decide +kernel

theorem wit_holdoff : (7 * 64 + 63, 5) ∈ ({ run with holdoff := [(7 * 64 + 63, 5)] }).holdoff ∧ 5 ≤ (run.tick 5).now ∧
    ({ run with prioStk := [(7 * 24 + 23, [⟨3, 1⟩, ⟨15, 2⟩])] }).prioOf 7 23 = [⟨3, 1⟩, ⟨15, 2⟩] ∧ run.prioOf 7 23 = [] := by decide +kernel

theorem test_event : after (exec (.eventDelivery 7 5) (raised 23 4)) (fun t => t.out == [.msix 2047] && t.holdoff == [(511, 4005)]) = true := by
  decide +kernel

-- O42 to O46

/-- A flit that acknowledges flit 4, asks for the rest again or not and returns a credit of each class. -/
def flit (again : Bool) : Flit := ⟨2 ^ 32 - 1, 4, again, 1, 1, 0, 0, []⟩

/-- Port 7 is enabled; its link is up and flits 4 and 5 wait in its replay buffer, 5 resent n times. -/
def linked (n : Nat) : State :=
  let s := (live.setFld 7 ALF_CTRL_EN 1).setFld 7 ALF_STATUS_UP 1
  s.setLink 7 { PortLink.reset with rxSeq := 2 ^ 32 - 1, replay := [(4, 9), (5, n)], reqCredit := 1000, respCredit := 1000 }

theorem wit_links : (7 : Nat) < live.links.length ∧ (live.setFld 7 ALF_CTRL_EN 1).flag 7 ALF_CTRL_EN = true ∧ live.flag 7 ALF_STATUS_UP = false ∧
    (linked 7).flag 7 ALF_STATUS_UP = true ∧ (7 : Nat) < (linked 7).links.length ∧ ((linked 7).link 7).replay = [(4, 9), (5, 7)] ∧
    ((linked 7).link 7).replay.filter (fun p => !acked (flit true).ack p.1) = [(5, 7)] ∧
    ((linked 8).link 7).replay.filter (fun p => !acked (flit true).ack p.1) = [(5, 8)] ∧ (flit true).seq = ((linked 7).link 7).rxSeq ∧
    (flit true).seq ≠ ((linked 7).setLink 7 PortLink.reset |>.link 7).rxSeq ∧ ((linked 7).link 7).reqQ = [] ∧ ((linked 7).link 7).ackAt + 20000 < 20001 ∧
    (linked 7).expert .host = true ∧ (linked 7).expert lay = false := by decide +kernel

/-- R349: flit 5 is resent an eighth time and not a ninth. -/
theorem test_ninth_resend : ((linked 8).flitTaken 7 (flit true)).flag 7 ALF_STATUS_UP = false ∧
    (((linked 7).flitTaken 7 (flit true)).link 7).replay = [(5, 8)] ∧ ((linked 7).flitTaken 7 (flit true)).counter 3 7 2 = 0 ∧
    ((linked 0).tick 20000).flag 7 ALF_STATUS_UP = true ∧ ((linked 0).tick 20001).flag 7 ALF_STATUS_UP = false := by decide +kernel

/-- A request of node 9 for context 63. -/
def ask (k : FabKind) (a n : Nat) (data : List Byte) : FabReq := ⟨k, 9, 63, a, n, data, 1, 0, 0, 0⟩

/-- This module is node 5; port 7 gives node 9's context 63 the local context 0, whose regions grant everything; a request waits at it. -/
def peered (q : FabReq) (c : Nat) : State :=
  let s := (linked 0).setFld 0 ALF_NODE_NODE 5
  let s := (s.setFld 7 (ALF_ICTX_V 63) 1).setFld 7 (ALF_ICTX_NLO 63) 9
  let s := (s.setFld 7 (ALF_ICTX_NHI 63) 9).setLink 7 { PortLink.reset with hbmCredit := c, portCredit := c, reqCredit := 1000, respCredit := 1000 }
  { s with rgnLive := mm.rgnLive, fabIn := [(3, ⟨q, 0, false, false⟩), (7, ⟨q, 0, false, false⟩)] }

theorem wit_translate : (peered (ask .read 0x40 8 []) 0).translate 7 (ask .read 0x40 8 []) = some 0 ∧
    (peered (ask .read 0x40 8 []) 0).translate 7 { ask .read 0x40 8 [] with node := 8 } = none ∧
    (peered (ask .read 0x40 8 []) 0).flag 7 ALF_STATUS_UP = true := by decide +kernel

/-- The last 8 bytes of die 7's stack. -/
def end7 : Nat := 8 * Config.stackBytes - 8

/-- Whether a waiting request meets the limiters at port 7. -/
def admits (s : State) (q : FabReq) : Bool :=
  let l := ((s.tick 5).growCredit 7).link 7
  decide (s.fabCharge q * 5000 ≤ l.hbmCredit) && decide ((reqSlotBytes q.kind q.len + respSlotBytes q.kind q.len true) * 1000 ≤ l.portCredit)

/-- With a rate of 1 thousandth, nothing is admitted 5 ns after an empty bucket. -/
def slowed (q : FabReq) : State := ((peered q 0).setFld 7 ALF_ING_HBM_RATE 1).setFld 7 ALF_ING_PORT_RATE 1

theorem wit_ingress : takeOf 7 (peered (ask .read end7 8 []) (2 ^ 40)).fabIn = some (⟨ask .read end7 8 [], 0, false, false⟩,
      [(3, ⟨ask .read end7 8 [], 0, false, false⟩)]) ∧ (linked 0).home end7 = .hbm 7 ∧ (7 : Nat) < (peered (ask .read end7 8 []) 0).links.length ∧
    [ask .read end7 8 [], ask .write end7 8 (List.replicate 8 1), ask .landing end7 8 (List.replicate 8 1), ask .atomicAdd end7 4 (List.replicate 4 1),
      ask .cue 0 0 []].all (fun q => admits (peered q (2 ^ 40)) q) = true ∧
    admits (slowed (ask .read end7 8 [])) (ask .read end7 8 []) = false ∧ (peered (ask .read 0 8 []) (2 ^ 40)).fabHere 7 (ask .read 0 8 []) = false ∧
    (peered (ask .atomicAdd end7 4 []) 0).poisoned end7 4 = false ∧
    ({ peered (ask .atomicAdd end7 4 []) 0 with poison := [end7 / 64] }).poisoned end7 4 = true := by decide +kernel

/-- A remote signal for core 1372 of die 7; its handle 63 maps to counter 5 for remote use. -/
def remoteSignal (v : Nat) : State :=
  let s := peered { ask .cue 0 0 [] with site := 1372, handle := 63, inc := 65535 } (2 ^ 40)
  let s := s.setCfld 1372 (CFG_CUE_BIND_V 0) v
  let s := s.setCfld 1372 (CFG_CUE_MAP_V 63) v
  let s := s.setCfld 1372 (CFG_CUE_MAP_REM 63) v
  s.setCfld 1372 (CFG_CUE_MAP_CNT 63) 5

theorem wit_remote_cue : (remoteSignal 1).good 1372 = true ∧ dieOf 1372 = 7 ∧ (remoteSignal 1).cueMap 1372 0 63 = some (5, true) ∧
    (∀ x : Fin 4, ((remoteSignal 1).thr 1372 x).wait = none) ∧ (remoteSignal 0).cueMap 1372 0 63 = none := by decide +kernel

theorem test_remote_read : after (exec (.ingressAdmit 7 5) (peered (ask .read end7 8 []) (2 ^ 40))) (fun t =>
    t.fabAns == [⟨7, 9, 0, List.replicate 8 0, 0⟩] && t.fabIn.length == 1) = true := by decide +kernel

/-- Thread 3 of core 0 waits for the load of tag 77; write 78 is under way. -/
def abroad : State :=
  let s := linked 0
  let s := { s with fabOut := [⟨77, .load 0 3, .read, 0x10000000000040, 4, 7, none, 0⟩, ⟨78, .write, .write, 0x10000000000040, 1, 7, none, 0⟩]
                    inflight := [⟨2, .host, 0, 0x10000000000040, [1], false, false, [], some 78, false, none, 0, false, none, false⟩] }
  s.modThr 0 3 (fun x => { x with loads := [⟨.w, 1, 0, 0x10000000000040, false, false, 0, 0, some 77, none, 0, []⟩] })

theorem wit_responses : abroad.fabOut.find? (fun f => f.tag == 77) = some ⟨77, .load 0 3, .read, 0x10000000000040, 4, 7, none, 0⟩ ∧
    (abroad.thr 0 (Fin.ofNat 4 3)).loads = [⟨.w, 1, 0, 0x10000000000040, false, false, 0, 0, some 77, none, 0, []⟩] ∧
    abroad.fabOut.find? (fun f => f.tag == 78) = some ⟨78, .write, .write, 0x10000000000040, 1, 7, none, 0⟩ ∧
    (abroad.inflight.find? (fun w => w.tag == some 78)).isSome = true ∧ abroad.fabOut.find? (fun f => f.tag == 79) = none := by decide +kernel

/-- Port 7 sends and takes time marks; the source is src, locked. -/
def marked (src : Nat) : State :=
  let s := ((linked 0).setFld 7 ALF_TIME_SEND 1).setFld 7 ALF_TIME_RECV 1
  let s := s.setLink 7 PortLink.reset
  { (s.setFld 7 ALF_DELAY_NS 100).setFld 0 CUR_CTRL_SRC src with curMode := .locked, nominal := 399600 }

theorem wit_marks : (marked 0).flag 0 CUR_STATUS_RUN = true ∧ (marked 0).fld 0 CUR_CTRL_SRC ≠ 2 ∧ (marked 0).now ≤ 390000 ∧
    390000 + 10000 = (marked 0).curtainAt + (marked 0).fld 0 CUR_PERIOD_PERIOD ∧ (marked 2).fld 0 CUR_CTRL_SRC = 2 ∧
    (marked 2).flag 7 ALF_TIME_RECV = true ∧ (marked 2).flag 7 ALF_STATUS_UP = true ∧ 299 < (marked 2).fld 7 ALF_DELAY_NS + 200 ∧
    (marked 2).fld 7 ALF_DELAY_NS + 200 ≤ 300 ∧ (marked 2).edgeAt = none ∧ (marked 2).curMode = .locked ∧
    (marked 2).curtainAt + (marked 2).nominal ≤ 400200 + 300 - 100 ∧ 400200 + 300 - 100 ≤ ((marked 2).tick 400200).windowEnd ∧
    399399 + 300 - 100 < (marked 2).curtainAt + (marked 2).nominal ∧ ((marked 2).tick 400201).windowEnd < 400201 + 300 - 100 := by decide +kernel

theorem test_mark : after (exec (.timeMarkSend 390000) (marked 0)) (fun t => t.out == [.mark 7 10000 1]) = true := by decide +kernel

/-- The host's link is up, in D0, and READY. -/
def hosted : State := ({ live with pcie := { live.pcie with up := true, bme := true } }.setFld 0 PWR_STATUS_READY 1).setBytes 0x7F [1, 2]

theorem wit_host : hosted.hostOn 2 0x7F = true ∧ live.hostOn 2 0x7F = false ∧ (0x1FFFFFC : Nat) < 0x2000000 ∧ 0x1FFFFFC % 4 = 0 ∧ hosted.inBar 2 0x7F 2 = true ∧
    (parts (hosted.barAddr 2 0x7F) 2).any (fun p => hosted.hostRefused p.1 p.2 false) = false ∧
    (parts (hosted.barAddr 2 0x7F) 2).any (fun p => hosted.hostRefused p.1 p.2 true) = false ∧ hosted.inBar 4 0x7FFFFFF8 8 = true ∧
    (parts (hosted.barAddr 4 0x7FFFFFF8) 8).any (fun p => hosted.hostRefused p.1 p.2 false) = true ∧
    (parts (hosted.barAddr 4 0x7FFFFFF8) 8).any (fun p => hosted.hostRefused p.1 p.2 true) = true := by decide +kernel

theorem test_host_read : after (exec (.hostRead 2 0x7F ⟨2, .ok⟩) hosted) (fun t => t.rdData == [1, 2] && t.rdStatus == 0) = true := by decide +kernel

/-- HI and LO registers of intake ring 0, an expert's register of a port, a register of the stream director. -/
theorem wit_registers : (regRow 7 0x40104).isSome = true ∧ (regRow 7 0x40100).isSome = true ∧ isHi 0x40104 = true ∧ isLo 0x40104 = false ∧
    isLo 0x40100 = true ∧ isShadow (dkey 7 0x40104) = false ∧ cbGuarded 0x40104 = false ∧ isShadow (dkey 7 0x40100) = false ∧
    cbGuarded 0x40100 = false ∧ (0x40104 - 4) ∉ [0xE0004, 0xF0010, 0xF0018, 0x12F000] ∧
    ((regRow 7 0x40104).map (fun row => row.fields.all (fun f => f.acc == .ro))) = some false ∧
    ((regRow 7 0x40100).map (fun row => row.fields.all (fun f => f.acc == .ro))) = some false ∧ live.expert .host = true ∧
    ({ live with loWr := [(Requester.host, dkey 7 0x40100, 0x1000)] }).loWr.find? (fun p => p.1 == Requester.host && p.2.1 == dkey 7 (0x40104 - 4)) =
      some (Requester.host, dkey 7 (0x40104 - 4), 0x1000) ∧
    live.regView 7 0x40100 = some 0 ∧ live.regView 7 (0x40100 + 4) = some 0 := by decide +kernel

theorem wit_plain_register : isShadow (dkey 7 0xF0024) = false ∧ cbGuarded 0xF0024 = false ∧ 0xF0024 / 0x10000 ∈ [5, 7, 10, 15] ∧
    isLo 0xF0024 = false ∧ isHi 0xF0024 = false ∧
    ((regRow 7 0xF0024).map (fun row => row.fields.all (fun f => f.acc == .ro))) = some false := by decide +kernel

theorem wit_expert_register : live.expert lay = false ∧ ((regRow 7 0xD0010).map (fun row => row.fields.all Fld.expert)) = some true ∧
    (live.regView 7 0xD0010).isSome = true ∧
    ((regRow 7 0xD0010).map (fun row => (live.wrAny lay 7 0xD0010 row 1).rg (dkey 7 0xD0010) ==
      (live.wrAny lay 7 0xD0010 row (row.basic ((live.regView 7 0xD0010).getD 0) 1)).rg (dkey 7 0xD0010))) = some false ∧
    ((regRow 7 0xD0010).map (fun row => row.basic ((live.regView 7 0xD0010).getD 0) ((live.regView 7 0xD0010).getD 0) == (live.regView 7 0xD0010).getD 0)) = some true ∧ live.barred lay 0xD0010 = false ∧ live.barred lay 0x90040 = true := by decide +kernel

/-- Core 1567 is of group 31 alone. -/
theorem wit_broadcast_write : (live.setCfld 1567 CFG_CORE_GROUP_GROUP (2 ^ 31)).good 1567 = true ∧
    bitOf ((live.setCfld 1567 CFG_CORE_GROUP_GROUP (2 ^ 31)).cfld 1567 CFG_CORE_GROUP_GROUP) (31 % 32) = true ∧
    bitOf ((live.setCfld 1567 CFG_CORE_GROUP_GROUP (2 ^ 31)).cfld 1567 CFG_CORE_GROUP_GROUP) (30 % 32) = false ∧
    live.flag 0 ROT_STATUS_DBG_OPEN = false ∧ (live.setFld 0 ROT_STATUS_DBG_OPEN 1).flag 0 ROT_STATUS_DBG_OPEN = true := by decide +kernel

-- O47 to O59

/-- Context 63 is being published. -/
def publishing : State := { live with publishing := some 63 }

theorem wit_publish : live.publishing ≠ some 63 ∧ publishing.publishing = some 63 ∧ live.publishing = none ∧ publishing.publishing.isSome = true := by
  decide +kernel

theorem test_publish : after (exec .publishComplete { publishing with rgnPend := [(63 * 64 + 63, 7)] }) (fun t =>
    get 0 t.rgnLive (63 * 64 + 63) == 7) = true := by decide +kernel

/-- An entry of act 4095 that passes its checks. -/
def actImage : Nat := 4095 + 2 ^ 32 + 64 * 2 ^ (8 * 0x36) + 2 ^ (8 * 0x52) + 2 ^ (8 * 0x56) + 2 ^ 0x268

/-- It stands in the data registers, and a word w in those of the site assignment. -/
def tabled (w : Nat) : State := (live.setActData (BitVec.ofNat 1024 actImage)).setFld 0 CFG_ASN_DATA_WORD w

theorem wit_tables : (tabled 0xBFFF).swapPending = false ∧ (tabled 0xBFFF).actData = BitVec.ofNat 1024 actImage ∧ actResult 4095 actImage = 0 ∧
    actResult 4094 actImage = 2 ∧ actResult 4095 (actImage + 2 ^ (8 * 0x58)) = 6 ∧
    ¬ (bitsOf ((tabled 0xBFFF).fld 0 CFG_ASN_DATA_WORD) 30 1 = 1 ∨ bitsOf ((tabled 0xBFFF).fld 0 CFG_ASN_DATA_WORD) 16 14 ≠ 0) ∧
    bitsOf ((tabled (2 ^ 30)).fld 0 CFG_ASN_DATA_WORD) 30 1 = 1 ∧ bitsOf ((tabled (2 ^ 16)).fld 0 CFG_ASN_DATA_WORD) 16 14 ≠ 0 ∧
    (tabled 0).expert .host = true ∧ (tabled 0).expert lay = false ∧
    ((tabled 0).setFld 0 CFG_SS_STATUS_PEND 1).swapPending = true := by decide +kernel

/-- A swap is asked for, at an instant before the close or after it; a pending one's frame is f. -/
def swapping : State := { live with swapReq := true }
def swapped (f : Nat) : State := { live.setFld 0 CFG_SS_STATUS_PEND 1 with swap := some ⟨f, false⟩ }

theorem wit_swap : swapping.swapReq = true ∧ ({ swapping.tick 5 with swapReq := false }).swapResult = 0 ∧ (swapping.tick 5).beforeClose = true ∧
    (swapping.tick 399999).beforeClose = false ∧
    ({ (swapping.setFld 0 CFG_SS_STATUS_PEND 1).tick 5 with swapReq := false }).swapResult ≠ 0 ∧ live.flag 0 CFG_SS_CMD_BUSY = false ∧
    (live.setFld 0 CFG_SS_CMD_BUSY 1).flag 0 CFG_SS_CMD_BUSY = true ∧ (swapped 1).swapClosed ⟨1, false⟩ = false ∧
    ({ swapped 1 with closedFor := 1 }).swapClosed ⟨1, false⟩ = true ∧ (swapped 1).swapPending = true ∧ live.swapPending = false := by
  decide +kernel

theorem test_swap_late : after (exec (.swapValidation 399999) swapping) (fun t => t.swap == some ⟨2, false⟩) = true := by decide +kernel

/-- Port 1 has an event to deliver; firmware runs. -/
def ported : State :=
  let s := live.setFld 0 MGT_STATUS_FW_OK 1
  { s with ports := [Port.reset, ⟨some 9, 8, 64, true, [⟨0, 0, 816, 0, 0, 0, 3, 0, 1, false, 4⟩], 3, [1], []⟩] }

theorem wit_ports : ported.portUp (1 : Fin 2).val = true ∧ (1 : Fin 2).val < ported.ports.length ∧ (ported.port 1).events = true ∧
    (ported.port 1).queue = [⟨0, 0, 816, 0, 0, 0, 3, 0, 1, false, 4⟩] ∧ ported.fwOk = true ∧ live.fwOk = false ∧ live.portUp 1 = true ∧
    ported.sensor 33 = some 0 ∧ ported.sensor 34 = none ∧ (ported.setFld 0 MGT_STATUS_ACTIVE 1).portUp (0 : Fin 2).val = false ∧
    ported.secAt + 1000000000 ≤ ({ ported with upTime := 1000000000 }).upTime ∧ ported.flag 0 MGT_STATUS_ACTIVE = false ∧
    ¬ ((63 : Nat) = 0 ∧ 1 ≤ 255 ∧ 255 ≤ 5) := by decide +kernel

theorem test_event_ack : after (exec (.pldmEventAck 1) ported) (fun t => (t.port 1).queue == []) = true := by decide +kernel

/-- Bank 0 is active and bank 1 is being verified, or loaded. -/
def banked (v : Bool) : State := { ported with rot := { ported.rot with active := some false, verifying := v } }

theorem wit_banks : ((banked true).rot.verifying || (banked true).rot.loading) = true ∧
    ((banked false).rot.verifying || (banked false).rot.loading) = false ∧ (banked false).inactive = true ∧ ported.inactive = true ∧
    (banked true).portUp (0 : Fin 2).val = true ∧ fwCheck ((banked true).bank (banked true).inactive) = 2 ∧ (banked true).rot.active ≠ none ∧
    ported.rot.active = none ∧ ported.flag 0 ROT_STATUS_IDERR = false ∧ (ported.setFld 0 ROT_STATUS_IDERR 1).flag 0 ROT_STATUS_IDERR = true := by
  decide +kernel

/-- A bundle with its header in place; a verification that the crypto accepts gives 0. -/
theorem wit_firmware (m : SMap Byte) (h : bankFld m 0 4 = 0x53384657) (h1 : bankFld m 4 2 = 1) (h2 : bankFld m 0x14 1 < 2)
    (h3 : sha256 (bankBytes m 0x20 32) = keyDigest (bankFld m 0x14 1 == 1))
    (h4 : Config.slhVerify (bankBytes m 0x20 32) (bankBytes m 0 0x1C0) (bankBytes m 0x1C0 7856) = true) (h5 : tableOk m = true)
    (h6 : (components m).any (fun (_, o, l, d) => sha256 (bankBytes m o l) != digestAt m d) = false) : fwCheck m = 0 := by
  simp only [fwCheck, h, h1, h3, h4, h5, h6]
  simp; omega

theorem wit_token_wrong : ported.expert .host = true ∧ (ported.setFld 0 (ROT_DBG_NONCE_NONCE 7) 1).tokenResult = 1 := by decide +kernel

/-- A token is taken where its nonce and its device are those of the module and a vendor key verifies it. -/
theorem wit_token (s : State)
    (h : (bankBytes (s.bank s.inactive) 0x3FC000 96).take 32 = (List.range 8).flatMap (fun k => leBytes 4 (s.fld 0 (ROT_DBG_NONCE_NONCE k))))
    (h1 : digestAt (s.bank s.inactive) 0x3FC020 = sha256 Config.identityKey)
    (h2 : Config.slhVerify (vendorKey true) (bankBytes (s.bank s.inactive) 0x3FC000 96) (bankBytes (s.bank s.inactive) 0x3FC060 7856) = true) :
    s.tokenResult = 0 := by
  simp [State.tokenResult, h, h1, h2]

/-- Context 63 rehearses; in `rehearsed true` one of its threads is debug-stopped. -/
def rehearsed (stop : Bool) : State :=
  let s := ported.setRg64 (dkey 0 MGT_REH_LO_CTX.off) (2 ^ 63)
  if stop then s.modThr 0 0 (fun x => { x with dbgStop := true, ctx := 63 }) else s

theorem wit_rehearsal : (∀ k : Fin 64, (rehearsed false).ctxStopped k.val = false) ∧ bitOf ((rehearsed false).rg64 (dkey 0 MGT_REH_LO_CTX.off)) 63 = true ∧
    bitOf (0 : BitVec 64).toNat 63 = false ∧ bitOf ((rehearsed false).rg64 (dkey 0 MGT_REH_LO_CTX.off)) 62 = false ∧
    bitOf (2 ^ 62 : BitVec 64).toNat 62 = true ∧ (rehearsed true).ctxStopped 63 = true ∧
    bitOf ((rehearsed true).rg64 (dkey 0 MGT_REH_LO_CTX.off)) 63 = true ∧ ported.expert lay = false := by decide +kernel

theorem wit_rehearsal_none (k : Nat) : ({ ported with cores := [] }).ctxStopped k = false := rfl

/-- Port 1 in a state of SPDM; the module ready to attest or not. -/
def spdm (n : Nat) (ok : Bool) : State :=
  let s := ported.setFld 0 ROT_STATUS_ATT_READY (b2n ok)
  { s with ports := [Port.reset, { Port.reset with spdm := n, response := List.replicate n 7 }] }

theorem wit_spdm : (spdm 0 true).portUp (1 : Fin 2).val = true ∧ (spdm 0 true).fwOk = true ∧ (1 : Fin 2).val < (spdm 0 true).ports.length ∧
    ((spdm 0 true).port 1).spdm = 0 ∧ ((spdm 1 true).port 1).spdm = 1 ∧ ((spdm 2 true).port 1).spdm = 2 ∧ ((spdm 3 true).port 1).spdm = 3 ∧
    ((spdm 4 true).port 1).spdm = 4 ∧ (spdm 3 true).flag 0 ROT_STATUS_ATT_READY = true ∧ (spdm 3 false).flag 0 ROT_STATUS_ATT_READY = false ∧
    (spdm 3 true).flag 0 MGT_STATUS_ACTIVE = false ∧ (spdm 3 true).rot.signing = none ∧ ((spdm 0 true).port 1).response = [] ∧
    ((spdm 3 true).port 1).response ≠ [] ∧
    ({ spdm 3 true with rot := { (spdm 3 true).rot with signing := some (1, [7]) } }).rot.signing = some ((1 : Fin 2).val, [7]) := by
  decide +kernel

theorem wit_supplies : live.pins.input = true ∧ live.resetting ≠ .stopped ∧ live.pins.pwrgd = true ∧ live.pinsTaken = false ∧
    (∀ y : Fin 4, ((live.tick 5).thr 0 y).wait = none) ∧ ({ live with resetting := .stopped }).resetting = .stopped ∧
    ({ live with pins := { live.pins with pwrgd := false } }).pins.pwrgd = false := by decide +kernel

/-- The host link outlives an orderly stop by 20 µs (R425). -/
theorem test_stop_link : after (exec (.undervoltageLockout 5) { live with pcie := { live.pcie with up := true } }) (fun t =>
    t.linkUp && (t.tick 20004).linkUp && !(t.tick 20005).linkUp) = true := by decide +kernel

theorem test_thermal : after (exec .thermalTrip (live.setBytes 5 [1])) (fun t => t.mem == [] && t.pins.thermtrip && !t.pins.pwrgd) = true := by
  decide +kernel

/-- Out of reset with firmware; the supply, PWR_EN, PERST_N and the TAP as given. -/
def starting (input en good perst : Bool) (tap : TapInstr) (r : Resetting) : State :=
  { ported with pins := { live.pins with input := input, pwrEn := en, pwrgd := good, perst := perst, tap := tap }, resetting := r }

theorem wit_starts : (starting false true false true .bypass .cold).pins.input = false ∧ (starting false false false true .bypass .cold).pins.pwrEn = false ∧
    (starting true true true true .extest .none).pinsTaken = true ∧ (starting true true false true .bypass .cold).pinsTaken = false ∧
    (starting true true false true .bypass .cold).pins.pwrgd = false ∧ (starting true true true true .bypass .none).resetting ≠ .cold ∧
    (starting true true true true .bypass .cold).pins.perst = true ∧ (starting true true true true .bypass .warm).fwOk = true ∧
    (∀ y : Fin 4, ((starting true true true true .bypass .cold).thr 0 y).wait = none) ∧ live.fwOk = false ∧ ported.rot.active = none ∧
    ported.rot.next = false := by decide +kernel

theorem wit_resets : live.resetting = .none ∧ live.resetting ≠ .cold ∧ live.resetting ≠ .stopped ∧ live.expert .host = true ∧
    live.expert lay = false ∧ ({ live with resetting := .soft, softOwed := true, softStage := 2 }).resetting = .soft ∧
    ({ live with resetting := .soft, softOwed := true, softStage := 2 }).softOwed = true ∧ live.asnA = [] ∧ inPads (padBase 1583 + 0x7FFFF) = true ∧ inPads (padBase 1584) = false ∧
    (((vacant false).core 0).role) = .quarantined := by decide +kernel

theorem test_warm_keeps_quarantine : after (exec (.warmReset .perst) { (vacant false).setBytes 0x10 [1] with host := [(9, 9)] }) (fun t =>
    (t.core 0).role == .quarantined && t.mem == [] && t.host == [(9, 9)]) = true := by decide +kernel

/-- READY, in D0, D3hot or on the way to it. -/
def powered (d3 : Bool) (n : Nat) (r : Resetting) : State :=
  { (ported.setFld 0 PWR_STATUS_READY 1) with
    pcie := { vectored.pcie with d3 := d3, msixTab := [(2047, 1)] }, d3Pend := n, resetting := r }

theorem wit_power : (powered false 0 .soft).resetting = .soft ∧ (powered false 0 .none).resetting ≠ .soft ∧
    (powered false 0 .none).flag 0 PWR_STATUS_READY = true ∧ (powered false 0 .none).pcie.d3 = false ∧ (powered false 0 .none).d3Pend = 0 ∧
    (powered true 0 .none).pcie.d3 = true ∧ (powered false 1 .none).d3Pend ≠ 0 ∧ (powered false 0 .none).resetting ≠ .stopped ∧
    2047 ∈ (powered false 0 .none).pcie.msixPend ∧ bitOf (get 0 (powered false 0 .none).pcie.msixTab 2047).toNat 96 = false ∧
    (powered false 0 .none).pcie.fmask = false ∧ (get 0 (powered false 0 .none).pcie.msixTab 2047).toNat % 2 ^ 64 ≠ 0 ∧
    (powered false 0 .none).linkUp = true ∧ (powered false 0 .none).pcie.bme = true := by decide +kernel

theorem test_d3 : after (exec .d3hotEntry (powered false 0 .none)) (fun t => t.d3Pend == 2 && t.fld 0 PWR_STATUS_STATE == 2) = true := by
  decide +kernel

theorem wit_steps : ({ live with pending := [.heartbeat, .takeover] }).pending = .heartbeat :: [.takeover] ∧ live.pending = [] := by
  decide +kernel

theorem wit_alert : AlertInv live := by
  simp only [AlertInv]
  decide +kernel

-- WellFormed: an ill-formed command is refused by each check

theorem test_wf_site : (Instr.mov { op [] with site := 1586 } 0 0).wf = false ∧ (Instr.mov { op [] with site := 1585 } 7 7).wf = true ∧
    (Instr.wake 1586 0).wf = false ∧ (Instr.wake 1585 3).wf = true := by decide

theorem test_wf_requester : (Instr.arm (.thread 1586 0)).wf = false ∧ (Instr.arm (.chan 1586 1)).wf = false ∧ (Instr.arm (.bulk 8 0)).wf = false ∧
    (Instr.arm (.bulk 7 16)).wf = false ∧ (Instr.arm (.bulk 7 15)).wf = true ∧ (Instr.arm (.ring 8 0)).wf = false ∧
    (Instr.arm (.stage 16)).wf = false ∧ (Instr.arm .host).wf = true := by decide

theorem test_wf_channel : (Instr.dmaDone (.core 1586 0)).wf = false ∧ (Instr.dmaDone (.bulk 8 0)).wf = false ∧ (Instr.dmaDone (.bulk 0 16)).wf = false ∧
    (Instr.dmaRetry (.ring 8 0) (.bulk 0 0)).wf = false := by decide

theorem test_wf_image : (Instr.broadcastWrite .host (.group 32) 0 0).wf = false ∧ (Instr.broadcastWrite .host (.group 31) 0 0).wf = true := by decide

theorem test_wf_fabric : (Instr.fabricRequest 8 ⟨.read, 0, 0, 0, 8, [], 0, 0, 0, 0⟩).wf = false ∧
    (Instr.fabricRequest 0 ⟨.read, 4096, 0, 0, 8, [], 0, 0, 0, 0⟩).wf = false ∧
    (Instr.fabricRequest 0 ⟨.read, 0, 64, 0, 8, [], 0, 0, 0, 0⟩).wf = false ∧
    (Instr.fabricRequest 0 ⟨.read, 0, 0, 2 ^ 52, 8, [], 0, 0, 0, 0⟩).wf = false ∧
    (Instr.fabricRequest 0 ⟨.cue, 0, 0, 0, 0, [], 0, 0, 64, 0⟩).wf = false ∧
    (Instr.fabricRequest 7 ⟨.read, 4095, 63, 2 ^ 52 - 1, 1, [], 0, 0, 63, 0⟩).wf = true := by decide

theorem test_wf_numbers : (Instr.ctxChange .host 0 0 64).wf = false ∧ (Instr.bdmaReq .host 0 32).wf = false ∧ (Instr.pmcLoad .host 0 true ⟨2048, .ok⟩).wf = false ∧
    (Instr.actRelease .host 0 4096).wf = false ∧ (Instr.boxEnable .host 8 true).wf = false ∧ (Instr.intakeDoorbell .host 0 8 0).wf = false ∧
    (Instr.egressHeadWrite .host 0 64 0).wf = false ∧ (Instr.cbRead .host 0 (2 ^ 18)).wf = false ∧
    (Instr.grpReadEta .host 0 1024).wf = false ∧ (Instr.grpReadEta .host 7 1023).wf = true ∧ (Instr.holdoffExpiry 0 64 0).wf = false ∧
    (Instr.eoi .host 0 24).wf = false ∧ (Instr.evgSwset .host 0 1024).wf = false ∧ (Instr.hostRead 1 0 ⟨4, .ok⟩).wf = false ∧
    (Instr.hostWrite 3 0 [] ⟨false, .ok⟩).wf = false ∧ (Instr.hostRead 4 0 ⟨4, .ok⟩).wf = true ∧ (Instr.msixUnmask 2048).wf = false ∧
    (Instr.ctxReadEntry .host 0 64).wf = false ∧ (Instr.asnReadActive .host 0 196).wf = false ∧ (Instr.asnReadActive .host 7 195).wf = true ∧
    (Instr.sensorSample ⟨0, 0, 0, 0, [], []⟩).wf = false ∧ (Instr.registerWrite .host 2 0).wf = false ∧
    (Instr.registerWrite .host (2 ^ 52) 0).wf = false ∧ (Instr.pcieLinkUp 8 16).wf = false := by decide

/-- The worked examples of R117 and R132 as words of two syllables, the first lowest; a word of no syllables or with bit 15 set spells nothing. -/
theorem test_decode : decodeTableWord 16 0x27CA = some (.loop (op []) 0 5 0) ∧
    decodeTableWord 32 0x24101810 = some (.addi (op [.imm 0x10]) 4 0) ∧ decodeTableWord 0 0x27CA = none ∧ decodeTableWord 16 0xA7CA = none := by
  decide +kernel
/-- Banks 3 and 4 of thread 0: invalid, and at HBM that no region grants; bank 5 at the register space, granted. -/
def guarded : State := { run0 (fun x => { x with
    s := (((((x.s.set 1 0x7FFFE).set 2 0x80000).set 3 0x60000000).set 4 0x80000000).set 5 0xA0000000).set 6 0x1000
    slice := 0x000000
    bk := (x.bk.set 4 1).set 5 0x20000000001 }) with
  rgnLive := [(0, 0x2000000000000000000 ||| (0xF <<< 64) ||| ((0x20000000 : BitVec 128) <<< 76) ||| 0x20000000000)] }

theorem wit_checks : Lone guarded (op []) acceptsMem [0, 1] ∧ Lone guarded (op []) acceptsMem [0, 2] ∧ Lone guarded (op []) acceptsMem [0, 3] ∧
    Lone guarded (op []) acceptsMem [0, 4] ∧ Lone guarded (op []) acceptsMem [0, 6] ∧ Lone guarded (op []) acceptsMem [16 + 0, 5] := by
  refine ⟨lone_of ?_, lone_of ?_, lone_of ?_, lone_of ?_, lone_of ?_, lone_of ?_⟩ <;> decide +kernel

/-- The effective addresses of s1 to s6. -/
def eaOf (a : BitVec 3) : Nat := (guarded.thr 0 0).effAddr (Iss.pre (op [])) a

theorem wit_checks_hold : eaOf 1 % 4 ≠ 0 ∧ eaOf 2 % 4 = 0 ∧ eaOf 2 / 2 ^ 29 % 8 = 0 ∧ 0x80000 < eaOf 2 % 2 ^ 29 + 1 ∧
    eaOf 6 % 4 = 0 ∧ guarded.sliceOk 0 0 (eaOf 6) 4 = false ∧ (cached.thr 0 0).effAddr (Iss.pre (op [])) 0 = 7 ∧
    cached.sliceOk 0 0 7 1 = true ∧ (cached.setCfld 0 SP_BMAP_MAP 0x5555).bankOk 0 7 1 .n = false ∧ (Iss.pre (op [])).hasReg = false ∧ eaOf 3 / 2 ^ 29 % 8 = 3 ∧
    ((guarded.thr 0 0).bk[3]).toNat % 2 = 0 ∧ eaOf 4 / 2 ^ 29 % 8 = 4 ∧ ((guarded.thr 0 0).bk[4]).toNat % 2 = 1 ∧
    guarded.permitted 0 0 4 needR = false ∧ guarded.resolve 0 0 (eaOf 5) 64 needR ⟨.n, 0⟩ true = .ok (.glob 0x20000000000) ∧
    guarded.isRegSpace 0x20000000000 = true := by decide +kernel

theorem test_misaligned : after (exec (.ldw (op []) 0 1) guarded) (fun t => (t.thr 0 0).sv1.cause == 9 && (t.thr 0 0).sv1.addr == 0x7FFFE) = true := by
  decide +kernel

theorem wit_parity : flying.inflight.map flying.crossed = [some 0, some 0, none, some 0] ∧
    ({ run with inflight := [⟨1, .bulk 0 0, 0, 0x41, [1, 2], false, false, [], none, false, none, 0, false, none, false⟩] }).crossed
      ⟨1, .bulk 0 0, 0, 0x41, [1, 2], false, false, [], none, false, none, 0, false, none, false⟩ = none := by decide +kernel

theorem test_parity_write : after (exec (.writeLand 1 .parity) flying) (fun t =>
    t.poison == [0x010000300000 / 64] && t.fld 0 MSH_ERR_CNT_DATA == 1) = true := by decide +kernel

theorem test_parity_load : after (exec (.loadDataArrival 0 0 0 .parity) (run0 (fun x => { x with
    loads := [⟨.w, 1, 0x20000040, 0x40, false, false, 0, 0, none, none, 0, []⟩] }))) (fun t =>
    (t.thr 0 0).sv2.cause == 0x30 && t.flag 0 MSH_EVENT_PARITY) = true := by decide +kernel

theorem test_parity_burst : after (exec (.dmaBurst (.core 0 1) .parity) moving) (fun t => t.inflight.map (·.poison) == [true] && t.poison == []) = true := by
  decide +kernel

-- syllables of program memory: the worked examples of the instruction set's and the tiles' chapters

/-- The operation that the first of a list of syllables of program memory begins. -/
def fetched (l : List (BitVec 14)) : Option Instr :=
  ({ Core.reset with pm := (l.zipIdx.map (fun (w, k) => (k, w))) } : Core).fetchOp 0 0 0 [] 8

theorem test_syllable_loop : fetched [0x27CA] = some (.loop (op []) 0 5 0) := by decide +kernel

theorem test_syllables_vector : fetched [0x120C] = some (.vld part 1 4) ∧
    fetched [0x1A20, 0x0901] = some (.vfma { part with pfx := [.reg 2 false false 0] } 0 1) := by decide +kernel

theorem test_syllables_immediate : fetched [0x1810, 0x2410] = some (.addi (op [.imm 0x10]) 4 0) := by decide +kernel

theorem test_syllables_tile : fetched [0x2D02] = some (.tmmaAcc0 (op []) 0 2) ∧ fetched [0x2C8C] = some (.tld (op []) 1 4) := by decide +kernel

theorem test_undefined_codes : undefinedCode 0x2FC0 = true ∧ undefinedCode 0x36C0 = true ∧ undefinedCode 0x3F80 = true ∧ undefinedCode 0x3F40 = false := by
  decide +kernel

-- later clauses

/-- Thread 0's TLD stopped at row 31 left a bundle that goes on at 9, begun at w. -/
def branched (w : BitVec 16) : State := (resumed 2).modThr 0 0 (fun x => { x with after := some ⟨w, 9, [], []⟩ })

theorem wit_resume_after : ((branched 2).thr 0 0).after = some ⟨2, 9, [], []⟩ ∧ ((branched 2).thr 0 0).pc = 2 ∧
    ((branched 5).thr 0 0).after = some ⟨5, 9, [], []⟩ ∧ (5 : BitVec 16) ≠ ((branched 5).thr 0 0).pc := by decide +kernel

/-- The bundle goes on where its first issue left it (R125). -/
theorem test_resume_after : after (exec (.tld (op []) 1 4) (branched 2)) (fun t => (t.thr 0 0).after == some ⟨2, 9, [], []⟩ &&
    (t.thr 0 0).long.isSome) = true := by decide +kernel

/-- Line 0x40 is fetched ahead of need; no load waits for it. -/
def ahead : State := cached.modCore 0 (fun c => { c with lines := [], demand := none, ahead := some 0x40 })

theorem wit_load_ahead : Lone ahead (op []) acceptsMem [0, 2] ∧ ahead.resolve 0 0 0x20000040 4 needR ⟨.n, 0⟩ true = .ok (.glob 0x40) ∧
    ahead.cacheable 0 0x40 = true ∧ (ahead.core 0).line 0x40 = none ∧ (ahead.core 0).ahead = some 0x40 ∧ ahead.isLocal 0x40 = true ∧
    ahead.memBusy 0 0 0x40 4 (reachOf false false 0x20000040) = false := by
  refine ⟨lone_of ?_, ?_⟩ <;> decide +kernel

/-- A load of a line being fetched sends no second fill and counts no miss (R244). -/
theorem test_load_ahead : after (exec (.ldw (op []) 0 2) ahead) (fun t => (t.core 0).ahead == some 0x40 && (t.core 0).demand == none &&
    (t.thr 0 0).loads.length == 1) = true := by decide +kernel

/-- Ring 7 keeps a record for die 0, whose hold has room or is full. -/
def keeping (n : Nat) : State :=
  { intake [] with itkKept := [(63, ⟨record 1 0x7FFF 0, 63, 7⟩)], fwd := List.replicate n (0, ⟨[], 0, 0⟩) }

theorem wit_itk_turn : (intake (record 1 0x3FFFF 0)).itkHasTurn 7 7 = true ∧
    ((intake (record 1 0x3FFFF 0)).setFld 7 (ITK_RING_CTL_EN 5) 1 |>.setFld 7 (ITK_RING_TAIL_TAIL 5) 1).itkHasTurn 7 7 = false ∧
    (keeping 1023).itkReady 7 7 = true ∧ (keeping 1023).itkHasTurn 7 7 = true ∧ (keeping 1023).kept 7 7 = some ⟨record 1 0x7FFF 0, 63, 7⟩ ∧
    (keeping 1024).itkReady 7 7 = false ∧ (intake (record 1 0x7FFF 0)).kept 7 7 = none ∧
    ((keeping 1023).fwd.filter (fun p => p.1 == streamDie 0x7FFF)).length < 1024 ∧
    ¬ ((keeping 1024).fwd.filter (fun p => p.1 == streamDie 0x7FFF)).length < 1024 ∧
    (intake []).fwd.any (fun p => p.1 == 7) = false ∧ (forwarded 0).itkMay 7 fromForward = true ∧
    ({ forwarded 0 with itkStop := [7] }).itkMay 7 fromForward = false ∧
    ({ forwarded 0 with itkNext := [(7, 7)] }).itkMay 7 fromForward = false := by decide +kernel

/-- A record that no hold takes is kept, HEAD standing, and sent when there is room (R67). -/
theorem test_kept : after (exec (.intakeFetch 7 7 5 .ok) { intake (record 1 0x7FFF 0) with fwd := (keeping 1024).fwd })
      (fun t => (t.kept 7 7).isSome && t.fld 7 (ITK_RING_HEAD_HEAD 7) == 2 ^ 32 - 1 && t.fwd.length == 1024) = true ∧
    after (exec (.intakeFetch 7 7 5 .ok) (keeping 3)) (fun t => (t.kept 7 7).isNone && t.fld 7 (ITK_RING_HEAD_HEAD 7) == 0 &&
      t.fwd.length == 4) = true := by decide +kernel

/-- The record that stopped the fetching comes first after the curtain (R78). -/
theorem test_stopper_first : after (exec (.intakeFetch 7 5 5 .ok) ({ intake (record 1 0x3FFFF 0) with itkNext := [(7, 7)] }.setFld 7
      (ITK_RING_CTL_EN 5) 1 |>.setFld 7 (ITK_RING_TAIL_TAIL 5) 1)) (fun t => t.fld 7 (ITK_RING_HEAD_HEAD 5) == 0) = true := by decide +kernel

/-- A batch runs on core 0, or one waits staged. -/
def running0 : Running := ⟨4095, 0, 63, false, 7, [⟨0x3FFFF, 0x40, 192, 1, 1, false, 0, false, false, 0⟩], 1, true, []⟩

theorem wit_stage_queue : ((placed0.modCore 0 (fun c => { c with batch := some running0 })).tick 5).good 0 = true ∧
    (((placed0.modCore 0 (fun c => { c with batch := some running0 })).tick 5).core 0).batch = some running0 ∧
    ((placed0.tick 5).core 0).queued = [] ∧
    (match (placed0.tick 5).stageRoom 0 2 (placed0.slotUnits 0x3FFFF (placed0.act 4095)) with
      | some (u, base) => !(u.directorPad none 7 0 (base * 64) (64 * 2 + placed0.egrRoom 4095) true).2
      | none => false) = true ∧
    (((live.modCore 0 (fun c => { c with queued := [⟨running0, 5, 100⟩] })).tick 5).core 0).queued = [⟨running0, 5, 100⟩] := by decide +kernel

/-- The next batch is staged beside the one that runs (R79, R80). -/
theorem test_stage_ahead : after (exec (.stageBatch 0 ⟨5, .ok⟩) (placed0.modCore 0 (fun c => { c with batch := some running0 }))) (fun t =>
    (t.core 0).queued.length == 1 && (t.core 0).batch == some running0 && (t.core 0).placed == []) = true := by decide +kernel

theorem wit_strike_shut : (((ended0 0).setCfld 0 SP_BMAP_MAP 0x55555555).tick 5 |>.directorPad (some 4095) 7 0 (0x40 + 128) 64 false).2 = true ∧
    (((ended0 0).tick 5).directorPad (some 4095) 7 0 (0x40 + 128) 64 false).2 = false := by decide +kernel

/-- A bank closed to the director stops the strike as an address fault (R229, R240). -/
theorem test_strike_shut : after (exec (.strike 0 0 ⟨5, .ok⟩) ((ended0 0).setCfld 0 SP_BMAP_MAP 0x55555555)) (fun t =>
    t.ent 0x3FFFF eSusp == 4 && t.ent 0x3FFFF eHalf == 0 && t.flag 7 SD_EVENT_ADDR_FAULT) = true := by decide +kernel

/-- The ring's TAIL stands at its last slot, HEAD at h. -/
def atEnd (h : Nat) : State := ((egress 0).setFld 7 (EGR_RING_TAIL_TAIL 63) 63).setFld 7 (EGR_RING_HEAD_HEAD 63) h

theorem wit_pad : (atEnd 60).egrOn 7 63 = true ∧ (atEnd 60).egrShort 7 63 2 = true ∧ (atEnd 60).egrToEnd 7 63 + 2 ≤ (atEnd 60).egrFree 7 63 ∧
    (rec2 true).payload.length ≤ 64 * (rec2 true).len ∧ (atEnd (2 ^ 32 - 1)).egrFree 7 63 < (atEnd (2 ^ 32 - 1)).egrToEnd 7 63 ∧
    (atEnd (2 ^ 32 - 1)).egrShort 7 63 2 = true ∧ get 0 { atEnd 60 with egrDropped := [(egrKey 7 63, 5)] }.egrDropped (egrKey 7 63) ≠ 0 ∧
    ((egress 0).setFld 7 (EGR_RING_CTL_EN 63) 0).egrOn 7 63 = false ∧
    ((egress 0).setFld 7 (EGR_RING_CTL_EN 63) 0).waitingBytes 7 + (rec2 true).size ≤ 0x100000 := by decide +kernel

/-- A pad of one slot, then the record at slot 0 (R83). -/
theorem test_pad : after (exec (.egressRecord 7 5 ⟨false, .ok⟩) (atEnd 60)) (fun t => t.fld 7 (EGR_RING_TAIL_TAIL 63) == 66 &&
    get 0 t.egrSeq (egrKey 7 63) == 2 && t.backlog.length == 1) = true := by decide +kernel

/-- A completion is written COAL ns after the first record it covers, by whatever looks then (R85). -/
theorem test_coalesced : (((owing.setFld 7 EGR_CTRL_COAL 10).tick 10).egrOwed, ((owing.setFld 7 EGR_CTRL_COAL 10).tick 11).egrOwed) =
    ([(7, 63, 0)], []) := by decide +kernel

/-- BAR0 of another die, and the stack of die 7. -/
theorem wit_host_crosses : hosted.hostCrosses 0 0x410008 ≠ none ∧ 0x410008 / 0x400000 ≠ 0 ∧
    hosted.hostCrosses 2 (7 * Config.stackBytes) ≠ none ∧ hosted.inBar 2 (7 * Config.stackBytes) 2 = true ∧ hosted.hostCrosses 2 0x7F = none := by
  decide +kernel

theorem test_host_unanswered : after (exec (.hostRead 2 (7 * Config.stackBytes) ⟨2, .busError⟩) hosted) (fun t => t.rdStatus == 2 &&
    t.flag 0 MSH_EVENT_TIMEOUT) = true := by decide +kernel

theorem wit_scrub : (live.setFld 7 HBC_SCRUB_EN 1).flag 7 HBC_SCRUB_EN = true ∧ live.guardOn = false ∧
    ((live.setFld 7 HBC_SCRUB_EN 1).setFld 7 HBC_SCRUB_RATE 5).scrubs 7 (7 * Config.stackBytes + 64 * 4) = true := by decide +kernel

theorem test_scrub : after (exec (.guardBandStart ⟨392000, [⟨7 * Config.stackBytes + 64 * 4, .uncorrectable⟩]⟩)
      ((live.setFld 7 HBC_SCRUB_EN 1).setFld 7 HBC_SCRUB_RATE 5)) (fun t =>
    t.poison == [(7 * Config.stackBytes) / 64 + 4] && t.flag 7 HBC_EVENT_UE && get 0 t.scrub 7 == 5) = true := by decide +kernel

theorem test_wf_issue : (Instr.mov { op [] with badRow := some (0, 32) } 0 0).wf = false ∧ (Instr.mov { op [] with badRow := some (0, 31) } 0 0).wf = true ∧
    (Instr.arm (.ring 7 19)).wf = false ∧ (Instr.arm (.ring 7 18)).wf = true := by decide

/-- The last 256 bytes of a bulk command's run, in flight to another node: four granules, the last one its landing write. -/
def leaving : State :=
  let w (i : Nat) : PWrite := ⟨9, .bulk 7 0, 0, 0x10000000000000 + 7 * Config.stackBytes + 0x1000 + 64 * i, List.replicate 64 (BitVec.ofNat 8 i),
    i == 2, i == 3, [], none, false, none, 64 * i, false, none, false⟩
  { linked 0 with inflight := [w 0, w 1, w 2, w 3, w 5] }

theorem wit_leaving : leaving.inflight.map leaving.discards = List.replicate 5 false ∧
    leaving.inflight.map leaving.landBarred = List.replicate 5 false ∧ leaving.inflight.map leaving.releaseFails = List.replicate 5 false ∧
    (leaving.inflight[0]?).map (fun w => leaving.landReady 0 w true) = some true ∧
    planeOf (localOf (0x10000000000000 + 7 * Config.stackBytes + 0x1000)) = some 7 ∧ leaving.flag 7 ALF_STATUS_UP = true ∧
    (leaving.inflight.map (State.landBarred { leaving with errCmds := [9] })) = [false, false, false, true, false] := by
  decide +kernel

/-- The worked example of the fabric's chapter: 256 bytes leave as one transaction of 17 slots, 272 bytes. -/
theorem test_packet : after (exec (.writeLand 0 .ok) leaving) (fun t => t.fabOut.map (·.len) == [256] && t.fabOut.map (·.kind) == [.landing] &&
    t.counter 3 7 3 == 272 && t.inflight.map (·.tag) == [some 0, some 0, some 0, some 0, none]) = true := by decide +kernel

/-- R349: a flit received badly is asked for again. -/
theorem test_flit_again : ((linked 0).flitRefused 7).out = [.retry 7 (2 ^ 32 - 2)] ∧ ((linked 0).flitRefused 7).counter 3 7 1 = 1 := by decide +kernel

-- what a unit meets on its way

/-- Thread 0 waits for the word at g, which nothing holds. -/
def homing (g : Nat) : State := mm.modThr 0 0 (fun x => { x with loads := [⟨.w, 1, 0x20000040, g, false, false, 0, 0, none, none, 0, []⟩] })

/-- A register of die 7 in the register space. -/
def reg7 : Nat := 0x020000000000 + dkey 7 0x40104

theorem wit_load_home : [0x40, padBase 3 + 16, reg7, 0x00A000000000].map ((homing 0x40).homeOf · 4) = [.hbm 0, .pad 3 16, .reg 7 0x40104, .unmapped] ∧
    [0x40, padBase 3 + 16, reg7, 0x00A000000000].map (homing 0x40).isLocal = List.replicate 4 true ∧
    (homing 0x40).loadHeld 0 0 0 ⟨.w, 1, 0x20000040, 0x40, false, false, 0, 0, none, none, 0, []⟩ = false ∧
    (homing 0x40).padRefuses 3 16 4 false = false ∧ ((homing 0x40).setCfld 3 SP_BMAP_MAP 0).padRefuses 3 16 4 false = true ∧
    ((homing 0x40).readGood 0x40 4).poisoned 0x40 4 = false ∧ (({ homing 0x40 with poison := [1] }).readGood 0x40 4).poisoned 0x40 4 = true ∧
    (((homing reg7).readGood reg7 4).chargeBy 0 reg7 4 false |>.readSpace (.thread 0 0) reg7).2 < 2 ^ 32 := by decide +kernel

theorem test_load_home : after (exec (.loadDataArrival 0 0 0 .ok) ((homing 0x40).setBytes 0x40 [1, 2, 3, 4])) (fun t =>
    (t.thr 0 0).s[1] == 0x04030201 && (t.thr 0 0).loads == []) = true := by decide +kernel

theorem test_load_unmapped : after (exec (.loadDataArrival 0 0 0 .ok) (homing 0x00A000000000)) (fun t =>
    (t.thr 0 0).sv1.cause == 0x0A && (t.thr 0 0).sv1.addr == 0x20000040 && t.flag 0 MSH_EVENT_UNMAPPED) = true := by decide +kernel

theorem wit_load_error : ((homing 0x40).thr 0 0).atBoundary = true ∧ (homing 0x40).halted 0 0 = false ∧ ((homing 0x40).thr 0 0).dbgStop = false ∧
    ((homing 0x40).thr 0 0).late = [] ∧ ((homing 0x40).thr 0 0).level = .l0 ∧ ((homing 0x40).setHalt 0 0 true).halted 0 0 = true := by decide +kernel

/-- An earlier read of the line waits at its home, so that the line may not fill yet (R274). -/
theorem wit_line_held : (missing.modThr 0 1 (fun x => { x with loads := [⟨.w, 1, 0x20000040, 0x40, false, false, 0, 0, none, none, 0, []⟩] })).lineHeld 0
    0x40 = true ∧ missing.lineHeld 0 0x40 = false ∧ run.softStage = 0 := by decide +kernel

/-- The thread multiplies and must stop; or converts tile 1 to tile 3 from row 0. -/
def mstop : State := multiplying.setHalt 0 0 true
def converting : State := loading.modThr 0 0 (fun x => { x with long := x.long.map (fun o => { o with code := 5, d := 3 }) })

theorem wit_mma_stops : mstop.mustStop 0 0 = true ∧ ((multiplying.thr 0 0).long.map (mstop.stepStop 0 0)) = some none ∧
    ((multiplying.thr 0 0).long.map (mstop.groupsOf 0)) = some [(0, 0, 32)] ∧ entered 0 4 (0, 0, 32) = false ∧ entered 0 32 (0, 0, 32) = true ∧
    32 ≤ ((mstop.core 0).tile 1).elems ∧ (converting.thr 0 0).long.map (fun o => (o.code, o.row, o.d)) = some (5, 0, 3) ∧
    ((converting.core 0).tile 3).scl = false := by decide +kernel

/-- A boundary inside the first group leaves the whole of it to be done (R178). -/
theorem test_mma_stop : after (exec (.tileOpStop 0 ⟨0, .ok, 0⟩ 4) mstop) (fun t => (t.thr 0 0).prog == progWord 4 false 0 0 0 &&
    (t.thr 0 0).long == none && (t.thr 0 0).pc == 2) = true := by decide +kernel

/-- Operations of code n stopped at group 3 of k 127, or at row 31. -/
def halfway (n : Nat) : State := tl.modThr 0 0 (fun x => { x with prog := progWord n false 3 127 31 })

theorem wit_resume_more : Lone ((halfway 4).on (op []) (fun y => { y with prog := 0 })) (op []) Accepts.none [] ∧
    Lone ((halfway 5).on (op []) (fun y => { y with prog := 0 })) (op []) acceptsFmt [] ∧ ((halfway 4).thr 0 0).prog = progWord 4 false 3 127 31 ∧
    (halfway 6).accOk 0 0 1 = true ∧ mmaOk (((halfway 6).core 0).tile 1) (((halfway 6).core 0).tile 1) (((halfway 6).core 0).accum 1) = true ∧
    ((halfway 6).core 0).tileBusy ⟨bothSides 1 ++ bothSides 1, [17]⟩ true = false ∧ (((halfway 5).core 0).tile 1).anyPoison 31 = false ∧
    ((((halfway 7).modCore 0 (fun c => { c with acc := c.acc.map (fun a => { a with cfg := 0x80000463 }) })).core 0).accum 1).dirty = false := by
  refine ⟨lone_of ?_, lone_of ?_, ?_⟩ <;> decide +kernel

/-- Channel 1 of core 0 holds four commands, or its command needs a request of counter 6. -/
def crammed : State := descr.modCore 0 (fun c => { c with chans := c.chans.set 1 { Chan.reset with queue := List.replicate 4 (copyCmd 0) } })
def paced (n : Nat) : State :=
  let s := (cues.modCore 0 (fun c => { c with chans := c.chans.set 1 { Chan.reset with run := some (copyCmd 0) } })).setCfld 0 (CDMA_CFG_PACE 1) 1
  (s.setCfld 0 (CDMA_CFG_REQ 1) 62).setCue 0 6 n

theorem wit_dmago_full : Lone crammed (op []) acceptsSync [1] ∧ (crammed.core 0).chans[1].queue.length = 4 ∧
    crammed.checkOwn 0 0 0x7FFC0 0x7FFC0 64 needR ⟨.n, 0⟩ = .ok (.own 0x7FFC0) := by
  refine ⟨lone_of ?_, ?_⟩ <;> decide +kernel

theorem wit_requests : (paced 0).needsReq (.core 0 1) = true ∧ (paced 0).cueMap 0 0 ((paced 0).pace (.core 0 1)).req = some (6, false) ∧
    (paced 0).cueCount 0 6 = 0 ∧ (paced 2).cueCount 0 6 = 2 ∧ moving.needsReq (.core 0 1) = false ∧
    ((paced 0).modThr 0 0 (fun x => { x with wait := some ⟨.cwait 6, 1, none, 0, 3, none⟩ })).waiters 0 6 = [(3, .thread 0)] := by decide +kernel

/-- A channel waits for its counter in its turn, and takes a request that is there (R291, R318). -/
theorem test_request : ((paced 0).wantReq (.core 0 1)).waiters 0 6 = [((paced 0).core 0).waits].map (·, Waiter.chan 1) ∧
    ((paced 2).wantReq (.core 0 1)).cueCount 0 6 = 1 := by decide +kernel

theorem wit_refusals : moving.memoryAt (moving.readAddr (copyCmd 0)) = true ∧ moving.readCrosses (.core 0 1) (moving.readAddr (copyCmd 0)) = true ∧
    moving.chanGated (.core 0 1) = false ∧ ({ moving with execOff := true }).chanGated (.core 0 1) = true ∧
    moving.hostOwed (.core 0 1) = false := by decide +kernel

/-- The software interrupt of thread 0 is enabled and pends at a breakpoint: the debug stop comes first (R333). -/
def broken2 : State := (broken.modCore 0 (fun c => { c with trapCtl := 1 })).setCfld 0 CFG_CORE_SWI_SWI 1

theorem wit_bp_due : broken2.bpDue 0 0 = true ∧ broken2.canEnter 0 0 = true ∧ broken2.delivered 0 0 = false ∧
    ((run.modCore 0 (fun c => { c with trapCtl := 1 })).setCfld 0 CFG_CORE_SWI_SWI 1).bpDue 0 0 = false := by decide +kernel

theorem test_stop_before_interrupt : after (exec (.interruptTake 0 0) broken2) (fun t => (t.thr 0 0).dbgStop && (t.thr 0 0).level == .l0 &&
    t.cfld 0 CFG_CORE_SWI_SWI == 1) = true := by decide +kernel

/-- The message waiting in queue 2 is of core 9; bank 0 is closed to the D port or not. -/
theorem wit_message_meets : writing.padRefuses 0 (writing.qUnitOff 0 2 1) 64 true = false ∧
    (writing.setCfld 0 SP_BMAP_MAP 0x55555555).padRefuses 0 (writing.qUnitOff 0 2 1) 64 true = true := by decide +kernel

theorem test_message_parity : after (exec (.queueMessageCommit 0 ⟨2, .parity⟩) (writing.modCore 0 (fun c =>
    { c with qWriting := c.qWriting.set 2 [⟨1, [3], 9, 1, 0, 0, 2, 1, []⟩] }))) (fun t => t.poison.length == 1 && ((t.core 0).qReady[2]).length == 1) = true := by
  decide +kernel

/-- Item 0x220 is p0: all ones, never written (R344). -/
theorem test_debug_p0 : after (exec (.debugRegAccess .debug 0 none) (stopped2.setCfld 0 CFG_CORE_DBG_SEL_ITEM 0x220)) (fun t =>
    t.rdData == leBytes 4 0xFFFFFFFF) = true := by decide +kernel

theorem wit_pulses : Pulse.qualifies ⟨5, 0, 200⟩ true = true ∧ Pulse.qualifies ⟨5, 199, 200⟩ false = false ∧ Pulse.qualifies ⟨5, 200, 199⟩ false = false ∧
    pinned.pins.curArmed = true ∧ pinned.pins.ppsArmed = true ∧ ({ pinned with pins := { pinned.pins with tap := .extest } }).pinsTaken = true := by
  decide +kernel

/-- A pulse of 199 ns is no edge (R445). -/
theorem test_short_pulse : after (exec (.curtainInEdge ⟨400200, 200, 199⟩) pinned) (fun t => t.frame == 0 && t.pins.curArmed) = true := by decide +kernel

/-- Act 4095 charges cyc cycles a step and has no batch open on die 7, whose cast is core 1372; the share of class 0 is all of it. -/
def weighing (cyc : Nat) : State :=
  let s := ({ boxed with actA := [(4095, BitVec.ofNat 1024 (act4095 + cyc * 2 ^ (8 * 0x0C)))], asnA := [(1372, 1)] }).setCfld 1372 CFG_CORE_CTRL_SAFE 0
  s.setFld 7 (BOX_CLASS_SHARE_SHARE 0) 255

/-- A batch of the act is open on it. -/
def opened : Slice := { slice7 with batches := [⟨4095, 1372, [5], 3⟩] }

/-- The span bit of an act, and what a slice has left of its count. -/
def spanning (n : Nat) : State × Slice := ({ weighing 0 with actA := [(4095, BitVec.ofNat 1024 (act4095 + 2 ^ 16))] }, { opened with left := [(4095, n)] })

theorem wit_weighed : (weighing 1).ent 0x3FFFF eLife = 1 ∧ (weighing 1).doomed.contains 0x3FFFF = false ∧
    (weighing 1).actOfStream 0x3FFFF = 4095 ∧ actV ((weighing 1).act 4095) = true ∧
    bitOf (actCtxMask ((weighing 1).act 4095)) ((weighing 1).ent 0x3FFFF eCtx) = true ∧ actSpan ((weighing 1).act 4095) = false ∧
    (weighing 1).slotUnits 0x3FFFF ((weighing 1).act 4095) ≤ actStgSize ((weighing 1).act 4095) ∧ (weighing 1).members 7 4095 0 = [1372] ∧
    actV (({ weighing 1 with actA := [] }).act 4095) = false ∧ boxed.members 7 4095 0 = [] ∧ (weighing 1).reqClass (asked 0x3FFFF 1) = 3 ∧
    actSpan ((spanning 1).1.act 4095) = true ∧ get 0 (spanning 0).2.left 4095 = 0 := by decide +kernel

/-- Placed in a new batch; refused where the charges pass the class's share, or the cycles; a spanning act has its count used up (R52). -/
theorem test_weighed :
    let s := (weighing 1).setFld 7 (BOX_CLASS_SHARE_SHARE 3) 255
    (s.test slice7 false 400000 0 0 (asked 0x3FFFF 1)).2 = .placed 1372 ∧
    ((weighing 1).setFld 7 (BOX_CLASS_SHARE_SHARE 3) 0 |>.test slice7 false 400000 0 0 (asked 0x3FFFF 1)).2 = .refused 0xB ∧
    ((spanning 0).1.test (spanning 0).2 false 400000 0 0 (asked 0x3FFFF 1)).2 = .refused 0x5 := by decide +kernel

/-- Port 7's act on another die's stack, and on its own. -/
theorem wit_across : ringAcross 7 0x3000 = true ∧ ringAcross 7 (7 * Config.stackBytes) = false ∧ (placed0.tick 5).workShut = false ∧
    (placed0.tick 5).rehStopped 0 = false ∧ ({ placed0 with resetting := .soft }.tick 5).workShut = true ∧
    ((placed0.modCore 0 (fun c => { c with batch := some running0 })).setRg64 (dkey 0 MGT_REH_LO_CTX.off) (2 ^ 63) |>.modThr 0 1 (fun x =>
      { x with ctx := 63, dbgStop := true })).rehStopped 0 = true := by decide +kernel

/-- What crosses the mesh unanswered ends the step (R254). -/
theorem test_strike_lost : after (exec (.strike 0 0 ⟨5, .busError⟩) (ended0 0)) (fun t => t.ent 0x3FFFF eSusp == 4 && t.flag 7 MSH_EVENT_TIMEOUT) = true := by
  decide +kernel

/-- Configuration space is read before anything else (R389, R392, R394): BAR2 is sized to 1 GiB and the function masked. -/
theorem test_config : hosted.hostOn 7 4 = true ∧
    after (exec (.hostWrite 7 4 [0, 10, 0, 0] ⟨false, .ok⟩) hosted) (fun t => t.bar2Size == 2 ^ 30) = true ∧
    after (exec (.hostWrite 7 8 [0, 0x40, 0, 0] ⟨false, .ok⟩) hosted) (fun t => t.pcie.fmask) = true := by decide +kernel

/-- The heartbeat has not come for 10 ms of uptime (R406). -/
theorem wit_beats : ported.beatAt + 10000000 ≤ ({ ported with upTime := 10000000 }).upTime ∧ ported.upTime < ported.beatAt + 10000000 ∧
    (ported.port 0).dynAddr = none ∧ (ported.port 1).dynAddr ≠ none ∧ ported.pinsTaken = false := by decide +kernel

/-- The bus owner names the static address of port 1 (R407). -/
theorem test_dasa : after (exec (.setdasa 1 ⟨0x20, 0x33⟩) ported) (fun t => (t.port 1).dynAddr == some 0x33) = true ∧
    after (exec (.setdasa 1 ⟨0x10, 0x33⟩) ported) (fun t => (t.port 1).dynAddr == some 9) = true := by decide +kernel

/-- EXTEST drives the pins from the cells and keeps ALERT_N high (R341). -/
theorem test_extest : after (exec (.extest ⟨.extest, 0x3FFFF⟩) ported) (fun t => t.pins.cells == 0x3FFFF &&
    !t.pins.alert && !t.portUp 1) = true := by decide +kernel

/-- The example digest of FIPS 180-4: one block, "abc". -/
theorem test_sha256 : sha256 [0x61, 0x62, 0x63] = 0xba7816bf8f01cfea414140de5dae2223b00361a396177a9cb410ff61f20015ad := by decide +kernel

/-- A soft reset begun at 0 (R436): channels are dropped after 20 µs and the execution domain reset after 30. -/
def softened : State := ({ moving with resetting := .soft, softOwed := true, softStage := 2 }).setBytes (padBase 0) [7]

theorem wit_softened : softened.now < 19999 ∧ softened.softStage = 2 ∧ softened.resetAt = 0 ∧ inPads (padBase 0) = true ∧ (softened.tick 19999).softStage = 2 := by
  decide +kernel

theorem test_soft_stages : ((softened.tick 20000).chan (.core 0 1)).run = none ∧ (softened.tick 20000).byte (padBase 0) = 7 ∧
    (softened.tick 30000).byte (padBase 0) = 0 ∧ (softened.tick 30000).execOff = true := by decide +kernel

theorem wit_d3 : ({ live with d3Pend := 1 }).d3Pend = 1 ∧ ({ live with d3Pend := 2 }).d3Pend = 2 ∧ ({ live with clkGated := true }).clkGated = true ∧
    (powered true 0 .none).pcie.d3 = true ∧ ({ live with resetting := .stopped, pins := { live.pins with rose := true } }).pins.rose = true ∧
    live.pins.rose = false := by decide +kernel

/-- A time mark of a request kept under tag 78 has not run out 0 µs after it left, and has after 1 (R359). -/
theorem test_fabric_time : ((abroad.setFld 7 ALF_TIMEOUT_US 0).tick 999).now < 0 + max 1 (abroad.setFld 7 ALF_TIMEOUT_US 0 |>.fld 7 ALF_TIMEOUT_US) * 1000 ∧
    after (exec (.fabricTimeout ⟨78, 1000⟩) (abroad.setFld 7 ALF_TIMEOUT_US 0 |>.setLink 7 PortLink.reset)) (fun t => t.fabOut.map (·.tag) == [77]) = true := by
  decide +kernel

/-- Port 7 holds no slot credits: the request waits there (R350). -/
theorem test_credits : ((abroad.setLink 7 PortLink.reset).fabSendMsg .write none (0x10000000000000 + 7 * Config.stackBytes) (ask .read 0x40 8 [])).1.out = [] ∧
    (((abroad.setLink 7 PortLink.reset).fabSendMsg .write none (0x10000000000000 + 7 * Config.stackBytes) (ask .read 0x40 8 [])).1.link 7).reqQ.length = 1 ∧
    planeOf (localOf (0x10000000000000 + 7 * Config.stackBytes)) = some 7 := by decide +kernel

end Sys2Proof.Tests
end

section
/-! What a command's outcome yields, and what is read of the registers, the cores and memory alone. -/

namespace Sys2Proof.Machine

/-- A command that ends in a state yields what holds of that state once its pins follow it. -/
theorem yields_done {s : State} {p : State → Prop} (h : p s.settle) : Yields (done s) p := ⟨_, rfl, h⟩

-- what is read of the registers, the cores and memory alone

/-- A register is read from the table of registers. -/
theorem State.rg_of_regs {s t : State} (h : t.regs = s.regs) (k : Nat) : t.rg k = s.rg k := by rw [State.rg, State.rg, h]

theorem State.fldAt_of_regs {s t : State} (h : t.regs = s.regs) (k : Nat) (f : RF) : t.fldAt k f = s.fldAt k f := by
  rw [State.fldAt, State.fldAt, State.rg_of_regs h]

theorem State.fld_of_regs {s t : State} (h : t.regs = s.regs) (d : Nat) (f : RF) : t.fld d f = s.fld d f :=
  State.fldAt_of_regs h _ f

theorem State.flag_of_regs {s t : State} (h : t.regs = s.regs) (d : Nat) (f : RF) : t.flag d f = s.flag d f := by
  rw [State.flag, State.flag, State.fld_of_regs h]

theorem State.cfld_of_regs {s t : State} (h : t.regs = s.regs) (site : Nat) (f : RF) : t.cfld site f = s.cfld site f :=
  State.fldAt_of_regs h _ f

theorem State.cflag_of_regs {s t : State} (h : t.regs = s.regs) (site : Nat) (f : RF) : t.cflag site f = s.cflag site f := by
  rw [State.cflag, State.cflag, State.cfld_of_regs h]

theorem State.halted_of_regs {s t : State} (h : t.regs = s.regs) (site : Nat) (u : Fin 4) : t.halted site u = s.halted site u := by
  rw [State.halted, State.halted, State.cfld_of_regs h]

theorem State.core_of_cores {s t : State} (h : t.cores = s.cores) (site : Nat) : t.core site = s.core site := by
  rw [State.core, State.core, h]

theorem State.thr_of_cores {s t : State} (h : t.cores = s.cores) (site : Nat) (u : Fin 4) : t.thr site u = s.thr site u := by
  rw [State.thr, State.thr, State.core_of_cores h]

theorem State.byte_of_mem {s t : State} (h : t.mem = s.mem) (a : Nat) : t.byte a = s.byte a := by rw [State.byte, State.byte, h]

theorem memSame_of_mem {s t : State} (h : t.mem = s.mem) : MemSame s t := State.byte_of_mem h

@[simp] theorem State.settle_rg (s : State) (k : Nat) : s.settle.rg k = s.rg k := State.rg_of_regs s.settle_regs k
@[simp] theorem State.settle_fld (s : State) (d : Nat) (f : RF) : s.settle.fld d f = s.fld d f := State.fld_of_regs s.settle_regs d f
@[simp] theorem State.settle_flag (s : State) (d : Nat) (f : RF) : s.settle.flag d f = s.flag d f :=
  State.flag_of_regs s.settle_regs d f
@[simp] theorem State.settle_cfld (s : State) (site : Nat) (f : RF) : s.settle.cfld site f = s.cfld site f :=
  State.cfld_of_regs s.settle_regs site f
@[simp] theorem State.settle_cflag (s : State) (site : Nat) (f : RF) : s.settle.cflag site f = s.cflag site f :=
  State.cflag_of_regs s.settle_regs site f
@[simp] theorem State.settle_halted (s : State) (site : Nat) (t : Fin 4) : s.settle.halted site t = s.halted site t :=
  State.halted_of_regs s.settle_regs site t
@[simp] theorem State.settle_core (s : State) (site : Nat) : s.settle.core site = s.core site := State.core_of_cores s.settle_cores site
@[simp] theorem State.settle_thr (s : State) (site : Nat) (t : Fin 4) : s.settle.thr site t = s.thr site t :=
  State.thr_of_cores s.settle_cores site t
@[simp] theorem State.settle_byte (s : State) (a : Nat) : s.settle.byte a = s.byte a := State.byte_of_mem s.settle_mem a

theorem bitOf_eq_testBit (n i : Nat) : bitOf n i = n.testBit i := by
  rw [bitOf, Nat.testBit_eq_decide_div_mod_eq, Nat.shiftRight_eq_div_pow]; rfl

/-- Bit j of a number whose bit i was replaced. -/
theorem bitOf_setBits_one (n i j v : Nat) : bitOf (setBits n i 1 v) j = if j = i then v.testBit 0 else bitOf n j := by
  rw [bitOf_eq_testBit, bitOf_eq_testBit, testBit_setBits]
  by_cases h : j = i
  · subst h; simp
  · rw [if_neg (by omega), if_neg h]

theorem bitOf_mod (n i k : Nat) (h : i < k) : bitOf (n % 2 ^ k) i = bitOf n i := by
  rw [bitOf_eq_testBit, bitOf_eq_testBit, Nat.testBit_mod_two_pow]; simp [h]

theorem b2n_testBit (b : Bool) : (b2n b).testBit 0 = b := by cases b <;> rfl

-- fields of a core's control block

/-- A one-bit field of a control block set reads 1. -/
theorem State.cflag_setCfld (s : State) (site : Nat) (f : RF) (v : Bool) (h : f.ok) (hw : f.hi = f.lo) :
    (s.setCfld site f (b2n v)).cflag site f = v := by
  rw [State.cflag, State.cfld_setCfld s site f _ h, hw]; cases v <;> simp [b2n]

/-- A HALT bit set or cleared reads back, and the others as before (R107). -/
theorem State.halted_setHalt (s : State) (site : Nat) (t u : Fin 4) (v : Bool) :
    (s.setHalt site t v).halted site u = if u = t then v else s.halted site u := by
  have hu : u.val < 4 := u.isLt
  simp only [State.halted, State.setHalt]
  rw [State.cfld_setCfld s site _ _ ⟨by decide, by decide⟩, bitOf_mod _ u.val (CFG_CORE_CTRL_HALT.hi - CFG_CORE_CTRL_HALT.lo + 1) hu,
    bitOf_setBits_one, b2n_testBit]
  simp only [Fin.ext_iff]

-- the control blocks do not hold the threads, nor the threads the control blocks

@[simp] theorem State.core_setCfld (s : State) (k site : Nat) (f : RF) (v : Nat) : (s.setCfld k f v).core site = s.core site :=
  State.core_of_cores (State.setCfld_cores s k f v) site
@[simp] theorem State.thr_setCfld (s : State) (k site : Nat) (f : RF) (v : Nat) (u : Fin 4) :
    (s.setCfld k f v).thr site u = s.thr site u := State.thr_of_cores (State.setCfld_cores s k f v) site u
@[simp] theorem State.core_setHalt (s : State) (k site : Nat) (t : Fin 4) (v : Bool) : (s.setHalt k t v).core site = s.core site :=
  State.core_setCfld s k site _ _
@[simp] theorem State.thr_setHalt (s : State) (k site : Nat) (t u : Fin 4) (v : Bool) : (s.setHalt k t v).thr site u = s.thr site u :=
  State.thr_setCfld s k site _ _ u
@[simp] theorem State.halted_modThr (s : State) (k site : Nat) (t u : Fin 4) (f : Thread → Thread) :
    (s.modThr k t f).halted site u = s.halted site u := State.halted_of_regs (State.modThr_regs s k t f) site u
@[simp] theorem State.halted_modCore (s : State) (k site : Nat) (u : Fin 4) (f : Core → Core) :
    (s.modCore k f).halted site u = s.halted site u := State.halted_of_regs (State.modCore_regs s k f) site u

/-- Light operations touch no core. -/
theorem Light.cores {s t : State} (h : Light s t) : t.cores = s.cores := h.same State.cores (fun _ _ _ _ => rfl)

/-- Light operations touch no memory. -/
theorem Light.memSame {s t : State} (h : Light s t) : MemSame s t :=
  fun a => h.same (fun u => u.byte a) (fun _ _ _ _ => rfl)

-- refusals

/-- A register replaced: all else is as it was, the pins following the log. -/
theorem State.setRg_but_regs (s : State) (k v : Nat) : { (s.setRg k v).settle with regs := s.regs } = s.settle := rfl

theorem State.setFldAt_but_regs (s : State) (k : Nat) (f : RF) (v : Nat) :
    { (s.setFldAt k f v).settle with regs := s.regs } = s.settle := s.setRg_but_regs k _

/-- A field set changes its register alone. -/
theorem State.setFld_regOnly (s : State) (d : Nat) (f : RF) (v : Nat) : RegOnly s (s.setFld d f v).settle d f.off := by
  refine ⟨s.setFldAt_but_regs _ f v, fun k hk => ?_⟩
  rw [State.settle_rg]
  exact State.rg_setRg_ne s hk _

/-- The access violation sets its source's pending bit and nothing else (R12, R335). -/
theorem State.violation_sets (s : State) (d : Nat) : RegOnly s (s.violation d).settle d (EVG_SRC_PEND 647).off ∧
    (s.violation d).settle.fld d (EVG_SRC_PEND 647) = 1 := by
  have h : s.violation d = s.setFld d (EVG_SRC_PEND 647) 1 := s.raise_pend d 647 (by decide)
  rw [h, State.settle_fld]
  exact ⟨s.setFld_regOnly d _ 1, State.fld_setFld s d _ 1 ⟨by decide, by decide⟩⟩

end Sys2Proof.Machine
end

section
/-! What reset leaves (R8, R9, R433). -/

namespace Sys2Proof.Machine

/-- A core control block stands in the part of its die's block that core registers alone fill (R109, R263). -/
theorem regRow_siteOff (d site off : Nat) (hoff : off < 0x10000) :
    regRow d (siteOff site off) = coreRegs.find? (fun r => r.covers off) := by
  have hk : site % 196 < 196 := Nat.mod_lt _ (by decide)
  have hlo : siteOff site off % 0x10000 = off := by simp only [siteOff, Config.sitesPerDie]; omega
  rw [regRow, hlo, if_pos (by simp only [siteOff]; omega), if_pos (by simp only [siteOff, Config.sitesPerDie]; omega)]

/-- The die of a core register's key and its offset in that die's block. -/
theorem ckey_split (site off : Nat) (hoff : off < 0x10000) : ckey site off / 0x4000000 = site / Config.sitesPerDie ∧
    ckey site off % 0x4000000 = siteOff site off := by
  have hk : site % 196 < 196 := Nat.mod_lt _ (by decide)
  constructor <;> simp only [ckey, dkey, siteOff, Config.sitesPerDie] <;> omega

/-- A register of a core control block that nothing has written holds the reset value of its row. -/
theorem rstOf_ckey (site off : Nat) (hoff : off < 0x10000) {row : RegRow} (h : coreRegs.find? (fun r => r.covers off) = some row) :
    rstOf (ckey site off) = row.rst := by
  rw [rstOf, (ckey_split site off hoff).1, (ckey_split site off hoff).2, regRow_siteOff _ site off hoff, h]

@[simp] theorem State.core_reset (site : Nat) : State.reset.core site = Core.reset := rfl

theorem State.rg_reset (k : Nat) : State.reset.rg k = (rstOf k).toNat := rfl

/-- Every thread is halted at reset (R107). -/
theorem State.halted_reset (site : Nat) (t : Fin 4) : State.reset.halted site t = true := by
  have hrst : rstOf (ckey site CFG_CORE_CTRL_HALT.off) = 0x100F := by
    rw [rstOf_ckey site _ (by decide) rfl]; decide
  rw [State.halted, State.cfld, State.fldAt, State.rg_reset, hrst]
  revert t; decide

theorem State.thr_reset (site : Nat) (t : Fin 4) : State.reset.thr site t = Thread.reset := by
  simp [State.thr, Core.reset]

/-- No bank register is valid at reset (R102). -/
theorem Thread.reset_banks (b : Fin 8) : Thread.reset.bk[b] &&& 1#64 = 0#64 := by
  simp [Thread.reset]

theorem Thread.reset_seeds (i : Fin 64) : Thread.reset.seeds[i] = seedOf i.val := by
  simp [Thread.reset]

theorem Core.reset_tiles (n : Fin 8) : Core.reset.tiles[n] = Tile.reset := by simp [Core.reset]

theorem Core.reset_acc (n : Fin 2) : Core.reset.acc[n] = Acc32.reset := by simp [Core.reset]

theorem State.link_reset (d : Nat) (h : d < 8) : State.reset.link d = PortLink.reset := by
  interval_cases d <;> rfl

/-- The registers that reset leaves in die 0's units (R9, R433). -/
theorem State.reset_fields : State.reset.fld 0 CUR_PERIOD_PERIOD = 400000 ∧ State.reset.flag 0 CUR_STATUS_RUN = false ∧
    State.reset.flag 0 PWR_STATUS_READY = false ∧ State.reset.flag 0 MGT_STATUS_FW_OK = false ∧
    State.reset.flag 0 CFG_SS_STATUS_PEND = false := by
  simp only [State.flag, State.fld, State.fldAt, State.rg_reset]
  decide

/-- Settles O59: each part is the reset value of its field, and the registers' are those of their rows. -/
theorem resetLeaves : Obligations.ResetLeaves := by
  unfold Obligations.ResetLeaves
  obtain ⟨hper, hrun, hready, hfw, hpend⟩ := State.reset_fields
  refine ⟨rfl, State.reset_wf, rfl, fun _ => rfl, rfl, ?threads, ?tiles, ?accs, hper, hrun, hready, hfw, hpend, rfl, rfl, rfl,
    State.link_reset⟩
  case threads =>
    intro site x _
    dsimp only
    rw [State.thr_reset]
    exact ⟨State.halted_reset site x, rfl, rfl, rfl, rfl, rfl, rfl, rfl, Thread.reset_seeds, Thread.reset_banks⟩
  case tiles => exact fun _ n => ⟨Core.reset_tiles n, rfl, rfl⟩
  case accs => exact fun _ n => ⟨Core.reset_acc n, rfl, rfl⟩

end Sys2Proof.Machine
end

section
/-! What a write to a core's control registers does (R12, R105, R107, R108, R290, R334). -/

namespace Sys2Proof.Machine

-- who may write E fields (R12)

theorem State.asExpert_expert (s : State) (r : Requester) (d : Nat) (m : Bool) (f : State → State) (h : s.expert r = true) :
    s.asExpert r d m f = f s := by simp [State.asExpert, h]

theorem State.asExpert_moves (s : State) (r : Requester) (d : Nat) (f : State → State) (h : s.expert r = false) :
    s.asExpert r d true f = s.violation d := by simp [State.asExpert, h]

theorem State.asExpert_idle (s : State) (r : Requester) (d : Nat) (f : State → State) (h : s.expert r = false) :
    s.asExpert r d false f = s := by simp [State.asExpert, h]

/-- Each request on a core's control fields is one write of an E field, which says whether it would change anything. -/
theorem exec_coreControl (s : State) (r : Requester) (site : Nat) (th : Fin 4) (v : Bool) (ctx : Nat) (n : Fin 64) (w : Word)
    (c : Instr) (moves : Bool) (h : (c, moves) ∈ [(Instr.threadStart r site th, true), (.threadHalt r site th, !s.halted site th),
      (.threadResume r site th, s.halted site th), (.safeWrite r site v, s.safe site != v),
      (.ctxChange r site th ctx, ctx % 64 != (s.thr site th).ctx), (.cueCountWrite r site n w, s.cueCount site n.val != w.toNat % 65536),
      (.cacheEnable r site, !s.cflag site DC_CTL_EN)]) :
    ∃ f : State → State, exec c s = done (s.asExpert r (dieOf site) moves f) := by
  simp only [List.mem_cons, List.not_mem_nil, or_false, Prod.mk.injEq] at h
  obtain ⟨rfl, rfl⟩ | ⟨rfl, rfl⟩ | ⟨rfl, rfl⟩ | ⟨rfl, rfl⟩ | ⟨rfl, rfl⟩ | ⟨rfl, rfl⟩ | ⟨rfl, rfl⟩ := h <;> exact ⟨_, rfl⟩

/-- A requester without expert access changes nothing, and is a violation where it would have (R12). -/
theorem coreControl_inexpert {s : State} {r : Requester} {c : Instr} {site : Nat} {moves : Bool} (hr : s.expert r = false)
    (hc : ∃ f : State → State, exec c s = done (s.asExpert r (dieOf site) moves f)) :
    (moves = true → Yields (exec c s) (fun t => RegOnly s t (dieOf site) (EVG_SRC_PEND 647).off ∧
      t.fld (dieOf site) (EVG_SRC_PEND 647) = 1)) ∧
    (moves = false → exec c s = .next s.settle) := by
  obtain ⟨f, hf⟩ := hc
  constructor
  · rintro rfl
    rw [hf, State.asExpert_moves s r _ f hr]
    exact yields_done (s.violation_sets _)
  · rintro rfl
    rw [hf, State.asExpert_idle s r _ f hr]; rfl

/-- An expert's command is the operation itself. -/
theorem done_asExpert {s : State} {r : Requester} (hr : s.expert r = true) (d : Nat) (m : Bool) (f : State → State) {p : State → Prop}
    (h : p (f s).settle) : Yields (done (s.asExpert r d m f)) p := by
  rw [State.asExpert_expert s r d m f hr]; exact yields_done h

-- errors

/-- An error flag of CFG_CORE_STATUS set: no core and no byte of memory changes. -/
theorem State.statusErr_sets (s : State) (site : Nat) (f : RF) (h : f.ok) (hw : f.hi = f.lo) :
    (s.setCfld site f 1).settle.cores = s.cores ∧ MemSame s (s.setCfld site f 1).settle ∧
      (s.setCfld site f 1).settle.cflag site f = true := by
  refine ⟨by rw [State.settle_cores, State.setCfld_cores], memSame_of_mem (by rw [State.settle_mem, State.setCfld_mem]), ?_⟩
  rw [State.settle_cflag]
  exact s.cflag_setCfld site f true h hw

theorem State.ctrlErr_sets (s : State) (site : Nat) : (s.ctrlErr site).settle.cores = s.cores ∧ MemSame s (s.ctrlErr site).settle ∧
    (s.ctrlErr site).settle.cflag site CFG_CORE_STATUS_CTRL_ERR = true :=
  s.statusErr_sets site _ ⟨by decide, by decide⟩ rfl

theorem State.ctxErr_sets (s : State) (site : Nat) : (s.ctxErr site).settle.cores = s.cores ∧ MemSame s (s.ctxErr site).settle ∧
    (s.ctxErr site).settle.cflag site CFG_CORE_STATUS_CTX_ERR = true :=
  s.statusErr_sets site _ ⟨by decide, by decide⟩ rfl

-- the operations in their cases

theorem State.startThread_starts (s : State) (site : Nat) (t : Fin 4) (h : s.halted site t = true) (hc : s.copying site = false) :
    s.startThread site t true = (s.startAt site t).setHalt site t false := by simp [State.startThread, h, hc]

theorem State.startThread_errs (s : State) (site : Nat) (t : Fin 4) (h : s.halted site t = false ∨ s.copying site = true) :
    s.startThread site t true = s.ctrlErr site := by
  obtain h | h := h <;> simp [State.startThread, h]

/-- The thread that starts (R107, R326). -/
theorem State.thr_startAt (s : State) (site : Nat) (t : Fin 4) :
    (s.startAt site t).thr site t = (s.thr site t).start (BitVec.ofNat 16 (s.entryPc site t)) := by
  simp [State.startAt, State.thr]

theorem State.thr_startAt_other (s : State) (site : Nat) {t u : Fin 4} (h : u ≠ t) : (s.startAt site t).thr site u = s.thr site u := by
  have h' := State.thr_modThr_other s site h (fun x => x.start (BitVec.ofNat 16 (s.entryPc site t)))
  simpa [State.startAt, State.thr] using h'

/-- A start takes the thread off those waiting for thread 0. -/
theorem State.trapPend_startAt (s : State) (site : Nat) (t : Fin 4) :
    bitOf ((s.startAt site t).core site).trapPend.toNat t.val = false := by
  have ht : t.val < 32 := by omega
  simp only [State.startAt, State.core_modCore, BitVec.toNat_ofNat]
  rw [bitOf_mod _ _ _ ht, bitOf_setBits_one, if_pos rfl]; rfl

theorem State.startAt_mem (s : State) (site : Nat) (t : Fin 4) : (s.startAt site t).mem = s.mem := by
  rw [State.startAt, State.modCore_mem, State.modThr_mem]

theorem State.halted_startAt (s : State) (site : Nat) (t u : Fin 4) : (s.startAt site t).halted site u = s.halted site u := by
  rw [State.startAt, State.halted_modCore, State.halted_modThr]

/-- A thread that waits for nothing stops at its boundary (R107). -/
theorem State.haltThread_stops (s : State) (site : Nat) (t : Fin 4) (h : s.halted site t = false) (hw : (s.thr site t).wait = none) :
    s.haltThread site t = (s.modThr site t (fun x => { x with bun := none, wait := none })).setHalt site t true := by
  simp [State.haltThread, State.abandon, h, hw]

theorem State.resumeThread_runs (s : State) (site : Nat) (t : Fin 4) (h : s.halted site t = true)
    (hl : t = 0 ∨ (s.thr site t).level ≠ .l1) : s.resumeThread site t = s.setHalt site t false := by
  have : ¬ (t ≠ 0 ∧ (s.thr site t).level = .l1) := by tauto
  simp [State.resumeThread, h, this]

theorem State.resumeThread_errs (s : State) (site : Nat) (t : Fin 4) (h : s.halted site t = true) (ht : t ≠ 0)
    (hl : (s.thr site t).level = .l1) : s.resumeThread site t = s.ctrlErr site := by
  simp [State.resumeThread, h, ht, hl]

theorem mem_threads (u : Fin 4) : u ∈ threads := by revert u; decide

theorem State.setSafe_quarantined (s : State) (site : Nat) (h : s.safe site ≠ false) (hq : s.isQuar site = true) :
    s.setSafe site false = s.ctrlErr site := by simp [State.setSafe, h, hq]

/-- The end of safe mode is open to a core that is not quarantined (R108). -/
theorem State.setSafe_changes (s : State) (site : Nat) (v : Bool) (h : s.safe site ≠ v) (hq : s.isQuar site = false ∨ v = true)
    (hall : ∀ u : Fin 4, s.halted site u = true ∧ (s.thr site u).long = none) :
    s.setSafe site v = (s.setCfld site CFG_CORE_CTRL_SAFE (b2n v)).modCore site (fun c =>
      { c with tiles := Vector.replicate 8 Tile.reset, acc := Vector.replicate 2 Acc32.reset }) := by
  have hq' : (s.isQuar site && !v) = false := by obtain hq | hq := hq <;> simp [hq]
  have hall' : threads.all (fun t => s.halted site t && (s.thr site t).long.isNone) = true := by
    simp [List.all_eq_true, hall]
  simp only [State.setSafe, if_neg h, hq', hall', Bool.false_eq_true, if_false, if_true]

theorem State.setSafe_running (s : State) (site : Nat) (v : Bool) (h : s.safe site ≠ v) (hq : s.isQuar site = false ∨ v = true)
    (hrun : ∃ u : Fin 4, s.halted site u = false) : s.setSafe site v = s.ctrlErr site := by
  have hq' : (s.isQuar site && !v) = false := by obtain hq | hq := hq <;> simp [hq]
  obtain ⟨u, hu⟩ := hrun
  have hall' : threads.all (fun t => s.halted site t && (s.thr site t).long.isNone) = false :=
    List.all_eq_false.2 ⟨u, mem_threads u, by simp [hu]⟩
  simp only [State.setSafe, if_neg h, hq', hall', Bool.false_eq_true, if_false]

theorem State.raiseSwi_enabled (s : State) (site : Nat) (t : Fin 4) (h : bitOf (s.core site).trapCtl.toNat t.val = true) :
    s.raiseSwi site t = (s.setCfld site CFG_CORE_SWI_SWI (setBits (s.cfld site CFG_CORE_SWI_SWI) t.val 1 1)).modThr site t
      (fun x => x.pendSet 3) := by simp only [State.raiseSwi, h, if_true]

theorem State.raiseSwi_disabled (s : State) (site : Nat) (t : Fin 4) (h : bitOf (s.core site).trapCtl.toNat t.val = false) :
    s.raiseSwi site t = s.modThr site t (fun x => x.pendSet 3) := by simp only [State.raiseSwi, h, Bool.false_eq_true, if_false]

/-- A software interrupt's bit reads back (R334). -/
theorem State.swi_setCfld (s : State) (site : Nat) (t : Fin 4) (n : Nat) :
    bitOf ((s.setCfld site CFG_CORE_SWI_SWI (setBits n t.val 1 1)).cfld site CFG_CORE_SWI_SWI) t.val = true := by
  rw [State.cfld_setCfld _ _ _ _ ⟨by decide, by decide⟩, bitOf_mod _ t.val (CFG_CORE_SWI_SWI.hi - CFG_CORE_SWI_SWI.lo + 1) t.isLt,
    bitOf_setBits_one, if_pos rfl]
  rfl

/-- What a change of context leaves of the thread (R105). -/
theorem State.thr_setCtx (s : State) (site : Nat) (t : Fin 4) (ctx : Nat) : (s.setCtx site t ctx).thr site t =
    { s.thr site t with
      ctx := ctx % 64
      bk := (s.thr site t).bk.map (fun b => b &&& ~~~1#64)
      cueArm := BitVec.ofNat 32 (setBits (s.thr site t).cueArm.toNat 31 1 0)
      armed := none
      staging := [] } := by
  rw [State.setCtx, State.thr_setCfld, State.thr_modThr]

theorem State.setCtx_mem (s : State) (site : Nat) (t : Fin 4) (ctx : Nat) : (s.setCtx site t ctx).mem = s.mem := by
  rw [State.setCtx, State.setCfld_mem, State.modThr_mem]

/-- A bank register made invalid (R102). -/
theorem bitOf_invalid (b : BitVec 64) : bitOf (b &&& ~~~1#64).toNat 0 = false := by
  rw [bitOf_eq_testBit, ← BitVec.getLsbD, BitVec.getLsbD_and, BitVec.getLsbD_not]; simp

/-- With no thread asleep on a counter and no channel wanting it, nothing waits for it. -/
theorem State.waiters_none (s : State) (site c : Nat) (hw : ∀ (u : Fin 4) (y : Wait), (s.thr site u).wait = some y → y.kind ≠ .cwait c)
    (hc : ∀ (j : Fin 2) (o : Nat), ((s.core site).chans[j]).want ≠ some (c, o)) : s.waiters site c = [] := by
  rw [State.waiters, List.append_eq_nil_iff, List.filterMap_eq_nil_iff, List.filterMap_eq_nil_iff]
  constructor
  · intro u _
    split
    next y hy => rw [if_neg (hw u y hy)]
    next => rfl
  · intro j _
    split
    next k o hk =>
      rw [if_neg]
      rintro ⟨rfl, -⟩
      exact hc j o hk
    next => rfl

theorem State.serveWaits_none (s : State) (site c n : Nat) (h : s.waiters site c = []) : s.serveWaits site c n = s := by
  cases n with
  | zero => rfl
  | succ n => rw [State.serveWaits, h]

/-- A count that nothing waits for is written, and nothing else but the observed sets of its signals (R290). -/
theorem State.cueWrite_plain (s : State) (site c v : Nat)
    (hw : ∀ (u : Fin 4) (y : Wait), (s.thr site u).wait = some y → y.kind ≠ .cwait c)
    (hc : ∀ (j : Fin 2) (o : Nat), ((s.core site).chans[j]).want ≠ some (c, o)) :
    s.cueWrite site c v = (s.setCue site c v).modCore site (fun k =>
      { k with cueObs := put [] k.cueObs c ((get [] k.cueObs c).take (v % 65536)) }) := by
  have hthr (u : Fin 4) : ((s.setCue site c v).modCore site (fun k =>
      { k with cueObs := put [] k.cueObs c ((get [] k.cueObs c).take (v % 65536)) })).thr site u = s.thr site u := by
    simp [State.thr, State.setCue]
  rw [State.cueWrite]
  refine State.serveWaits_none _ _ _ _ (State.waiters_none _ _ _ ?_ ?_)
  · intro u y hy
    rw [hthr] at hy
    exact hw u y hy
  · intro j o
    simpa [State.setCue] using hc j o

/-- Settles O25: each command is one write of an E field, and the field's operation is taken in its cases. -/
theorem coresAreControlled : Obligations.CoresAreControlled := by
  unfold Obligations.CoresAreControlled
  intro s r site th v ctx n w x errs ctrl
  refine ⟨?inexpert, ?expert, ?swiOn, ?swiOff⟩
  case inexpert =>
    intro c moves hc hr
    exact coreControl_inexpert hr (exec_coreControl s r site th v ctx n w c moves hc)
  case swiOn =>
    intro hie
    rw [exec_swi, execSwi, State.raiseSwi_enabled s site th hie]
    refine yields_done ⟨?_, ?_, memSame_of_mem (by rw [State.settle_mem, State.modThr_mem, State.setCfld_mem])⟩
    · rw [State.settle_cfld, State.cfld_of_regs (State.modThr_regs _ site th _), State.swi_setCfld]
    · rw [State.settle_thr, State.thr_modThr, State.thr_setCfld]
  case swiOff =>
    intro hie
    rw [exec_swi, execSwi, State.raiseSwi_disabled s site th hie]
    refine yields_done ⟨?_, ?_, memSame_of_mem (by rw [State.settle_mem, State.modThr_mem])⟩
    · rw [State.settle_thr, State.thr_modThr]
    · rw [State.settle_regs, State.modThr_regs]
  case expert =>
    intro hr
    refine ⟨?start, ?startErr, ?halt, ?resume, ?resumeErr, ?safeQuar, ?safe, ?context, ?cue⟩
    case start =>
      intro hh hc
      refine done_asExpert hr _ _ _ ?_
      rw [State.startThread_starts s site th hh hc]
      have hx : ((s.startAt site th).setHalt site th false).settle.thr site th =
          x.start (BitVec.ofNat 16 (s.entryPc site th)) := by
        rw [State.settle_thr, State.thr_setHalt, State.thr_startAt]
      dsimp only
      rw [hx, State.settle_core, State.core_setHalt, State.settle_halted, State.halted_setHalt, if_pos rfl]
      refine ⟨rfl, rfl, rfl, rfl, rfl, rfl, rfl, rfl, rfl, s.trapPend_startAt site th,
        memSame_of_mem (by rw [State.settle_mem, State.setHalt_mem, State.startAt_mem]), fun u hu => ?_⟩
      rw [State.settle_thr, State.thr_setHalt, State.settle_halted, State.halted_setHalt, if_neg hu, State.halted_startAt]
      exact ⟨s.thr_startAt_other site hu, rfl⟩
    case startErr =>
      intro h
      refine done_asExpert hr _ _ _ ?_
      rw [State.startThread_errs s site th h]
      exact s.ctrlErr_sets site
    case halt =>
      intro hh hw
      refine done_asExpert hr _ _ _ ?_
      rw [State.haltThread_stops s site th hh hw]
      refine ⟨?_, ?_, memSame_of_mem (by rw [State.settle_mem, State.setHalt_mem, State.modThr_mem])⟩
      · rw [State.settle_halted, State.halted_setHalt, if_pos rfl]
      · rw [State.settle_thr, State.thr_setHalt, State.thr_modThr]
    case resume =>
      intro hh hl
      refine done_asExpert hr _ _ _ ?_
      rw [State.resumeThread_runs s site th hh hl]
      refine ⟨?_, by rw [State.settle_cores, State.setHalt_cores], memSame_of_mem (by rw [State.settle_mem, State.setHalt_mem])⟩
      rw [State.settle_halted, State.halted_setHalt, if_pos rfl]
    case resumeErr =>
      intro hh ht hl
      refine done_asExpert hr _ _ _ ?_
      rw [State.resumeThread_errs s site th hh ht hl]
      exact s.ctrlErr_sets site
    case safeQuar =>
      rintro hv hq rfl
      refine done_asExpert hr _ _ _ ?_
      rw [State.setSafe_quarantined s site hv hq]
      exact s.ctrlErr_sets site
    case safe =>
      refine fun hv hq => ⟨fun hall => ?_, fun hrun => ?_⟩
      · refine done_asExpert hr _ _ _ ?_
        rw [State.setSafe_changes s site v hv hq hall]
        refine ⟨?_, memSame_of_mem (by rw [State.settle_mem, State.modCore_mem, State.setCfld_mem]), ?_⟩
        · rw [State.safe, State.settle_cflag, State.cflag_of_regs (State.modCore_regs _ site _)]
          exact s.cflag_setCfld site CFG_CORE_CTRL_SAFE v ⟨by decide, by decide⟩ rfl
        · rw [State.settle_core, State.core_modCore, State.core_setCfld]
      · refine done_asExpert hr _ _ _ ?_
        rw [State.setSafe_running s site v hv hq hrun]
        exact s.ctrlErr_sets site
    case context =>
      refine fun hx => ⟨fun hh => ?_, fun hh => ?_⟩
      · refine done_asExpert hr _ _ _ ?_
        have hw : s.ctxWrite site th ctx = s.setCtx site th (ctx % 64) := by simp [State.ctxWrite, hx, hh, x]
        rw [hw, State.settle_thr, State.thr_setCtx]
        refine ⟨Nat.mod_mod _ _, rfl, fun b => ?_, rfl, rfl, memSame_of_mem (by rw [State.settle_mem, State.setCtx_mem])⟩
        simp only [Fin.getElem_fin, Vector.getElem_map]
        exact bitOf_invalid _
      · refine done_asExpert hr _ _ _ ?_
        have hw : s.ctxWrite site th ctx = s.ctxErr site := by simp [State.ctxWrite, hx, hh, x]
        rw [hw]
        exact s.ctxErr_sets site
    case cue =>
      intro hw hc
      refine done_asExpert hr _ _ _ ?_
      rw [State.cueWrite_plain s site n.val _ hw hc]
      refine ⟨?_, memSame_of_mem (by rw [State.settle_mem, State.modCore_mem, State.setCue, State.setCfld_mem]), fun u => ?_⟩
      · rw [State.cueCount, State.settle_cfld, State.cfld_of_regs (State.modCore_regs _ site _), State.setCue,
          State.cfld_setCfld _ _ _ _ ⟨by simp, by simp⟩]
        exact Nat.mod_mod _ _
      · rw [State.settle_thr, State.thr, State.core_modCore, State.setCue, State.core_setCfld]
        rfl

end Sys2Proof.Machine
end

section
/-! What a register write and a register read do (R6, R7, R10 to R12, R109, R110, R341). -/

namespace Sys2Proof.Machine

-- where a register stands

/-- A register's address leads to its die's block (R262). -/
theorem State.home_reg (s : State) (d off : Nat) (hd : d < 8) (ho : off < 0x4000000) :
    s.home (0x020000000000 + dkey d off) = .reg d off := by
  have hk : dkey d off = d * 0x4000000 + off := rfl
  rw [State.home, if_neg (by omega), if_neg (by omega), if_pos (by omega)]
  have h1 : (0x020000000000 + dkey d off - 0x020000000000) / 0x4000000 = d := by omega
  have h2 : (0x020000000000 + dkey d off - 0x020000000000) % 0x4000000 = off := by omega
  rw [h1, h2]

theorem State.writeSpace_reg (s : State) (r : Requester) (d off : Nat) (w : Word) (hd : d < 8) (ho : off < 0x4000000) :
    s.writeSpace r (0x020000000000 + dkey d off) w = s.writeReg r d off w := by
  rw [State.writeSpace, s.home_reg d off hd ho]

theorem State.readSpace_reg (s : State) (r : Requester) (d off : Nat) (hd : d < 8) (ho : off < 0x4000000) :
    s.readSpace r (0x020000000000 + dkey d off) = s.readReg r d off := by
  rw [State.readSpace, s.home_reg d off hd ho]

/-- A unit's register that exists is implemented (R10). -/
theorem State.regView_unit (s : State) (d off : Nat) {row : RegRow} (ho : off < 0x1000000) (h : regRow d off = some row) :
    s.regView d off = some (s.ringView d off) := by
  rw [State.regView, h]
  dsimp only
  rw [if_neg (by omega)]

/-- A unit's register that has no users of its own bars nobody. -/
theorem State.barred_unit (s : State) (r : Requester) (off : Nat) (ho : off < 0x1000000) (hc : cbGuarded off = false)
    (hp : off ≠ 0x90040) : s.barred r off = false := by
  have h1 : decide (0x1000000 ≤ off) = false := decide_eq_false (by omega)
  have h2 : (off == 0x90040) = false := by simpa using hp
  rw [State.barred, hc, h1, h2]; rfl

-- a write in its cases

section Cases
variable {s : State} {r : Requester} {d off : Nat} {w : Word} {row : RegRow}

theorem State.writeReg_barred (h : regRow d off = some row) (hv : (s.regView d off).isSome = true) (hb : s.barred r off = true) :
    s.writeReg r d off w = s.violation d := by
  have hv' : (s.regView d off).isNone = false := by rw [← Option.not_isSome, hv]; rfl
  simp only [State.writeReg, h, hv', hb, Bool.false_eq_true, if_false, if_true]

theorem State.writeReg_expert (h : regRow d off = some row) (hv : (s.regView d off).isSome = true) (hb : s.barred r off = false)
    (hr : s.expert r = true) : s.writeReg r d off w = s.wrAny r d off row w.toNat := by
  have hv' : (s.regView d off).isNone = false := by rw [← Option.not_isSome, hv]; rfl
  simp only [State.writeReg, h, hv', hb, hr, Bool.false_eq_true, if_false, if_true]

theorem State.writeReg_basic (h : regRow d off = some row) (hv : (s.regView d off).isSome = true) (hb : s.barred r off = false)
    (hr : s.expert r = false) : s.writeReg r d off w = s.wrBasic r d off row ((s.regView d off).getD 0) w.toNat := by
  have hv' : (s.regView d off).isNone = false := by rw [← Option.not_isSome, hv]; rfl
  simp only [State.writeReg, h, hv', hb, hr, Bool.false_eq_true, if_false]

end Cases

/-- Where no field is E, what a requester without expert access asks is what it writes (R12). -/
theorem RegRow.basic_plain (row : RegRow) (old v : Nat) (h : row.fields.any Fld.expert = false) : row.basic old v = v := by
  unfold RegRow.basic
  generalize row.fields = l at h
  induction l generalizing v with
  | nil => rfl
  | cons f l ih =>
    simp only [List.any_cons, Bool.or_eq_false_iff] at h
    obtain ⟨hf, hl⟩ := h
    rw [List.foldl_cons, hf, if_neg Bool.false_ne_true, ih v hl]

/-- A register with a field that can be written and none that is E has not only E fields. -/
theorem RegRow.not_all_expert (row : RegRow) (hro : row.fields.all (fun f => f.acc == .ro) = false)
    (h : row.fields.any Fld.expert = false) : row.fields.all Fld.expert = false := by
  obtain ⟨f, hf, -⟩ := List.all_eq_false.1 hro
  exact List.all_eq_false.2 ⟨f, hf, List.any_eq_false.1 h f hf⟩

/-- A register without E fields is written by everybody as by an expert (R12). -/
theorem State.wrBasic_plain (s : State) (r : Requester) (d off : Nat) (row : RegRow) (old v : Nat)
    (hro : row.fields.all (fun f => f.acc == .ro) = false) (h : row.fields.any Fld.expert = false) :
    s.wrBasic r d off row old v = s.wrAny r d off row v := by
  simp only [State.wrBasic, row.basic_plain old v h, row.not_all_expert hro h, Bool.not_false, if_true]

/-- A unit's register whose fields are all E keeps its value; it is a violation where the write would do something else than one without
them (R12). -/
theorem State.wrBasic_expert (s : State) (r : Requester) (d off : Nat) (row : RegRow) (old v : Nat) (ho : off < 0x1000000)
    (h : row.fields.all Fld.expert = true) : s.wrBasic r d off row old v =
      if s.wrAny r d off row v = s.wrAny r d off row (row.basic old v) then s else s.violation d := by
  have hc : ¬ (0x1000000 ≤ off ∧ off % 0x10000 = 0x02C ∧ ownThread r (d * Config.sitesPerDie + (off - 0x1000000) / 0x10000)) := by
    omega
  simp only [State.wrBasic, h, Bool.not_true, Bool.false_eq_true, if_false, if_neg hc]

section Any
variable {s : State} {r : Requester} {d off : Nat} {row : RegRow} {v : Nat}
  (hsh : isShadow (dkey d off) = false) (hro : row.fields.all (fun f => f.acc == .ro) = false)
include hsh hro

theorem State.wrAny_lo (hlo : isLo off = true) : s.wrAny r d off row v = s.wrLo r (dkey d off) v := by
  simp only [State.wrAny, hsh, hro, hlo, Bool.false_eq_true, if_false, if_true]

theorem State.wrAny_hi (hlo : isLo off = false) (hhi : isHi off = true) : s.wrAny r d off row v = s.wrHi r d off v := by
  simp only [State.wrAny, hsh, hro, hlo, hhi, Bool.false_eq_true, if_false, if_true]

theorem State.wrAny_unit (hlo : isLo off = false) (hhi : isHi off = false) (ho : off < 0x1000000) :
    s.wrAny r d off row v = s.wrUnit r d off v := by
  have : ¬ 0x1000000 ≤ off := by omega
  simp only [State.wrAny, hsh, hro, hlo, hhi, this, Bool.false_eq_true, if_false]

theorem State.wrAny_core (hlo : isLo off = false) (hhi : isHi off = false) (ho : 0x1000000 ≤ off) : s.wrAny r d off row v =
    s.wrCore r d off (d * Config.sitesPerDie + (off - 0x1000000) / 0x10000) v := by
  simp only [State.wrAny, hsh, hro, hlo, hhi, ho, Bool.false_eq_true, if_false, if_true]

end Any

theorem State.regPlain_row (s : State) (d off v : Nat) {row : RegRow} (h : regRow d off = some row) :
    s.regPlain d off v = s.setRg (dkey d off) (row.store (s.rg (dkey d off)) v) := by rw [State.regPlain, h]

/-- The units whose registers do nothing but hold what is written (R8): the stream director, the site registers, the stacks and the
integrity unit. -/
theorem State.wrUnit_plain (s : State) (r : Requester) (d off v : Nat) (h : off / 0x10000 ∈ [5, 7, 10, 15]) :
    s.wrUnit r d off v = s.regPlain d off v := by
  simp only [List.mem_cons, List.not_mem_nil, or_false] at h
  obtain h | h | h | h := h <;> (rw [State.wrUnit, h]; rfl)

/-- A register of such a unit takes what its fields' access gives it, from an expert or where it has no E field. -/
theorem State.writeReg_plain {s : State} {r : Requester} {d off : Nat} {row : RegRow} (w : Word) (h : regRow d off = some row)
    (hu : off / 0x10000 ∈ [5, 7, 10, 15]) (hsh : isShadow (dkey d off) = false) (hcb : cbGuarded off = false)
    (hro : row.fields.all (fun f => f.acc == .ro) = false) (hlo : isLo off = false) (hhi : isHi off = false)
    (hr : s.expert r = true ∨ row.fields.any Fld.expert = false) :
    s.writeReg r d off w = s.setRg (dkey d off) (row.store (s.rg (dkey d off)) w.toNat) := by
  have hu' := hu
  simp only [List.mem_cons, List.not_mem_nil, or_false] at hu'
  have ho : off < 0x1000000 := by omega
  have hv : (s.regView d off).isSome = true := by rw [s.regView_unit d off ho h]; rfl
  have hb : s.barred r off = false := s.barred_unit r off ho hcb (by omega)
  have hany : s.writeReg r d off w = s.wrAny r d off row w.toNat := by
    cases hx : s.expert r
    · rw [State.writeReg_basic h hv hb hx, State.wrBasic_plain s r d off row _ _ hro (hr.resolve_left (by simp [hx]))]
    · rw [State.writeReg_expert h hv hb hx]
  rw [hany, State.wrAny_unit hsh hro hlo hhi ho, s.wrUnit_plain r d off _ hu, s.regPlain_row d off _ h]

/-- A register replaced changes nothing else. -/
theorem State.setRg_regOnly (s : State) (d off v : Nat) : RegOnly s (s.setRg (dkey d off) v).settle d off := by
  refine ⟨s.setRg_but_regs _ v, fun k hk => ?_⟩
  rw [State.settle_rg]
  exact State.rg_setRg_ne s hk _

-- pairs

theorem halves_joined (v : Nat) : v % 2 ^ 32 + (v >>> 32 % 2 ^ 32) <<< 32 = v % 2 ^ 64 := by
  have h := Nat.mod_mul (x := v) (a := 2 ^ 32) (b := 2 ^ 32)
  rw [Nat.shiftLeft_eq, Nat.shiftRight_eq_div_pow, ← pow_add] at *
  rw [h, Nat.mul_comm]

theorem State.rg64_eq (s : State) (k : Nat) : s.rg64 k = s.rg k + (s.rg (k + 4)) <<< 32 := rfl

theorem State.rg64_of_regs {s t : State} (h : t.regs = s.regs) (k : Nat) : t.rg64 k = s.rg64 k := by
  simp only [State.rg64_eq, State.rg_of_regs h]

/-- A pair written reads back whole (R11). -/
theorem State.rg64_setRg64 (s : State) (k v : Nat) : (s.setRg64 k v).rg64 k = v % 2 ^ 64 := by
  have hlow : (s.setRg64 k v).rg k = v % 2 ^ 32 := by
    rw [State.setRg64, State.rg_setRg_ne (s.setRg k (v % 2 ^ 32)) (by omega : k ≠ k + 4), State.rg_setRg s k, Nat.mod_mod]
  have hhigh : (s.setRg64 k v).rg (k + 4) = v >>> 32 % 2 ^ 32 := by
    rw [State.setRg64, State.rg_setRg, Nat.mod_mod]
  simp only [State.rg64_eq, hlow, hhigh]
  exact halves_joined v

theorem State.wrPair_plain (s : State) (d lo low high : Nat) (h : lo ∉ [0xE0004, 0xF0010, 0xF0018, 0x12F000]) :
    s.wrPair d lo low high = s.setRg64 (dkey d lo) (low + high <<< 32) := by
  simp only [List.mem_cons, List.not_mem_nil, or_false, not_or] at h
  obtain ⟨h1, h2, h3, h4⟩ := h
  simp only [State.wrPair, h1, h2, h3, h4, if_false]

/-- A _HI register written after its _LO: the pair takes both (R11). -/
theorem State.wrHi_pair (s : State) (r : Requester) (d off v : Nat) {row rl : RegRow} {w : Word} (h : regRow d off = some row)
    (hl : regRow d (off - 4) = some rl) (hp : off - 4 ∉ [0xE0004, 0xF0010, 0xF0018, 0x12F000])
    (hw : s.loWr.find? (fun p => p.1 == whoOf r && p.2.1 == dkey d (off - 4)) = some (whoOf r, dkey d (off - 4), w)) :
    (s.wrHi r d off v).rg64 (dkey d (off - 4)) =
      (rl.store (s.rg (dkey d (off - 4))) w.toNat + (row.store (s.rg (dkey d off)) v) <<< 32) % 2 ^ 64 := by
  simp only [State.wrHi, h, hl, hw]
  rw [State.wrPair_plain _ _ _ _ _ hp, State.rg64_setRg64]

/-- A _HI register stands behind its _LO, where no unit guards a register of its own. -/
theorem ne_copy_of_pair {off : Nat} (h : isLo off = true ∨ isHi off = true) : off ≠ 0x90040 := by
  rintro rfl
  revert h; decide

-- broadcasts

/-- What a requester may write hangs on no register but a bulk channel's context. -/
theorem State.expert_setRg (s : State) (r : Requester) (k v : Nat) (hk : k % 64 ≠ 8) : (s.setRg k v).expert r = s.expert r := by
  have hctx : (s.setRg k v).reqCtx r = s.reqCtx r := by
    cases r
    case bulk d c =>
      have hne : dkey d (BDMA_CH_CTL_CTX c).off ≠ k := by
        have : dkey d (BDMA_CH_CTL_CTX c).off = d * 0x4000000 + (0xC0108 + 64 * c) := rfl
        omega
      simp only [State.reqCtx, State.fld, State.fldAt, State.rg_setRg_ne s hne]
    case thread site t => simp only [State.reqCtx, State.thr_of_cores (State.setRg_cores s k v)]
    case chan site c => simp only [State.reqCtx, State.core_of_cores (State.setRg_cores s k v)]
    all_goals rfl
  simp only [State.expert, hctx, State.attr, State.setRg_attrLive]

theorem State.good_setRg (s : State) (k v site : Nat) : (s.setRg k v).good site = s.good site := by
  rw [State.good, State.good, State.setRg_siteBad]

theorem State.good_lt {s : State} {site : Nat} (h : s.good site = true) : site < 1568 := by
  simp only [State.good, Bool.and_eq_true, decide_eq_true_eq] at h
  exact h.1

theorem State.regRow_group (d site : Nat) : regRow d (siteOff site 0xC) = some ⟨0xC, 4, 1, [⟨.rw, 31, 0, 0, false⟩]⟩ := by
  rw [regRow_siteOff d site 0xC (by decide)]; rfl

theorem isLo_siteOff (site off : Nat) (h : off < 0x10000) : isLo (siteOff site off) = loCoreRuns.any (inRun off) := by
  have hlo : siteOff site off % 0x10000 = off := by simp only [siteOff]; omega
  rw [isLo, if_pos (by simp only [siteOff]; omega), hlo]

/-- Settings sets hold registers of the units alone (R60, R399). -/
theorem ssKeys_units : ∀ k ∈ ssKeys, k % 0x4000000 < 0x130000 := by decide +kernel

theorem isShadow_siteOff (d site off : Nat) (h : off < 0x10000) : isShadow (dkey d (siteOff site off)) = false := by
  have hm : site % 196 < 196 := Nat.mod_lt _ (by decide)
  have hk : dkey d (siteOff site off) = d * 0x4000000 + (0x1000000 + site % 196 * 0x10000 + off) := rfl
  have hn : ssKeys.contains (dkey d (siteOff site off) - 0x800) = false := by
    rw [List.contains_eq_mem, decide_eq_false_iff_not]
    intro hmem
    have := ssKeys_units _ hmem
    omega
  rw [isShadow, hn, Bool.and_false]

/-- A number of 32 bits put in the place of another. -/
theorem setBits_whole (n v : Nat) (hn : n < 2 ^ 32) : setBits n 0 32 v = v % 2 ^ 32 := by
  rw [setBits_split, Nat.zero_add, Nat.div_eq_of_lt hn]; simp [Nat.mod_one]

theorem State.rg_lt (s : State) (k : Nat) : s.rg k < 2 ^ 32 := (get (rstOf k) s.regs k).isLt

/-- An expert's write of CFG_CORE_GROUP of a good site (R110). -/
theorem State.writeReg_group (s : State) (r : Requester) (site : Nat) (v : Word) (hr : s.expert r = true) (hg : s.good site = true) :
    s.writeReg r (dieOf site) (siteOff site 0xC) v = s.setRg (ckey site 0xC) v.toNat := by
  have hlt : site < 1568 := State.good_lt hg
  have hd : dieOf site = site / 196 := if_pos hlt
  have hoff : siteOff site 0xC = 0x1000000 + site % 196 * 0x10000 + 0xC := rfl
  have hsite : dieOf site * Config.sitesPerDie + (siteOff site 0xC - 0x1000000) / 0x10000 = site := by
    simp only [Config.sitesPerDie]; omega
  have hrow := State.regRow_group (dieOf site) site
  have hge : 0x1000000 ≤ siteOff site 0xC := by omega
  have hlow : siteOff site 0xC % 0x10000 = 0xC := by omega
  have hv : (s.regView (dieOf site) (siteOff site 0xC)).isSome = true := by
    simp only [State.regView, hrow, if_pos hge, hsite, hg, if_true, Option.isSome_some]
  have hcb : cbGuarded (siteOff site 0xC) = false := by
    simp only [cbGuarded, Bool.or_eq_false_iff, beq_eq_false_iff_ne, Bool.and_eq_false_iff, decide_eq_false_iff_not]
    omega
  have hb : s.barred r (siteOff site 0xC) = false := by
    have h1 : (siteOff site 0xC == 0x90040) = false := beq_eq_false_iff_ne.2 (by omega)
    have h2 : decide (0x1000 ≤ siteOff site 0xC % 0x10000) = false := decide_eq_false (by omega)
    rw [State.barred, hcb, h1, h2, Bool.and_false]; rfl
  have hlo : isLo (siteOff site 0xC) = false := by rw [isLo_siteOff _ _ (by decide)]; rfl
  have hhi : isHi (siteOff site 0xC) = false := by
    have h4 : siteOff site 0xC - 4 = siteOff site 8 := by simp only [siteOff]; omega
    rw [isHi, h4, isLo_siteOff _ _ (by decide)]; rfl
  rw [State.writeReg_expert hrow hv hb hr,
    State.wrAny_core (isShadow_siteOff _ site 0xC (by decide)) (by decide) hlo hhi hge]
  have hcore : ∀ k v, s.wrCore r (dieOf site) (siteOff site 0xC) k v = s.regPlain (dieOf site) (siteOff site 0xC) v := by
    intro k v
    simp only [State.wrCore, hlow]
    rfl
  have hkey : dkey (dieOf site) (siteOff site 0xC) = ckey site 0xC := by rw [hd]; rfl
  rw [hcore, s.regPlain_row _ _ _ hrow, hkey]
  have hst : RegRow.store ⟨0xC, 4, 1, [⟨.rw, 31, 0, 0, false⟩]⟩ (s.rg (ckey site 0xC)) v.toNat = v.toNat := by
    change setBits (s.rg (ckey site 0xC)) 0 32 (bitsOf v.toNat 0 32) = v.toNat
    have hvlt := v.isLt
    rw [setBits_whole _ _ (s.rg_lt _), bitsOf]
    simp only [Nat.shiftRight_zero, Nat.mod_mod]
    omega
  rw [hst]

/-- Two sites' registers at one offset of their blocks stand apart. -/
theorem ckey_inj {i j off : Nat} (h : ckey i off = ckey j off) : i = j := by
  simp only [ckey, dkey, Config.sitesPerDie] at h
  omega

/-- CFG_CORE_GROUP written at every site of a list: those of the list hold the value, the others what they held (R110). -/
theorem State.groups_written (r : Requester) (v : Word) (site : Nat) : ∀ (l : List Nat) (s : State), s.expert r = true →
    (∀ st ∈ l, s.good st = true) →
    let t := l.foldl (fun s st => s.writeReg r (dieOf st) (siteOff st 0xC) v) s
    t.rg (ckey site 0xC) = if site ∈ l then v.toNat else s.rg (ckey site 0xC)
  | [], s, _, _ => by simp
  | st :: l, s, hr, hg => by
    have hw := s.writeReg_group r st v hr (hg st List.mem_cons_self)
    have hst : st < 1568 := State.good_lt (hg st List.mem_cons_self)
    have hmod : ckey st 0xC % 64 ≠ 8 := by simp only [ckey, dkey, Config.sitesPerDie]; omega
    have ih := State.groups_written r v site l (s.setRg (ckey st 0xC) v.toNat) (by rw [s.expert_setRg r _ _ hmod, hr])
      (fun x hx => by rw [State.good_setRg]; exact hg x (List.mem_cons_of_mem _ hx))
    simp only [List.foldl_cons, hw, List.mem_cons]
    rw [ih]
    by_cases hl : site ∈ l
    · simp [hl]
    · by_cases he : site = st
      · subst he
        rw [if_neg hl, if_pos (Or.inl rfl), State.rg_setRg]
        exact Nat.mod_eq_of_lt v.isLt
      · have hne : ckey site 0xC ≠ ckey st 0xC := fun h => he (ckey_inj h)
        rw [if_neg hl, if_neg (fun h => h.elim he hl), State.rg_setRg_ne s hne]

/-- The sites that a broadcast image names (R109, R110). -/
def State.inImage (s : State) (img : Image) (site : Nat) : Prop :=
  img = .all ∨ ∃ g : Nat, img = .group g ∧ bitOf (s.cfld site CFG_CORE_GROUP_GROUP) (g % 32) = true

/-- The base of a broadcast image (R109). -/
def imageBase : Image → Nat
  | .all => 0x1000000
  | .group g => 0x1100000 + g % 32 * 0x10000

theorem execBroadcastWrite_eq (r : Requester) (img : Image) (off : Nat) (v : Word) (s : State) :
    execBroadcastWrite r img off v s = done (s.writeBcast r (imageBase img + off % 0x10000) v) := by cases img <;> rfl

theorem State.mem_bcastSites (s : State) (img : Image) (site : Nat) (hg : s.good site = true) :
    site ∈ s.bcastSites (imageBase img + 0xC) ↔ s.inImage img site := by
  have hlt : site < Config.sites := State.good_lt hg
  cases img with
  | all => simp [State.bcastSites, imageBase, State.inImage, hlt, hg]
  | group g =>
    have h1 : ¬ (0x1000000 ≤ imageBase (.group g) + 0xC ∧ imageBase (.group g) + 0xC < 0x1010000) := by simp only [imageBase]; omega
    have h2 : 0x1100000 ≤ imageBase (.group g) + 0xC ∧ imageBase (.group g) + 0xC < 0x1300000 := by simp only [imageBase]; omega
    have h3 : (imageBase (.group g) + 0xC - 0x1100000) / 0x10000 = g % 32 := by simp only [imageBase]; omega
    rw [State.bcastSites]
    simp only [if_neg h1, if_pos h2, h3]
    simp [State.inImage, hlt, hg]

theorem State.bcastSites_good (s : State) (off : Nat) : ∀ st ∈ s.bcastSites off, s.good st = true := by
  intro st h
  unfold State.bcastSites at h
  split at h
  · exact (List.mem_filter.1 h).2
  · split at h
    · exact (List.mem_filter.1 (List.mem_filter.1 h).1).2
    · cases h

/-- A broadcast of CFG_CORE_GROUP writes the sites it names and leaves the others (R109, R110). -/
theorem State.group_broadcast (s : State) (r : Requester) (img : Image) (v : Word) (site : Nat) (hr : s.expert r = true)
    (hg : s.good site = true) :
    (s.inImage img site → (s.writeBcast r (imageBase img + 0xC) v).cfld site CFG_CORE_GROUP_GROUP = v.toNat) ∧
    (¬ s.inImage img site → (s.writeBcast r (imageBase img + 0xC) v).cfld site CFG_CORE_GROUP_GROUP = s.cfld site CFG_CORE_GROUP_GROUP) := by
  have hoff : (imageBase img + 0xC) % 0x10000 = 0xC := by
    cases img
    case all => rfl
    case group g => simp only [imageBase]; omega
  have hw := State.groups_written r v site (s.bcastSites (imageBase img + 0xC)) s hr (s.bcastSites_good _)
  have hb : s.writeBcast r (imageBase img + 0xC) v =
      (s.bcastSites (imageBase img + 0xC)).foldl (fun s st => s.writeReg r (dieOf st) (siteOff st 0xC) v) s := by
    rw [State.writeBcast, hoff]
  have hm := s.mem_bcastSites img site hg
  constructor <;> intro hn
  · rw [if_pos (hm.2 hn), ← hb] at hw
    have hbits : bitsOf v.toNat 0 32 = v.toNat := by
      rw [bitsOf, Nat.shiftRight_zero]; exact Nat.mod_eq_of_lt v.isLt
    exact (congrArg (bitsOf · 0 32) hw).trans hbits
  · rw [if_neg (fun h => hn (hm.1 h)), ← hb] at hw
    exact congrArg (bitsOf · 0 32) hw

-- the debug path (R341)

theorem execDbgacc_shut (s : State) (a : Nat) (h : s.flag 0 ROT_STATUS_DBG_OPEN = false) :
    (∀ v : Word, execDbgacc a (some v) s = done s) ∧ execDbgacc a none s = done { s with rdData := leBytes 4 0, rdStatus := 0 } := by
  simp only [execDbgacc, h, Bool.not_false, if_true, implies_true, and_self]

theorem execDbgacc_open (s : State) (a : Nat) (h : s.flag 0 ROT_STATUS_DBG_OPEN = true) :
    (∀ v : Word, execDbgacc a (some v) s = done (s.writeSpace .debug a v)) ∧
    execDbgacc a none s = done { (s.readSpace .debug a).1 with rdData := leBytes 4 (s.readSpace .debug a).2, rdStatus := 0 } := by
  simp only [execDbgacc, h, Bool.not_true, Bool.false_eq_true, if_false, implies_true, and_self]

/-- A read of a _LO register shows it and captures the upper half (R11). -/
theorem State.readReg_lo (s : State) (r : Requester) (d off lo : Nat) (h : isLo off = true) (hv : s.regView d off = some lo) :
    s.readReg r d off = (s.captureHi r d off, lo) := by
  rw [State.readReg, hv]
  simp only [h, if_true]

/-- Settles O46: each clause is one case of the write of a register, of its read, or of a broadcast's fold over the sites it names. -/
theorem registersAreWritten : Obligations.RegistersAreWritten := by
  unfold Obligations.RegistersAreWritten
  intro s r d off v row hd ho hrow k a
  have hview := s.regView_unit d off ho hrow
  have hsome : (s.regView d off).isSome = true := by rw [hview]; rfl
  have hwrite : ∀ u : Word, s.writeSpace r a u = s.writeReg r d off u := fun u => s.writeSpace_reg r d off u hd (by omega)
  refine ⟨?fields, ?barred, ?expert, fun _ _ => rfl, ?lo, ?broadcast, ?shut, ?opened⟩
  case fields =>
    intro hsh hcb hro
    refine ⟨?plain, ?low, ?high⟩
    case plain =>
      intro hu hlo hhi hr
      rw [exec_registerWrite, execRegisterWrite, hwrite, State.writeReg_plain v hrow hu hsh hcb hro hlo hhi hr]
      refine yields_done ⟨?_, s.setRg_regOnly d off _⟩
      rw [State.settle_rg, State.rg_setRg]
    case low =>
      intro hr hlo
      have hb : s.barred r off = false := s.barred_unit r off ho hcb (ne_copy_of_pair (Or.inl hlo))
      rw [exec_registerWrite, execRegisterWrite, hwrite, State.writeReg_expert hrow hsome hb hr, State.wrAny_lo hsh hro hlo]
      exact yields_done ⟨rfl, by simp [State.wrLo, k]⟩
    case high =>
      intro hr hlo hhi hp rl w hl hw
      have hb : s.barred r off = false := s.barred_unit r off ho hcb (ne_copy_of_pair (Or.inr hhi))
      rw [exec_writeHi, execWriteHi, hwrite, State.writeReg_expert hrow hsome hb hr, State.wrAny_hi hsh hro hlo hhi]
      refine yields_done ?_
      rw [State.rg64_of_regs (State.settle_regs _)]
      exact s.wrHi_pair r d off _ hrow hl hp hw
  case barred =>
    intro hv hb
    rw [exec_registerWrite, execRegisterWrite, hwrite, State.writeReg_barred hrow hv hb]; rfl
  case expert =>
    intro hv hb hr hall
    have hbasic := s.wrBasic_expert r d off row ((s.regView d off).getD 0) v.toNat ho hall
    constructor <;> intro hk <;> rw [exec_registerWrite, execRegisterWrite, hwrite, State.writeReg_basic hrow hv hb hr, hbasic]
    · rw [if_neg hk]; rfl
    · rw [if_pos hk]; rfl
  case lo =>
    intro hlo lo hi hvlo hvhi
    rw [exec_readLo, execReadLo, s.readSpace_reg r d off hd (by omega), s.readReg_lo r d off lo hlo hvlo]
    exact yields_done ⟨rfl, by simp [State.captureHi, hvhi, k], rfl⟩
  case broadcast =>
    intro hr img site hg named
    rw [exec_broadcastWrite, execBroadcastWrite_eq]
    exact yields_done (s.group_broadcast r img v site hr hg)
  case shut =>
    intro h
    obtain ⟨hput, hget⟩ := execDbgacc_shut s a h
    rw [exec_dbgacc, exec_dbgacc, hput, hget]
    exact ⟨yields_done ⟨rfl, rfl⟩, rfl⟩
  case opened =>
    intro h
    obtain ⟨hput, hget⟩ := execDbgacc_open s a h
    rw [exec_dbgacc, exec_dbgacc, hput, hget, s.readSpace_reg .debug d off hd (by omega), s.writeSpace_reg .debug d off v hd (by omega)]
    exact ⟨yields_done rfl, rfl⟩

end Sys2Proof.Machine
end

section
/-! What the host reads and writes (R391 to R394). -/

namespace Sys2Proof.Machine

-- event bits of the mesh

/-- A source that becomes pending leaves the registers of the units below the gatherer. -/
theorem State.fld_raise_ne (s : State) (n : Nat) (f : RF) (hf : f.off < 0xB1000) : (s.raise 0 n).fld 0 f = s.fld 0 f := by
  unfold State.raise
  split
  · refine State.fld_setFld_ne s 0 0 (EVG_SRC_PEND n) f 1 ?_
    have hg : dkey 0 (EVG_SRC_PEND n).off = 0 * 0x4000000 + (0xB1000 + 4 * n) := rfl
    have hk : dkey 0 f.off = 0 * 0x4000000 + f.off := rfl
    omega
  · rfl

/-- An event of the mesh sets its bit and no other (R8, R335). -/
theorem State.flag_event_msh (s : State) (i j : Nat) (hi : i < 32) (hj : j < 32) :
    (s.event 0 ⟨0x9000C, i, i⟩).flag 0 ⟨0x9000C, j, j⟩ = (decide (j = i) || s.flag 0 ⟨0x9000C, j, j⟩) := by
  have hokI : RF.ok ⟨0x9000C, i, i⟩ := ⟨le_refl i, hi⟩
  have hokJ : RF.ok ⟨0x9000C, j, j⟩ := ⟨le_refl j, hj⟩
  by_cases hset : s.fld 0 ⟨0x9000C, i, i⟩ = 1
  · have he : s.event 0 ⟨0x9000C, i, i⟩ = s := by simp only [State.event, State.eventBit, hset, if_true]
    rw [he]
    by_cases hji : j = i
    · subst hji; simp [State.flag, hset]
    · simp [hji]
  · have he : s.event 0 ⟨0x9000C, i, i⟩ = (s.setFld 0 ⟨0x9000C, i, i⟩ 1).raise 0 (672 + i) := by
      simp only [State.event, State.eventBit, hset, if_false]
      rfl
    rw [he, State.flag, State.flag, State.fld_raise_ne _ _ _ (by decide : (0x9000C : Nat) < 0xB1000)]
    by_cases hji : j = i
    · subst hji
      rw [State.fld_setFld s 0 _ 1 hokJ]
      simp
    · rw [State.fld_setFld_apart s 0 ⟨0x9000C, i, i⟩ ⟨0x9000C, j, j⟩ 1 hokI hokJ rfl (by simp only [RF.apart]; omega)]
      simp [hji]

/-- The latched address of a failed access is no event bit. -/
theorem State.flag_msh_setRg64 (s : State) (i a : Nat) :
    (s.setRg64 (dkey 0 MSH_ERR_ADDR_LO_ADDR.off) a).flag 0 ⟨0x9000C, i, i⟩ = s.flag 0 ⟨0x9000C, i, i⟩ := by
  have h1 : dkey 0 0x9000C ≠ dkey 0 MSH_ERR_ADDR_LO_ADDR.off := by decide
  have h2 : dkey 0 0x9000C ≠ dkey 0 MSH_ERR_ADDR_LO_ADDR.off + 4 := by decide
  simp only [State.flag, State.fld, State.fldAt, State.setRg64, State.rg_setRg_ne _ h1, State.rg_setRg_ne _ h2]

/-- A timeout sets its event (R254). -/
theorem State.meshTimedOut_flag (s : State) (g : Nat) : (s.meshTimedOut 0 g).flag 0 MSH_EVENT_TIMEOUT = true := by
  rw [State.meshTimedOut, State.flag_msh_setRg64, State.flag_event_msh s 2 2 (by decide) (by decide)]; rfl

/-- A parity error sets its event (R253). -/
theorem State.meshParity_flag (s : State) : (s.meshParity 0).flag 0 MSH_EVENT_PARITY = true := by
  rw [State.meshParity, State.flag_event_msh _ 1 1 (by decide) (by decide)]; rfl

/-- An unmapped access leaves the other events of the mesh standing (R264). -/
theorem State.unmappedAt_keeps (s : State) (a i : Nat) (hi : i < 32) (h : s.flag 0 ⟨0x9000C, i, i⟩ = true) :
    (s.unmappedAt 0 a).flag 0 ⟨0x9000C, i, i⟩ = true := by
  rw [State.unmappedAt, State.flag_msh_setRg64, State.flag_event_msh s 0 i (by decide) hi, h, Bool.or_true]

theorem State.meshTimedOut_light (s : State) (d g : Nat) : Light s (s.meshTimedOut d g) :=
  (s.event_light d _).trans (State.setRg64_light _ _ _)

theorem State.meshParity_light (s : State) (d : Nat) : Light s (s.meshParity d) :=
  (s.countFld_light d _ _).trans (State.event_light _ d _)

theorem State.hostUnmapped_light (s : State) (l : List (Nat × Nat)) : Light s (s.hostUnmapped l) := by
  unfold State.hostUnmapped
  split
  · exact s.unmappedAt_light 0 _
  · exact Light.refl s

theorem State.hostUnmapped_keeps (s : State) (l : List (Nat × Nat)) (i : Nat) (hi : i < 32) (h : s.flag 0 ⟨0x9000C, i, i⟩ = true) :
    (s.hostUnmapped l).flag 0 ⟨0x9000C, i, i⟩ = true := by
  unfold State.hostUnmapped
  split
  · exact s.unmappedAt_keeps _ i hi h
  · exact h

-- accesses are charged in counters, not in registers

theorem State.meter_regs (s : State) (a k p n : Nat) : (s.meter a k p n).regs = s.regs := by
  unfold State.meter
  split
  · rfl
  · split <;> rfl

theorem State.carry_regs (s : State) (a : Option Nat) (src dst n : Nat) : (s.carry a src dst n).regs = s.regs := by
  unfold State.carry
  dsimp only
  split
  · rfl
  · split
    · rfl
    · cases a
      case none => exact State.count_regs s 7 _ 0 32 n
      case some a => exact (State.meter_regs _ a 2 _ n).trans (State.count_regs s 7 _ 0 32 n)

theorem State.charge_regs (s : State) (g n : Nat) (w : Bool) : (s.charge g n w).regs = s.regs := by
  unfold State.charge
  split
  · split
    · exact State.count_regs s 5 _ 15 32 _
    · rfl
  · rfl

theorem State.access_none_regs (s : State) (d g n : Nat) (w : Bool) : (s.access none d g n w).regs = s.regs := by
  have h : ∀ src dst : Nat, ((s.charge g n w).carry none src dst n).regs = s.regs :=
    fun src dst => (State.carry_regs _ none src dst n).trans (s.charge_regs g n w)
  unfold State.access
  dsimp only
  split
  next hn => cases hn
  next => split <;> exact h _ _

/-- The accesses of a list of parts, each performed at its home. -/
def State.accessAll (s : State) (l : List (Nat × Nat)) (w : Bool) : State := l.foldl (fun s p => s.access none 0 p.1 p.2 w) s

theorem State.accessAll_light (s : State) (l : List (Nat × Nat)) (w : Bool) : Light s (s.accessAll l w) :=
  Light.foldl (fun (u : State) (p : Nat × Nat) => u.access none 0 p.1 p.2 w) (fun u p => u.access_light none 0 p.1 p.2 w) l s

theorem State.accessAll_regs (l : List (Nat × Nat)) (w : Bool) : ∀ s : State, (s.accessAll l w).regs = s.regs := by
  induction l with
  | nil => exact fun _ => rfl
  | cons p l ih => exact fun s => (ih _).trans (s.access_none_regs 0 p.1 p.2 w)

-- bytes and poison

theorem Light.bytes {s t : State} (h : Light s t) (a n : Nat) : t.bytes a n = s.bytes a n :=
  h.same (fun u => u.bytes a n) (fun _ _ _ _ => rfl)

theorem Light.poisoned {s t : State} (h : Light s t) (a n : Nat) : t.poisoned a n = s.poisoned a n :=
  h.same (fun u => u.poisoned a n) (fun _ _ _ _ => rfl)

theorem mem_setAdd {l : List Nat} {n k : Nat} (h : k = n ∨ k ∈ l) : k ∈ setAdd l n := by
  induction l with
  | nil => simpa [setAdd] using h
  | cons a l ih =>
    simp only [setAdd]
    split
    · simpa using h
    · split
      next hn => subst hn; simpa using h
      next =>
        rw [List.mem_cons] at h ⊢
        rcases h with h | h | h
        · exact Or.inr (ih (Or.inl h))
        · exact Or.inl h
        · exact Or.inr (ih (Or.inr h))

theorem mem_setUnion {k : Nat} : ∀ (m l : List Nat), k ∈ l ∨ k ∈ m → k ∈ setUnion l m
  | [], l, h => by simpa [setUnion] using h
  | a :: m, l, h => by
    refine mem_setUnion m (setAdd l a) ?_
    rcases h with h | h
    · exact Or.inl (mem_setAdd (Or.inr h))
    · rw [List.mem_cons] at h
      rcases h with h | h
      · exact Or.inl (mem_setAdd (Or.inl h))
      · exact Or.inr h

/-- Poisoned bytes that reach memory read as poison (R270). -/
theorem State.poisoned_writeMem (s : State) (a : Nat) (l : List Byte) (hl : l ≠ []) : (s.writeMem a l true).poisoned a l.length = true := by
  have hn : l.length ≠ 0 := by simpa using hl
  have hmem : a / 64 ∈ granules a l.length := by
    rw [granules, if_neg hn]
    exact List.mem_map.2 ⟨0, List.mem_range.2 (by omega), rfl⟩
  refine List.any_eq_true.2 ⟨a / 64, hmem, ?_⟩
  rw [Bool.or_eq_true]
  exact Or.inl (List.contains_iff_mem.2 (mem_setUnion _ _ (Or.inr hmem)))

@[simp] theorem State.settle_bytes (s : State) (a n : Nat) : s.settle.bytes a n = s.bytes a n := rfl
@[simp] theorem State.settle_poisoned (s : State) (a n : Nat) : s.settle.poisoned a n = s.poisoned a n := rfl

/-- Bytes performed at their home: they read back, the others read as before, and poisoned ones read as poison. -/
theorem State.landBytes_lands (s : State) (a : Nat) (l : List Byte) (p : Bool) (obs : List Nat) (hl : l ≠ []) :
    (s.landBytes a l p obs).settle.bytes a l.length = l ∧ MemBut s (s.landBytes a l p obs).settle a l.length ∧
    (p = true → (s.landBytes a l p obs).settle.poisoned a l.length = true) := by
  rw [State.settle_bytes, State.settle_poisoned]
  refine ⟨s.bytes_writeMem a l p, fun b hb => ?_, ?_⟩
  · rw [State.settle_byte]
    exact (s.byte_writeMem a b l p).trans (if_neg hb)
  · rintro rfl
    exact s.poisoned_writeMem a l hl

theorem State.landBytes_regs (s : State) (a : Nat) (l : List Byte) (p : Bool) (obs : List Nat) : (s.landBytes a l p obs).regs = s.regs :=
  State.writeMem_regs s a l p

theorem State.event_mem (s : State) (d : Nat) (f : RF) : (s.event d f).mem = s.mem := (s.event_light d f).same State.mem (fun _ _ _ _ => rfl)

theorem State.countFld_mem (s : State) (d : Nat) (f : RF) (n : Nat) : (s.countFld d f n).mem = s.mem :=
  (s.countFld_light d f n).same State.mem (fun _ _ _ _ => rfl)

/-- A granule beyond correction is reported in registers and marked; memory stays (R269). -/
theorem State.ueAt_mem (s : State) (d a : Nat) : (s.ueAt d a).mem = s.mem := by
  have hmark : ∀ (u : State) (l : List Nat), ({ u with ueRead := l }).mem = u.mem := fun _ _ => rfl
  rw [State.ueAt]
  exact (hmark _ _).trans (by rw [State.event_mem, State.setRg64_mem, State.countFld_mem])

theorem State.spoilt_mem (s : State) (g n : Nat) : (s.spoilt g n).mem = s.mem := by
  unfold State.spoilt
  split
  · exact s.ueAt_mem _ g
  · rfl
  · rfl

-- configuration space

/-- What sends pending messages leaves the function mask and the size of BAR2. -/
theorem State.msixFlush_keeps (s : State) (v : Nat) :
    (s.msixFlush v).pcie.fmask = s.pcie.fmask ∧ (s.msixFlush v).pcie.bar2Log = s.pcie.bar2Log := by
  unfold State.msixFlush
  split <;> exact ⟨rfl, rfl⟩

theorem State.flushAll_keeps (s : State) : s.flushAll.pcie.fmask = s.pcie.fmask ∧ s.flushAll.pcie.bar2Log = s.pcie.bar2Log := by
  have hfold : ∀ (l : List Nat) (u : State), (l.foldl State.msixFlush u).pcie.fmask = u.pcie.fmask ∧
      (l.foldl State.msixFlush u).pcie.bar2Log = u.pcie.bar2Log := by
    intro l
    induction l with
    | nil => exact fun _ => ⟨rfl, rfl⟩
    | cons v l ih =>
      intro u
      obtain ⟨hf, hb⟩ := ih (u.msixFlush v)
      obtain ⟨gf, gb⟩ := u.msixFlush_keeps v
      exact ⟨hf.trans gf, hb.trans gb⟩
  exact hfold _ s

theorem State.cfgWrite_mask (s : State) (v : Nat) :
    (s.cfgWrite 8 v).pcie.fmask = bitOf v 14 ∧ (s.cfgWrite 8 v).pcie.bar2Log = s.pcie.bar2Log := by
  rw [State.cfgWrite, if_neg (by decide), if_pos rfl]
  dsimp only
  split
  · exact ⟨rfl, rfl⟩
  · exact State.flushAll_keeps _

theorem State.cfgWrite_size (s : State) (v : Nat) (hlo : 10 ≤ bitsOf v 8 5) (hhi : bitsOf v 8 5 ≤ 20) :
    (s.cfgWrite 4 v).bar2Size = 2 ^ 30 * 2 ^ (bitsOf v 8 5 - 10) ∧ (s.cfgWrite 4 v).pcie.fmask = s.pcie.fmask := by
  have hw : s.cfgWrite 4 v = { s with pcie := { s.pcie with bar2Log := bitsOf v 8 5 + 20 } } := by
    rw [State.cfgWrite, if_pos rfl]
    dsimp only
    rw [if_pos ⟨hlo, hhi⟩]
  have he : bitsOf v 8 5 + 20 = 30 + (bitsOf v 8 5 - 10) := by omega
  rw [hw]
  refine ⟨?_, rfl⟩
  change 2 ^ (bitsOf v 8 5 + 20) = _
  rw [he, pow_add]

/-- No_Soft_Reset reads 1 in every power state (R431). -/
theorem State.cfgRead_noSoftReset (s : State) : bitOf (s.cfgRead 0) 3 = true := by
  rw [State.cfgRead, if_pos rfl]
  split <;> rfl

-- a host read in its cases

section Read
variable {s : State} {bar off n : Nat} {w : Arrival}

theorem execHostRead_off (h : s.hostOn bar off = false) : execHostRead bar off ⟨n, w⟩ s = done s := by
  simp only [execHostRead, h, Bool.not_false, Bool.true_or, if_true]

theorem execHostRead_config (h : s.hostOn 7 off = true) (hn : 0 < n) (hb : s.inBar 7 off n = true) :
    execHostRead 7 off ⟨n, w⟩ s = done (s.complete (leBytes 4 (s.cfgRead off)) 0) := by
  have hn' : (n == 0) = false := beq_eq_false_iff_ne.2 (by omega)
  simp only [execHostRead, h, hn', hb, Bool.not_true, Bool.or_false, Bool.false_eq_true, if_false, if_true]

variable (h : s.hostOn bar off = true) (hn : 0 < n) (hb : s.inBar bar off n = true) (h7 : bar ≠ 7)
include h hn hb h7

/-- One that crosses the mesh and is not answered (R254). -/
theorem execHostRead_lost (ha : bar = 0 → n = 4 ∧ off % 4 = 0) (hx : s.hostCrosses bar off ≠ none) :
    execHostRead bar off ⟨n, .busError⟩ s = done ((s.meshTimedOut 0 ((s.hostCrosses bar off).getD 0)).complete [] 2) := by
  have hn' : (n == 0) = false := beq_eq_false_iff_ne.2 (by omega)
  have ha' : ¬ (bar = 0 ∧ ¬ (n = 4 ∧ off % 4 = 0)) := fun k => k.2 (ha k.1)
  have hx' : (s.hostCrosses bar off).isSome = true := Option.isSome_iff_ne_none.2 hx
  simp only [execHostRead, h, hn', hb, h7, ha', hx', Bool.not_true, Bool.or_false, Bool.false_eq_true, if_false, if_true, and_self]

/-- One of memory that is answered, or stays in die 0's ring. -/
theorem execHostRead_mem (h0 : bar ≠ 0) (hw : w = .busError → s.hostCrosses bar off = none) : execHostRead bar off ⟨n, w⟩ s =
    done (s.hostLoad (s.barAddr bar off) n (if w = .parity ∧ (s.hostCrosses bar off).isNone then .ok else w)) := by
  have hn' : (n == 0) = false := beq_eq_false_iff_ne.2 (by omega)
  have hx' : ¬ (w = .busError ∧ (s.hostCrosses bar off).isSome = true) := by
    rintro ⟨k, hk⟩
    rw [hw k] at hk
    cases hk
  simp only [execHostRead, h, hn', hb, h7, h0, hx', Bool.not_true, Bool.or_false, Bool.false_eq_true, if_false, false_and]

end Read

/-- A read of a register of a die over BAR0 that is answered (R391). -/
theorem execHostRead_reg {s : State} {off : Nat} {w : Arrival} (h : s.hostOn 0 off = true) (ho : off < 0x2000000) (ha : off % 4 = 0)
    (hw : w ≠ .busError) : execHostRead 0 off ⟨4, w⟩ s =
      let hit := w == .parity && (s.hostCrosses 0 off).isSome
      let t := if hit then s.meshParity 0 else s
      let q := (t.carry none (off / 0x400000) 0 4).readReg .host (off / 0x400000) (off % 0x400000)
      done (q.1.complete (leBytes 4 q.2) (b2n hit)) := by
  have h4 : ((4 : Nat) == 0) = false := rfl
  have hb : s.inBar 0 off 4 = true := decide_eq_true (by simp only [if_true]; omega)
  have hx : ¬ (w = .busError ∧ (s.hostCrosses 0 off).isSome = true) := fun k => hw k.1
  have hd : ∀ t : State, t.bar0Die off = some (off / 0x400000, off % 0x400000) := fun t => by rw [State.bar0Die, if_pos ho]
  have hr : ∀ t : State, t.bar0Read off = (t.carry none (off / 0x400000) 0 4).readReg .host (off / 0x400000) (off % 0x400000) :=
    fun t => by rw [State.bar0Read, hd]
  simp only [execHostRead, h, h4, hb, hx, hr, ha, Bool.not_true, Bool.or_false, Bool.false_eq_true, if_false, if_true, and_self,
    not_true_eq_false, and_false, Nat.reduceEqDiff]

/-- Another die's registers are reached over the mesh (R256). -/
theorem State.hostCrosses_die (s : State) (off : Nat) (ho : off < 0x2000000) (hd : off / 0x400000 ≠ 0) : s.hostCrosses 0 off ≠ none := by
  have hb : s.bar0Die off = some (off / 0x400000, off % 0x400000) := by rw [State.bar0Die, if_pos ho]
  simp only [State.hostCrosses, hb, hd, false_and, if_true, if_false, ne_eq, reduceCtorEq, not_false_eq_true]

-- a host write in its cases

section Write
variable {s : State} {bar off : Nat} {data : List Byte} {ep : Bool} {w : Arrival}

theorem execHostWrite_off (h : s.hostOn bar off = false) : execHostWrite bar off data ⟨ep, w⟩ s = done s := by
  simp only [execHostWrite, h, Bool.not_false, Bool.true_or, if_true]

variable (h : s.hostOn bar off = true) (hd : data ≠ []) (hb : s.inBar bar off data.length = true)
include h hd hb

theorem execHostWrite_config (h7 : bar = 7) : execHostWrite bar off data ⟨false, w⟩ s = done (s.cfgWrite off (leNat data)) := by
  subst h7
  have hd' : data.isEmpty = false := by simpa using hd
  simp only [execHostWrite, h, hd', hb, Bool.not_true, Bool.or_false, Bool.false_eq_true, if_false, if_true]

/-- One that is answered or needs no answer: an error of the mesh counts where the write crosses it. -/
theorem execHostWrite_put (h7 : bar ≠ 7) (hw : w ≠ .busError) : execHostWrite bar off data ⟨ep, w⟩ s =
    done (s.hostPut bar off data ep (if w = .parity ∧ s.hostCrosses bar off = none then .ok else w)) := by
  have hd' : data.isEmpty = false := by simpa using hd
  cases hx : s.hostCrosses bar off <;>
    simp only [execHostWrite, h, hd', hb, h7, hx, hw, Bool.not_true, Bool.or_false, Bool.false_eq_true, if_false, and_true,
      reduceCtorEq, and_false]

/-- One that is not answered: whether it was performed is a free value (R254). -/
theorem execHostWrite_lost (h7 : bar ≠ 7) (hx : s.hostCrosses bar off ≠ none) : ∃ g : Nat,
    execHostWrite bar off data ⟨ep, .busError⟩ s = done (s.meshTimedOut 0 g).fresh.2 ∨
    execHostWrite bar off data ⟨ep, .busError⟩ s = done ((s.meshTimedOut 0 g).fresh.2.hostPut bar off data ep .ok) := by
  have hd' : data.isEmpty = false := by simpa using hd
  obtain ⟨g, hg⟩ := Option.ne_none_iff_exists'.1 hx
  refine ⟨g, ?_⟩
  simp only [execHostWrite, h, hd', hb, h7, hg, Bool.not_true, Bool.or_false, Bool.false_eq_true, if_false, if_true]
  split
  · exact Or.inr rfl
  · exact Or.inl rfl

end Write

-- accesses of memory

theorem MemBut.after_same {s u t : State} {a n : Nat} (h : MemSame s u) (k : MemBut u t a n) : MemBut s t a n :=
  fun b hb => (k b hb).trans (h b)

section Memory
variable {s : State} {a n : Nat} {data : List Byte} {ep : Bool}

/-- A read that reaches what it may not brings nothing (R393). -/
theorem State.hostLoad_refused (h : (parts a n).any (fun p => s.hostRefused p.1 p.2 false) = true) (w : Arrival) :
    (s.hostLoad a n w).rdData = [] ∧ (s.hostLoad a n w).rdStatus = 2 ∧ MemSame s (s.hostLoad a n w) := by
  have he : s.hostLoad a n w = (s.hostUnmapped (parts a n)).complete [] 2 := by simp only [State.hostLoad, h, if_true]
  rw [he]
  exact ⟨rfl, rfl, (s.hostUnmapped_light _).memSame⟩

section Reached
variable (h : (parts a n).any (fun p => s.hostRefused p.1 p.2 false) = false)
include h

theorem State.hostLoad_ok : (s.hostLoad a n .ok).rdData = s.bytes a n ∧ (s.hostLoad a n .ok).rdStatus = b2n (s.poisoned a n) ∧
    MemSame s (s.hostLoad a n .ok) := by
  have hl := s.accessAll_light (parts a n) false
  have he : s.hostLoad a n .ok = (s.accessAll (parts a n) false).complete (s.bytes a n) (b2n (s.poisoned a n)) := by
    rw [← hl.bytes, ← hl.poisoned]
    have h1 : (Arrival.ok == .uncorrectable) = false := rfl
    have h2 : (Arrival.ok == .parity) = false := rfl
    simp only [State.hostLoad, h, h1, h2, Bool.or_false, Bool.false_eq_true, if_false, reduceCtorEq]
    rfl
  rw [he]
  exact ⟨rfl, rfl, hl.memSame⟩

/-- A granule beyond correction comes with EP set (R269, R389). -/
theorem State.hostLoad_uncorrectable : (s.hostLoad a n .uncorrectable).rdStatus = 1 ∧ MemSame s (s.hostLoad a n .uncorrectable) := by
  have he : s.hostLoad a n .uncorrectable = ((s.accessAll (parts a n) false).spoilt a n).complete
      (((s.accessAll (parts a n) false).spoilt a n).bytes a n) 1 := by
    simp only [State.hostLoad, h, Bool.false_eq_true, if_false, if_true, reduceCtorEq]
    simp [State.accessAll, b2n]
  rw [he]
  exact ⟨rfl, fun b => (State.byte_of_mem (State.spoilt_mem _ a n) b).trans ((s.accessAll_light (parts a n) false).memSame b)⟩

/-- A payload that met a parity error comes with EP set (R253). -/
theorem State.hostLoad_parity : (s.hostLoad a n .parity).rdStatus = 1 ∧ (s.hostLoad a n .parity).flag 0 MSH_EVENT_PARITY = true ∧
    MemSame s (s.hostLoad a n .parity) := by
  have he : s.hostLoad a n .parity = ((s.accessAll (parts a n) false).meshParity 0).complete
      (((s.accessAll (parts a n) false).meshParity 0).bytes a n) 1 := by
    simp only [State.hostLoad, h, Bool.false_eq_true, if_false, if_true, reduceCtorEq]
    simp [State.accessAll, b2n]
  rw [he]
  exact ⟨rfl, State.meshParity_flag _, ((s.accessAll_light (parts a n) false).trans (State.meshParity_light _ 0)).memSame⟩

end Reached

/-- A write that reaches what it may not is reported and writes nothing (R393). -/
theorem State.hostStore_refused (h : (parts a data.length).any (fun p => s.hostRefused p.1 p.2 true) = true) (w : Arrival) :
    s.hostStore a data ep w = (s.hostUnmapped (parts a data.length)).emit (.aer a) := by simp only [State.hostStore, h, if_true]

theorem State.hostStore_ok (h : (parts a data.length).any (fun p => s.hostRefused p.1 p.2 true) = false) :
    s.hostStore a data ep .ok = (s.accessAll (parts a data.length) true).landBytes a data ep [] := by
  have h2 : (Arrival.ok == .parity) = false := rfl
  simp only [State.hostStore, h, h2, Bool.or_false, Bool.false_eq_true, if_false, reduceCtorEq, false_and]
  rfl

theorem State.hostStore_parity (h : (parts a data.length).any (fun p => s.hostRefused p.1 p.2 true) = false) :
    s.hostStore a data ep .parity = ((s.accessAll (parts a data.length) true).meshParity 0).landBytes a data true [] := by
  simp only [State.hostStore, h, Bool.false_eq_true, if_false, if_true, reduceCtorEq, false_and]
  simp [State.accessAll]

/-- A write of memory, refused or not, leaves the events of the mesh that stand. -/
theorem State.hostStore_keeps (a : Nat) (data : List Byte) (ep : Bool) (i : Nat) (hi : i < 32)
    (hf : s.flag 0 ⟨0x9000C, i, i⟩ = true) : (s.hostStore a data ep .ok).flag 0 ⟨0x9000C, i, i⟩ = true := by
  cases h : (parts a data.length).any (fun p => s.hostRefused p.1 p.2 true)
  · rw [State.hostStore_ok h, State.flag_of_regs (State.landBytes_regs _ a data ep []), State.flag_of_regs (State.accessAll_regs _ true s), hf]
  · rw [State.hostStore_refused h, State.flag_of_regs (State.emit_regs _ _)]
    exact s.hostUnmapped_keeps _ i hi hf

end Memory

theorem State.fresh_regs (s : State) : s.fresh.2.regs = s.regs := rfl

theorem State.meshTimedOut_fresh (s : State) (g : Nat) : (s.meshTimedOut 0 g).fresh.2.flag 0 MSH_EVENT_TIMEOUT = true := by
  rw [State.flag_of_regs (State.fresh_regs _), State.meshTimedOut_flag]

/-- A read that the mesh does not answer completes with Completer Abort (R254). -/
theorem State.lost_read (s : State) (g : Nat) : let t := ((s.meshTimedOut 0 g).complete [] 2).settle
    t.rdData = [] ∧ t.rdStatus = 2 ∧ t.flag 0 MSH_EVENT_TIMEOUT = true ∧ MemSame s t := by
  have hregs : ∀ u : State, (u.complete [] 2).settle.regs = u.regs := fun _ => rfl
  have hmem : ∀ u : State, (u.complete [] 2).settle.mem = u.mem := fun _ => rfl
  refine ⟨rfl, rfl, ?_, fun b => ?_⟩
  · rw [State.flag_of_regs (hregs _), State.meshTimedOut_flag]
  · rw [State.byte_of_mem (hmem _)]
    exact (s.meshTimedOut_light 0 g).memSame b

theorem State.hostPut_mem {s : State} {bar off : Nat} {data : List Byte} {ep : Bool} {w : Arrival} (h : bar ≠ 0) :
    s.hostPut bar off data ep w = s.hostStore (s.barAddr bar off) data ep w := by simp only [State.hostPut, h, if_false]

/-- A write of a register of a die over BAR0, as it arrives (R391). -/
theorem State.hostPut_reg (s : State) (off : Nat) (data : List Byte) (w : Arrival) (ho : off < 0x2000000) (ha : off % 4 = 0)
    (hd : data.length = 4) : s.hostPut 0 off data false w = ((if w = .parity then s.meshParity 0 else s).carry none 0 (off / 0x400000) 4).writeReg
      .host (off / 0x400000) (off % 0x400000) (BitVec.ofNat 32 (leNat data)) := by
  have hb : ∀ t : State, t.bar0Die off = some (off / 0x400000, off % 0x400000) := fun t => by rw [State.bar0Die, if_pos ho]
  simp only [State.hostPut, hd, ha, Bool.not_false, and_self, if_true, State.bar0Write, hb]

/-- A poisoned write of a register is discarded. -/
theorem State.hostPut_poisoned (s : State) (off : Nat) (data : List Byte) : s.hostPut 0 off data true .ok = s := by
  simp [State.hostPut]

/-- Settles O45: each clause is a case of the host's read or write, by where it goes and what it meets on its way. -/
theorem hostAccesses : Obligations.HostAccesses := by
  unfold Obligations.HostAccesses
  intro s bar off n data ep w a d
  refine ⟨?closed, ?opens, ?served⟩
  case closed =>
    intro h
    rw [exec_hostRead, exec_hostWrite, execHostRead_off h, execHostWrite_off h]
    exact ⟨rfl, rfl⟩
  case opens =>
    intro hl hd hr
    simp [State.hostOn, hl, hd, hr]
  case served =>
    intro hon
    refine ⟨?cfgRead, ?cfgWrite, ?register, ?memory⟩
    case cfgRead =>
      rintro rfl hn hin
      rw [exec_hostRead, execHostRead_config hon hn (decide_eq_true hin)]
      exact yields_done ⟨rfl, rfl, s.cfgRead_noSoftReset⟩
    case cfgWrite =>
      rintro rfl hlen
      have hne : data ≠ [] := by rintro rfl; cases hlen
      have hput (hin : off + 4 ≤ 4096) : exec (.hostWrite 7 off data ⟨false, w⟩) s = done (s.cfgWrite off (leNat data)) :=
        execHostWrite_config hon hne (by rw [hlen]; exact decide_eq_true hin) rfl
      constructor
      · rintro rfl hlo hhi
        rw [hput (by decide)]
        exact yields_done (s.cfgWrite_size _ hlo hhi)
      · rintro rfl
        rw [hput (by decide)]
        exact yields_done (s.cfgWrite_mask _)
    case register =>
      rintro rfl ho ha
      have hin : s.inBar 0 off 4 = true := decide_eq_true (by simp only [if_true]; omega)
      have hput {e : Bool} {v : Arrival} (hlen : data.length = 4) (hv : v ≠ .busError) :
          exec (.hostWrite 0 off data ⟨e, v⟩) s = done (s.hostPut 0 off data e (if v = .parity ∧ s.hostCrosses 0 off = none then .ok else v)) :=
        execHostWrite_put hon (by rintro rfl; cases hlen) (by rw [hlen]; exact hin) (by decide) hv
      refine ⟨?read, ?write, ?discarded, ?far⟩
      case read =>
        rw [exec_hostRead, execHostRead_reg hon ho ha (by decide)]
        exact yields_done ⟨rfl, rfl⟩
      case write =>
        rintro hlen rfl
        rw [hput hlen (by decide), if_neg (by simp), s.hostPut_reg off data _ ho ha hlen, if_neg (by decide)]
        rfl
      case discarded =>
        rintro hlen rfl
        rw [hput hlen (by decide), if_neg (by simp), State.hostPut_poisoned]
        rfl
      case far =>
        intro hd
        have hx : s.hostCrosses 0 off ≠ none := s.hostCrosses_die off ho hd
        refine ⟨?_, ?_, ?_⟩
        · rw [exec_hostRead, execHostRead_lost hon (by decide) hin (by decide) (fun _ => ⟨rfl, ha⟩) hx]
          obtain ⟨hdata, hstatus, hflag, hmem⟩ := s.lost_read ((s.hostCrosses 0 off).getD 0)
          exact yields_done ⟨hstatus, hdata, hflag, hmem⟩
        · rw [exec_hostRead, execHostRead_reg hon ho ha (by decide), Option.isSome_iff_ne_none.2 hx]
          exact yields_done rfl
        · rintro hlen rfl
          rw [hput hlen (by decide), if_neg (fun k => hx k.2), s.hostPut_reg off data _ ho ha hlen, if_pos rfl]
          rfl
    case memory =>
      intro hbar hn hin
      have h7 : bar ≠ 7 := by omega
      have h0 : bar ≠ 0 := by omega
      have hread (v : Arrival) (hv : v ≠ .busError) : exec (.hostRead bar off ⟨n, v⟩) s =
          done (s.hostLoad a n (if v = .parity ∧ (s.hostCrosses bar off).isNone then .ok else v)) :=
        execHostRead_mem hon hn hin h7 h0 (fun k => absurd k hv)
      refine ⟨?reached, ?refused, ?unanswered, ?stored, ?reported, ?unsure⟩
      case reached =>
        intro hno
        refine ⟨?_, ?_, fun hx => ?_⟩
        · rw [hread .ok (by decide), if_neg (by simp)]
          exact yields_done (State.hostLoad_ok hno)
        · rw [hread .uncorrectable (by decide), if_neg (by simp)]
          exact yields_done (State.hostLoad_uncorrectable hno)
        · rw [hread .parity (by decide), if_neg (by simpa using hx)]
          exact yields_done (State.hostLoad_parity hno)
      case refused =>
        intro hyes
        rw [hread .ok (by decide)]
        exact yields_done (State.hostLoad_refused hyes _)
      case unanswered =>
        intro hx
        rw [exec_hostRead, execHostRead_lost hon hn hin h7 (fun k => absurd k h0) hx]
        exact yields_done (s.lost_read _)
      case stored =>
        rintro rfl hno
        have hne : data ≠ [] := List.ne_nil_of_length_pos hn
        have hu := s.accessAll_light (parts a data.length) true
        refine ⟨?_, fun hx => ?_⟩
        · rw [exec_hostWrite, execHostWrite_put hon hne hin h7 (by decide), if_neg (by simp), State.hostPut_mem h0, State.hostStore_ok hno]
          obtain ⟨hbytes, hbut, hpsn⟩ := State.landBytes_lands (s.accessAll (parts a data.length) true) a data ep [] hne
          exact yields_done ⟨hbytes, MemBut.after_same hu.memSame hbut, hpsn⟩
        · rw [exec_hostWrite, execHostWrite_put hon hne hin h7 (by decide), if_neg (fun k => hx k.2), State.hostPut_mem h0,
            State.hostStore_parity hno]
          obtain ⟨hbytes, hbut, hpsn⟩ := State.landBytes_lands ((s.accessAll (parts a data.length) true).meshParity 0) a data true [] hne
          refine yields_done ⟨hbytes, MemBut.after_same (hu.trans (State.meshParity_light _ 0)).memSame hbut, hpsn rfl, ?_⟩
          rw [State.settle_flag, State.flag_of_regs (State.landBytes_regs _ a data true []), State.meshParity_flag]
      case reported =>
        rintro rfl hyes
        have hne : data ≠ [] := List.ne_nil_of_length_pos hn
        rw [exec_hostWrite, execHostWrite_put hon hne hin h7 (by decide), if_neg (by simp), State.hostPut_mem h0,
          State.hostStore_refused hyes]
        have hl := s.hostUnmapped_light (parts a data.length)
        have hmem : MemSame s ((s.hostUnmapped (parts a data.length)).emit (.aer a)).settle := fun b => by
          rw [State.settle_byte, State.byte_of_mem (State.emit_mem _ _), hl.memSame b]
        have hcores : ((s.hostUnmapped (parts a data.length)).emit (.aer a)).settle.cores = s.cores := by
          rw [State.settle_cores, State.emit_cores, hl.cores]
        have hout : ((s.hostUnmapped (parts a data.length)).emit (.aer a)).settle.out = s.out ++ [.aer a] :=
          congrArg (· ++ [Out.aer a]) (hl.same State.out (fun _ _ _ _ => rfl))
        exact yields_done ⟨hmem, hcores, hout⟩
      case unsure =>
        rintro rfl hx
        have hne : data ≠ [] := List.ne_nil_of_length_pos hn
        rw [exec_hostWrite]
        obtain ⟨g, hg | hg⟩ := execHostWrite_lost (ep := ep) hon hne hin h7 hx
        · rw [hg]
          refine yields_done ?_
          rw [State.settle_flag]
          exact s.meshTimedOut_fresh g
        · rw [hg, State.hostPut_mem h0]
          refine yields_done ?_
          rw [State.settle_flag]
          exact State.hostStore_keeps _ data ep 2 (by decide) (s.meshTimedOut_fresh g)

end Sys2Proof.Machine
end

section
/-! State registers: what they read, who may name them, and what a write of one leaves (R153). -/

namespace Sys2Proof.Machine

-- single steps: no write of a state register begins or ends one (R343)

/-- Whether a thread is to stop after one bundle. -/
def State.stepBit (s : State) (k : Nat) (j : Fin 4) : Bool := (s.thr k j).stepping

theorem State.stepBit_of_cores {s t : State} (h : t.cores = s.cores) (k : Nat) (j : Fin 4) : t.stepBit k j = s.stepBit k j := by
  rw [State.stepBit, State.stepBit, State.thr_of_cores h]

theorem State.stepBit_modCore (s : State) (site k : Nat) (j : Fin 4) (f : Core → Core)
    (hf : ∀ c : Core, ((f c).th[j]).stepping = (c.th[j]).stepping) : (s.modCore site f).stepBit k j = s.stepBit k j := by
  by_cases hk : k = site
  · subst hk
    rw [State.stepBit, State.thr, State.core_modCore, hf]; rfl
  · rw [State.stepBit, State.thr, State.core_modCore_ne s hk]; rfl

theorem State.stepBit_modThr (s : State) (site k : Nat) (t j : Fin 4) (f : Thread → Thread)
    (hf : ∀ x : Thread, (f x).stepping = x.stepping) : (s.modThr site t f).stepBit k j = s.stepBit k j := by
  by_cases hk : k = site
  · subst hk
    by_cases hj : j = t
    · subst hj
      rw [State.stepBit, State.thr_modThr, hf]; rfl
    · rw [State.stepBit, State.thr_modThr_other s k hj]; rfl
  · rw [State.stepBit, State.thr_modThr_ne s hk]; rfl

section StepBit
variable (s : State) (site k : Nat) (t j : Fin 4)

@[simp] theorem State.stepBit_setCfld (c : Nat) (f : RF) (v : Nat) : (s.setCfld c f v).stepBit k j = s.stepBit k j :=
  State.stepBit_of_cores (State.setCfld_cores s c f v) k j
@[simp] theorem State.stepBit_setRg (a v : Nat) : (s.setRg a v).stepBit k j = s.stepBit k j :=
  State.stepBit_of_cores (State.setRg_cores s a v) k j
@[simp] theorem State.stepBit_setBytes (a : Nat) (l : List Byte) : (s.setBytes a l).stepBit k j = s.stepBit k j :=
  State.stepBit_of_cores (State.setBytes_cores s a l) k j
@[simp] theorem State.stepBit_violation (d : Nat) : (s.violation d).stepBit k j = s.stepBit k j :=
  State.stepBit_of_cores (s.violation_light d).cores k j
@[simp] theorem State.stepBit_ctrlErr : (s.ctrlErr site).stepBit k j = s.stepBit k j := State.stepBit_setCfld s k j site _ 1
@[simp] theorem State.stepBit_ctxErr : (s.ctxErr site).stepBit k j = s.stepBit k j := State.stepBit_setCfld s k j site _ 1

@[simp] theorem State.stepBit_setCtx (c : Nat) : (s.setCtx site t c).stepBit k j = s.stepBit k j := by
  rw [State.setCtx, State.stepBit_setCfld]
  exact s.stepBit_modThr site k t j _ (fun _ => rfl)

@[simp] theorem State.stepBit_setSsDepth (d : Nat) : (s.setSsDepth site t d).stepBit k j = s.stepBit k j := by
  unfold State.setSsDepth
  split
  · rfl
  · exact s.stepBit_modThr site k t j _ (fun _ => rfl)

@[simp] theorem State.stepBit_setSsEntry (n v : Nat) : (s.setSsEntry site t n v).stepBit k j = s.stepBit k j := by
  unfold State.setSsEntry
  dsimp only
  split
  · rfl
  · split
    · exact s.stepBit_setBytes k j _ _
    · exact s.stepBit_modThr site k t j _ (fun _ => rfl)

-- circular regions and queues

@[simp] theorem State.stepBit_crEmpty (n : Nat) : (s.crEmpty site n).stepBit k j = s.stepBit k j := by
  simp only [State.crEmpty, State.stepBit_setCfld]

@[simp] theorem State.stepBit_setRing (n : Nat) (r : Ring) : (s.setRing site n r).stepBit k j = s.stepBit k j := by
  simp only [State.setRing, State.stepBit_setCfld]

@[simp] theorem State.stepBit_crOp (n v : Nat) : (s.crOp site n v).stepBit k j = s.stepBit k j := by
  simp only [State.crOp, State.crRelease, State.crClaim, apply_ite (fun u : State => u.stepBit k j), State.stepBit_setRing, ite_self]

@[simp] theorem State.stepBit_crCfgWrite (n v : Nat) : (s.crCfgWrite site n v).stepBit k j = s.stepBit k j := by
  simp only [State.crCfgWrite, apply_ite (fun u : State => u.stepBit k j), State.stepBit_ctrlErr, State.stepBit_setRg,
    State.stepBit_crEmpty, ite_self]

@[simp] theorem State.stepBit_qClear (q : Nat) : (s.qClear site q).stepBit k j = s.stepBit k j := by
  unfold State.qClear
  dsimp only
  rw [State.stepBit_modCore]
  · split <;> simp only [State.stepBit_setCfld, State.stepBit_crEmpty]
  · exact fun _ => rfl

@[simp] theorem State.stepBit_qDiscard (q n : Nat) : (s.qDiscard site q n).stepBit k j = s.stepBit k j :=
  State.stepBit_setCfld s k j site _ _

@[simp] theorem State.stepBit_dropRound (q : Nat) : (s.dropRound site q).stepBit k j = s.stepBit k j := by
  unfold State.dropRound
  split
  · rw [State.stepBit_modCore]
    · simp only [State.stepBit_setCfld, State.stepBit_qDiscard]
    · exact fun _ => rfl
  · rfl

@[simp] theorem State.stepBit_qDropAll (q : Nat) : (s.qDropAll site q).stepBit k j = s.stepBit k j := by
  simp only [State.qDropAll, State.stepBit_qClear, State.stepBit_dropRound, State.stepBit_qDiscard]

@[simp] theorem State.stepBit_qqCfgWrite (q v : Nat) : (s.qqCfgWrite site q v).stepBit k j = s.stepBit k j := by
  simp only [State.qqCfgWrite, apply_ite (fun u : State => u.stepBit k j), State.stepBit_ctrlErr, State.stepBit_setRg,
    State.stepBit_qClear, State.stepBit_qDropAll, ite_self]

@[simp] theorem State.stepBit_cqCfgWrite (v : Nat) : (s.cqCfgWrite site v).stepBit k j = s.stepBit k j := by
  simp only [State.cqCfgWrite, apply_ite (fun u : State => u.stepBit k j), State.stepBit_setRg, ite_self]

-- the data cache

@[simp] theorem State.stepBit_dropAll : (s.dropAll site).stepBit k j = s.stepBit k j := by
  unfold State.dropAll
  dsimp only
  rw [State.stepBit_modCore _ site k j _ (fun c => by simp)]
  exact State.stepBit_of_cores rfl k j

theorem State.stepBit_threadWrite (loc : Nat) (data : List Byte) (psn back : Bool) :
    (s.threadWrite site t loc data psn back).stepBit k j = s.stepBit k j := by
  unfold State.threadWrite
  dsimp only
  rw [State.stepBit_modThr]
  · exact State.stepBit_of_cores rfl k j
  · exact fun _ => rfl

theorem State.stepBit_cleanLine (l : Line) : (s.cleanLine site t l).stepBit k j = s.stepBit k j := by
  unfold State.cleanLine
  split
  · dsimp only
    rw [State.stepBit_modCore]
    · rw [State.stepBit_threadWrite]
    · exact fun _ => rfl
  · rfl

@[simp] theorem State.stepBit_cleanAll : (s.cleanAll site t).stepBit k j = s.stepBit k j := by
  unfold State.cleanAll
  generalize (s.core site).lines = l
  induction l generalizing s with
  | nil => rfl
  | cons a l ih => rw [List.foldl_cons, ih, State.stepBit_cleanLine]

@[simp] theorem State.stepBit_dcCtlWrite (v : Nat) : (s.dcCtlWrite site t v).stepBit k j = s.stepBit k j := by
  simp only [State.dcCtlWrite, apply_ite (fun u : State => u.stepBit k j), State.stepBit_setCfld, State.stepBit_cleanAll,
    State.stepBit_dropAll, ite_self]

end StepBit

@[simp] theorem Thread.setGen_stepping (x : Thread) (i : Nat) (g : Word) : (x.setGen i g).stepping = x.stepping := rfl
@[simp] theorem Thread.seedAdvance_stepping (x : Thread) : x.seedAdvance.stepping = x.stepping := by
  unfold Thread.seedAdvance
  dsimp only
  split <;> rfl

/-- No write of a state register begins or ends a single step. -/
theorem State.stepBit_stWrite (s : State) (site k n v : Nat) (t j : Fin 4) (zero l2 own : Bool) :
    (s.stWrite site t n v zero l2 own).stepBit k j = s.stepBit k j := by
  have hthr := s.stepBit_modThr site k t j
  have hcore := s.stepBit_modCore site k j
  have hwake : (s.modThr site t (fun x => x.wakeWrite s.cyc v own)).stepBit k j = s.stepBit k j := hthr _ (fun _ => rfl)
  unfold State.stWrite
  simp only [apply_ite (fun u : State => u.stepBit k j), State.stepBit_setCfld, State.stepBit_setRg, State.stepBit_setCtx,
    State.stepBit_ctxErr, State.stepBit_setSsDepth, State.stepBit_setSsEntry, State.stepBit_crCfgWrite, State.stepBit_crOp,
    State.stepBit_qqCfgWrite, State.stepBit_cqCfgWrite, State.stepBit_dcCtlWrite, hthr, hcore, hwake,
    Thread.setGen_stepping, Thread.seedAdvance_stepping, implies_true, ite_self]

theorem State.stepBit_mts (s : State) (site k n v : Nat) (t u j : Fin 4) : (s.mts site t u n v).stepBit k j = s.stepBit k j := by
  simp only [State.mts, apply_ite (fun u : State => u.stepBit k j), State.stepBit_stWrite, State.stepBit_violation, ite_self]


-- what the access operations ask for

/-- A system operation comes to what its body plans (R150). -/
theorem system_asks {s : State} {op : State → Op} {i : Iss} {acc : Accepts} {regs : List Nat} {p : Plan} (dst : List Nat)
    (body : Thread → Pre → Plan) (h : Lone s i acc regs) (ho : op s = s.system i acc regs dst body)
    (hb : body (s.thr i.site i.th) (Iss.pre i) = p) : Asks s op i .S acc regs p := by
  rw [State.system] at ho
  exact Asks.of dst _ h ho hb

/-- An access to a state register whose number and prefixes are admitted comes to what its body plans (R153). -/
theorem stPlan_asks {s : State} {op : State → Op} {i : Iss} {a b : BitVec 3} {width n : Nat} {u : Fin 4} {regs : List Nat} {p : Plan}
    (dst : List Nat) (body : Thread → Fin 16 → Nat → Fin 4 → Plan) (h : Lone s i acceptsNum regs)
    (ho : op s = s.stPlan i a b width regs dst body) (hsys : (Iss.pre i).sys false = true)
    (heven : (width == 64 && (regA i a).val % 2 != 0) = false)
    (hn : stNumber i.th ((Iss.pre i).immU b.toNat 3) width = .ok (n, u)) (hb : body (s.thr i.site i.th) (regA i a) n u = p) :
    Asks s op i .S acceptsNum regs p := by
  rw [State.stPlan] at ho
  refine system_asks dst _ h ho ?_
  show (if !(Iss.pre i).sys false || (width == 64 && (regA i a).val % 2 != 0) then _ else _) = p
  rw [hsys, heven, hn]
  exact hb

/-- The register that an access names is the one its bundle writes (R123). -/
theorem stDst_ok {i : Iss} {b : BitVec 3} {width n : Nat} {u : Fin 4}
    (hn : stNumber i.th ((Iss.pre i).immU b.toNat 3) width = .ok (n, u)) : stDst i b width = [64 + 4 * n + u.val] := by
  rw [stDst, hn]

-- MFS

/-- A write of a scalar register and a step of num.sidx, as one change of the block (R153, R210). -/
theorem runs_readStep {s : State} {op : State → Op} {i : Iss} {regs : List Nat} {r : Fin 16} {w : Word} {u : Fin 4}
    (q : Asks s op i .S acceptsNum regs (.ok [.s r w, .seedStep u])) (n : Instr) :
    Runs s (done (s.issue n op)) i none [] (fun t => (t.on i (Thread.putS r w)).modThr i.site u Thread.seedAdvance) := by
  refine runs_plain q n _ rfl rfl (fun _ => rfl) rfl ?_
  have h := State.stepBit_modThr ((s.opens i).on i (Thread.putS r w)) i.site i.site u i.th _ Thread.seedAdvance_stepping
  rw [State.stepBit, State.stepBit, State.thr_on, Thread.putS_stepping] at h
  exact h.trans q.1.opened

/-- Two register effects are one change of the thread. -/
theorem local_pair (site : Nat) (t : Fin 4) (r : Fin 16) (v w : Word) :
    Local [.s r v, .s (r + 1) w] site t (fun y => (y.putS r v).putS (r + 1) w) := by
  have h : ∀ s : State, effectsOf [.s r v, .s (r + 1) w] site t s =
      (s.modThr site t (Thread.putS r v)).modThr site t (Thread.putS (r + 1) w) := fun _ => rfl
  intro s
  refine ⟨?_, ?_, rfl⟩
  · rw [h]
    exact (State.modThr_only s site t _).trans (State.modThr_only _ site t _)
  · rw [h, State.core_modThr, State.core_modThr]
    simp

/-- Two scalar registers written, the second above the first. -/
theorem retires_pair {s : State} {op : State → Op} {i : Iss} {slot : Slot} {acc : Accepts} {regs : List Nat} {r : Fin 16} {v w : Word}
    (q : Asks s op i slot acc regs (.ok [.s r v, .s (r + 1) w])) (n : Instr) (hr : r.val % 2 = 0) :
    Retires s (done (s.issue n op)) i none (fun y => (y.putS r v).putS (r + 1) w) := by
  have hne : ∀ r : Fin 16, r.val % 2 = 0 → hasDup [r.val, (r + 1).val] = false := by decide
  exact retires_local q n _ rfl (hne r hr) (local_pair i.site i.th r v w) (fun _ => rfl)

-- MTS

/-- The loop registers that the write of a state register of a thread leaves to it (R139). -/
def ownOf (t u : Fin 4) (n : Nat) : List Nat := if u = t then [n] else []

theorem writesLoop_streg (t u : Fin 4) (n m : Nat) (w : BitVec 64) : writesLoop t [.streg n u w] m = (ownOf t u n).contains m := by
  unfold writesLoop ownOf
  by_cases h : u = t
  · rw [if_pos h, h, Bool.eq_iff_iff]; simp [eq_comm (a := m)]
  · simp [h]

/-- The write of a state register retires, a data-cache command's writes held for (R153, R246). -/
theorem runs_streg {s : State} {op : State → Op} {i : Iss} {regs : List Nat} {n : Nat} {u : Fin 4} {w : BitVec 64}
    (q : Asks s op i .S acceptsNum regs (.ok [.streg n u w])) (c : Instr) (f : State → State)
    (hf : (s.opens i).apply i.site i.th (.streg n u w) = f (s.opens i)) :
    Runs s (done (s.issue c op)) i none (ownOf i.th u n) f := by
  refine runs_of q c [.streg n u w] f _ rfl rfl rfl rfl rfl rfl rfl (writesLoop_streg i.th u n · w) (fun _ => rfl) hf ?_
  have h : (f (s.opens i)).stepBit i.site i.th = (s.opens i).stepBit i.site i.th := by
    rw [← hf, State.apply]
    split
    · rw [State.stepBit_modThr, State.stepBit_mts]
      exact fun _ => rfl
    · exact State.stepBit_mts ..
  exact h.trans q.1.opened

theorem runs_streg_plain {s : State} {op : State → Op} {i : Iss} {regs : List Nat} {n : Nat} {u : Fin 4} {w : BitVec 64}
    (q : Asks s op i .S acceptsNum regs (.ok [.streg n u w])) (c : Instr) (hn : n ≠ 0x084) :
    Runs s (done (s.issue c op)) i none (ownOf i.th u n) (fun t => t.mts i.site i.th u n w.toNat) :=
  runs_streg q c _ (by simp only [State.apply, if_neg hn])

/-- A pair of scalar registers as a number. -/
theorem Thread.pair_toNat (x : Thread) (r : Fin 16) : (x.pair r).toNat = (x.sreg (r + 1)).toNat * 2 ^ 32 + (x.sreg r).toNat := by
  rw [Thread.pair, BitVec.toNat_append, ← Nat.shiftLeft_add_eq_or_of_lt (x.sreg r).isLt, Nat.shiftLeft_eq]

-- the numbers of state registers

/-- A number that names no register of the width is an illegal operand (R153). -/
theorem stNumber_none (t : Fin 4) (n w : Nat) (h : 4096 ≤ n ∨ stWidth (n % 512) ≠ some w) : stNumber t n w = .error illegalOperand := by
  unfold stNumber
  by_cases hn : 4096 ≤ n
  · rw [if_pos hn]
  · rw [if_neg hn, if_pos (h.resolve_left hn)]

/-- Whom a number of a register of the width names (R153). -/
theorem stNumber_some (t : Fin 4) (n w : Nat) (hn : n < 4096) (hw : stWidth (n % 512) = some w) : stNumber t n w =
    if stCore32 (n % 512) || n % 512 == 0 then .ok (n % 512, t)
    else if bitOf n 11 && t != 0 && bitsOf n 9 2 != t.val then .error ⟨0x03, n, 0, false, none⟩
    else .ok (n % 512, if bitOf n 11 then Fin.ofNat 4 (bitsOf n 9 2) else t) := by
  unfold stNumber
  rw [if_neg (by omega), if_neg (not_not.2 hw)]

/-- A number that names a register names one of the width. -/
theorem stNumber_width {t u : Fin 4} {k n w : Nat} (h : stNumber t k w = .ok (n, u)) : stWidth n = some w := by
  have hk : ¬ (4096 ≤ k ∨ stWidth (k % 512) ≠ some w) := fun hk => by rw [stNumber_none t k w hk] at h; cases h
  obtain ⟨hk, hw⟩ := not_or.1 hk
  rw [not_not] at hw
  rw [stNumber_some t k w (by omega) hw] at h
  have hn : k % 512 = n := by
    split_ifs at h <;> exact (Prod.mk.inj (Except.ok.inj h)).1
  rw [← hn, hw]

/-- Bits 9 and 10, and bit 11, of a register's number (R153). -/
theorem bitsOf_nine (n : Nat) : bitsOf n 9 2 = n / 512 % 4 := by rw [bitsOf, Nat.shiftRight_eq_div_pow]; rfl
theorem bitOf_eleven (n : Nat) : bitOf n 11 = decide (n / 2048 % 2 = 1) := by
  rw [bitOf, Nat.shiftRight_eq_div_pow]; rfl

/-- A thread's own register, by the number without its thread or with it, and another thread's (R153). -/
theorem stNumber_thread (t : Fin 4) (n w : Nat) (hn : n < 4096) (hw : stWidth (n % 512) = some w) (hc : stCore32 (n % 512) = false)
    (h0 : n % 512 ≠ 0) :
    (n / 2048 % 2 = 0 → stNumber t n w = .ok (n % 512, t)) ∧
    (n / 2048 % 2 = 1 → (t = 0 ∨ n / 512 % 4 = t.val) → stNumber t n w = .ok (n % 512, Fin.ofNat 4 (n / 512 % 4))) ∧
    (n / 2048 % 2 = 1 → t ≠ 0 → n / 512 % 4 ≠ t.val → stNumber t n w = .error ⟨0x03, n, 0, false, none⟩) := by
  rw [stNumber_some t n w hn hw, hc, bitOf_eleven, bitsOf_nine]
  refine ⟨fun h => ?_, fun h hu => ?_, fun h ht hu => ?_⟩
  · simp [h, h0]
  · have hu : (t != 0 && n / 512 % 4 != t.val) = false := by
      rcases hu with rfl | hu
      · rfl
      · simp [hu]
    rw [Bool.and_assoc, hu]
    simp [h, h0]
  · simp [h, h0, ht, hu]

-- what MFS, MFS.D, MTS and MTS.D do

section Access
variable {s : State} {i : Iss} {a b : BitVec 3} {n : Nat} {u : Fin 4} (hsys : (Iss.pre i).sys false = true)
include hsys

section Single
variable (h : Lone s i acceptsNum [(regA i a).val]) (hn : stNumber i.th ((Iss.pre i).immU b.toNat 3) 32 = .ok (n, u))
include h hn

theorem asks_mfs : Asks s (opMfs i a b) i .S acceptsNum [(regA i a).val]
    (.ok (.s (regA i a) (BitVec.ofNat 32 (s.stRead i.site u n)) :: seedEff n u)) :=
  stPlan_asks _ _ h rfl hsys rfl hn rfl

theorem mfs_retires (hs : n ≠ 0x025) :
    Retires s (exec (.mfs i a b) s) i none (Thread.putS (regA i a) (BitVec.ofNat 32 (s.stRead i.site u n))) := by
  have q := asks_mfs hsys h hn
  rw [seedEff, if_neg hs] at q
  exact retires_local q _ _ rfl rfl (local_s i.site i.th _ _) (fun _ => rfl)

theorem mfs_steps (hs : n = 0x025) : Runs s (exec (.mfs i a b) s) i none [] (fun t =>
    (t.on i (Thread.putS (regA i a) (BitVec.ofNat 32 (s.stRead i.site u n)))).modThr i.site u Thread.seedAdvance) := by
  have q := asks_mfs hsys h hn
  rw [seedEff, if_pos hs] at q
  exact runs_readStep q _

theorem mts_faults {f : Flt} (hf : s.stWriteFault i.site i.th n ((s.thr i.site i.th).sreg (regA i a)).toNat = some f) :
    Faults s (exec (.mts i a b) s) i .S f := by
  have q : Asks s (opMts i a b) i .S acceptsNum [(regA i a).val] (.bad f) := stPlan_asks _ _ h rfl hsys rfl hn (by rw [hf])
  refine faults_of q _ ?_
  show hasDup (stDst i b 32) = false
  rw [stDst_ok hn]; rfl

theorem asks_mts (hf : s.stWriteFault i.site i.th n ((s.thr i.site i.th).sreg (regA i a)).toNat = none) :
    Asks s (opMts i a b) i .S acceptsNum [(regA i a).val]
      (.ok [.streg n u (((s.thr i.site i.th).sreg (regA i a)).setWidth 64)]) :=
  stPlan_asks _ _ h rfl hsys rfl hn (by rw [hf])

end Single

section Double
variable (h : Lone s i acceptsNum [(regA i a).val, (regA i a).val + 1]) (he : (regA i a).val % 2 = 0)
  (hn : stNumber i.th ((Iss.pre i).immU b.toNat 3) 64 = .ok (n, u))
include h he hn

theorem mfsD_retires : Retires s (exec (.mfsD i a b) s) i none (fun y =>
    (y.putS (regA i a) (BitVec.ofNat 32 (s.stRead i.site u n))).putS (regA i a + 1)
      (BitVec.ofNat 32 (s.stRead i.site u n / 2 ^ 32))) := by
  have q : Asks s (opMfsD i a b) i .S acceptsNum [(regA i a).val, (regA i a).val + 1] _ :=
    stPlan_asks _ _ h rfl hsys (by rw [he]; rfl) hn rfl
  exact retires_pair q _ he

theorem mtsD_runs : Runs s (exec (.mtsD i a b) s) i none (ownOf i.th u n) (fun t => t.mts i.site i.th u n
    (((s.thr i.site i.th).sreg (regA i a + 1)).toNat * 2 ^ 32 + ((s.thr i.site i.th).sreg (regA i a)).toNat)) := by
  have q : Asks s (opMtsD i a b) i .S acceptsNum [(regA i a).val, (regA i a).val + 1]
      (.ok [.streg n u ((s.thr i.site i.th).pair (regA i a))]) := stPlan_asks _ _ h rfl hsys (by rw [he]; rfl) hn rfl
  have hc : n ≠ 0x084 := by
    rintro rfl
    exact absurd (stNumber_width hn) (by decide)
  have r := runs_streg_plain q (.mtsD i a b) hc
  rw [Thread.pair_toNat] at r
  exact r

end Double
end Access

-- what MTB and MFB do

section Bank
variable {s : State} {i : Iss} {a b : BitVec 3} (h : Lone s i acceptsReg [(regA i a).val, (regA i a).val + 1])
  (hsys : (Iss.pre i).sys false = true) (he : (regA i a).val % 2 = 0)
include h hsys he

/-- What MTB plans for a bank but bank 0 (R101, R102). -/
theorem asks_mtb (hb : b ≠ 0) : Asks s (opMtb i a b) i .S acceptsReg [(regA i a).val, (regA i a).val + 1]
    (if !s.bankOverlaps (s.thr i.site i.th).ctx (((s.thr i.site i.th).pair (regA i a)).toNat / 2 ^ 29) then .bad ⟨0x07, b.toNat, 0, false, none⟩
     else .ok [.bank (Fin.ofNat 8 b.toNat) (BitVec.ofNat 64 (((s.thr i.site i.th).pair (regA i a)).toNat / 2 ^ 29 * 2 ^ 29 + 1))]) := by
  have hg : ¬ (!(Iss.pre i).sys false || (regA i a).val % 2 != 0 || b == 0) = true := by
    simpa [hsys, he] using hb
  exact system_asks _ _ h rfl (if_neg hg)

theorem mtb_faults (hb : b ≠ 0)
    (ho : s.bankOverlaps (s.thr i.site i.th).ctx (((s.thr i.site i.th).pair (regA i a)).toNat / 2 ^ 29) = false) :
    Faults s (exec (.mtb i a b) s) i .S ⟨0x07, b.toNat, 0, false, none⟩ := by
  have q := asks_mtb h hsys he hb
  rw [ho] at q
  exact faults_of q _ rfl

theorem mtb_retires (hb : b ≠ 0)
    (ho : s.bankOverlaps (s.thr i.site i.th).ctx (((s.thr i.site i.th).pair (regA i a)).toNat / 2 ^ 29) = true) :
    Retires s (exec (.mtb i a b) s) i none (fun y => { y with
      bk := y.bk.set (Fin.ofNat 8 b.toNat) (BitVec.ofNat 64 (((s.thr i.site i.th).pair (regA i a)).toNat / 2 ^ 29 * 2 ^ 29 + 1)) }) := by
  have q := asks_mtb h hsys he hb
  rw [ho] at q
  exact retires_local q _ _ rfl rfl (local_modThr _ _ _ _ (fun _ => rfl) (fun _ => rfl)) (fun _ => rfl)

theorem mfb_retires : Retires s (exec (.mfb i a b) s) i none (fun y =>
    (y.putS (regA i a) (BitVec.ofNat 32 (if b = 0 then 0 else ((s.thr i.site i.th).bk[Fin.ofNat 8 b.toNat]).toNat))).putS (regA i a + 1)
      (BitVec.ofNat 32 ((if b = 0 then 0 else ((s.thr i.site i.th).bk[Fin.ofNat 8 b.toNat]).toNat) / 2 ^ 32))) := by
  have hg : ¬ (!(Iss.pre i).sys false || (regA i a).val % 2 != 0) = true := by simp [hsys, he]
  have q : Asks s (opMfb i a b) i .S acceptsReg [(regA i a).val, (regA i a).val + 1] _ :=
    system_asks _ _ h rfl (if_neg hg)
  exact retires_pair q _ he

end Bank


-- whom a write of a state register heeds (R12, R89)

section Mts
variable (s : State) (site : Nat) (t u : Fin 4) (n v : Nat)

/-- What MTS on thread t would put into thread u's register n. -/
def State.mtsPut : State :=
  s.stWrite site u n v (decide (t = 0)) (decide (u = t) && (s.thr site t).level == .l2) (decide (u = t))

/-- An expert's write is made. -/
theorem State.mts_expert (h : s.expert (.thread site t) = true) : s.mts site t u n v = s.mtsPut site t u n v := by
  rw [State.mts, State.mtsPut, if_pos h]

/-- A register without E fields is written by anyone. -/
theorem State.mts_plain (h : s.expert (.thread site t) = false) (he : stExpert n = false) (hn : n ≠ 0x046) :
    s.mts site t u n v = s.mtsPut site t u n v := by
  rw [State.mts, State.mtsPut, if_neg (by simp [h]), if_neg (by simp [he]), if_neg (fun k => hn k.1)]

/-- Another context's write of an E register is a violation where it would have changed it, and nothing where not. -/
theorem State.mts_barred (h : s.expert (.thread site t) = false) (he : stExpert n = true) :
    s.mts site t u n v = if s.stMoves (s.mtsPut site t u n v) site u n v then s.violation (dieOf site) else s := by
  rw [State.mts, State.mtsPut, if_neg (by simp [h]), if_pos he]

end Mts

/-- An MTS to dc.ctl retires and holds the next bundle for the writes that it sends (R153, R246). -/
theorem mts_holds {s : State} {i : Iss} {a b : BitVec 3} {n : Nat} {u : Fin 4} (hsys : (Iss.pre i).sys false = true)
    (h : Lone s i acceptsNum [(regA i a).val]) (hn : stNumber i.th ((Iss.pre i).immU b.toNat 3) 32 = .ok (n, u))
    (hf : s.stWriteFault i.site i.th n ((s.thr i.site i.th).sreg (regA i a)).toNat = none) (hc : n = 0x084) :
    Runs s (exec (.mts i a b) s) i none (ownOf i.th u n) (fun t =>
      let w := t.mts i.site i.th u n ((s.thr i.site i.th).sreg (regA i a)).toNat
      w.on i (fun y => { y with hold := (List.range (w.nextCmd - s.nextCmd)).map (fun k => s.nextCmd + k) })) := by
  refine runs_streg (asks_mts hsys h hn hf) _ _ ?_
  rw [State.apply, if_pos hc, BitVec.toNat_setWidth_of_le (by decide)]
  rfl

/-- An MTS to any other register retires (R153). -/
theorem mts_runs {s : State} {i : Iss} {a b : BitVec 3} {n : Nat} {u : Fin 4} (hsys : (Iss.pre i).sys false = true)
    (h : Lone s i acceptsNum [(regA i a).val]) (hn : stNumber i.th ((Iss.pre i).immU b.toNat 3) 32 = .ok (n, u))
    (hf : s.stWriteFault i.site i.th n ((s.thr i.site i.th).sreg (regA i a)).toNat = none) (hc : n ≠ 0x084) :
    Runs s (exec (.mts i a b) s) i none (ownOf i.th u n) (fun t =>
      t.mts i.site i.th u n ((s.thr i.site i.th).sreg (regA i a)).toNat) := by
  have r := runs_streg_plain (asks_mts hsys h hn hf) (.mts i a b) hc
  rw [BitVec.toNat_setWidth_of_le (by decide)] at r
  exact r


-- what a thread's own registers read, and how a change of the thread shows in them (R153)

/-- The tables of tiles and accumulators are read by their places (R186). -/
theorem State.stRead_tile (s : State) (site : Nat) (t : Fin 4) (k : Fin 8) :
    s.stRead site t (0x108 + k.val) = ((s.core site).tiles[k]).cfg.toNat ∧
    s.stRead site t (0x110 + k.val) = ((s.core site).tiles[k]).psn.toNat := by
  fin_cases k <;> exact ⟨rfl, rfl⟩

theorem State.stRead_acc (s : State) (site : Nat) (t : Fin 4) (k : Fin 2) :
    s.stRead site t (0x118 + k.val) = ((s.core site).acc[k]).cfg.toNat := by
  fin_cases k <;> rfl

/-- What the register m of a thread reads, of those that its fields alone give; 0 for any other. -/
def Thread.reg (x : Thread) (m : Nat) : Nat :=
  if m = 0x010 then x.ctx
  else if m = 0x011 then x.slice.toNat
  else if m = 0x012 then x.spill.toNat
  else if m = 0x014 then x.cmp.toNat
  else if m = 0x016 then x.wake.toNat
  else if m = 0x017 then x.mwait.toNat
  else if m = 0x020 then x.numSat.toNat
  else if m = 0x021 then x.numFlush.toNat
  else if m = 0x022 then x.numNan.toNat
  else if m = 0x023 then x.numCtl.toNat
  else if m = 0x024 then x.numSidx.toNat
  else if m = 0x025 then (x.gen (bitsOf x.numSidx.toNat 0 6)).toNat
  else if m = 0x030 then x.lc0.toNat
  else if m = 0x031 then x.lc1.toNat
  else if m = 0x032 then x.lp0beg.toNat
  else if m = 0x033 then x.lp0end.toNat
  else if m = 0x034 then x.lp1beg.toNat
  else if m = 0x035 then x.lp1end.toNat
  else if m = 0x036 then x.lpctl.toNat
  else if m = 0x038 then x.ssDepth
  else if m = 0x039 then x.ssIdx
  else if m = 0x040 then x.sv1.pc.toNat
  else if m = 0x041 then x.sv1.st.toNat
  else if m = 0x042 then x.sv1.cause.toNat
  else if m = 0x043 then x.sv1.addr.toNat
  else if m = 0x044 then x.sv1.prog.toNat
  else if m = 0x045 then x.sv1.scr.toNat
  else if m = 0x048 then x.sv2.pc.toNat
  else if m = 0x049 then x.sv2.st.toNat
  else if m = 0x04A then x.sv2.cause.toNat
  else if m = 0x04B then x.sv2.addr.toNat
  else if m = 0x04C then x.sv2.prog.toNat
  else if m = 0x04D then x.sv2.scr.toNat
  else if m = 0x0B0 then x.syncCtl.toNat
  else if m = 0x0B1 then x.cueArm.toNat
  else if m = 0x0B2 then x.staging.length
  else if m = 0x100 then x.prog.toNat
  else 0

/-- The numbers of these registers. -/
def ownRegs : List Nat := [0x010, 0x011, 0x012, 0x014, 0x016, 0x017, 0x020, 0x021, 0x022, 0x023, 0x024, 0x025, 0x030, 0x031, 0x032,
  0x033, 0x034, 0x035, 0x036, 0x038, 0x039, 0x040, 0x041, 0x042, 0x043, 0x044, 0x045, 0x048, 0x049, 0x04A, 0x04B, 0x04C, 0x04D, 0x0B0,
  0x0B1, 0x0B2, 0x100]

theorem State.stRead_reg (s : State) (site : Nat) (t : Fin 4) :
    ∀ m ∈ ownRegs, s.stRead site t m = (s.thr site t).reg m := by
  unfold ownRegs
  simp only [List.forall_mem_cons]
  exact ⟨rfl, rfl, rfl, rfl, rfl, rfl, rfl, rfl, rfl, rfl, rfl, rfl, rfl, rfl, rfl, rfl, rfl, rfl, rfl, rfl, rfl, rfl, rfl, rfl, rfl, rfl,
    rfl, rfl, rfl, rfl, rfl, rfl, rfl, rfl, rfl, rfl, rfl, fun _ h => absurd h (List.not_mem_nil)⟩

/-- Two states of a thread whose shadow stacks hold the same entries, at the same places and under the same index (R135, R137). -/
structure Thread.SameStack (x y : Thread) : Prop where
  ss : y.ss = x.ss
  depth : y.ssDepth = x.ssDepth
  idx : y.ssIdx = x.ssIdx
  spill : y.spill = x.spill

/-- A thread after a write of its register n, which reads val then: every other register of it reads as before, but the generator that
num.sidx names, no stack entry but those that the spill unit holds, and no operation of it begins or ends. -/
structure Thread.Wrote (n val : Nat) (x y : Thread) : Prop where
  here : y.reg n = val
  rest : ∀ m : Nat, m ≠ n → (n = 0x024 → m ≠ 0x025) → y.reg m = x.reg m
  stack : n ≠ 0x012 → x.SameStack y
  loads : y.loads = x.loads
  long : y.long = x.long

section Change
variable (s : State) (site : Nat) (t : Fin 4) (f : Thread → Thread)

theorem State.ssEntry_modThr (hs : (s.thr site t).SameStack (f (s.thr site t))) (j : Nat) :
    (s.modThr site t f).ssEntry site t j = s.ssEntry site t j := by
  obtain ⟨hss, hdepth, -, hspill⟩ := hs
  have hsp : (f (s.thr site t)).spilled = (s.thr site t).spilled := by rw [Thread.spilled, Thread.spilled, hss, hdepth]
  have had : (f (s.thr site t)).spillAddr site j = (s.thr site t).spillAddr site j := by
    rw [Thread.spillAddr, Thread.spillAddr, hspill]
  have hle : (s.modThr site t f).le ((s.thr site t).spillAddr site j) 2 = s.le ((s.thr site t).spillAddr site j) 2 := rfl
  unfold State.ssEntry
  dsimp only
  rw [State.thr_modThr, hsp, had, hss, hdepth, hle]

/-- What the tables of tiles and accumulators are in use for follows the threads' loads and long operations (R186). -/
theorem Core.mxBusy_set (c : Core) (t : Fin 4) (y : Thread) (hl : y.loads = c.th[t].loads) (hg : y.long = c.th[t].long) :
    Core.mxBusy { c with th := c.th.set t y } = c.mxBusy := by
  have hth : ∀ j : Fin 4, (c.th.set t y)[j].loads = c.th[j].loads ∧ (c.th.set t y)[j].long = c.th[j].long := by
    intro j
    by_cases hj : t = j
    · subst hj; simp [hl, hg]
    · have hv : t.val ≠ j.val := fun e => hj (Fin.ext e)
      simp [hv]
  simp only [Core.mxBusy, Thread.scaling, (hth _).1, (hth _).2]

/-- The stack entry that a thread's index names reads as before where its stack is as before (R137). -/
theorem State.stRead_ssEntry (hs : (s.thr site t).SameStack (f (s.thr site t))) :
    (s.modThr site t f).stRead site t 0x03A = s.stRead site t 0x03A := by
  show (s.modThr site t f).ssEntry site t ((s.modThr site t f).thr site t).ssIdx = s.ssEntry site t (s.thr site t).ssIdx
  rw [State.thr_modThr, hs.idx, s.ssEntry_modThr site t f hs]

/-- A change of a thread shows in no register of its core. -/
theorem State.stRead_shared {m : Nat} (hown : m ∉ ownRegs) (hss : m ≠ 0x03A) (hbusy : m ≠ 0x103) :
    (s.modThr site t f).stRead site t m = s.stRead site t m := by
  have hcyc : (s.modThr site t f).cyc = s.cyc := rfl
  have hrg : ∀ a, (s.modThr site t f).rg a = s.rg a := State.rg_of_regs (State.modThr_regs s site t f)
  have hfld : ∀ g, (s.modThr site t f).cfld site g = s.cfld site g := State.cfld_of_regs (State.modThr_regs s site t f) site
  simp only [ownRegs, List.mem_cons, List.not_mem_nil, or_false, not_or] at hown
  have h1 : ¬ (0x040 ≤ m ∧ m ≤ 0x045) := by omega
  have h2 : ¬ (0x048 ≤ m ∧ m ≤ 0x04D) := by omega
  simp only [State.stRead, State.core_modThr, hcyc, hrg, hfld, hown, hss, hbusy, h1, h2, if_false]

/-- A change of its thread shows in a register only through the fields that it reads. -/
theorem State.stRead_modThr (m : Nat) (hm : (f (s.thr site t)).reg m = (s.thr site t).reg m)
    (hs : m = 0x03A → (s.thr site t).SameStack (f (s.thr site t))) (hl : (f (s.thr site t)).loads = (s.thr site t).loads)
    (hg : (f (s.thr site t)).long = (s.thr site t).long) : (s.modThr site t f).stRead site t m = s.stRead site t m := by
  by_cases hown : m ∈ ownRegs
  · rw [State.stRead_reg _ _ _ m hown, State.stRead_reg _ _ _ m hown, State.thr_modThr, hm]
  · by_cases hss : m = 0x03A
    · subst hss
      exact s.stRead_ssEntry site t f (hs rfl)
    · by_cases hb : m = 0x103
      · subst hb
        show ((s.modThr site t f).core site).mxBusy = (s.core site).mxBusy
        rw [State.core_modThr]
        exact Core.mxBusy_set _ t _ hl hg
      · exact s.stRead_shared site t f hown hss hb

end Change


-- registers that take what is written (R153)

/-- The bits of a number that a mask of 32 bits keeps. -/
theorem maskW_toNat (v w : Nat) (hw : w < 2 ^ 32) : (maskW v w).toNat = v &&& w := by
  rw [maskW, BitVec.toNat_and, BitVec.toNat_ofNat, BitVec.toNat_ofNat, Nat.mod_eq_of_lt hw]
  refine Nat.eq_of_testBit_eq fun j => ?_
  rw [Nat.testBit_and, Nat.testBit_and, Nat.testBit_mod_two_pow]
  by_cases hj : j < 32
  · simp [hj]
  · rw [Nat.testBit_lt_two_pow (hw.trans_le (Nat.pow_le_pow_right (by decide) (by omega)))]
    simp

/-- The low 32 bits of a number. -/
theorem word_toNat (v : Nat) : (BitVec.ofNat 32 v).toNat = v &&& 0xFFFFFFFF := by
  rw [BitVec.toNat_ofNat]
  exact (Nat.and_two_pow_sub_one_eq_mod v 32).symm

theorem half_toNat (v : Nat) : (BitVec.ofNat 16 v).toNat = v &&& 0xFFFF := by
  rw [BitVec.toNat_ofNat]
  exact (Nat.and_two_pow_sub_one_eq_mod v 16).symm

/-- The registers, with the bits they have, that a write by thread 0 always reaches. -/
def openRegs : List (Nat × Nat) := [(0x017, 0xFFFFFFFF), (0x020, 0xFFFFFFFF), (0x021, 0xFFFFFFFF), (0x022, 0xFFFFFFFF), (0x024, 0x7F),
  (0x030, 0xFFFFFFFF), (0x031, 0xFFFFFFFF), (0x032, 0xFFFF), (0x033, 0xFFFF), (0x034, 0xFFFF), (0x035, 0xFFFF), (0x036, 0x7), (0x040, 0xFFFF),
  (0x041, 0xFB0), (0x042, 0x3FFFFF), (0x043, 0xFFFFFFFF), (0x044, 0xFFFFE000), (0x045, 0xFFFFFFFF), (0x0B0, 0x3), (0x0B1, 0x8000003F),
  (0x100, 0xFFFFE000)]

/-- A state whose thread took a write of its register n: nothing else of it differs. -/
def State.Took (s u : State) (site : Nat) (t : Fin 4) (n val : Nat) : Prop :=
  ∃ f : Thread → Thread, u = s.modThr site t f ∧ (s.thr site t).Wrote n val (f (s.thr site t))

/-- A change of the one field that a register reads is a write of the register. -/
theorem State.took_of {s : State} {site n val : Nat} {t : Fin 4} (f : Thread → Thread) (here : (f (s.thr site t)).reg n = val)
    (rest : ∀ m : Nat, m ≠ n → (n = 0x024 → m ≠ 0x025) → (f (s.thr site t)).reg m = (s.thr site t).reg m := by
      intro m hm hs
      simp only [Thread.reg, Thread.gen, Save.write, hm, hs, if_false])
    (stack : n ≠ 0x012 → (s.thr site t).SameStack (f (s.thr site t)) := by exact fun _ => ⟨rfl, rfl, rfl, rfl⟩)
    (ends : (f (s.thr site t)).loads = (s.thr site t).loads ∧ (f (s.thr site t)).long = (s.thr site t).long := by exact ⟨rfl, rfl⟩) :
    s.Took (s.modThr site t f) site t n val := ⟨f, rfl, here, rest, stack, ends.1, ends.2⟩

/-- What a write that a thread took shows (R153). -/
theorem State.Took.shows {s u : State} {site n val : Nat} {t : Fin 4} (h : s.Took u site t n val) (hn : n ∈ ownRegs) :
    u.stRead site t n = val ∧
    (∀ m : Nat, m ≠ n → ¬ (n = 0x024 ∧ m = 0x025) → ¬ (n = 0x012 ∧ m = 0x03A) → u.stRead site t m = s.stRead site t m) ∧
    (∀ (k : Nat) (j : Fin 4), k ≠ site ∨ j ≠ t → u.thr k j = s.thr k j) ∧ MemSame s u := by
  obtain ⟨f, rfl, here, rest, stack, loads, long⟩ := h
  refine ⟨?_, fun m hm hseed hspill => ?_, fun k j hk => ?_, memSame_of_mem (State.modThr_mem s site t f)⟩
  · rw [State.stRead_reg _ site t n hn, State.thr_modThr, here]
  · exact s.stRead_modThr site t f m (rest m hm fun h1 h2 => hseed ⟨h1, h2⟩)
      (fun h1 => stack fun h2 => hspill ⟨h2, h1⟩) loads long
  · by_cases hsite : k = site
    · subst hsite
      exact s.thr_modThr_other k (hk.resolve_left (not_not.2 rfl)) f
    · exact s.thr_modThr_ne hsite t j f

section Writes
variable (s : State) (site v : Nat) (t : Fin 4) (l2 own : Bool)

/-- Each of them takes the bits it has. -/
theorem State.stWrite_open : ∀ p ∈ openRegs, s.Took (s.stWrite site t p.1 v true l2 own) site t p.1 (v &&& p.2) := by
  have word := word_toNat v
  have half := half_toNat v
  have mask (w : Nat) (hw : w < 2 ^ 32) := maskW_toNat v w hw
  unfold openRegs
  simp only [List.forall_mem_cons]
  refine ⟨State.took_of (fun x => { x with mwait := BitVec.ofNat 32 v }) word,
    State.took_of (fun x => { x with numSat := BitVec.ofNat 32 v }) word,
    State.took_of (fun x => { x with numFlush := BitVec.ofNat 32 v }) word,
    State.took_of (fun x => { x with numNan := BitVec.ofNat 32 v }) word,
    State.took_of (fun x => { x with numSidx := maskW v 0x7F }) (mask _ (by decide)),
    State.took_of (fun x => { x with lc0 := BitVec.ofNat 32 v }) word,
    State.took_of (fun x => { x with lc1 := BitVec.ofNat 32 v }) word,
    State.took_of (fun x => { x with lp0beg := maskW v 0xFFFF }) (mask _ (by decide)),
    State.took_of (fun x => { x with lp0end := maskW v 0xFFFF }) (mask _ (by decide)),
    State.took_of (fun x => { x with lp1beg := maskW v 0xFFFF }) (mask _ (by decide)),
    State.took_of (fun x => { x with lp1end := maskW v 0xFFFF }) (mask _ (by decide)),
    State.took_of (fun x => { x with lpctl := maskW v 0x7 }) (mask _ (by decide)),
    State.took_of (fun x => { x with sv1 := x.sv1.write 0 v }) half,
    State.took_of (fun x => { x with sv1 := x.sv1.write 1 v }) (mask _ (by decide)),
    State.took_of (fun x => { x with sv1 := x.sv1.write 2 v }) (mask _ (by decide)),
    State.took_of (fun x => { x with sv1 := x.sv1.write 3 v }) word,
    State.took_of (fun x => { x with sv1 := x.sv1.write 4 v }) (mask _ (by decide)),
    State.took_of (fun x => { x with sv1 := x.sv1.write 5 v }) word,
    State.took_of (fun x => { x with syncCtl := maskW v 0x3 }) (mask _ (by decide)),
    State.took_of (fun x => { x with
      cueArm := maskW v 0x8000003F
      armed := if bitOf v 31 then (s.cueMap site (s.thr site t).ctx (bitsOf v 0 6)).map Prod.fst else none }) (mask _ (by decide)),
    State.took_of (fun x => { x with prog := maskW v 0xFFFFE000 }) (mask _ (by decide)),
    fun _ h => absurd h (List.not_mem_nil)⟩

/-- The bounds of a thread's scratchpad slice and its spill unit are taken while the thread cannot run, or is thread 0 (R105). -/
def boundRegs : List (Nat × Nat) := [(0x011, 0x7F007F), (0x012, 0xFF)]

theorem State.stWrite_bound (ht : t = 0 ∨ s.halted site t = true) :
    ∀ p ∈ boundRegs, s.Took (s.stWrite site t p.1 v true l2 own) site t p.1 (v &&& p.2) := by
  unfold boundRegs
  simp only [List.forall_mem_cons]
  have hslice : s.stWrite site t 0x011 v true l2 own = s.modThr site t (fun x => { x with slice := maskW v 0x007F007F }) := if_pos ht
  have hspill : s.stWrite site t 0x012 v true l2 own = s.modThr site t (fun x => { x with spill := maskW v 0x000000FF }) := if_pos ht
  rw [hslice, hspill]
  exact ⟨State.took_of _ (maskW_toNat v _ (by decide)),
    State.took_of _ (maskW_toNat v _ (by decide)) (stack := fun h => absurd rfl h), fun _ h => absurd h (List.not_mem_nil)⟩

theorem openRegs_own : ∀ p ∈ openRegs ++ boundRegs, p.1 ∈ ownRegs := by decide

end Writes


/-- Settles O20, by one lemma for each form of the access, the table of numbers, and the one change of a thread that each write of a
register of its own comes to. -/
theorem stateRegistersMove : Obligations.StateRegistersMove := by
  unfold Obligations.StateRegistersMove
  refine ⟨fun s i a b n u => ?_, ⟨fun s site t => ?_, fun s site n w v t l2 own h => ?_⟩, fun t n w => ⟨stNumber_none t n w, fun hn hw => ?_⟩,
    fun s i a b => ?_⟩
  · intro p x A number zero l2 v own self hsys
    refine ⟨fun w => ⟨s.mts_expert i.site i.th u n w, s.mts_plain i.site i.th u n w, fun he hn => ⟨fun hm => ?_, fun hm => ?_⟩⟩,
      fun h hn => ⟨mfs_retires hsys h hn, mfs_steps hsys h hn, fun f => mts_faults hsys h hn, mts_runs hsys h hn, mts_holds hsys h hn⟩,
      fun h he hn => ⟨mfsD_retires hsys h he hn, mtsD_runs hsys h he hn⟩⟩
    · rw [s.mts_barred i.site i.th u n w he hn]
      exact if_pos hm
    · rw [s.mts_barred i.site i.th u n w he hn]
      exact if_neg (by rw [Bool.not_eq_true]; exact hm)
  · exact ⟨rfl, rfl, rfl, rfl, rfl, rfl, rfl, rfl, rfl, rfl, rfl, rfl, rfl, rfl, rfl, rfl, rfl, rfl, rfl, rfl, rfl, rfl, rfl, rfl, rfl, rfl,
      rfl, rfl, rfl, rfl, rfl, rfl, rfl, rfl, rfl, rfl, rfl, rfl, rfl, rfl, rfl, rfl, rfl, rfl, rfl, rfl, rfl,
      s.stRead_tile site t, s.stRead_acc site t⟩
  · intro y
    have hown := openRegs_own (n, w)
    rcases h with h | ⟨h, ht⟩
    · exact (s.stWrite_open site v t l2 own (n, w) h).shows (hown (List.mem_append_left _ h))
    · exact (s.stWrite_bound site v t l2 own ht (n, w) h).shows (hown (List.mem_append_right _ h))
  · refine ⟨fun h => ?_, stNumber_thread t n w hn hw⟩
    rw [stNumber_some t n w hn hw]
    exact if_pos (by simpa using h)
  · intro p x A B base v h hsys he
    have hb : base = (x.pair A).toNat / 2 ^ 29 := by rw [Thread.pair_toNat]
    exact ⟨fun h0 ho => mtb_faults h hsys he h0 (hb ▸ ho), fun h0 ho => hb ▸ mtb_retires h hsys he h0 (hb ▸ ho), mfb_retires h hsys he⟩

end Sys2Proof.Machine
end

section
/-! Which registers an operation reaches: `RegsBut p` for those at the offsets that `p` names. -/

namespace Sys2Proof.Machine

/-- Only registers at offsets that p names differ, of any die. -/
def RegsBut (p : Nat → Bool) (s t : State) : Prop := ∀ k, p (k % 0x4000000) = false → t.rg k = s.rg k

/-- The offsets of 4 KiB pages of a die's registers. -/
def pages (l : List Nat) (off : Nat) : Bool := l.contains (off / 0x1000)

/-- The sources of the event gatherer lie in one page. -/
theorem pages_src {l : List Nat} (h : 0xB1 ∈ l) (off : Nat) (ho : off / 0x1000 = 0xB1) : pages l off = true := by
  rw [pages, ho, List.contains_eq_mem]
  exact decide_eq_true h

section Rules
variable {p q : Nat → Bool} {s t u : State}

theorem RegsBut.refl (p : Nat → Bool) (s : State) : RegsBut p s s := fun _ _ => rfl

theorem RegsBut.of_regs (p : Nat → Bool) (h : t.regs = s.regs) : RegsBut p s t := fun k _ => State.rg_of_regs h k

theorem RegsBut.trans (h : RegsBut p s t) (k : RegsBut p t u) : RegsBut p s u := fun j hj => (k j hj).trans (h j hj)

theorem RegsBut.mono (h : RegsBut p s t) (hpq : ∀ off, q off = false → p off = false) : RegsBut q s t := fun k hk => h k (hpq _ hk)

theorem RegsBut.pages_mono {l m : List Nat} (h : RegsBut (pages l) s t) (hlm : l ⊆ m) : RegsBut (pages m) s t :=
  h.mono fun off hoff => by
    simp only [pages, List.contains_eq_mem, decide_eq_false_iff_not] at hoff ⊢
    exact fun hl => hoff (hlm hl)

theorem RegsBut.foldl {α : Type} (f : State → α → State) (l : List α) (h : ∀ s, ∀ a ∈ l, RegsBut p s (f s a)) :
    ∀ s : State, RegsBut p s (l.foldl f s) := by
  induction l with
  | nil => exact fun s => RegsBut.refl p s
  | cons a l ih =>
    exact fun s => (h s a List.mem_cons_self).trans (ih (fun s b hb => h s b (List.mem_cons_of_mem a hb)) (f s a))

/-- The offset of a register of a die from its key. -/
theorem dkey_mod (d : Nat) {off : Nat} (h : off < 0x4000000) : dkey d off % 0x4000000 = off := by
  simp only [dkey]; omega

theorem RegsBut.rg (h : RegsBut p s t) (d : Nat) {off : Nat} (ho : off < 0x4000000) (hp : p off = false) :
    t.rg (dkey d off) = s.rg (dkey d off) := h _ (by rw [dkey_mod d ho]; exact hp)

/-- A field elsewhere reads as before. -/
theorem RegsBut.fld (h : RegsBut p s t) (d : Nat) {f : RF} (hf : f.off < 0x4000000) (hp : p f.off = false) : t.fld d f = s.fld d f := by
  rw [State.fld, State.fld, State.fldAt, State.fldAt, h.rg d hf hp]

theorem RegsBut.flag (h : RegsBut p s t) (d : Nat) {f : RF} (hf : f.off < 0x4000000) (hp : p f.off = false) : t.flag d f = s.flag d f := by
  rw [State.flag, State.flag, h.fld d hf hp]

theorem RegsBut.rg64 (h : RegsBut p s t) (d : Nat) {off : Nat} (ho : off + 4 < 0x4000000) (hp : p off = false) (hp4 : p (off + 4) = false) :
    t.rg64 (dkey d off) = s.rg64 (dkey d off) := by
  have h4 : dkey d off + 4 = dkey d (off + 4) := Nat.add_assoc _ _ _
  have hlo : t.rg (dkey d off) = s.rg (dkey d off) := h.rg d (by omega) hp
  have hhi : t.rg (dkey d (off + 4)) = s.rg (dkey d (off + 4)) := h.rg d ho hp4
  rw [State.rg64_eq, State.rg64_eq, h4, hlo, hhi]

end Rules

section Operations
variable (p : Nat → Bool) (s : State)

theorem State.setRg_but {k : Nat} (v : Nat) (h : p (k % 0x4000000) = true) : RegsBut p s (s.setRg k v) := by
  intro j hj
  refine s.rg_setRg_ne (fun e => ?_) v
  rw [e, h] at hj
  exact Bool.noConfusion hj

theorem State.setFld_but (d : Nat) (f : RF) (v : Nat) (hf : f.off < 0x4000000) (h : p f.off = true) : RegsBut p s (s.setFld d f v) :=
  s.setRg_but p _ (by rw [dkey_mod d hf]; exact h)

theorem State.countFld_but (d : Nat) (f : RF) (n : Nat) (hf : f.off < 0x4000000) (h : p f.off = true) :
    RegsBut p s (s.countFld d f n) := s.setFld_but p d f _ hf h

theorem State.setRg64_but (d : Nat) {off : Nat} (v : Nat) (ho : off + 4 < 0x4000000) (h : p off = true) (h4 : p (off + 4) = true) :
    RegsBut p s (s.setRg64 (dkey d off) v) := by
  have he : dkey d off + 4 = dkey d (off + 4) := by simp only [dkey]; omega
  refine (s.setRg_but p _ (by rw [dkey_mod d (by omega)]; exact h)).trans (State.setRg_but p _ _ ?_)
  rw [he, dkey_mod d ho]; exact h4

theorem srcListed_lt {n : Nat} (h : srcListed n = true) : n < 1024 := by
  simp only [srcListed, Bool.or_eq_true, Bool.and_eq_true, decide_eq_true_eq] at h
  omega

/-- A source raised is a register of the event gatherer's first page (R335). -/
theorem State.raise_but (d n : Nat) (h : ∀ off, off / 0x1000 = 0xB1 → p off = true) : RegsBut p s (s.raise d n) := by
  unfold State.raise
  split
  case isTrue hn =>
    have hlt := srcListed_lt hn
    exact s.setFld_but p d _ 1 (by show 0xB1000 + 4 * n < 0x4000000; omega) (h _ (by show (0xB1000 + 4 * n) / 0x1000 = 0xB1; omega))
  case isFalse => exact RegsBut.refl p s

theorem State.eventBit_but (d off bit : Nat) (ho : off < 0x4000000) (hp : p off = true) (h : ∀ off, off / 0x1000 = 0xB1 → p off = true) :
    RegsBut p s (s.eventBit d off bit) := by
  unfold State.eventBit
  dsimp only
  split
  · exact RegsBut.refl p s
  · have hset := s.setFld_but p d ⟨off, bit, bit⟩ 1 ho hp
    split
    · exact hset.trans (State.raise_but p _ d _ h)
    · exact hset

theorem State.event_but (d : Nat) (f : RF) (ho : f.off < 0x4000000) (hp : p f.off = true) (h : ∀ off, off / 0x1000 = 0xB1 → p off = true) :
    RegsBut p s (s.event d f) := s.eventBit_but p d f.off f.lo ho hp h

end Operations

/-- Every bit of a register that is set stays set. -/
def BitsUp (s t : State) : Prop := ∀ k i, (s.rg k).testBit i = true → (t.rg k).testBit i = true

theorem BitsUp.refl (s : State) : BitsUp s s := fun _ _ h => h

theorem BitsUp.trans {s t u : State} (h : BitsUp s t) (k : BitsUp t u) : BitsUp s u := fun j i hj => k j i (h j i hj)

theorem BitsUp.of_regs {s t : State} (h : t.regs = s.regs) : BitsUp s t := fun k i hk => by rw [State.rg_of_regs h]; exact hk

theorem BitsUp.foldl {α : Type} (f : State → α → State) (l : List α) (h : ∀ s a, BitsUp s (f s a)) : ∀ s : State, BitsUp s (l.foldl f s) := by
  induction l with
  | nil => exact BitsUp.refl
  | cons a l ih => exact fun s => (h s a).trans (ih (f s a))

theorem State.flag_testBit (s : State) (d : Nat) (f : RF) (hw : f.hi = f.lo) : s.flag d f = (s.rg (dkey d f.off)).testBit f.lo := by
  have h1 : f.hi - f.lo + 1 = 1 := by omega
  rw [State.flag, State.fld, State.fldAt, h1, ← bitOf_eq_testBit]
  simp only [bitOf, bitsOf, pow_one]

theorem BitsUp.flag {s t : State} (h : BitsUp s t) (d : Nat) {f : RF} (hw : f.hi = f.lo) (hf : s.flag d f = true) : t.flag d f = true := by
  rw [State.flag_testBit _ _ _ hw] at hf ⊢
  exact h _ _ hf

theorem State.setFld_up (s : State) (d off bit : Nat) : BitsUp s (s.setFld d ⟨off, bit, bit⟩ 1) := by
  intro k i h
  by_cases hk : k = dkey d off
  · subst hk
    have hi : i < 32 := by
      by_contra hge
      rw [Nat.testBit_lt_two_pow ((s.rg_lt _).trans_le (Nat.pow_le_pow_right (by decide) (Nat.not_lt.1 hge)))] at h
      exact Bool.noConfusion h
    show ((s.setRg (dkey d off) (setBits (s.rg (dkey d off)) bit (bit - bit + 1) 1)).rg (dkey d off)).testBit i = true
    rw [State.rg_setRg, Nat.testBit_mod_two_pow, testBit_setBits]
    by_cases hb : i = bit
    · subst hb; simp [hi]
    · rw [if_neg (by omega)]; simp [hi, h]
  · rw [show (s.setFld d ⟨off, bit, bit⟩ 1).rg k = s.rg k from s.rg_setRg_ne hk _]
    exact h

theorem State.raise_up (s : State) (d n : Nat) : BitsUp s (s.raise d n) := by
  unfold State.raise
  split
  · exact s.setFld_up d _ 30
  · exact BitsUp.refl s

theorem State.event_up (s : State) (d : Nat) (f : RF) : BitsUp s (s.event d f) := by
  unfold State.event State.eventBit
  dsimp only
  split
  · exact BitsUp.refl s
  · split
    · exact (s.setFld_up d _ _).trans (State.raise_up _ d _)
    · exact s.setFld_up d _ _

/-- An event bit set by hardware reads 1 (R8). -/
theorem State.flag_event (s : State) (d : Nat) (f : RF) (hf : f.lo < 32) (hw : f.hi = f.lo) : (s.event d f).flag d f = true := by
  obtain ⟨off, hi, lo⟩ := f
  dsimp only at hf hw
  subst hw
  have hset : (s.setFld d ⟨off, hi, hi⟩ 1).flag d ⟨off, hi, hi⟩ = true := by
    rw [State.flag, s.fld_setFld d _ 1 ⟨le_refl _, hf⟩]
    simp
  unfold State.event State.eventBit
  dsimp only
  split
  · next h1 => rw [State.flag, h1]; rfl
  · split
    · exact (State.raise_up _ d _).flag d rfl hset
    · exact hset

/-- What each operation of a list leaves, the list leaves. -/
theorem State.foldl_same {α β : Type} (f : State → α → State) (g : State → β) (h : ∀ s a, g (f s a) = g s) :
    ∀ (l : List α) (s : State), g (l.foldl f s) = g s
  | [], _ => rfl
  | a :: l, s => (State.foldl_same f g h l (f s a)).trans (h s a)

end Sys2Proof.Machine
end

section
/-! What the last steps of a reset do: firmware restarted, seeds and nonces drawn, faulty sites reported (R415, R418, R433). -/

namespace Sys2Proof.Machine

-- what they leave

/-- All is as it was but the registers, the root of trust, the log with what was sent of it, and the free values used. -/
def Housekept (s t : State) : Prop :=
  { t with regs := s.regs, rot := s.rot, free := s.free, log := s.log, logNext := s.logNext, ports := s.ports, out := s.out } = s

theorem Housekept.refl (s : State) : Housekept s s := rfl

namespace Housekept
variable {s t u : State}

theorem trans (h : Housekept s t) (k : Housekept t u) : Housekept s u := by
  unfold Housekept at *
  rw [← k] at h
  exact h

theorem foldl {α : Type} (f : State → α → State) (h : ∀ s a, Housekept s (f s a)) (l : List α) : ∀ s, Housekept s (l.foldl f s) := by
  induction l with
  | nil => exact fun _ => rfl
  | cons a l ih => exact fun s => (h s a).trans (ih (f s a))

theorem same (h : Housekept s t) {α : Type} (f : State → α)
    (hf : ∀ (u : State) r o w l n p x, f { u with regs := r, rot := o, free := w, log := l, logNext := n, ports := p, out := x } = f u) :
    f t = f s := by
  rw [← hf t s.regs s.rot s.free s.log s.logNext s.ports s.out]
  exact congrArg f h

theorem mem (h : Housekept s t) : t.mem = s.mem := h.same State.mem fun _ _ _ _ _ _ _ _ => rfl
theorem poison (h : Housekept s t) : t.poison = s.poison := h.same State.poison fun _ _ _ _ _ _ _ _ => rfl
theorem cb (h : Housekept s t) : t.cb = s.cb := h.same State.cb fun _ _ _ _ _ _ _ _ => rfl
theorem steps (h : Housekept s t) : t.steps = s.steps := h.same State.steps fun _ _ _ _ _ _ _ _ => rfl
theorem resetting (h : Housekept s t) : t.resetting = s.resetting := h.same State.resetting fun _ _ _ _ _ _ _ _ => rfl
theorem mid (h : Housekept s t) : t.mid = s.mid := h.same State.mid fun _ _ _ _ _ _ _ _ => rfl
theorem pins (h : Housekept s t) : t.pins = s.pins := h.same State.pins fun _ _ _ _ _ _ _ _ => rfl
theorem siteBad (h : Housekept s t) : t.siteBad = s.siteBad := h.same State.siteBad fun _ _ _ _ _ _ _ _ => rfl

end Housekept

/-- A register set is no more than a register. -/
theorem State.setRg_housekept (s : State) (k v : Nat) : Housekept s (s.setRg k v) := rfl

theorem State.setFld_housekept (s : State) (d : Nat) (f : RF) (v : Nat) : Housekept s (s.setFld d f v) := s.setRg_housekept _ _

theorem State.event_housekept (s : State) (d : Nat) (f : RF) : Housekept s (s.event d f) := by
  unfold State.event State.eventBit State.raise
  dsimp only
  split
  · exact Housekept.refl s
  · split
    · split
      · exact (s.setFld_housekept d _ 1).trans (State.setFld_housekept _ d _ 1)
      · exact s.setFld_housekept d _ 1
    · exact s.setFld_housekept d _ 1

theorem State.fresh_housekept (s : State) : Housekept s s.fresh.2 := rfl

theorem State.setRot_housekept (s : State) (r : Rot) : Housekept s { s with rot := r } := rfl

theorem State.activate_housekept (s : State) (b : Bool) : Housekept s (s.activate b) :=
  (((s.setRot_housekept _).trans (State.setFld_housekept _ 0 _ _)).trans (State.setFld_housekept _ 0 _ _)).trans (State.setFld_housekept _ 0 _ _)

-- firmware

/-- What a restart of the firmware comes to. -/
theorem State.fwRestart_none (s : State) (ha : s.rot.active = none) (hn : s.rot.next = false) :
    s.fwRestart = s.setFld 0 MGT_STATUS_FW_OK 0 := by
  simp [State.fwRestart, ha, hn]

/-- The bank that a restart verifies, and what comes of it (R417, R418). -/
def State.rechecked (s : State) : State :=
  match (if s.rot.next then some s.inactive else s.rot.active) with
  | none => s
  | some b => if fwCheck (s.bank b) = 0 then s.activate b else ({ s with rot := { s.rot with active := none } }).event 0 MGT_EVENT_FW_FAIL

/-- The forms of a restart: no bank, one verified, or one that fails (R417, R418). -/
theorem State.fwRestart_cases (s : State) : s.fwRestart = s.setFld 0 MGT_STATUS_FW_OK 0 ∨
    (∃ b, s.fwRestart = (s.setFld 0 MGT_STATUS_FW_OK 0).activate b) ∨
    ∃ r : Rot, r.epoch = s.rot.epoch ∧ s.fwRestart = ({ s.setFld 0 MGT_STATUS_FW_OK 0 with rot := r }).event 0 MGT_EVENT_FW_FAIL := by
  have hrot : (s.setFld 0 MGT_STATUS_FW_OK 0).rot = s.rot := s.setFld_rot 0 _ 0
  rw [← hrot]
  have heq : s.fwRestart = (s.setFld 0 MGT_STATUS_FW_OK 0).rechecked := rfl
  rw [heq]
  generalize s.setFld 0 MGT_STATUS_FW_OK 0 = u
  unfold State.rechecked
  split
  · exact .inl rfl
  · split
    · exact .inr (.inl ⟨_, rfl⟩)
    · exact .inr (.inr ⟨{ u.rot with active := none }, rfl, rfl⟩)

theorem State.activate_keeps (s : State) (b : Bool) : Housekept s (s.activate b) ∧ (s.activate b).log = s.log ∧
    (s.activate b).rot.epoch = s.rot.epoch ∧ RegsBut (pages [0x100, 0xB1]) s (s.activate b) := by
  refine ⟨s.activate_housekept b, rfl, rfl, ?_⟩
  have hset : ∀ (u : State) (x y z : Nat), u.regs = s.regs → RegsBut (pages [0x100, 0xB1]) s
      (((u.setFld 0 MGT_STATUS_BANK x).setFld 0 MGT_STATUS_FW_OK y).setFld 0 MGT_FW_SVN_SVN z) := fun u x y z hu =>
    (((RegsBut.of_regs _ hu).trans (u.setFld_but _ 0 _ x (by decide) (by decide))).trans
      (State.setFld_but _ _ 0 _ y (by decide) (by decide))).trans (State.setFld_but _ _ 0 _ z (by decide) (by decide))
  exact hset _ _ _ _ rfl

theorem State.fwFail_keeps (s : State) (r : Rot) : let t := ({ s with rot := r }).event 0 MGT_EVENT_FW_FAIL
    Housekept s t ∧ t.log = s.log ∧ t.rot = r ∧ RegsBut (pages [0x100, 0xB1]) s t := by
  have hevent : ∀ u : State, Housekept s u → u.log = s.log → u.rot = r → u.regs = s.regs →
      Housekept s (u.event 0 MGT_EVENT_FW_FAIL) ∧ (u.event 0 MGT_EVENT_FW_FAIL).log = s.log ∧ (u.event 0 MGT_EVENT_FW_FAIL).rot = r ∧
        RegsBut (pages [0x100, 0xB1]) s (u.event 0 MGT_EVENT_FW_FAIL) := fun u h1 h2 h3 h4 => by
    have hl := u.event_light 0 MGT_EVENT_FW_FAIL
    exact ⟨h1.trans (u.event_housekept 0 _), (hl.same State.log fun _ _ _ _ => rfl).trans h2, (hl.same State.rot fun _ _ _ _ => rfl).trans h3,
      (RegsBut.of_regs _ h4).trans (u.event_but _ 0 _ (by decide) (by decide) (pages_src (by decide)))⟩
  exact hevent _ (s.setRot_housekept r) rfl rfl rfl

/-- A restart changes the firmware's registers, its bank and nothing else. -/
theorem State.fwRestart_keeps (s : State) : Housekept s s.fwRestart ∧ s.fwRestart.log = s.log ∧ s.fwRestart.rot.epoch = s.rot.epoch ∧
    RegsBut (pages [0x100, 0xB1]) s s.fwRestart := by
  have hclear : RegsBut (pages [0x100, 0xB1]) s (s.setFld 0 MGT_STATUS_FW_OK 0) := s.setFld_but _ 0 _ 0 (by decide) (by decide)
  have hkept := s.setFld_housekept 0 MGT_STATUS_FW_OK 0
  have hlog : (s.setFld 0 MGT_STATUS_FW_OK 0).log = s.log := s.setFld_log 0 _ 0
  have hrot : (s.setFld 0 MGT_STATUS_FW_OK 0).rot = s.rot := s.setFld_rot 0 _ 0
  obtain h | ⟨b, h⟩ | ⟨r, hr, h⟩ := s.fwRestart_cases <;> rw [h]
  · exact ⟨hkept, hlog, by rw [hrot], hclear⟩
  · obtain ⟨h1, h2, h3, h4⟩ := State.activate_keeps (s.setFld 0 MGT_STATUS_FW_OK 0) b
    exact ⟨hkept.trans h1, h2.trans hlog, h3.trans (by rw [hrot]), hclear.trans h4⟩
  · obtain ⟨h1, h2, h3, h4⟩ := State.fwFail_keeps (s.setFld 0 MGT_STATUS_FW_OK 0) r
    exact ⟨hkept.trans h1, h2.trans hlog, by rw [h3, hr], hclear.trans h4⟩

-- seeds and nonces

/-- A register pair drawn at random, not 0. -/
def State.seedAt (s : State) (k : Nat) : State := s.fresh.2.setRg64 k (max 1 s.fresh.1)

theorem State.seedAt_housekept (s : State) (k : Nat) : Housekept s (s.seedAt k) :=
  (s.fresh_housekept.trans (State.setRg_housekept _ _ _)).trans (State.setRg_housekept _ _ _)

theorem State.seedAt_log (s : State) (k : Nat) : (s.seedAt k).log = s.log ∧ (s.seedAt k).rot = s.rot := ⟨rfl, rfl⟩

theorem State.fresh_lt (s : State) : s.fresh.1 < 2 ^ 64 := (Config.fresh s.free).isLt

/-- A seed is not 0. -/
theorem State.seedAt_seeds (s : State) (k : Nat) : (s.seedAt k).rg64 k ≠ 0 := by
  have h := s.fresh_lt
  rw [State.seedAt, State.rg64_setRg64]
  omega

/-- A pair stands while another is drawn. -/
theorem State.seedAt_other (s : State) {j k : Nat} (h : j + 4 < k ∨ k + 4 < j) : (s.seedAt j).rg64 k = s.rg64 k := by
  have hrg (i : Nat) (h1 : i ≠ j) (h2 : i ≠ j + 4) : (s.seedAt j).rg i = s.rg i := by
    rw [State.seedAt, State.setRg64, State.rg_setRg_ne _ h2, State.rg_setRg_ne _ h1]
    rfl
  rw [State.rg64_eq, State.rg64_eq, hrg k (by omega) (by omega), hrg (k + 4) (by omega) (by omega)]

/-- Pairs drawn one after another: each of them is not 0. -/
theorem State.seeded {k : Nat} : ∀ (l : List Nat) (s : State), (∀ j ∈ l, j = k ∨ j + 4 < k ∨ k + 4 < j) → k ∈ l ∨ s.rg64 k ≠ 0 →
    (l.foldl State.seedAt s).rg64 k ≠ 0
  | [], _, _, h => h.resolve_left List.not_mem_nil
  | j :: l, s, hl, h => State.seeded l (s.seedAt j) (fun i hi => hl i (List.mem_cons_of_mem j hi)) (by
    obtain rfl | hj := hl j List.mem_cons_self
    · exact .inr (s.seedAt_seeds j)
    · rw [s.seedAt_other hj]
      exact h.imp_left fun hm => (List.mem_cons.1 hm).resolve_left (by omega))

/-- The registers of the dies' seeds. -/
def seedKeys : List Nat := (List.range 8).map (fun d => dkey d CHK_SEED_LO_SEED.off)

theorem State.seedDies_eq (s : State) : s.seedDies = seedKeys.foldl State.seedAt s := by
  rw [seedKeys, List.foldl_map]; rfl

theorem seedKeys_apart {d : Nat} (hd : d < 8) : dkey d CHK_SEED_LO_SEED.off ∈ seedKeys ∧ ∀ j ∈ seedKeys,
    j = dkey d CHK_SEED_LO_SEED.off ∨ j + 4 < dkey d CHK_SEED_LO_SEED.off ∨ dkey d CHK_SEED_LO_SEED.off + 4 < j := by
  refine ⟨List.mem_map_of_mem (List.mem_range.2 hd), fun j hj => ?_⟩
  obtain ⟨e, -, rfl⟩ := List.mem_map.1 hj
  simp only [dkey]
  omega

/-- The dies seeded: their seeds alone change, and none is 0. -/
theorem State.seedDies_keeps (s : State) : Housekept s s.seedDies ∧ s.seedDies.log = s.log ∧ s.seedDies.rot = s.rot ∧
    RegsBut (pages [0xF0]) s s.seedDies ∧ ∀ d < 8, s.seedDies.rg64 (dkey d CHK_SEED_LO_SEED.off) ≠ 0 := by
  rw [State.seedDies_eq]
  refine ⟨Housekept.foldl _ State.seedAt_housekept _ s, State.foldl_same _ State.log (fun u k => (u.seedAt_log k).1) _ s,
    State.foldl_same _ State.rot (fun u k => (u.seedAt_log k).2) _ s, RegsBut.foldl _ _ (fun u k hk => ?_) s,
    fun d hd => State.seeded _ s (seedKeys_apart hd).2 (.inl (seedKeys_apart hd).1)⟩
  obtain ⟨d, -, rfl⟩ := List.mem_map.1 hk
  exact RegsBut.trans (RegsBut.of_regs (t := u.fresh.2) _ rfl) (State.setRg64_but _ _ d _ (by decide) (by decide) (by decide))

-- the log

/-- The registers that the log's records reach: its counts, its event and the gatherer's sources (R411). -/
def logOff (off : Nat) : Bool := off == 0x100014 || off == 0x10001C || off / 0x1000 == 0xB1

/-- A record of the log: what changes with it. -/
theorem State.logRec_keeps (s : State) (source die site stream sev cause : Nat) :
    Housekept s (s.logRec source die site stream sev cause) ∧ (s.logRec source die site stream sev cause).rot = s.rot ∧
    RegsBut logOff s (s.logRec source die site stream sev cause) := by
  have hreport (u : State) (r : LogRec) : (u.report r).regs = u.regs := by unfold State.report; split <;> rfl
  have hnew : RegsBut logOff s (State.logRec.logNew s source die site stream sev cause) := by
    unfold State.logRec.logNew
    extract_lets frame r full s1 s2 s3
    have h1 : RegsBut logOff s s1 := RegsBut.of_regs _ rfl
    have h2 : RegsBut logOff s1 s2 := by
      by_cases hf : full = true
      · simp only [s2, hf, if_true]; exact s1.countFld_but _ 0 _ 1 (by decide) (by decide)
      · simp only [s2, hf, Bool.false_eq_true, if_false]; exact RegsBut.refl _ _
    have h3 : RegsBut logOff s2 s3 := by
      by_cases hs : 2 ≤ sev
      · simp only [s3, hs, if_true]
        exact s2.event_but _ 0 _ (by decide) (by decide) (by simp +contextual [logOff])
      · simp only [s3, hs, if_false]; exact RegsBut.refl _ _
    exact ((h1.trans h2).trans h3).trans (RegsBut.of_regs _ (hreport s3 r))
  have hlogged (u : State) : Housekept s (s.logged u) ∧ (s.logged u).rot = s.rot := ⟨rfl, rfl⟩
  unfold State.logRec
  refine ⟨(hlogged _).1, (hlogged _).2, RegsBut.trans ?_ (RegsBut.of_regs (t := s.logged _) _ rfl)⟩
  split
  · split
    · exact RegsBut.of_regs _ rfl
    · exact hnew
  · exact hnew

theorem State.notice_keeps (s : State) (die site : Nat) : Housekept s (s.notice die site) ∧ (s.notice die site).rot = s.rot ∧
    RegsBut logOff s (s.notice die site) := by
  obtain ⟨h1, h2, h3⟩ := s.fresh.2.logRec_keeps (s.fresh.1 % 1024) die site 0xFFFFFFFF (1 + s.fresh.1 / 1024 % 3) 0
  exact ⟨s.fresh_housekept.trans h1, h2, (RegsBut.of_regs _ rfl).trans h3⟩

end Sys2Proof.Machine
end

section
/-! What happens at sites where no thread waits: roles given, threads halted, stage managers started (R107, R113, R371, R435). -/

namespace Sys2Proof.Machine

/-- No thread waits. -/
def NoWaits (s : State) : Prop := ∀ (j : Nat) (y : Fin 4), (s.thr j y).wait = none

/-- A register of a control block of a site that P names. -/
def BlockOf (P : Nat → Prop) (k : Nat) : Prop := ∃ i off, P i ∧ off < 0x10000 ∧ k = ckey i off

/-- Where no thread waits, only the cores and control blocks of sites that P names differ, and no thread waits then. -/
structure AtSites (P : Nat → Prop) (s t : State) : Prop where
  rest : { t with regs := s.regs, cores := s.cores } = s
  regs : ∀ k, ¬ BlockOf P k → t.rg k = s.rg k
  idle : NoWaits s → NoWaits t

namespace AtSites
variable {P Q : Nat → Prop} {s t u : State}

theorem refl (P : Nat → Prop) (s : State) : AtSites P s s := ⟨rfl, fun _ _ => rfl, id⟩

theorem trans (h : AtSites P s t) (k : AtSites P t u) : AtSites P s u := by
  refine ⟨?_, fun j hj => (k.regs j hj).trans (h.regs j hj), k.idle ∘ h.idle⟩
  exact (congrArg (fun x : State => { x with regs := s.regs, cores := s.cores }) k.rest).trans h.rest

theorem mono (h : AtSites P s t) (hq : ∀ i, P i → Q i) : AtSites Q s t :=
  ⟨h.rest, fun k hk => h.regs k fun ⟨i, off, hi, ho, e⟩ => hk ⟨i, off, hq i hi, ho, e⟩, h.idle⟩

theorem same (h : AtSites P s t) {α : Type} (f : State → α) (hf : ∀ (u : State) r c, f { u with regs := r, cores := c } = f u) : f t = f s := by
  rw [← hf t s.regs s.cores, h.rest]

/-- The registers of the units stand (R263). -/
theorem rg (h : AtSites P s t) (d : Nat) {off : Nat} (ho : off < 0x1000000) : t.rg (dkey d off) = s.rg (dkey d off) := by
  refine h.regs _ fun ⟨i, o, _, hlt, e⟩ => ?_
  have hm := (ckey_split i o hlt).2
  rw [← e, dkey_mod d (by omega)] at hm
  simp only [siteOff] at hm
  omega

theorem fld (h : AtSites P s t) (d : Nat) {f : RF} (ho : f.off < 0x1000000) : t.fld d f = s.fld d f := by
  rw [State.fld, State.fld, State.fldAt, State.fldAt, h.rg d ho]

theorem flag (h : AtSites P s t) (d : Nat) {f : RF} (ho : f.off < 0x1000000) : t.flag d f = s.flag d f := by
  rw [State.flag, State.flag, h.fld d ho]

end AtSites

/-- The site of a register of a control block, from its key. -/
theorem ckey_site {i j a b : Nat} (ha : a < 0x10000) (hb : b < 0x10000) (h : ckey i a = ckey j b) : i = j := by
  simp only [ckey, dkey, Config.sitesPerDie] at h
  omega

/-- The halts of another site stand. -/
theorem AtSites.halted {P : Nat → Prop} {s t : State} (h : AtSites P s t) {j : Nat} (hj : ¬ P j) (y : Fin 4) : t.halted j y = s.halted j y := by
  have hr : t.rg (ckey j CFG_CORE_CTRL_HALT.off) = s.rg (ckey j CFG_CORE_CTRL_HALT.off) :=
    h.regs _ fun ⟨i, o, hi, ho, e⟩ => hj (ckey_site (by decide) ho e ▸ hi)
  rw [State.halted, State.halted, State.cfld, State.cfld, State.fldAt, State.fldAt, hr]

section Operations
variable (s : State) (site : Nat)

theorem State.setCfld_at (f : RF) (v : Nat) (h : f.off < 0x10000) : AtSites (· = site) s (s.setCfld site f v) := by
  have hset (k w : Nat) : { s.setRg k w with regs := s.regs, cores := s.cores } = s := rfl
  refine ⟨hset _ _, fun k hk => s.rg_setRg_ne (fun e => hk ⟨site, f.off, rfl, h, e⟩) _, fun hw j y => ?_⟩
  rw [State.thr_setCfld]
  exact hw j y

theorem State.modCore_at (f : Core → Core) (hf : ∀ y : Fin 4, (f (s.core site)).th[y] = (s.core site).th[y]) :
    AtSites (· = site) s (s.modCore site f) := by
  refine ⟨rfl, fun k _ => rfl, fun hw j y => ?_⟩
  by_cases hj : j = site
  · subst hj
    rw [State.thr, State.core_modCore, hf]
    exact hw j y
  · rw [State.thr, State.core_modCore_ne s hj]
    exact hw j y

theorem State.modThr_at (t : Fin 4) (f : Thread → Thread) (hf : (f (s.thr site t)).wait = none ∨ (f (s.thr site t)).wait = (s.thr site t).wait) :
    AtSites (· = site) s (s.modThr site t f) := by
  refine ⟨rfl, fun k _ => rfl, fun hw j y => ?_⟩
  by_cases hj : j = site
  · subst hj
    by_cases hy : y = t
    · subst hy
      rw [State.thr_modThr]
      exact hf.elim id fun h => h.trans (hw j y)
    · rw [State.thr_modThr_other s j hy]
      exact hw j y
  · rw [State.thr_modThr_ne s hj]
    exact hw j y

theorem State.setHalt_at (t : Fin 4) (v : Bool) : AtSites (· = site) s (s.setHalt site t v) := s.setCfld_at site _ _ (by decide)

theorem State.ctrlErr_at : AtSites (· = site) s (s.ctrlErr site) := s.setCfld_at site _ _ (by decide)

/-- A thread that waits for nothing is halted at its site alone (R107). -/
theorem State.haltThread_at (t : Fin 4) (hw : NoWaits s) : AtSites (· = site) s (s.haltThread site t) := by
  by_cases hh : s.halted site t = true
  · rw [State.haltThread, if_pos hh]
    exact AtSites.refl _ s
  · rw [State.haltThread_stops s site t (by simpa using hh) (hw site t)]
    exact (s.modThr_at site t (fun x => { x with bun := none, wait := none }) (.inl rfl)).trans (State.setHalt_at _ site t true)

theorem State.setSafe_at (v : Bool) : AtSites (· = site) s (s.setSafe site v) := by
  unfold State.setSafe
  split
  · exact AtSites.refl _ s
  · split
    · exact s.ctrlErr_at site
    · split
      · exact (s.setCfld_at site _ _ (by decide)).trans (State.modCore_at _ site _ fun _ => rfl)
      · exact s.ctrlErr_at site

/-- A start has its thread wait for nothing (R107, R326). -/
theorem State.startAt_at (t : Fin 4) : AtSites (· = site) s (s.startAt site t) := by
  have hthr : AtSites (· = site) s (s.modThr site t (fun x => x.start (BitVec.ofNat 16 (s.entryPc site t)))) :=
    s.modThr_at site t _ (.inl rfl)
  unfold State.startAt
  exact hthr.trans (State.modCore_at _ site _ fun _ => rfl)

/-- A core image put into a stage manager, which starts: it alone changes, and its thread 0 runs (R435). -/
theorem State.startManager_at : AtSites (· = site) s (s.startManager site) ∧ (s.startManager site).halted site 0 = false := by
  have hload : AtSites (· = site) s (s.modCore site (fun c => { c with pm := putSyls c.pm 0 (sylsOf (s.runtimeBytes.take 0x20000)) })) :=
    s.modCore_at site _ fun _ => rfl
  refine ⟨((hload.trans (State.setSafe_at _ site false)).trans (State.startAt_at _ site 0)).trans (State.setHalt_at _ site 0 false), ?_⟩
  rw [State.startManager, State.halted_setHalt, if_pos rfl]

end Operations

/-- A list of operations, each at the sites that P names where no thread waits. -/
theorem AtSites.foldl {P : Nat → Prop} {α : Type} (f : State → α → State) (l : List α)
    (h : ∀ s, NoWaits s → ∀ a ∈ l, AtSites P s (f s a)) : ∀ s, NoWaits s → AtSites P s (l.foldl f s) := by
  induction l with
  | nil => exact fun s _ => AtSites.refl P s
  | cons a l ih =>
    intro s hw
    have ha := h s hw a List.mem_cons_self
    exact ha.trans (ih (fun s hw b hb => h s hw b (List.mem_cons_of_mem a hb)) (f s a) (ha.idle hw))

/-- Every thread of a site halted. -/
theorem State.haltSite_at (s : State) (site : Nat) (hw : NoWaits s) :
    AtSites (· = site) s (threads.foldl (fun s t => s.haltThread site t) s) :=
  AtSites.foldl (fun s t => s.haltThread site t) _ (fun s hs t _ => s.haltThread_at site t hs) s hw

theorem State.makeUnderstudy_at (s : State) (site : Nat) (hw : NoWaits s) : AtSites (· = site) s (s.makeUnderstudy site) := by
  have hrole : AtSites (· = site) s (s.modCore site (fun c => { c with role := .understudy })) := s.modCore_at site _ fun _ => rfl
  unfold State.makeUnderstudy
  dsimp only
  split
  · exact hrole.trans (State.haltSite_at _ site (hrole.idle hw))
  · exact hrole

/-- Roles are given to a die's good sites (R113). -/
theorem State.assignDie_at (s : State) (d : Nat) (hw : NoWaits s) : AtSites (· < 1568) s (s.assignDie d) := by
  unfold State.assignDie
  refine AtSites.foldl _ _ (fun u hu st hst => ?_) s hw
  have hlt : st < 1568 := State.good_lt (Bool.and_eq_true_iff.1 (List.mem_filter.1 hst).2).1
  refine AtSites.mono (P := (· = st)) ?_ fun i hi => hi ▸ hlt
  split
  · split
    · exact u.setSafe_at st false
    · exact (u.makeUnderstudy_at st hu).trans (State.setSafe_at _ st false)
  · exact u.modCore_at st _ fun _ => rfl

theorem State.assignRoles_at (s : State) (hw : NoWaits s) : AtSites (· < 1568) { s with replaced := s.keptReplacements } s.assignRoles :=
  AtSites.foldl State.assignDie _ (fun u hu d _ => u.assignDie_at d hu) _ hw

/-- The stage managers started: thread 0 of each runs (R435). -/
theorem State.startManagers_at (s : State) (hw : NoWaits s) : AtSites (1568 ≤ ·) s s.startManagers ∧
    ∀ d < 16, s.startManagers.halted (1568 + d) 0 = false := by
  refine ⟨AtSites.foldl _ _ (fun u _ m _ => (u.startManager_at (1568 + m)).1.mono fun i hi => by omega) s hw, fun d hd => ?_⟩
  have hall : ∀ (l : List Nat) (u : State), d ∈ l ∨ u.halted (1568 + d) 0 = false →
      (l.foldl (fun s m => s.startManager (1568 + m)) u).halted (1568 + d) 0 = false := by
    intro l
    induction l with
    | nil => exact fun u h => h.resolve_left List.not_mem_nil
    | cons m l ih =>
      refine fun u h => ih _ ?_
      obtain ⟨hat, hrun⟩ := u.startManager_at (1568 + m)
      by_cases hm : d = m
      · subst hm; exact .inr hrun
      · rw [hat.halted (by omega : ¬ 1568 + d = 1568 + m)]
        exact h.imp_left fun hd => (List.mem_cons.1 hd).resolve_left hm
  exact hall _ s (.inl (List.mem_range.2 hd))

end Sys2Proof.Machine
end

section
/-! Power, the cold reset and READY (R32, R112, R405, R415, R432, R433, R435, R437, R442, R444, R448). -/

namespace Sys2Proof.Machine

-- the registers that a reset keeps

/-- A reset keeps the cause of it, and whether the debugger is let in (R341, R432). -/
theorem State.renew_cause (s : State) (kept : Nat → Nat → Bool) (cores : SMap Core) :
    (s.renew kept cores).fld 0 PWR_STATUS_CAUSE = s.fld 0 PWR_STATUS_CAUSE := by
  have hset : ∀ u : State, ((u.setFld 0 PWR_STATUS_CAUSE (s.fld 0 PWR_STATUS_CAUSE)).setFld 0 MGT_DBG_STATUS_OPEN
      (s.fld 0 ROT_STATUS_DBG_OPEN)).fld 0 PWR_STATUS_CAUSE = s.fld 0 PWR_STATUS_CAUSE := fun u => by
    rw [State.fld_setFld_ne _ _ _ _ _ _ (by decide), State.fld_setFld _ _ _ _ ⟨by decide, by decide⟩]
    exact Nat.mod_eq_of_lt (bitsOf_lt _ _ _)
  exact hset _

theorem State.renew_pins (s : State) (kept : Nat → Nat → Bool) (cores : SMap Core) : (s.renew kept cores).pins = s.pins := by
  have hset : ∀ u : State, u.pins = s.pins → ((u.setFld 0 PWR_STATUS_CAUSE (s.fld 0 PWR_STATUS_CAUSE)).setFld 0 MGT_DBG_STATUS_OPEN
      (s.fld 0 ROT_STATUS_DBG_OPEN)).pins = s.pins := fun u hu =>
    ((State.setFld_pins _ 0 _ _).trans (u.setFld_pins 0 _ _)).trans hu
  exact hset _ rfl

-- warm reset

/-- A warm reset that PERST_N, the host or a command asks for (R432). -/
theorem State.warm_resets (s : State) (cause : Nat) (hc : s.resetting ≠ .cold) (hs : s.resetting ≠ .stopped) (h4 : cause < 16) :
    (s.warm cause).resetting = .warm ∧ (s.warm cause).fld 0 PWR_STATUS_CAUSE = cause ∧ (s.warm cause).pins = s.pins := by
  have hw : s.warm cause = ({ (s.setFld 0 PWR_STATUS_CAUSE cause).renew warmKept (s.setFld 0 PWR_STATUS_CAUSE cause).warmCores with
      resetting := .warm }).fwRestart.seedDies := by
    rw [State.warm, if_neg (not_or.2 ⟨hc, hs⟩)]
  have hcause := State.renew_cause (s.setFld 0 PWR_STATUS_CAUSE cause) warmKept (s.setFld 0 PWR_STATUS_CAUSE cause).warmCores
  rw [State.fld_setFld _ _ _ _ ⟨by decide, by decide⟩, Nat.mod_eq_of_lt (by exact h4)] at hcause
  have hpins : ((s.setFld 0 PWR_STATUS_CAUSE cause).renew warmKept (s.setFld 0 PWR_STATUS_CAUSE cause).warmCores).pins = s.pins :=
    (State.renew_pins _ _ _).trans (s.setFld_pins 0 _ _)
  rw [hw]
  generalize (s.setFld 0 PWR_STATUS_CAUSE cause).renew warmKept (s.setFld 0 PWR_STATUS_CAUSE cause).warmCores = v at hcause hpins
  have hu : ({ v with resetting := .warm } : State).fld 0 PWR_STATUS_CAUSE = cause := (State.fld_of_regs rfl 0 _).trans hcause
  have hr : ({ v with resetting := .warm } : State).resetting = .warm := rfl
  have hp : ({ v with resetting := .warm } : State).pins = s.pins := hpins
  generalize ({ v with resetting := .warm } : State) = u at hu hr hp
  obtain ⟨k1, -, -, k4⟩ := u.fwRestart_keeps
  obtain ⟨m1, -, -, m4, -⟩ := u.fwRestart.seedDies_keeps
  exact ⟨(m1.resetting.trans k1.resetting).trans hr, by rw [m4.fld 0 (by decide) (by decide), k4.fld 0 (by decide) (by decide), hu],
    (m1.pins.trans k1.pins).trans hp⟩

theorem State.warm_awaited (s : State) (cause : Nat) (h : s.resetting = .cold ∨ s.resetting = .stopped) : s.warm cause = s := by
  rw [State.warm, if_pos h]

-- cold reset

/-- The nonce of the debug token drawn anew (R422). -/
def State.drawNonce (s : State) (k : Nat) : State := s.fresh.2.setFld 0 (ROT_DBG_NONCE_NONCE k) (s.fresh.1 % 2 ^ 32)

theorem State.drawNonce_keeps (s : State) (k : Nat) (hk : k < 8) : Housekept s (s.drawNonce k) ∧ (s.drawNonce k).log = s.log ∧
    (s.drawNonce k).rot = s.rot ∧ RegsBut (pages [0x108]) s (s.drawNonce k) := by
  refine ⟨s.fresh_housekept.trans (State.setFld_housekept _ 0 _ _), State.setFld_log _ 0 _ _, State.setFld_rot _ 0 _ _,
    RegsBut.trans (RegsBut.of_regs (t := s.fresh.2) _ rfl) (State.setFld_but _ _ 0 _ _ ?_ ?_)⟩
  · show 0x108010 + 4 * k < 0x4000000; omega
  · have hp : (0x108010 + 4 * k) / 0x1000 = 0x108 := by omega
    show pages [0x108] (0x108010 + 4 * k) = true
    rw [pages, hp]; rfl

/-- What a list of operations keeps, each of them keeping it. -/
theorem kept_foldl {α : Type} (f : State → α → State) (p : Nat → Bool) (l : List α)
    (h : ∀ s, ∀ a ∈ l, Housekept s (f s a) ∧ (f s a).rot = s.rot ∧ RegsBut p s (f s a)) :
    ∀ s, Housekept s (l.foldl f s) ∧ (l.foldl f s).rot = s.rot ∧ RegsBut p s (l.foldl f s) := by
  induction l with
  | nil => exact fun s => ⟨Housekept.refl s, rfl, RegsBut.refl p s⟩
  | cons a l ih =>
    intro s
    obtain ⟨h1, h2, h3⟩ := h s a List.mem_cons_self
    obtain ⟨k1, k2, k3⟩ := ih (fun s b hb => h s b (List.mem_cons_of_mem a hb)) (f s a)
    exact ⟨h1.trans k1, k2.trans h2, h3.trans k3⟩

/-- The sites that fail their self-test, but those that the production map names already (R112). -/
def State.selfTestFails (s : State) (fails : List Nat) : List Nat :=
  (List.range Config.sites).filter (fun k => fails.contains k && !s.prodBad.contains k)

/-- The state after a cold reset has renewed both domains and set the site map, before anything is drawn or verified (R112, R433, R448). -/
def State.coldStart (s : State) (fails : List Nat) (straps : Nat) : State :=
  let t := s.renew mgmtKept s.mgmtCores
  { t with
    siteBad := if s.mapOk then s.prodBad ++ s.selfTestFails fails else List.range Config.sites
    mid := straps % 16
    resetting := .coldRun
    rot := { t.rot with epoch := t.rot.epoch + 1, signing := none } }

/-- What the root of trust shows of the map and of debug access (R415, R421). -/
def State.rotShown (s : State) (mapOk : Bool) : State :=
  ((s.setRg (dkey 0 ROT_STATUS_MAP_OK.off) (setBits (s.rg (dkey 0 ROT_STATUS_MAP_OK.off)) 0 4 (b2n mapOk + 4 * b2n (!identityOk)))).setRg
    (dkey 0 ROT_EVENT_DBG.off) 0).setFld 0 MGT_DBG_STATUS_OPEN 0

/-- The report of what was found bad (R112). -/
def State.mapNotices (s : State) (mapOk : Bool) (fails : List Nat) : State :=
  if mapOk then fails.foldl (fun t k => t.notice (dieOf k) k) s else s.notice 0 0x7FF

/-- Nonces drawn, firmware and measurement renewed, dies seeded (R415, R418, R433). -/
def State.rooted (s : State) : State := ((List.range 8).foldl State.drawNonce s).fwRestart.measure5.seedDies

theorem execColdReset_eq (s : State) (fails : List Nat) (straps : Nat) (hc : s.resetting = .cold) (hp : s.pins.pwrgd = true)
    (hr : s.pins.perst = true) : execColdReset fails straps s =
      done (((s.coldStart fails straps).rotShown s.mapOk).rooted.mapNotices s.mapOk (s.selfTestFails fails)) := by
  rw [execColdReset, if_pos ⟨hc, hp, hr⟩]
  rfl

/-- What the cold reset renews (R112, R433, R448). -/
theorem State.coldStart_renews (s : State) (fails : List Nat) (straps : Nat) : let t := s.coldStart fails straps
    t.mem = s.mem.filter (fun p => inMgmtPads p.1) ∧ t.poison = s.poison.filter (fun g => inMgmtPads (g * 64)) ∧ t.cb = [] ∧ t.steps = [] ∧
    t.resetting = .coldRun ∧ t.mid = straps % 16 ∧ t.rot.epoch = s.rot.epoch + 1 ∧ t.log = s.log ∧ t.rot.active = s.rot.active ∧
    t.rot.next = s.rot.next ∧ t.siteBad = if s.mapOk then s.prodBad ++ s.selfTestFails fails else List.range Config.sites :=
  ⟨rfl, rfl, rfl, rfl, rfl, rfl, rfl, rfl, rfl, rfl, rfl⟩

theorem State.rotShown_keeps (s : State) (mapOk : Bool) : Housekept s (s.rotShown mapOk) ∧ (s.rotShown mapOk).log = s.log ∧
    (s.rotShown mapOk).rot = s.rot ∧ (s.rotShown mapOk).flag 0 MGT_DBG_STATUS_OPEN = false := by
  refine ⟨((s.setRg_housekept _ _).trans (State.setRg_housekept _ _ _)).trans (State.setFld_housekept _ _ _ _), rfl, rfl, ?_⟩
  rw [State.flag, State.rotShown, State.fld_setFld _ _ _ _ ⟨by decide, by decide⟩]
  rfl

/-- What the root of trust's work at a cold reset leaves, and the seeds it sets. -/
theorem State.rooted_keeps (s : State) : Housekept s s.rooted ∧ s.rooted.log = s.log ∧ s.rooted.rot.epoch = s.rot.epoch ∧
    RegsBut (pages [0x108, 0x100, 0xB1, 0xF0]) s s.rooted ∧ (∀ d < 8, s.rooted.rg64 (dkey d CHK_SEED_LO_SEED.off) ≠ 0) ∧
    (s.rot.active = none → s.rot.next = false → s.rooted.fwOk = false) := by
  obtain ⟨n1, n2, n3⟩ := kept_foldl State.drawNonce (pages [0x108]) (List.range 8)
    (fun u k hk => ⟨(u.drawNonce_keeps k (List.mem_range.1 hk)).1, (u.drawNonce_keeps k (List.mem_range.1 hk)).2.2⟩) s
  have nlog : ((List.range 8).foldl State.drawNonce s).log = s.log :=
    State.foldl_same _ State.log (fun u k => (State.setFld_log u.fresh.2 0 _ _).trans rfl) _ s
  unfold State.rooted
  generalize (List.range 8).foldl State.drawNonce s = u at *
  have hnone : u.rot.active = none → u.rot.next = false → u.fwRestart.fwOk = false := fun ha hn => by
    rw [u.fwRestart_none ha hn, State.fwOk, State.flag, State.fld_setFld _ _ _ _ ⟨by decide, by decide⟩]
    rfl
  obtain ⟨f1, f2, f3, f4⟩ := u.fwRestart_keeps
  generalize u.fwRestart = v at *
  have hm : Housekept v v.measure5 ∧ v.measure5.log = v.log ∧ v.measure5.rot.epoch = v.rot.epoch ∧ v.measure5.regs = v.regs := ⟨rfl, rfl, rfl, rfl⟩
  obtain ⟨m1, m2, m3, m4⟩ := hm
  generalize v.measure5 = w at *
  obtain ⟨d1, d2, d3, d4, d5⟩ := w.seedDies_keeps
  refine ⟨((n1.trans f1).trans m1).trans d1, by rw [d2, m2, f2, nlog], by rw [d3, m3, f3, n2], ?_, d5, fun ha hn => ?_⟩
  · exact (((n3.pages_mono (by decide)).trans (f4.pages_mono (by decide))).trans (RegsBut.of_regs _ m4)).trans (d4.pages_mono (by decide))
  · have := hnone (by rw [n2, ha]) (by rw [n2, hn])
    rw [State.fwOk, d4.flag 0 (by decide) (by decide), State.flag_of_regs m4]
    exact this

theorem State.mapNotices_keeps (s : State) (mapOk : Bool) (fails : List Nat) : Housekept s (s.mapNotices mapOk fails) ∧
    (s.mapNotices mapOk fails).rot = s.rot ∧ RegsBut logOff s (s.mapNotices mapOk fails) ∧
    (mapOk = true → fails = [] → (s.mapNotices mapOk fails).log = s.log) := by
  cases mapOk with
  | true =>
    obtain ⟨h1, h2, h3⟩ := kept_foldl (fun t k => t.notice (dieOf k) k) logOff fails (fun u k _ => u.notice_keeps (dieOf k) k) s
    exact ⟨h1, h2, h3, fun _ hf => by subst hf; rfl⟩
  | false => exact ⟨(s.notice_keeps 0 0x7FF).1, (s.notice_keeps 0 0x7FF).2.1, (s.notice_keeps 0 0x7FF).2.2, fun h => Bool.noConfusion h⟩

theorem mem_badMap (s : State) (fails : List Nat) (k : Nat) :
    k ∈ s.prodBad ++ s.selfTestFails fails ↔ k ∈ s.prodBad ∨ (k < Config.sites ∧ k ∈ fails) := by
  simp only [State.selfTestFails, List.mem_append, List.mem_filter, List.mem_range, Bool.and_eq_true, List.contains_eq_mem, decide_eq_true_eq,
    Bool.not_eq_true', decide_eq_false_iff_not]
  tauto

/-- A cold reset, up to the start of the runtime (R112, R415, R418, R433, R448). -/
theorem coldReset_renews (s : State) (fails : List Nat) (straps d k : Nat) (hc : s.resetting = .cold) (hp : s.pins.pwrgd = true)
    (hr : s.pins.perst = true) :
    Yields (exec (.coldReset fails straps) s) (fun t => t.mem = s.mem.filter (fun p => inMgmtPads p.1) ∧
      t.poison = s.poison.filter (fun g => inMgmtPads (g * 64)) ∧ t.cb = [] ∧ t.steps = [] ∧ t.resetting = .coldRun ∧
      t.mid = straps % 16 ∧ t.rot.epoch = s.rot.epoch + 1 ∧ t.flag 0 MGT_DBG_STATUS_OPEN = false ∧
      (s.mapOk = true → (k ∈ t.siteBad ↔ k ∈ s.prodBad ∨ (k < Config.sites ∧ k ∈ fails))) ∧
      (s.mapOk = false → (k < Config.sites → t.good k = false)) ∧
      (d < 8 → t.rg64 (dkey d CHK_SEED_LO_SEED.off) ≠ 0) ∧ (s.mapOk = true → fails = [] → t.log = s.log) ∧
      (s.rot.active = none → s.rot.next = false → t.fwOk = false)) := by
  show Yields (execColdReset fails straps s) _
  rw [execColdReset_eq s fails straps hc hp hr]
  refine yields_done ?_
  obtain ⟨c1, c2, c3, c4, c5, c6, c7, c8, c9, c10, c11⟩ := s.coldStart_renews fails straps
  generalize s.coldStart fails straps = t1 at *
  obtain ⟨s1, s2, s3, s4⟩ := t1.rotShown_keeps s.mapOk
  generalize t1.rotShown s.mapOk = t2 at *
  obtain ⟨r1, r2, r3, r4, r5, r6⟩ := t2.rooted_keeps
  generalize t2.rooted = t3 at *
  obtain ⟨n1, n2, n3, n4⟩ := t3.mapNotices_keeps s.mapOk (s.selfTestFails fails)
  generalize t3.mapNotices s.mapOk (s.selfTestFails fails) = t4 at *
  have hk : Housekept t1 t4 := (s1.trans r1).trans n1
  have hbad : t4.siteBad = if s.mapOk then s.prodBad ++ s.selfTestFails fails else List.range Config.sites := hk.siteBad.trans c11
  refine ⟨?_, ?_, ?_, ?_, ?_, ?_, ?_, ?_, fun hm => ?_, fun hm hlt => ?_, fun hd => ?_, fun hm hf => ?_, fun ha hn => ?_⟩
  · exact hk.mem.trans c1
  · exact hk.poison.trans c2
  · exact hk.cb.trans c3
  · exact hk.steps.trans c4
  · exact hk.resetting.trans c5
  · exact hk.mid.trans c6
  · show t4.rot.epoch = _
    rw [n2, r3, s3, c7]
  · rw [State.settle_flag, n3.flag 0 (by decide) (by decide), r4.flag 0 (by decide) (by decide)]
    exact s4
  · show k ∈ t4.siteBad ↔ _
    rw [hbad, if_pos hm]
    exact mem_badMap s fails k
  · show t4.good k = false
    rw [State.good, hbad, if_neg (by simp [hm])]
    simp [hlt]
  · show t4.rg64 _ ≠ 0
    rw [n3.rg64 d (by decide) (by decide) (by decide)]
    exact r5 d hd
  · have hnil : s.selfTestFails fails = [] := by simp [State.selfTestFails, hf]
    show t4.log = s.log
    rw [n4 hm hnil, r2, s2, c8]
  · show t4.fwOk = false
    rw [State.fwOk, n3.flag 0 (by decide) (by decide)]
    exact r6 (by rw [s3, c9, ha]) (by rw [s3, c10, hn])

-- READY

/-- A stack shown ready. -/
def State.stackReady (s : State) (d : Nat) : State := s.setFld d HBC_STATUS_READY 1

/-- The flag READY and the state shown, and the stacks ready, at the end of the start-up (R435). -/
def State.shownReady (s : State) : State :=
  (List.range 8).foldl State.stackReady ((s.setFld 0 PWR_STATUS_READY 1).setFld 0 PWR_STATUS_STATE 0)

theorem execReady_eq (s : State) (hr : s.resetting = .coldRun ∨ s.resetting = .warm) (hf : s.fwOk = true) (hp : s.pins.pwrgd = true)
    (hrst : s.pins.perst = true) : execReady s = done s.shownReady.startManagers.curtainZero := by
  rw [execReady, if_pos ⟨hr, hf, hp, hrst⟩]
  rfl

theorem State.stackReady_flag (s : State) (d e : Nat) (h : d = e ∨ s.flag d HBC_STATUS_READY = true) :
    (s.stackReady e).flag d HBC_STATUS_READY = true := by
  obtain rfl | h := h
  · rw [State.flag, State.stackReady, State.fld_setFld _ _ _ _ ⟨by decide, by decide⟩]
    rfl
  · have hup : BitsUp s (s.setFld e HBC_STATUS_READY 1) := s.setFld_up e HBC_STATUS_READY.off 0
    exact hup.flag d rfl h

/-- The stacks of a list of dies shown ready. -/
theorem State.stacksReady {d : Nat} (l : List Nat) : ∀ s : State, d ∈ l ∨ s.flag d HBC_STATUS_READY = true →
    (l.foldl State.stackReady s).flag d HBC_STATUS_READY = true := by
  induction l with
  | nil => exact fun s h => h.resolve_left List.not_mem_nil
  | cons e l ih =>
    intro s h
    rw [List.foldl_cons]
    refine ih _ ?_
    by_cases he : d = e
    · exact .inr (s.stackReady_flag d e (.inl he))
    · exact h.imp (fun hm => (List.mem_cons.1 hm).resolve_left he) fun hf => s.stackReady_flag d e (.inr hf)

/-- What is shown at READY. -/
theorem State.shownReady_shows (s : State) : s.shownReady.flag 0 PWR_STATUS_READY = true ∧ s.shownReady.fld 0 PWR_STATUS_STATE = 0 ∧
    ∀ d < 8, s.shownReady.flag d HBC_STATUS_READY = true := by
  have hhbc : RegsBut (pages [0xA0]) ((s.setFld 0 PWR_STATUS_READY 1).setFld 0 PWR_STATUS_STATE 0) s.shownReady :=
    RegsBut.foldl _ _ (fun u d _ => u.setFld_but _ d _ 1 (by decide) (by decide)) _
  refine ⟨?_, ?_, fun d hd => State.stacksReady _ _ (.inl (List.mem_range.2 hd))⟩
  · rw [hhbc.flag 0 (by decide) (by decide), State.flag,
      State.fld_setFld_apart _ 0 PWR_STATUS_STATE PWR_STATUS_READY _ ⟨by decide, by decide⟩ ⟨by decide, by decide⟩ rfl (.inl (by decide)),
      State.fld_setFld _ _ _ _ ⟨by decide, by decide⟩]
    rfl
  · rw [hhbc.fld 0 (by decide) (by decide), State.fld_setFld _ _ _ _ ⟨by decide, by decide⟩]
    rfl

/-- What stands at READY: all but registers. -/
theorem State.shownReady_keeps (s : State) : s.shownReady.now = s.now ∧ s.shownReady.cores = s.cores := by
  have hset (u : State) (f : RF) (v d : Nat) : (u.setFld d f v).now = u.now ∧ (u.setFld d f v).cores = u.cores := ⟨u.setFld_now d f v, u.setFld_cores d f v⟩
  unfold State.shownReady
  constructor
  · rw [State.foldl_same State.stackReady State.now (fun u d => (hset u HBC_STATUS_READY 1 d).1), (hset _ _ _ _).1, (hset _ _ _ _).1]
  · rw [State.foldl_same State.stackReady State.cores (fun u d => (hset u HBC_STATUS_READY 1 d).2), (hset _ _ _ _).2, (hset _ _ _ _).2]

/-- Curtain 0 begun: its frame, its source, and the clock that runs (R32). -/
def State.frameZero (s : State) : State :=
  ({ s with frame := 0, curtainAt := s.now, curMode := .internal, resetting := .none }).setFld 0 CUR_STATUS_RUN 1

theorem State.frameZero_begins (s : State) : s.frameZero.frame = 0 ∧ s.frameZero.curtainAt = s.now ∧ s.frameZero.curMode = .internal ∧
    s.frameZero.resetting = .none ∧ s.frameZero.cores = s.cores ∧ s.frameZero.flag 0 CUR_STATUS_RUN = true ∧
    RegsBut (pages [0x10]) s s.frameZero := by
  have hset : ∀ u : State, u.regs = s.regs → (u.setFld 0 CUR_STATUS_RUN 1).flag 0 CUR_STATUS_RUN = true ∧
      RegsBut (pages [0x10]) s (u.setFld 0 CUR_STATUS_RUN 1) := fun u hu => by
    refine ⟨?_, (RegsBut.of_regs _ hu).trans (u.setFld_but _ 0 _ 1 (by decide) (by decide))⟩
    rw [State.flag, State.fld_setFld _ _ _ _ ⟨by decide, by decide⟩]
    rfl
  exact ⟨rfl, rfl, rfl, rfl, rfl, (hset _ rfl).1, (hset _ rfl).2⟩

/-- The end of Curtain 0: every bulk channel's credits, and the drive of the curtain pin. -/
def State.opened (s : State) : State :=
  let t := (List.range 8).foldl (fun s d => s.addReq d 31) s
  if t.flag 0 CUR_CTRL_OUT_EN && !t.pinsTaken then t.emit .curtainOut else t

theorem State.curtainZero_eq (s : State) :
    s.curtainZero = ({ s.frameZero with nominal := s.frameZero.nominalLen }).assignRoles.opened := rfl

theorem State.opened_keeps (s : State) : s.opened.frame = s.frame ∧ s.opened.curtainAt = s.curtainAt ∧ s.opened.curMode = s.curMode ∧
    s.opened.resetting = s.resetting ∧ s.opened.regs = s.regs := by
  have hall {β : Type} (g : State → β) (hreq : ∀ (u : State) (d : Nat), g (u.addReq d 31) = g u) (hout : ∀ u : State, g (u.emit .curtainOut) = g u) :
      g s.opened = g s := by
    have hfold := State.foldl_same (fun s d => State.addReq s d 31) g hreq (List.range 8) s
    unfold State.opened
    dsimp only
    split
    · exact (hout _).trans hfold
    · exact hfold
  exact ⟨hall _ (fun _ _ => rfl) fun _ => rfl, hall _ (fun _ _ => rfl) fun _ => rfl, hall _ (fun _ _ => rfl) fun _ => rfl,
    hall _ (fun _ _ => rfl) fun _ => rfl, hall _ (fun _ _ => rfl) fun _ => rfl⟩

/-- Curtain 0: what it sets, and the registers and managers that stand (R32, R435). -/
theorem State.curtainZero_begins (s : State) (hw : NoWaits s) : s.curtainZero.frame = 0 ∧ s.curtainZero.curtainAt = s.now ∧
    s.curtainZero.curMode = .internal ∧ s.curtainZero.resetting = .none ∧ s.curtainZero.flag 0 CUR_STATUS_RUN = true ∧
    (∀ (d : Nat) (f : RF), f.off < 0x1000000 → pages [0x10] f.off = false → s.curtainZero.fld d f = s.fld d f) ∧
    ∀ j, 1568 ≤ j → ∀ y, s.curtainZero.halted j y = s.halted j y := by
  rw [State.curtainZero_eq]
  obtain ⟨z1, z2, z3, z4, z5, z6, z7⟩ := s.frameZero_begins
  generalize s.frameZero = u at *
  have hroles : ∀ v : State, NoWaits v → AtSites (· < 1568) { v with replaced := v.keptReplacements } v.assignRoles := fun v hv => v.assignRoles_at hv
  have hlen : ∀ v : State, v.cores = u.cores → v.regs = u.regs → v.frame = u.frame → v.curtainAt = u.curtainAt → v.curMode = u.curMode →
      v.resetting = u.resetting → v.assignRoles.frame = u.frame ∧ v.assignRoles.curtainAt = u.curtainAt ∧ v.assignRoles.curMode = u.curMode ∧
      v.assignRoles.resetting = u.resetting ∧ (∀ (d : Nat) (f : RF), f.off < 0x1000000 → v.assignRoles.fld d f = u.fld d f) ∧
      ∀ j, 1568 ≤ j → ∀ y, v.assignRoles.halted j y = u.halted j y := fun v h1 h2 h3 h4 h5 h6 => by
    have ha := v.assignRoles_at fun j y => by rw [State.thr_of_cores h1, State.thr_of_cores z5]; exact hw j y
    exact ⟨(ha.same State.frame fun _ _ _ => rfl).trans h3, (ha.same State.curtainAt fun _ _ _ => rfl).trans h4,
      (ha.same State.curMode fun _ _ _ => rfl).trans h5, (ha.same State.resetting fun _ _ _ => rfl).trans h6,
      fun d f hf => (ha.fld d hf).trans (State.fld_of_regs h2 d f), fun j hj y => (ha.halted (by omega) y).trans (State.halted_of_regs h2 j y)⟩
  obtain ⟨r1, r2, r3, r4, r5, r6⟩ := hlen { u with nominal := u.nominalLen } rfl rfl rfl rfl rfl rfl
  generalize ({ u with nominal := u.nominalLen } : State).assignRoles = v at *
  obtain ⟨o1, o2, o3, o4, o5⟩ := v.opened_keeps
  refine ⟨o1.trans (r1.trans z1), o2.trans (r2.trans z2), o3.trans (r3.trans z3), o4.trans (r4.trans z4), ?_, fun d f hf hp => ?_, fun j hj y => ?_⟩
  · rw [State.flag_of_regs o5, State.flag, r5 0 _ (by decide)]
    exact z6
  · rw [State.fld_of_regs o5, r5 d f hf, z7.fld d (by omega) hp]
  · rw [State.halted_of_regs o5, r6 j hj y]
    have hr : u.rg (ckey j CFG_CORE_CTRL_HALT.off) = s.rg (ckey j CFG_CORE_CTRL_HALT.off) := z7 _ (by
      rw [(ckey_split j _ (by decide)).2]
      simp only [pages, siteOff, List.contains_eq_mem, List.mem_singleton, decide_eq_false_iff_not]
      omega)
    rw [State.halted, State.halted, State.cfld, State.cfld, State.fldAt, State.fldAt, hr]

end Sys2Proof.Machine
end

section
/-! The start-up, command by command (R32, R112, R405, R432, R433, R435, R444). -/

namespace Sys2Proof.Machine

/-- READY: the runtime starts and Curtain 0 falls (R32, R418, R435). -/
theorem ready_starts (s : State) (d : Nat) (hr : s.resetting = .coldRun ∨ s.resetting = .warm) (hf : s.fwOk = true)
    (hp : s.pins.pwrgd = true) (hrst : s.pins.perst = true) (hw : NoWaits s) :
    Yields (exec .ready s) (fun t => t.flag 0 PWR_STATUS_READY = true ∧ t.fld 0 PWR_STATUS_STATE = 0 ∧ t.flag 0 CUR_STATUS_RUN = true ∧
      t.frame = 0 ∧ t.curtainAt = s.now ∧ t.curMode = .internal ∧ t.resetting = .none ∧ (d < 8 → t.flag d HBC_STATUS_READY = true) ∧
      (d < 16 → t.halted (1568 + d) 0 = false)) := by
  show Yields (execReady s) _
  rw [execReady_eq s hr hf hp hrst]
  refine yields_done ?_
  obtain ⟨hready, hstate, hhbc⟩ := s.shownReady_shows
  obtain ⟨hnow, hcores⟩ := s.shownReady_keeps
  generalize s.shownReady = u at *
  have hwu : NoWaits u := fun j y => by rw [State.thr_of_cores hcores]; exact hw j y
  obtain ⟨hat, hrun⟩ := u.startManagers_at hwu
  generalize u.startManagers = v at *
  obtain ⟨c1, c2, c3, c4, c5, c6, c7⟩ := v.curtainZero_begins (hat.idle hwu)
  generalize v.curtainZero = w at *
  have hfld (e : Nat) (f : RF) (h1 : f.off < 0x1000000) (h2 : pages [0x10] f.off = false) : w.fld e f = u.fld e f :=
    (c6 e f h1 h2).trans (hat.fld e h1)
  simp only [State.settle_flag, State.settle_fld, State.settle_halted]
  refine ⟨?_, ?_, c5, c1, ?_, c3, c4, fun hd => ?_, fun hd => ?_⟩
  · rw [State.flag, hfld 0 _ (by decide) (by decide)]; exact hready
  · rw [hfld 0 _ (by decide) (by decide)]; exact hstate
  · show w.curtainAt = s.now
    rw [c2, hat.same State.now fun _ _ _ => rfl, hnow]
  · rw [State.flag, hfld d _ (by decide) (by decide)]; exact hhbc d hd
  · rw [c7 _ (by omega)]; exact hrun d hd

theorem ready_refused (s : State) (h : s.fwOk = false ∨ (s.resetting ≠ .coldRun ∧ s.resetting ≠ .warm)) :
    exec .ready s = .next s.settle := by
  show execReady s = _
  rw [execReady, if_neg, done_eq]
  rintro ⟨hr, hf, -⟩
  obtain h | ⟨h1, h2⟩ := h
  · exact Bool.noConfusion (h.symm.trans hf)
  · exact hr.elim h1 h2

-- the supply and PERST_N

theorem powerOnReset_starts (s : State) (h : s.pins.input = false) :
    Yields (exec .powerOnReset s) (fun t => t.pins.input = true ∧ t.upTime = 0 ∧
      (s.pins.pwrEn = true → t.pins.pwrgd = true ∧ t.pins.clkreq = true ∧ t.resetting = .cold) ∧
      (s.pins.pwrEn = false → t.pins.pwrgd = s.pins.pwrgd)) := by
  show Yields (execPowerOnReset s) _
  refine yields_done ?_
  rw [if_neg (by rw [h]; exact Bool.false_ne_true)]
  dsimp only
  cases hen : s.pins.pwrEn
  · exact ⟨rfl, rfl, fun hne => Bool.noConfusion hne, fun _ => rfl⟩
  · exact ⟨rfl, rfl, fun _ => ⟨rfl, rfl, rfl⟩, fun hne => Bool.noConfusion hne⟩

theorem pwrEnRise_raises (s : State) (h : s.pinsTaken = false) :
    Yields (exec .pwrEnRise s) (fun t => t.pins.pwrEn = true ∧ t.pins.thermtrip = false ∧
      (s.pins.input = true → s.pins.pwrgd = false → t.pins.pwrgd = true ∧ t.pins.clkreq = true ∧ t.resetting = .cold) ∧
      (s.resetting = .stopped → s.pins.pwrgd = true → t.pins.rose = true ∧ t.resetting = .stopped)) := by
  show Yields (execPwrEnRise s) _
  refine yields_done ?_
  rw [if_neg (by rw [h]; exact Bool.false_ne_true)]
  dsimp only
  cases hin : s.pins.input <;> cases hgd : s.pins.pwrgd
  · exact ⟨rfl, rfl, fun hne => Bool.noConfusion hne, fun _ hne => Bool.noConfusion hne⟩
  · exact ⟨rfl, rfl, fun hne => Bool.noConfusion hne, fun hs _ => ⟨by show (true && _) = true; rw [hs]; rfl, hs⟩⟩
  · exact ⟨rfl, rfl, fun _ _ => ⟨rfl, rfl, rfl⟩, fun _ hne => Bool.noConfusion hne⟩
  · exact ⟨rfl, rfl, fun _ hne => Bool.noConfusion hne, fun hs _ => ⟨by show (true && _) = true; rw [hs]; rfl, hs⟩⟩

/-- The state after PERST_N changes. -/
def State.perstTo (s : State) (v : Bool) : State := { s with pins := { s.pins with perst := v } }

theorem perstNAssert_resets (s : State) (h : s.pinsTaken = false) :
    Yields (exec .perstNAssert s) (fun t => t.pins.perst = false ∧
      (s.pins.pwrgd = true → s.resetting ≠ .cold → s.resetting ≠ .stopped → t.resetting = .warm ∧ t.fld 0 PWR_STATUS_CAUSE = 6) ∧
      (s.resetting = .cold ∨ s.resetting = .stopped → t.resetting = s.resetting ∧ t.mem = s.mem)) := by
  have he : execPerstNAssert s = done (if s.pins.pwrgd then (s.perstTo false).warm 6 else s.perstTo false) := by
    rw [execPerstNAssert, if_neg (by rw [h]; exact Bool.false_ne_true)]
    rfl
  show Yields (execPerstNAssert s) _
  rw [he]
  refine yields_done ?_
  have hp : (s.perstTo false).pins.perst = false := rfl
  by_cases hr : s.resetting = .cold ∨ s.resetting = .stopped
  · rw [State.warm_awaited (s.perstTo false) 6 hr, ite_self]
    exact ⟨rfl, fun _ h1 h2 => absurd hr (not_or.2 ⟨h1, h2⟩), fun _ => ⟨rfl, rfl⟩⟩
  · obtain ⟨h1, h2⟩ := not_or.1 hr
    obtain ⟨w1, w2, w3⟩ := (s.perstTo false).warm_resets 6 h1 h2 (by decide)
    split
    · refine ⟨?_, fun _ _ _ => ⟨w1, ?_⟩, fun h => absurd h hr⟩
      · show ((s.perstTo false).warm 6).pins.perst = false
        rw [w3, hp]
      · rw [State.settle_fld, w2]
    · next hn => exact ⟨rfl, fun h => absurd h hn, fun h => absurd h hr⟩

theorem perstNRelease_starts (s : State) (h : s.pinsTaken = false) :
    Yields (exec .perstNRelease s) (fun t => t.pins.perst = true ∧ t.resetting = s.resetting ∧ t.regs = s.regs ∧
      (s.resetting = .cold → s.pins.pwrgd = true → t.now = 0)) := by
  have he : execPerstNRelease s = done (if s.pins.pwrgd ∧ s.resetting = .cold then { s.perstTo true with now := 0 } else s.perstTo true) := by
    rw [execPerstNRelease, if_neg (by rw [h]; exact Bool.false_ne_true)]
    rfl
  show Yields (execPerstNRelease s) _
  rw [he]
  refine yields_done ?_
  split
  · exact ⟨rfl, rfl, rfl, fun _ _ => rfl⟩
  · next hn => exact ⟨rfl, rfl, rfl, fun hc hp => absurd ⟨hp, hc⟩ hn⟩

theorem pins_taken (s : State) (h : s.pinsTaken = true) : exec .pwrEnRise s = .next s.settle ∧ exec .perstNAssert s = .next s.settle ∧
    exec .perstNRelease s = .next s.settle := by
  refine ⟨?_, ?_, ?_⟩
  · show execPwrEnRise s = _
    rw [execPwrEnRise, if_pos h, done_eq]
  · show execPerstNAssert s = _
    rw [execPerstNAssert, if_pos h, done_eq]
  · show execPerstNRelease s = _
    rw [execPerstNRelease, if_pos h, done_eq]

/-- Settles O54, by one lemma for each command of the start-up. -/
theorem startsFollowTheReset : Obligations.StartsFollowTheReset := by
  unfold Obligations.StartsFollowTheReset
  intro s fails straps d k
  exact ⟨powerOnReset_starts s, pins_taken s, fun h => ⟨pwrEnRise_raises s h, perstNAssert_resets s h, perstNRelease_starts s h⟩,
    fun hc hp hr => coldReset_renews s fails straps d k hc hp hr, fun hr hf hp hrst hw => ready_starts s d hr hf hp hrst hw, ready_refused s⟩

end Sys2Proof.Machine
end

section
/-! What host memory holds after a write of the module, and what the carriage of bytes over the mesh changes (R21, R83, R257, R389). -/

namespace Sys2Proof.Machine

-- host memory

/-- A byte of host memory after bytes were put there one by one. -/
theorem get_putBytes (a j : Nat) : ∀ (l : List Byte) (k : Nat) (m : SMap Byte),
    get 0 ((l.zip (List.range' k l.length)).foldl (fun m (p : Byte × Nat) => put 0 m (a + p.2) p.1) m) j =
      if a + k ≤ j ∧ j < a + k + l.length then l.getD (j - (a + k)) 0 else get 0 m j
  | [], k, m => by
    rw [if_neg (by simp only [List.length_nil]; omega)]
    rfl
  | b :: l, k, m => by
    rw [List.length_cons, List.range'_succ, List.zip_cons_cons, List.foldl_cons, get_putBytes a j l (k + 1) (put 0 m (a + k) b)]
    by_cases h : a + (k + 1) ≤ j ∧ j < a + (k + 1) + l.length
    · have hs : j - (a + k) = j - (a + (k + 1)) + 1 := by omega
      rw [if_pos h, if_pos (by omega), hs, List.getD_cons_succ]
    · rw [if_neg h]
      by_cases hj : j = a + k
      · subst hj
        rw [get_put_same, if_pos (by omega), Nat.sub_self, List.getD_cons_zero]
      · rw [get_put_ne _ _ hj, if_neg (by omega)]

/-- A byte of host memory after a write of the module (R83). -/
theorem State.hostByte_setHostBytes (s : State) (a : Nat) (l : List Byte) (psn : Bool) (j : Nat) :
    get 0 (s.setHostBytes a l psn).host j = if a ≤ j ∧ j < a + l.length then l.getD (j - a) 0 else get 0 s.host j := by
  have h := get_putBytes a j l 0 s.host
  rw [← List.range_eq_range', Nat.add_zero] at h
  exact h

/-- Bytes of host memory that hold a list. -/
theorem State.hostBytes_eq (s : State) (a : Nat) (l : List Byte) (h : ∀ i < l.length, get 0 s.host (a + i) = l.getD i 0) :
    s.hostBytes a l.length = l := by
  refine List.ext_getElem (by simp [State.hostBytes]) fun i h1 h2 => ?_
  have := h i h2
  rw [List.getD_eq_getElem _ _ h2] at this
  simpa [State.hostBytes] using this

/-- The record written stands in host memory. -/
theorem State.hostBytes_setHostBytes (s : State) (a : Nat) (l : List Byte) (psn : Bool) : (s.setHostBytes a l psn).hostBytes a l.length = l :=
  State.hostBytes_eq _ a l fun i hi => by rw [s.hostByte_setHostBytes, if_pos (by omega), Nat.add_sub_cancel_left]

/-- Bytes of a list put into a set are in it. -/
theorem State.hostPoisoned_setHostBytes (s : State) (a : Nat) (l : List Byte) (hl : l ≠ []) :
    (s.setHostBytes a l true).hostPoisoned a l.length = true := by
  have hpos : l.length ≠ 0 := fun h => hl (List.length_eq_zero_iff.1 h)
  have hmem : a / 64 ∈ granules a l.length := by
    rw [granules, if_neg hpos]
    exact List.mem_map.2 ⟨0, List.mem_range.2 (Nat.succ_pos _), rfl⟩
  refine List.any_eq_true.2 ⟨a / 64, hmem, ?_⟩
  rw [List.contains_eq_mem]
  exact decide_eq_true (mem_setUnion _ _ (.inr hmem))

-- the mesh

/-- Only counters and metered use differ. -/
def Metered (s t : State) : Prop := { t with cnt := s.cnt, used := s.used } = s

theorem Metered.refl (s : State) : Metered s s := rfl

theorem Metered.trans {s t u : State} (h : Metered s t) (k : Metered t u) : Metered s u := by
  have h' := congrArg (fun x : State => { x with cnt := s.cnt, used := s.used }) k
  exact h'.trans h

theorem Metered.same {s t : State} (h : Metered s t) {α : Type} (f : State → α)
    (hf : ∀ (u : State) (c : SMap Nat) (v : List (Nat × Nat × Nat × Nat)), f { u with cnt := c, used := v } = f u) : f t = f s := by
  rw [← hf t s.cnt s.used, h]

theorem Metered.regs {s t : State} (h : Metered s t) : t.regs = s.regs := h.same State.regs fun _ _ _ => rfl

theorem Light.metered {s t : State} (h : Light s t) (hr : t.regs = s.regs) : Metered s t := by
  unfold Light at h
  rw [← hr] at h
  exact h

theorem State.carry_metered (s : State) (a : Option Nat) (src dst n : Nat) : Metered s (s.carry a src dst n) :=
  (s.carry_light a src dst n).metered (s.carry_regs a src dst n)

end Sys2Proof.Machine
end

section
/-! Slots of an egress ring: what is written at the tail, and where (R83 to R86). -/

namespace Sys2Proof.Machine

-- the register TAIL stands apart

/-- Where the slot at a ring's tail lies in host memory (R83). -/
def State.egrAt (s : State) (d k : Nat) : Nat :=
  s.rg64 (dkey d (EGR_RING_BASE_LO_ADDR k).off) + 64 * (s.fld d (EGR_RING_TAIL_TAIL k) % 2 ^ s.fld d (EGR_RING_CTL_LOG2 k))

/-- Whether a ring owes a completion (R85). -/
def State.egrOwes (s : State) (d k : Nat) : Bool := s.egrOwed.any (fun (a, b, _) => a == d && b == k)

/-- A die whose unit meets nothing on its way to die 0: it is die 0's own, or its packets arrive (R253, R254). -/
def CalmAt (d : Nat) (w : Arrival) : Prop := d = 0 ∨ (w ≠ .parity ∧ w ≠ .busError)

theorem tail_key_ne (d k : Nat) {off : Nat} (h : off % 32 ≠ 16) : dkey d off ≠ dkey d (EGR_RING_TAIL_TAIL k).off := by
  show d * 0x4000000 + off ≠ d * 0x4000000 + (0x60110 + 32 * k)
  omega

/-- What reads none of the registers, the egress counts, host memory, the meters and the free values is the same of both states. -/
def EgrOnly (s t : State) : Prop :=
  ∀ (α : Type) (f : State → α), (∀ (u : State) r q c o m p n v w, f { u with
    regs := r, egrSeq := q, egrCount := c, egrOwed := o, host := m, hostPoison := p, cnt := n, used := v, free := w } = f u) → f t = f s

theorem EgrOnly.trans {s t u : State} (h : EgrOnly s t) (k : EgrOnly t u) : EgrOnly s u := fun α f hf => (k α f hf).trans (h α f hf)

/-- Bytes written at a ring's tail for a number of slots, and nothing else changed but counts of the mesh and free values (R83, R85). -/
structure EgrPut (d k : Nat) (b : List Byte) (slots : Nat) (s t : State) : Prop where
  tail : t.fld d (EGR_RING_TAIL_TAIL k) = (s.fld d (EGR_RING_TAIL_TAIL k) + slots) % 2 ^ 32
  regs : ∀ j, j ≠ dkey d (EGR_RING_TAIL_TAIL k).off → t.rg j = s.rg j
  seq : t.egrSeq = put 0 s.egrSeq (egrKey d k) ((get 0 s.egrSeq (egrKey d k) + 1) % 2 ^ 32)
  count : t.egrCount = put 0 s.egrCount (egrKey d k) ((get 0 s.egrCount (egrKey d k) + slots) % 2 ^ 64)
  owes : t.egrOwes d k = true
  host : ∀ j, get 0 t.host j = if s.egrAt d k ≤ j ∧ j < s.egrAt d k + b.length then b.getD (j - s.egrAt d k) 0 else get 0 s.host j
  same : EgrOnly s t

namespace EgrPut
variable {d k : Nat} {b : List Byte} {slots : Nat} {s t : State}

theorem mem (h : EgrPut d k b slots s t) : t.mem = s.mem := h.same _ State.mem fun _ _ _ _ _ _ _ _ _ _ => rfl
theorem backlog (h : EgrPut d k b slots s t) : t.backlog = s.backlog := h.same _ State.backlog fun _ _ _ _ _ _ _ _ _ _ => rfl
theorem dropped (h : EgrPut d k b slots s t) : t.egrDropped = s.egrDropped := h.same _ State.egrDropped fun _ _ _ _ _ _ _ _ _ _ => rfl

/-- Registers beside TAIL stand. -/
theorem fld (h : EgrPut d k b slots s t) {f : RF} (hf : f.off % 32 ≠ 16) : t.fld d f = s.fld d f := by
  rw [State.fld, State.fld, State.fldAt, State.fldAt, h.regs _ (tail_key_ne d k hf)]

theorem flag (h : EgrPut d k b slots s t) {f : RF} (hf : f.off % 32 ≠ 16) : t.flag d f = s.flag d f := by
  rw [State.flag, State.flag, h.fld hf]

theorem base (h : EgrPut d k b slots s t) : t.rg64 (dkey d (EGR_RING_BASE_LO_ADDR k).off) = s.rg64 (dkey d (EGR_RING_BASE_LO_ADDR k).off) := by
  have h0 : (EGR_RING_BASE_LO_ADDR k).off % 32 ≠ 16 := by show (0x60100 + 32 * k) % 32 ≠ 16; omega
  have h4 : (EGR_RING_BASE_LO_ADDR k).off + 4 = 0x60104 + 32 * k := by show 0x60100 + 32 * k + 4 = _; omega
  rw [State.rg64_eq, State.rg64_eq, h.regs _ (tail_key_ne d k h0)]
  have hk : dkey d (EGR_RING_BASE_LO_ADDR k).off + 4 = dkey d (0x60104 + 32 * k) := by rw [← h4]; exact Nat.add_assoc _ _ _
  rw [hk, h.regs _ (tail_key_ne d k (by omega))]

theorem log2 (h : EgrPut d k b slots s t) : t.fld d (EGR_RING_CTL_LOG2 k) = s.fld d (EGR_RING_CTL_LOG2 k) :=
  h.fld (by show (0x60108 + 32 * k) % 32 ≠ 16; omega)

theorem head (h : EgrPut d k b slots s t) : t.fld d (EGR_RING_HEAD_HEAD k) = s.fld d (EGR_RING_HEAD_HEAD k) :=
  h.fld (by show (0x6010C + 32 * k) % 32 ≠ 16; omega)

/-- A ring that takes records goes on taking them. -/
theorem on (h : EgrPut d k b slots s t) : t.egrOn d k = s.egrOn d k := by
  have hen : t.flag d EGR_CTRL_EN = s.flag d EGR_CTRL_EN := h.flag (by decide)
  have hring : t.flag d (EGR_RING_CTL_EN k) = s.flag d (EGR_RING_CTL_EN k) := h.flag (by show (0x60108 + 32 * k) % 32 ≠ 16; omega)
  rw [State.egrOn, State.egrOn, hen, hring, h.same _ (fun u => u.pcie.bme) fun _ _ _ _ _ _ _ _ _ _ => rfl,
    h.same _ State.linkUp fun _ _ _ _ _ _ _ _ _ _ => rfl]

end EgrPut

/-- What the carriage of bytes to the host changes, where nothing is met on the way. -/
theorem State.egrBytes_calm {s : State} {d : Nat} {w : Arrival} (hc : CalmAt d w) (a : Nat) (b : List Byte) :
    s.egrBytes d a b w = ((s.carry none d 0 b.length).setHostBytes a b false, true) := by
  unfold State.egrBytes
  dsimp only
  obtain rfl | ⟨hp, hb⟩ := hc
  · rw [if_pos rfl]
  · by_cases hd : d = 0
    · rw [if_pos hd]
    · rw [if_neg hd, if_neg hp, if_neg hb]

/-- Slots counted, and the completion owed for them (R85). -/
def State.egrTally (s : State) (d k slots : Nat) : State :=
  { s with
    egrSeq := put 0 s.egrSeq (egrKey d k) ((get 0 s.egrSeq (egrKey d k) + 1) % 2 ^ 32)
    egrCount := put 0 s.egrCount (egrKey d k) ((get 0 s.egrCount (egrKey d k) + slots) % 2 ^ 64)
    egrOwed := if s.egrOwed.any (fun (a, b, _) => a == d && b == k) then s.egrOwed else s.egrOwed ++ [(d, k, s.now)] }

/-- TAIL moved on and the slots counted. -/
def State.egrCounted (s : State) (d k tail slots : Nat) : State :=
  (s.setFld d (EGR_RING_TAIL_TAIL k) ((tail + slots) % 2 ^ 32)).egrTally d k slots

theorem State.egrPut_eq (s : State) (d k : Nat) (b : List Byte) (slots : Nat) (w : Arrival) : s.egrPut d k b slots w =
    ((s.egrBytes d (s.egrAt d k) b w).1.egrCounted d k (s.fld d (EGR_RING_TAIL_TAIL k)) slots, (s.egrBytes d (s.egrAt d k) b w).2) := by
  unfold State.egrPut State.egrAt
  dsimp only
  generalize s.egrBytes d _ b w = p
  obtain ⟨u, ok⟩ := p
  rfl

theorem State.egrTally_owes (s : State) (d k slots : Nat) : (s.egrTally d k slots).egrOwes d k = true := by
  have h : ∀ (l : List (Nat × Nat × Nat)) (n : Nat),
      (if l.any (fun (a, b, _) => a == d && b == k) then l else l ++ [(d, k, n)]).any (fun (a, b, _) => a == d && b == k) = true := by
    intro l n
    split
    · assumption
    · simp
  exact h _ _

theorem State.egrTally_counts (s : State) (d k slots : Nat) : let t := s.egrTally d k slots
    t.egrSeq = put 0 s.egrSeq (egrKey d k) ((get 0 s.egrSeq (egrKey d k) + 1) % 2 ^ 32) ∧
    t.egrCount = put 0 s.egrCount (egrKey d k) ((get 0 s.egrCount (egrKey d k) + slots) % 2 ^ 64) ∧ t.host = s.host ∧ t.regs = s.regs ∧
    t.hostPoison = s.hostPoison ∧ t.backlog = s.backlog :=
  ⟨rfl, rfl, rfl, rfl, rfl, rfl⟩

theorem State.egrTally_only (s : State) (d k slots : Nat) : EgrOnly s (s.egrTally d k slots) := fun _ _ hf =>
  hf s s.regs (s.egrTally d k slots).egrSeq (s.egrTally d k slots).egrCount (s.egrTally d k slots).egrOwed s.host s.hostPoison s.cnt s.used s.free

theorem State.setRg_only (s : State) (k v : Nat) : EgrOnly s (s.setRg k v) := fun _ _ hf =>
  hf s (s.setRg k v).regs s.egrSeq s.egrCount s.egrOwed s.host s.hostPoison s.cnt s.used s.free

/-- TAIL advanced. -/
theorem State.egrCounted_tail (s : State) (d k tail slots : Nat) :
    (s.egrCounted d k tail slots).fld d (EGR_RING_TAIL_TAIL k) = (tail + slots) % 2 ^ 32 := by
  have hok : (EGR_RING_TAIL_TAIL k).ok := ⟨Nat.zero_le 31, by show 31 < 32; decide⟩
  rw [State.egrCounted, State.fld_of_regs (State.egrTally_counts _ d k slots).2.2.2.1, State.fld_setFld _ _ _ _ hok]
  exact Nat.mod_mod _ _

/-- The rest of what is counted (R85). -/
theorem State.egrCounted_counts (s : State) (d k tail slots : Nat) : let t := s.egrCounted d k tail slots
    t.egrSeq = put 0 s.egrSeq (egrKey d k) ((get 0 s.egrSeq (egrKey d k) + 1) % 2 ^ 32) ∧
    t.egrCount = put 0 s.egrCount (egrKey d k) ((get 0 s.egrCount (egrKey d k) + slots) % 2 ^ 64) ∧ t.host = s.host := by
  obtain ⟨h1, h2, h3, -⟩ := (s.setFld d (EGR_RING_TAIL_TAIL k) ((tail + slots) % 2 ^ 32)).egrTally_counts d k slots
  rw [State.setFld_egrSeq] at h1
  rw [State.setFld_egrCount] at h2
  rw [State.setFld_host] at h3
  exact ⟨h1, h2, h3⟩

theorem State.egrCounted_rg (s : State) (d k tail slots : Nat) {j : Nat} (h : j ≠ dkey d (EGR_RING_TAIL_TAIL k).off) :
    (s.egrCounted d k tail slots).rg j = s.rg j := by
  rw [State.egrCounted, State.rg_of_regs (State.egrTally_counts _ d k slots).2.2.2.1]
  exact s.rg_setRg_ne h _

theorem State.egrCounted_only (s : State) (d k tail slots : Nat) : EgrOnly s (s.egrCounted d k tail slots) :=
  EgrOnly.trans (s.setRg_only _ _) (State.egrTally_only _ d k slots)

theorem State.setHostBytes_only (s : State) (a : Nat) (l : List Byte) (psn : Bool) : EgrOnly s (s.setHostBytes a l psn) := fun _ _ hf =>
  hf s s.regs s.egrSeq s.egrCount s.egrOwed (s.setHostBytes a l psn).host (s.setHostBytes a l psn).hostPoison s.cnt s.used s.free

theorem Metered.egrOnly {s t : State} (h : Metered s t) : EgrOnly s t := fun _ f hf =>
  h.same f fun u c v => hf u u.regs u.egrSeq u.egrCount u.egrOwed u.host u.hostPoison c v u.free

/-- A write at a ring's tail whose packet arrives (R83, R85). -/
theorem State.egrPut_puts (s : State) (d k : Nat) (b : List Byte) (slots : Nat) {w : Arrival} (hc : CalmAt d w) :
    EgrPut d k b slots s (s.egrPut d k b slots w).1 ∧ (s.egrPut d k b slots w).2 = true := by
  rw [State.egrPut_eq, State.egrBytes_calm hc]
  refine ⟨?_, rfl⟩
  have hm := s.carry_metered none d 0 b.length
  generalize s.carry none d 0 b.length = u at hm
  have hhost := u.hostByte_setHostBytes (s.egrAt d k) b false
  have hbytes : (u.setHostBytes (s.egrAt d k) b false).regs = u.regs ∧ (u.setHostBytes (s.egrAt d k) b false).egrSeq = u.egrSeq ∧
    (u.setHostBytes (s.egrAt d k) b false).egrCount = u.egrCount := ⟨rfl, rfl, rfl⟩
  have honly := u.setHostBytes_only (s.egrAt d k) b false
  generalize u.setHostBytes (s.egrAt d k) b false = v at *
  obtain ⟨hregs, hseq, hcount⟩ := hbytes
  obtain ⟨cseq, ccount, chost⟩ := v.egrCounted_counts d k (s.fld d (EGR_RING_TAIL_TAIL k)) slots
  refine ⟨v.egrCounted_tail d k _ slots, fun j hj => ?_, ?_, ?_, State.egrTally_owes _ d k slots, fun j => ?_,
    EgrOnly.trans (EgrOnly.trans hm.egrOnly honly) (v.egrCounted_only d k _ slots)⟩
  · exact (v.egrCounted_rg d k _ slots hj).trans (State.rg_of_regs (hregs.trans hm.regs) j)
  · rw [cseq, hseq, hm.same State.egrSeq fun _ _ _ => rfl]
  · rw [ccount, hcount, hm.same State.egrCount fun _ _ _ => rfl]
  · rw [chost, hhost, hm.same State.host fun _ _ _ => rfl]

end Sys2Proof.Machine
end

section
/-! Pads and discard notices, and which slots of a ring a record takes (R83, R84, R86). -/

namespace Sys2Proof.Machine

-- free bytes

theorem leBytes_length : ∀ n v : Nat, (leBytes n v).length = n
  | 0, _ => rfl
  | n + 1, v => congrArg (· + 1) (leBytes_length n (v / 256))

theorem State.fresh_only (s : State) : EgrOnly s s.fresh.2 := fun _ _ hf =>
  hf s s.regs s.egrSeq s.egrCount s.egrOwed s.host s.hostPoison s.cnt s.used (s.free + 1)

/-- What a draw of free values leaves, the state of the egress unit among it. -/
structure Drew (s t : State) : Prop where
  regs : t.regs = s.regs
  seq : t.egrSeq = s.egrSeq
  count : t.egrCount = s.egrCount
  host : t.host = s.host
  only : EgrOnly s t

theorem Drew.trans {s t u : State} (h : Drew s t) (k : Drew t u) : Drew s u :=
  ⟨k.regs.trans h.regs, k.seq.trans h.seq, k.count.trans h.count, k.host.trans h.host, EgrOnly.trans h.only k.only⟩

theorem State.fresh_drew (s : State) : Drew s s.fresh.2 := ⟨rfl, rfl, rfl, rfl, s.fresh_only⟩

theorem State.freeBytes_draws : ∀ (n : Nat) (s : State), (s.freeBytes n).1.length = n ∧ Drew s (s.freeBytes n).2
  | 0, s => ⟨rfl, rfl, rfl, rfl, rfl, fun _ _ _ => rfl⟩
  | n + 1, s => by
    obtain ⟨h1, h2⟩ := State.freeBytes_draws n s.fresh.2
    exact ⟨congrArg (· + 1) h1, s.fresh_drew.trans h2⟩

/-- A write after a draw is a write. -/
theorem EgrPut.after_draw {d k : Nat} {b : List Byte} {slots : Nat} {s t u : State} (h : Drew s t) (p : EgrPut d k b slots t u) :
    EgrPut d k b slots s u := by
  have hfld (f : RF) : t.fld d f = s.fld d f := State.fld_of_regs h.regs d f
  have hat : t.egrAt d k = s.egrAt d k := by rw [State.egrAt, State.egrAt, State.rg64_of_regs h.regs, hfld, hfld]
  obtain ⟨p1, p2, p3, p4, p5, p6, p7⟩ := p
  rw [hfld] at p1
  rw [h.seq] at p3
  rw [h.count] at p4
  rw [hat, h.host] at p6
  exact ⟨p1, fun j hj => (p2 j hj).trans (State.rg_of_regs h.regs j), p3, p4, p5, p6, EgrOnly.trans h.only p7⟩

/-- The header of a pad or a discard notice (R83, R86): 64 bytes, the status in the fourth, what was dropped at 0x2C. -/
structure MarkerHeader (status dropped : Nat) (l : List Byte) : Prop where
  length : l.length = 64
  status : l.getD 3 0 = BitVec.ofNat 8 status
  dropped : ∀ i < 4, l.getD (0x2C + i) 0 = (leBytes 4 dropped).getD i 0

theorem markerHeader_of {id rest : List Byte} (hid : id.length = 3) (hrest : rest.length = 32) (status dropped act flags len seq : Nat) :
    MarkerHeader status dropped (id ++ leBytes 1 status ++ leBytes 2 act ++ leBytes 1 flags ++ leBytes 1 len ++ rest ++ leBytes 4 seq ++
      leBytes 4 dropped ++ leBytes 16 0) := by
  have hl := leBytes_length
  refine ⟨by simp [hl, hid, hrest], ?_, fun i hi => ?_⟩
  · simp only [List.append_assoc]
    rw [List.getD_append_right _ _ _ _ (by omega), hid]
    rfl
  · rw [List.getD_append _ _ _ _ (by simp [hl, hid, hrest]; omega), List.getD_append_right _ _ _ _ (by simp [hl, hid, hrest])]
    simp [hl, hid, hrest]

/-- A marker is a write of one header (R83, R86). -/
theorem State.egrMarker_puts (s : State) (d k status dropped slots : Nat) {w : Arrival} (hc : CalmAt d w) :
    ∃ l, MarkerHeader status dropped l ∧ EgrPut d k l slots s (s.egrMarker d k status dropped slots w) := by
  obtain ⟨hid, d1⟩ := State.freeBytes_draws 3 s
  have d2 := (s.freeBytes 3).2.fresh_drew
  have d3 := (s.freeBytes 3).2.fresh.2.fresh_drew
  have d4 := (s.freeBytes 3).2.fresh.2.fresh.2.fresh_drew
  obtain ⟨hrest, d5⟩ := State.freeBytes_draws 32 (s.freeBytes 3).2.fresh.2.fresh.2.fresh.2
  exact ⟨_, markerHeader_of hid hrest status dropped _ _ _ _,
    ((State.egrPut_puts _ d k _ slots hc).1).after_draw ((((d1.trans d2).trans d3).trans d4).trans d5)⟩

end Sys2Proof.Machine
end

section
/-! How far a ring has been written, and which slots stand apart (R83). -/

namespace Sys2Proof.Machine

/-- A ring's tail has moved on by j slots that were free. -/
structure Advanced (d k j : Nat) (s t : State) : Prop where
  tail : t.fld d (EGR_RING_TAIL_TAIL k) = (s.fld d (EGR_RING_TAIL_TAIL k) + j) % 2 ^ 32
  log2 : t.fld d (EGR_RING_CTL_LOG2 k) = s.fld d (EGR_RING_CTL_LOG2 k)
  base : t.rg64 (dkey d (EGR_RING_BASE_LO_ADDR k).off) = s.rg64 (dkey d (EGR_RING_BASE_LO_ADDR k).off)
  head : t.fld d (EGR_RING_HEAD_HEAD k) = s.fld d (EGR_RING_HEAD_HEAD k)
  on : t.egrOn d k = s.egrOn d k
  room : j ≤ s.egrFree d k

theorem State.egrTail_lt (s : State) (d k : Nat) : s.fld d (EGR_RING_TAIL_TAIL k) < 2 ^ 32 := bitsOf_lt _ _ _

theorem State.egrHead_lt (s : State) (d k : Nat) : s.fld d (EGR_RING_HEAD_HEAD k) < 2 ^ 32 := bitsOf_lt _ _ _

/-- A ring's size divides the range of its pointers. -/
theorem State.egrSize (s : State) (d k : Nat) : 0 < 2 ^ s.fld d (EGR_RING_CTL_LOG2 k) ∧ 2 ^ s.fld d (EGR_RING_CTL_LOG2 k) ≤ 2 ^ 31 ∧
    2 ^ s.fld d (EGR_RING_CTL_LOG2 k) ∣ 2 ^ 32 := by
  have h : s.fld d (EGR_RING_CTL_LOG2 k) < 2 ^ 5 := bitsOf_lt _ _ _
  exact ⟨Nat.two_pow_pos _, Nat.pow_le_pow_right (by decide) (by omega), Nat.pow_dvd_pow 2 (by omega)⟩

/-- The slots that stay free. -/
theorem free_after (size tail head j : Nat) (ht : tail < 2 ^ 32) (hh : head < 2 ^ 32) (hs : size ≤ 2 ^ 31)
    (hj : j ≤ size - (tail + 2 ^ 32 - head) % 2 ^ 32) :
    size - ((tail + j) % 2 ^ 32 + 2 ^ 32 - head) % 2 ^ 32 = size - (tail + 2 ^ 32 - head) % 2 ^ 32 - j := by
  omega

namespace Advanced
variable {d k i j : Nat} {s t u : State}

theorem free (h : Advanced d k j s t) : t.egrFree d k = s.egrFree d k - j := by
  rw [State.egrFree, State.egrFree, h.log2, h.tail, h.head]
  exact free_after _ _ _ _ (s.egrTail_lt d k) (s.egrHead_lt d k) (s.egrSize d k).2.1 h.room

theorem refl (d k : Nat) (s : State) : Advanced d k 0 s s :=
  ⟨(Nat.mod_eq_of_lt (s.egrTail_lt d k)).symm, rfl, rfl, rfl, rfl, Nat.zero_le _⟩

theorem trans (h : Advanced d k j s t) (g : Advanced d k i t u) : Advanced d k (j + i) s u := by
  refine ⟨?_, g.log2.trans h.log2, g.base.trans h.base, g.head.trans h.head, g.on.trans h.on, ?_⟩
  · rw [g.tail, h.tail, Nat.mod_add_mod, Nat.add_assoc]
  · have := g.room
    have := h.room
    rw [h.free] at *
    omega

/-- The place in the ring of the slot now at the tail. -/
theorem slot (h : Advanced d k j s t) : t.fld d (EGR_RING_TAIL_TAIL k) % 2 ^ t.fld d (EGR_RING_CTL_LOG2 k) =
    (s.fld d (EGR_RING_TAIL_TAIL k) + j) % 2 ^ s.fld d (EGR_RING_CTL_LOG2 k) := by
  rw [h.tail, h.log2, Nat.mod_mod_of_dvd _ (s.egrSize d k).2.2]

theorem at_eq (h : Advanced d k j s t) : t.egrAt d k =
    s.rg64 (dkey d (EGR_RING_BASE_LO_ADDR k).off) + 64 * ((s.fld d (EGR_RING_TAIL_TAIL k) + j) % 2 ^ s.fld d (EGR_RING_CTL_LOG2 k)) := by
  rw [State.egrAt, h.slot, h.base]

theorem toEnd (h : Advanced d k j s t) : t.egrToEnd d k = 2 ^ s.fld d (EGR_RING_CTL_LOG2 k) -
    (s.fld d (EGR_RING_TAIL_TAIL k) + j) % 2 ^ s.fld d (EGR_RING_CTL_LOG2 k) := by
  rw [State.egrToEnd, h.slot, h.log2]

end Advanced

/-- A slot that comes less than a ring's length later lies elsewhere in it. -/
theorem slot_ne (size tail j i : Nat) (h0 : 0 < j + i) (h1 : j + i < size) (hi : (tail + j) % size + i < size) :
    (tail + j) % size + i ≠ tail % size := by
  intro e
  have h2 : (tail + (j + i)) % size = tail % size := by
    rw [← Nat.add_assoc, ← Nat.mod_add_mod, Nat.mod_eq_of_lt hi, e]
  have h3 : (j + i) % size = 0 % size := Nat.ModEq.add_left_cancel' tail (by simpa [Nat.ModEq] using h2)
  rw [Nat.mod_eq_of_lt h1, Nat.zero_mod] at h3
  omega

/-- Slots written after the tail has moved on, before the ring's end and as far as they are free, miss the slot it came from. -/
theorem Advanced.apart {d k j : Nat} {s t : State} (h : Advanced d k j s t) (hj : 0 < j) {m : Nat} (he : m ≤ t.egrToEnd d k)
    (hf : m ≤ t.egrFree d k) {x : Nat} (h1 : s.egrAt d k ≤ x) (h2 : x < s.egrAt d k + 64) :
    ¬ (t.egrAt d k ≤ x ∧ x < t.egrAt d k + 64 * m) := by
  obtain ⟨hpos, -, -⟩ := s.egrSize d k
  have hroom := h.room
  rw [h.toEnd] at he
  rw [h.free, State.egrFree] at hf
  rw [State.egrFree] at hroom
  rw [h.at_eq]
  rw [State.egrAt] at h1 h2
  generalize s.rg64 (dkey d (EGR_RING_BASE_LO_ADDR k).off) = base at *
  generalize s.fld d (EGR_RING_TAIL_TAIL k) = tail at *
  generalize 2 ^ s.fld d (EGR_RING_CTL_LOG2 k) = size at *
  have hlt := Nat.mod_lt (tail + j) hpos
  rintro ⟨h3, h4⟩
  have hne := slot_ne size tail j (tail % size - (tail + j) % size)
  omega

/-- A write of free slots moves the tail on. -/
theorem EgrPut.advanced {d k : Nat} {b : List Byte} {slots : Nat} {s t : State} (h : EgrPut d k b slots s t) (hroom : slots ≤ s.egrFree d k) :
    Advanced d k slots s t := ⟨h.tail, h.log2, h.base, h.head, h.on, hroom⟩

end Sys2Proof.Machine
end

section
/-! An egress record: what stands before it, its write, and its wait (R83 to R86, R253, R254, R395). -/

namespace Sys2Proof.Machine

-- what stands before a record

/-- Nothing further is owed to a ring for what was discarded (R86). -/
def State.noticed (s : State) (d k : Nat) : State := { s with egrDropped := put 0 s.egrDropped (egrKey d k) 0 }

theorem State.egrNotice_none (s : State) (d k : Nat) (w : Arrival) (h : get 0 s.egrDropped (egrKey d k) = 0 ∨ s.egrFree d k = 0) :
    s.egrNotice d k w = s := if_pos h

theorem State.egrNotice_some (s : State) (d k : Nat) (w : Arrival) (h : get 0 s.egrDropped (egrKey d k) ≠ 0) (hf : s.egrFree d k ≠ 0) :
    s.egrNotice d k w = (s.egrMarker d k 0xFE (get 0 s.egrDropped (egrKey d k)) 1 w).noticed d k := if_neg (not_or.2 ⟨h, hf⟩)

theorem State.egrPad_none (s : State) (d k n : Nat) (w : Arrival) (h : s.egrShort d k n = false ∨ s.egrFree d k < s.egrToEnd d k) :
    s.egrPad d k n w = s := by
  rw [State.egrPad, if_neg]
  rw [Bool.and_eq_true, decide_eq_true_eq]
  rintro ⟨h1, h2⟩
  obtain h | h := h
  · rw [h] at h1; exact Bool.noConfusion h1
  · omega

theorem State.egrPad_some (s : State) (d k n : Nat) (w : Arrival) (h : s.egrShort d k n = true) (hf : s.egrToEnd d k ≤ s.egrFree d k) :
    s.egrPad d k n w = s.egrMarker d k 0xFF 0 (s.egrToEnd d k) w := by
  rw [State.egrPad, if_pos]
  rw [Bool.and_eq_true, decide_eq_true_eq]
  exact ⟨h, hf⟩

theorem State.egrShort_iff (s : State) (d k n : Nat) : s.egrShort d k n = true ↔ get 0 s.egrDropped (egrKey d k) = 0 ∧ s.egrToEnd d k < n ∧
    s.fld d (EGR_RING_TAIL_TAIL k) % 2 ^ s.fld d (EGR_RING_CTL_LOG2 k) ≠ 0 := by
  simp only [State.egrShort, Bool.and_eq_true, beq_iff_eq, decide_eq_true_eq, bne_iff_ne, ne_eq, and_assoc]

theorem State.egrRoomy_iff (s : State) (d : Nat) (r : EgrRec) : s.egrRoomy d r = true ↔ get 0 s.egrDropped (egrKey d r.ring) = 0 ∧
    1 + r.len ≤ s.egrToEnd d r.ring ∧ 1 + r.len ≤ s.egrFree d r.ring := by
  simp only [State.egrRoomy, Bool.and_eq_true, beq_iff_eq, decide_eq_true_eq, and_assoc]

theorem State.egrReady_iff (s : State) (d : Nat) (r : EgrRec) : s.egrReady d r = true ↔ s.egrOn d r.ring = true ∧ s.egrRoomy d r = true := by
  rw [State.egrReady, Bool.and_eq_true]

/-- A ring that is off, or owes nothing that it has room for, takes nothing before its next record. -/
theorem State.egrPrep_none (s : State) (d : Nat) (r : EgrRec) (w : Arrival) (h : s.egrOn d r.ring = false ∨
    ((get 0 s.egrDropped (egrKey d r.ring) = 0 ∨ s.egrFree d r.ring = 0) ∧
      (s.egrShort d r.ring (1 + r.len) = false ∨ s.egrFree d r.ring < s.egrToEnd d r.ring))) : s.egrPrep d r w = s := by
  rw [State.egrPrep]
  obtain h | ⟨h1, h2⟩ := h
  · rw [h]; rfl
  · rw [s.egrNotice_none d _ w h1, s.egrPad_none d _ _ w h2, ite_self]

theorem State.egrPrep_ready (s : State) (d : Nat) (r : EgrRec) (w : Arrival) (h : s.egrReady d r = true) : s.egrPrep d r w = s := by
  obtain ⟨h0, h1, -⟩ := (s.egrRoomy_iff d r).1 ((s.egrReady_iff d r).1 h).2
  refine s.egrPrep_none d r w (.inr ⟨.inl h0, .inl ?_⟩)
  rw [Bool.eq_false_iff, ne_eq, State.egrShort_iff]
  omega

-- the unit's next record

/-- The records that still wait. -/
def State.leaving (s : State) (rest : List (Nat × EgrRec)) : State := { s with backlog := rest }

/-- A record taken from the front of those not yet tried, where none waits. -/
def State.egrTurn (s : State) (d : Nat) (r : EgrRec) (rest : List (Nat × EgrRec)) (w : Arrival) : State :=
  let p := s.egrPrep d r w
  if p.egrReady d r then (p.leaving rest).egrWrite d r w else p.egrWait d r rest

theorem takeRec_none {d : Nat} {p : EgrRec → Bool} : ∀ {l : List (Nat × EgrRec)}, takeRec d p l = none → ∀ e ∈ l, ¬ (e.1 = d ∧ p e.2 = true)
  | [], _, _, he => absurd he List.not_mem_nil
  | (a, x) :: l, h, e, he => by
    rw [takeRec] at h
    split at h
    · exact nomatch h
    · next hx =>
      split at h
      · exact nomatch h
      · next hl =>
        obtain rfl | hm := List.mem_cons.1 he
        · exact hx
        · exact takeRec_none hl e hm

theorem takeRec_some {d : Nat} {p : EgrRec → Bool} {r : EgrRec} : ∀ {l rest : List (Nat × EgrRec)}, takeRec d p l = some (r, rest) → (d, r) ∈ l
  | [], _, h => nomatch h
  | (a, x) :: l, rest, h => by
    rw [takeRec] at h
    split at h
    · next hx =>
      obtain ⟨hr, -⟩ := Prod.mk.inj (Option.some.inj h)
      exact List.mem_cons.2 (.inl (by rw [← hr, ← hx.1]))
    · split at h
      · next y m hl =>
        obtain ⟨hr, -⟩ := Prod.mk.inj (Option.some.inj h)
        exact List.mem_cons_of_mem _ (takeRec_some (hr ▸ hl))
      · exact nomatch h

theorem State.egrNext_fresh (s : State) (d : Nat) (w : Arrival) {r : EgrRec} {rest : List (Nat × EgrRec)}
    (h1 : takeRec d (fun r => !r.fresh) s.backlog = none) (h2 : takeRec d EgrRec.fresh s.backlog = some (r, rest)) :
    s.egrNext d w = s.egrTurn d r rest w := by
  have hb : s.backlog.any (fun (e, x) => e == d && !x.fresh && x.ring == r.ring) = false := by
    rw [List.any_eq_false]
    rintro ⟨e, x⟩ he
    have := takeRec_none h1 _ he
    simp only [Bool.and_eq_true, beq_iff_eq]
    tauto
  unfold State.egrNext State.egrTurn
  simp only [h1, h2, hb, Bool.not_false, Bool.and_true, Bool.false_eq_true, if_false]
  rfl

theorem execEgressRecord_eq (s : State) (d at_ : Nat) (ref : Bool) (w : Arrival) {r : EgrRec} {rest : List (Nat × EgrRec)}
    (h1 : takeRec d (fun r => !r.fresh) (s.tick at_).backlog = none)
    (h2 : takeRec d EgrRec.fresh (s.tick at_).backlog = some (r, rest)) :
    exec (.egressRecord d at_ ⟨ref, w⟩) s =
      done (if ref then ((s.tick at_).egrTurn d r rest w).hostRefuses (s.tick at_) d else (s.tick at_).egrTurn d r rest w) := by
  show execEgressRecord d at_ ⟨ref, w⟩ s = _
  rw [execEgressRecord]
  dsimp only
  rw [State.egrNext_fresh _ d w h1 h2]

-- the write

/-- Deliveries replaced. -/
def State.withDeliveries (s : State) (l : List Delivery) : State := { s with deliveries := l }

theorem State.withDeliveries_keeps (s : State) (l : List Delivery) : (s.withDeliveries l).regs = s.regs ∧ (s.withDeliveries l).egrSeq = s.egrSeq ∧
    (s.withDeliveries l).egrCount = s.egrCount ∧ (s.withDeliveries l).egrOwed = s.egrOwed ∧ (s.withDeliveries l).host = s.host ∧
    (s.withDeliveries l).hostPoison = s.hostPoison ∧ (s.withDeliveries l).backlog = s.backlog ∧ (s.withDeliveries l).mem = s.mem ∧
    (s.withDeliveries l).egrDropped = s.egrDropped := ⟨rfl, rfl, rfl, rfl, rfl, rfl, rfl, rfl, rfl⟩

/-- A record written is a write at its ring's tail, and the deliveries marked (R83). -/
theorem State.egrWrite_eq (s : State) (d : Nat) (r : EgrRec) (w : Arrival) : ∃ l : List Delivery,
    s.egrWrite d r w = (s.egrPut d r.ring (s.egrHeader d r ++ r.payload) (1 + r.len) w).1.withDeliveries l := by
  unfold State.egrWrite
  generalize s.egrPut d r.ring (s.egrHeader d r ++ r.payload) (1 + r.len) w = p
  obtain ⟨u, ok⟩ := p
  exact ⟨_, rfl⟩

theorem State.egrHeader_length (s : State) (d : Nat) (r : EgrRec) : (s.egrHeader d r).length = 64 := by
  simp [State.egrHeader, leBytes_length]

theorem State.egrHeader_of_seq {s t : State} (d : Nat) (r : EgrRec) (h : get 0 t.egrSeq (egrKey d r.ring) = get 0 s.egrSeq (egrKey d r.ring)) :
    t.egrHeader d r = s.egrHeader d r := by
  rw [State.egrHeader, State.egrHeader, h]

/-- What a record written leaves (R83, R85): it stands at the ring's tail, which has moved on, and is out of the backlog. -/
structure Written (d : Nat) (r : EgrRec) (rest : List (Nat × EgrRec)) (s t : State) : Prop where
  tail : t.fld d (EGR_RING_TAIL_TAIL r.ring) = (s.fld d (EGR_RING_TAIL_TAIL r.ring) + (1 + r.len)) % 2 ^ 32
  seq : get 0 t.egrSeq (egrKey d r.ring) = (get 0 s.egrSeq (egrKey d r.ring) + 1) % 2 ^ 32
  count : get 0 t.egrCount (egrKey d r.ring) = (get 0 s.egrCount (egrKey d r.ring) + (1 + r.len)) % 2 ^ 64
  owes : t.egrOwes d r.ring = true
  host : ∀ j, get 0 t.host j = if s.egrAt d r.ring ≤ j ∧ j < s.egrAt d r.ring + (s.egrHeader d r ++ r.payload).length
    then (s.egrHeader d r ++ r.payload).getD (j - s.egrAt d r.ring) 0 else get 0 s.host j
  backlog : t.backlog = rest
  mem : t.mem = s.mem
  dropped : t.egrDropped = s.egrDropped

/-- What a state agrees on with one whose backlog differs, as far as a write looks at it. -/
structure ButBacklog (rest : List (Nat × EgrRec)) (s u : State) : Prop where
  regs : u.regs = s.regs
  seq : u.egrSeq = s.egrSeq
  count : u.egrCount = s.egrCount
  host : u.host = s.host
  backlog : u.backlog = rest
  mem : u.mem = s.mem
  dropped : u.egrDropped = s.egrDropped

theorem State.leaving_but (s : State) (rest : List (Nat × EgrRec)) : ButBacklog rest s (s.leaving rest) := ⟨rfl, rfl, rfl, rfl, rfl, rfl, rfl⟩

theorem ButBacklog.egrAt {rest : List (Nat × EgrRec)} {s u : State} (h : ButBacklog rest s u) (d k : Nat) : u.egrAt d k = s.egrAt d k := by
  rw [State.egrAt, State.egrAt, State.rg64_of_regs h.regs, State.fld_of_regs h.regs, State.fld_of_regs h.regs]

theorem State.egrWrite_but {s u : State} {d : Nat} {r : EgrRec} {rest : List (Nat × EgrRec)} {w : Arrival} (hc : CalmAt d w)
    (h : ButBacklog rest s u) : Written d r rest s (u.egrWrite d r w) := by
  obtain ⟨l, he⟩ := u.egrWrite_eq d r w
  have hput := (u.egrPut_puts d r.ring (u.egrHeader d r ++ r.payload) (1 + r.len) hc).1
  have hhead : u.egrHeader d r = s.egrHeader d r := State.egrHeader_of_seq d r (by rw [h.seq])
  rw [he]
  generalize (u.egrPut d r.ring (u.egrHeader d r ++ r.payload) (1 + r.len) w).1 = v at *
  obtain ⟨k1, k2, k3, k4, k5, -, k7, k8, k9⟩ := v.withDeliveries_keeps l
  refine ⟨?_, ?_, ?_, ?_, fun j => ?_, k7.trans (hput.backlog.trans h.backlog), k8.trans (hput.mem.trans h.mem), k9.trans (hput.dropped.trans h.dropped)⟩
  · rw [State.fld_of_regs k1, hput.tail, State.fld_of_regs h.regs]
  · rw [k2, hput.seq, get_put_same, h.seq]
  · rw [k3, hput.count, get_put_same, h.count]
  · rw [State.egrOwes, k4]
    exact hput.owes
  · rw [k5, hput.host, h.egrAt, hhead, h.host]

/-- A record written from the front of the list that waits (R83). -/
theorem State.egrWrite_calm (s : State) (d : Nat) (r : EgrRec) (rest : List (Nat × EgrRec)) {w : Arrival} (hc : CalmAt d w) :
    Written d r rest s ((s.leaving rest).egrWrite d r w) := State.egrWrite_but hc (s.leaving_but rest)

end Sys2Proof.Machine
end

section
/-! Egress records as EGRESS_RECORD writes them (R83 to R86, R253, R254, R395). -/

namespace Sys2Proof.Machine

-- events of the egress unit

/-- An event reaches the register of its bit and that of its source alone (R8, R335). -/
theorem State.rg_event_ne (s : State) (d : Nat) (f : RF) {j : Nat} (h : j ≠ dkey d f.off)
    (hs : ∀ n, eventSrc f.off f.lo = some n → j ≠ dkey d (EVG_SRC_PEND n).off) : (s.event d f).rg j = s.rg j := by
  have hset (u : State) (g : RF) (hj : j ≠ dkey d g.off) : (u.setFld d g 1).rg j = u.rg j := u.rg_setRg_ne hj _
  unfold State.event State.eventBit
  dsimp only
  split
  · rfl
  · split
    · next n hn =>
      unfold State.raise
      split
      · rw [hset _ _ (hs n hn), hset _ ⟨f.off, f.lo, f.lo⟩ h]
      · exact hset _ ⟨f.off, f.lo, f.lo⟩ h
    · exact hset _ ⟨f.off, f.lo, f.lo⟩ h

/-- The egress unit's events leave every ring's TAIL (R83). -/
theorem State.tail_event (s : State) (d k bit : Nat) (hb : bit = 0 ∨ bit = 2) :
    (s.event d ⟨0x6000C, bit, bit⟩).fld d (EGR_RING_TAIL_TAIL k) = s.fld d (EGR_RING_TAIL_TAIL k) := by
  have h : (s.event d ⟨0x6000C, bit, bit⟩).rg (dkey d (EGR_RING_TAIL_TAIL k).off) = s.rg (dkey d (EGR_RING_TAIL_TAIL k).off) := by
    refine s.rg_event_ne d _ (Ne.symm (tail_key_ne d k (by show 0x6000C % 32 ≠ 16; decide))) fun n hn => Ne.symm (tail_key_ne d k ?_)
    obtain rfl | rfl := hb
    · obtain rfl := Option.some.inj (hn.symm.trans (rfl : eventSrc 0x6000C 0 = some 662)); decide
    · obtain rfl := Option.some.inj (hn.symm.trans (rfl : eventSrc 0x6000C 2 = some 664)); decide
  rw [State.fld, State.fld, State.fldAt, State.fldAt, h]

theorem State.event_host (s : State) (d : Nat) (f : RF) : (s.event d f).host = s.host ∧ (s.event d f).backlog = s.backlog ∧
    (s.event d f).egrSeq = s.egrSeq ∧ (s.event d f).egrOwed = s.egrOwed ∧ (s.event d f).deliveries = s.deliveries := by
  have h := s.event_light d f
  exact ⟨h.same State.host fun _ _ _ _ => rfl, h.same State.backlog fun _ _ _ _ => rfl, h.same State.egrSeq fun _ _ _ _ => rfl,
    h.same State.egrOwed fun _ _ _ _ => rfl, h.same State.deliveries fun _ _ _ _ => rfl⟩

-- what the root complex refuses

/-- The host's memory and the deliveries as they were. -/
def State.withHost (t s : State) : State := { t with host := s.host, hostPoison := s.hostPoison, deliveries := s.deliveries }

theorem State.withHost_keeps (t s : State) : (t.withHost s).host = s.host ∧ (t.withHost s).deliveries = s.deliveries ∧
    (t.withHost s).regs = t.regs ∧ (t.withHost s).mem = t.mem := ⟨rfl, rfl, rfl, rfl⟩

theorem State.hostRefuses_put (t s : State) (d : Nat) (h : ¬ (t.egrSeq = s.egrSeq ∧ t.egrOwed = s.egrOwed)) :
    t.hostRefuses s d = (t.withHost s).event d EGR_EVENT_PCIE_ERR := if_neg h

theorem State.hostRefuses_none (t s : State) (d : Nat) (h : t.egrSeq = s.egrSeq ∧ t.egrOwed = s.egrOwed) : t.hostRefuses s d = t := if_pos h

/-- What a refused write leaves (R395). -/
theorem State.hostRefuses_leaves (t s : State) (d : Nat) (h : ¬ (t.egrSeq = s.egrSeq ∧ t.egrOwed = s.egrOwed)) :
    (t.hostRefuses s d).host = s.host ∧ (t.hostRefuses s d).deliveries = s.deliveries ∧ (t.hostRefuses s d).flag d EGR_EVENT_PCIE_ERR = true ∧
    (∀ k, (t.hostRefuses s d).fld d (EGR_RING_TAIL_TAIL k) = t.fld d (EGR_RING_TAIL_TAIL k)) ∧ (t.hostRefuses s d).mem = t.mem := by
  rw [t.hostRefuses_put s d h]
  obtain ⟨h1, h2, h3, h4⟩ := t.withHost_keeps s
  generalize t.withHost s = v at *
  obtain ⟨e1, -, -, -, e5⟩ := v.event_host d EGR_EVENT_PCIE_ERR
  exact ⟨e1.trans h1, e5.trans h2, v.flag_event d _ (by decide) rfl, fun k => by rw [v.tail_event d k 2 (.inr rfl), State.fld_of_regs h3],
    (v.event_mem d _).trans h4⟩

-- a record that is written at once

section Ready
variable {u : State} {d : Nat} {r : EgrRec} {rest : List (Nat × EgrRec)}

theorem State.egrTurn_ready (h : u.egrReady d r = true) (w : Arrival) : u.egrTurn d r rest w = (u.leaving rest).egrWrite d r w := by
  rw [State.egrTurn, u.egrPrep_ready d r w h, if_pos h]

/-- A record that is written at once, where nothing is met on the way. -/
theorem State.egrTurn_written (h : u.egrReady d r = true) {w : Arrival} (hc : CalmAt d w) : Written d r rest u (u.egrTurn d r rest w) := by
  rw [State.egrTurn_ready h]
  exact u.egrWrite_calm d r rest hc

/-- The record itself stands in host memory. -/
theorem Written.stands {s t : State} (h : Written d r rest s t) :
    t.hostBytes (s.egrAt d r.ring) (s.egrHeader d r ++ r.payload).length = s.egrHeader d r ++ r.payload :=
  State.hostBytes_eq _ _ _ fun i hi => by rw [h.host, if_pos (by omega), Nat.add_sub_cancel_left]

/-- A write counts the sequence on. -/
theorem Written.seq_ne {s t : State} (h : Written d r rest s t) : t.egrSeq ≠ s.egrSeq := by
  intro e
  have := h.seq
  rw [e] at this
  omega

/-- The bytes of a record written as the packet fares on the way to die 0: poisoned, or perhaps not written (R253, R254). -/
theorem State.egrWrite_parts (w : Arrival) : ∃ l, (u.leaving rest).egrWrite d r w =
    (((u.leaving rest).egrBytes d (u.egrAt d r.ring) (u.egrHeader d r ++ r.payload) w).1.egrCounted d r.ring
      (u.fld d (EGR_RING_TAIL_TAIL r.ring)) (1 + r.len)).withDeliveries l := by
  obtain ⟨l, h⟩ := (u.leaving rest).egrWrite_eq d r w
  refine ⟨l, h.trans ?_⟩
  have hb := u.leaving_but rest
  have hh : (u.leaving rest).egrHeader d r = u.egrHeader d r := State.egrHeader_of_seq d r (by rw [hb.seq])
  rw [State.egrPut_eq, hb.egrAt, hh, State.fld_of_regs hb.regs]

/-- What is left of a write once its bytes have met what they meet. -/
theorem State.egrLanded (s : State) (d k tail slots : Nat) (l : List Delivery) : let t := (s.egrCounted d k tail slots).withDeliveries l
    (∀ f : RF, f.off % 32 ≠ 16 → t.flag d f = s.flag d f) ∧ t.fld d (EGR_RING_TAIL_TAIL k) = (tail + slots) % 2 ^ 32 ∧
    t.backlog = s.backlog ∧ t.hostPoison = s.hostPoison := by
  obtain ⟨k1, -, -, -, -, k6, k7, -, -⟩ := (s.egrCounted d k tail slots).withDeliveries_keeps l
  obtain ⟨-, -, -, -, hp, hb⟩ := (s.setFld d (EGR_RING_TAIL_TAIL k) ((tail + slots) % 2 ^ 32)).egrTally_counts d k slots
  rw [State.setFld_hostPoison] at hp
  rw [State.setFld_backlog] at hb
  refine ⟨fun f hf => ?_, ?_, k7.trans hb, k6.trans hp⟩
  · rw [State.flag_of_regs k1, State.flag, State.flag, State.fld, State.fld, State.fldAt, State.fldAt,
      s.egrCounted_rg d k tail slots (tail_key_ne d k hf)]
  · rw [State.fld_of_regs k1, s.egrCounted_tail]

/-- A timeout on the mesh shows its event (R254). -/
theorem State.flag_meshTimedOut (s : State) (d a : Nat) : (s.meshTimedOut d a).flag d MSH_EVENT_TIMEOUT = true := by
  have he := s.flag_event d MSH_EVENT_TIMEOUT (by decide) rfl
  have hr : RegsBut (fun o => o == 0x90010 || o == 0x90014) (s.event d MSH_EVENT_TIMEOUT) (s.meshTimedOut d a) :=
    State.setRg64_but _ _ d a (by decide) (by decide) (by decide)
  rw [hr.flag d (by decide) (by decide), he]

theorem State.carry_backlog (s : State) (a : Option Nat) (src dst n : Nat) : (s.carry a src dst n).backlog = s.backlog :=
  (s.carry_metered a src dst n).same State.backlog fun _ _ _ => rfl

theorem State.setHostBytes_keeps (s : State) (a : Nat) (b : List Byte) (psn : Bool) : (s.setHostBytes a b psn).regs = s.regs ∧
    (s.setHostBytes a b psn).backlog = s.backlog := ⟨rfl, rfl⟩

/-- A parity error on the way poisons the bytes (R253). -/
theorem State.egrBytes_parity (s : State) {d : Nat} (hd : d ≠ 0) (a : Nat) {b : List Byte} (hb : b ≠ []) :
    (s.egrBytes d a b .parity).1.flag d MSH_EVENT_PARITY = true ∧ (s.egrBytes d a b .parity).1.backlog = s.backlog ∧
    (s.egrBytes d a b .parity).1.hostPoisoned a b.length = true := by
  have he : (s.egrBytes d a b .parity).1 = ((s.carry none d 0 b.length).meshParity d).setHostBytes a b true := by
    rw [State.egrBytes, if_neg hd, if_pos rfl]
  have hflag : ((s.carry none d 0 b.length).meshParity d).flag d MSH_EVENT_PARITY = true := State.flag_event _ d _ (by decide) rfl
  have hback : ((s.carry none d 0 b.length).meshParity d).backlog = s.backlog :=
    ((State.meshParity_light _ d).same State.backlog fun _ _ _ _ => rfl).trans (s.carry_backlog none d 0 _)
  rw [he]
  generalize (s.carry none d 0 b.length).meshParity d = x at hflag hback
  obtain ⟨k1, k2⟩ := x.setHostBytes_keeps a b true
  exact ⟨(State.flag_of_regs k1 d _).trans hflag, k2.trans hback, x.hostPoisoned_setHostBytes a b hb⟩

/-- Bytes written or not, as a free value has it. -/
def State.orWritten (s : State) (a : Nat) (b : List Byte) : State :=
  if s.fresh.1 % 2 = 1 then s.fresh.2.setHostBytes a b false else s.fresh.2

theorem State.orWritten_keeps (s : State) (a : Nat) (b : List Byte) : (s.orWritten a b).regs = s.regs ∧ (s.orWritten a b).backlog = s.backlog := by
  have hf : s.fresh.2.regs = s.regs ∧ s.fresh.2.backlog = s.backlog := ⟨rfl, rfl⟩
  unfold State.orWritten
  split
  · exact ⟨(State.setHostBytes_keeps _ a b false).1.trans hf.1, (State.setHostBytes_keeps _ a b false).2.trans hf.2⟩
  · exact hf

/-- Bytes whose packet is not answered are written or not (R254). -/
theorem State.egrBytes_lost (s : State) {d : Nat} (hd : d ≠ 0) (a : Nat) (b : List Byte) :
    (s.egrBytes d a b .busError).1.flag d MSH_EVENT_TIMEOUT = true ∧ (s.egrBytes d a b .busError).1.backlog = s.backlog := by
  have hflag := (s.carry none d 0 b.length).flag_meshTimedOut d a
  have hback : ((s.carry none d 0 b.length).meshTimedOut d a).backlog = s.backlog :=
    ((State.meshTimedOut_light _ d a).same State.backlog fun _ _ _ _ => rfl).trans (s.carry_backlog none d 0 _)
  have he : (s.egrBytes d a b .busError).1 = (((s.carry none d 0 b.length).meshTimedOut d a).orWritten a b) := by
    rw [State.egrBytes, if_neg hd, if_neg (by decide), if_pos rfl, State.orWritten]
    exact apply_ite Prod.fst _ _ _
  rw [he]
  generalize (s.carry none d 0 b.length).meshTimedOut d a = x at hflag hback
  obtain ⟨k1, k2⟩ := x.orWritten_keeps a b
  exact ⟨(State.flag_of_regs k1 d _).trans hflag, k2.trans hback⟩

theorem State.egrHeader_ne (d : Nat) (r : EgrRec) : u.egrHeader d r ++ r.payload ≠ [] := fun e => by
  have h := congrArg List.length e
  rw [List.length_append, u.egrHeader_length, List.length_nil] at h
  omega

/-- A parity error on the way poisons what is written (R253). -/
theorem State.egrTurn_parity (h : u.egrReady d r = true) (hd : d ≠ 0) : (u.egrTurn d r rest .parity).flag d MSH_EVENT_PARITY = true ∧
    (u.egrTurn d r rest .parity).backlog = rest ∧
    (u.egrTurn d r rest .parity).hostPoisoned (u.egrAt d r.ring) (u.egrHeader d r ++ r.payload).length = true := by
  rw [State.egrTurn_ready h]
  obtain ⟨l, hl⟩ := State.egrWrite_parts (u := u) (d := d) (r := r) (rest := rest) .parity
  obtain ⟨b1, b2, b3⟩ := (u.leaving rest).egrBytes_parity hd (u.egrAt d r.ring) (State.egrHeader_ne (u := u) d r)
  rw [hl]
  generalize ((u.leaving rest).egrBytes d (u.egrAt d r.ring) (u.egrHeader d r ++ r.payload) .parity).1 = y at *
  obtain ⟨f1, -, f3, f4⟩ := y.egrLanded d r.ring (u.fld d (EGR_RING_TAIL_TAIL r.ring)) (1 + r.len) l
  refine ⟨(f1 _ (by decide)).trans b1, f3.trans b2, ?_⟩
  rw [State.hostPoisoned, f4]
  exact b3

/-- No answer on the way is a timeout (R254). -/
theorem State.egrTurn_lost (h : u.egrReady d r = true) (hd : d ≠ 0) : (u.egrTurn d r rest .busError).flag d MSH_EVENT_TIMEOUT = true ∧
    (u.egrTurn d r rest .busError).backlog = rest ∧
    (u.egrTurn d r rest .busError).fld d (EGR_RING_TAIL_TAIL r.ring) = (u.fld d (EGR_RING_TAIL_TAIL r.ring) + (1 + r.len)) % 2 ^ 32 := by
  rw [State.egrTurn_ready h]
  obtain ⟨l, hl⟩ := State.egrWrite_parts (u := u) (d := d) (r := r) (rest := rest) .busError
  obtain ⟨b1, b2⟩ := (u.leaving rest).egrBytes_lost hd (u.egrAt d r.ring) (u.egrHeader d r ++ r.payload)
  rw [hl]
  generalize ((u.leaving rest).egrBytes d (u.egrAt d r.ring) (u.egrHeader d r ++ r.payload) .busError).1 = y at *
  obtain ⟨f1, f2, f3, -⟩ := y.egrLanded d r.ring (u.fld d (EGR_RING_TAIL_TAIL r.ring)) (1 + r.len) l
  exact ⟨(f1 _ (by decide)).trans b1, f3.trans b2, f2⟩

end Ready

end Sys2Proof.Machine
end

section
/-! What a ring takes before a record, and a record that waits (R83, R86). -/

namespace Sys2Proof.Machine

section
variable {u : State} {d : Nat} {r : EgrRec} {rest : List (Nat × EgrRec)} {w : Arrival}

theorem State.egrRecord_le (s : State) (hp : r.payload.length ≤ 64 * r.len) :
    (s.egrHeader d r ++ r.payload).length ≤ 64 * (1 + r.len) := by
  rw [List.length_append, s.egrHeader_length]
  omega

/-- A ring whose record does not fit before its end: the pad takes what is left, and the record follows at the ring's start (R83). -/
theorem State.egrTurn_padded (hon : u.egrOn d r.ring = true) (hc : CalmAt d w) (hs : u.egrShort d r.ring (1 + r.len) = true)
    (hroom : u.egrToEnd d r.ring + (1 + r.len) ≤ u.egrFree d r.ring) : ∃ l p, MarkerHeader 0xFF 0 l ∧
      EgrPut d r.ring l (u.egrToEnd d r.ring) u p ∧ Written d r rest p (u.egrTurn d r rest w) ∧
      Advanced d r.ring (u.egrToEnd d r.ring) u p ∧ p.egrAt d r.ring = u.rg64 (dkey d (EGR_RING_BASE_LO_ADDR r.ring).off) ∧
      1 + r.len ≤ p.egrToEnd d r.ring ∧ 1 + r.len ≤ p.egrFree d r.ring := by
  obtain ⟨h0, h1, h2⟩ := (u.egrShort_iff d r.ring (1 + r.len)).1 hs
  obtain ⟨l, hl, hput⟩ := u.egrMarker_puts d r.ring 0xFF 0 (u.egrToEnd d r.ring) hc
  have hprep : u.egrPrep d r w = u.egrMarker d r.ring 0xFF 0 (u.egrToEnd d r.ring) w := by
    rw [State.egrPrep, if_pos hon, u.egrNotice_none d _ w (.inl h0), u.egrPad_some d _ _ w hs (by omega)]
  rw [State.egrTurn, hprep]
  generalize u.egrMarker d r.ring 0xFF 0 (u.egrToEnd d r.ring) w = p at hput
  have hadv := hput.advanced (by omega : u.egrToEnd d r.ring ≤ u.egrFree d r.ring)
  obtain ⟨hpos, -, -⟩ := u.egrSize d r.ring
  have hlt := Nat.mod_lt (u.fld d (EGR_RING_TAIL_TAIL r.ring)) hpos
  have hwrap : (u.fld d (EGR_RING_TAIL_TAIL r.ring) + u.egrToEnd d r.ring) % 2 ^ u.fld d (EGR_RING_CTL_LOG2 r.ring) = 0 := by
    rw [State.egrToEnd, ← Nat.mod_add_mod, Nat.add_sub_of_le hlt.le, Nat.mod_self]
  have hfree : p.egrFree d r.ring = u.egrFree d r.ring - u.egrToEnd d r.ring := hadv.free
  have hend : p.egrToEnd d r.ring = 2 ^ u.fld d (EGR_RING_CTL_LOG2 r.ring) := by rw [hadv.toEnd, hwrap, Nat.sub_zero]
  have hsize : u.egrFree d r.ring ≤ 2 ^ u.fld d (EGR_RING_CTL_LOG2 r.ring) := Nat.sub_le _ _
  have hready : p.egrReady d r = true := by
    rw [State.egrReady_iff, State.egrRoomy_iff, hput.dropped, hadv.on]
    exact ⟨hon, h0, by omega, by omega⟩
  refine ⟨l, p, hl, hput, ?_, hadv, ?_, by omega, by omega⟩
  · rw [if_pos hready]
    exact p.egrWrite_calm d r rest hc
  · rw [hadv.at_eq, hwrap, Nat.mul_zero, Nat.add_zero]

/-- A write elsewhere leaves a slot as it was. -/
theorem Written.slot_stands {p t : State} (h : Written d r rest p t) {k : Nat} (hadv : Advanced d r.ring k u p) (hk : 0 < k)
    (he : 1 + r.len ≤ p.egrToEnd d r.ring) (hf : 1 + r.len ≤ p.egrFree d r.ring) (hp : r.payload.length ≤ 64 * r.len) {i : Nat} (hi : i < 64) :
    get 0 t.host (u.egrAt d r.ring + i) = get 0 p.host (u.egrAt d r.ring + i) := by
  have hl := p.egrRecord_le (d := d) (r := r) hp
  have hapart := hadv.apart hk he hf (x := u.egrAt d r.ring + i) (by omega) (by omega)
  rw [h.host, if_neg (by omega)]

/-- A byte of a marker in its slot. -/
theorem EgrPut.slot_byte {k slots : Nat} {l : List Byte} {s t : State} (h : EgrPut d k l slots s t) {i : Nat} (hi : i < l.length) :
    get 0 t.host (s.egrAt d k + i) = l.getD i 0 := by
  rw [h.host, if_pos (by omega), Nat.add_sub_cancel_left]

/-- The ring full, where it is (R86). -/
def State.egrFull (s : State) (d : Nat) (r : EgrRec) : State :=
  if s.egrOn d r.ring && decide (s.egrFree d r.ring < 1 + r.len) then s.event d EGR_EVENT_FULL else s

theorem State.egrFull_light (s : State) (d : Nat) (r : EgrRec) : Light s (s.egrFull d r) := by
  unfold State.egrFull
  split
  · exact s.event_light d _
  · exact Light.refl s

theorem State.egrFull_tail (s : State) (d : Nat) (r : EgrRec) (k : Nat) :
    (s.egrFull d r).fld d (EGR_RING_TAIL_TAIL k) = s.fld d (EGR_RING_TAIL_TAIL k) := by
  unfold State.egrFull
  split
  · exact s.tail_event d k 0 (.inl rfl)
  · rfl

theorem State.egrFull_flag (s : State) (d : Nat) (r : EgrRec) (hon : s.egrOn d r.ring = true) (hf : s.egrFree d r.ring < 1 + r.len) :
    (s.egrFull d r).flag d EGR_EVENT_FULL = true := by
  rw [State.egrFull, hon, decide_eq_true hf, Bool.and_self, if_pos rfl]
  exact s.flag_event d _ (by decide) rfl

/-- A record discarded (R86). -/
def State.egrDiscards (s : State) (d : Nat) (r : EgrRec) (rest : List (Nat × EgrRec)) : State :=
  let t := { s with backlog := rest, egrDropped := put 0 s.egrDropped (egrKey d r.ring) (get 0 s.egrDropped (egrKey d r.ring) + 1) }
  (t.countFld d EGR_DISCARD_COUNT 1).event d EGR_EVENT_DISCARD

/-- A record tried, and still waiting. -/
def tried (d : Nat) (r : EgrRec) (l : List (Nat × EgrRec)) : List (Nat × EgrRec) :=
  l.map (fun (e, x) => if e = d ∧ x = r then (e, { x with fresh := false }) else (e, x))

theorem State.egrWait_eq (s : State) (h : s.waitingBytes d + r.size ≤ 0x100000) :
    s.egrWait d r rest = (s.egrFull d r).leaving (tried d r s.backlog) := by
  have hb : (s.egrFull d r).backlog = s.backlog := (s.egrFull_light d r).same State.backlog fun _ _ _ _ => rfl
  have hw : (s.egrFull d r).waitingBytes d = s.waitingBytes d := by rw [State.waitingBytes, State.waitingBytes, hb]
  have he : s.egrWait d r rest = if (s.egrFull d r).waitingBytes d + r.size ≤ 0x100000
      then (s.egrFull d r).leaving (tried d r (s.egrFull d r).backlog) else
        ((s.egrFull d r).egrDiscards d r rest) := rfl
  rw [he, hw, if_pos h, hb]

/-- A record that cannot be written waits where there is room for it to wait (R86). -/
theorem State.egrWait_waits (s : State) (h : s.waitingBytes d + r.size ≤ 0x100000) :
    (s.egrWait d r rest).host = s.host ∧ (s.egrWait d r rest).backlog = tried d r s.backlog ∧
    (s.egrWait d r rest).fld d (EGR_RING_TAIL_TAIL r.ring) = s.fld d (EGR_RING_TAIL_TAIL r.ring) ∧
    (s.egrWait d r rest).egrSeq = s.egrSeq ∧ (s.egrWait d r rest).egrOwed = s.egrOwed ∧ (s.egrWait d r rest).egrDropped = s.egrDropped ∧
    (s.egrOn d r.ring = true → s.egrFree d r.ring < 1 + r.len → (s.egrWait d r rest).flag d EGR_EVENT_FULL = true) := by
  rw [s.egrWait_eq h]
  have hl := s.egrFull_light d r
  have ht := s.egrFull_tail d r r.ring
  have hf := s.egrFull_flag d r
  generalize s.egrFull d r = v at *
  have hb := v.leaving_but (tried d r s.backlog)
  have ho : (v.leaving (tried d r s.backlog)).egrOwed = v.egrOwed := rfl
  generalize v.leaving (tried d r s.backlog) = x at *
  exact ⟨hb.host.trans (hl.same State.host fun _ _ _ _ => rfl), hb.backlog, (State.fld_of_regs hb.regs d _).trans ht,
    hb.seq.trans (hl.same State.egrSeq fun _ _ _ _ => rfl), ho.trans (hl.same State.egrOwed fun _ _ _ _ => rfl),
    hb.dropped.trans (hl.same State.egrDropped fun _ _ _ _ => rfl), fun h1 h2 => (State.flag_of_regs hb.regs d _).trans (hf h1 h2)⟩

theorem tried_length (l : List (Nat × EgrRec)) : (tried d r l).length = l.length := List.length_map _

theorem mem_tried {l : List (Nat × EgrRec)} (h : (d, r) ∈ l) : (d, { r with fresh := false }) ∈ tried d r l :=
  List.mem_map.2 ⟨(d, r), h, if_pos ⟨rfl, rfl⟩⟩

/-- A notice written leaves nothing owed for what was discarded. -/
theorem State.noticed_keeps (s : State) (d k : Nat) : (s.noticed d k).regs = s.regs ∧ (s.noticed d k).host = s.host ∧
    (s.noticed d k).backlog = s.backlog ∧ get 0 (s.noticed d k).egrDropped (egrKey d k) = 0 ∧ (s.noticed d k).egrOn d k = s.egrOn d k :=
  ⟨rfl, rfl, rfl, get_put_same 0 s.egrDropped (egrKey d k) 0, rfl⟩

theorem Advanced.of_regs {k j : Nat} {s t v : State} (h : Advanced d k j s t) (hr : v.regs = t.regs) (hon : v.egrOn d k = t.egrOn d k) :
    Advanced d k j s v :=
  ⟨(State.fld_of_regs hr d _).trans h.tail, (State.fld_of_regs hr d _).trans h.log2, (State.rg64_of_regs hr _).trans h.base,
    (State.fld_of_regs hr d _).trans h.head, hon.trans h.on, h.room⟩

/-- A ring that owes a notice and has a slot for it: the notice stands in that slot, whatever follows it (R86). -/
theorem State.egrTurn_noticed (hon : u.egrOn d r.ring = true) (hc : CalmAt d w) (hlost : get 0 u.egrDropped (egrKey d r.ring) ≠ 0)
    (hfree : u.egrFree d r.ring ≠ 0) (hwait : u.waitingBytes d + r.size ≤ 0x100000) (hp : r.payload.length ≤ 64 * r.len) :
    ∃ l, MarkerHeader 0xFE (get 0 u.egrDropped (egrKey d r.ring)) l ∧ get 0 (u.egrTurn d r rest w).egrDropped (egrKey d r.ring) = 0 ∧
      ∀ i < 64, get 0 (u.egrTurn d r rest w).host (u.egrAt d r.ring + i) = l.getD i 0 := by
  obtain ⟨l, hl, hput⟩ := u.egrMarker_puts d r.ring 0xFE (get 0 u.egrDropped (egrKey d r.ring)) 1 hc
  have hprep : u.egrPrep d r w =
      ((u.egrMarker d r.ring 0xFE (get 0 u.egrDropped (egrKey d r.ring)) 1 w).noticed d r.ring).egrPad d r.ring (1 + r.len) w := by
    rw [State.egrPrep, if_pos hon, u.egrNotice_some d _ w hlost hfree]
  generalize u.egrMarker d r.ring 0xFE (get 0 u.egrDropped (egrKey d r.ring)) 1 w = m at *
  obtain ⟨n1, n2, n3, n4, n5⟩ := m.noticed_keeps d r.ring
  have hadv := (hput.advanced (by omega : 1 ≤ u.egrFree d r.ring)).of_regs n1 n5
  have hslot : ∀ i < 64, get 0 (m.noticed d r.ring).host (u.egrAt d r.ring + i) = l.getD i 0 := fun i hi => by
    rw [n2]; exact hput.slot_byte (by rw [hl.length]; exact hi)
  have hback : (m.noticed d r.ring).backlog = u.backlog := n3.trans hput.backlog
  generalize m.noticed d r.ring = s1 at *
  have hpad : ∃ j, 0 < j ∧ Advanced d r.ring j u (u.egrPrep d r w) ∧ get 0 (u.egrPrep d r w).egrDropped (egrKey d r.ring) = 0 ∧
      (u.egrPrep d r w).backlog = u.backlog ∧ ∀ i < 64, get 0 (u.egrPrep d r w).host (u.egrAt d r.ring + i) = l.getD i 0 := by
    rw [hprep]
    by_cases hs : s1.egrShort d r.ring (1 + r.len) = true ∧ s1.egrToEnd d r.ring ≤ s1.egrFree d r.ring
    · obtain ⟨l2, hl2, hput2⟩ := s1.egrMarker_puts d r.ring 0xFF 0 (s1.egrToEnd d r.ring) hc
      rw [s1.egrPad_some d _ _ w hs.1 hs.2]
      generalize s1.egrMarker d r.ring 0xFF 0 (s1.egrToEnd d r.ring) w = p at *
      have hpos : 0 < s1.egrToEnd d r.ring := Nat.sub_pos_of_lt (Nat.mod_lt _ (s1.egrSize d r.ring).1)
      refine ⟨_, Nat.lt_of_lt_of_le Nat.one_pos (Nat.le_add_right 1 _), hadv.trans (hput2.advanced hs.2), by rw [hput2.dropped]; exact n4,
        hput2.backlog.trans hback, fun i hi => ?_⟩
      have hapart := hadv.apart Nat.one_pos (m := 1) (x := u.egrAt d r.ring + i) hpos (by omega) (by omega) (by omega)
      rw [hput2.host, hl2.length, if_neg (by omega), hslot i hi]
    · rw [s1.egrPad_none d _ _ w (by
        by_cases h1 : s1.egrShort d r.ring (1 + r.len) = true
        · exact .inr (by have : ¬ s1.egrToEnd d r.ring ≤ s1.egrFree d r.ring := fun h2 => hs ⟨h1, h2⟩
                         omega)
        · exact .inl (by simpa using h1))]
      exact ⟨1, Nat.one_pos, hadv, n4, hback, hslot⟩
  rw [State.egrTurn]
  generalize u.egrPrep d r w = p at *
  obtain ⟨j, hj, padv, pdrop, pback, pslot⟩ := hpad
  refine ⟨l, hl, ?_⟩
  split
  · next hready =>
    obtain ⟨-, h1, h2⟩ := (p.egrRoomy_iff d r).1 ((p.egrReady_iff d r).1 hready).2
    have hwr := p.egrWrite_calm d r rest hc
    exact ⟨by rw [hwr.dropped]; exact pdrop, fun i hi => (hwr.slot_stands padv hj h1 h2 hp hi).trans (pslot i hi)⟩
  · obtain ⟨w1, -, -, -, -, w6, -⟩ := p.egrWait_waits (d := d) (r := r) (rest := rest) (by rw [State.waitingBytes, pback]; exact hwait)
    exact ⟨by rw [w6]; exact pdrop, fun i hi => by rw [w1]; exact pslot i hi⟩

end

end Sys2Proof.Machine
end

section
/-! Completions of an egress ring, its HEAD, and MSI-X (R27, R68, R83, R85, R394, R395). -/

namespace Sys2Proof.Machine

-- a vector raised

/-- A vector raised by a unit of a die changes no memory, no delivery and no time (R394). -/
structure Signalled (s t : State) : Prop where
  host : t.host = s.host
  owed : t.egrOwed = s.egrOwed
  deliveries : t.deliveries = s.deliveries
  bme : t.pcie.bme = s.pcie.bme

theorem State.msix_signals (s : State) (d v : Nat) : Signalled s (s.msix d v) := by
  have hm := s.carry_metered none d 0 4
  have hpend (u : State) : Signalled u (u.msixPend v) := ⟨rfl, rfl, rfl, rfl⟩
  have hcarry : Signalled s (s.carry none d 0 4) := ⟨hm.same State.host fun _ _ _ => rfl, hm.same State.egrOwed fun _ _ _ => rfl,
    hm.same State.deliveries fun _ _ _ => rfl, hm.same (fun u => u.pcie.bme) fun _ _ _ => rfl⟩
  have trans {x y z : State} (h : Signalled x y) (k : Signalled y z) : Signalled x z :=
    ⟨k.host.trans h.host, k.owed.trans h.owed, k.deliveries.trans h.deliveries, k.bme.trans h.bme⟩
  have hev (u : State) : Signalled u (u.event 0 MSH_EVENT_UNMAPPED) := by
    obtain ⟨h1, -, -, h4, h5⟩ := u.event_host 0 MSH_EVENT_UNMAPPED
    exact ⟨h1, h4, h5, (u.event_light 0 _).same (fun u => u.pcie.bme) fun _ _ _ _ => rfl⟩
  unfold State.msix
  generalize s.carry none d 0 4 = u at hcarry
  dsimp only
  split
  · exact trans hcarry (trans (hpend u) (hev _))
  · split
    · exact trans hcarry ⟨rfl, rfl, rfl, rfl⟩
    · exact trans hcarry (hpend u)

/-- A vector that may leave is sent at once (R394). -/
theorem State.msix_sends (s : State) (d v : Nat) (ho : s.msixOpen v = true) (hn : (get 0 s.pcie.msixTab v).toNat % 2 ^ 64 ≠ 0) :
    (s.msix d v).out = s.out ++ [.msix v] := by
  have hm := s.carry_metered none d 0 4
  have h1 : (s.carry none d 0 4).pcie = s.pcie := hm.same State.pcie fun _ _ _ => rfl
  have h2 : (s.carry none d 0 4).msixOpen v = s.msixOpen v := hm.same (fun u => u.msixOpen v) fun _ _ _ => rfl
  have h3 : (s.carry none d 0 4).out = s.out := hm.same State.out fun _ _ _ => rfl
  unfold State.msix
  generalize s.carry none d 0 4 = u at *
  dsimp only
  rw [h1, if_neg hn, h2, if_pos ho]
  exact congrArg (· ++ [Out.msix v]) h3

-- a completion

/-- Whether a delivery is one that a completion of a ring makes visible now. -/
def Delivery.completedBy (y : Delivery) (d k now : Nat) : Delivery :=
  if y.die = d ∧ y.ring = k ∧ y.written ∧ y.visible.isNone then { y with visible := some now } else y

/-- The bytes of a completion (R27). -/
def State.cplBytes (s : State) (d k : Nat) : List Byte :=
  leBytes 8 (get 0 s.egrCount (egrKey d k)) ++ leBytes 4 (get 0 s.egrSeq (egrKey d k) + 2 ^ 32 - 1) ++ leBytes 4 0

/-- The completion owed no more, and what it covers visible. -/
def State.egrSettled (s : State) (d k : Nat) : State :=
  { s with
    egrOwed := s.egrOwed.filter (fun (a, b, _) => !(a == d && b == k))
    deliveries := s.deliveries.map (fun y => y.completedBy d k s.now) }

/-- A completion written. -/
def State.egrCompleted (s : State) (d k : Nat) (psn : Bool) : State :=
  ((s.carry none d 0 16).setHostBytes (s.rg64 (dkey d (EGR_RING_CPL_LO_ADDR k).off)) (s.cplBytes d k) psn).egrSettled d k

theorem State.egrComplete_some (s : State) (d k : Nat) (psn : Bool) (ho : s.egrOwes d k = true) (hb : s.pcie.bme = true)
    (hl : s.linkUp = true) : s.egrComplete d k psn = if (s.egrCompleted d k psn).flag d (EGR_RING_CTL_MSI_EN k)
      then (s.egrCompleted d k psn).msix d ((s.egrCompleted d k psn).fld d (EGR_RING_CTL_MSIX k)) else s.egrCompleted d k psn := by
  have hc : (s.egrOwes d k && s.pcie.bme && s.linkUp) = true := by rw [ho, hb, hl]; rfl
  unfold State.egrOwes at hc
  rw [State.egrComplete, if_pos hc]
  unfold State.egrCompleted State.egrSettled State.cplBytes Delivery.completedBy
  rfl

theorem State.egrComplete_none (s : State) (d k : Nat) (psn : Bool) (h : s.egrOwes d k = false ∨ s.pcie.bme = false ∨ s.linkUp = false) :
    s.egrComplete d k psn = s := by
  have hc : ¬ (s.egrOwes d k && s.pcie.bme && s.linkUp) = true := by
    rw [Bool.and_eq_true, Bool.and_eq_true]
    rintro ⟨⟨h1, h2⟩, h3⟩
    rw [h1, h2, h3] at h
    simp at h
  unfold State.egrOwes at hc
  rw [State.egrComplete, if_neg hc]

/-- What neither the carriage nor the write of a completion changes. -/
structure SameButHost (s t : State) : Prop where
  regs : t.regs = s.regs
  owed : t.egrOwed = s.egrOwed
  deliveries : t.deliveries = s.deliveries
  now : t.now = s.now
  out : t.out = s.out
  pcie : t.pcie = s.pcie
  msixOpen : ∀ v, t.msixOpen v = s.msixOpen v

theorem SameButHost.trans {s t u : State} (h : SameButHost s t) (k : SameButHost t u) : SameButHost s u :=
  ⟨k.regs.trans h.regs, k.owed.trans h.owed, k.deliveries.trans h.deliveries, k.now.trans h.now, k.out.trans h.out, k.pcie.trans h.pcie,
    fun v => (k.msixOpen v).trans (h.msixOpen v)⟩

theorem State.carry_butHost (s : State) (a : Option Nat) (src dst n : Nat) : SameButHost s (s.carry a src dst n) := by
  have hm := s.carry_metered a src dst n
  exact ⟨hm.regs, hm.same State.egrOwed fun _ _ _ => rfl, hm.same State.deliveries fun _ _ _ => rfl, hm.same State.now fun _ _ _ => rfl,
    hm.same State.out fun _ _ _ => rfl, hm.same State.pcie fun _ _ _ => rfl, fun v => hm.same (fun u => u.msixOpen v) fun _ _ _ => rfl⟩

theorem State.setHostBytes_butHost (s : State) (a : Nat) (b : List Byte) (psn : Bool) : SameButHost s (s.setHostBytes a b psn) :=
  ⟨rfl, rfl, rfl, rfl, rfl, rfl, fun _ => rfl⟩

theorem State.egrSettled_keeps (s : State) (d k : Nat) : (s.egrSettled d k).regs = s.regs ∧ (s.egrSettled d k).host = s.host ∧
    (s.egrSettled d k).out = s.out ∧ (s.egrSettled d k).pcie = s.pcie ∧ (∀ v, (s.egrSettled d k).msixOpen v = s.msixOpen v) ∧
    (s.egrSettled d k).egrOwed = s.egrOwed.filter (fun (a, b, _) => !(a == d && b == k)) ∧
    (s.egrSettled d k).deliveries = s.deliveries.map (fun y => y.completedBy d k s.now) := ⟨rfl, rfl, rfl, rfl, fun _ => rfl, rfl, rfl⟩

/-- What a completion writes, settles and leaves. -/
theorem State.egrCompleted_leaves (s : State) (d k : Nat) (psn : Bool) : ∀ t, t = s.egrCompleted d k psn →
    t.regs = s.regs ∧ t.hostBytes (s.rg64 (dkey d (EGR_RING_CPL_LO_ADDR k).off)) 16 = s.cplBytes d k ∧
    t.egrOwed = s.egrOwed.filter (fun (a, b, _) => !(a == d && b == k)) ∧ t.deliveries = s.deliveries.map (fun y => y.completedBy d k s.now) ∧
    t.out = s.out ∧ t.pcie = s.pcie ∧ ∀ v, t.msixOpen v = s.msixOpen v := by
  have hc := s.carry_butHost none d 0 16
  have hput := (s.carry none d 0 16).hostBytes_setHostBytes (s.rg64 (dkey d (EGR_RING_CPL_LO_ADDR k).off)) (s.cplBytes d k) psn
  have hx := hc.trans ((s.carry none d 0 16).setHostBytes_butHost (s.rg64 (dkey d (EGR_RING_CPL_LO_ADDR k).off)) (s.cplBytes d k) psn)
  have hlen : (s.cplBytes d k).length = 16 := by
    rw [State.cplBytes, List.length_append, List.length_append, leBytes_length, leBytes_length, leBytes_length]
  rw [hlen] at hput
  unfold State.egrCompleted
  generalize (s.carry none d 0 16).setHostBytes (s.rg64 (dkey d (EGR_RING_CPL_LO_ADDR k).off)) (s.cplBytes d k) psn = x at hput hx
  rintro t rfl
  obtain ⟨k1, k2, k3, k4, k5, k6, k7⟩ := x.egrSettled_keeps d k
  refine ⟨k1.trans hx.regs, ?_, k6.trans (by rw [hx.owed]), k7.trans (by rw [hx.deliveries, hx.now]), k3.trans hx.out, k4.trans hx.pcie,
    fun v => (k5 v).trans (hx.msixOpen v)⟩
  rw [State.hostBytes, k2]
  exact hput

/-- A completion as EGRESS_COMPLETION writes it: what stands in host memory, what is visible, and the vector that is sent (R27, R85). -/
theorem State.egrComplete_writes (s : State) (d k : Nat) (ho : s.egrOwes d k = true) (hb : s.pcie.bme = true) (hl : s.linkUp = true) :
    ∀ t, t = s.egrComplete d k false →
      t.hostBytes (s.rg64 (dkey d (EGR_RING_CPL_LO_ADDR k).off)) 16 = s.cplBytes d k ∧
      t.egrOwed = s.egrOwed.filter (fun (a, b, _) => !(a == d && b == k)) ∧ t.deliveries = s.deliveries.map (fun y => y.completedBy d k s.now) ∧
      (s.flag d (EGR_RING_CTL_MSI_EN k) = false → t.out = s.out) ∧
      (s.flag d (EGR_RING_CTL_MSI_EN k) = true → s.msixOpen (s.fld d (EGR_RING_CTL_MSIX k)) = true →
        (get 0 s.pcie.msixTab (s.fld d (EGR_RING_CTL_MSIX k))).toNat % 2 ^ 64 ≠ 0 →
        t.out = s.out ++ [.msix (s.fld d (EGR_RING_CTL_MSIX k))]) := by
  rw [s.egrComplete_some d k false ho hb hl]
  obtain ⟨c1, c2, c3, c4, c5, c6, c7⟩ := s.egrCompleted_leaves d k false _ rfl
  generalize s.egrCompleted d k false = v at *
  rw [State.flag_of_regs c1, State.fld_of_regs c1]
  rintro t rfl
  cases hen : s.flag d (EGR_RING_CTL_MSI_EN k)
  · exact ⟨c2, c3, c4, fun _ => c5, fun h => Bool.noConfusion h⟩
  · obtain ⟨m1, m2, m3, -⟩ := v.msix_signals d (s.fld d (EGR_RING_CTL_MSIX k))
    have hsend := v.msix_sends d (s.fld d (EGR_RING_CTL_MSIX k))
    rw [c7, c6, c5] at hsend
    rw [if_pos rfl]
    exact ⟨by rw [State.hostBytes, m1]; exact c2, m2.trans c3, m3.trans c4, fun h => Bool.noConfusion h, fun _ => hsend⟩

/-- A ring whose completion was written owes none. -/
theorem owes_filter (d k : Nat) (l : List (Nat × Nat × Nat)) :
    (l.filter (fun (a, b, _) => !(a == d && b == k))).any (fun (a, b, _) => a == d && b == k) = false := by
  rw [List.any_eq_false]
  rintro ⟨a, b, c⟩ h
  have := (List.mem_filter.1 h).2
  rw [Bool.not_eq_true', Bool.eq_false_iff] at this
  exact this

theorem owed_changes {d k : Nat} {l m : List (Nat × Nat × Nat)} (h : l.any (fun (a, b, _) => a == d && b == k) = true)
    (hm : m = l.filter (fun (a, b, _) => !(a == d && b == k))) : m ≠ l := by
  rintro rfl
  have hf := owes_filter d k m
  rw [← hm, h] at hf
  exact Bool.noConfusion hf

/-- Where nothing is met on the way, a completion is the completion itself. -/
theorem State.egrCompletion_calm (s : State) (d k : Nat) {w : Arrival} (hc : CalmAt d w) : s.egrCompletion d k w = s.egrComplete d k false := by
  have hp : (w == .parity && d != 0) = false := by
    obtain rfl | ⟨h, -⟩ := hc
    · exact Bool.and_false _
    · rw [show (w == Arrival.parity) = false from beq_eq_false_iff_ne.2 h, Bool.false_and]
  rw [State.egrCompletion, hp]
  dsimp only
  obtain rfl | ⟨h1, h2⟩ := hc
  · rw [if_pos (.inl rfl)]
  · rw [if_neg h1, if_neg h2, ite_self]

theorem State.egrCompletion_none (s : State) (d k : Nat) (w : Arrival) (h : s.egrOwes d k = false) : s.egrCompletion d k w = s := by
  rw [State.egrCompletion, s.egrComplete_none d k _ (.inl h)]
  exact if_pos (.inr rfl)

/-- A delivery that a completion covers is visible (R27). -/
theorem completed_visible {d k now : Nat} {l : List Delivery} {y : Delivery} (h : y ∈ l.map (fun y => y.completedBy d k now))
    (hd : y.die = d) (hk : y.ring = k) (hw : y.written = true) : y.visible ≠ none := by
  obtain ⟨x, -, rfl⟩ := List.mem_map.1 h
  by_cases hx : x.die = d ∧ x.ring = k ∧ x.written = true ∧ x.visible.isNone = true
  · rw [Delivery.completedBy, if_pos hx]
    exact Option.some_ne_none now
  · rw [Delivery.completedBy, if_neg hx] at hd hk hw ⊢
    intro hv
    exact hx ⟨hd, hk, hw, by rw [hv]; rfl⟩

-- the host's part

/-- The host returns slots (R68). -/
theorem egressHead_returns (s : State) (q : Requester) (d k : Nat) (z : Word) (hd : d < 8) (hk : k < 64) :
    let head := s.fld d (EGR_RING_HEAD_HEAD k)
    let tail := s.fld d (EGR_RING_TAIL_TAIL k)
    let used (h : Nat) : Nat := (tail + 2 ^ 32 - h) % 2 ^ 32
    (used z.toNat ≤ used head → Yields (exec (.egressHeadWrite q d k z) s) (fun t => t.fld d (EGR_RING_HEAD_HEAD k) = z.toNat ∧
      RegOnly s t d (EGR_RING_HEAD_HEAD k).off)) ∧
    (used head < used z.toNat → Yields (exec (.egressHeadWrite q d k z) s) (fun t => t.fld d (EGR_RING_HEAD_HEAD k) = head ∧
      t.flag d EGR_EVENT_PTR_ERR = true)) := by
  intro head tail used
  have he : exec (.egressHeadWrite q d k z) s = done (if used head < used z.toNat then s.event d EGR_EVENT_PTR_ERR
      else s.setFld d (EGR_RING_HEAD_HEAD k) z.toNat) := by
    show execEgressHeadWrite q d k z s = _
    rw [execEgressHeadWrite, if_pos ⟨hd, hk⟩]
    rfl
  rw [he]
  constructor
  · intro h
    rw [if_neg (Nat.not_lt.2 h)]
    refine yields_done ⟨?_, s.setFld_regOnly d _ _⟩
    rw [State.settle_fld, s.fld_setFld d _ _ ⟨Nat.zero_le 31, by show 31 < 32; decide⟩]
    exact Nat.mod_eq_of_lt z.isLt
  · intro h
    rw [if_pos h]
    refine yields_done ⟨?_, ?_⟩
    · have hr : (s.event d EGR_EVENT_PTR_ERR).rg (dkey d (EGR_RING_HEAD_HEAD k).off) = s.rg (dkey d (EGR_RING_HEAD_HEAD k).off) := by
        refine s.rg_event_ne d _ ?_ fun n hn => ?_
        · show d * 0x4000000 + (0x6010C + 32 * k) ≠ d * 0x4000000 + 0x6000C
          omega
        · obtain rfl := Option.some.inj (hn.symm.trans (rfl : eventSrc 0x6000C 3 = some 669))
          show d * 0x4000000 + (0x6010C + 32 * k) ≠ d * 0x4000000 + (0xB1000 + 4 * 669)
          omega
      rw [State.settle_fld, State.fld, State.fldAt, hr]
      rfl
    · rw [State.settle_flag]
      exact s.flag_event d _ (by decide) rfl

/-- An entry of 128 bits with its mask bit cleared. -/
theorem unmasked_lt (e : BitVec 128) : setBits e.toNat 96 1 0 < 2 ^ 128 := by
  have h := setBits_split e.toNat 96 1 0
  have := e.isLt
  omega

/-- An entry of the MSI-X table replaced. -/
def State.withVector (s : State) (v n : Nat) : State :=
  { s with pcie := { s.pcie with msixTab := put 0 s.pcie.msixTab v (BitVec.ofNat 128 n) } }

theorem State.withVector_keeps (s : State) (v n : Nat) : (s.withVector v n).regs = s.regs ∧ (s.withVector v n).out = s.out ∧
    (s.withVector v n).pcie.msixPend = s.pcie.msixPend ∧ (s.withVector v n).pcie.fmask = s.pcie.fmask ∧
    (s.withVector v n).pcie.bme = s.pcie.bme ∧ (s.withVector v n).linkUp = s.linkUp := ⟨rfl, rfl, rfl, rfl, rfl, rfl⟩

/-- A message that was pending sent. -/
def State.sentVector (s : State) (v : Nat) : State :=
  ({ s with pcie := { s.pcie with msixPend := setDel s.pcie.msixPend v } }).emit (.msix v)

theorem State.sentVector_keeps (s : State) (v : Nat) : (s.sentVector v).regs = s.regs ∧ (s.sentVector v).out = s.out ++ [.msix v] ∧
    (s.sentVector v).pcie.msixTab = s.pcie.msixTab ∧ v ∉ (s.sentVector v).pcie.msixPend :=
  ⟨rfl, rfl, rfl, fun h => by simpa [setDel] using (List.mem_filter.1 h).2⟩

/-- A message that is pending leaves once, if it may (R394). -/
theorem State.msixFlush_eq (s : State) (v : Nat) : s.msixFlush v = if s.pcie.msixPend.contains v && s.msixOpen v &&
    (get 0 s.pcie.msixTab v).toNat % 2 ^ 64 != 0 then s.sentVector v else s := rfl

theorem State.msixFlush_vector (s : State) (v : Nat) : (s.msixFlush v).regs = s.regs ∧ (s.msixFlush v).pcie.msixTab = s.pcie.msixTab ∧
    (v ∉ s.pcie.msixPend → (s.msixFlush v).out = s.out) ∧
    (v ∈ s.pcie.msixPend → s.msixOpen v = true → (get 0 s.pcie.msixTab v).toNat % 2 ^ 64 ≠ 0 →
      (s.msixFlush v).out = s.out ++ [.msix v] ∧ v ∉ (s.msixFlush v).pcie.msixPend) := by
  obtain ⟨k1, k2, k3, k4⟩ := s.sentVector_keeps v
  rw [s.msixFlush_eq]
  split
  · next h =>
    rw [Bool.and_eq_true, Bool.and_eq_true, List.contains_eq_mem, decide_eq_true_eq] at h
    exact ⟨k1, k3, fun hv => absurd h.1.1 hv, fun _ _ _ => ⟨k2, k4⟩⟩
  · next h =>
    refine ⟨rfl, rfl, fun _ => rfl, fun h1 h2 h3 => absurd ?_ h⟩
    rw [h2, List.contains_eq_mem, decide_eq_true h1]
    simpa using h3

/-- MSIX_UNMASK (R394). -/
theorem msixUnmask_unmasks (s : State) (v : Nat) (hv : v < 2048) :
    let e := get 0 s.pcie.msixTab v
    let n := setBits e.toNat 96 1 0
    Yields (exec (.msixUnmask v) s) (fun t => (get 0 t.pcie.msixTab v).toNat = n ∧ t.regs = s.regs ∧
      (v ∉ s.pcie.msixPend → t.out = s.out) ∧
      (v ∈ s.pcie.msixPend → s.pcie.fmask = false → s.pcie.bme = true → s.linkUp = true → n % 2 ^ 64 ≠ 0 →
        t.out = s.out ++ [.msix v] ∧ v ∉ t.pcie.msixPend)) := by
  intro e n
  have hn : n < 2 ^ 128 := unmasked_lt e
  have hmask : bitOf n 96 = false := by
    have h := bitOf_setBits_one e.toNat 96 96 0
    rw [if_pos rfl, Nat.zero_testBit] at h
    exact h
  have he : exec (.msixUnmask v) s = done ((s.withVector v n).msixFlush v) := by
    show execMsixUnmask v s = _
    rw [execMsixUnmask, if_pos hv]
    rfl
  clear_value n
  have hentry : (get 0 (s.withVector v n).pcie.msixTab v).toNat = n := by
    have hsame : get 0 (s.withVector v n).pcie.msixTab v = BitVec.ofNat 128 n := get_put_same 0 s.pcie.msixTab v (BitVec.ofNat 128 n)
    rw [hsame, BitVec.toNat_ofNat, Nat.mod_eq_of_lt hn]
  rw [he]
  refine yields_done ?_
  obtain ⟨k1, k2, k3, k4, k5, k6⟩ := s.withVector_keeps v n
  generalize s.withVector v n = u at *
  obtain ⟨f1, f2, f3, f4⟩ := u.msixFlush_vector v
  generalize u.msixFlush v = t at *
  refine ⟨?_, f1.trans k1, fun h => (f3 (by rw [k3]; exact h)).trans k2, fun h1 h2 h3 h4 h5 => ?_⟩
  · show (get 0 t.pcie.msixTab v).toNat = n
    rw [f2, hentry]
  · have hopen : u.msixOpen v = true := by
      rw [State.msixOpen, hentry, hmask, k4, h2, k5, h3, k6, h4]
      rfl
    obtain ⟨g1, g2⟩ := f4 (by rw [k3]; exact h1) hopen (by rw [hentry]; exact h5)
    exact ⟨g1.trans (by rw [k2]), g2⟩

end Sys2Proof.Machine
end

section
/-! The curtain unit's own state through the operations of threads, cores, memory and queues (R31 to R59): a frame law per function. -/

namespace Sys2Proof.Machine

/-- What the curtain unit keeps of a frame, with the time, the pins and the patrol scrubbers' places: no other unit's work changes it. -/
structure Dial where
  now : Nat
  frame : Nat
  curtainAt : Nat
  nominal : Nat
  curMode : CurMode
  edgeAt : Option Nat
  clockFixed : Bool
  closedFor : Nat
  guardOn : Bool
  refreshOn : Bool
  deadlineFor : Nat
  curArmed : Bool
  ppsArmed : Bool
  taken : Bool
  scrub : SMap Nat

def State.dial (s : State) : Dial :=
  ⟨s.now, s.frame, s.curtainAt, s.nominal, s.curMode, s.edgeAt, s.clockFixed, s.closedFor, s.guardOn, s.refreshOn, s.deadlineFor,
    s.pins.curArmed, s.pins.ppsArmed, s.pinsTaken, s.scrub⟩

@[simp] theorem State.dial_ite (c : Prop) [Decidable c] (s t : State) : (if c then s else t).dial = if c then s.dial else t.dial :=
  by split <;> rfl
@[simp] theorem State.dial_foldl {α : Type} (f : State → α → State) (h : ∀ s a, (f s a).dial = s.dial) (l : List α) (s : State) :
    (l.foldl f s).dial = s.dial := by
  induction l generalizing s with
  | nil => rfl
  | cons a l ih => exact (ih _).trans (h s a)
theorem State.dial_reqs (s : State) (a) : ({ s with reqs := a } : State).dial = s.dial := rfl
theorem State.dial_backlog_deliveries (s : State) (a b) : ({ s with backlog := a, deliveries := b } : State).dial = s.dial := rfl
theorem State.dial_disag (s : State) (a) : ({ s with disag := a } : State).dial = s.dial := rfl
theorem State.dial_fabAns (s : State) (a) : ({ s with fabAns := a } : State).dial = s.dial := rfl
theorem State.dial_excess (s : State) (a b) : ({ s with exc := a, wattSum := b } : State).dial = s.dial := rfl
theorem State.dial_fabIn (s : State) (a) : ({ s with fabIn := a } : State).dial = s.dial := rfl
theorem State.dial_gapPend (s : State) (a) : ({ s with gapPend := a } : State).dial = s.dial := rfl
theorem State.dial_sets (s : State) (a b c d e f) :
    ({ s with actA := a, actS := b, asnA := c, asnS := d, grpA := e, grpS := f } : State).dial = s.dial := rfl
theorem State.dial_postponed (s : State) (a) : ({ s with postponed := a } : State).dial = s.dial := rfl
theorem State.dial_deferSyn (s : State) (a) : ({ s with deferSyn := a } : State).dial = s.dial := rfl
theorem State.dial_itkStop (s : State) (a) : ({ s with itkStop := a } : State).dial = s.dial := rfl
theorem State.dial_ueRead (s : State) (a) : ({ s with ueRead := a } : State).dial = s.dial := rfl
theorem State.dial_poison (s : State) (a) : ({ s with poison := a } : State).dial = s.dial := rfl
theorem State.dial_scrub (s : State) (a) : ({ s with scrub := a } : State).dial = { s.dial with scrub := a } := rfl
theorem State.dial_grpRuns (s : State) (a) : ({ s with grpRuns := a } : State).dial = s.dial := rfl
theorem State.dial_lgrBuf (s : State) (a) : ({ s with lgrBuf := a } : State).dial = s.dial := rfl
theorem State.dial_lgrMark (s : State) (a) : ({ s with lgrMark := a } : State).dial = s.dial := rfl
theorem State.dial_lgrOwing (s : State) (a) : ({ s with lgrOwing := a } : State).dial = s.dial := rfl
theorem State.dial_swap (s : State) (a b) : ({ s with swap := a, loadErr := b } : State).dial = s.dial := rfl
theorem State.dial_softOwed (s : State) (a) : ({ s with softOwed := a } : State).dial = s.dial := rfl
theorem State.dial_log (s : State) (a b) : ({ s with log := a, logNext := b } : State).dial = s.dial := rfl
theorem State.dial_pass (s : State) (a b c d) : ({ s with d3Pend := a, pcie := b, execOff := c, selfRefresh := d } : State).dial = s.dial :=
  rfl
theorem State.dial_d3Pend (s : State) (a) : ({ s with d3Pend := a } : State).dial = s.dial := rfl
theorem State.dial_egrOwed (s : State) (a b) : ({ s with egrOwed := a, deliveries := b } : State).dial = s.dial := rfl

-- `(rfl)` and not `rfl`, here and below: a law by `rfl` is one for `dsimp` too, which then compares whole states
@[simp] theorem State.setCore_dial (s : State) (site : Nat) (c : Core) : (s.setCore site c).dial = s.dial := (rfl)
@[simp] theorem State.modCore_dial (s : State) (site : Nat) (f : Core → Core) : (s.modCore site f).dial = s.dial := (rfl)
@[simp] theorem State.modThr_dial (s : State) (site : Nat) (t : Fin 4) (f : Thread → Thread) : (s.modThr site t f).dial = s.dial := (rfl)
@[simp] theorem State.setRg_dial (s : State) (k v : Nat) : (s.setRg k v).dial = s.dial := (rfl)
@[simp] theorem State.setFldAt_dial (s : State) (k : Nat) (f : RF) (v : Nat) : (s.setFldAt k f v).dial = s.dial := (rfl)
@[simp] theorem State.setCfld_dial (s : State) (site : Nat) (f : RF) (v : Nat) : (s.setCfld site f v).dial = s.dial :=
  by simp [State.setCfld]
@[simp] theorem State.l2Fault_dial (s : State) (site : Nat) (t : Fin 4) : (s.l2Fault site t).dial = s.dial := by simp [State.l2Fault]
@[simp] theorem State.setFld_dial (s : State) (d : Nat) (f : RF) (v : Nat) : (s.setFld d f v).dial = s.dial := by simp [State.setFld]
@[simp] theorem State.raise_dial (s : State) (d n : Nat) : (s.raise d n).dial = s.dial := by simp [State.raise]
@[simp] theorem State.enterL2_dial (s : State) (site : Nat) (t : Fin 4) (i : TrapInfo) (inner : Nat) :
    (s.enterL2 site t i inner).dial = s.dial := by simp [State.enterL2]
@[simp] theorem State.deliverTrap_dial (s : State) (site : Nat) (t : Fin 4) : (s.deliverTrap site t).dial = s.dial := (rfl)
@[simp] theorem State.setHalt_dial (s : State) (site : Nat) (t : Fin 4) (v : Bool) : (s.setHalt site t v).dial = s.dial :=
  by simp [State.setHalt]
@[simp] theorem State.enterL1_dial (s : State) (site : Nat) (t : Fin 4) (i : TrapInfo) : (s.enterL1 site t i).dial = s.dial :=
  by simp [State.enterL1]
@[simp] theorem State.takeTrap_dial (s : State) (site : Nat) (t : Fin 4) (i : TrapInfo) : (s.takeTrap site t i).dial = s.dial := by
  unfold State.takeTrap
  split <;> simp
@[simp] theorem State.setWhy_dial (s : State) (site : Nat) (t : Fin 4) (k : Nat) : (s.setWhy site t k).dial = s.dial :=
  by simp [State.setWhy]
@[simp] theorem State.dbgHalt_dial (s : State) (site : Nat) (t : Fin 4) (why : Nat) : (s.dbgHalt site t why).dial = s.dial :=
  by simp [State.dbgHalt]
@[simp] theorem State.stepDone_dial (s : State) (site : Nat) (t : Fin 4) : (s.stepDone site t).dial = s.dial := by simp [State.stepDone]
@[simp] theorem State.setRg64_dial (s : State) (k v : Nat) : (s.setRg64 k v).dial = s.dial := (rfl)
@[simp] theorem State.eventBit_dial (s : State) (d off bit : Nat) : (s.eventBit d off bit).dial = s.dial := by
  unfold State.eventBit
  split <;> simp
@[simp] theorem State.event_dial (s : State) (d : Nat) (f : RF) : (s.event d f).dial = s.dial := by simp [State.event]
@[simp] theorem State.unmappedAt_dial (s : State) (d a : Nat) : (s.unmappedAt d a).dial = s.dial := by simp [State.unmappedAt]

@[simp] theorem State.faultBundle_dial (s : State) (site : Nat) (t : Fin 4) (slot : Nat) (f : Flt) :
    (s.faultBundle site t slot f).dial = s.dial := by
  unfold State.faultBundle
  dsimp only
  split <;> simp

@[simp] theorem State.newCmd_dial (s : State) : (s.newCmd).2.dial = s.dial := (rfl)
@[simp] theorem State.send_dial (s : State) (w : PWrite) : (s.send w).dial = s.dial := (rfl)
@[simp] theorem State.threadWrite_dial (s : State) (site : Nat) (t : Fin 4) (loc : Nat) (data : List Byte) (psn back : Bool) :
    (s.threadWrite site t loc data psn back).dial = s.dial := (rfl)
@[simp] theorem State.cleanLine_dial (s : State) (site : Nat) (t : Fin 4) (l : Line) : (s.cleanLine site t l).dial = s.dial :=
  by simp [State.cleanLine]
@[simp] theorem State.cleanAll_dial (s : State) (site : Nat) (t : Fin 4) : (s.cleanAll site t).dial = s.dial := by simp [State.cleanAll]
@[simp] theorem State.eret_dial (s : State) (site : Nat) (t u : Fin 4) : (s.eret site t u).dial = s.dial := by simp [State.eret]
@[simp] theorem State.after_dial (s : State) (site : Nat) (t : Fin 4) (e : Eff) : (s.after site t e).dial = s.dial := by
  unfold State.after
  split <;> simp

@[simp] theorem State.applyNum_dial (s : State) (site : Nat) (t : Fin 4) (e : Eff) : (s.applyNum site t e).dial = s.dial := by
  unfold State.applyNum
  dsimp only
  split <;> simp

@[simp] theorem State.markStarted_dial (s : State) (site : Nat) (t : Fin 4) : (s.markStarted site t).dial = s.dial := (rfl)
@[simp] theorem State.modAcc_dial (s : State) (site a : Nat) (f : Acc32 → Acc32) : (s.modAcc site a f).dial = s.dial := (rfl)
@[simp] theorem State.addTotals_dial (s : State) (d act sat flush nan : Nat) : (s.addTotals d act sat flush nan).dial = s.dial := by
  unfold State.addTotals
  split <;> rfl
@[simp] theorem State.setRing_dial (s : State) (site k : Nat) (r : Ring) : (s.setRing site k r).dial = s.dial := by simp [State.setRing]
@[simp] theorem State.crRelease_dial (s : State) (site k n : Nat) : (s.crRelease site k n).dial = s.dial := by simp [State.crRelease]

@[simp] theorem State.freeStage_dial (s : State) (site n : Nat) : (s.freeStage site n).dial = s.dial := by
  induction n generalizing s with
  | zero => rfl
  | succ n ih =>
    unfold State.freeStage
    split
    · split
      · simp [ih]
      · rfl
    · rfl

@[simp] theorem State.lgrPush_dial (s : State) (d rec : Nat) : (s.lgrPush d rec).dial = s.dial := by
  unfold State.lgrPush
  split
  · extract_lets n phase free t
    have h : t.dial = s.dial := rfl
    clear_value t
    split
    · exact (t.event_dial _ _).trans h
    · exact h
  · rfl

@[simp] theorem State.lgrStep_dial (s : State) (st : Step) (status cause : Nat) : (s.lgrStep st status cause).dial = s.dial :=
  by simp [State.lgrStep]
@[simp] theorem State.setEntry_dial (s : State) (x n : Nat) : (s.setEntry x n).dial = s.dial := (rfl)
@[simp] theorem State.setEnt_dial (s : State) (x : Nat) (f : EF) (v : Nat) : (s.setEnt x f v).dial = s.dial := (rfl)
@[simp] theorem State.setCounter_dial (s : State) (unit d idx v : Nat) : (s.setCounter unit d idx v).dial = s.dial := (rfl)
@[simp] theorem State.count_dial (s : State) (unit d idx w n : Nat) : (s.count unit d idx w n).dial = s.dial := (rfl)

@[simp] theorem State.present_dial (s : State) (r : Req) : (s.present_ r).dial = s.dial := by
  unfold State.present_
  extract_lets t
  have h : t.dial = s.dial := s.setEnt_dial _ _ _
  clear_value t
  split
  · exact (t.dial_reqs _).trans h
  · extract_lets m u
    have hu : u.dial = s.dial := (t.dial_reqs _).trans h
    clear_value u
    split
    · exact (u.count_dial _ _ _ _ _).trans hu
    · exact hu

@[simp] theorem State.dropStep_dial (s : State) (x : Nat) : (s.dropStep x).dial = s.dial := (rfl)
@[simp] theorem State.gate_dial (s : State) (st : Step) : (s.gate st).dial = s.dial := (rfl)
@[simp] theorem State.suspend_dial (s : State) (x susp : Nat) : (s.suspend x susp).dial = s.dial := by simp [State.suspend]
@[simp] theorem State.clearRun_dial (s : State) (x : Nat) : (s.clearRun x).dial = s.dial := by simp [State.clearRun]
@[simp] theorem State.abortStep_dial (s : State) (st : Step) (cause : Nat) : (s.abortStep st cause).dial = s.dial :=
  by simp [State.abortStep]
@[simp] theorem State.restUnd_dial (s : State) (site : Nat) : (s.restUnd site).dial = s.dial := by simp [State.restUnd]

@[simp] theorem State.endBatch_dial (s : State) (site : Nat) : (s.endBatch site).dial = s.dial := by
  unfold State.endBatch
  dsimp only
  split
  · rfl
  · rw [State.restUnd_dial, State.freeStage_dial, State.modCore_dial, State.dial_ite, State.addTotals_dial, ite_self]
    refine State.dial_foldl _ (fun u r => ?_) _ _
    split
    · split <;> simp
    · rfl

@[simp] theorem State.countConf_dial (s : State) (site n : Nat) : (s.countConf site n).dial = s.dial := by simp [State.countConf]
@[simp] theorem State.signal_dial (s : State) (g : Signal) : (s.signal g).dial = s.dial := (rfl)

@[simp] theorem State.memIssue_dial (s : State) (site : Nat) (t : Fin 4) (fill : Bool) (dst src len : Nat) (pat : Word) (cue : Option Nat) :
    (s.memIssue site t fill dst src len pat cue).dial = s.dial := by
  unfold State.memIssue
  dsimp only
  split
  · split <;> simp
  · simp

@[simp] theorem State.dmaIssue_dial (s : State) (site : Nat) (t : Fin 4) (c : Fin 2) (desc : BitVec 512) :
    (s.dmaIssue site t c desc).dial = s.dial := (rfl)
@[simp] theorem State.violation_dial (s : State) (d : Nat) : (s.violation d).dial = s.dial := by simp [State.violation]
@[simp] theorem State.crEmpty_dial (s : State) (site k : Nat) : (s.crEmpty site k).dial = s.dial := by simp [State.crEmpty]
@[simp] theorem State.qClear_dial (s : State) (site q : Nat) : (s.qClear site q).dial = s.dial := by simp [State.qClear]
@[simp] theorem State.qDiscard_dial (s : State) (site q n : Nat) : (s.qDiscard site q n).dial = s.dial := by simp [State.qDiscard]
@[simp] theorem State.dropRound_dial (s : State) (site q : Nat) : (s.dropRound site q).dial = s.dial := by simp [State.dropRound]
@[simp] theorem State.qDropAll_dial (s : State) (site q : Nat) : (s.qDropAll site q).dial = s.dial := by simp [State.qDropAll]

end Sys2Proof.Machine
end

section
/-! The curtain unit's own state through batches, cue targets, the log and the mesh. -/

namespace Sys2Proof.Machine

@[simp] theorem State.ctrlErr_dial (s : State) (site : Nat) : (s.ctrlErr site).dial = s.dial := by simp [State.ctrlErr]
@[simp] theorem State.qqCfgWrite_dial (s : State) (site q v : Nat) : (s.qqCfgWrite site q v).dial = s.dial := by simp [State.qqCfgWrite]
@[simp] theorem State.cqCfgWrite_dial (s : State) (site v : Nat) : (s.cqCfgWrite site v).dial = s.dial := by simp [State.cqCfgWrite]
@[simp] theorem State.setBytes_dial (s : State) (a : Nat) (l : List Byte) : (s.setBytes a l).dial = s.dial := (rfl)
@[simp] theorem State.setSsEntry_dial (s : State) (site : Nat) (t : Fin 4) (j v : Nat) : (s.setSsEntry site t j v).dial = s.dial :=
  by simp [State.setSsEntry]
@[simp] theorem State.ctxErr_dial (s : State) (site : Nat) : (s.ctxErr site).dial = s.dial := by simp [State.ctxErr]
@[simp] theorem State.setCtx_dial (s : State) (site : Nat) (t : Fin 4) (ctx : Nat) : (s.setCtx site t ctx).dial = s.dial :=
  by simp [State.setCtx]
@[simp] theorem State.dropAll_dial (s : State) (site : Nat) : (s.dropAll site).dial = s.dial := (rfl)
@[simp] theorem State.dcCtlWrite_dial (s : State) (site : Nat) (t : Fin 4) (v : Nat) : (s.dcCtlWrite site t v).dial = s.dial :=
  by simp [State.dcCtlWrite]
@[simp] theorem State.crCfgWrite_dial (s : State) (site k v : Nat) : (s.crCfgWrite site k v).dial = s.dial := by simp [State.crCfgWrite]
@[simp] theorem State.crClaim_dial (s : State) (site k n : Nat) : (s.crClaim site k n).1.dial = s.dial := by simp [State.crClaim]
@[simp] theorem State.crOp_dial (s : State) (site k v : Nat) : (s.crOp site k v).dial = s.dial := by simp [State.crOp]
@[simp] theorem State.setSsDepth_dial (s : State) (site : Nat) (t : Fin 4) (d : Nat) : (s.setSsDepth site t d).dial = s.dial :=
  by simp [State.setSsDepth]
@[simp] theorem State.stWrite_dial (s : State) (site : Nat) (t : Fin 4) (n v : Nat) (zero l2 own : Bool) :
    (s.stWrite site t n v zero l2 own).dial = s.dial := by simp [State.stWrite]
@[simp] theorem State.mts_dial (s : State) (site : Nat) (t u : Fin 4) (n v : Nat) : (s.mts site t u n v).dial = s.dial :=
  by simp [State.mts]

@[simp] theorem State.dcOp_dial (s : State) (site : Nat) (t : Fin 4) (op g : Nat) : (s.dcOp site t op g).dial = s.dial := by
  unfold State.dcOp
  dsimp only
  split <;> simp

@[simp] theorem State.modTile_dial (s : State) (site t : Nat) (f : Tile → Tile) : (s.modTile site t f).dial = s.dial := (rfl)
@[simp] theorem State.writeMem_dial (s : State) (a : Nat) (l : List Byte) (psn : Bool) : (s.writeMem a l psn).dial = s.dial := (rfl)
@[simp] theorem State.padWrite_dial (s : State) (site off : Nat) (b : List Byte) (psn : Bool) :
    (s.padWrite site off b psn).dial = s.dial := (rfl)
@[simp] theorem State.queueWrite_dial (s : State) (site off : Nat) (b : List Byte) (psn : Bool) :
    (s.queueWrite site off b psn).dial = s.dial := by simp [State.queueWrite]

@[simp] theorem State.qClaim_dial (s : State) (site q u : Nat) (m : QMsg) : (s.qClaim site q u m).1.dial = s.dial := by
  unfold State.qClaim
  extract_lets k old
  have h := s.crClaim_dial site k u
  generalize s.crClaim site k u = p at h ⊢
  obtain ⟨t, o⟩ := p
  cases o with
  | none => exact h
  | some x =>
    dsimp only
    split
    · exact h
    · exact (t.queueWrite_dial _ _ _ _).trans h

@[simp] theorem State.qPlaceSum_dial (s : State) (site q : Nat) : (s.qPlaceSum site q).dial = s.dial := by
  unfold State.qPlaceSum
  split
  · rfl
  next m _ =>
    have h := s.qClaim_dial site q m.units m
    generalize s.qClaim site q m.units m = p at h ⊢
    obtain ⟨t, o⟩ := p
    cases o with
    | none => rfl
    | some x => exact (t.modCore_dial _ _).trans h

@[simp] theorem State.qFreeUnits_dial (s : State) (site q : Nat) : (s.qFreeUnits site q).dial = s.dial := by
  unfold State.qFreeUnits
  dsimp only
  split <;> simp

@[simp] theorem State.qRelease_dial (s : State) (site q : Nat) : (s.qRelease site q).dial = s.dial := by simp [State.qRelease]

@[simp] theorem State.meter_dial (s : State) (act kind place n : Nat) : (s.meter act kind place n).dial = s.dial := by
  unfold State.meter
  split
  · rfl
  · split <;> rfl

@[simp] theorem State.carry_dial (s : State) (act : Option Nat) (src dst n : Nat) : (s.carry act src dst n).dial = s.dial := by
  unfold State.carry
  dsimp only
  split
  · rfl
  · split
    · rfl
    · cases act <;> simp

@[simp] theorem State.cueSend_dial (s : State) (from_ : Option Nat) (die : Nat) (act : Option Nat) (word handle ctx inc : Nat) (obs : List Nat) :
    (s.cueSend from_ die act word handle ctx inc obs).dial = s.dial := by
  unfold State.cueSend
  extract_lets g dst bytes t
  have ht : t.dial = s.dial := s.carry_dial _ _ _ _
  have hb : (bytes t).dial = s.dial := by cases act <;> simp [bytes, ht]
  split
  · simp [ht]
  · simp [hb]

@[simp] theorem State.sendCue_dial (s : State) (site : Nat) (t : Fin 4) (counter : Option Nat) (word handle inc : Nat) :
    (s.sendCue site t counter word handle inc).dial = s.dial := by
  unfold State.sendCue
  dsimp only
  split <;> simp

@[simp] theorem State.allocLine_dial (s : State) (site : Nat) (t : Fin 4) (g : Nat) (data : Vec) (psn : Bool) (seen : SMap (List Nat)) :
    (s.allocLine site t g data psn seen).dial = s.dial := by
  unfold State.allocLine
  extract_lets a c
  split
  · rfl
  · dsimp only
    rw [State.modCore_dial]
    split
    · split <;> simp
    · rfl

@[simp] theorem State.cacheStore_dial (s : State) (site : Nat) (t : Fin 4) (g : Nat) (b : List Byte) :
    (s.cacheStore site t g b).dial = s.dial := by
  unfold State.cacheStore
  dsimp only
  split <;> simp

@[simp] theorem State.storeTo_dial (s : State) (site : Nat) (t : Fin 4) (loc : Nat) (own cached : Bool) (b : List Byte) (psn : Bool) :
    (s.storeTo site t loc own cached b psn).dial = s.dial := by simp [State.storeTo]
@[simp] theorem State.qClose_dial (s : State) (site q : Nat) : (s.qClose site q).dial = s.dial := by simp [State.qClose]
@[simp] theorem State.fresh_dial (s : State) : (s.fresh).2.dial = s.dial := (rfl)
@[simp] theorem State.logged_dial (s : State) (t : State) : (s.logged t).dial = s.dial := (rfl)
@[simp] theorem State.countFld_dial (s : State) (d : Nat) (f : RF) (n : Nat) : (s.countFld d f n).dial = s.dial := by simp [State.countFld]
@[simp] theorem State.report_dial (s : State) (r : LogRec) : (s.report r).dial = s.dial := by
  unfold State.report
  split <;> rfl

@[simp] theorem State.logRec.logNew_dial (s : State) (source die site stream sev cause : Nat) :
    (State.logRec.logNew s source die site stream sev cause).dial = s.dial := by
  unfold State.logRec.logNew
  extract_lets frame r full a b c
  have ha : a.dial = s.dial := s.dial_log _ _
  clear_value a
  have hc : c.dial = s.dial := by simp [c, b, ha]
  exact (c.report_dial r).trans hc

@[simp] theorem State.logRec_dial (s : State) (source die site stream sev cause : Nat) :
    (s.logRec source die site stream sev cause).dial = s.dial := (rfl)
@[simp] theorem State.integrity_dial (s : State) (d : Nat) (f : RF) (site stream cause : Nat) :
    (s.integrity d f site stream cause).dial = s.dial := by simp [State.integrity]
@[simp] theorem State.owe_dial (s : State) (site kind : Nat) : (s.owe site kind).dial = s.dial := by
  unfold State.owe
  split <;> rfl
@[simp] theorem State.modStep_dial (s : State) (x : Nat) (f : Step → Step) : (s.modStep x f).dial = s.dial := (rfl)
@[simp] theorem State.replayFail_dial (s : State) (site : Nat) (st : Step) : (s.replayFail site st).dial = s.dial :=
  by simp [State.replayFail]
@[simp] theorem State.directorPad_dial (s : State) (act : Option Nat) (d site off n : Nat) (write : Bool) :
    (s.directorPad act d site off n write).1.dial = s.dial := by simp [State.directorPad]
@[simp] theorem State.meterEgress_dial (s : State) (st : Step) (r : SlotRec) : (s.meterEgress st r).dial = s.dial :=
  by simp [State.meterEgress]
@[simp] theorem State.armCont_dial (s : State) (x at_ : Nat) : (s.armCont x at_).dial = s.dial := by simp [State.armCont]

@[simp] theorem State.commitStep_dial (s : State) (st : Step) (site : Nat) (r : SlotRec) (replayed : Bool) :
    (s.commitStep st site r replayed).dial = s.dial := by
  unfold State.commitStep
  extract_lets x d hdr flags seql payload units p2 cont s1 s2 s3 s4 s5 rec s6 s7
  have h4 : s4.dial = s.dial := by simp [s4, s3, s2, s1]
  have h5 : s5.dial = s.dial := by simp [s5, h4]
  have h6 : s6.dial = s.dial := by simp [s6, h5]
  have h7 : s7.dial = s.dial := by simp [s7, h6]
  clear_value s7
  exact (s7.dial_backlog_deliveries _ _).trans h7

@[simp] theorem State.replayEnd_dial (s : State) (site : Nat) (st : Step) (r : SlotRec) : (s.replayEnd site st r).dial = s.dial := by
  unfold State.replayEnd
  extract_lets x d h front
  have hp := s.directorPad_dial none d site r.off r.len false
  generalize s.directorPad none d site r.off r.len false = p at hp ⊢
  obtain ⟨t, bad⟩ := p
  dsimp -zeta only at hp ⊢
  split
  · simpa using hp
  · split
    · simpa using hp
    · split
      · simpa using hp
      · extract_lets other s1 s2 aud again s3 s4
        rw [State.abortStep_dial]
        have h4 : s4.dial = s.dial := by simp [s4, s3, s2, s1, hp]
        clear_value s4
        exact (s4.dial_disag _).trans h4

@[simp] theorem State.endSlot_dial (s : State) (site i len : Nat) (cont : Bool) : (s.endSlot site i len cont).dial = s.dial := by
  unfold State.endSlot
  split
  · rfl
  · dsimp only
    split
    · simp
    · split
      · split
        · split <;> simp
        · simp
      · simp

@[simp] theorem State.setCue_dial (s : State) (site c v : Nat) : (s.setCue site c v).dial = s.dial := by simp [State.setCue]

@[simp] theorem State.cueTake_dial (s : State) (site : Nat) (t : Fin 4) (c : Nat) : (s.cueTake site t c).dial = s.dial := by
  unfold State.cueTake
  dsimp only
  split <;> simp

@[simp] theorem State.qOpen_dial (s : State) (site q : Nat) : (s.qOpen site q).dial = s.dial := by simp [State.qOpen]
@[simp] theorem State.flagSpan_dial (s : State) (site : Nat) (b : Running) (cause : Nat) : (s.flagSpan site b cause).1.dial = s.dial := by
  unfold State.flagSpan
  split <;> rfl

end Sys2Proof.Machine
end

section
/-! The curtain unit's own state through the fabric, loads, waits and retired bundles. -/

namespace Sys2Proof.Machine

@[simp] theorem State.suspectBatch_dial (s : State) (site cause : Nat) : (s.suspectBatch site cause).dial = s.dial := by
  unfold State.suspectBatch
  extract_lets d s1 s2 s3
  have h3 : s3.dial = s.dial := by simp [s3, s2, s1]
  clear_value s3
  split
  · exact h3
  next b _ =>
    extract_lets hit s4
    have h4 : s4.dial = s.dial := by simp [s4, h3]
    clear_value s4
    split
    · refine (State.dial_foldl _ (fun u r => ?_) _ _).trans h4
      split
      · split <;> simp
      · rfl
    · have h5 := s4.flagSpan_dial site b cause
      generalize s4.flagSpan site b cause = p at h5 ⊢
      obtain ⟨t, far⟩ := p
      dsimp only at h5 ⊢
      split
      · exact h5.trans h4
      · simp [h5, h4]

@[simp] theorem State.drain_dial (s : State) (site a : Nat) : (s.drain site a).dial = s.dial := by simp [State.drain]

@[simp] theorem State.pushSs_dial (s : State) (site : Nat) (t : Fin 4) (ret : BitVec 16) : (s.pushSs site t ret).dial = s.dial := by
  unfold State.pushSs
  dsimp only
  split <;> simp

@[simp] theorem State.setLink_dial (s : State) (d : Nat) (l : PortLink) : (s.setLink d l).dial = s.dial := (rfl)
@[simp] theorem State.emit_dial (s : State) (o : Out) : (s.emit o).dial = s.dial := (rfl)

@[simp] theorem State.sendFlits_dial (s : State) (d n : Nat) : (s.sendFlits d n).dial = s.dial := by
  induction n generalizing s with
  | zero => rfl
  | succ n ih =>
    unfold State.sendFlits
    extract_lets l t
    rw [ih, State.emit_dial]
    exact s.setLink_dial _ _

@[simp] theorem State.sendSlots_dial (s : State) (d n : Nat) : (s.sendSlots d n).dial = s.dial := by simp [State.sendSlots]

@[simp] theorem State.pumpReq_dial (s : State) (d n : Nat) : (s.pumpReq d n).dial = s.dial := by
  induction n generalizing s with
  | zero => rfl
  | succ n ih =>
    unfold State.pumpReq
    extract_lets l
    split
    · rfl
    · extract_lets b
      split
      · rw [ih, State.sendSlots_dial, State.emit_dial]
        exact s.setLink_dial _ _
      · rfl

@[simp] theorem State.pumpResp_dial (s : State) (d n : Nat) : (s.pumpResp d n).dial = s.dial := by
  induction n generalizing s with
  | zero => rfl
  | succ n ih =>
    unfold State.pumpResp
    extract_lets l
    split
    · rfl
    · extract_lets b
      split
      · rw [ih, State.sendSlots_dial]
        exact (State.dial_fabAns _ _).trans (State.setLink_dial _ _ _)
      · rfl

@[simp] theorem State.pump_dial (s : State) (d : Nat) : (s.pump d).dial = s.dial := by simp [State.pump]
@[simp] theorem State.fabTimedOut_dial (s : State) (d g : Nat) : (s.fabTimedOut d g).dial = s.dial := by simp [State.fabTimedOut]

@[simp] theorem State.fabSendMsg_dial (s : State) (owner : FabOwner) (act : Option Nat) (g : Nat) (q : FabReq) :
    (s.fabSendMsg owner act g q).1.dial = s.dial := by
  unfold State.fabSendMsg
  split
  · rfl
  · split
    · simp
    · extract_lets n t tag l u
      have ht : t.dial = s.dial := by
        dsimp only [t]
        cases act <;> simp
      clear_value t
      have hu : u.dial = t.dial := rfl
      clear_value u
      exact (State.pump_dial _ _).trans (hu.trans ht)

@[simp] theorem State.askFar_dial (s : State) (site : Nat) (t : Fin 4) (l : Load) : (s.askFar site t l).1.dial = s.dial := by
  unfold State.askFar
  extract_lets q q2 u
  have hu : u.dial = s.dial := by
    dsimp only [u]
    split
    · exact s.carry_dial _ _ _ _
    · rfl
  clear_value u
  have h := u.fabSendMsg_dial (.load site t.val) (u.actOf site) l.loc q2
  generalize u.fabSendMsg (.load site t.val) (u.actOf site) l.loc q2 = p at h ⊢
  obtain ⟨v, r⟩ := p
  cases r <;> exact h.trans hu

@[simp] theorem State.countMiss_dial (s : State) (site : Nat) : (s.countMiss site).dial = s.dial := by simp [State.countMiss]
@[simp] theorem State.fabRead_dial (s : State) (owner : FabOwner) (act : Option Nat) (ctx g len : Nat) :
    (s.fabRead owner act ctx g len).1.dial = s.dial := by simp [State.fabRead]

@[simp] theorem State.prefetch_dial (s : State) (site : Nat) (t : Fin 4) (g : Nat) : (s.prefetch site t g).dial = s.dial := by
  unfold State.prefetch
  extract_lets a c take
  have hk (u : State) : (take u).dial = u.dial := u.modCore_dial _ _
  split
  · rfl
  · split
    · exact hk s
    · have h := s.fabRead_dial (.fill site a) (s.actOf site) (s.thr site t).ctx a 64
      generalize s.fabRead (.fill site a) (s.actOf site) (s.thr site t).ctx a 64 = p at h ⊢
      obtain ⟨u, r⟩ := p
      cases r with
      | sent _ => exact (hk u).trans h
      | ended _ => rfl

@[simp] theorem State.startMiss_dial (s : State) (site : Nat) (t : Fin 4) (g : Nat) : (s.startMiss site t g).dial = s.dial :=
  by simp [State.startMiss]
@[simp] theorem State.pushLoad_dial (s : State) (site : Nat) (t : Fin 4) (l : Load) : (s.pushLoad site t l).dial = s.dial := (rfl)

@[simp] theorem State.startCached_dial (s : State) (site : Nat) (t : Fin 4) (l : Load) : (s.startCached site t l).dial = s.dial := by
  unfold State.startCached
  extract_lets a
  split
  · simp
  · split
    · simp
    · have h := s.fabRead_dial (.fill site a) (s.actOf site) (s.thr site t).ctx a 64
      generalize s.fabRead (.fill site a) (s.actOf site) (s.thr site t).ctx a 64 = p at h ⊢
      obtain ⟨u, r⟩ := p
      cases r <;> simpa using h

@[simp] theorem State.startLoad_dial (s : State) (site : Nat) (t : Fin 4) (l : Load) : (s.startLoad site t l).dial = s.dial := by
  unfold State.startLoad
  split
  · simp
  · split
    · simp
    · extract_lets id k u
      have hu : u.dial = s.dial := by
        dsimp only [u]
        split <;> rfl
      clear_value u
      split
      · simp [hu]
      · simp [hu]

@[simp] theorem State.apply_dial (s : State) (site : Nat) (t : Fin 4) (e : Eff) : (s.apply site t e).dial = s.dial := by
  unfold State.apply
  dsimp only
  split <;> simp

@[simp] theorem State.commit_dial (s : State) (site : Nat) (t : Fin 4) (b : Bun) : (s.commit site t b).dial = s.dial :=
  by simp [State.commit]
@[simp] theorem State.finishWait_dial (s : State) (site : Nat) (t : Fin 4) (b : Bun) (w : Wait) (status : Nat) :
    (s.finishWait site t b w status).dial = s.dial := by simp [State.finishWait]
@[simp] theorem State.waitOut_dial (s : State) (site : Nat) (t : Fin 4) (b : Bun) (w : Wait) : (s.waitOut site t b w).dial = s.dial :=
  by simp [State.waitOut]

@[simp] theorem State.sleepOn_dial (s : State) (site : Nat) (t : Fin 4) (b : Bun) (w : Wait) : (s.sleepOn site t b w).dial = s.dial := by
  unfold State.sleepOn
  dsimp only
  split <;> simp

@[simp] theorem State.qFinishRound_dial (s : State) (site q : Nat) : (s.qFinishRound site q).dial = s.dial := by simp [State.qFinishRound]
@[simp] theorem State.qContribute_dial (s : State) (site q : Nat) (m : QMsg) : (s.qContribute site q m).dial = s.dial :=
  by simp [State.qContribute]

@[simp] theorem State.qReceive_dial (s : State) (site q : Nat) (t : Fin 4) : (s.qReceive site q t).dial = s.dial := by
  unfold State.qReceive
  split
  · rfl
  · dsimp only
    rw [State.modThr_dial, State.modCore_dial]

@[simp] theorem State.qTry_dial (s : State) (site q : Nat) (m : QMsg) : (s.qTry site q m).1.dial = s.dial := by
  unfold State.qTry
  extract_lets l u comb entry n m'
  have he (v : State) : (entry v).dial = v.dial := by
    dsimp only [entry]
    split <;> simp
  split
  · exact s.qDiscard_dial _ _ _
  · split
    · rfl
    · split
      · rfl
      · split
        · rfl
        · split
          · split
            · rfl
            · rw [State.qContribute_dial, he]
          · have h := s.qClaim_dial site q u m'
            generalize s.qClaim site q u m' = p at h ⊢
            obtain ⟨v, o⟩ := p
            cases o with
            | none => exact h
            | some x =>
              dsimp only
              rw [he, State.modCore_dial, State.setCfld_dial]
              exact h

/-- The curtain unit is as it was in what a wait leaves. -/
def WaitRes.KeepsDial (s : State) : WaitRes → Prop
  | .served u _ => u.dial = s.dial
  | .fault _ => True
  | .pend u => u.dial = s.dial
  | .held u => u.dial = s.dial

theorem State.tryWait_dial (s : State) (site : Nat) (t : Fin 4) (effs : List Eff) (w : Wait) : (s.tryWait site t effs w).KeepsDial s := by
  have hrelease (b : Bool) (u : State) (q : Nat) : (if b then u.qRelease site q else u).dial = u.dial := by cases b <;> simp
  have hfree (b : Bool) (q : Nat) : (if b then s.qFreeUnits site q else s).dial = s.dial := by cases b <;> simp
  unfold State.tryWait
  extract_lets x
  split
  · rfl
  · split
    · rfl
    · exact s.cueTake_dial _ _ _
  next q _ =>
    extract_lets frees u
    have hu : u.dial = s.dial := hfree _ _
    clear_value u
    split
    · exact (hrelease _ _ _).trans hu
    · split
      · exact (State.qReceive_dial _ _ _ _).trans ((hrelease _ _ _).trans hu)
      · split <;> exact hu
  next dst q _ =>
    split
    · rfl
    · split
      · trivial
      · have h := s.qTry_dial dst q ⟨1, x.staging ++ stageOf effs, site, t.val, x.ctx, 0, 0, 0, x.obs⟩
        generalize s.qTry dst q ⟨1, x.staging ++ stageOf effs, site, t.val, x.ctx, 0, 0, 0, x.obs⟩ = p at h ⊢
        obtain ⟨u, r⟩ := p
        cases r <;> exact h
  · split
    · rfl
    · split <;> rfl
  · split
    · rfl
    · split <;> rfl
  · split <;> rfl
  · rfl

@[simp] theorem State.tryBun_dial (s : State) (site : Nat) (t : Fin 4) (b : Bun) : (s.tryBun site t b).dial = s.dial := by
  unfold State.tryBun
  split
  · exact s.commit_dial _ _ _
  next w _ =>
    extract_lets v
    have h := s.tryWait_dial site t b.effs v
    generalize s.tryWait site t b.effs v = r at h ⊢
    cases r with
    | served u n => exact (u.finishWait_dial _ _ _ _ _).trans h
    | fault f => exact s.faultBundle_dial _ _ _ _
    | pend u =>
      dsimp only
      split
      · exact (u.waitOut_dial _ _ _ _).trans h
      · exact (u.sleepOn_dial _ _ _ _).trans h
    | held u => exact (u.sleepOn_dial _ _ _ _).trans h

@[simp] theorem State.settleBun_dial (s : State) (site : Nat) (t : Fin 4) (b : Bun) : (s.settleBun site t b).dial = s.dial := by
  unfold State.settleBun
  split
  · simp
  next w _ =>
    extract_lets u v
    have hu : u.dial = s.dial := by
      dsimp only [u]
      split
      · exact State.dial_foldl _ (fun x e => x.apply_dial site t e) _ _
      · rfl
    have hv : v.dial = s.dial := by simp [v, hu]
    clear_value v
    split <;> simp [hv]

@[simp] theorem State.retire_dial (s : State) (site : Nat) (t : Fin 4) (b : Bun) : (s.retire site t b).dial = s.dial := by
  unfold State.retire
  dsimp only
  split
  · simp
  · split
    · simp
    · split <;> simp

@[simp] theorem State.spoilRows_dial (s : State) (site : Nat) (l : List (Nat × Nat)) : (s.spoilRows site l).dial = s.dial :=
  by simp [State.spoilRows]

theorem State.issueAll_dial (s : State) (site : Nat) (t : Fin 4) (f : Fetched) (eval : State → List Op) :
    ((s.issueAll site t f eval).getD s).dial = s.dial := by
  unfold State.issueAll
  extract_lets x run ops
  split
  · rfl
  · split <;> rw [Option.getD_some]
    · exact s.faultBundle_dial _ _ _ _
    · exact s.retire_dial _ _ _
    · exact (State.retire_dial _ _ _ _).trans (s.spoilRows_dial _ _)

@[simp] theorem State.retryOne_dial (s : State) (site : Nat) (t : Fin 4) : (s.retryOne site t).dial = s.dial := by
  unfold State.retryOne
  extract_lets x
  split
  · rfl
  · split
    · split
      · exact s.modThr_dial _ _ _
      · rfl
    · split
      · exact s.issueAll_dial _ _ _ _
      · rfl

@[simp] theorem State.tellReader_dial (s : State) (site q : Nat) : (s.tellReader site q).dial = s.dial := by
  unfold State.tellReader
  dsimp only
  split <;> simp

@[simp] theorem State.retryWait_dial (s : State) (site : Nat) (t : Fin 4) : (s.retryWait site t).dial = s.dial := by simp [State.retryWait]
@[simp] theorem State.sentWait_dial (s : State) (site : Nat) (t : Fin 4) : (s.sentWait site t).dial = s.dial := by simp [State.sentWait]

@[simp] theorem State.commitMsg_dial (s : State) (site q : Nat) (psn : Bool) : (s.commitMsg site q psn).dial = s.dial := by
  unfold State.commitMsg
  split
  · rfl
  · extract_lets b u v w reader x y tt
    have hw : w.dial = s.dial := by
      dsimp only [w, v, u]
      split <;> simp
    have hx : x.dial = s.dial := by simp [x, hw]
    clear_value x
    have hy : y.dial = s.dial := by
      dsimp only [y]
      split
      · split
        · simp [hx]
        · exact hx
      · exact hx
    clear_value y
    split
    · exact hy
    · split
      · split
        · simp [hy]
        · exact hy
      · exact hy

@[simp] theorem State.flushTo_dial (s : State) (dst q site : Nat) (t : Fin 4) (n : Nat) : (s.flushTo dst q site t n).dial = s.dial := by
  induction n generalizing s with
  | zero => rfl
  | succ n ih =>
    unfold State.flushTo
    split
    · simp [ih]
    · rfl

@[simp] theorem State.abandon_dial (s : State) (site : Nat) (t : Fin 4) : (s.abandon site t).1.dial = s.dial := by
  unfold State.abandon
  dsimp only
  rw [State.modThr_dial]
  split
  · split <;> simp
  · rfl

@[simp] theorem State.acceptReq_dial (s : State) (q : Req) (site : Nat) : (s.acceptReq q site).dial = s.dial := by
  unfold State.acceptReq
  extract_lets x ctx tag st t u
  have h : t.dial = s.dial := rfl
  clear_value t
  simp [u, h]

@[simp] theorem State.charge_dial (s : State) (g n : Nat) (write : Bool) : (s.charge g n write).dial = s.dial := by
  unfold State.charge
  split
  · split <;> simp
  · rfl

@[simp] theorem State.access_dial (s : State) (act : Option Nat) (die g n : Nat) (write : Bool) :
    (s.access act die g n write).dial = s.dial := by
  unfold State.access
  dsimp only
  split <;> simp

end Sys2Proof.Machine
end

section
/-! The curtain unit's own state through power, roles, the box office and the intake. -/

namespace Sys2Proof.Machine

@[simp] theorem State.sumPower_dial (s : State) : (s.sumPower).dial = s.dial := (rfl)

@[simp] theorem State.account_dial (s : State) (len : Nat) : (s.account len).dial = s.dial := by
  unfold State.account
  extract_lets u hot x t v w
  have hu : u.dial = s.dial := by simp [u]
  clear_value u
  have ht : t.dial = s.dial := (u.dial_excess _ _).trans hu
  clear_value t
  simp [w, v, ht]

@[simp] theorem State.linkDown_dial (s : State) (d : Nat) : (s.linkDown d).dial = s.dial := by
  unfold State.linkDown
  split
  · extract_lets u l start v w
    have hv : v.dial = s.dial := (u.setLink_dial _ _).trans (by simp [u])
    clear_value v
    have hw : w.dial = s.dial := (v.dial_fabIn _).trans hv
    clear_value w
    simp [hw]
  · rfl

@[simp] theorem State.ackLimits_dial (s : State) (at_ : Nat) : (s.ackLimits at_).dial = s.dial := by simp [State.ackLimits]
@[simp] theorem State.addReq_dial (s : State) (d l : Nat) : (s.addReq d l).dial = s.dial := (rfl)
@[simp] theorem State.armTrigger_dial (s : State) (x at_ : Nat) : (s.armTrigger x at_).dial = s.dial := by simp [State.armTrigger]
@[simp] theorem State.setSafe_dial (s : State) (site : Nat) (v : Bool) : (s.setSafe site v).dial = s.dial := by simp [State.setSafe]
@[simp] theorem State.haltThread_dial (s : State) (site : Nat) (t : Fin 4) : (s.haltThread site t).dial = s.dial :=
  by simp [State.haltThread]
@[simp] theorem State.makeUnderstudy_dial (s : State) (st : Nat) : (s.makeUnderstudy st).dial = s.dial := by simp [State.makeUnderstudy]
@[simp] theorem State.assignDie_dial (s : State) (d : Nat) : (s.assignDie d).dial = s.dial := by simp [State.assignDie]
@[simp] theorem State.assignRoles_dial (s : State) : (s.assignRoles).dial = s.dial := by
  unfold State.assignRoles
  exact State.dial_foldl _ State.assignDie_dial _ _
@[simp] theorem State.boxShow_dial (s : State) (x : Slice) (hbmCap : Nat) : (s.boxShow x hbmCap).dial = s.dial := by simp [State.boxShow]
@[simp] theorem State.holdAct_dial (s : State) (d act : Nat) : (s.holdAct d act).dial = s.dial := by
  unfold State.holdAct
  split <;> rfl
@[simp] theorem State.breach_dial (s : State) (d act kind : Nat) : (s.breach d act kind).dial = s.dial := by simp [State.breach]
@[simp] theorem State.breaches_dial (s : State) : (s.breaches).dial = s.dial := by simp [State.breaches]
@[simp] theorem State.putLe_dial (s : State) (a n v : Nat) : (s.putLe a n v).dial = s.dial := (rfl)
@[simp] theorem State.fileChannel_dial (s : State) (x c : Nat) (v : Val) (mark gap syn : Bool) (real : Option (Nat × Nat)) :
    (s.fileChannel x c v mark gap syn real).dial = s.dial := by simp [State.fileChannel]

@[simp] theorem State.fileChannels_dial (s : State) (x c : Nat) (gap syn : Bool) (real : Option (Nat × Nat)) (l : List (Val × Bool)) :
    (s.fileChannels x c gap syn real l).dial = s.dial := by
  induction l generalizing s c with
  | nil => rfl
  | cons p l ih =>
    unfold State.fileChannels
    rw [ih, State.fileChannel_dial]

@[simp] theorem State.itkCharge_dial (s : State) (d n : Nat) : (s.itkCharge d n).dial = s.dial := by simp [State.itkCharge]
@[simp] theorem State.sampleTrigger_dial (s : State) (x : Nat) : (s.sampleTrigger x).dial = s.dial := by simp [State.sampleTrigger]

@[simp] theorem State.fileSample_dial (s : State) (x : Nat) (vs : List (Val × Bool)) (real : Option (Nat × Nat)) :
    (s.fileSample x vs real).dial = s.dial := by
  unfold State.fileSample
  extract_lets d gap s1 s2 f s3 s4 s5 s6 s7
  have h2 : s2.dial = s.dial := (s1.dial_gapPend _).trans (s.fileChannels_dial _ _ _ _ _ _)
  have h3 : s3.dial = s.dial := by
    dsimp only [s3]
    split <;> simp [h2]
  have h5 : s5.dial = s.dial := by
    dsimp only [s5, s4]
    split <;> simp [h3]
  simp [s7, s6, h5]

@[simp] theorem State.checkSample_dial (s : State) (x seq src : Nat) (vals : List Nat) : (s.checkSample x seq src vals).dial = s.dial := by
  unfold State.checkSample
  extract_lets d vs
  split
  · simp
  · split <;> simp

@[simp] theorem State.swapKey_dial (s : State) (k : Nat) : (s.swapKey k).dial = s.dial := by simp [State.swapKey]

@[simp] theorem State.exchange_dial (s : State) : (s.exchange).dial = s.dial := by
  unfold State.exchange
  extract_lets t
  have ht : t.dial = s.dial := State.dial_foldl _ State.swapKey_dial _ _
  clear_value t
  exact (t.dial_sets _ _ _ _ _ _).trans ht

@[simp] theorem State.nextSet_dial (s : State) : (s.nextSet).dial = s.dial := by simp [State.nextSet]

@[simp] theorem State.dropLate_dial (s : State) (q : Req) : (s.dropLate q).1.dial = s.dial := by
  unfold State.dropLate
  split
  · split
    · exact (State.dial_reqs _ _).trans (s.count_dial _ _ _ _ _)
    · rfl
  · rfl

@[simp] theorem State.dropPassed_dial (s : State) (d at_ : Nat) : (s.dropPassed d at_).dial = s.dial := by simp [State.dropPassed]
@[simp] theorem State.dropReq_dial (s : State) (x : Nat) : (s.dropReq x).dial = s.dial := by
  unfold State.dropReq
  exact State.setEnt_dial _ _ _ _

@[simp] theorem State.refuseReq_dial (s : State) (q : Req) (code : Nat) (unrecorded : Bool) :
    (s.refuseReq q code unrecorded).dial = s.dial := by
  unfold State.refuseReq
  extract_lets x ctx age ttl s1 only s2
  have h2 : s2.dial = s.dial := by
    dsimp only [s2, s1]
    split <;> simp
  clear_value s2
  split
  · simp [h2]
  · exact (s2.dial_reqs _).trans h2

@[simp] theorem State.decideOne_dial (s : State) (x : Slice) (unrecorded shut : Bool) (p code at_ : Nat) (q : Req) :
    (s.decideOne x unrecorded shut p code at_ q).1.dial = s.dial := by
  unfold State.decideOne
  extract_lets v
  split <;> simp

/-- The state and the slice with every request due decided. -/
def State.sliceDecided (s : State) (d at_ p code : Nat) : State × Slice :=
  let v := s.nextSet
  let shut := s.sliceShut d
  let s := if s.lgrFree d < lgrRoom then s.event d LGR_EVENT_STOP else s
  let x : Slice := ⟨d, [], [], [], [], [], []⟩
  let x := (v.spanCounts p code at_).foldl (fun (x : Slice) r => x.reserve v at_ r) x
  let x := x.use (budKey 1 0) (grpCharge v.grpA d (s.frame + 1))
  let unrecorded := s.lgrShut d
  let s := s.dropPassed d at_
  (s.due d at_).foldl (fun (y : State × Slice) q => y.1.decideOne y.2 unrecorded shut p code at_ q) (s, x)

/-- A slice is closed by its decisions, which are then shown (R51). The body is compared as a function: the kernel would evaluate it
otherwise. -/
theorem State.closeSlice_eq (s : State) (d at_ p code : Nat) : s.closeSlice d at_ p code =
    ((s.sliceDecided d at_ p code).1.boxShow (s.sliceDecided d at_ p code).2 (s.nextSet.capacity d 1 p code),
      (s.sliceDecided d at_ p code).2) := by
  have h : State.closeSlice = State.closeSlice := rfl
  conv at h => rhs; delta State.closeSlice
  generalize hz : s.sliceDecided d at_ p code = z
  rw [h]
  beta_reduce
  extract_lets v shut s1 x1 x2 x3 unrecorded s2
  have hd : (s2.due d at_).foldl (fun (y : State × Slice) q => y.1.decideOne y.2 unrecorded shut p code at_ q) (s2, x3) = z := hz
  generalize (s2.due d at_).foldl (fun (y : State × Slice) q => y.1.decideOne y.2 unrecorded shut p code at_ q) (s2, x3) = y at hd ⊢
  subst hd
  obtain ⟨u, x⟩ := y
  rfl

theorem State.dial_foldl_fst {α β : Type} (f : State × β → α → State × β) (h : ∀ y a, (f y a).1.dial = y.1.dial) (l : List α)
    (y : State × β) :
    (l.foldl f y).1.dial = y.1.dial := by
  induction l generalizing y with
  | nil => rfl
  | cons a l ih => exact (ih _).trans (h y a)

theorem State.sliceDecided_dial (s : State) (d at_ p code : Nat) : (s.sliceDecided d at_ p code).1.dial = s.dial := by
  unfold State.sliceDecided
  extract_lets v shut s1 x1 x2 x3 unrecorded s2
  have h1 : s1.dial = s.dial := by
    dsimp only [s1]
    split
    · exact s.event_dial _ _
    · rfl
  have h2 : s2.dial = s.dial := (s1.dropPassed_dial _ _).trans h1
  exact (State.dial_foldl_fst _ (fun y q => y.1.decideOne_dial _ _ _ _ _ _ _) _ _).trans h2

@[simp] theorem State.closeSlice_dial (s : State) (d at_ p code : Nat) : (s.closeSlice d at_ p code).1.dial = s.dial := by
  have h := s.sliceDecided_dial d at_ p code
  rw [State.closeSlice_eq]
  generalize s.sliceDecided d at_ p code = y at h ⊢
  exact (y.1.boxShow_dial _ _).trans h

/-- Slices closed one after the other, by any way to close one. -/
def closeEach (f : State → Nat → Nat → Nat → Nat → State × Slice) (s : State) (at_ p code : Nat) :
    List Nat → State × List Slice
  | [] => (s, [])
  | d :: t =>
    let (s, x) := f s d at_ p code
    let (s, l) := closeEach f s at_ p code t
    (s, x :: l)

theorem closeEach_keeps {β : Type} (g : State → β) (f : State → Nat → Nat → Nat → Nat → State × Slice)
    (hf : ∀ s d at_ p code, g (f s d at_ p code).1 = g s) (s : State) (at_ p code : Nat) (l : List Nat) :
    g (closeEach f s at_ p code l).1 = g s := by
  induction l generalizing s with
  | nil => rfl
  | cons d l ih => exact (ih _).trans (hf s d at_ p code)

/-- The slices of a close are closed one after the other. The way a slice is closed is kept opaque: the kernel would evaluate it. -/
theorem State.closeAll_eq (s : State) (at_ p code : Nat) (l : List Nat) :
    s.closeAll at_ p code l = closeEach State.closeSlice s at_ p code l := by
  have h : State.closeAll = State.closeAll := rfl
  conv at h => rhs; delta State.closeAll State.closeAll._f
  obtain ⟨f, hf⟩ : ∃ f, f = State.closeSlice := ⟨_, rfl⟩
  rw [← hf] at h ⊢
  clear hf
  rw [h]
  clear h
  induction l generalizing s with
  | nil => rfl
  | cons d l ih =>
    rw [closeEach]
    simp only [← ih]

@[simp] theorem State.closeAll_dial (s : State) (at_ p code : Nat) (l : List Nat) : (s.closeAll at_ p code l).1.dial = s.dial := by
  rw [State.closeAll_eq]
  exact closeEach_keeps State.dial _ State.closeSlice_dial _ _ _ _ _

@[simp] theorem State.placeBatch_dial (s : State) (b : OpenBatch) (n : Nat) : (s.placeBatch b n).dial = s.dial := (rfl)
@[simp] theorem State.placeAll_dial (s : State) (xs : List Slice) (openAny : Bool) : (s.placeAll xs openAny).dial = s.dial :=
  by simp [State.placeAll]

@[simp] theorem State.seqStep_dial (s : State) (x : Nat) : (s.seqStep x).1.dial = s.dial := by
  unfold State.seqStep
  extract_lets m s1 s2
  have h2 : s2.dial = s.dial := by simp [s2, s1]
  clear_value s2
  dsimp only
  split
  · exact (State.dial_postponed _ _).trans ((s2.setEnt_dial _ _ _).trans h2)
  · exact h2

@[simp] theorem State.releaseRun_dial (s : State) (x : Nat) (due : Bool) (n : Nat) : (s.releaseRun x due n).dial = s.dial := by
  induction n generalizing s due with
  | zero => rfl
  | succ n ih =>
    unfold State.releaseRun
    split
    · dsimp only
      rw [ih, State.seqStep_dial, State.checkSample_dial, State.access_dial]
    · rfl

@[simp] theorem State.seqPass_dial (s : State) (x : Nat) : (s.seqPass x).dial = s.dial := by simp [State.seqPass]
@[simp] theorem State.skipped_dial (s : State) (x n : Nat) : (s.skipped x n).dial = s.dial := by
  unfold State.skipped
  split <;> rfl

@[simp] theorem State.seqAdvance_dial (s : State) (x goal n : Nat) : (s.seqAdvance x goal n).dial = s.dial := by
  induction n generalizing s with
  | zero => rfl
  | succ n ih =>
    unfold State.seqAdvance
    extract_lets k
    split
    · rfl
    · split
      · simp
      · simp [ih]

@[simp] theorem State.releaseOldest_dial (s : State) (x : Nat) : (s.releaseOldest x).dial = s.dial := by simp [State.releaseOldest]

end Sys2Proof.Machine
end

section
/-! The curtain unit's own state through resets, egress, the scrubbers, updates and what a curtain does. -/

namespace Sys2Proof.Machine

@[simp] theorem State.heldClose_dial (s : State) (x : Nat) : (s.heldClose x).dial = s.dial := by
  unfold State.heldClose
  split
  · rfl
  · split
    · simp
    · extract_lets t
      have ht : t.dial = s.dial := s.releaseOldest_dial _
      clear_value t
      split
      · exact (t.dial_postponed _).trans ht
      · exact s.dial_postponed _

@[simp] theorem State.darkStep_dial (s : State) (st : Step) (cause : Nat) : (s.darkStep st cause).dial = s.dial := by simp [State.darkStep]
@[simp] theorem State.darkAll_dial (s : State) : (s.darkAll).dial = s.dial := by simp [State.darkAll]
@[simp] theorem State.keepRegs_dial (s : State) (p : Nat → Nat → Bool) : (s.keepRegs p).dial = s.dial := (rfl)

/-- The execution domain's units as its reset leaves them, but for their registers. -/
def State.execCleared (s : State) : State :=
  { s with
    cores := s.cores.filterMap (fun (k, c) =>
      if 1584 ≤ k then some (k, c)
      else
        let r := { Core.reset with role := c.role }
        if r = Core.reset then none else some (k, r))
    mem := s.mem.filter (fun (a, _) => !inPads a)
    poison := s.poison.filter (fun g => !inPads (g * 64))
    inflight := []
    signals := []
    landObs := []
    errCmds := []
    fwd := []
    itkStop := []
    itkTurn := []
    itkKept := []
    itkNext := []
    backlog := []
    egrDropped := []
    egrSeq := []
    egrCount := []
    egrOwed := []
    bdma := []
    bdmaReq := []
    merges := []
    hiCap := []
    loWr := []
    copies := s.copies.filter (fun (k, _) => decide (8 ≤ k))
    fabOut := []
    rehOff := [] }

theorem State.execCleared_dial (s : State) : s.execCleared.dial = s.dial := rfl

/-- The registers that a reset of the execution domain leaves (R433). -/
def State.execRegs (s : State) : State :=
  (List.range 8).foldl (fun s d => s.setFld d EGR_CTRL_EN 0)
    (((s.keepRegs execKept).setRg64 (dkey 0 MGT_REH_LO_CTX.off) 0).setFld 0 MGT_DBG_STATUS_ERR 0)

theorem State.execReset_eq (s : State) : s.execReset = s.execRegs.execCleared := by
  unfold State.execReset State.execRegs State.execCleared
  rfl

@[simp] theorem State.execReset_dial (s : State) : (s.execReset).dial = s.dial := by
  rw [State.execReset_eq, State.execCleared_dial, State.execRegs]
  simp

@[simp] theorem State.d3Curtain_dial (s : State) : (s.d3Curtain).dial = s.dial := by
  unfold State.d3Curtain
  split
  · exact s.dial_d3Pend _
  · exact (State.dial_pass _ _ _ _ _).trans (by simp)
  · rfl

@[simp] theorem State.lgrLate_dial (s : State) (reh host : Bool) (ctx stream act cls frame : Nat) :
    (s.lgrLate reh host ctx stream act cls frame).dial = s.dial := by simp [State.lgrLate]
@[simp] theorem State.dropDma_dial (s : State) : (s.dropDma).dial = s.dial := (rfl)
@[simp] theorem State.meshParity_dial (s : State) (d : Nat) : (s.meshParity d).dial = s.dial := by simp [State.meshParity]
@[simp] theorem State.meshTimedOut_dial (s : State) (d g : Nat) : (s.meshTimedOut d g).dial = s.dial := by simp [State.meshTimedOut]
@[simp] theorem State.setHostBytes_dial (s : State) (a : Nat) (l : List Byte) (psn : Bool) : (s.setHostBytes a l psn).dial = s.dial := (rfl)
@[simp] theorem State.msixPend_dial (s : State) (v : Nat) : (s.msixPend v).dial = s.dial := (rfl)
@[simp] theorem State.msix_dial (s : State) (d v : Nat) : (s.msix d v).dial = s.dial := by simp [State.msix]

@[simp] theorem State.egrComplete_dial (s : State) (die ring : Nat) (psn : Bool) : (s.egrComplete die ring psn).dial = s.dial := by
  unfold State.egrComplete
  split
  · extract_lets key b s1 s2
    have h1 : s1.dial = s.dial := by simp [s1]
    clear_value s1
    have h2 : s2.dial = s.dial := (s1.dial_egrOwed _ _).trans h1
    clear_value s2
    split
    · simp [h2]
    · exact h2
  · rfl

@[simp] theorem State.grpHeader_dial (s : State) (g : Grp) (frame cur prev updates eta skips : Nat) :
    (s.grpHeader g frame cur prev updates eta skips).dial = s.dial := by simp [State.grpHeader]

@[simp] theorem State.ueAt_dial (s : State) (d a : Nat) : (s.ueAt d a).dial = s.dial := by
  unfold State.ueAt
  extract_lets s1 s2 s3
  have h3 : s3.dial = s.dial := by simp [s3, s2, s1]
  clear_value s3
  exact (s3.dial_ueRead _).trans h3

@[simp] theorem State.scrubbed_dial (s : State) (d : Nat) (x : Scrubbed) : (s.scrubbed d x).dial = s.dial := by
  unfold State.scrubbed
  split
  · rfl
  · split
    · rfl
    · simp
    · exact (State.dial_poison _ _).trans (s.ueAt_dial _ _)

@[simp] theorem State.updDecide_dial (s : State) (d k : Nat) : (s.updDecide d k).dial = s.dial := by
  unfold State.updDecide
  extract_lets g r cur t eta skips off copy new u v w
  split
  · simp
  · split
    · simp [u]
    · simp [w, v]

@[simp] theorem State.newHeaders_dial (s : State) (d : Nat) : (s.newHeaders d).dial = s.dial := by
  unfold State.newHeaders
  dsimp only
  split <;> simp

@[simp] theorem State.updGuard_dial (s : State) (d : Nat) : (s.updGuard d).dial = s.dial := by
  unfold State.updGuard
  extract_lets ks s1 s2 s3
  have h1 : s1.dial = s.dial := by
    dsimp only [s1]
    split <;> simp
  have h2 : s2.dial = s.dial := (State.dial_foldl _ (fun u k => u.updDecide_dial d k) _ _).trans h1
  clear_value s2
  exact (State.newHeaders_dial _ _).trans ((s2.dial_grpRuns _).trans h2)

@[simp] theorem State.ringMissed_dial (s : State) (d a n : Nat) : (s.ringMissed d a n).dial = s.dial := by simp [State.ringMissed]

@[simp] theorem State.ringParity_dial (s : State) (d a : Nat) (what : Arrival) : (s.ringParity d a what).1.dial = s.dial := by
  unfold State.ringParity
  split
  · simp
  · rfl

@[simp] theorem State.ringWrite_dial (s : State) (act : Option Nat) (d a : Nat) (l : List Byte) (psn : Bool) (what : Arrival) :
    (s.ringWrite act d a l psn what).dial = s.dial := by simp [State.ringWrite]

@[simp] theorem State.synthetic_dial (s : State) (x : Nat) : (s.synthetic x).dial = s.dial := by
  unfold State.synthetic
  extract_lets d vs t
  split
  · rfl
  · split
    · simp [t]
    · rfl

@[simp] theorem State.postponedRelease_dial (s : State) (x : Nat) : (s.postponedRelease x).dial = s.dial := by
  unfold State.postponedRelease
  split
  · exact s.dial_postponed _
  · extract_lets t
    have ht : t.dial = s.dial := s.releaseOldest_dial _
    clear_value t
    split
    · exact (t.dial_postponed _).trans ht
    · rfl

@[simp] theorem State.staleCheck_dial (s : State) (x : Nat) : (s.staleCheck x).dial = s.dial := by simp [State.staleCheck]
@[simp] theorem State.periodic_dial (s : State) (x : Nat) : (s.periodic x).dial = s.dial := by simp [State.periodic]

@[simp] theorem State.itkCurtain_dial (s : State) (d : Nat) : (s.itkCurtain d).dial = s.dial := by
  unfold State.itkCurtain
  extract_lets s1 mine syn s2 s3 s4 s5
  have h1 : s1.dial = s.dial := s.setFld_dial _ _ _
  clear_value s1
  have h2 : s2.dial = s.dial := (s1.dial_deferSyn _).trans h1
  clear_value s2
  have h4 : s4.dial = s.dial := by simp [s4, s3, h2]
  have h5 : s5.dial = s.dial := by
    refine (State.dial_foldl _ (fun u x => ?_) _ _).trans h4
    split
    · rfl
    · simp
  clear_value s5
  exact (s5.dial_itkStop _).trans h5

@[simp] theorem State.lgrMarkReached_dial (s : State) (d : Nat) : (s.lgrMarkReached d).dial = s.dial := by
  unfold State.lgrMarkReached
  split
  · rfl
  · split
    · exact (State.event_dial _ _ _).trans (State.setFld_dial _ _ _ _)
    · rfl

@[simp] theorem State.lgrLand_dial (s : State) (d : Nat) : (s.lgrLand d).dial = s.dial := by
  unfold State.lgrLand
  split
  · extract_lets tail at_ s1 s2
    have h1 : s1.dial = s.dial := s.ringWrite_dial _ _ _ _ _ _
    clear_value s1
    have h2 : s2.dial = s.dial := (s1.dial_lgrBuf _).trans h1
    clear_value s2
    simp [h2]
  · rfl

@[simp] theorem State.lgrLandAll_dial (s : State) (d n : Nat) : (s.lgrLandAll d n).dial = s.dial := by
  induction n generalizing s with
  | zero => rfl
  | succ n ih => exact (ih _).trans (s.lgrLand_dial d)

@[simp] theorem State.lgrPad_dial (s : State) (d n : Nat) : (s.lgrPad d n).dial = s.dial := by
  induction n generalizing s with
  | zero => rfl
  | succ n ih =>
    unfold State.lgrPad
    split
    · rfl
    · rw [ih, State.lgrPush_dial]

@[simp] theorem State.lgrCurtain_dial (s : State) (d : Nat) : (s.lgrCurtain d).dial = s.dial := by
  unfold State.lgrCurtain
  extract_lets s1 s2 s3 s4
  have h2 : s2.dial = s.dial := by
    dsimp only [s2, s1]
    rw [State.lgrPad_dial]
    exact State.dial_foldl _ (fun u x => u.lgrPush_dial _ _) _ _
  clear_value s2
  have h3 : s3.dial = s.dial := by
    dsimp only [s3]
    split
    · exact (State.lgrMarkReached_dial _ _).trans ((s2.dial_lgrMark _).trans h2)
    · exact h2
  clear_value s3
  split
  · have h4 : s4.dial = s.dial := (s3.lgrLandAll_dial _ _).trans h3
    clear_value s4
    exact (State.setFld_dial _ _ _ _).trans ((s4.dial_lgrOwing _).trans h4)
  · exact h3

@[simp] theorem State.limitFlag_dial (s : State) : (s.limitFlag).dial = s.dial := by simp [State.limitFlag]
@[simp] theorem State.markMissed_dial (s : State) : (s.markMissed).dial = s.dial := by simp [State.markMissed]
@[simp] theorem State.setChan_dial (s : State) (id : ChanId) (k : Chan) : (s.setChan id k).dial = s.dial := by
  unfold State.setChan
  split <;> rfl
@[simp] theorem State.modChan_dial (s : State) (id : ChanId) (f : Chan → Chan) : (s.modChan id f).dial = s.dial := by simp [State.modChan]

@[simp] theorem State.p1Curtain_dial (s : State) : (s.p1Curtain).dial = s.dial := by
  unfold State.p1Curtain
  split
  · exact State.setFld_dial _ _ _ _
  · rfl

@[simp] theorem State.showFrame_dial (s : State) (d : Nat) : (s.showFrame d).dial = s.dial := by simp [State.showFrame]
@[simp] theorem State.schedule_dial (s : State) : (s.schedule).dial = s.dial := (rfl)

@[simp] theorem State.takeSwap_dial (s : State) : (s.takeSwap).dial = s.dial := by
  unfold State.takeSwap
  split
  · extract_lets s1 s2
    have h1 : s1.dial = s.dial := s.exchange_dial
    clear_value s1
    have h2 : s2.dial = s.dial := (s1.dial_swap _ _).trans h1
    clear_value s2
    simp [h2]
  · rfl

@[simp] theorem State.softExec_dial (s : State) : (s.softExec).dial = s.dial := by
  unfold State.softExec
  split
  · exact (State.dial_softOwed _ _).trans s.darkAll_dial
  · rfl

@[simp] theorem State.settleCredit_dial (s : State) (ch : ChanId) : (s.settleCredit ch).dial = s.dial := by simp [State.settleCredit]
@[simp] theorem State.rebaseAll_dial (s : State) : (s.rebaseAll).dial = s.dial := by simp [State.rebaseAll]
@[simp] theorem State.restUnderstudies_dial (s : State) : (s.restUnderstudies).dial = s.dial := by simp [State.restUnderstudies]
@[simp] theorem State.spend_dial (s : State) (n : Nat) : (s.spend n).dial = s.dial := by
  unfold State.spend
  split <;> rfl

end Sys2Proof.Machine
end

section
/-! The curtain unit's own state as time passes (R57, R85, R349, R436). -/

namespace Sys2Proof.Machine

/-- The same at another time. -/
def Dial.at (x : Dial) (n : Nat) : Dial := { x with now := n }

theorem State.dial_now (s : State) (n : Nat) : ({ s with now := n } : State).dial = s.dial.at n := rfl
theorem State.dial_softStage (s : State) (a) : ({ s with softStage := a } : State).dial = s.dial := rfl
theorem State.dial_execOff (s : State) (a b) : ({ s with softStage := a, execOff := b } : State).dial = s.dial := rfl
theorem State.dial_time (s : State) (n a) : ({ s with now := n, upTime := a } : State).dial = s.dial.at n := rfl

/-- The completions that fall due by a time, each written at its own. -/
def State.egrForced (s : State) (l : List (Nat × Nat × Nat)) (u : State) : State :=
  l.foldl (fun u (d, k, t) => { u with now := max s.now (t + s.egrCoal d) }.egrComplete d k false) u

theorem State.egrForced_dial (s : State) (l : List (Nat × Nat × Nat)) (u : State) (n : Nat) :
    (s.egrForced l u).dial.at n = u.dial.at n := by
  induction l generalizing u with
  | nil => rfl
  | cons o l ih =>
    obtain ⟨d, k, t⟩ := o
    refine (ih _).trans ?_
    rw [State.egrComplete_dial, State.dial_now]
    rfl

theorem State.egrForce_eq (s : State) (a : Nat) : s.egrForce a =
    { s.egrForced (s.egrOwed.filter (fun (d, _, t) => decide (t + s.egrCoal d ≤ a))) s with now := s.now } := rfl

@[simp] theorem State.egrForce_dial (s : State) (a : Nat) : (s.egrForce a).dial = s.dial := by
  have h := s.egrForced_dial (s.egrOwed.filter (fun (d, _, t) => decide (t + s.egrCoal d ≤ a))) s s.now
  rw [State.egrForce_eq]
  generalize s.egrForced _ s = t at h ⊢
  exact (t.dial_now _).trans h

@[simp] theorem State.softPass_dial (s : State) (a : Nat) : (s.softPass a).dial = s.dial := by
  unfold State.softPass
  extract_lets a' t b
  have ha : a'.dial = s.dial := by simp [a']
  clear_value a'
  have ht : t.dial = s.dial := by
    dsimp only [t]
    split
    · exact (a'.dial_softStage _).trans ha
    · rfl
  clear_value t
  have hb : b.dial = s.dial := by simp [b, ht]
  clear_value b
  split
  · exact (b.dial_execOff _ _).trans hb
  · exact ht

theorem State.tick_dial (s : State) (a : Nat) : (s.tick a).dial = s.dial.at (max s.now a) := by
  unfold State.tick
  split
  · next h =>
    rw [Nat.max_eq_left h]
    rfl
  · next h =>
    extract_lets n t
    have ht : t.dial = s.dial := by simp [t]
    clear_value t
    rw [State.dial_time, ht, Nat.max_eq_right (by omega)]

theorem State.tick_now (s : State) (a : Nat) : (s.tick a).now = max s.now a := congrArg Dial.now (s.tick_dial a)
@[simp] theorem State.tick_frame (s : State) (a : Nat) : (s.tick a).frame = s.frame := congrArg Dial.frame (s.tick_dial a)
@[simp] theorem State.tick_curtainAt (s : State) (a : Nat) : (s.tick a).curtainAt = s.curtainAt := congrArg Dial.curtainAt (s.tick_dial a)
@[simp] theorem State.tick_nominal (s : State) (a : Nat) : (s.tick a).nominal = s.nominal := congrArg Dial.nominal (s.tick_dial a)
@[simp] theorem State.tick_curMode (s : State) (a : Nat) : (s.tick a).curMode = s.curMode := congrArg Dial.curMode (s.tick_dial a)
@[simp] theorem State.tick_edgeAt (s : State) (a : Nat) : (s.tick a).edgeAt = s.edgeAt := congrArg Dial.edgeAt (s.tick_dial a)
@[simp] theorem State.tick_clockFixed (s : State) (a : Nat) : (s.tick a).clockFixed = s.clockFixed :=
  congrArg Dial.clockFixed (s.tick_dial a)
@[simp] theorem State.tick_closedFor (s : State) (a : Nat) : (s.tick a).closedFor = s.closedFor := congrArg Dial.closedFor (s.tick_dial a)
@[simp] theorem State.tick_guardOn (s : State) (a : Nat) : (s.tick a).guardOn = s.guardOn := congrArg Dial.guardOn (s.tick_dial a)
@[simp] theorem State.tick_refreshOn (s : State) (a : Nat) : (s.tick a).refreshOn = s.refreshOn := congrArg Dial.refreshOn (s.tick_dial a)
@[simp] theorem State.tick_deadlineFor (s : State) (a : Nat) : (s.tick a).deadlineFor = s.deadlineFor :=
  congrArg Dial.deadlineFor (s.tick_dial a)
@[simp] theorem State.tick_curArmed (s : State) (a : Nat) : (s.tick a).pins.curArmed = s.pins.curArmed :=
  congrArg Dial.curArmed (s.tick_dial a)
@[simp] theorem State.tick_pinsTaken (s : State) (a : Nat) : (s.tick a).pinsTaken = s.pinsTaken := congrArg Dial.taken (s.tick_dial a)
@[simp] theorem State.tick_scrub (s : State) (a : Nat) : (s.tick a).scrub = s.scrub := congrArg Dial.scrub (s.tick_dial a)
@[simp] theorem State.tick_ppsArmed (s : State) (a : Nat) : (s.tick a).pins.ppsArmed = s.pins.ppsArmed :=
  congrArg Dial.ppsArmed (s.tick_dial a)

end Sys2Proof.Machine
end

section
/-! What the time leaves of the registers (R57, R85, R349, R436), and the completions that it forces (R85). -/

namespace Sys2Proof.Machine

theorem get_filter_of_kept {α : Type} (d : α) (q : Nat → Bool) (m : SMap α) {k : Nat} (h : q k = true) :
    get d (m.filter (fun (a, _) => q a)) k = get d m k := by
  have hl : look (m.filter (fun (a, _) => q a)) k = look m k := by
    induction m with
    | nil => rfl
    | cons y m ih =>
      obtain ⟨a, x⟩ := y
      by_cases hk : a = k
      · subst hk
        rw [List.filter_cons_of_pos (by exact h), look, look, if_pos rfl, if_pos rfl]
      · by_cases ha : q a = true
        · rw [List.filter_cons_of_pos (by exact ha), look, look, if_neg hk, if_neg hk, ih]
        · rw [List.filter_cons_of_neg (by exact ha), look, if_neg hk, ih]
  rw [get, get, hl]

/-- The registers that the time reaches: the core-scope ones, the lanes and rings that the reset of the execution domain loses, the
units whose events it raises, and its own. -/
def timely (off : Nat) : Bool :=
  decide (0x1000000 ≤ off) ||
    pages [0x40, 0x60, 0x90, 0xB1, 0xC0, 0xC1, 0xC2, 0xC3, 0xC4, 0xC5, 0xC6, 0xC7, 0xC8, 0xC9, 0xCA, 0xCB, 0xCC, 0xCD, 0xCE, 0xCF, 0xD0, 0x12F] off

theorem timely_src (off : Nat) (h : off / 0x1000 = 0xB1) : timely off = true := by
  rw [timely, pages_src (by decide) off h, Bool.or_true]

theorem timely_kept {d off : Nat} (h : timely off = false) : execKept d off = true := by
  simp only [timely, pages, List.contains_eq_mem, Bool.or_eq_false_iff, decide_eq_false_iff_not, List.mem_cons, List.not_mem_nil,
    not_or] at h
  simp only [execKept]
  rw [if_neg h.1]
  simp only [Bool.not_eq_true', Bool.or_eq_false_iff, Bool.and_eq_false_imp, decide_eq_true_eq, decide_eq_false_iff_not, beq_eq_false_iff_ne]
  omega

theorem State.keepRegs_but (s : State) : RegsBut timely s (s.keepRegs execKept) := by
  intro k hk
  have h : execKept (k / 0x4000000) (k % 0x4000000) = true := timely_kept hk
  exact congrArg BitVec.toNat (get_filter_of_kept (rstOf k) (fun a => execKept (a / 0x4000000) (a % 0x4000000)) s.regs h)

theorem State.execCleared_regs (s : State) : s.execCleared.regs = s.regs := rfl
theorem State.setLink_regs (s : State) (d : Nat) (l : PortLink) : (s.setLink d l).regs = s.regs := rfl
theorem State.fabIn_regs (s : State) (a) : ({ s with fabIn := a } : State).regs = s.regs := rfl

theorem State.execReset_but (s : State) : RegsBut timely s s.execReset := by
  rw [State.execReset_eq]
  have h0 : RegsBut timely s.execRegs s.execRegs.execCleared := RegsBut.of_regs timely (State.execCleared_regs _)
  refine RegsBut.trans ?_ h0
  unfold State.execRegs
  have hclear (t : State) (d : Nat) : RegsBut timely t (t.setFld d EGR_CTRL_EN 0) := t.setFld_but timely d _ 0 (by decide) (by decide)
  have hreh (t : State) : RegsBut timely t (t.setRg64 (dkey 0 MGT_REH_LO_CTX.off) 0) :=
    t.setRg64_but timely 0 0 (by decide) (by decide) (by decide)
  have hdbg (t : State) : RegsBut timely t (t.setFld 0 MGT_DBG_STATUS_ERR 0) := t.setFld_but timely 0 _ 0 (by decide) (by decide)
  exact ((s.keepRegs_but.trans (hreh _)).trans (hdbg _)).trans (RegsBut.foldl _ _ (fun t d _ => hclear t d) _)

theorem State.linkDown_but (s : State) (d : Nat) : RegsBut timely s (s.linkDown d) := by
  unfold State.linkDown
  split
  · extract_lets u l start v w
    have hu : RegsBut timely s u :=
      (s.setFld_but timely d ALF_STATUS_UP 0 (by decide) (by decide)).trans (State.setFld_but timely _ d ALF_STATUS_LANES 0 (by decide) (by decide))
    have hv : RegsBut timely u v := RegsBut.of_regs timely (u.setLink_regs _ _)
    clear_value u v
    have hw : RegsBut timely v w := RegsBut.of_regs timely (v.fabIn_regs _)
    clear_value w
    have hx : RegsBut timely w ((w.event d ALF_EVENT_DOWN).count 3 d 2 32 1) :=
      (w.event_but timely d ALF_EVENT_DOWN (by decide) (by decide) timely_src).trans (RegsBut.of_regs timely (State.count_regs _ 3 d 2 32 1))
    exact ((hu.trans hv).trans hw).trans hx
  · exact RegsBut.refl timely s

theorem State.ackLimits_but (s : State) (a : Nat) : RegsBut timely s (s.ackLimits a) := by
  unfold State.ackLimits
  refine RegsBut.foldl _ _ (fun u d _ => ?_) s
  split
  · exact u.linkDown_but d
  · exact RegsBut.refl timely u

theorem State.msix_but (s : State) (d v : Nat) : RegsBut timely s (s.msix d v) := by
  have hcarry : RegsBut timely s (s.carry none d 0 4) := RegsBut.of_regs timely (s.carry_regs none d 0 4)
  have hpend (u : State) : RegsBut timely u (u.msixPend v) := RegsBut.of_regs timely rfl
  unfold State.msix
  generalize s.carry none d 0 4 = u at hcarry
  dsimp only
  split
  · exact (hcarry.trans (hpend u)).trans (State.event_but timely _ 0 MSH_EVENT_UNMAPPED (by decide) (by decide) timely_src)
  · split
    · exact hcarry.trans (RegsBut.of_regs timely rfl)
    · exact hcarry.trans (hpend u)

theorem State.egrComplete_but (s : State) (d k : Nat) (psn : Bool) : RegsBut timely s (s.egrComplete d k psn) := by
  by_cases h : s.egrOwes d k = true ∧ s.pcie.bme = true ∧ s.linkUp = true
  · obtain ⟨ho, hb, hl⟩ := h
    rw [s.egrComplete_some d k psn ho hb hl]
    have hc : RegsBut timely s (s.egrCompleted d k psn) := RegsBut.of_regs timely (s.egrCompleted_leaves d k psn _ rfl).1
    generalize s.egrCompleted d k psn = t at hc
    split
    · exact hc.trans (t.msix_but d _)
    · exact hc
  · rw [s.egrComplete_none d k psn (by simpa [← Bool.not_eq_true, imp_iff_not_or, -not_and, not_and_or] using h)]
    exact RegsBut.refl timely s

theorem State.now_but (s : State) (n : Nat) : RegsBut timely s { s with now := n } := RegsBut.of_regs timely rfl
theorem State.softStage_but (s : State) (a) : RegsBut timely s { s with softStage := a } := RegsBut.of_regs timely rfl
theorem State.execOff_but (s : State) (a b) : RegsBut timely s { s with softStage := a, execOff := b } := RegsBut.of_regs timely rfl
theorem State.upTime_but (s : State) (a b) : RegsBut timely s { s with now := a, upTime := b } := RegsBut.of_regs timely rfl
theorem State.dropDma_but (s : State) : RegsBut timely s s.dropDma := RegsBut.of_regs timely rfl

theorem State.egrForced_but (s : State) (l : List (Nat × Nat × Nat)) (u : State) : RegsBut timely u (s.egrForced l u) :=
  RegsBut.foldl _ _ (fun u _ _ => (u.now_but _).trans (State.egrComplete_but _ _ _ _)) u

theorem State.egrForce_but (s : State) (a : Nat) : RegsBut timely s (s.egrForce a) := by
  rw [State.egrForce_eq]
  exact (s.egrForced_but _ s).trans (State.now_but _ _)

theorem State.spend_but (s : State) (n : Nat) : RegsBut timely s (s.spend n) := by
  unfold State.spend
  split
  · exact RegsBut.refl timely s
  · exact RegsBut.of_regs timely rfl

theorem State.softPass_but (s : State) (a : Nat) : RegsBut timely s (s.softPass a) := by
  unfold State.softPass
  extract_lets u t v
  have hu : RegsBut timely s u := (s.egrForce_but _).trans (State.dropDma_but _)
  clear_value u
  have ht : RegsBut timely s t := by
    dsimp only [t]
    split
    · exact hu.trans (u.softStage_but _)
    · exact RegsBut.refl timely s
  clear_value t
  have hv : RegsBut timely s v := (ht.trans (t.egrForce_but _)).trans (State.execReset_but _)
  clear_value v
  split
  · exact hv.trans (v.execOff_but _ _)
  · exact ht

/-- The time reaches those registers only. -/
theorem State.tick_but (s : State) (a : Nat) : RegsBut timely s (s.tick a) := by
  unfold State.tick
  split
  · exact RegsBut.refl timely s
  · extract_lets n t
    have ht : RegsBut timely s t := (((s.spend_but _).trans (State.softPass_but _ _)).trans (State.egrForce_but _ _)).trans (State.ackLimits_but _ _)
    clear_value t
    exact ht.trans (t.upTime_but _ _)

end Sys2Proof.Machine
end

section
/-! The completions that the time forces (R85): with the link up, none that is due stays owed. -/

namespace Sys2Proof.Machine

/-- What the link with the host rests on but the time (R389, R431). -/
def State.hostLink (s : State) : Bool × Bool × Resetting × Nat := (s.pcie.bme, s.pcie.up, s.resetting, s.resetAt)

/-- Whether a port that stands so may write to the host at a time. -/
def linkedAt (p : Bool × Bool × Resetting × Nat) (n : Nat) : Bool := p.1 && p.2.1 && !(p.2.2.1 == .stopped && decide (p.2.2.2 + 20000 ≤ n))

theorem State.linked_iff (s : State) : linkedAt s.hostLink s.now = true ↔ s.pcie.bme = true ∧ s.linkUp = true := by
  rw [linkedAt, State.hostLink, State.linkUp, Bool.and_assoc, Bool.and_eq_true]

theorem linkedAt_mono {p : Bool × Bool × Resetting × Nat} {m n : Nat} (h : linkedAt p n = true) (hmn : m ≤ n) : linkedAt p m = true := by
  simp only [linkedAt, Bool.and_eq_true, Bool.not_eq_true', Bool.and_eq_false_imp, decide_eq_false_iff_not] at h ⊢
  exact ⟨h.1, fun hs => by have := h.2 hs; omega⟩

theorem State.msix_link (s : State) (d v : Nat) : (s.msix d v).hostLink = s.hostLink := by
  have hc : (s.carry none d 0 4).hostLink = s.hostLink := (s.carry_metered none d 0 4).same State.hostLink fun _ _ _ => rfl
  have hp (u : State) : (u.msixPend v).hostLink = u.hostLink := rfl
  have hev (u : State) : (u.event 0 MSH_EVENT_UNMAPPED).hostLink = u.hostLink := (u.event_light 0 _).same State.hostLink fun _ _ _ _ => rfl
  have hem (u : State) : (u.emit (.msix v)).hostLink = u.hostLink := rfl
  unfold State.msix
  generalize s.carry none d 0 4 = u at hc
  dsimp only
  split
  · exact (hev _).trans ((hp u).trans hc)
  · split
    · exact (hem u).trans hc
    · exact (hp u).trans hc

theorem State.egrSettled_link (s : State) (d k : Nat) : (s.egrSettled d k).hostLink = s.hostLink := rfl
theorem State.setHostBytes_link (s : State) (a : Nat) (b : List Byte) (psn : Bool) : (s.setHostBytes a b psn).hostLink = s.hostLink := rfl

theorem State.egrComplete_link (s : State) (d k : Nat) (psn : Bool) : (s.egrComplete d k psn).hostLink = s.hostLink := by
  by_cases h : s.egrOwes d k = true ∧ s.pcie.bme = true ∧ s.linkUp = true
  · obtain ⟨ho, hb, hl⟩ := h
    rw [s.egrComplete_some d k psn ho hb hl]
    have hc : (s.egrCompleted d k psn).hostLink = s.hostLink := by
      rw [State.egrCompleted, State.egrSettled_link, State.setHostBytes_link]
      exact (s.carry_metered none d 0 16).same State.hostLink fun _ _ _ => rfl
    generalize s.egrCompleted d k psn = t at hc
    split
    · exact (t.msix_link d _).trans hc
    · exact hc
  · rw [s.egrComplete_none d k psn (by simpa [← Bool.not_eq_true, imp_iff_not_or, -not_and, not_and_or] using h)]

/-- With the link up, a completion leaves no debt of its ring and the others. -/
theorem State.egrComplete_owed (s : State) (d k : Nat) (h : linkedAt s.hostLink s.now = true) :
    (s.egrComplete d k false).egrOwed = s.egrOwed.filter (fun (a, b, _) => !(a == d && b == k)) := by
  obtain ⟨hb, hl⟩ := s.linked_iff.1 h
  cases ho : s.egrOwes d k with
  | true => exact (s.egrComplete_writes d k ho hb hl _ rfl).2.1
  | false =>
    rw [s.egrComplete_none d k false (.inl ho), eq_comm, List.filter_eq_self]
    rintro ⟨a, b, c⟩ hmem
    rw [Bool.not_eq_true', Bool.eq_false_iff]
    exact List.any_eq_false.1 ho _ hmem

theorem State.now_link (s : State) (n : Nat) : ({ s with now := n } : State).hostLink = s.hostLink := rfl

theorem State.egrForced_owed (s : State) (n : Nat) (hn : s.now ≤ n) (l : List (Nat × Nat × Nat))
    (hl : ∀ e ∈ l, e.2.2 + s.egrCoal e.1 ≤ n) (u : State) (hu : linkedAt u.hostLink n = true) :
    ∀ o ∈ (s.egrForced l u).egrOwed, o ∈ u.egrOwed ∧ o ∉ l := by
  induction l generalizing u with
  | nil => exact fun o ho => ⟨ho, List.not_mem_nil⟩
  | cons e l ih =>
    obtain ⟨d, k, t⟩ := e
    have hdue : t + s.egrCoal d ≤ n := hl _ List.mem_cons_self
    have hv : linkedAt ({ u with now := max s.now (t + s.egrCoal d) } : State).hostLink (max s.now (t + s.egrCoal d)) = true := by
      rw [State.now_link]
      exact linkedAt_mono hu (max_le hn hdue)
    have howed := State.egrComplete_owed { u with now := max s.now (t + s.egrCoal d) } d k hv
    have hport := (State.egrComplete_link { u with now := max s.now (t + s.egrCoal d) } d k false).trans (u.now_link _)
    intro o ho
    obtain ⟨h1, h2⟩ := ih (fun e he => hl e (List.mem_cons_of_mem _ he)) _ (by rw [hport]; exact hu) o ho
    rw [howed] at h1
    obtain ⟨h3, h4⟩ := List.mem_filter.1 h1
    refine ⟨h3, ?_⟩
    rw [List.mem_cons, not_or]
    refine ⟨?_, h2⟩
    rintro rfl
    simp at h4

/-- What the completions that the time forces rest on: the debts, and the link with the host. -/
def State.owing (s : State) : List (Nat × Nat × Nat) × Bool × Bool × Resetting × Nat := (s.egrOwed, s.hostLink)

theorem State.fabIn_owing (s : State) (a) : ({ s with fabIn := a } : State).owing = s.owing := rfl
theorem State.setLink_owing (s : State) (d : Nat) (l : PortLink) : (s.setLink d l).owing = s.owing := rfl
theorem State.setFld_owing (s : State) (d : Nat) (f : RF) (v : Nat) : (s.setFld d f v).owing = s.owing :=
  (s.setFld_light d f v).same State.owing fun _ _ _ _ => rfl
theorem State.count_owing (s : State) (a b c d e : Nat) : (s.count a b c d e).owing = s.owing :=
  (s.count_light a b c d e).same State.owing fun _ _ _ _ => rfl
theorem State.event_owing (s : State) (d : Nat) (f : RF) : (s.event d f).owing = s.owing :=
  (s.event_light d f).same State.owing fun _ _ _ _ => rfl
theorem State.upTime_owing (s : State) (a b : Nat) : ({ s with now := a, upTime := b } : State).owing = s.owing := rfl

theorem State.linkDown_owing (s : State) (d : Nat) : (s.linkDown d).owing = s.owing := by
  unfold State.linkDown
  split
  · extract_lets u l start v w
    have hu : u.owing = s.owing := by simp only [u, State.setFld_owing]
    clear_value u
    have hv : v.owing = s.owing := (u.setLink_owing _ _).trans hu
    clear_value v
    have hw : w.owing = s.owing := (v.fabIn_owing _).trans hv
    clear_value w
    exact (State.count_owing _ _ _ _ _ _).trans ((w.event_owing _ _).trans hw)
  · rfl

theorem State.ackLimits_owing (s : State) (a : Nat) : (s.ackLimits a).owing = s.owing := by
  unfold State.ackLimits
  refine State.foldl_same _ State.owing (fun u d => ?_) _ s
  split
  · exact u.linkDown_owing d
  · rfl

theorem State.softPass_none (s : State) (a : Nat) (h : s.softStage = 0) : s.softPass a = s := by
  unfold State.softPass
  extract_lets u t v
  have ht : t = s := if_neg (by rw [h]; simp)
  rw [ht, if_neg (by rw [h]; simp)]

theorem State.spend_keeps (s : State) (n : Nat) : (s.spend n).egrOwed = s.egrOwed ∧ (s.spend n).hostLink = s.hostLink ∧
    (s.spend n).softStage = s.softStage ∧ (s.spend n).now = s.now ∧ ∀ d, (s.spend n).egrCoal d = s.egrCoal d := by
  unfold State.spend
  split <;> exact ⟨rfl, rfl, rfl, rfl, fun _ => rfl⟩

theorem State.egrForced_link (s : State) (l : List (Nat × Nat × Nat)) (u : State) : (s.egrForced l u).hostLink = u.hostLink := by
  refine State.foldl_same _ State.hostLink (fun u e => ?_) l u
  exact (State.egrComplete_link _ _ _ _).trans (u.now_link _)

theorem State.egrForce_egress (s : State) (a : Nat) :
    (s.egrForce a).egrOwed = (s.egrForced (s.egrOwed.filter (fun (d, _, t) => decide (t + s.egrCoal d ≤ a))) s).egrOwed ∧
    (s.egrForce a).hostLink = s.hostLink := by
  have h := s.egrForced_link (s.egrOwed.filter (fun (d, _, t) => decide (t + s.egrCoal d ≤ a))) s
  rw [State.egrForce_eq]
  generalize s.egrForced _ s = t at h ⊢
  exact ⟨rfl, (t.now_link _).trans h⟩

/-- With the link up, what is owed to the host after the time is not yet due (R85). -/
theorem State.tick_owed (s : State) (a : Nat) (h : s.now < a) (hsoft : s.softStage = 0) (hb : s.pcie.bme = true)
    (hl : (s.tick a).linkUp = true) : ∀ o ∈ (s.tick a).egrOwed, o ∈ s.egrOwed ∧ a ≤ o.2.2 + s.egrCoal o.1 := by
  have hnow : (s.tick a).now = a := (s.tick_now a).trans (Nat.max_eq_right h.le)
  have he : s.tick a = { (((s.spend (s.cyclesIn (a - s.curtainAt) - s.cyclesIn (s.now - s.curtainAt))).softPass a).egrForce (a - 1)).ackLimits a
      with now := a, upTime := s.upTime + (a - s.now) } := by
    rw [State.tick, if_neg (by omega)]
  generalize s.cyclesIn (a - s.curtainAt) - s.cyclesIn (s.now - s.curtainAt) = n at he
  obtain ⟨p1, p2, p3, p4, p5⟩ := s.spend_keeps n
  generalize s.spend n = v at he p1 p2 p3 p4 p5
  rw [v.softPass_none a (p3.trans hsoft)] at he
  obtain ⟨f1, f2⟩ := v.egrForce_egress (a - 1)
  have hforced := v.egrForced_owed (a - 1) (by omega) (v.egrOwed.filter (fun (d, _, t) => decide (t + v.egrCoal d ≤ a - 1)))
    (fun e he => of_decide_eq_true (List.mem_filter.1 he).2) v
  generalize v.egrForced _ v = w at f1 hforced
  generalize v.egrForce (a - 1) = x at he f1 f2
  have hx := x.ackLimits_owing a
  generalize x.ackLimits a = y at he hx
  obtain ⟨y1, y2⟩ := Prod.mk.inj hx
  have hk := y.upTime_owing a (s.upTime + (a - s.now))
  rw [← he] at hk
  obtain ⟨k1, k2⟩ := Prod.mk.inj hk
  have hlink : linkedAt v.hostLink a = true := by
    have hport : (s.tick a).hostLink = v.hostLink := k2.trans (y2.trans f2)
    have h := (s.tick a).linked_iff.2 ⟨(congrArg Prod.fst (hport.trans p2)).trans hb, hl⟩
    rw [hnow, hport] at h
    exact h
  intro o ho
  rw [k1, y1, f1] at ho
  obtain ⟨h1, h2⟩ := hforced (linkedAt_mono hlink (by omega)) o ho
  refine ⟨by rw [← p1]; exact h1, ?_⟩
  by_contra hlt
  refine h2 (List.mem_filter.2 ⟨h1, decide_eq_true ?_⟩)
  show o.2.2 + v.egrCoal o.1 ≤ a - 1
  rw [p5]
  omega

end Sys2Proof.Machine
end

section
/-! The delivery deadline (R30, R83). -/

namespace Sys2Proof.Machine

/-- The registers of a late delivery: the ledger's, CUR_EVENT, and the sources they raise. -/
def lately (off : Nat) : Bool := off == 0x10008 || pages [0xB1, 0xE0] off

theorem lately_src (off : Nat) (h : off / 0x1000 = 0xB1) : lately off = true := by
  rw [lately, pages_src (by decide) off h, Bool.or_true]

theorem State.lgrPush_keeps (s : State) (d rec : Nat) : RegsBut lately s (s.lgrPush d rec) ∧ (s.lgrPush d rec).deliveries = s.deliveries := by
  unfold State.lgrPush
  split
  · extract_lets n phase free t
    have h : RegsBut lately s t ∧ t.deliveries = s.deliveries := ⟨RegsBut.of_regs lately rfl, rfl⟩
    clear_value t
    split
    · exact ⟨h.1.trans (t.event_but lately d LGR_EVENT_LOW (by decide) (by decide) lately_src), (t.event_host d LGR_EVENT_LOW).2.2.2.2.trans h.2⟩
    · exact h
  · exact ⟨RegsBut.refl lately s, rfl⟩

theorem State.lgrLate_keeps (s : State) (reh host : Bool) (ctx stream act cls frame : Nat) :
    RegsBut lately s (s.lgrLate reh host ctx stream act cls frame) ∧
      (s.lgrLate reh host ctx stream act cls frame).deliveries = s.deliveries := by
  have hcount (u : State) : RegsBut lately u (u.count 6 0 15 32 1) ∧ (u.count 6 0 15 32 1).deliveries = u.deliveries :=
    ⟨RegsBut.of_regs lately (State.count_regs u 6 0 15 32 1), u.count_deliveries 6 0 15 32 1⟩
  unfold State.lgrLate
  extract_lets t
  obtain ⟨h1, h2⟩ := s.lgrPush_keeps (streamDie stream) (lgrRec 7 reh host ctx stream 0x20 act cls frame)
  obtain ⟨h3, h4⟩ := hcount (t.event 0 CUR_EVENT_LATE)
  exact ⟨(h1.trans (t.event_but lately 0 CUR_EVENT_LATE (by decide) (by decide) lately_src)).trans h3,
    h4.trans ((t.event_host 0 CUR_EVENT_LATE).2.2.2.2.trans h2)⟩

/-- Late records, one after the other. -/
theorem State.lates_keep {α : Type} (f : State → α → State) (hf : ∀ u a, ∃ reh host ctx stream act cls frame,
    f u a = u.lgrLate reh host ctx stream act cls frame) (l : List α) (s : State) :
    RegsBut lately s (l.foldl f s) ∧ (l.foldl f s).deliveries = s.deliveries ∧ (l.foldl f s).dial = s.dial := by
  refine ⟨RegsBut.foldl f l (fun u a _ => ?_) s, State.foldl_same f State.deliveries (fun u a => ?_) l s,
    State.dial_foldl f (fun u a => ?_) l s⟩ <;> obtain ⟨b, c, d, e, g, h, i, he⟩ := hf u a <;> rw [he]
  · exact (u.lgrLate_keeps _ _ _ _ _ _ _).1
  · exact (u.lgrLate_keeps _ _ _ _ _ _ _).2
  · exact u.lgrLate_dial _ _ _ _ _ _ _

theorem State.pastDue_of_dial {s t : State} (h : t.dial = s.dial) (f : Nat) (held : Bool) : t.pastDue f held = s.pastDue f held := by
  have h1 : t.frame = s.frame := congrArg Dial.frame h
  have h2 : t.curtainAt = s.curtainAt := congrArg Dial.curtainAt h
  have h3 : t.now = s.now := congrArg Dial.now h
  rw [State.pastDue, State.pastDue, h1, h2, h3]

theorem wrap_lt (x : Int) : wrap 32 x < 2 ^ 32 := by
  rw [wrap]
  omega

theorem State.lastDelivery_lt (s : State) : s.lastDelivery < 2 ^ 32 := by
  unfold State.lastDelivery
  extract_lets ts
  clear_value ts
  split
  · decide
  · extract_lets t
    split
    · exact (Nat.min_le_left _ _).trans_lt (by decide)
    · exact wrap_lt _

theorem State.judged_keeps (s : State) : let t : State := { s with
      deliveries := s.deliveries.filter (fun v => !s.pastDue v.frame v.held)
      deadlineFor := s.frame }
    t.regs = s.regs ∧ t.deliveries = s.deliveries.filter (fun v => !s.pastDue v.frame v.held) ∧ t.deadlineFor = s.frame :=
  ⟨rfl, rfl, rfl⟩

theorem State.steps_keeps (s : State) (l : List Step) : ({ s with steps := l } : State).regs = s.regs ∧
    ({ s with steps := l } : State).deliveries = s.deliveries ∧ ({ s with steps := l } : State).deadlineFor = s.deadlineFor := ⟨rfl, rfl, rfl⟩

/-- What the judgement of the deadlines shows, drops and marks as done. -/
theorem State.deadlines_judge (s : State) : s.deadlines.fld 0 CUR_DELIV_LAST = s.lastDelivery ∧
    s.deadlines.deliveries = s.deliveries.filter (fun v => !s.pastDue v.frame v.held) ∧ s.deadlines.deadlineFor = s.frame := by
  unfold State.deadlines
  extract_lets s1 due s2 s3 waits s4
  have hshown : s1.fld 0 CUR_DELIV_LAST = s.lastDelivery :=
    (s.fld_setFld 0 CUR_DELIV_LAST s.lastDelivery ⟨by decide, by decide⟩).trans (Nat.mod_eq_of_lt s.lastDelivery_lt)
  have h1 : s1.deliveries = s.deliveries := s.setFld_deliveries 0 CUR_DELIV_LAST s.lastDelivery
  have hd1 : s1.dial = s.dial := s.setFld_dial 0 CUR_DELIV_LAST s.lastDelivery
  clear_value s1
  obtain ⟨hr2, h2, hd2⟩ : RegsBut lately s1 s2 ∧ s2.deliveries = s1.deliveries ∧ s2.dial = s1.dial :=
    State.lates_keep _ (fun _ _ => ⟨_, _, _, _, _, _, _, rfl⟩) _ s1
  clear_value s2
  obtain ⟨hr3, h3, hf3⟩ : s3.regs = s2.regs ∧ s3.deliveries = s2.deliveries.filter (fun v => !s2.pastDue v.frame v.held) ∧
    s3.deadlineFor = s2.frame := s2.judged_keeps
  clear_value s3
  obtain ⟨hr4, h4, hd4⟩ : RegsBut lately s3 s4 ∧ s4.deliveries = s3.deliveries ∧ s4.dial = s3.dial :=
    State.lates_keep _ (fun _ _ => ⟨_, _, _, _, _, _, _, rfl⟩) _ s3
  clear_value s4 waits
  obtain ⟨hr5, h5, hf5⟩ := s4.steps_keeps (s4.steps.map (fun st => if waits st then { st with late := true } else st))
  have hd : s2.dial = s.dial := hd2.trans hd1
  have hregs : RegsBut lately s1 s4 := (hr2.trans (RegsBut.of_regs lately hr3)).trans hr4
  refine ⟨?_, ?_, ?_⟩
  · rw [State.fld_of_regs hr5, hregs.fld 0 (by decide) (by decide), hshown]
  · rw [h5, h4, h3, h2, h1]
    exact congrArg (s.deliveries.filter ·) (funext fun v => by rw [State.pastDue_of_dial hd])
  · have hf4 : s4.deadlineFor = s3.deadlineFor := congrArg Dial.deadlineFor hd4
    exact (hf5.trans hf4).trans (hf3.trans (congrArg Dial.frame hd))

/-- DELIVERY_DEADLINE once a frame (R30, R83). -/
theorem deliveryDeadline_judges (s : State) (a : Nat) (hrun : s.flag 0 CUR_STATUS_RUN = true) (hfor : s.deadlineFor < s.frame)
    (hdue : s.curtainAt + 25000 ≤ max s.now a) :
    let u := s.tick a
    let f := u.egrForce (max s.now a)
    Yields (exec (.deliveryDeadline a) s) (fun t => t.deadlineFor = s.frame ∧ t.fld 0 CUR_DELIV_LAST = f.lastDelivery ∧
      ∀ y : Delivery, y ∈ t.deliveries ↔ y ∈ f.deliveries ∧ u.pastDue y.frame y.held = false) := by
  intro u f
  have hd : f.dial = u.dial := u.egrForce_dial _
  have hf : f.dial = s.dial.at (max s.now a) := hd.trans (s.tick_dial a)
  have hr : RegsBut timely s f := (s.tick_but a).trans (u.egrForce_but _)
  have h1 : f.flag 0 CUR_STATUS_RUN = true := (hr.flag 0 (by decide) (by decide)).trans hrun
  have h2 : f.frame = s.frame := congrArg Dial.frame hf
  have h3 : f.deadlineFor = s.deadlineFor := congrArg Dial.deadlineFor hf
  have h4 : f.curtainAt = s.curtainAt := congrArg Dial.curtainAt hf
  have h5 : f.now = max s.now a := congrArg Dial.now hf
  have he : exec (.deliveryDeadline a) s = done f.deadlines := by
    show execDeliveryDeadline a s = _
    unfold execDeliveryDeadline
    extract_lets x
    have hx : x = f := rfl
    rw [hx, if_pos (by rw [h1, h2, h3, h4, h5]; simp [hfor, hdue])]
  have hpast (y : Delivery) : f.pastDue y.frame y.held = u.pastDue y.frame y.held := State.pastDue_of_dial hd _ _
  clear_value f u
  obtain ⟨j1, j2, j3⟩ := f.deadlines_judge
  rw [he]
  refine yields_done ⟨?_, ?_, fun y => ?_⟩
  · exact j3.trans h2
  · rw [State.settle_fld]
    exact j1
  · rw [State.settle_deliveries, j2, List.mem_filter, hpast, Bool.not_eq_true']

end Sys2Proof.Machine
end

section
/-! EGRESS_RECORD and EGRESS_COMPLETION of a ring (R27, R68, R83 to R87, R253, R254, R395). -/

namespace Sys2Proof.Machine

/-- Where a ring stands after m slots and j entries more (R83, R85). -/
def EgrMoved (d k j m : Nat) (rest : List (Nat × EgrRec)) (u t : State) : Prop :=
  t.backlog = rest ∧ t.fld d (EGR_RING_TAIL_TAIL k) = (u.fld d (EGR_RING_TAIL_TAIL k) + m) % 2 ^ 32 ∧
  get 0 t.egrSeq (egrKey d k) = (get 0 u.egrSeq (egrKey d k) + j) % 2 ^ 32 ∧
  get 0 t.egrCount (egrKey d k) = (get 0 u.egrCount (egrKey d k) + m) % 2 ^ 64 ∧ t.egrOwes d k = true ∧ MemSame u t

/-- The header of a record where a number of entries stand before it. -/
theorem State.egrHeader_at {u t : State} (d : Nat) (r : EgrRec) {n : Nat} (h : get 0 t.egrSeq (egrKey d r.ring) = n) :
    ({ u with egrSeq := put 0 u.egrSeq (egrKey d r.ring) n } : State).egrHeader d r = t.egrHeader d r := by
  refine State.egrHeader_of_seq d r ?_
  rw [h]
  exact get_put_same 0 u.egrSeq _ n

section
variable {u : State} {d : Nat} {r : EgrRec} {rest : List (Nat × EgrRec)} {w : Arrival}

theorem Written.moved {t : State} (h : Written d r rest u t) : EgrMoved d r.ring 1 (1 + r.len) rest u t :=
  ⟨h.backlog, h.tail, h.seq, h.count, h.owes, memSame_of_mem h.mem⟩

theorem EgrPut.moved {k : Nat} {l : List Byte} {m : Nat} {p t : State} (h : EgrPut d r.ring l m u p) (hw : Written d r rest p t)
    (hk : k = 2) : EgrMoved d r.ring k (m + (1 + r.len)) rest u t := by
  subst hk
  refine ⟨hw.backlog, ?_, ?_, ?_, hw.owes, memSame_of_mem (hw.mem.trans h.mem)⟩
  · rw [hw.tail, h.tail, Nat.mod_add_mod, Nat.add_assoc]
  · rw [hw.seq, h.seq, get_put_same, Nat.mod_add_mod]
  · rw [hw.count, h.count, get_put_same, Nat.mod_add_mod, Nat.add_assoc]

/-- Nothing more is written of a record that only waits. -/
theorem State.egrTurn_waits (h : u.egrOn d r.ring = false ∨ (get 0 u.egrDropped (egrKey d r.ring) ≠ 0 ∧ u.egrFree d r.ring = 0) ∨
      (get 0 u.egrDropped (egrKey d r.ring) = 0 ∧ u.egrShort d r.ring (1 + r.len) = true ∧ u.egrFree d r.ring < u.egrToEnd d r.ring) ∨
      (get 0 u.egrDropped (egrKey d r.ring) = 0 ∧ 1 + r.len ≤ u.egrToEnd d r.ring ∧ u.egrFree d r.ring < 1 + r.len)) :
    u.egrTurn d r rest w = u.egrWait d r rest ∧ (u.egrOn d r.ring = true → u.egrFree d r.ring < 1 + r.len) := by
  have hshort := u.egrShort_iff d r.ring (1 + r.len)
  have hprep : u.egrPrep d r w = u := by
    refine u.egrPrep_none d r w ?_
    obtain h | ⟨h1, h2⟩ | ⟨h1, -, h3⟩ | ⟨h1, h2, -⟩ := h
    · exact .inl h
    · exact .inr ⟨.inr h2, .inl (by rw [Bool.eq_false_iff, ne_eq, hshort]; exact fun hs => h1 hs.1)⟩
    · exact .inr ⟨.inl h1, .inr h3⟩
    · refine .inr ⟨.inl h1, .inl ?_⟩
      rw [Bool.eq_false_iff, ne_eq, hshort]
      omega
  have hready : ¬ u.egrReady d r = true := by
    rw [State.egrReady_iff, State.egrRoomy_iff]
    rintro ⟨hon, h1, h2, h3⟩
    obtain h | ⟨h4, -⟩ | ⟨-, h5, -⟩ | ⟨-, -, h6⟩ := h
    · rw [h] at hon; exact Bool.noConfusion hon
    · exact h4 h1
    · have := (hshort.1 h5).2.1; omega
    · omega
  refine ⟨by rw [State.egrTurn, hprep, if_neg hready], fun hon => ?_⟩
  obtain h | ⟨-, h4⟩ | ⟨-, h5, h6⟩ | ⟨-, -, h7⟩ := h
  · rw [h] at hon; exact Bool.noConfusion hon
  · omega
  · have := (hshort.1 h5).2.1; omega
  · exact h7

/-- A settled state reads as the state, of what the egress leaves. -/
theorem EgrMoved.settle {k j m : Nat} {t : State} (h : EgrMoved d k j m rest u t) : EgrMoved d k j m rest u t.settle := h

end

/-- A record written at once, and refused (R83, R395). -/
theorem egressRecord_ready {u : State} {d : Nat} {r : EgrRec} {rest : List (Nat × EgrRec)} {w : Arrival} (h : u.egrReady d r = true)
    (hc : CalmAt d w) :
    Yields (done (u.egrTurn d r rest w)) (fun t => EgrMoved d r.ring 1 (1 + r.len) rest u t ∧
      t.hostBytes (u.egrAt d r.ring) (u.egrHeader d r ++ r.payload).length = u.egrHeader d r ++ r.payload) ∧
    Yields (done ((u.egrTurn d r rest w).hostRefuses u d)) (fun t => t.host = u.host ∧ t.flag d EGR_EVENT_PCIE_ERR = true ∧
      t.fld d (EGR_RING_TAIL_TAIL r.ring) = (u.fld d (EGR_RING_TAIL_TAIL r.ring) + (1 + r.len)) % 2 ^ 32 ∧ MemSame u t) := by
  have hw := State.egrTurn_written (rest := rest) h hc
  generalize u.egrTurn d r rest w = t at hw
  obtain ⟨f1, -, f3, f4, f5⟩ := t.hostRefuses_leaves u d (fun e => hw.seq_ne e.1)
  generalize t.hostRefuses u d = x at *
  refine ⟨yields_done ⟨hw.moved.settle, hw.stands⟩, yields_done ⟨f1, ?_, ?_, memSame_of_mem (f5.trans hw.mem)⟩⟩
  · rw [State.settle_flag]
    exact f3
  · rw [State.settle_fld, f4, hw.tail]

/-- The pad that stands before a record that would pass the ring's end (R83). -/
theorem egressRecord_padded {u : State} {d : Nat} {r : EgrRec} {rest : List (Nat × EgrRec)} {w : Arrival} (hon : u.egrOn d r.ring = true)
    (hc : CalmAt d w) (hs : u.egrShort d r.ring (1 + r.len) = true) (hroom : u.egrToEnd d r.ring + (1 + r.len) ≤ u.egrFree d r.ring)
    (hp : r.payload.length ≤ 64 * r.len) {b : List Byte}
    (hb : b = ({ u with egrSeq := put 0 u.egrSeq (egrKey d r.ring) ((get 0 u.egrSeq (egrKey d r.ring) + 1) % 2 ^ 32) } : State).egrHeader d r ++
      r.payload) :
    Yields (done (u.egrTurn d r rest w)) (fun t => EgrMoved d r.ring 2 (u.egrToEnd d r.ring + (1 + r.len)) rest u t ∧
      t.hostBytes (u.rg64 (dkey d (EGR_RING_BASE_LO_ADDR r.ring).off)) b.length = b ∧ t.hostBytes (u.egrAt d r.ring + 3) 1 = [0xFF]) := by
  obtain ⟨l, p, hl, hput, hw, hadv, hat, he, hf⟩ := State.egrTurn_padded (rest := rest) hon hc hs hroom
  have hpos : 0 < u.egrToEnd d r.ring := Nat.sub_pos_of_lt (Nat.mod_lt _ (u.egrSize d r.ring).1)
  generalize u.egrTurn d r rest w = t at hw
  have hseq : get 0 p.egrSeq (egrKey d r.ring) = (get 0 u.egrSeq (egrKey d r.ring) + 1) % 2 ^ 32 := by rw [hput.seq, get_put_same]
  rw [State.egrHeader_at d r hseq] at hb
  refine yields_done ⟨(hput.moved hw rfl).settle, ?_, ?_⟩
  · rw [hb, ← hat]
    exact hw.stands
  · have hbyte : get 0 t.host (u.egrAt d r.ring + 3) = 0xFF := by
      rw [hw.slot_stands hadv hpos he hf hp (by omega : 3 < 64), hput.slot_byte (by rw [hl.length]; omega), hl.status]
      rfl
    exact congrArg (fun x => [x]) hbyte

/-- The notice that stands before what follows a discard (R86). -/
theorem egressRecord_noticed {u : State} {d : Nat} {r : EgrRec} {rest : List (Nat × EgrRec)} {w : Arrival} (hon : u.egrOn d r.ring = true)
    (hc : CalmAt d w) (hlost : get 0 u.egrDropped (egrKey d r.ring) ≠ 0) (hfree : u.egrFree d r.ring ≠ 0)
    (hwait : u.waitingBytes d + r.size ≤ 0x100000) (hp : r.payload.length ≤ 64 * r.len) :
    Yields (done (u.egrTurn d r rest w)) (fun t => get 0 t.egrDropped (egrKey d r.ring) = 0 ∧ t.hostBytes (u.egrAt d r.ring + 3) 1 = [0xFE] ∧
      t.hostBytes (u.egrAt d r.ring + 0x2C) 4 = leBytes 4 (get 0 u.egrDropped (egrKey d r.ring))) := by
  obtain ⟨l, hl, hdrop, hslot⟩ := State.egrTurn_noticed (rest := rest) hon hc hlost hfree hwait hp
  generalize u.egrTurn d r rest w = t at hdrop hslot
  refine yields_done ⟨hdrop, ?_, ?_⟩
  · have hbyte : get 0 t.host (u.egrAt d r.ring + 3) = 0xFE := by
      rw [hslot 3 (by omega), hl.status]
      rfl
    exact congrArg (fun x => [x]) hbyte
  · refine (State.hostBytes_eq t.settle (u.egrAt d r.ring + 0x2C) (leBytes 4 (get 0 u.egrDropped (egrKey d r.ring))) fun i hi => ?_)
    rw [leBytes_length] at hi
    have := hslot (0x2C + i) (by omega)
    rw [hl.dropped i hi, ← Nat.add_assoc] at this
    exact this

/-- A record waits where its ring has no room for it (R86). -/
theorem egressRecord_waits {u : State} {d : Nat} {r : EgrRec} {rest : List (Nat × EgrRec)} {w : Arrival}
    (h : u.egrOn d r.ring = false ∨ (get 0 u.egrDropped (egrKey d r.ring) ≠ 0 ∧ u.egrFree d r.ring = 0) ∨
      (get 0 u.egrDropped (egrKey d r.ring) = 0 ∧ u.egrShort d r.ring (1 + r.len) = true ∧ u.egrFree d r.ring < u.egrToEnd d r.ring) ∨
      (get 0 u.egrDropped (egrKey d r.ring) = 0 ∧ 1 + r.len ≤ u.egrToEnd d r.ring ∧ u.egrFree d r.ring < 1 + r.len))
    (hmem : (d, r) ∈ u.backlog) (hwait : u.waitingBytes d + r.size ≤ 0x100000) (ref : Bool) :
    Yields (done (if ref then (u.egrTurn d r rest w).hostRefuses u d else u.egrTurn d r rest w)) (fun t =>
      t.host = u.host ∧ t.backlog.length = u.backlog.length ∧ (d, { r with fresh := false }) ∈ t.backlog ∧
      t.fld d (EGR_RING_TAIL_TAIL r.ring) = u.fld d (EGR_RING_TAIL_TAIL r.ring) ∧
      (u.egrOn d r.ring = true → t.flag d EGR_EVENT_FULL = true)) := by
  obtain ⟨he, hfull⟩ := State.egrTurn_waits (rest := rest) (w := w) h
  obtain ⟨w1, w2, w3, w4, w5, -, w7⟩ := u.egrWait_waits (d := d) (r := r) (rest := rest) hwait
  rw [he]
  generalize u.egrWait d r rest = t at *
  rw [t.hostRefuses_none u d ⟨w4, w5⟩, ite_self]
  refine yields_done ⟨w1, ?_, ?_, ?_, fun hon => ?_⟩
  · exact (congrArg List.length w2).trans (tried_length _)
  · have hm := mem_tried hmem
    rw [← w2] at hm
    exact hm
  · rw [State.settle_fld, w3]
  · rw [State.settle_flag]
    exact w7 hon (hfull hon)

/-- A completion as EGRESS_COMPLETION writes it, and as the root complex refuses it (R27, R85, R395). -/
theorem egressCompletion_written {u : State} {d k : Nat} {w : Arrival} (hb : u.pcie.bme = true) (hl : u.linkUp = true) (hc : CalmAt d w)
    (ho : u.egrOwes d k = true) :
    Yields (done (u.egrCompletion d k w)) (fun t =>
      t.hostBytes (u.rg64 (dkey d (EGR_RING_CPL_LO_ADDR k).off)) 16 = u.cplBytes d k ∧ t.egrOwes d k = false ∧
      (∀ y ∈ t.deliveries, y.die = d → y.ring = k → y.written = true → y.visible ≠ none) ∧
      (u.flag d (EGR_RING_CTL_MSI_EN k) = false → t.out = u.out) ∧
      (u.flag d (EGR_RING_CTL_MSI_EN k) = true → u.msixOpen (u.fld d (EGR_RING_CTL_MSIX k)) = true →
        (get 0 u.pcie.msixTab (u.fld d (EGR_RING_CTL_MSIX k))).toNat % 2 ^ 64 ≠ 0 →
        t.out = u.out ++ [.msix (u.fld d (EGR_RING_CTL_MSIX k))])) ∧
    Yields (done ((u.egrCompletion d k w).hostRefuses u d)) (fun t =>
      t.host = u.host ∧ t.deliveries = u.deliveries ∧ t.flag d EGR_EVENT_PCIE_ERR = true) := by
  obtain ⟨c1, c2, c3, c4, c5⟩ := u.egrComplete_writes d k ho hb hl _ rfl
  rw [u.egrCompletion_calm d k hc]
  generalize u.egrComplete d k false = t at *
  have hne : ¬ (t.egrSeq = u.egrSeq ∧ t.egrOwed = u.egrOwed) := fun e => owed_changes ho c2 e.2
  obtain ⟨f1, f2, f3, -, -⟩ := t.hostRefuses_leaves u d hne
  generalize t.hostRefuses u d = x at *
  refine ⟨yields_done ⟨c1, ?_, fun y hy => completed_visible (by rw [← c3]; exact hy), c4, c5⟩, yields_done ⟨f1, f2, ?_⟩⟩
  · have h := owes_filter d k u.egrOwed
    rw [← c2] at h
    exact h
  · rw [State.settle_flag]
    exact f3

end Sys2Proof.Machine
end

section
/-! O37: the egress of a die delivers. -/

namespace Sys2Proof.Machine

theorem execEgressCompletion_eq (s : State) (d k at_ : Nat) (ref : Bool) (w : Arrival) :
    exec (.egressCompletion d k at_ ⟨ref, w⟩) s =
      done (if ref then ((s.tick at_).egrCompletion d k w).hostRefuses (s.tick at_) d else (s.tick at_).egrCompletion d k w) := rfl

/-- The header of the next record of a ring is that of its sequence number. -/
theorem State.egrHeader_next (u : State) (d : Nat) (r : EgrRec) (h : get 0 u.egrSeq (egrKey d r.ring) < 2 ^ 32) :
    ({ u with egrSeq := put 0 u.egrSeq (egrKey d r.ring) ((get 0 u.egrSeq (egrKey d r.ring) + 0) % 2 ^ 32) } : State).egrHeader d r =
      u.egrHeader d r :=
  State.egrHeader_at d r (Nat.mod_eq_of_lt h).symm

/-- Settles O37: a record written, padded, noticed or waiting, completions, HEAD, MSI-X and the deadline, each by its own lemma. -/
theorem egressDelivers : Obligations.EgressDelivers := by
  unfold Obligations.EgressDelivers
  intro s q d k at_ v z w u f calm
  refine ⟨s.tick_owed at_, fun r rest h1 h2 => ?_, fun ho => ?_, fun hb hl => ⟨fun hc ho => ?_, fun hc ho => ?_⟩,
    egressHead_returns s q d k z, msixUnmask_unmasks s v, deliveryDeadline_judges s at_⟩
  · have hexec (ref : Bool) (x : Arrival) : exec (.egressRecord d at_ ⟨ref, x⟩) s =
        done (if ref then (u.egrTurn d r rest x).hostRefuses u d else u.egrTurn d r rest x) := execEgressRecord_eq s d at_ ref x h1 h2
    have hmem : (d, r) ∈ u.backlog := takeRec_some h2
    clear f
    clear_value u
    intro tail size base a key seq lost n gap b put_
    simp only [hexec, Bool.false_eq_true, if_false, if_true]
    refine ⟨fun hr hd => ⟨?_, ?_⟩, fun hr hc hseq => ?_, fun hon hc hs hroom hseq hp => ?_, fun hon hc => ?_, fun h hwait ref => ?_⟩
    · obtain ⟨p1, p2, p3⟩ := State.egrTurn_parity (rest := rest) hr hd
      have hlen : (b 0).length = (u.egrHeader d r ++ r.payload).length := by
        rw [List.length_append, List.length_append, State.egrHeader_length, State.egrHeader_length]
      rw [← hlen] at p3
      exact yields_done ⟨(State.settle_flag ..).trans p1, p2, p3⟩
    · obtain ⟨p1, p2, p3⟩ := State.egrTurn_lost (rest := rest) hr hd
      exact yields_done ⟨(State.settle_flag ..).trans p1, p2, (State.settle_fld ..).trans p3⟩
    · have hb : b 0 = u.egrHeader d r ++ r.payload := congrArg (· ++ r.payload) (u.egrHeader_next d r hseq)
      rw [hb]
      exact egressRecord_ready hr hc
    · exact egressRecord_padded hon hc hs hroom hp rfl
    · exact egressRecord_noticed hon hc
    · exact egressRecord_waits h hmem hwait ref
  · rw [execEgressCompletion_eq, State.egrCompletion_none _ d k w ho]
    rfl
  · rw [execEgressCompletion_eq]
    exact (egressCompletion_written hb hl hc ho).1
  · rw [execEgressCompletion_eq]
    exact (egressCompletion_written hb hl hc ho).2

end Sys2Proof.Machine
end

section
/-! What a curtain sets (R32 to R36, R42, R43, R59). -/

namespace Sys2Proof.Machine

/-- The curtain unit's state once a curtain is raised: a new frame of a length from the site's clock. -/
def Dial.raised (x : Dial) (n : Nat) : Dial :=
  { x with frame := x.frame + 1, curtainAt := x.now, nominal := n, guardOn := false, refreshOn := false, edgeAt := none, clockFixed := false }

theorem State.dial_frame (s : State) (f c : Nat) (a b d) (g r : Bool) (e : Option Nat) (k : Bool) :
    ({ s with frame := f, curtainAt := c, numTot := a, used := b, rplUsed := d, guardOn := g, refreshOn := r, edgeAt := e, clockFixed := k } :
      State).dial = { s.dial with frame := f, curtainAt := c, guardOn := g, refreshOn := r, edgeAt := e, clockFixed := k } := rfl
theorem State.dial_nominal (s : State) (n : Nat) : ({ s with nominal := n } : State).dial = { s.dial with nominal := n } := rfl
theorem State.dial_admitted (s : State) (a) : ({ s with admitted := a } : State).dial = s.dial := rfl

theorem State.raiseCurtain_dial (s : State) : ∃ n, s.raiseCurtain.dial = s.dial.raised n := by
  unfold State.raiseCurtain
  extract_lets len a b c e f g h i j k l m o p q
  have hg : g.dial = s.dial := by simp [g, f, e, c, b, a]
  clear_value g
  have hh : h.dial = { s.dial with frame := s.frame + 1, curtainAt := s.now, guardOn := false, refreshOn := false, edgeAt := none, clockFixed := false } := by
    have h1 : g.frame = s.frame := congrArg Dial.frame hg
    have h2 : g.now = s.now := congrArg Dial.now hg
    rw [← h1, ← h2, ← hg]
    exact g.dial_frame ..
  clear_value h
  have hi : i.dial = h.dial := by simp [i]
  clear_value i
  have hj : j.dial = { i.dial with nominal := i.nominalLen } := i.dial_nominal i.nominalLen
  clear_value j
  have hk : k.dial = j.dial := by simp [k]
  clear_value k
  -- l stays a let: its admitted field computes, and abstracting it makes the elaborator run it
  have hl : l.dial = k.dial := by
    dsimp only [l]
    exact k.dial_admitted _
  have hq : q.dial = l.dial := by simp [q, p, o, m]
  clear_value q
  refine ⟨i.nominalLen, ?_⟩
  have hx : q.dial = s.dial.raised i.nominalLen := by
    rw [hq, hl, hk, hj, hi, hh]
    rfl
  split
  · exact (q.emit_dial _).trans hx
  · exact hx

theorem State.dial_mode (s : State) (m : CurMode) : ({ s with curMode := m } : State).dial = { s.dial with curMode := m } := rfl

theorem State.curtainFalls_dial (s : State) (c src : Nat) : ∃ n, (s.curtainFalls c src).dial = (s.dial.at (max s.now c)).raised n := by
  obtain ⟨n, hn⟩ := ((s.tick c).setFld 0 CUR_STATUS_ACT_SRC src).raiseCurtain_dial
  rw [State.setFld_dial, State.tick_dial] at hn
  exact ⟨n, hn⟩

theorem State.lockedCurtain_dial (s : State) (c src : Nat) :
    ∃ n, (s.lockedCurtain c src).dial = ({ s.dial with curMode := .locked }.at (max s.now c)).raised n := by
  have ht := (s.dial_mode .locked)
  have hl : s.lockedCurtain c src = (({ s with curMode := .locked } : State).setFld 0 CUR_STATUS_MISS_CNT 0).curtainFalls c src := rfl
  generalize ({ s with curMode := .locked } : State) = t at ht hl
  obtain ⟨n, hn⟩ := (t.setFld 0 CUR_STATUS_MISS_CNT 0).curtainFalls_dial c src
  have hnow : (t.setFld 0 CUR_STATUS_MISS_CNT 0).now = s.now := (State.setFld_now ..).trans (congrArg Dial.now ht)
  rw [← hl, hnow, State.setFld_dial, ht] at hn
  exact ⟨n, hn⟩

theorem State.fallBack_dial (s : State) : s.fallBack.dial = { s.dial with curMode := .fallback } := by
  have ht := (s.dial_mode .fallback)
  unfold State.fallBack
  generalize ({ s with curMode := .fallback } : State) = t at ht
  simp only [State.event_dial, State.setFld_dial, ht]

/-- The curtain of a frame fell at a time (R32). -/
def Fell (s : State) (c : Nat) (t : State) : Prop :=
  t.frame = s.frame + 1 ∧ t.curtainAt = max s.now c ∧ t.guardOn = false ∧ t.clockFixed = false

theorem fell_of_dial {s t : State} {c n a : Nat} {m : CurMode}
    (h : t.dial = (({ s.dial with curMode := m }.at (max s.now c)).raised n).at a) : Fell s c t :=
  ⟨congrArg Dial.frame h, congrArg Dial.curtainAt h, congrArg Dial.guardOn h, congrArg Dial.clockFixed h⟩

/-- A curtain that falls by a time, and the time that passes until then (R32). -/
theorem State.curtainFalls_fell (s : State) (c src : Nat) {a : Nat} (h : c ≤ a) : let t := (s.curtainFalls c src).tick a
    Fell s c t ∧ t.now = max s.now a := by
  intro t
  obtain ⟨n, hn⟩ := s.curtainFalls_dial c src
  have ht := (s.curtainFalls c src).tick_dial a
  have hnow : (s.curtainFalls c src).now = max s.now c := congrArg Dial.now hn
  rw [hn, hnow] at ht
  exact ⟨fell_of_dial ht, (congrArg Dial.now ht).trans (by show max (max s.now c) a = max s.now a; omega)⟩

end Sys2Proof.Machine
end

section
/-! The commands of the curtain unit (R32 to R36, R42, R43, R445, R447). -/

namespace Sys2Proof.Machine

/-- The time passed leaves the curtain unit's registers. -/
theorem State.tick_cur (s : State) (a : Nat) {f : RF} (hf : f.off < 0x4000000) (hp : timely f.off = false) :
    (s.tick a).fld 0 f = s.fld 0 f ∧ (s.tick a).flag 0 f = s.flag 0 f := ⟨(s.tick_but a).fld 0 hf hp, (s.tick_but a).flag 0 hf hp⟩

section Internal
variable {s : State} {a : Nat}

theorem curtain_falls (hrun : s.flag 0 CUR_STATUS_RUN = true) (he : s.edgeAt = none) (hm : s.curMode = .internal ∨ s.curMode = .fallback)
    (ha : s.curtainAt + s.fld 0 CUR_PERIOD_PERIOD ≤ a) :
    Yields (exec (.curtain a) s) (fun t => Fell s (s.curtainAt + s.fld 0 CUR_PERIOD_PERIOD) t ∧ t.now = max s.now a) := by
  have hmode : (s.curMode == .internal || s.curMode == .fallback) = true := by
    rcases hm with h | h <;> rw [h] <;> rfl
  have hexec : exec (.curtain a) s = done ((s.curtainFalls (s.curtainAt + s.fld 0 CUR_PERIOD_PERIOD) 0).tick a) := by
    rw [exec_curtain, execCurtain, he]
    simp only [hrun, hmode, ha, decide_true, Bool.and_true, if_true]
  have h := s.curtainFalls_fell (s.curtainAt + s.fld 0 CUR_PERIOD_PERIOD) 0 ha
  rw [hexec]
  generalize (s.curtainFalls _ 0).tick a = t at h
  exact yields_done h

theorem curtain_early (he : s.edgeAt = none) (ha : a < s.curtainAt + s.fld 0 CUR_PERIOD_PERIOD) :
    exec (.curtain a) s = .next (s.tick a).settle := by
  rw [exec_curtain, execCurtain, he]
  simp only [Nat.not_le.2 ha, decide_false, Bool.and_false, Bool.false_eq_true, if_false]
  rfl

theorem curtain_edge {e : Nat} (hrun : s.flag 0 CUR_STATUS_RUN = true) (he : s.edgeAt = some e) (ha : e ≤ a) :
    Yields (exec (.curtain a) s) (fun t => Fell s e t ∧ t.curMode = .locked) := by
  have hexec : exec (.curtain a) s = done ((s.lockedCurtain e 2).tick a) := by
    rw [exec_curtain, execCurtain, he]
    simp only [hrun, ha, decide_true, Bool.and_true, if_true]
  obtain ⟨n, hn⟩ := s.lockedCurtain_dial e 2
  have ht := (s.lockedCurtain e 2).tick_dial a
  rw [hn] at ht
  rw [hexec]
  generalize (s.lockedCurtain e 2).tick a = t at ht
  exact yields_done ⟨fell_of_dial ht, congrArg Dial.curMode ht⟩

end Internal

/-- The registers that an event of the curtain unit reaches. -/
def eventCur (off : Nat) : Bool := off == 0x10008 || off / 0x1000 == 0xB1

/-- A fallback shows in CUR_STATUS and CUR_EVENT (R36). -/
theorem State.fallBack_shows (s : State) : s.fallBack.flag 0 CUR_STATUS_FALLBACK = true ∧ s.fallBack.fld 0 CUR_STATUS_ACT_SRC = 0 ∧
    s.fallBack.flag 0 CUR_EVENT_FALLBACK = true ∧ (s.flag 0 CUR_EVENT_MISS = true → s.fallBack.flag 0 CUR_EVENT_MISS = true) := by
  have ht : ({ s with curMode := .fallback } : State).regs = s.regs := rfl
  have he : s.fallBack = ((({ s with curMode := .fallback } : State).setFld 0 CUR_STATUS_FALLBACK 1).setFld 0 CUR_STATUS_ACT_SRC 0).event 0
    CUR_EVENT_FALLBACK := rfl
  rw [he]
  generalize ({ s with curMode := .fallback } : State) = t at ht
  have h1 : (t.setFld 0 CUR_STATUS_FALLBACK 1).fld 0 CUR_STATUS_FALLBACK = 1 := t.fld_setFld 0 CUR_STATUS_FALLBACK 1 ⟨by decide, by decide⟩
  have h2 : ((t.setFld 0 CUR_STATUS_FALLBACK 1).setFld 0 CUR_STATUS_ACT_SRC 0).fld 0 CUR_STATUS_FALLBACK = 1 :=
    (State.fld_setFld_apart _ 0 CUR_STATUS_ACT_SRC CUR_STATUS_FALLBACK 0 ⟨by decide, by decide⟩ ⟨by decide, by decide⟩ rfl
      (.inr (by decide))).trans h1
  have h3 : ((t.setFld 0 CUR_STATUS_FALLBACK 1).setFld 0 CUR_STATUS_ACT_SRC 0).fld 0 CUR_STATUS_ACT_SRC = 0 :=
    State.fld_setFld _ 0 CUR_STATUS_ACT_SRC 0 ⟨by decide, by decide⟩
  have h4 : ((t.setFld 0 CUR_STATUS_FALLBACK 1).setFld 0 CUR_STATUS_ACT_SRC 0).fld 0 CUR_EVENT_MISS = s.fld 0 CUR_EVENT_MISS := by
    rw [State.fld_setFld_ne _ 0 0 CUR_STATUS_ACT_SRC CUR_EVENT_MISS 0 (by decide),
      State.fld_setFld_ne t 0 0 CUR_STATUS_FALLBACK CUR_EVENT_MISS 1 (by decide), State.fld_of_regs ht]
  generalize (t.setFld 0 CUR_STATUS_FALLBACK 1).setFld 0 CUR_STATUS_ACT_SRC 0 = x at h2 h3 h4
  have hbut : RegsBut eventCur x (x.event 0 CUR_EVENT_FALLBACK) :=
    x.event_but eventCur 0 CUR_EVENT_FALLBACK (by decide) (by decide) fun _ h => by rw [eventCur, h]; exact Bool.or_true _
  refine ⟨?_, ?_, x.flag_event 0 _ (by decide) rfl, fun h => ?_⟩
  · exact (x.event_up 0 CUR_EVENT_FALLBACK).flag 0 rfl (by rw [State.flag, h2]; rfl)
  · rw [hbut.fld 0 (by decide) (by decide)]
    exact h3
  · exact (x.event_up 0 CUR_EVENT_FALLBACK).flag 0 rfl (by rw [State.flag, h4]; exact h)

end Sys2Proof.Machine
end

section
/-! Misses, fallbacks and edges of the curtain unit (R33 to R36, R445). -/

namespace Sys2Proof.Machine

/-- A miss counted, and at the third a fallback (R35, R36). -/
def State.missedCurtain (s : State) : State :=
  let n := s.fld 0 CUR_STATUS_MISS_CNT + 1
  let s := (s.setFld 0 CUR_STATUS_MISS_CNT n).event 0 CUR_EVENT_MISS
  if 3 ≤ n then s.fallBack else s

theorem State.missedCurtain_shows (s : State) : ∃ c, s.missedCurtain.dial = { s.dial with curMode := c } ∧ s.missedCurtain.flag 0 CUR_EVENT_MISS = true := by
  unfold State.missedCurtain
  extract_lets n v
  have hv : v.dial = s.dial := (State.event_dial ..).trans (State.setFld_dial ..)
  have hmiss : v.flag 0 CUR_EVENT_MISS = true := State.flag_event _ 0 _ (by decide) rfl
  clear_value v
  split
  · exact ⟨.fallback, by rw [State.fallBack_dial, hv], v.fallBack_shows.2.2.2 hmiss⟩
  · exact ⟨s.curMode, hv, hmiss⟩

section Miss
variable {s : State} {a : Nat}

theorem flywheelCurtain_misses (hrun : s.flag 0 CUR_STATUS_RUN = true) (he : s.edgeAt = none) (hm : s.curMode = .locked)
    (ha : s.windowEnd ≤ a) : Yields (exec (.flywheelCurtain a) s) (fun t =>
      Fell s s.windowEnd t ∧ t.flag 0 CUR_EVENT_MISS = true ∧ t.now = max s.now a) := by
  have hexec : exec (.flywheelCurtain a) s = done ((s.markMissed.curtainFalls s.windowEnd (s.fld 0 CUR_CTRL_SRC)).missedCurtain.tick a) := by
    rw [exec_flywheelCurtain, execFlywheelCurtain, if_pos]
    · rfl
    · rw [hrun, hm, he, decide_eq_true ha]
      rfl
  obtain ⟨n, hu⟩ := s.markMissed.curtainFalls_dial s.windowEnd (s.fld 0 CUR_CTRL_SRC)
  have hnow : s.markMissed.now = s.now := congrArg Dial.now s.markMissed_dial
  rw [s.markMissed_dial, hnow] at hu
  rw [hexec]
  generalize s.markMissed.curtainFalls s.windowEnd (s.fld 0 CUR_CTRL_SRC) = u at hu
  obtain ⟨c, hd, hf⟩ := u.missedCurtain_shows
  generalize u.missedCurtain = w at hd hf
  have ht := w.tick_dial a
  have hwnow : w.now = max s.now s.windowEnd := (congrArg Dial.now hd).trans (congrArg Dial.now hu)
  rw [hd, hu, hwnow, show max (max s.now s.windowEnd) a = max s.now a by omega] at ht
  have hfl : (w.tick a).flag 0 CUR_EVENT_MISS = true := (w.tick_cur a (by decide) (by decide)).2.trans hf
  generalize w.tick a = t at ht hfl
  exact yields_done ⟨⟨congrArg Dial.frame ht, congrArg Dial.curtainAt ht, congrArg Dial.guardOn ht, congrArg Dial.clockFixed ht⟩,
    (State.settle_flag ..).trans hfl, congrArg Dial.now ht⟩

theorem flywheelCurtain_early (ha : a < s.windowEnd) : exec (.flywheelCurtain a) s = .next (s.tick a).settle := by
  rw [exec_flywheelCurtain, execFlywheelCurtain, if_neg]
  · rfl
  · rw [decide_eq_false (Nat.not_le.2 ha), Bool.and_false]
    exact Bool.false_ne_true

theorem acquisitionTimeout_falls_back (hrun : s.flag 0 CUR_STATUS_RUN = true) (he : s.edgeAt = none) (hm : s.curMode = .acquiring)
    (ha : s.curtainAt + 2 * s.fld 0 CUR_PERIOD_PERIOD ≤ a) : Yields (exec (.acquisitionTimeout a) s) (fun t =>
      Fell s (s.curtainAt + 2 * s.fld 0 CUR_PERIOD_PERIOD) t ∧ t.curMode = .fallback ∧ t.flag 0 CUR_STATUS_FALLBACK = true ∧
      t.fld 0 CUR_STATUS_ACT_SRC = 0 ∧ t.flag 0 CUR_EVENT_FALLBACK = true) := by
  have hexec : exec (.acquisitionTimeout a) s =
      done ((s.curtainFalls (s.curtainAt + 2 * s.fld 0 CUR_PERIOD_PERIOD) 0).fallBack.tick a) := by
    rw [exec_acquisitionTimeout, execAcquisitionTimeout]
    refine congrArg done (if_pos ?_)
    rw [hrun, hm, he, decide_eq_true ha]
    rfl
  rw [hexec]
  obtain ⟨n, hu⟩ := s.curtainFalls_dial (s.curtainAt + 2 * s.fld 0 CUR_PERIOD_PERIOD) 0
  generalize s.curtainFalls (s.curtainAt + 2 * s.fld 0 CUR_PERIOD_PERIOD) 0 = u at hu
  have hd := u.fallBack_dial
  obtain ⟨f1, f2, f3, -⟩ := u.fallBack_shows
  generalize u.fallBack = v at hd f1 f2 f3
  have ht := v.tick_dial a
  have h1 : (v.tick a).flag 0 CUR_STATUS_FALLBACK = true := (v.tick_cur a (by decide) (by decide)).2.trans f1
  have h2 : (v.tick a).fld 0 CUR_STATUS_ACT_SRC = 0 := (v.tick_cur a (by decide) (by decide)).1.trans f2
  have h3 : (v.tick a).flag 0 CUR_EVENT_FALLBACK = true := (v.tick_cur a (by decide) (by decide)).2.trans f3
  rw [hd, hu] at ht
  generalize v.tick a = t at ht h1 h2 h3
  exact yields_done ⟨⟨congrArg Dial.frame ht, congrArg Dial.curtainAt ht, congrArg Dial.guardOn ht, congrArg Dial.clockFixed ht⟩,
    congrArg Dial.curMode ht, (State.settle_flag ..).trans h1, (State.settle_fld ..).trans h2, (State.settle_flag ..).trans h3⟩

end Miss

end Sys2Proof.Machine
end

section
/-! Edges at the curtain and PPS pins (R34, R42, R43, R445, R447). -/

namespace Sys2Proof.Machine

/-- The curtain pin's filter set. -/
def State.curFilter (s : State) (b : Bool) : State := { s with pins := { s.pins with curArmed := b } }

theorem State.curFilter_dial (s : State) (b : Bool) : (s.curFilter b).dial = { s.dial with curArmed := b } := rfl
theorem State.curFilter_regs (s : State) (b : Bool) : (s.curFilter b).regs = s.regs := rfl

/-- The PPS pin's filter set. -/
def State.ppsFilter (s : State) (b : Bool) : State := { s with pins := { s.pins with ppsArmed := b } }

theorem State.ppsFilter_dial (s : State) (b : Bool) : (s.ppsFilter b).dial = { s.dial with ppsArmed := b } := rfl

/-- An edge of the source in use, where the curtain unit is locked to it (R34, R36). -/
theorem State.judgeEdge_locked {s : State} {src : Nat} (c : Nat) (hrun : s.flag 0 CUR_STATUS_RUN = true) (hsrc : s.fld 0 CUR_CTRL_SRC = src)
    (he : s.edgeAt = none) (hm : s.curMode = .locked) : s.judgeEdge src c =
      if c < s.curtainAt + s.nominal then .early else if c ≤ s.windowEnd then .taken else .ignored := by
  unfold State.judgeEdge
  simp [hrun, hsrc, he, hm]

section Edge
variable {s : State} {e : Pulse}

theorem curtainInEdge_dropped (hp : s.pinsTaken = true) : exec (.curtainInEdge e) s = .next (s.tick e.at_).settle := by
  rw [exec_curtainInEdge, execCurtainInEdge]
  have h : (s.tick e.at_).pinsTaken = true := (s.tick_pinsTaken _).trans hp
  simp [h, done_eq]

theorem ppsEdge_dropped (hp : s.pinsTaken = true) : exec (.ppsEdge e) s = .next (s.tick e.at_).settle := by
  rw [exec_ppsEdge, execPpsEdge]
  have h : (s.tick e.at_).pinsTaken = true := (s.tick_pinsTaken _).trans hp
  simp [h, done_eq]

/-- A pulse that does not qualify only sets the filter. -/
theorem curtainInEdge_filtered (hp : s.pinsTaken = false) (hq : Pulse.qualifies e s.pins.curArmed = false) :
    exec (.curtainInEdge e) s = .next ((s.tick e.at_).curFilter (Pulse.rearms e s.pins.curArmed)).settle := by
  rw [exec_curtainInEdge, execCurtainInEdge]
  have h : (s.tick e.at_).pinsTaken = false := (s.tick_pinsTaken _).trans hp
  have ha := s.tick_curArmed e.at_
  simp only [h, ha, hq, Bool.and_false, Bool.false_eq_true, if_false]
  rfl

/-- A pulse that qualifies is judged. -/
theorem curtainInEdge_judged (hp : s.pinsTaken = false) (hq : Pulse.qualifies e s.pins.curArmed = true) {t : State}
    (ht : t = (s.tick e.at_).curFilter (Pulse.rearms e s.pins.curArmed)) : exec (.curtainInEdge e) s =
      done (match t.judgeEdge 1 (e.at_ + 200) with
        | .early => t.event 0 CUR_EVENT_PERIOD_ERR
        | .taken => t.lockedCurtain (e.at_ + 200) 1
        | .ignored => t) := by
  rw [exec_curtainInEdge, execCurtainInEdge]
  have h : (s.tick e.at_).pinsTaken = false := (s.tick_pinsTaken _).trans hp
  have ha := s.tick_curArmed e.at_
  simp only [h, ha, hq, Bool.not_false, Bool.and_true, Bool.false_eq_true, if_false, if_true]
  rw [ht]
  rfl

/-- What the judgement of an edge reads, once its filter is set. -/
structure AtEdge (s : State) (e : Pulse) (t : State) : Prop where
  dial : t.dial = { s.dial.at (max s.now e.at_) with curArmed := Pulse.rearms e s.pins.curArmed }
  judged : ∀ c, t.judgeEdge 1 c = if c < s.curtainAt + s.nominal then .early else if c ≤ s.windowEnd then .taken else .ignored

theorem curFilter_atEdge (hrun : s.flag 0 CUR_STATUS_RUN = true) (hsrc : s.fld 0 CUR_CTRL_SRC = 1) (he : s.edgeAt = none)
    (hm : s.curMode = .locked) : AtEdge s e ((s.tick e.at_).curFilter (Pulse.rearms e s.pins.curArmed)) := by
  have hd := (s.tick e.at_).curFilter_dial (Pulse.rearms e s.pins.curArmed)
  have hr := (s.tick e.at_).curFilter_regs (Pulse.rearms e s.pins.curArmed)
  have h1 : (s.tick e.at_).flag 0 CUR_STATUS_RUN = true := (s.tick_cur _ (by decide) (by decide)).2.trans hrun
  have h2 : (s.tick e.at_).fld 0 CUR_CTRL_SRC = 1 := (s.tick_cur _ (by decide) (by decide)).1.trans hsrc
  have h3 : (s.tick e.at_).fld 0 CUR_PERIOD_PERIOD = s.fld 0 CUR_PERIOD_PERIOD := (s.tick_cur _ (by decide) (by decide)).1
  rw [s.tick_dial] at hd
  rw [← State.flag_of_regs hr] at h1
  rw [← State.fld_of_regs hr] at h2 h3
  generalize (s.tick e.at_).curFilter (Pulse.rearms e s.pins.curArmed) = t at hd h1 h2 h3
  refine ⟨hd, fun c => ?_⟩
  have hw : t.windowEnd = s.windowEnd := by
    rw [State.windowEnd, State.windowEnd, h3, show t.curtainAt = s.curtainAt from congrArg Dial.curtainAt hd]
  rw [t.judgeEdge_locked c h1 h2 ((congrArg Dial.edgeAt hd).trans he) ((congrArg Dial.curMode hd).trans hm), hw,
    show t.curtainAt = s.curtainAt from congrArg Dial.curtainAt hd, show t.nominal = s.nominal from congrArg Dial.nominal hd]

/-- An edge where the curtain unit is locked: early, on time, or after its window (R34, R36). -/
theorem curtainInEdge_locked (hrun : s.flag 0 CUR_STATUS_RUN = true) (hsrc : s.fld 0 CUR_CTRL_SRC = 1) (he : s.edgeAt = none)
    (hm : s.curMode = .locked) (hp : s.pinsTaken = false) (hq : Pulse.qualifies e s.pins.curArmed = true) :
    (e.at_ + 200 < s.curtainAt + s.nominal → Yields (exec (.curtainInEdge e) s) (fun t => t.flag 0 CUR_EVENT_PERIOD_ERR = true ∧
      t.frame = s.frame ∧ t.curtainAt = s.curtainAt ∧ t.curMode = .locked ∧ t.pins.curArmed = Pulse.rearms e s.pins.curArmed)) ∧
    (s.curtainAt + s.nominal ≤ e.at_ + 200 → e.at_ + 200 ≤ s.windowEnd → s.now ≤ e.at_ →
      Yields (exec (.curtainInEdge e) s) (fun t => Fell s (e.at_ + 200) t ∧ t.pins.curArmed = Pulse.rearms e s.pins.curArmed)) ∧
    (s.windowEnd < e.at_ + 200 → s.curtainAt + s.nominal ≤ e.at_ + 200 →
      exec (.curtainInEdge e) s = .next ((s.tick e.at_).curFilter (Pulse.rearms e s.pins.curArmed)).settle) := by
  have hat : AtEdge s e _ := curFilter_atEdge hrun hsrc he hm
  rw [curtainInEdge_judged hp hq rfl]
  generalize (s.tick e.at_).curFilter (Pulse.rearms e s.pins.curArmed) = t at hat
  obtain ⟨hd, hj⟩ := hat
  rw [hj]
  refine ⟨fun h => ?_, fun h1 h2 hn => ?_, fun h1 h2 => ?_⟩
  · rw [if_pos h]
    have hf := t.flag_event 0 CUR_EVENT_PERIOD_ERR (by decide) rfl
    have hx := (t.event_dial 0 CUR_EVENT_PERIOD_ERR).trans hd
    generalize t.event 0 CUR_EVENT_PERIOD_ERR = x at hf hx
    exact yields_done ⟨(State.settle_flag ..).trans hf, congrArg Dial.frame hx, congrArg Dial.curtainAt hx, (congrArg Dial.curMode hx).trans hm,
      congrArg Dial.curArmed hx⟩
  · rw [if_neg (Nat.not_lt.2 h1), if_pos h2]
    obtain ⟨n, hx⟩ := t.lockedCurtain_dial (e.at_ + 200) 1
    have hnow : t.now = max s.now e.at_ := congrArg Dial.now hd
    rw [hd, hnow, show max (max s.now e.at_) (e.at_ + 200) = max s.now (e.at_ + 200) by omega] at hx
    generalize t.lockedCurtain (e.at_ + 200) 1 = x at hx
    exact yields_done ⟨⟨congrArg Dial.frame hx, congrArg Dial.curtainAt hx, congrArg Dial.guardOn hx, congrArg Dial.clockFixed hx⟩,
      congrArg Dial.curArmed hx⟩
  · rw [if_neg (Nat.not_lt.2 h2), if_neg (Nat.not_le.2 h1)]
    rfl

/-- A PPS pulse that qualifies captures its time, one that does not only sets the filter (R43, R445). -/
theorem ppsEdge_captures (hp : s.pinsTaken = false) :
    (Pulse.qualifies e s.pins.ppsArmed = true → Yields (exec (.ppsEdge e) s) (fun t =>
      t.rg64 (dkey 0 CUR_PPS_LO_TIME.off) = max s.now e.at_ % 2 ^ 64 ∧ t.pins.ppsArmed = Pulse.rearms e s.pins.ppsArmed)) ∧
    (Pulse.qualifies e s.pins.ppsArmed = false →
      exec (.ppsEdge e) s = .next ((s.tick e.at_).ppsFilter (Pulse.rearms e s.pins.ppsArmed)).settle) := by
  have h : (s.tick e.at_).pinsTaken = false := (s.tick_pinsTaken _).trans hp
  have hexec : exec (.ppsEdge e) s = done (if Pulse.qualifies e s.pins.ppsArmed = true
      then ((s.tick e.at_).ppsFilter (Pulse.rearms e s.pins.ppsArmed)).setRg64 (dkey 0 CUR_PPS_LO_TIME.off) (s.tick e.at_).now
      else (s.tick e.at_).ppsFilter (Pulse.rearms e s.pins.ppsArmed)) := by
    rw [exec_ppsEdge, execPpsEdge]
    simp only [h, s.tick_ppsArmed, Bool.false_eq_true, if_false]
    rfl
  rw [s.tick_now] at hexec
  rw [hexec]
  have hd := (s.tick e.at_).ppsFilter_dial (Pulse.rearms e s.pins.ppsArmed)
  generalize (s.tick e.at_).ppsFilter (Pulse.rearms e s.pins.ppsArmed) = t at hd
  refine ⟨fun hq => ?_, fun hq => ?_⟩
  · rw [if_pos hq]
    have hx := (t.setRg64_dial (dkey 0 CUR_PPS_LO_TIME.off) (max s.now e.at_)).trans hd
    have hr := t.rg64_setRg64 (dkey 0 CUR_PPS_LO_TIME.off) (max s.now e.at_)
    generalize t.setRg64 (dkey 0 CUR_PPS_LO_TIME.off) (max s.now e.at_) = x at hx hr
    exact yields_done ⟨hr, congrArg Dial.ppsArmed hx⟩
  · rw [if_neg (by rw [hq]; exact Bool.false_ne_true)]
    rfl

end Edge

end Sys2Proof.Machine
end

section
/-! O32: how curtains fall. -/

namespace Sys2Proof.Machine

/-- A step of the clock is one of six (R42). -/
theorem State.chooseStep_lt (s : State) : s.chooseStep < 2 ^ 4 := by
  unfold State.chooseStep
  extract_lets low
  cases h : ((List.range 6).filter (fun c => decide (low ≤ c) && s.ceilingOk c)).head? with
  | none => show 5 < 2 ^ 4; omega
  | some c =>
    have := List.mem_range.1 (List.mem_filter.1 (List.mem_of_mem_head? h)).1
    show c < 2 ^ 4
    omega

theorem State.closeAt_tick (s : State) (a : Nat) : (s.tick a).closeAt = s.closeAt := by
  rw [State.closeAt, State.closeAt, s.tick_curtainAt, s.tick_nominal, (s.tick_but a).fld 0 (by decide) (by decide)]

/-- The registers that a site too hot reaches. -/
def hotRegs (off : Nat) : Bool := off == PWR_EVENT_HOT.off || logOff off

/-- The next frame's clock fixed, with the site too hot or not (R42). -/
def State.clockFix (s : State) : State :=
  let s := s.setFld 0 CUR_CLK_NEXT s.chooseStep
  if s.tooHot then (s.event 0 PWR_EVENT_HOT).logRec 818 0 0x7FF 0xFFFFFFFF 1 0 else s

theorem State.clockFix_fixes (s : State) : s.clockFix.fld 0 CUR_CLK_NEXT = s.chooseStep ∧ s.clockFix.dial = s.dial := by
  unfold State.clockFix
  extract_lets t
  have ht : t.fld 0 CUR_CLK_NEXT = s.chooseStep :=
    (s.fld_setFld 0 CUR_CLK_NEXT s.chooseStep ⟨by decide, by decide⟩).trans (Nat.mod_eq_of_lt s.chooseStep_lt)
  have hd : t.dial = s.dial := s.setFld_dial ..
  clear_value t
  split
  · have hev : RegsBut hotRegs t (t.event 0 PWR_EVENT_HOT) :=
      t.event_but _ 0 _ (by decide) (by decide) fun off h => by rw [hotRegs, logOff, h]; simp
    obtain ⟨-, -, hlog⟩ := (t.event 0 PWR_EVENT_HOT).logRec_keeps 818 0 0x7FF 0xFFFFFFFF 1 0
    have hrec := hev.trans (hlog.mono fun off h => (Bool.or_eq_false_iff.1 h).2)
    exact ⟨(hrec.fld 0 (by decide) (by decide)).trans ht, (State.logRec_dial ..).trans ((t.event_dial ..).trans hd)⟩
  · exact ⟨ht, hd⟩

theorem clockFix_fixes {s : State} {a : Nat} (hrun : s.flag 0 CUR_STATUS_RUN = true) (hc : s.clockFixed = false)
    (ha : s.closeAt - 20000 ≤ max s.now a) : Yields (exec (.clockFix a) s) (fun t =>
      t.clockFixed = true ∧ t.overpower = false ∧ t.fld 0 CUR_CLK_NEXT = (s.tick a).chooseStep ∧ t.frame = s.frame) := by
  have h1 : (s.tick a).flag 0 CUR_STATUS_RUN = true := (s.tick_cur a (by decide) (by decide)).2.trans hrun
  have hexec : exec (.clockFix a) s = done { (s.tick a).clockFix with clockFixed := true, overpower := false } := by
    rw [exec_clockFix, execClockFix]
    refine congrArg done (if_pos ?_)
    rw [h1, s.tick_clockFixed, hc, s.closeAt_tick, s.tick_now, decide_eq_true ha]
    rfl
  obtain ⟨h2, h3⟩ := (s.tick a).clockFix_fixes
  have h4 : (s.tick a).clockFix.frame = s.frame := (congrArg Dial.frame h3).trans (s.tick_frame a)
  rw [hexec]
  generalize (s.tick a).clockFix = t at h2 h4
  exact yields_done ⟨rfl, rfl, h2, h4⟩

/-- A mode set shows no miss and no fallback (R36). -/
theorem State.setMode_sets (s : State) (m : CurMode) : (s.setMode m).dial = { s.dial with curMode := m, edgeAt := none } ∧
    (s.setMode m).flag 0 CUR_STATUS_FALLBACK = false ∧ (s.setMode m).fld 0 CUR_STATUS_MISS_CNT = 0 ∧
    (s.setMode m).fld 0 CUR_CTRL_SRC = s.fld 0 CUR_CTRL_SRC := by
  have hd : ({ s with curMode := m, edgeAt := none } : State).dial = { s.dial with curMode := m, edgeAt := none } := rfl
  have hr : ({ s with curMode := m, edgeAt := none } : State).regs = s.regs := rfl
  have he : s.setMode m = (({ s with curMode := m, edgeAt := none } : State).setFld 0 CUR_STATUS_MISS_CNT 0).setFld 0 CUR_STATUS_FALLBACK 0 :=
    rfl
  rw [he]
  generalize ({ s with curMode := m, edgeAt := none } : State) = t at hd hr
  have hmiss := t.fld_setFld 0 CUR_STATUS_MISS_CNT 0 ⟨by decide, by decide⟩
  have hsrc := t.fld_setFld_ne 0 0 CUR_STATUS_MISS_CNT CUR_CTRL_SRC 0 (by decide)
  have hx := (t.setFld_dial 0 CUR_STATUS_MISS_CNT 0).trans hd
  generalize t.setFld 0 CUR_STATUS_MISS_CNT 0 = x at hmiss hsrc hx
  refine ⟨(x.setFld_dial ..).trans hx, ?_, ?_, ?_⟩
  · rw [State.flag, x.fld_setFld 0 CUR_STATUS_FALLBACK 0 ⟨by decide, by decide⟩]
    rfl
  · rw [x.fld_setFld_apart 0 CUR_STATUS_FALLBACK CUR_STATUS_MISS_CNT 0 ⟨by decide, by decide⟩ ⟨by decide, by decide⟩ rfl (.inl (by decide)),
      hmiss]
    rfl
  · rw [x.fld_setFld_ne 0 0 CUR_STATUS_FALLBACK CUR_CTRL_SRC 0 (by decide), hsrc, State.fld_of_regs hr]

theorem curtainArm_acquires {s : State} (r : Requester) (h : s.flag 0 CUR_STATUS_FALLBACK = true) : Yields (exec (.arm r) s) (fun t =>
    t.curMode = .acquiring ∧ t.edgeAt = none ∧ t.flag 0 CUR_STATUS_FALLBACK = false ∧ t.fld 0 CUR_STATUS_MISS_CNT = 0 ∧
    t.frame = s.frame) := by
  obtain ⟨hd, hf, hm, -⟩ := s.setMode_sets .acquiring
  rw [exec_arm, execArm, State.rearm, if_pos h]
  generalize s.setMode .acquiring = t at hd hf hm
  exact yields_done ⟨congrArg Dial.curMode hd, congrArg Dial.edgeAt hd, (State.settle_flag ..).trans hf, (State.settle_fld ..).trans hm,
    congrArg Dial.frame hd⟩

theorem curtainArm_idle {s : State} (r : Requester) (h : s.flag 0 CUR_STATUS_FALLBACK = false) : exec (.arm r) s = .next s.settle := by
  rw [exec_arm, execArm, State.rearm, if_neg (by rw [h]; exact Bool.false_ne_true)]
  rfl

theorem sourceSwitch_switches {s : State} (r : Requester) {src : Nat} (h : src < 3) (hne : src ≠ s.fld 0 CUR_CTRL_SRC) :
    Yields (exec (.sourceSwitch r src) s) (fun t => t.fld 0 CUR_CTRL_SRC = src ∧
      t.curMode = (if src = 0 then .internal else .acquiring) ∧ t.edgeAt = none ∧ t.fld 0 CUR_STATUS_MISS_CNT = 0 ∧
      t.frame = s.frame ∧ t.curtainAt = s.curtainAt) := by
  rw [exec_sourceSwitch, execSourceSwitch, State.setSource, if_neg (by omega)]
  have hsrc := s.fld_setFld 0 CUR_CTRL_SRC src ⟨by decide, by decide⟩
  rw [Nat.mod_eq_of_lt (by show src < 4; omega)] at hsrc
  have hx := s.setFld_dial 0 CUR_CTRL_SRC src
  dsimp only
  generalize s.setFld 0 CUR_CTRL_SRC src = x at hsrc hx
  obtain ⟨hd, -, hm, hs⟩ := x.setMode_sets (if src = 0 then .internal else .acquiring)
  generalize x.setMode (if src = 0 then .internal else .acquiring) = t at hd hm hs
  rw [hx] at hd
  exact yields_done ⟨(State.settle_fld ..).trans (hs.trans hsrc), congrArg Dial.curMode hd, congrArg Dial.edgeAt hd,
    (State.settle_fld ..).trans hm, congrArg Dial.frame hd, congrArg Dial.curtainAt hd⟩

theorem Pulse.qualifies_short {e : Pulse} {b : Bool} (h : e.high < 200 ∨ (e.low < 200 ∧ b = false)) : Pulse.qualifies e b = false := by
  rw [Pulse.qualifies, Bool.and_eq_false_iff, Bool.or_eq_false_iff, decide_eq_false_iff_not, decide_eq_false_iff_not]
  obtain h | ⟨h, hb⟩ := h
  · exact .inr (by omega)
  · exact .inl ⟨hb, by omega⟩

theorem Pulse.qualifies_long {e : Pulse} (hl : 200 ≤ e.low) (hh : 200 ≤ e.high) (b : Bool) :
    Pulse.qualifies e b = true ∧ Pulse.rearms e b = false := by
  rw [Pulse.qualifies, Pulse.rearms, decide_eq_true hl, decide_eq_true hh]
  simp

/-- Settles O32: the curtain from its internal source, an edge, a miss and a fallback, each by its own lemma over the curtain unit's state. -/
theorem curtainsFall : Obligations.CurtainsFall := by
  unfold Obligations.CurtainsFall
  intro s r at_ src low high u e edged p fell
  refine ⟨fun hrun => ⟨fun he hm => ⟨curtain_falls hrun he hm, curtain_early he⟩, fun _ => curtain_edge hrun, fun he hm =>
      ⟨fun hp hq hsrc => curtainInEdge_locked hrun hsrc he hm hp hq, flywheelCurtain_misses hrun he hm, flywheelCurtain_early⟩,
      acquisitionTimeout_falls_back hrun, clockFix_fixes hrun⟩,
    curtainArm_acquires r, curtainArm_idle r, sourceSwitch_switches r, fun hp => ⟨curtainInEdge_filtered hp, ppsEdge_captures hp⟩, fun hp => ?_,
    Pulse.qualifies_short (e := e), Pulse.qualifies_long (e := e)⟩
  rintro c (_ | ⟨_, _ | ⟨_, _ | _⟩⟩)
  · exact curtainInEdge_dropped hp
  · exact ppsEdge_dropped hp

end Sys2Proof.Machine
end

section
/-! The commands of the box office: the close, the guard band and its bursts, and the release of an act (R38, R39, R51, R52, R57, R59). -/

namespace Sys2Proof.Machine

theorem State.dial_closing (s : State) (a b) (n : Nat) :
    ({ s with cbForce := a, rehOff := b, closedFor := n } : State).dial = { s.dial with closedFor := n } := rfl
theorem State.dial_swapped (s : State) (a) : ({ s with swap := a } : State).dial = s.dial := rfl
theorem State.dial_doomed (s : State) (a) : ({ s with doomed := a } : State).dial = s.dial := rfl

theorem State.close_dial (s : State) (a : Nat) : (s.close a).dial = { s.dial with closedFor := s.frame + 1 } := by
  have h : State.close = State.close := rfl
  conv at h => rhs; delta State.close
  obtain ⟨g, hg⟩ : ∃ g, g = State.closeAll := ⟨_, rfl⟩
  have hd : ∀ s a p c l, (g s a p c l).1.dial = s.dial := by
    rw [hg]
    exact State.closeAll_dial
  rw [← hg] at h
  clear hg
  generalize List.range 8 = l at h
  rw [h]
  clear h
  beta_reduce
  extract_lets w1 w2 p code openAny
  have h1 : w1.dial = { s.dial with closedFor := s.frame + 1 } := s.dial_closing ..
  have h2 : w2.dial = w1.dial := w1.dial_swapped _
  clear_value w2 p code openAny
  have h3 := hd w2 a p code l
  generalize g w2 a p code l = y at h3 ⊢
  obtain ⟨u, xs⟩ := y
  have h4 : (u.placeAll xs openAny).dial = u.dial := u.placeAll_dial xs openAny
  have hh (w : State) (l : List Nat) : (l.foldl State.heldClose { w with doomed := [] }).dial = w.dial :=
    (State.dial_foldl _ State.heldClose_dial l _).trans (w.dial_doomed [])
  dsimp only
  rw [hh, h4, h3, h2, h1]

theorem boxOfficeClose_closes {s : State} {a : Nat} (hrun : s.flag 0 CUR_STATUS_RUN = true) (hc : s.closedFor ≤ s.frame)
    (ha : s.closeAt ≤ max s.now a) : Yields (exec (.boxOfficeClose a) s) (fun t =>
      t.closedFor = s.frame + 1 ∧ t.now = max s.now a ∧ t.frame = s.frame) := by
  have hexec : exec (.boxOfficeClose a) s = done ((s.tick a).close (s.tick a).closeAt) := by
    rw [exec_boxOfficeClose, execBoxOfficeClose]
    refine congrArg done (if_pos ⟨(s.tick_cur a (by decide) (by decide)).2.trans hrun, ?_, ?_⟩)
    · rw [s.tick_closedFor, s.tick_frame]
      exact hc
    · rw [s.closeAt_tick, s.tick_now]
      exact ha
  have hd := (s.tick a).close_dial (s.tick a).closeAt
  rw [hexec]
  generalize (s.tick a).close (s.tick a).closeAt = t at hd
  rw [s.tick_dial, s.tick_frame] at hd
  exact yields_done ⟨congrArg Dial.closedFor hd, congrArg Dial.now hd, congrArg Dial.frame hd⟩

theorem boxOfficeClose_closed {s : State} {a : Nat} (hc : s.frame < s.closedFor) :
    exec (.boxOfficeClose a) s = .next (s.tick a).settle := by
  rw [exec_boxOfficeClose, execBoxOfficeClose]
  refine congrArg done (if_neg fun h => ?_)
  have := h.2.1
  rw [s.tick_closedFor, s.tick_frame] at this
  omega

-- the patrol scrubbers

/-- The registers other than those that rule a scrubber. -/
def unscrubbed (off : Nat) : Bool := off != HBC_SCRUB_EN.off

theorem unscrubbed_src (off : Nat) (h : off / 0x1000 = 0xB1) : unscrubbed off = true := by
  rw [unscrubbed, bne_iff_ne]
  rintro rfl
  exact absurd h (by decide)

theorem RegsBut.of_timely {s t : State} (h : RegsBut timely s t) : RegsBut unscrubbed s t := h.mono fun off ho => by
  rw [unscrubbed, bne_eq_false_iff_eq] at ho
  rw [ho]
  decide

end Sys2Proof.Machine
end

section
/-! The patrol scrubbers at the guard band (R52, R272). -/

namespace Sys2Proof.Machine

theorem State.scrub_of_dial {s t : State} (h : t.dial = s.dial) : t.scrub = s.scrub := congrArg Dial.scrub h

theorem State.scrubs_of {s t : State} (h : t.scrub = s.scrub) (hr : RegsBut unscrubbed s t) (d a : Nat) : t.scrubs d a = s.scrubs d a := by
  rw [State.scrubs, State.scrubs, h, hr.fld d (by decide) (by decide)]

/-- What a scrubber's turn leaves: the rules of every scrubber, and what reads as poison. -/
def Patrolled (s t : State) : Prop := RegsBut unscrubbed s t ∧ ∀ g ∈ s.poison, g ∈ t.poison

theorem Patrolled.refl (s : State) : Patrolled s s := ⟨RegsBut.refl _ s, fun _ h => h⟩

theorem Patrolled.trans {s t u : State} (h : Patrolled s t) (k : Patrolled t u) : Patrolled s u :=
  ⟨h.1.trans k.1, fun g hg => k.2 g (h.2 g hg)⟩

theorem State.countFld_poison (s : State) (d : Nat) (f : RF) (n : Nat) : (s.countFld d f n).poison = s.poison :=
  (s.countFld_light d f n).same State.poison fun _ _ _ _ => rfl

theorem State.withUe_patrolled (s : State) (l : List Nat) : Patrolled s { s with ueRead := l } :=
  ⟨RegsBut.of_regs (t := { s with ueRead := l }) _ rfl, fun _ h => h⟩

theorem State.ueAt_poison (s : State) (d a : Nat) : (s.ueAt d a).poison = s.poison := by
  have hc (u : State) : (u.event d HBC_EVENT_UE).poison = u.poison := (u.event_light d _).same State.poison fun _ _ _ _ => rfl
  have hu (u : State) (l : List Nat) : ({ u with ueRead := l } : State).poison = u.poison := rfl
  rw [State.ueAt]
  exact (hu _ _).trans ((hc _).trans ((State.setRg64_poison ..).trans (s.countFld_poison ..)))

theorem State.ueAt_patrolled (s : State) (d a : Nat) : Patrolled s (s.ueAt d a) := by
  have hc (u : State) : RegsBut unscrubbed u (u.countFld d HBC_UE_CNT_COUNT 1) :=
    u.countFld_but _ d HBC_UE_CNT_COUNT 1 (by decide) (by decide)
  have hr (u : State) (v : Nat) : RegsBut unscrubbed u (u.setRg64 (dkey d HBC_ERR_ADDR_LO_ADDR.off) v) :=
    u.setRg64_but _ d v (by decide) (by decide) (by decide)
  have he (u : State) : RegsBut unscrubbed u (u.event d HBC_EVENT_UE) :=
    u.event_but _ d HBC_EVENT_UE (by decide) (by decide) unscrubbed_src
  refine ⟨(((hc s).trans (hr _ _)).trans (he _)).trans (State.withUe_patrolled _ _).1, fun g hg => ?_⟩
  rw [s.ueAt_poison]
  exact hg

theorem State.withPoison_poison (s : State) (l : List Nat) : ({ s with poison := l } : State).poison = l := rfl
theorem State.withPoison_regs (s : State) (l : List Nat) : ({ s with poison := l } : State).regs = s.regs := rfl

theorem State.scrubbed_patrolled (s : State) (d : Nat) (x : Scrubbed) : Patrolled s (s.scrubbed d x) := by
  have hue := s.ueAt_patrolled d x.addr
  have hr := (s.ueAt d x.addr).withPoison_regs (setAdd s.poison (x.addr / 64))
  have hp := (s.ueAt d x.addr).withPoison_poison (setAdd s.poison (x.addr / 64))
  unfold State.scrubbed
  split
  · exact Patrolled.refl s
  · split
    · exact Patrolled.refl s
    · exact ⟨s.countFld_but _ d HBC_CE_CNT_COUNT 1 (by decide) (by decide), fun g hg => by rw [s.countFld_poison]; exact hg⟩
    · refine ⟨hue.1.trans (RegsBut.of_regs _ hr), fun g hg => ?_⟩
      rw [hp]
      exact mem_setAdd (.inr hg)

/-- What a scrubber finds beyond correction reads as poison (R272). -/
theorem State.scrubbed_finds (s : State) (d : Nat) (x : Scrubbed) (hx : x.ecc = .uncorrectable) (hs : s.scrubs d x.addr = true) :
    x.addr / 64 ∈ (s.scrubbed d x).poison := by
  have he : s.scrubbed d x = { s.ueAt d x.addr with poison := setAdd s.poison (x.addr / 64) } := by
    rw [State.scrubbed, hs, hx]
    rfl
  rw [he, State.withPoison_poison]
  exact mem_setAdd (.inl rfl)

theorem State.scrubbedAll_patrolled (d : Nat) (found : List Scrubbed) : ∀ s : State,
    Patrolled s (found.foldl (fun s x => s.scrubbed d x) s) ∧ (found.foldl (fun s x => s.scrubbed d x) s).dial = s.dial ∧
    ∀ x ∈ found, x.ecc = .uncorrectable → s.scrubs d x.addr = true → x.addr / 64 ∈ (found.foldl (fun s x => s.scrubbed d x) s).poison := by
  induction found with
  | nil => exact fun s => ⟨Patrolled.refl s, rfl, fun _ h => absurd h List.not_mem_nil⟩
  | cons y found ih =>
    intro s
    have hp := s.scrubbed_patrolled d y
    have hd := s.scrubbed_dial d y
    have hf := s.scrubbed_finds d y
    rw [List.foldl_cons]
    generalize s.scrubbed d y = u at hp hd hf
    have hs' : u.scrub = s.scrub := State.scrub_of_dial hd
    obtain ⟨k1, k2, k3⟩ := ih u
    refine ⟨hp.trans k1, k2.trans hd, fun x hx he hs => ?_⟩
    obtain rfl | hx := List.mem_cons.1 hx
    · exact k1.2 _ (hf he hs)
    · refine k3 x hx he ?_
      rw [State.scrubs_of hs' hp.1]
      exact hs

/-- Where the scrubber of a die stands after its turn. -/
def State.scrubNext (s : State) (d : Nat) : Nat := (get 0 s.scrub d + s.fld d HBC_SCRUB_RATE) % stackGranules

theorem State.scrubOn_eq (s : State) (found : List Scrubbed) (d : Nat) (h : s.flag d HBC_SCRUB_EN = true) :
    s.scrubOn found d = { found.foldl (fun s x => s.scrubbed d x) s with
      scrub := put 0 (found.foldl (fun s x => s.scrubbed d x) s).scrub d ((found.foldl (fun s x => s.scrubbed d x) s).scrubNext d) } := by
  rw [State.scrubOn, if_pos h]
  rfl

theorem State.withScrub_patrolled (s : State) (m) : Patrolled s { s with scrub := m } :=
  ⟨RegsBut.of_regs (t := { s with scrub := m }) _ rfl, fun _ h => h⟩
theorem State.withScrub_poison (s : State) (m) : ({ s with scrub := m } : State).poison = s.poison := rfl

/-- A scrubber's turn: it moves on, and what it finds beyond correction reads as poison (R52, R272). -/
theorem State.scrubOn_patrols (s : State) (found : List Scrubbed) (d : Nat) :
    Patrolled s (s.scrubOn found d) ∧ (∃ m, (s.scrubOn found d).dial = { s.dial with scrub := m } ∧
      (∀ k, k ≠ d → get 0 m k = get 0 s.scrub k) ∧ (s.flag d HBC_SCRUB_EN = true → get 0 m d = s.scrubNext d)) ∧
    (s.flag d HBC_SCRUB_EN = true → ∀ x ∈ found, x.ecc = .uncorrectable → s.scrubs d x.addr = true →
      x.addr / 64 ∈ (s.scrubOn found d).poison) := by
  by_cases h : s.flag d HBC_SCRUB_EN = true
  · obtain ⟨k1, k2, k3⟩ := State.scrubbedAll_patrolled d found s
    rw [State.scrubOn_eq s found d h]
    generalize found.foldl (fun s x => s.scrubbed d x) s = u at k1 k2 k3 ⊢
    have hscrub : u.scrub = s.scrub := State.scrub_of_dial k2
    have hnext : u.scrubNext d = s.scrubNext d := by
      rw [State.scrubNext, State.scrubNext, hscrub, k1.1.fld d (by decide) (by decide)]
    rw [hscrub, hnext]
    generalize hm : put 0 s.scrub d (s.scrubNext d) = m
    refine ⟨k1.trans (u.withScrub_patrolled m), ⟨m, (u.dial_scrub m).trans (by rw [k2]), fun k hk => ?_, fun _ => ?_⟩, fun _ x hx he hs => ?_⟩
    · rw [← hm, get_put_ne 0 s.scrub hk]
    · rw [← hm, get_put_same]
    · rw [State.withScrub_poison]
      exact k3 x hx he hs
  · have he : s.scrubOn found d = s := by rw [State.scrubOn, if_neg h]
    rw [he]
    exact ⟨Patrolled.refl s, ⟨s.scrub, rfl, fun _ _ => rfl, fun h' => absurd h' h⟩, fun h' => absurd h' h⟩

theorem State.scrub_of_dial_with {s t : State} {m : SMap Nat} (h : t.dial = { s.dial with scrub := m }) : t.scrub = m :=
  congrArg Dial.scrub h

/-- The turns of several scrubbers. -/
theorem State.scrubAll_patrols (found : List Scrubbed) : ∀ (l : List Nat) (s : State), l.Nodup →
    Patrolled s (l.foldl (fun s d => s.scrubOn found d) s) ∧ (∃ m, (l.foldl (fun s d => s.scrubOn found d) s).dial = { s.dial with scrub := m } ∧
      (∀ k ∉ l, get 0 m k = get 0 s.scrub k) ∧ ∀ k ∈ l, s.flag k HBC_SCRUB_EN = true → get 0 m k = s.scrubNext k) ∧
    ∀ k ∈ l, s.flag k HBC_SCRUB_EN = true → ∀ x ∈ found, x.ecc = .uncorrectable → s.scrubs k x.addr = true →
      x.addr / 64 ∈ (l.foldl (fun s d => s.scrubOn found d) s).poison := by
  intro l
  induction l with
  | nil => exact fun s _ => ⟨Patrolled.refl s, ⟨s.scrub, rfl, fun _ _ => rfl, fun _ h => absurd h List.not_mem_nil⟩,
      fun _ h => absurd h List.not_mem_nil⟩
  | cons d l ih =>
    intro s hl
    obtain ⟨hdl, hl⟩ := List.nodup_cons.1 hl
    obtain ⟨h1, ⟨m, h2, h3, h4⟩, h5⟩ := s.scrubOn_patrols found d
    rw [List.foldl_cons]
    generalize s.scrubOn found d = u at h1 h2 h5 ⊢
    have hscrub : u.scrub = m := State.scrub_of_dial_with h2
    obtain ⟨k1, ⟨n, k2, k3, k4⟩, k5⟩ := ih u hl
    have hne {k : Nat} (hk : k ∈ l) : k ≠ d := fun e => hdl (e ▸ hk)
    have hflag (k : Nat) : u.flag k HBC_SCRUB_EN = s.flag k HBC_SCRUB_EN := h1.1.flag k (by decide) (by decide)
    have hsame {k : Nat} (hk : k ≠ d) : get 0 u.scrub k = get 0 s.scrub k := by rw [hscrub, h3 k hk]
    have hnext {k : Nat} (hk : k ≠ d) : u.scrubNext k = s.scrubNext k := by
      rw [State.scrubNext, State.scrubNext, hsame hk, h1.1.fld k (by decide) (by decide)]
    have hscrubs {k : Nat} (hk : k ≠ d) (a : Nat) : u.scrubs k a = s.scrubs k a := by
      rw [State.scrubs, State.scrubs, hsame hk, h1.1.fld k (by decide) (by decide)]
    refine ⟨h1.trans k1, ⟨n, by rw [k2, h2], fun k hk => ?_, fun k hk hf => ?_⟩, fun k hk hf x hx he hs => ?_⟩
    · obtain ⟨hkd, hkl⟩ := not_or.1 (mt List.mem_cons.2 hk)
      rw [k3 k hkl, hsame hkd]
    · obtain rfl | hk := List.mem_cons.1 hk
      · rw [k3 k hdl, hscrub, h4 hf]
      · rw [k4 k hk ((hflag k).trans hf), hnext (hne hk)]
    · obtain rfl | hk := List.mem_cons.1 hk
      · exact k1.2 _ (h5 hf x hx he hs)
      · exact k5 k hk ((hflag k).trans hf) x hx he ((hscrubs (hne hk) _).trans hs)

end Sys2Proof.Machine
end

section
/-! The guard band, the refresh bursts and the acts that the box office holds (R51, R52, R57, R59, R272, R439). -/

namespace Sys2Proof.Machine

-- the guard band

theorem State.holdAct_regs (s : State) (d a : Nat) : (s.holdAct d a).regs = s.regs := by
  unfold State.holdAct
  split <;> rfl

theorem State.breach_but (s : State) (d act kind : Nat) : RegsBut unscrubbed s (s.breach d act kind) := by
  have h1 (u : State) (v : Nat) : RegsBut unscrubbed u (u.setFld d BOX_BREACH_CNT v) := u.setFld_but _ d BOX_BREACH_CNT v (by decide) (by decide)
  have h2 (u : State) : RegsBut unscrubbed u (u.setFld d BOX_BREACH_KIND kind) := u.setFld_but _ d BOX_BREACH_KIND kind (by decide) (by decide)
  have h3 (u : State) : RegsBut unscrubbed u (u.setFld d BOX_BREACH_ACT act) := u.setFld_but _ d BOX_BREACH_ACT act (by decide) (by decide)
  have h4 (u : State) : RegsBut unscrubbed u (u.event d BOX_EVENT_BREACH) :=
    u.event_but _ d BOX_EVENT_BREACH (by decide) (by decide) unscrubbed_src
  exact ((((h1 s _).trans (h2 _)).trans (h3 _)).trans (h4 _)).trans (RegsBut.of_regs _ (State.holdAct_regs _ d act))

theorem State.breaches_but (s : State) : RegsBut unscrubbed s s.breaches := by
  unfold State.breaches
  refine RegsBut.foldl _ _ (fun u p _ => ?_) s
  obtain ⟨a, kind, place, n⟩ := p
  dsimp only
  split
  · exact u.breach_but _ a kind
  · exact RegsBut.refl _ u

theorem State.grpHeader_regs (s : State) (g : Grp) (frame cur prev updates eta skips : Nat) :
    (s.grpHeader g frame cur prev updates eta skips).regs = s.regs := State.writeMem_regs ..

/-- The registers of the update unit that a group's boundary reaches are none of a scrubber's. -/
theorem State.updDecide_but (s : State) (d k : Nat) : RegsBut unscrubbed s (s.updDecide d k) := by
  have hg (u : State) (g f c p n e x) : RegsBut unscrubbed u (u.grpHeader g f c p n e x) := RegsBut.of_regs _ (u.grpHeader_regs ..)
  have hc (u : State) (j : Nat) : RegsBut unscrubbed u (u.count 2 d j 32 1) := RegsBut.of_regs _ (u.count_regs ..)
  have hi (u : State) (v : Nat) : RegsBut unscrubbed u (u.setFld d UPD_LAST_INSTALLED v) :=
    u.setFld_but _ d UPD_LAST_INSTALLED v (by decide) (by decide)
  have hd (u : State) (v : Nat) : RegsBut unscrubbed u (u.setFld d UPD_LAST_DISCARDED v) :=
    u.setFld_but _ d UPD_LAST_DISCARDED v (by decide) (by decide)
  have hw (u : State) (c : Nat) : RegsBut unscrubbed u (((u.setFld d UPD_DISC_CAUSE c).setFld d UPD_DISC_GROUP k).event d UPD_EVENT_DISCARD) :=
    ((u.setFld_but _ d UPD_DISC_CAUSE c (by decide) (by decide)).trans (State.setFld_but _ _ d UPD_DISC_GROUP k (by decide) (by decide))).trans
      (State.event_but _ _ d UPD_EVENT_DISCARD (by decide) (by decide) unscrubbed_src)
  unfold State.updDecide
  extract_lets g r cur t eta skips off copy new u v w
  split
  · exact hg _ _ _ _ _ _ _ _
  · split
    · exact (hg _ _ _ _ _ _ _ _).trans ((hc _ _).trans (hi _ _))
    · exact ((hg _ _ _ _ _ _ _ _).trans ((hc _ _).trans (hd _ _))).trans (hw _ _)

theorem State.newHeaders_but (s : State) (d : Nat) : RegsBut unscrubbed s (s.newHeaders d) := by
  unfold State.newHeaders
  split
  · split
    · exact RegsBut.foldl _ _ (fun u _ _ => RegsBut.of_regs _ (u.grpHeader_regs ..)) s
    · exact RegsBut.refl _ s
  · exact RegsBut.refl _ s

theorem State.updGuard_but (s : State) (d : Nat) : RegsBut unscrubbed s (s.updGuard d) := by
  unfold State.updGuard
  extract_lets ks u v w
  have hu : RegsBut unscrubbed s u := by
    dsimp only [u]
    split
    · exact RegsBut.refl _ s
    · exact (s.setFld_but _ d UPD_LAST_INSTALLED 0 (by decide) (by decide)).trans
        (State.setFld_but _ _ d UPD_LAST_DISCARDED 0 (by decide) (by decide))
  clear_value u
  have hv : RegsBut unscrubbed u v := RegsBut.foldl _ _ (fun x k _ => x.updDecide_but d k) u
  clear_value v
  have hw : RegsBut unscrubbed v w := RegsBut.of_regs _ rfl
  clear_value w
  exact ((hu.trans hv).trans hw).trans (w.newHeaders_but d)

end Sys2Proof.Machine
end

section
/-! The commands of the guard band and of held acts (R51, R52, R57, R59, R272, R439). -/

namespace Sys2Proof.Machine

/-- What the guard band begins with once the acts over their certificates are held and the update unit has decided. -/
def State.guardReady (s : State) : State := (List.range 8).foldl State.updGuard s.breaches

theorem State.guardReady_keeps (s : State) : s.guardReady.dial = s.dial ∧ RegsBut unscrubbed s s.guardReady :=
  ⟨(State.dial_foldl _ State.updGuard_dial _ _).trans s.breaches_dial,
    s.breaches_but.trans (RegsBut.foldl _ _ (fun u d _ => u.updGuard_but d) _)⟩

/-- The guard band on, and the refresh with it. -/
def State.guarded (s : State) : State := { s with guardOn := true, refreshOn := true }

theorem State.guarded_dial (s : State) : s.guarded.dial = { s.dial with guardOn := true, refreshOn := true } := rfl
theorem State.guarded_poison (s : State) : s.guarded.poison = s.poison := rfl

theorem State.guard_eq (s : State) (found : List Scrubbed) :
    s.guard found = ((List.range 8).foldl (fun s d => s.scrubOn found d) s.guardReady).guarded := rfl

/-- The guard band moves every scrubber on, and poisons what it finds beyond correction (R52, R272). -/
theorem State.guard_patrols (s : State) (found : List Scrubbed) :
    (∃ m, (s.guard found).dial = { s.dial with guardOn := true, refreshOn := true, scrub := m } ∧
      ∀ k, k < 8 → s.flag k HBC_SCRUB_EN = true → get 0 m k = s.scrubNext k) ∧
    ∀ k, k < 8 → s.flag k HBC_SCRUB_EN = true → ∀ x ∈ found, x.ecc = .uncorrectable → s.scrubs k x.addr = true →
      x.addr / 64 ∈ (s.guard found).poison := by
  obtain ⟨hd, hr⟩ := s.guardReady_keeps
  have hscrub := State.scrub_of_dial hd
  obtain ⟨-, ⟨m, k2, -, k4⟩, k5⟩ := State.scrubAll_patrols found (List.range 8) s.guardReady List.nodup_range
  have hflag (k : Nat) : s.guardReady.flag k HBC_SCRUB_EN = s.flag k HBC_SCRUB_EN := hr.flag k (by decide) (by decide)
  have hnext (k : Nat) : s.guardReady.scrubNext k = s.scrubNext k := by
    rw [State.scrubNext, State.scrubNext, hscrub, hr.fld k (by decide) (by decide)]
  rw [s.guard_eq]
  refine ⟨⟨m, ?_, fun k hk hf => ?_⟩, fun k hk hf x hx he hs => ?_⟩
  · rw [State.guarded_dial, k2, hd]
  · rw [k4 k (List.mem_range.2 hk) ((hflag k).trans hf), hnext]
  · rw [State.guarded_poison]
    exact k5 k (List.mem_range.2 hk) ((hflag k).trans hf) x hx he ((State.scrubs_of hscrub hr k x.addr).trans hs)

theorem guarded_of_dial {s t : State} {n : Nat} {m : SMap Nat}
    (h : t.dial = { s.dial.at n with guardOn := true, refreshOn := true, scrub := m }) :
    t.guardOn = true ∧ t.refreshOn = true ∧ t.frame = s.frame ∧ t.scrub = m :=
  ⟨congrArg Dial.guardOn h, congrArg Dial.refreshOn h, congrArg Dial.frame h, congrArg Dial.scrub h⟩

theorem guardBandStart_guards {s : State} {a : Nat} (found : List Scrubbed) (hrun : s.flag 0 CUR_STATUS_RUN = true)
    (hg : s.guardOn = false) (ha : s.curtainAt + s.nominal - 8000 ≤ max s.now a) :
    Yields (exec (.guardBandStart ⟨a, found⟩) s) (fun t => t.guardOn = true ∧ t.refreshOn = true ∧ t.frame = s.frame ∧
      ∀ k : Nat, k < 8 → s.flag k HBC_SCRUB_EN = true →
        get 0 t.scrub k = (get 0 s.scrub k + s.fld k HBC_SCRUB_RATE) % stackGranules ∧
        ∀ x ∈ found, x.ecc = .uncorrectable → s.scrubs k x.addr = true → t.poison.contains (x.addr / 64) = true) := by
  have hexec : exec (.guardBandStart ⟨a, found⟩) s = done ((s.tick a).guard found) := by
    rw [exec_guardBandStart, execGuardBandStart]
    refine congrArg done (if_pos ?_)
    rw [(s.tick_cur a (by decide) (by decide)).2, hrun, s.tick_guardOn, hg, s.tick_curtainAt, s.tick_nominal, s.tick_now, decide_eq_true ha]
    rfl
  have hr : RegsBut unscrubbed s (s.tick a) := (s.tick_but a).of_timely
  have hscrub := s.tick_scrub a
  obtain ⟨⟨m, hd, h1⟩, h2⟩ := (s.tick a).guard_patrols found
  rw [s.tick_dial] at hd
  obtain ⟨g1, g2, g3, g4⟩ := guarded_of_dial hd
  rw [hexec]
  refine yields_done ⟨g1, g2, g3, fun k hk hf => ?_⟩
  have hf' : (s.tick a).flag k HBC_SCRUB_EN = true := (hr.flag k (by decide) (by decide)).trans hf
  refine ⟨?_, fun x hx he hs => List.contains_iff_mem.2 (h2 k hk hf' x hx he ((State.scrubs_of hscrub hr k x.addr).trans hs))⟩
  have hnext : (s.tick a).scrubNext k = (get 0 s.scrub k + s.fld k HBC_SCRUB_RATE) % stackGranules := by
    rw [State.scrubNext, hscrub, hr.fld k (by decide) (by decide)]
  rw [State.settle_scrub, g4, h1 k hk hf', hnext]

-- acts that used more than their certificates

/-- What one breach leaves of the acts held and of what the certificates are compared with. -/
structure Holds (s t : State) : Prop where
  held : ∀ p ∈ s.heldActs, p ∈ t.heldActs
  used : t.used = s.used
  admitted : t.admitted = s.admitted

theorem Holds.refl (s : State) : Holds s s := ⟨fun _ h => h, rfl, rfl⟩

theorem Holds.trans {s t u : State} (h : Holds s t) (k : Holds t u) : Holds s u :=
  ⟨fun p hp => k.held p (h.held p hp), k.used.trans h.used, k.admitted.trans h.admitted⟩

theorem Housekept.holds {s t : State} (h : Housekept s t) : Holds s t :=
  ⟨fun p hp => by rw [h.same State.heldActs fun _ _ _ _ _ _ _ _ => rfl]; exact hp, h.same State.used fun _ _ _ _ _ _ _ _ => rfl,
    h.same State.admitted fun _ _ _ _ _ _ _ _ => rfl⟩

theorem State.withHeld_holds (s : State) (p : Nat × Nat) : Holds s { s with heldActs := s.heldActs ++ [p] } :=
  ⟨fun _ hx => List.mem_append_left _ hx, rfl, rfl⟩

theorem State.holdAct_holds (s : State) (d a : Nat) : Holds s (s.holdAct d a) ∧ (d, a) ∈ (s.holdAct d a).heldActs := by
  unfold State.holdAct
  split
  · next h => exact ⟨Holds.refl s, List.contains_iff_mem.1 h⟩
  · exact ⟨s.withHeld_holds (d, a), List.mem_append_right _ List.mem_cons_self⟩

theorem State.breach_holds (s : State) (d act kind : Nat) : Holds s (s.breach d act kind) ∧ (d, act) ∈ (s.breach d act kind).heldActs := by
  unfold State.breach
  extract_lets u v w
  have hw : Holds s (w.event d BOX_EVENT_BREACH) :=
    (((s.setFld_housekept d _ _).holds.trans (u.setFld_housekept d _ _).holds).trans (v.setFld_housekept d _ _).holds).trans (w.event_housekept d _).holds
  clear_value w
  obtain ⟨h1, h2⟩ := (w.event d BOX_EVENT_BREACH).holdAct_holds d act
  exact ⟨hw.trans h1, h2⟩

theorem Holds.certOf {s t : State} (h : Holds s t) (a k p : Nat) : t.certOf a k p = s.certOf a k p := by
  rw [State.certOf, State.certOf, h.admitted]

theorem Holds.useOf {s t : State} (h : Holds s t) (a k p : Nat) : t.useOf a k p = s.useOf a k p := by
  rw [State.useOf, State.useOf, h.used]

/-- An act that used more than its certificate of a kind at a place is held on the die of its meter (R57). -/
def State.breachAt (s : State) (p : Nat × Nat × Nat × Nat) : State :=
  if s.certOf p.1 p.2.1 p.2.2.1 < s.useOf p.1 p.2.1 p.2.2.1 then s.breach (meterDie p.2.1 p.2.2.1) p.1 p.2.1 else s

theorem State.breachAt_holds (s : State) (p : Nat × Nat × Nat × Nat) : Holds s (s.breachAt p) ∧
    (s.certOf p.1 p.2.1 p.2.2.1 < s.useOf p.1 p.2.1 p.2.2.1 → (meterDie p.2.1 p.2.2.1, p.1) ∈ (s.breachAt p).heldActs) := by
  unfold State.breachAt
  split
  · exact ⟨(s.breach_holds _ _ _).1, fun _ => (s.breach_holds _ _ _).2⟩
  · next h => exact ⟨Holds.refl s, fun h' => absurd h' h⟩

theorem State.breachesOf_hold (l : List (Nat × Nat × Nat × Nat)) : ∀ s : State, Holds s (l.foldl State.breachAt s) ∧
    ∀ p ∈ l, s.certOf p.1 p.2.1 p.2.2.1 < s.useOf p.1 p.2.1 p.2.2.1 →
      (meterDie p.2.1 p.2.2.1, p.1) ∈ (l.foldl State.breachAt s).heldActs := by
  induction l with
  | nil => exact fun s => ⟨Holds.refl s, fun _ h => absurd h List.not_mem_nil⟩
  | cons x l ih =>
    intro s
    obtain ⟨h1, h2⟩ := s.breachAt_holds x
    rw [List.foldl_cons]
    generalize s.breachAt x = u at h1 h2 ⊢
    obtain ⟨k1, k2⟩ := ih u
    refine ⟨h1.trans k1, fun p hp hlt => ?_⟩
    obtain rfl | hp := List.mem_cons.1 hp
    · exact k1.held _ (h2 hlt)
    · exact k2 p hp (by rw [h1.certOf, h1.useOf]; exact hlt)

theorem State.breaches_hold (s : State) {p : Nat × Nat × Nat × Nat} (hp : p ∈ s.used)
    (h : s.certOf p.1 p.2.1 p.2.2.1 < s.useOf p.1 p.2.1 p.2.2.1) : (meterDie p.2.1 p.2.2.1, p.1) ∈ s.breaches.heldActs :=
  (State.breachesOf_hold s.used s).2 p hp h

-- an act released, and the box office enabled

theorem actRelease_releases (s : State) (r : Requester) (d act : Nat) : Yields (exec (.actRelease r d act) s) (fun t =>
    (d, act % 4096) ∉ t.heldActs ∧ t.regs = s.regs ∧ ∀ p : Nat × Nat, p ≠ (d, act % 4096) → (p ∈ t.heldActs ↔ p ∈ s.heldActs)) := by
  rw [exec_actRelease, execActRelease]
  refine yields_done ⟨fun h => ?_, rfl, fun p hp => ?_⟩
  · have := (List.mem_filter.1 h).2
    simp at this
  · refine List.mem_filter.trans ⟨fun h => h.1, fun h => ⟨h, ?_⟩⟩
    rw [Bool.not_eq_true', Bool.and_eq_false_iff, beq_eq_false_iff_ne, beq_eq_false_iff_ne, ← not_and_or]
    exact fun e => hp (Prod.ext e.1 e.2)

theorem boxEnable_enables (s : State) (r : Requester) {d : Nat} (v : Bool) (hd : d < 8) :
    (v = false ∨ (List.range 8).any s.hbmPromised = false → Yields (exec (.boxEnable r d v) s) (fun t =>
      t.flag d BOX_CTRL_EN = v ∧ RegOnly s t d BOX_CTRL_EN.off)) ∧
    (v = true → (List.range 8).any s.hbmPromised = true → Yields (exec (.boxEnable r d v) s) (fun t =>
      t.flag 0 PWR_EVENT_CFG = true ∧ t.flag d BOX_CTRL_EN = s.flag d BOX_CTRL_EN)) := by
  rw [exec_boxEnable, execBoxEnable, if_pos hd, State.boxEnable]
  refine ⟨fun h => ?_, fun hv h => ?_⟩
  · have hc : (v && (List.range 8).any s.hbmPromised) = false := by
      obtain h | h := h <;> rw [h]
      · rfl
      · exact Bool.and_false v
    rw [hc, if_neg Bool.false_ne_true]
    refine yields_done ⟨?_, s.setFld_regOnly d BOX_CTRL_EN _⟩
    rw [State.settle_flag, State.flag, s.fld_setFld d BOX_CTRL_EN (b2n v) ⟨by decide, by decide⟩]
    cases v <;> rfl
  · rw [hv, h, Bool.and_true, if_pos rfl]
    refine yields_done ⟨?_, ?_⟩
    · rw [State.settle_flag]
      exact s.flag_event 0 PWR_EVENT_CFG (by decide) rfl
    · rw [State.settle_flag]
      exact (s.event_but (fun off => off != BOX_CTRL_EN.off) 0 PWR_EVENT_CFG (by decide) (by decide) fun off ho => by
        rw [bne_iff_ne]
        rintro rfl
        exact absurd ho (by decide)).flag d (by decide) (by decide)

end Sys2Proof.Machine
end

section
/-! The refresh bursts (R59, R439): while one lasts, time charges no budget. -/

namespace Sys2Proof.Machine

/-- What the time of no reset leaves: the cores, memory, and the stage of a reset. -/
def State.standing (s : State) : SMap Core × SMap Byte × Nat := (s.cores, s.mem, s.softStage)

theorem Light.standing {s t : State} (h : Light s t) : t.standing = s.standing := h.same State.standing fun _ _ _ _ => rfl
theorem Metered.standing {s t : State} (h : Metered s t) : t.standing = s.standing := h.same State.standing fun _ _ _ => rfl
theorem State.fabIn_standing (s : State) (a) : ({ s with fabIn := a } : State).standing = s.standing := rfl
theorem State.setLink_standing (s : State) (d : Nat) (l : PortLink) : (s.setLink d l).standing = s.standing := rfl
theorem State.now_standing (s : State) (a : Nat) : ({ s with now := a } : State).standing = s.standing := rfl
theorem State.upTime_standing (s : State) (a b : Nat) : ({ s with now := a, upTime := b } : State).standing = s.standing := rfl
theorem State.egrSettled_standing (s : State) (d k : Nat) : (s.egrSettled d k).standing = s.standing := rfl
theorem State.setHostBytes_standing (s : State) (a : Nat) (b : List Byte) (psn : Bool) : (s.setHostBytes a b psn).standing = s.standing := rfl

theorem State.linkDown_standing (s : State) (d : Nat) : (s.linkDown d).standing = s.standing := by
  unfold State.linkDown
  split
  · extract_lets u l start v w
    have hu : u.standing = s.standing := (State.setFld_light _ d _ 0).standing.trans (s.setFld_light d _ 0).standing
    clear_value u
    have hv : v.standing = s.standing := (u.setLink_standing _ _).trans hu
    clear_value v
    have hw : w.standing = s.standing := (v.fabIn_standing _).trans hv
    clear_value w
    exact (State.count_light _ 3 d 2 32 1).standing.trans ((w.event_light d _).standing.trans hw)
  · rfl

theorem State.ackLimits_standing (s : State) (a : Nat) : (s.ackLimits a).standing = s.standing := by
  unfold State.ackLimits
  refine State.foldl_same _ State.standing (fun u d => ?_) _ s
  split
  · exact u.linkDown_standing d
  · rfl

theorem State.msix_standing (s : State) (d v : Nat) : (s.msix d v).standing = s.standing := by
  have hc : (s.carry none d 0 4).standing = s.standing := (s.carry_metered none d 0 4).standing
  have hp (u : State) : (u.msixPend v).standing = u.standing := rfl
  have hev (u : State) : (u.event 0 MSH_EVENT_UNMAPPED).standing = u.standing := (u.event_light 0 _).standing
  have hem (u : State) : (u.emit (.msix v)).standing = u.standing := rfl
  unfold State.msix
  generalize s.carry none d 0 4 = u at hc
  dsimp only
  split
  · exact (hev _).trans ((hp u).trans hc)
  · split
    · exact (hem u).trans hc
    · exact (hp u).trans hc

theorem State.egrComplete_standing (s : State) (d k : Nat) (psn : Bool) : (s.egrComplete d k psn).standing = s.standing := by
  by_cases h : s.egrOwes d k = true ∧ s.pcie.bme = true ∧ s.linkUp = true
  · obtain ⟨ho, hb, hl⟩ := h
    rw [s.egrComplete_some d k psn ho hb hl]
    have hc : (s.egrCompleted d k psn).standing = s.standing := by
      rw [State.egrCompleted, State.egrSettled_standing, State.setHostBytes_standing]
      exact (s.carry_metered none d 0 16).standing
    generalize s.egrCompleted d k psn = t at hc
    split
    · exact (t.msix_standing d _).trans hc
    · exact hc
  · rw [s.egrComplete_none d k psn (by simpa [← Bool.not_eq_true, imp_iff_not_or, -not_and, not_and_or] using h)]

theorem State.egrForce_standing (s : State) (a : Nat) : (s.egrForce a).standing = s.standing := by
  rw [State.egrForce_eq]
  exact (State.now_standing _ _).trans (State.foldl_same _ State.standing
    (fun u e => (State.egrComplete_standing _ _ _ _).trans (u.now_standing _)) _ s)

theorem State.spend_standing (s : State) (n : Nat) : (s.spend n).mem = s.mem ∧ (s.spend n).softStage = s.softStage ∧
    (s.refreshOn = true → (s.spend n).cores = s.cores) := by
  unfold State.spend
  split
  · exact ⟨rfl, rfl, fun _ => rfl⟩
  · next h => exact ⟨rfl, rfl, fun h' => absurd h' h⟩

/-- With no reset under way the time keeps memory, and in a refresh burst the budgets too (R59). -/
theorem State.tick_standing (s : State) (a : Nat) (h : s.softStage = 0) : (s.tick a).mem = s.mem ∧ (s.tick a).softStage = 0 ∧
    (s.refreshOn = true → (s.tick a).cores = s.cores) := by
  unfold State.tick
  split
  · exact ⟨rfl, h, fun _ => rfl⟩
  · extract_lets n t
    obtain ⟨p1, p2, p3⟩ := s.spend_standing n
    have ht : t.standing = (s.spend n).standing := by
      dsimp only [t]
      rw [State.softPass_none _ a (p2.trans h), State.ackLimits_standing, State.egrForce_standing]
    clear_value t
    have hx := (t.upTime_standing a (s.upTime + (a - s.now))).trans ht
    generalize ({ t with now := a, upTime := s.upTime + (a - s.now) } : State) = x at hx ⊢
    obtain ⟨x1, x2⟩ := Prod.mk.inj hx
    obtain ⟨x2, x3⟩ := Prod.mk.inj x2
    exact ⟨x2.trans p1, x3.trans (p2.trans h), fun hr => x1.trans (p3 hr)⟩

/-- The refresh on or off. -/
def State.withRefresh (s : State) (b : Bool) : State := { s with refreshOn := b }

theorem State.withRefresh_dial (s : State) (b : Bool) : (s.withRefresh b).dial = { s.dial with refreshOn := b } := rfl
theorem State.withRefresh_standing (s : State) (b : Bool) : (s.withRefresh b).cores = s.cores ∧ (s.withRefresh b).mem = s.mem ∧
    (s.withRefresh b).softStage = s.softStage ∧ (s.withRefresh b).refreshOn = b := ⟨rfl, rfl, rfl, rfl⟩

theorem refreshBurst_refreshes {s : State} {a : Nat} (ha : s.now ≤ a) (hr : s.refreshOn = false) (hb : (s.tick a).burstAt a = true) :
    Yields (exec (.refreshBurst a) s) (fun t => t.now = a + 8000 ∧ t.refreshOn = false ∧
      (s.softStage = 0 → t.cores = (s.tick a).cores ∧ MemSame s t)) := by
  have hnow : (s.tick a).now = a := (s.tick_now a).trans (Nat.max_eq_right ha)
  have hexec : exec (.refreshBurst a) s = done ((((s.tick a).withRefresh true).tick (a + 8000)).withRefresh false) := by
    rw [exec_refreshBurst, execRefreshBurst]
    refine congrArg done (if_pos ?_)
    rw [hb, hnow, s.tick_refreshOn, hr, decide_eq_true rfl]
    rfl
  have hstand := s.tick_standing a
  rw [hexec]
  generalize s.tick a = u at *
  obtain ⟨c1, c2, c3, c4⟩ := u.withRefresh_standing true
  have htime : ((u.withRefresh true).tick (a + 8000)).now = a + 8000 := by
    rw [State.tick_now, show (u.withRefresh true).now = a from (congrArg Dial.now (u.withRefresh_dial true)).trans hnow]
    omega
  have hst := (u.withRefresh true).tick_standing (a + 8000)
  generalize (u.withRefresh true).tick (a + 8000) = v at *
  obtain ⟨d1, d2, -, d4⟩ := v.withRefresh_standing false
  refine yields_done ⟨(congrArg Dial.now (v.withRefresh_dial false)).trans htime, d4, fun hs => ?_⟩
  obtain ⟨m1, m2, -⟩ := hstand hs
  obtain ⟨n1, -, n3⟩ := hst (c3.trans m2)
  exact ⟨d1.trans ((n3 c4).trans c1), memSame_of_mem (d2.trans (n1.trans (c2.trans m1)))⟩

end Sys2Proof.Machine
end

section
/-! A slice of the box office as it decides: refusals, charges, and where a step goes (R45, R46, R51, R64). -/

namespace Sys2Proof.Machine

-- sets of sites stand in their order

theorem mem_of_mem_setAdd {l : List Nat} {n k : Nat} (h : k ∈ setAdd l n) : k = n ∨ k ∈ l := by
  induction l with
  | nil => exact .inl (List.mem_singleton.1 h)
  | cons a l ih =>
    rw [setAdd] at h
    split at h
    · exact (List.mem_cons.1 h).imp_right id
    · split at h
      · exact .inr h
      · obtain rfl | h := List.mem_cons.1 h
        · exact .inr List.mem_cons_self
        · exact (ih h).imp_right (List.mem_cons_of_mem a)

theorem setAdd_ascending {l : List Nat} (n : Nat) (h : l.Pairwise (· < ·)) : (setAdd l n).Pairwise (· < ·) := by
  induction l with
  | nil => exact List.pairwise_singleton _ n
  | cons a l ih =>
    obtain ⟨ha, hl⟩ := List.pairwise_cons.1 h
    rw [setAdd]
    split
    · next hn => exact List.pairwise_cons.2 ⟨List.forall_mem_cons.2 ⟨hn, fun b hb => hn.trans (ha b hb)⟩, h⟩
    · split
      · exact h
      · refine List.pairwise_cons.2 ⟨fun b hb => ?_, ih hl⟩
        obtain rfl | hb := mem_of_mem_setAdd hb
        · omega
        · exact ha b hb

/-- The members of an act's cast stand in ascending order. -/
theorem State.members_ascending (s : State) (d act at_ : Nat) : (s.members d act at_).Pairwise (· < ·) := by
  have h (l : List Nat) : ∀ m : List Nat, m.Pairwise (· < ·) → (l.foldl setAdd m).Pairwise (· < ·) := by
    induction l with
    | nil => exact fun _ hm => hm
    | cons a l ih => exact fun m hm => ih _ (setAdd_ascending a hm)
  unfold State.members
  dsimp only
  split
  · exact h _ [] List.Pairwise.nil
  · exact List.Pairwise.nil

-- the charges of a request

namespace Slice
variable (x : Slice) (cap : Nat → Nat) (share cls : Nat)

/-- A charge over its class share of a budget (R51). -/
def Above (c : Nat × Nat × Nat) : Prop := share * cap (c.1 / 2048) < (get 0 x.byClass (c.1 * 8 + cls) + c.2.1) * 256

/-- A charge over what is left of a budget (R51). -/
def Spent (c : Nat × Nat × Nat) : Prop := cap (c.1 / 2048) < get 0 x.used c.1 + c.2.1

variable {x cap share cls}

theorem refusal_cons {c : Nat × Nat × Nat} (h1 : ¬ x.Above cap share cls c) (h2 : ¬ x.Spent cap c) (l : List (Nat × Nat × Nat)) :
    x.refusal cap share cls (c :: l) = x.refusal cap share cls l := (if_neg h1).trans (if_neg h2)

theorem refusal_within {l : List (Nat × Nat × Nat)} (h : ∀ y ∈ l, ¬ x.Above cap share cls y ∧ ¬ x.Spent cap y) :
    x.refusal cap share cls l = none := by
  induction l with
  | nil => rfl
  | cons c l ih =>
    obtain ⟨h1, h2⟩ := h c List.mem_cons_self
    rw [refusal_cons h1 h2]
    exact ih fun y hy => h y (List.mem_cons_of_mem _ hy)

/-- The first charge that is too much refuses (R51). -/
theorem refusal_first {l₁ l₂ : List (Nat × Nat × Nat)} {c : Nat × Nat × Nat} (h : ∀ y ∈ l₁, ¬ x.Above cap share cls y ∧ ¬ x.Spent cap y) :
    (x.Above cap share cls c → x.refusal cap share cls (l₁ ++ c :: l₂) = some 0xB) ∧
    (¬ x.Above cap share cls c → x.Spent cap c → x.refusal cap share cls (l₁ ++ c :: l₂) = some c.2.2) := by
  induction l₁ with
  | nil =>
    exact ⟨fun ha => if_pos ha, fun ha hs => (if_neg ha).trans (if_pos hs)⟩
  | cons y l ih =>
    obtain ⟨h1, h2⟩ := h y List.mem_cons_self
    rw [List.cons_append, refusal_cons h1 h2]
    exact ih fun y hy => h y (List.mem_cons_of_mem _ hy)

/-- One charge to a budget and to its class. -/
def chargeOne (x : Slice) (cls : Nat) (c : Nat × Nat × Nat) : Slice :=
  { x.use c.1 c.2.1 with byClass := put 0 x.byClass (c.1 * 8 + cls) (get 0 x.byClass (c.1 * 8 + cls) + c.2.1) }

theorem charge_cons (x : Slice) (cls : Nat) (c : Nat × Nat × Nat) (l : List (Nat × Nat × Nat)) :
    x.charge cls (c :: l) = (x.chargeOne cls c).charge cls l := rfl

theorem chargeOne_same (x : Slice) (cls : Nat) (c : Nat × Nat × Nat) : get 0 (x.chargeOne cls c).used c.1 = get 0 x.used c.1 + c.2.1 ∧
    get 0 (x.chargeOne cls c).byClass (c.1 * 8 + cls) = get 0 x.byClass (c.1 * 8 + cls) + c.2.1 :=
  ⟨get_put_same 0 x.used c.1 _, get_put_same 0 x.byClass _ _⟩

theorem chargeOne_other (x : Slice) (cls : Nat) (c : Nat × Nat × Nat) {k : Nat} (h : k ≠ c.1) :
    get 0 (x.chargeOne cls c).used k = get 0 x.used k ∧ get 0 (x.chargeOne cls c).byClass (k * 8 + cls) = get 0 x.byClass (k * 8 + cls) :=
  ⟨get_put_ne 0 x.used h _, get_put_ne 0 x.byClass (by omega) _⟩

theorem charge_other (cls : Nat) {k : Nat} : ∀ (l : List (Nat × Nat × Nat)) (x : Slice), (∀ c ∈ l, k ≠ c.1) →
    get 0 (x.charge cls l).used k = get 0 x.used k ∧ get 0 (x.charge cls l).byClass (k * 8 + cls) = get 0 x.byClass (k * 8 + cls)
  | [], _, _ => ⟨rfl, rfl⟩
  | c :: l, x, h => by
    obtain ⟨h1, h2⟩ := x.chargeOne_other cls c (h c List.mem_cons_self)
    obtain ⟨k1, k2⟩ := charge_other cls l (x.chargeOne cls c) fun y hy => h y (List.mem_cons_of_mem c hy)
    rw [charge_cons]
    exact ⟨k1.trans h1, k2.trans h2⟩

/-- Charges to different budgets add up each on its own. -/
theorem charge_each (cls : Nat) : ∀ (l : List (Nat × Nat × Nat)) (x : Slice), (l.map Prod.fst).Nodup → ∀ c ∈ l,
    get 0 (x.charge cls l).used c.1 = get 0 x.used c.1 + c.2.1 ∧
    get 0 (x.charge cls l).byClass (c.1 * 8 + cls) = get 0 x.byClass (c.1 * 8 + cls) + c.2.1
  | [], _, _, _, h => absurd h List.not_mem_nil
  | a :: l, x, hn, c, hc => by
    rw [List.map_cons, List.nodup_cons] at hn
    have hne {y : Nat × Nat × Nat} (hy : y ∈ l) : a.1 ≠ y.1 := fun e => hn.1 (e ▸ List.mem_map_of_mem hy)
    rw [charge_cons]
    obtain rfl | hc := List.mem_cons.1 hc
    · obtain ⟨h1, h2⟩ := x.chargeOne_same cls c
      obtain ⟨k1, k2⟩ := charge_other cls l (x.chargeOne cls c) fun y hy => hne hy
      exact ⟨k1.trans h1, k2.trans h2⟩
    · obtain ⟨h1, h2⟩ := x.chargeOne_other cls a (hne hc).symm
      obtain ⟨k1, k2⟩ := charge_each cls l (x.chargeOne cls a) hn.2 c hc
      rw [h1] at k1
      rw [h2] at k2
      exact ⟨k1, k2⟩

theorem charge_batches (cls : Nat) : ∀ (l : List (Nat × Nat × Nat)) (x : Slice), (x.charge cls l).batches = x.batches
  | [], _ => rfl
  | c :: l, x => (charge_batches cls l (x.chargeOne cls c)).trans rfl

end Slice

/-- The seven budgets of a step differ, its site being one of the module's. -/
theorem stepCharges_nodup (e : Nat) {site : Nat} (fresh : Bool) (h : site < 2048) : ((stepCharges e site fresh).map Prod.fst).Nodup := by
  simp only [stepCharges, budKey, List.map_cons, List.map_nil, List.nodup_cons, List.mem_cons, List.not_mem_nil, or_false, not_or,
    List.nodup_nil, and_true, not_false_iff]
  omega

end Sys2Proof.Machine
end

section
/-! Where a step goes: the fullest open batch that takes it, a new one on the member with the most cycles left, or the next dealt (R64). -/

namespace Sys2Proof.Machine

-- the first of the best

section Best
variable {α : Type} (r : α → α → Prop) [DecidableRel r]

/-- The first in a list before which, by a relation, no other comes: the one in hand, unless another comes before it. -/
def firstBest (p : α) (l : List α) : α := l.foldl (fun m q => if r q m then q else m) p

variable {r}

theorem firstBest_mem (p : α) (l : List α) : firstBest r p l ∈ p :: l := by
  induction l generalizing p with
  | nil => exact List.mem_cons_self
  | cons q l ih =>
    have he : firstBest r p (q :: l) = firstBest r (if r q p then q else p) l := rfl
    obtain h | h := List.mem_cons.1 (ih (if r q p then q else p))
    · rw [he, h]
      split <;> simp
    · rw [he]
      exact List.mem_cons_of_mem _ (List.mem_cons_of_mem _ h)

/-- The first stays where none comes before it. -/
theorem firstBest_stays {p : α} {l : List α} (h : ∀ q ∈ l, ¬ r q p) : firstBest r p l = p := by
  induction l with
  | nil => rfl
  | cons q l ih =>
    rw [firstBest, List.foldl_cons, if_neg (h q List.mem_cons_self)]
    exact ih fun y hy => h y (List.mem_cons_of_mem q hy)

/-- One that comes before all that stand ahead of it, and that none behind comes before, is the best wherever it stands. -/
theorem firstBest_eq {p q : α} {l l₁ l₂ : List α} (hl : p :: l = l₁ ++ q :: l₂) (h1 : ∀ y ∈ l₁, r q y) (h2 : ∀ y ∈ l₂, ¬ r y q) :
    firstBest r p l = q := by
  cases l₁ with
  | nil =>
    obtain ⟨rfl, rfl⟩ := List.cons.inj hl
    exact firstBest_stays h2
  | cons a l₁ =>
    obtain ⟨rfl, rfl⟩ := List.cons.inj hl
    have hq := h1 _ (firstBest_mem (r := r) p l₁)
    rw [List.append_eq, firstBest, List.foldl_append, List.foldl_cons]
    rw [firstBest] at hq
    rw [if_pos hq]
    exact firstBest_stays h2

end Best

namespace Slice

-- an open batch that takes a step

/-- A step joins the batch at a place. -/
theorem addTo_batches (x : Slice) {i : Nat} {b : OpenBatch} (h : x.batches[i]? = some b) (stream u : Nat) :
    (x.addTo i stream u).batches = x.batches.set i { b with streams := b.streams ++ [stream], units := b.units + u } := by
  refine List.ext_getElem? fun j => ?_
  have hi : i < x.batches.length := (List.getElem?_eq_some_iff.1 h).1
  show ((x.batches.zip (List.range x.batches.length)).map _)[j]? = _
  rw [List.getElem?_map, List.getElem?_set]
  by_cases hj : j < x.batches.length
  · have hz : (x.batches.zip (List.range x.batches.length))[j]? = some (x.batches[j], j) := by
      rw [List.getElem?_zip_eq_some]
      exact ⟨List.getElem?_eq_getElem hj, by rw [List.getElem?_range hj]⟩
    rw [hz, Option.map_some]
    dsimp only
    by_cases hij : i = j
    · subst hij
      rw [if_pos rfl, if_pos hi, if_pos rfl, (List.getElem?_eq_some_iff.1 h).2]
    · rw [if_neg hij, if_neg (Ne.symm hij), List.getElem?_eq_getElem hj]
  · have hij : i ≠ j := by omega
    rw [if_neg hij, List.getElem?_eq_none (by rw [List.length_zip, List.length_range]; omega), List.getElem?_eq_none (by omega)]
    rfl

theorem addTo_keeps (x : Slice) (i stream u : Nat) : (x.addTo i stream u).used = x.used ∧ (x.addTo i stream u).byClass = x.byClass ∧
    (x.addTo i stream u).left = x.left := ⟨rfl, rfl, rfl⟩

/-- Whether an open batch takes a step of an act. -/
def takes (act u max size : Nat) (b : OpenBatch) : Bool := b.act == act && decide (b.streams.length < max) && decide (b.units + u ≤ size)

/-- One batch comes before another in the choice: fuller, or as full and on a lower site. -/
abbrev Before (b c : OpenBatch) : Prop := c.streams.length < b.streams.length ∨ (c.streams.length = b.streams.length ∧ b.site < c.site)

/-- The batches that take a step, with their places. -/
def candidates (x : Slice) (act u max size : Nat) : List (OpenBatch × Nat) :=
  (x.batches.zip (List.range x.batches.length)).filter (fun p => takes act u max size p.1)

theorem mem_zip_range {l : List OpenBatch} {p : OpenBatch × Nat} : p ∈ l.zip (List.range l.length) ↔ l[p.2]? = some p.1 := by
  rw [List.mem_iff_getElem?]
  constructor
  · rintro ⟨j, hj⟩
    obtain ⟨h1, h2⟩ := List.getElem?_zip_eq_some.1 hj
    have hlt : j < l.length := (List.getElem?_eq_some_iff.1 h1).1
    rw [List.getElem?_range hlt] at h2
    rw [← Option.some.inj h2]
    exact h1
  · intro h
    have hlt : p.2 < l.length := (List.getElem?_eq_some_iff.1 h).1
    exact ⟨p.2, List.getElem?_zip_eq_some.2 ⟨h, List.getElem?_range hlt⟩⟩

theorem mem_candidates {x : Slice} {act u max size : Nat} {p : OpenBatch × Nat} :
    p ∈ x.candidates act u max size ↔ x.batches[p.2]? = some p.1 ∧ takes act u max size p.1 = true := by
  rw [candidates, List.mem_filter, mem_zip_range]

/-- The candidates stand in the order their batches were opened. -/
theorem candidates_ordered (x : Slice) (act u max size : Nat) : (x.candidates act u max size).Pairwise (fun p q => p.2 < q.2) := by
  refine List.Pairwise.filter _ (List.pairwise_map.1 ?_)
  rw [List.map_snd_zip (by rw [List.length_range])]
  exact List.pairwise_lt_range

theorem openFor_of_nil {x : Slice} {act u max size : Nat} (h : x.candidates act u max size = []) : x.openFor act u max size = none := by
  unfold Slice.openFor
  extract_lets l
  have hl : l = [] := h
  rw [hl]

theorem openFor_of_cons {x : Slice} {act u max size : Nat} {p : OpenBatch × Nat} {t : List (OpenBatch × Nat)}
    (h : x.candidates act u max size = p :: t) : x.openFor act u max size = some (firstBest (fun a b : OpenBatch × Nat => Before a.1 b.1) p t).2 := by
  unfold Slice.openFor
  extract_lets l
  have hl : l = p :: t := h
  rw [hl]
  rfl

theorem openFor_none {x : Slice} {act u max size : Nat} (h : ∀ b ∈ x.batches, takes act u max size b = false) :
    x.openFor act u max size = none := by
  refine openFor_of_nil (List.filter_eq_nil_iff.2 fun p hp => ?_)
  rw [h p.1 (List.mem_of_getElem? (mem_zip_range.1 hp))]
  exact Bool.false_ne_true

/-- The fullest batch that takes a step is chosen, of equals that on the lowest site, and of those the first opened (R64). -/
theorem openFor_best {x : Slice} {act u max size i : Nat} {b : OpenBatch} (hb : x.batches[i]? = some b) (ht : takes act u max size b = true)
    (h : ∀ (j : Nat) (c : OpenBatch), x.batches[j]? = some c → takes act u max size c = true → Before b c ∨
      (c.streams.length = b.streams.length ∧ b.site = c.site ∧ i ≤ j)) : x.openFor act u max size = some i := by
  obtain ⟨l₁, l₂, hl⟩ := List.append_of_mem (mem_candidates.2 ⟨hb, ht⟩ : (b, i) ∈ x.candidates act u max size)
  have hord := x.candidates_ordered act u max size
  have hall (y : OpenBatch × Nat) (hy : y ∈ x.candidates act u max size) := h y.2 y.1 (mem_candidates.1 hy).1 (mem_candidates.1 hy).2
  rw [hl] at hord hall
  obtain ⟨-, ho2, ho1⟩ := List.pairwise_append.1 hord
  have h1 (y : OpenBatch × Nat) (hy : y ∈ l₁) : Before b y.1 := by
    have := ho1 y hy (b, i) List.mem_cons_self
    obtain hb | ⟨-, -, hle⟩ := hall y (List.mem_append_left _ hy)
    · exact hb
    · exact absurd hle (Nat.not_le.2 this)
  have h2 (y : OpenBatch × Nat) (hy : y ∈ l₂) : ¬ Before y.1 b := by
    obtain hb | hb := hall y (List.mem_append_right _ (List.mem_cons_of_mem _ hy))
    · unfold Before at *
      omega
    · unfold Before
      omega
  cases hc : x.candidates act u max size with
  | nil => exact absurd (hl.symm.trans hc) (by simp)
  | cons p t => rw [openFor_of_cons hc, firstBest_eq (hc.symm.trans hl) h1 h2]

-- a new batch, and the next member dealt

/-- The member with the most cycles left, of equals the first in order (R64). -/
theorem freest_best {x : Slice} {ms : List Nat} (hms : ms.Pairwise (· < ·)) {m : Nat} (hm : m ∈ ms)
    (h : ∀ k ∈ ms, get 0 x.used (budKey 0 m) < get 0 x.used (budKey 0 k) ∨
      (get 0 x.used (budKey 0 m) = get 0 x.used (budKey 0 k) ∧ m ≤ k)) : x.freest ms = some m := by
  obtain ⟨l₁, l₂, hl⟩ := List.append_of_mem hm
  rw [hl] at hms h
  obtain ⟨-, -, ho⟩ := List.pairwise_append.1 hms
  have h1 (y : Nat) (hy : y ∈ l₁) : get 0 x.used (budKey 0 m) < get 0 x.used (budKey 0 y) := by
    have := ho y hy m List.mem_cons_self
    have := h y (List.mem_append_left _ hy)
    omega
  have h2 (y : Nat) (hy : y ∈ l₂) : ¬ get 0 x.used (budKey 0 y) < get 0 x.used (budKey 0 m) := by
    have := h y (List.mem_append_right _ (List.mem_cons_of_mem _ hy))
    omega
  cases ms with
  | nil => exact absurd hl (by simp)
  | cons p t => exact congrArg some (firstBest_eq (r := fun a b => get 0 x.used (budKey 0 a) < get 0 x.used (budKey 0 b)) hl h1 h2)

/-- Whether a member has an open batch of an act that takes a step. -/
def deals (x : Slice) (act u size : Nat) (ms : List Nat) (i : Nat) : Bool :=
  match ms[i]? with
  | some st => x.batches.any (fun b => b.act == act && b.site == st && decide (b.units + u ≤ size))
  | none => false

theorem deals_iff {x : Slice} {act u size : Nat} {ms : List Nat} {i : Nat} : x.deals act u size ms i = true ↔
    ∃ st, ms[i]? = some st ∧ ∃ b ∈ x.batches, b.act = act ∧ b.site = st ∧ b.units + u ≤ size := by
  unfold deals
  cases ms[i]? with
  | none => simp
  | some st => simp only [List.any_eq_true, Bool.and_eq_true, beq_iff_eq, decide_eq_true_eq, Option.some.injEq, exists_eq_left', and_assoc]

/-- The members in the order of the dealing: each once, from the one after the last dealt. -/
def dealOrder (n from_ : Nat) : List Nat := (List.range n).map (fun i => (from_ + i) % n)

theorem mem_dealOrder {n from_ i : Nat} (h : i < n) : i ∈ dealOrder n from_ := by
  refine List.mem_map.2 ⟨(i + (n - from_ % n)) % n, List.mem_range.2 (Nat.mod_lt _ (by omega)), ?_⟩
  have hlt : from_ % n < n := Nat.mod_lt _ (by omega)
  have he : from_ + (i + (n - from_ % n)) = i + n * (from_ / n + 1) := by
    have := Nat.div_add_mod from_ n
    rw [Nat.mul_add]
    omega
  rw [Nat.add_mod_mod, he, Nat.add_mul_mod_self_left, Nat.mod_eq_of_lt h]

/-- With no open batch of an act that takes a step, none is dealt. -/
theorem dealTo_none {x : Slice} {act stream u size : Nat} {ms : List Nat}
    (h : ∀ b ∈ x.batches, b.act = act → b.site ∈ ms → size < b.units + u) : x.dealTo act stream u size ms = none := by
  have hf : (dealOrder ms.length (get 0 x.deal act)).find? (x.deals act u size ms) = none := by
    refine List.find?_eq_none.2 fun i _ hi => ?_
    obtain ⟨st, hst, b, hb, ha, hs, hu⟩ := deals_iff.1 hi
    have := h b hb ha (hs ▸ List.mem_of_getElem? hst)
    omega
  unfold Slice.dealTo
  extract_lets n from_ order fit
  have hf' : order.find? fit = none := hf
  rw [hf']

/-- With an open batch of an act that takes a step, one is dealt to a member, and nothing is charged. -/
theorem dealTo_some {x : Slice} {act stream u size : Nat} {ms : List Nat}
    (h : ∃ b ∈ x.batches, b.act = act ∧ b.site ∈ ms ∧ b.units + u ≤ size) :
    ∃ y, ∃ site ∈ ms, x.dealTo act stream u size ms = some (y, site) ∧ y.used = x.used ∧ y.left = x.left := by
  obtain ⟨b, hb, ha, hs, hu⟩ := h
  obtain ⟨i, hi⟩ := List.mem_iff_getElem?.1 hs
  have hsome : ((dealOrder ms.length (get 0 x.deal act)).find? (x.deals act u size ms)).isSome = true :=
    List.find?_isSome.2 ⟨i, mem_dealOrder (List.getElem?_eq_some_iff.1 hi).1, deals_iff.2 ⟨b.site, hi, b, hb, ha, rfl, hu⟩⟩
  obtain ⟨j, hj⟩ := Option.isSome_iff_exists.1 hsome
  obtain ⟨st, hst, c, hc, hca, hcs, -⟩ := deals_iff.1 (List.find?_some hj)
  obtain ⟨k, hk⟩ := List.mem_iff_getElem?.1 hc
  have hfound : ((x.batches.zip (List.range x.batches.length)).find? (fun p => p.1.act == act && p.1.site == st)).isSome = true :=
    List.find?_isSome.2 ⟨(c, k), mem_zip_range.2 hk, by rw [hca, hcs, beq_self_eq_true, beq_self_eq_true]; rfl⟩
  obtain ⟨⟨e, m⟩, hm⟩ := Option.isSome_iff_exists.1 hfound
  unfold Slice.dealTo
  extract_lets n from_ order fit
  have hj' : order.find? fit = some j := hj
  rw [hj']
  dsimp only
  rw [hst, Option.getD_some]
  have hm' : (x.batches.zip (List.range x.batches.length)).find? (fun (b, _) => b.act == act && b.site == st) = some (e, m) := hm
  rw [hm']
  exact ⟨_, st, List.mem_of_getElem? hst, rfl, rfl, rfl⟩

end Slice

end Sys2Proof.Machine
end

section
/-! How the box office decides a request: the checks in their order (R45, R46, R51, R64). -/

namespace Sys2Proof.Machine

/-- A request of the host alone whose latest frame is passed (R64). -/
def State.tooLate (s : State) (q : Req) : Bool :=
  q.trig.isNone && q.cont.isNone && (match q.host with | some (_, _, l, _) => decide (l < s.frame + 1) | none => false)

theorem State.tooLate_iff (s : State) (q : Req) : s.tooLate q = true ↔
    (q.trig = none ∧ q.cont = none) ∧ ∃ c b l g, q.host = some (c, b, l, g) ∧ l < s.frame + 1 := by
  unfold State.tooLate
  rw [Bool.and_eq_true, Bool.and_eq_true, Option.isNone_iff_eq_none, Option.isNone_iff_eq_none]
  cases q.host with
  | none => simp
  | some h =>
    obtain ⟨c, b, l, g⟩ := h
    simp

section Test
variable {s : State} {x : Slice} {p code at_ : Nat} {q : Req}

theorem State.test_shut : s.test x true p code at_ q = (x, .refused 0xD) := rfl

theorem State.test_late (h : s.tooLate q = true) : s.test x false p code at_ q = (x, .refused 0xC) := by
  unfold State.test
  extract_lets st a e cls only late
  have hl : (only && late) = true := h
  rw [if_neg Bool.false_ne_true, if_pos hl]

section Timely
variable (h : s.tooLate q = false)
include h

theorem State.test_dead (hs : s.ent q.stream eLife ≠ 1) : s.test x false p code at_ q = (x, .refused 0x1) := by
  unfold State.test
  extract_lets st a e cls only late
  have hl : ¬ (only && late) = true := by rw [Bool.not_eq_true]; exact h
  rw [if_neg Bool.false_ne_true, if_neg hl, if_pos (.inl hs)]

/-- What a request is judged by once its stream lives. -/
structure Living (s : State) (q : Req) : Prop where
  timely : s.tooLate q = false
  life : s.ent q.stream eLife = 1
  spared : s.doomed.contains q.stream = false

omit h in
theorem State.test_barred (hl : Living s q) (hb : (!actV (s.act (s.actOfStream q.stream)) ||
      !bitOf (actCtxMask (s.act (s.actOfStream q.stream))) (s.ent q.stream eCtx) ||
      s.heldActs.contains (x.die, s.actOfStream q.stream)) = true) : s.test x false p code at_ q = (x, .refused 0x2) := by
  unfold State.test
  extract_lets st a e cls only late
  have h1 : ¬ (only && late) = true := by rw [Bool.not_eq_true]; exact hl.timely
  have h2 : ¬ (s.ent st eLife ≠ 1 ∨ s.doomed.contains st = true) := by
    rw [hl.spared]
    exact fun h => h.elim (fun h => h hl.life) Bool.false_ne_true
  rw [if_neg Bool.false_ne_true, if_neg h1, if_neg h2, if_pos hb]

end Timely

theorem Living.past (h : Living s q) : ¬ s.tooLate q = true ∧ ¬ (s.ent q.stream eLife ≠ 1 ∨ s.doomed.contains q.stream = true) := by
  rw [h.timely, h.spared]
  exact ⟨Bool.false_ne_true, fun h' => h'.elim (fun h' => h' h.life) Bool.false_ne_true⟩

/-- What a request is judged by once its act may run for it. -/
structure Admissible (s : State) (x : Slice) (q : Req) : Prop extends Living s q where
  valid : actV (s.act (s.actOfStream q.stream)) = true
  permitted : bitOf (actCtxMask (s.act (s.actOfStream q.stream))) (s.ent q.stream eCtx) = true
  free : s.heldActs.contains (x.die, s.actOfStream q.stream) = false

theorem Admissible.passes (h : Admissible s x q) : ¬ (!actV (s.act (s.actOfStream q.stream)) ||
    !bitOf (actCtxMask (s.act (s.actOfStream q.stream))) (s.ent q.stream eCtx) ||
    s.heldActs.contains (x.die, s.actOfStream q.stream)) = true := by
  rw [h.valid, h.permitted, h.free]
  exact Bool.false_ne_true

-- a request of a spanning act

section Span
variable (h : Admissible s x q) {e : Nat} (he : e = s.act (s.actOfStream q.stream)) (hs : actSpan e = true)
include h he hs

theorem State.test_span_spent (hl : get 0 x.left (s.actOfStream q.stream) = 0) : s.test x false p code at_ q = (x, .refused 0x5) := by
  subst he
  unfold State.test
  extract_lets st a e cls only late ms u size
  have h1 : ¬ (only && late) = true := h.past.1
  rw [if_neg Bool.false_ne_true, if_neg h1, if_neg h.past.2, if_neg h.passes, if_pos hs, if_pos hl]

theorem State.test_span_full (hl : get 0 x.left (s.actOfStream q.stream) ≠ 0) (hd : x.dealTo (s.actOfStream q.stream) q.stream
      (s.slotUnits q.stream e) (actStgSize e) (s.members x.die (s.actOfStream q.stream) at_) = none) :
    s.test x false p code at_ q = (x, .refused 0xE) := by
  subst he
  unfold State.test
  extract_lets st a e cls only late ms u size
  have h1 : ¬ (only && late) = true := h.past.1
  rw [if_neg Bool.false_ne_true, if_neg h1, if_neg h.past.2, if_neg h.passes, if_pos hs, if_neg hl, hd]

theorem State.test_span_dealt (hl : get 0 x.left (s.actOfStream q.stream) ≠ 0) {y : Slice} {site : Nat}
    (hd : x.dealTo (s.actOfStream q.stream) q.stream (s.slotUnits q.stream e) (actStgSize e)
      (s.members x.die (s.actOfStream q.stream) at_) = some (y, site)) : s.test x false p code at_ q =
    ({ y with left := put 0 y.left (s.actOfStream q.stream) (get 0 y.left (s.actOfStream q.stream) - 1) }, .placed site) := by
  subst he
  unfold State.test
  extract_lets st a e cls only late ms u size
  have h1 : ¬ (only && late) = true := h.past.1
  rw [if_neg Bool.false_ne_true, if_neg h1, if_neg h.past.2, if_neg h.passes, if_pos hs, if_neg hl, hd]

end Span

-- a request of an act on its die alone

section Plain
variable (h : Admissible s x q) {e : Nat} (he : e = s.act (s.actOfStream q.stream)) (hs : actSpan e = false)
include h he hs

theorem State.test_big (hu : actStgSize e < s.slotUnits q.stream e) : s.test x false p code at_ q = (x, .refused 0xE) := by
  subst he
  unfold State.test
  extract_lets st a e cls only late ms u size
  have h1 : ¬ (only && late) = true := h.past.1
  have h2 : ¬ actSpan e = true := by rw [Bool.not_eq_true]; exact hs
  rw [if_neg Bool.false_ne_true, if_neg h1, if_neg h.past.2, if_neg h.passes, if_neg h2, if_pos hu]

variable (hu : s.slotUnits q.stream e ≤ actStgSize e) {l : List (Nat × Nat × Nat)}
include hu

/-- Weighed in an open batch. -/
theorem State.test_open {i : Nat} {b : OpenBatch}
    (ho : x.openFor (s.actOfStream q.stream) (s.slotUnits q.stream e) (actBatchMax e) (actStgSize e) = some i) (hb : x.batches[i]? = some b)
    (hl : l = stepCharges e b.site false) : s.test x false p code at_ q =
      match x.refusal (fun b => s.capacity x.die b p code) (s.fld x.die (BOX_CLASS_SHARE_SHARE (s.reqClass q))) (s.reqClass q) l with
      | some c => (x, .refused c)
      | none => ((x.charge (s.reqClass q) l).addTo i q.stream (s.slotUnits q.stream e), .placed b.site) := by
  subst he
  unfold State.test
  extract_lets st a e cls only late ms u size cap share
  have h1 : ¬ (only && late) = true := h.past.1
  have h2 : ¬ actSpan e = true := by rw [Bool.not_eq_true]; exact hs
  have h3 : ¬ size < u := Nat.not_lt.2 hu
  have ho' : x.openFor a u (actBatchMax e) size = some i := ho
  rw [if_neg Bool.false_ne_true, if_neg h1, if_neg h.past.2, if_neg h.passes, if_neg h2, if_neg h3, ho']
  dsimp only
  rw [hb, Option.map_some, Option.getD_some]
  subst hl
  rfl

/-- Weighed in a new batch. -/
theorem State.test_fresh {m : Nat}
    (ho : x.openFor (s.actOfStream q.stream) (s.slotUnits q.stream e) (actBatchMax e) (actStgSize e) = none)
    (hm : x.freest (s.members x.die (s.actOfStream q.stream) at_) = some m)
    (hl : l = stepCharges e m true) : s.test x false p code at_ q =
      match x.refusal (fun b => s.capacity x.die b p code) (s.fld x.die (BOX_CLASS_SHARE_SHARE (s.reqClass q))) (s.reqClass q) l with
      | some c => (x, .refused c)
      | none => ({ x.charge (s.reqClass q) l with batches := (x.charge (s.reqClass q) l).batches ++
          [⟨s.actOfStream q.stream, m, [q.stream], s.slotUnits q.stream e⟩] }, .placed m) := by
  subst he
  unfold State.test
  extract_lets st a e cls only late ms u size cap share
  have h1 : ¬ (only && late) = true := h.past.1
  have h2 : ¬ actSpan e = true := by rw [Bool.not_eq_true]; exact hs
  have h3 : ¬ size < u := Nat.not_lt.2 hu
  have ho' : x.openFor a u (actBatchMax e) size = none := ho
  have hm' : x.freest ms = some m := hm
  rw [if_neg Bool.false_ne_true, if_neg h1, if_neg h.past.2, if_neg h.passes, if_neg h2, if_neg h3, ho']
  dsimp only
  rw [hm']
  dsimp only
  subst hl
  rfl

theorem State.test_nowhere
    (ho : x.openFor (s.actOfStream q.stream) (s.slotUnits q.stream e) (actBatchMax e) (actStgSize e) = none)
    (hm : x.freest (s.members x.die (s.actOfStream q.stream) at_) = none) : s.test x false p code at_ q = (x, .refused 0xE) := by
  subst he
  unfold State.test
  extract_lets st a e cls only late ms u size cap share
  have h1 : ¬ (only && late) = true := h.past.1
  have h2 : ¬ actSpan e = true := by rw [Bool.not_eq_true]; exact hs
  have h3 : ¬ size < u := Nat.not_lt.2 hu
  have ho' : x.openFor a u (actBatchMax e) size = none := ho
  have hm' : x.freest ms = none := hm
  rw [if_neg Bool.false_ne_true, if_neg h1, if_neg h.past.2, if_neg h.passes, if_neg h2, if_neg h3, ho']
  dsimp only
  rw [hm']

end Plain

end Test

end Sys2Proof.Machine
end

section
/-! A request weighed against its budgets (R45, R46, R51). -/

namespace Sys2Proof.Machine

/-- A request refused by the first charge that is too much, or charged at once to every budget and placed (R51). -/
structure Weighed (x : Slice) (cap : Nat → Nat) (share cls : Nat) (l : List (Nat × Nat × Nat)) (decided : Slice × Verdict) (site : Nat)
    (bs : List OpenBatch) : Prop where
  first : ∀ (l₁ l₂ : List (Nat × Nat × Nat)) (c : Nat × Nat × Nat), l = l₁ ++ c :: l₂ →
    (∀ y ∈ l₁, ¬ x.Above cap share cls y ∧ ¬ x.Spent cap y) →
    (x.Above cap share cls c → decided = (x, .refused 0xB)) ∧
    (¬ x.Above cap share cls c → x.Spent cap c → decided = (x, .refused c.2.2))
  placed : (∀ y ∈ l, ¬ x.Above cap share cls y ∧ ¬ x.Spent cap y) → decided.2 = .placed site ∧ decided.1.batches = bs ∧
    ∀ c ∈ l, get 0 decided.1.used c.1 = get 0 x.used c.1 + c.2.1 ∧
      get 0 decided.1.byClass (c.1 * 8 + cls) = get 0 x.byClass (c.1 * 8 + cls) + c.2.1

theorem weighed_of {x y : Slice} {cap : Nat → Nat} {share cls : Nat} {l : List (Nat × Nat × Nat)} {decided : Slice × Verdict} {site : Nat}
    {bs : List OpenBatch} (hr : ∀ c, x.refusal cap share cls l = some c → decided = (x, .refused c))
    (hp : x.refusal cap share cls l = none → decided = (y, .placed site)) (hbs : y.batches = bs) (hu : y.used = (x.charge cls l).used)
    (hc : y.byClass = (x.charge cls l).byClass) (hn : (l.map Prod.fst).Nodup) : Weighed x cap share cls l decided site bs := by
  refine ⟨fun l₁ l₂ c hl h => ?_, fun h => ?_⟩
  · subst hl
    obtain ⟨h1, h2⟩ := Slice.refusal_first (c := c) (l₂ := l₂) h
    exact ⟨fun ha => hr _ (h1 ha), fun ha hs => hr _ (h2 ha hs)⟩
  · rw [hp (Slice.refusal_within h)]
    refine ⟨rfl, hbs, fun c hcl => ?_⟩
    rw [hu, hc]
    exact Slice.charge_each cls l x hn c hcl

/-- A new batch opened with a step. -/
def Slice.opened (x : Slice) (act site stream u : Nat) : Slice := { x with batches := x.batches ++ [⟨act, site, [stream], u⟩] }

theorem Slice.opened_keeps (x : Slice) (act site stream u : Nat) :
    (x.opened act site stream u).batches = x.batches ++ [⟨act, site, [stream], u⟩] ∧ (x.opened act site stream u).used = x.used ∧
    (x.opened act site stream u).byClass = x.byClass := ⟨rfl, rfl, rfl⟩

section Plain
variable {s : State} {x : Slice} {p code at_ : Nat} {q : Req}
variable (h : Admissible s x q) {e : Nat} (he : e = s.act (s.actOfStream q.stream)) (hs : actSpan e = false)
  (hu : s.slotUnits q.stream e ≤ actStgSize e)
include h he hs hu

theorem State.test_open_weighed {i : Nat} {b : OpenBatch}
    (ho : x.openFor (s.actOfStream q.stream) (s.slotUnits q.stream e) (actBatchMax e) (actStgSize e) = some i) (hb : x.batches[i]? = some b)
    (hsite : b.site < 2048) :
    Weighed x (fun b => s.capacity x.die b p code) (s.fld x.die (BOX_CLASS_SHARE_SHARE (s.reqClass q))) (s.reqClass q)
      (stepCharges e b.site false) (s.test x false p code at_ q) b.site
      (x.batches.set i { b with streams := b.streams ++ [q.stream], units := b.units + s.slotUnits q.stream e }) := by
  have ht := State.test_open (p := p) (code := code) (at_ := at_) h he hs hu ho hb rfl
  have hb' : (x.charge (s.reqClass q) (stepCharges e b.site false)).batches[i]? = some b := by rw [Slice.charge_batches]; exact hb
  have hset := Slice.addTo_batches _ hb' q.stream (s.slotUnits q.stream e)
  rw [Slice.charge_batches] at hset
  obtain ⟨h1, h2, -⟩ := (x.charge (s.reqClass q) (stepCharges e b.site false)).addTo_keeps i q.stream (s.slotUnits q.stream e)
  refine weighed_of (y := (x.charge (s.reqClass q) (stepCharges e b.site false)).addTo i q.stream (s.slotUnits q.stream e))
    (fun c hr => ?_) (fun hr => ?_) hset h1 h2 (stepCharges_nodup e false hsite)
  · rw [ht, hr]
  · rw [ht, hr]

theorem State.test_fresh_weighed {m : Nat}
    (ho : x.openFor (s.actOfStream q.stream) (s.slotUnits q.stream e) (actBatchMax e) (actStgSize e) = none)
    (hm : x.freest (s.members x.die (s.actOfStream q.stream) at_) = some m) (hsite : m < 2048) :
    Weighed x (fun b => s.capacity x.die b p code) (s.fld x.die (BOX_CLASS_SHARE_SHARE (s.reqClass q))) (s.reqClass q)
      (stepCharges e m true) (s.test x false p code at_ q) m
      (x.batches ++ [⟨s.actOfStream q.stream, m, [q.stream], s.slotUnits q.stream e⟩]) := by
  have ht := State.test_fresh (p := p) (code := code) (at_ := at_) h he hs hu ho hm rfl
  obtain ⟨y, hy⟩ : ∃ y, y = (x.charge (s.reqClass q) (stepCharges e m true)).opened (s.actOfStream q.stream) m q.stream
    (s.slotUnits q.stream e) := ⟨_, rfl⟩
  obtain ⟨h1, h2, h3⟩ := (x.charge (s.reqClass q) (stepCharges e m true)).opened_keeps (s.actOfStream q.stream) m q.stream
    (s.slotUnits q.stream e)
  rw [Slice.charge_batches, ← hy] at h1
  rw [← hy] at h2 h3
  refine weighed_of (y := y) (fun c hr => ?_) (fun hr => ?_) h1 h2 h3 (stepCharges_nodup e true hsite)
  · rw [ht, hr]
  · rw [ht, hr, hy]
    rfl

end Plain

end Sys2Proof.Machine
end

section
/-! The decisions of the box office, clause by clause (R45, R46, R51, R64). -/

namespace Sys2Proof.Machine

/-- A request that is not the host's alone, or that may still run, is not too late (R64). -/
theorem State.timely_of (s : State) (q : Req)
    (h : ¬ (q.trig = none ∧ q.cont = none) ∨ ∀ l : Nat, (∃ c b g : Nat, q.host = some (c, b, l, g)) → s.frame + 1 ≤ l) :
    s.tooLate q = false := by
  rw [Bool.eq_false_iff, ne_eq, s.tooLate_iff]
  rintro ⟨h1, c, b, l, g, hh, hl⟩
  obtain h | h := h
  · exact h h1
  · exact absurd (h l ⟨c, b, g, hh⟩) (Nat.not_le.2 hl)

section Past
variable {s : State} {x : Slice} {p code at_ : Nat} {q : Req} (had : Admissible s x q) {e : Nat} (he : e = s.act (s.actOfStream q.stream))
include had he

/-- A request of a spanning act is placed on a member that has room, and only the act's count goes down (R46). -/
theorem State.test_span_places (hs : actSpan e = true) (hpos : 0 < get 0 x.left (s.actOfStream q.stream))
    (h : ∃ b ∈ x.batches, b.act = s.actOfStream q.stream ∧ b.site ∈ s.members x.die (s.actOfStream q.stream) at_ ∧
      b.units + s.slotUnits q.stream e ≤ actStgSize e) :
    ∃ site ∈ s.members x.die (s.actOfStream q.stream) at_, (s.test x false p code at_ q).2 = .placed site ∧
      (s.test x false p code at_ q).1.used = x.used ∧
      get 0 (s.test x false p code at_ q).1.left (s.actOfStream q.stream) = get 0 x.left (s.actOfStream q.stream) - 1 := by
  obtain ⟨y, site, hsite, hd, hused, hleft⟩ := Slice.dealTo_some (stream := q.stream) h
  have ht := State.test_span_dealt (p := p) (code := code) had he hs (Nat.pos_iff_ne_zero.1 hpos) hd
  refine ⟨site, hsite, congrArg Prod.snd ht, (congrArg (fun r => r.1.used) ht).trans hused, ?_⟩
  rw [congrArg (fun r => get 0 r.1.left (s.actOfStream q.stream)) ht]
  dsimp only
  rw [get_put_same, hleft]

omit had he in
theorem State.takes_iff (b : OpenBatch) {a u max size : Nat} :
    Slice.takes a u max size b = true ↔ b.act = a ∧ b.streams.length < max ∧ b.units + u ≤ size := by
  simp only [Slice.takes, Bool.and_eq_true, beq_iff_eq, decide_eq_true_eq, and_assoc]

end Past

end Sys2Proof.Machine
end

section
/-! The callboard's fields after a write of one, and what it leaves (R62 to R64). -/

namespace Sys2Proof.Machine

theorem State.entry_setEntry (s : State) (x n : Nat) : (s.setEntry x n).entry x = n % 2 ^ 512 := by
  have h : (s.setEntry x n).cb = put 0 s.cb x (BitVec.ofNat 512 n) := rfl
  rw [State.entry, h, get_put_same, BitVec.toNat_ofNat]

theorem State.entry_setEntry_ne (s : State) {x y : Nat} (h : y ≠ x) (n : Nat) : (s.setEntry x n).entry y = s.entry y := by
  have h' : (s.setEntry x n).cb = put 0 s.cb x (BitVec.ofNat 512 n) := rfl
  rw [State.entry, State.entry, h', get_put_ne 0 s.cb h]

/-- The bits below a bound are those of the rest by it. -/
theorem bitsOf_mod {n lo w m : Nat} (h : lo + w ≤ m) : bitsOf (n % 2 ^ m) lo w = bitsOf n lo w := by
  apply Nat.eq_of_testBit_eq
  intro i
  simp only [bitsOf, Nat.testBit_mod_two_pow, Nat.testBit_shiftRight]
  by_cases hi : i < w
  · have : lo + i < m := by omega
    simp [hi, this]
  · simp [hi]

/-- Fields that share no bit. -/
def EF.apart (f g : EF) : Prop := g.lo + g.w ≤ f.lo ∨ f.lo + f.w ≤ g.lo

theorem State.ent_setEnt (s : State) (x : Nat) (f : EF) (v : Nat) (hf : f.lo + f.w ≤ 512) : (s.setEnt x f v).ent x f = v % 2 ^ f.w := by
  rw [State.ent, State.setEnt, State.entry_setEntry, bitsOf_mod hf, bitsOf_setBits]

theorem State.ent_setEnt_apart (s : State) (x : Nat) {f g : EF} (v : Nat) (hg : g.lo + g.w ≤ 512) (h : f.apart g) :
    (s.setEnt x f v).ent x g = s.ent x g := by
  rw [State.ent, State.setEnt, State.entry_setEntry, bitsOf_mod hg, bitsOf_setBits_ne _ _ _ _ _ _ h, State.ent]

theorem State.ent_setEnt_ne (s : State) {x y : Nat} (h : y ≠ x) (f g : EF) (v : Nat) : (s.setEnt x f v).ent y g = s.ent y g := by
  rw [State.ent, State.setEnt, State.entry_setEntry_ne s h, State.ent]

theorem State.ent_of_cb {s t : State} (h : t.cb = s.cb) (x : Nat) (f : EF) : t.ent x f = s.ent x f := by
  rw [State.ent, State.ent, State.entry, State.entry, h]

/-- All but the callboard is as it was. -/
def BoardOnly (s t : State) : Prop := ∀ (α : Type) (f : State → α), (∀ (u : State) (b : SMap (BitVec 512)), f { u with cb := b } = f u) → f t = f s

theorem State.setEnt_board (s : State) (x : Nat) (f : EF) (v : Nat) : BoardOnly s (s.setEnt x f v) := fun _ _ h => h s _

theorem BoardOnly.trans {s t u : State} (h : BoardOnly s t) (k : BoardOnly t u) : BoardOnly s u := fun α f hf => (k α f hf).trans (h α f hf)

end Sys2Proof.Machine
end

section
/-! A request accepted (R51, R64). -/

namespace Sys2Proof.Machine

/-- What the work stands on: the callboard, the requests, the steps and the cores. -/
def State.work (s : State) : SMap (BitVec 512) × List Req × List Step × SMap Core := (s.cb, s.reqs, s.steps, s.cores)

theorem State.work_records (s : State) (a b) : ({ s with lgrBuf := a, lgrSerial := b } : State).work = s.work := rfl

theorem Housekept.work {s t : State} (h : Housekept s t) : t.work = s.work := h.same State.work fun _ _ _ _ _ _ _ _ => rfl

theorem State.lgrPush_work (s : State) (d rec : Nat) : (s.lgrPush d rec).work = s.work := by
  unfold State.lgrPush
  split
  · extract_lets n phase free t
    have ht : t.work = s.work := s.work_records _ _
    clear_value t
    split
    · exact (t.event_housekept d _).work.trans ht
    · exact ht
  · rfl

/-- The step that a request becomes (R64). -/
def State.stepFor (s : State) (q : Req) (site : Nat) : Step :=
  { stream := q.stream
    act := s.actOfStream q.stream
    frame := s.frame + 1
    ctx := s.ent q.stream eCtx
    cls := s.reqClass q
    host := q.host.isSome
    tag := match q.host with | some (_, _, _, g) => g | none => 0
    arrival := q.arrival
    req := q
    site := site
    phase := .accepted
    slot := 0
    suspect := 0
    tries := 0
    lastUnd := 0
    rpl := 0
    late := false
    reh := s.rehearsal (s.ent q.stream eCtx) }

/-- A request that leaves for its step. -/
def State.taken (s : State) (q : Req) (st : Step) : State :=
  { s with reqs := s.reqs.filter (fun y => y.stream != q.stream), steps := s.steps ++ [st] }

theorem State.taken_work (s : State) (q : Req) (st : Step) : (s.taken q st).reqs = s.reqs.filter (fun y => y.stream != q.stream) ∧
    (s.taken q st).steps = s.steps ++ [st] := ⟨rfl, rfl⟩

theorem State.acceptReq_eq (s : State) (q : Req) (site : Nat) : s.acceptReq q site =
    ((((s.taken q (s.stepFor q site)).setEnt q.stream ePend 0).setEnt q.stream eAdm 1).setEnt q.stream ePendAge 0).lgrStep
      (s.stepFor q site) 0 0 := rfl

/-- A stream whose request is accepted: ADM set, PEND and its age cleared (R64). -/
theorem State.granted (s : State) (x : Nat) : let t := ((s.setEnt x ePend 0).setEnt x eAdm 1).setEnt x ePendAge 0
    t.ent x ePend = 0 ∧ t.ent x eAdm = 1 ∧ t.ent x ePendAge = 0 ∧ t.reqs = s.reqs ∧ t.steps = s.steps := by
  intro t
  have hb : BoardOnly s t := ((s.setEnt_board x ePend 0).trans (State.setEnt_board _ x eAdm 1)).trans (State.setEnt_board _ x ePendAge 0)
  refine ⟨?_, ?_, State.ent_setEnt _ x ePendAge 0 (by decide), hb _ State.reqs fun _ _ => rfl, hb _ State.steps fun _ _ => rfl⟩
  · rw [State.ent_setEnt_apart _ x 0 (by decide) (.inl (by decide)), State.ent_setEnt_apart _ x 1 (by decide) (.inr (by decide)),
      s.ent_setEnt x ePend 0 (by decide)]
    rfl
  · rw [State.ent_setEnt_apart _ x 0 (by decide) (.inl (by decide)), State.ent_setEnt _ x eAdm 1 (by decide)]
    rfl

theorem State.acceptReq_accepts (s : State) (q : Req) (site : Nat) :
    let t := s.acceptReq q site
    t.ent q.stream ePend = 0 ∧ t.ent q.stream eAdm = 1 ∧ t.ent q.stream ePendAge = 0 ∧ (∀ y ∈ t.reqs, y.stream ≠ q.stream) ∧
    ∃ x : Step, t.steps = s.steps ++ [x] ∧ x.stream = q.stream ∧ x.frame = s.frame + 1 ∧ x.site = site ∧ x.phase = .accepted := by
  intro t
  obtain ⟨h1, h2⟩ := s.taken_work q (s.stepFor q site)
  have ht : t = _ := s.acceptReq_eq q site
  have hst : (s.stepFor q site).stream = q.stream ∧ (s.stepFor q site).frame = s.frame + 1 ∧ (s.stepFor q site).site = site ∧
    (s.stepFor q site).phase = .accepted := ⟨rfl, rfl, rfl, rfl⟩
  clear_value t
  generalize s.stepFor q site = st at *
  generalize s.taken q st = u at *
  obtain ⟨b1, b2, b3, hr, hs⟩ := u.granted q.stream
  generalize ((u.setEnt q.stream ePend 0).setEnt q.stream eAdm 1).setEnt q.stream ePendAge 0 = v at *
  obtain ⟨k1, k2⟩ := Prod.mk.inj ((congrArg State.work ht).trans (v.lgrPush_work _ _))
  obtain ⟨k2, k3⟩ := Prod.mk.inj k2
  obtain ⟨k3, -⟩ := Prod.mk.inj k3
  refine ⟨(State.ent_of_cb k1 _ _).trans b1, (State.ent_of_cb k1 _ _).trans b2, (State.ent_of_cb k1 _ _).trans b3, fun y hy => ?_, st, ?_, hst⟩
  · rw [k2, hr, h1] at hy
    exact bne_iff_ne.1 (List.mem_filter.1 hy).2
  · rw [k3, hs, h2]

end Sys2Proof.Machine
end

section
/-! What deciding a request leaves of its slice, and what it shows (R51, R64). -/

namespace Sys2Proof.Machine

-- what a decision leaves of the slice

/-- A slice of the same die with the same decisions shown. -/
def Slice.Kin (x y : Slice) : Prop := y.die = x.die ∧ y.codes = x.codes

theorem Slice.Kin.trans {x y z : Slice} (h : x.Kin y) (k : y.Kin z) : x.Kin z := ⟨k.1.trans h.1, k.2.trans h.2⟩

theorem Slice.kin_foldl {α : Type} (f : Slice → α → Slice) (h : ∀ (x : Slice) a, x.Kin (f x a)) : ∀ (l : List α) (x : Slice), x.Kin (l.foldl f x)
  | [], _ => ⟨rfl, rfl⟩
  | a :: l, x => (h x a).trans (Slice.kin_foldl f h l (f x a))

theorem Slice.use_kin (x : Slice) (k n : Nat) : x.Kin (x.use k n) := ⟨rfl, rfl⟩

theorem Slice.charge_kin (x : Slice) (cls : Nat) (l : List (Nat × Nat × Nat)) : x.Kin (x.charge cls l) :=
  Slice.kin_foldl (fun y c => y.chargeOne cls c) (fun _ _ => ⟨rfl, rfl⟩) l x

theorem Slice.addTo_kin (x : Slice) (i stream u : Nat) : x.Kin (x.addTo i stream u) := ⟨rfl, rfl⟩

theorem Slice.opened_kin (x : Slice) (act site stream u : Nat) : x.Kin (x.opened act site stream u) := ⟨rfl, rfl⟩

theorem Slice.withLeft_kin (x : Slice) (m) : x.Kin { x with left := m } := ⟨rfl, rfl⟩

theorem Slice.reserved_kin (x : Slice) (m bs) : x.Kin { x with left := m, batches := bs } := ⟨rfl, rfl⟩

theorem Slice.reserve_kin (x : Slice) (s : State) (at_ : Nat) (r : Nat × Nat × List Nat) : x.Kin (x.reserve s at_ r) := by
  unfold Slice.reserve
  split
  next a e cs =>
  extract_lets n c ms x1 x2 x3 x4 bs
  split
  · exact ⟨rfl, rfl⟩
  · have h1 : x.Kin x1 := Slice.kin_foldl _ (fun y _ => (y.use_kin _ _).trans (Slice.use_kin _ _ _)) _ x
    have h2 : x1.Kin x2 := x1.use_kin _ _
    have h3 : x2.Kin x3 := (x2.use_kin _ _).trans (Slice.use_kin _ _ _)
    have h4 : x3.Kin x4 := (x3.use_kin _ _).trans (Slice.use_kin _ _ _)
    exact (((h1.trans h2).trans h3).trans h4).trans (x4.reserved_kin _ _)

theorem Slice.dealTo_kin {x y : Slice} {act stream u size site : Nat} {ms : List Nat}
    (h : x.dealTo act stream u size ms = some (y, site)) : x.Kin y := by
  unfold Slice.dealTo at h
  extract_lets n from_ order fit at h
  split at h
  · exact absurd h (by simp)
  · extract_lets st at h
    split at h
    · exact absurd h (by simp)
    · rw [← (Prod.mk.inj (Option.some.inj h)).1]
      exact ⟨rfl, rfl⟩

theorem State.test_kin (s : State) (x : Slice) (shut : Bool) (p code at_ : Nat) (q : Req) :
    x.Kin (s.test x shut p code at_ q).1 := by
  unfold State.test
  extract_lets st a e cls only late ms u size cap share
  have same : x.Kin x := ⟨rfl, rfl⟩
  split
  · exact same
  split
  · exact same
  split
  · exact same
  split
  · exact same
  split
  · split
    · exact same
    split
    · exact same
    · next h => exact (Slice.dealTo_kin h).trans (Slice.withLeft_kin _ _)
  split
  · exact same
  split
  · extract_lets site l
    split
    · exact same
    · exact (x.charge_kin cls l).trans (Slice.addTo_kin _ _ _ _)
  · split
    · exact same
    · extract_lets l y
      split
      · exact same
      · exact (x.charge_kin cls l).trans (Slice.opened_kin _ _ _ _ _)

-- what a decision shows

theorem BitsUp.of_board {s t : State} (h : BoardOnly s t) : BitsUp s t := BitsUp.of_regs (h _ State.regs fun _ _ => rfl)

theorem State.withRecord_regs (s : State) (a b) : ({ s with lgrBuf := a, lgrSerial := b } : State).regs = s.regs := rfl

theorem State.lgrPush_up (s : State) (d rec : Nat) : BitsUp s (s.lgrPush d rec) := by
  unfold State.lgrPush
  split
  · extract_lets n phase free t
    have ht : BitsUp s t := BitsUp.of_regs (s.withRecord_regs _ _)
    clear_value t
    split
    · exact ht.trans (t.event_up d LGR_EVENT_LOW)
    · exact ht
  · exact BitsUp.refl s

theorem State.acceptReq_up (s : State) (q : Req) (site : Nat) : BitsUp s (s.acceptReq q site) := by
  rw [State.acceptReq_eq]
  have h0 : (s.taken q (s.stepFor q site)).regs = s.regs := rfl
  generalize hu : s.taken q (s.stepFor q site) = u at *
  have hb := ((u.setEnt_board q.stream ePend 0).trans (State.setEnt_board _ q.stream eAdm 1)).trans (State.setEnt_board _ q.stream ePendAge 0)
  exact ((BitsUp.of_regs h0).trans (BitsUp.of_board hb)).trans (State.lgrPush_up _ _ _)

theorem State.withReqs_regs (s : State) (l) : ({ s with reqs := l } : State).regs = s.regs := rfl

theorem State.dropReq_up (s : State) (x : Nat) : BitsUp s (s.dropReq x) :=
  (BitsUp.of_regs (s.withReqs_regs _)).trans (BitsUp.of_board (State.setEnt_board _ x ePend 0))

theorem State.refuseReq_up (s : State) (q : Req) (code : Nat) (unrecorded : Bool) : BitsUp s (s.refuseReq q code unrecorded) := by
  unfold State.refuseReq
  extract_lets x ctx age ttl s1 only s2
  have h1 : BitsUp s s1 := BitsUp.of_board (s.setEnt_board x ePendAge age)
  clear_value s1
  have h2 : BitsUp s1 s2 := by
    dsimp only [s2]
    split
    · exact BitsUp.refl s1
    · exact s1.lgrPush_up _ _
  clear_value s2
  split
  · exact (h1.trans h2).trans (s2.dropReq_up x)
  · exact (h1.trans h2).trans (BitsUp.of_regs (s2.withReqs_regs _))

/-- A decision adds its code, 0 for an acceptance, and clears no bit of a register (R51). -/
theorem State.decideOne_decides (s : State) (x : Slice) (unrecorded shut : Bool) (p code at_ : Nat) (q : Req) :
    BitsUp s (s.decideOne x unrecorded shut p code at_ q).1 ∧ (s.decideOne x unrecorded shut p code at_ q).2.die = x.die ∧
    ∃ c, (s.decideOne x unrecorded shut p code at_ q).2.codes = x.codes ++ [c] ∧ (shut = true → c = 0xD) := by
  have hk := s.nextSet.test_kin x shut p code at_ q
  have hs : shut = true → (s.nextSet.test x shut p code at_ q).2 = .refused 0xD := by
    rintro rfl
    rfl
  unfold State.decideOne
  extract_lets v
  change x.Kin (v.test x shut p code at_ q).1 at hk
  change shut = true → (v.test x shut p code at_ q).2 = .refused 0xD at hs
  generalize v.test x shut p code at_ q = y at hk hs ⊢
  obtain ⟨z, c | site⟩ := y
  · exact ⟨s.refuseReq_up q c unrecorded, hk.1, c, congrArg (· ++ [c]) hk.2, fun h => Verdict.refused.inj (hs h)⟩
  · exact ⟨s.acceptReq_up q site, hk.1, 0, congrArg (· ++ [0]) hk.2, fun h => absurd (hs h) (by simp)⟩

end Sys2Proof.Machine
end

section
/-! The close of a slice: every request due is decided, and the decisions are shown (R51). -/

namespace Sys2Proof.Machine

-- how many requests are due

/-- What the requests due rest on. -/
def State.queue (s : State) : List Req × List Step × Nat := (s.reqs, s.steps, s.frame)

theorem State.waiting_of_queue {s t : State} (h : t.queue = s.queue) (d at_ : Nat) : t.waiting d at_ = s.waiting d at_ := by
  obtain ⟨h1, h2⟩ := Prod.mk.inj h
  obtain ⟨h2, -⟩ := Prod.mk.inj h2
  simp only [State.waiting, State.stepOf, h1, h2]

theorem State.dropped_queue (s : State) (d : Nat) (l) : ({ s.count 0 d 11 32 1 with reqs := l } : State).queue = (l, s.steps, s.frame) := rfl

/-- A host part that is too late leaves its request alike in states alike. -/
theorem State.dropLate_queue {s t : State} (h : t.queue = s.queue) (q : Req) : (t.dropLate q).1.queue = (s.dropLate q).1.queue := by
  obtain ⟨h1, h2⟩ := Prod.mk.inj h
  obtain ⟨h2, h3⟩ := Prod.mk.inj h2
  unfold State.dropLate
  rw [h3]
  split
  · split
    · rw [State.dropped_queue, State.dropped_queue, h1, h2, h3]
    · exact h
  · exact h

theorem State.dropped_regs (s : State) (d : Nat) (l) : ({ s.count 0 d 11 32 1 with reqs := l } : State).regs = s.regs := rfl

theorem State.dropPassed_up (s : State) (d at_ : Nat) : BitsUp s (s.dropPassed d at_) := by
  unfold State.dropPassed
  refine BitsUp.foldl _ _ (fun u q => ?_) s
  unfold State.dropLate
  split
  · split
    · exact BitsUp.of_regs (u.dropped_regs _ _)
    · exact BitsUp.refl u
  · exact BitsUp.refl u

theorem State.dropPassed_queue {s t : State} (h : t.queue = s.queue) (d at_ : Nat) : (t.dropPassed d at_).queue = (s.dropPassed d at_).queue := by
  have hfold (l : List Req) : ∀ {u v : State}, v.queue = u.queue →
      (l.foldl (fun s q => (s.dropLate q).1) v).queue = (l.foldl (fun s q => (s.dropLate q).1) u).queue := by
    induction l with
    | nil => exact fun h => h
    | cons q l ih => exact fun h => ih (State.dropLate_queue h q)
  rw [State.dropPassed, State.dropPassed, State.waiting_of_queue h]
  exact hfold _ h

theorem insertReq_length (s : State) (q : Req) : ∀ l : List Req, (insertReq s q l).length = l.length + 1
  | [] => rfl
  | a :: l => by
    rw [insertReq]
    split
    · rfl
    · rw [List.length_cons, insertReq_length s q l, List.length_cons]

theorem State.due_length (s : State) (d at_ : Nat) : (s.due d at_).length = (s.waiting d at_).length := by
  have h (l : List Req) : ∀ m : List Req, (l.foldl (fun l q => insertReq s q l) m).length = m.length + l.length := by
    induction l with
    | nil => exact fun _ => rfl
    | cons q l ih =>
      intro m
      rw [List.foldl_cons, ih, insertReq_length, List.length_cons]
      omega
  exact (h _ []).trans (Nat.zero_add _)

-- the decisions of a slice

/-- Requests decided one after the other: a code each, no bit of a register cleared (R51). -/
theorem decideAll_decides (unrecorded shut : Bool) (p code at_ : Nat) (l : List Req) : ∀ y : State × Slice,
    let z := l.foldl (fun (y : State × Slice) q => y.1.decideOne y.2 unrecorded shut p code at_ q) y
    BitsUp y.1 z.1 ∧ z.2.die = y.2.die ∧ ∃ cs : List Nat, z.2.codes = y.2.codes ++ cs ∧ cs.length = l.length ∧
      (shut = true → ∀ c ∈ cs, c = 0xD) := by
  induction l with
  | nil => exact fun y => ⟨BitsUp.refl _, rfl, [], (List.append_nil _).symm, rfl, fun _ _ h => absurd h List.not_mem_nil⟩
  | cons q l ih =>
    intro y z
    obtain ⟨h1, h2, c, h3, h4⟩ := y.1.decideOne_decides y.2 unrecorded shut p code at_ q
    have hz : z = l.foldl (fun (y : State × Slice) q => y.1.decideOne y.2 unrecorded shut p code at_ q)
      (y.1.decideOne y.2 unrecorded shut p code at_ q) := rfl
    clear_value z
    generalize y.1.decideOne y.2 unrecorded shut p code at_ q = w at *
    obtain ⟨k1, k2, cs, k3, k4, k5⟩ := ih w
    rw [← hz] at k1 k2 k3
    refine ⟨h1.trans k1, k2.trans h2, c :: cs, by rw [k3, h3, List.append_assoc, List.singleton_append],
      congrArg (· + 1) k4, fun hs x hx => ?_⟩
    obtain rfl | hx := List.mem_cons.1 hx
    · exact h4 hs
    · exact k5 hs x hx

theorem Housekept.queue {s t : State} (h : Housekept s t) : t.queue = s.queue := h.same State.queue fun _ _ _ _ _ _ _ _ => rfl

/-- A slice's decisions: as many as requests are due, and a stop of its records where they have no room (R51, R64). -/
theorem State.sliceDecided_decides (s : State) (d at_ p code : Nat) :
    (s.sliceDecided d at_ p code).2.die = d ∧ (s.sliceDecided d at_ p code).2.codes.length = ((s.dropPassed d at_).due d at_).length ∧
    (s.sliceShut d = true → ∀ c ∈ (s.sliceDecided d at_ p code).2.codes, c = 0xD) ∧
    (s.lgrFree d < lgrRoom → (s.sliceDecided d at_ p code).1.flag d LGR_EVENT_STOP = true) := by
  unfold State.sliceDecided
  extract_lets v shut s1 x1 x2 x3 unrecorded s2
  have hq : s1.queue = s.queue := by
    dsimp only [s1]
    split
    · exact (s.event_housekept d _).queue
    · rfl
  have hstop : s.lgrFree d < lgrRoom → s1.flag d LGR_EVENT_STOP = true := fun h => by
    dsimp only [s1]
    rw [if_pos h]
    exact s.flag_event d _ (by decide) rfl
  have hx : x1.Kin x3 := (Slice.kin_foldl _ (fun (y : Slice) r => y.reserve_kin v at_ r) _ x1).trans (x2.use_kin _ _)
  have hup : BitsUp s1 s2 := s1.dropPassed_up d at_
  have hlen : (s2.due d at_).length = ((s.dropPassed d at_).due d at_).length := by
    rw [State.due_length, State.due_length, State.waiting_of_queue (State.dropPassed_queue hq d at_)]
  clear_value s2 x3 s1
  obtain ⟨h1, h2, cs, h3, h4, h5⟩ := decideAll_decides unrecorded shut p code at_ (s2.due d at_) (s2, x3)
  have hcs : x3.codes = [] := hx.2
  dsimp only at h1 h2 h3
  rw [hcs, List.nil_append] at h3
  refine ⟨h2.trans hx.1, by rw [h3, h4, hlen], fun hs c hc => ?_, fun h => h1.flag d rfl (hup.flag d rfl (hstop h))⟩
  rw [h3] at hc
  exact h5 hs c hc

end Sys2Proof.Machine
end

section
/-! What a close shows of its decisions, and the batches it places (R51, R57, R64). -/

namespace Sys2Proof.Machine

/-- The box office's registers past its two counts. -/
def pastCounts (off : Nat) : Bool := off == BOX_HBM_LEFT_BYTES.off || off == BOX_EVENT_DONE.off || off / 0x1000 == 0xB1

theorem pastCounts_src (off : Nat) (h : off / 0x1000 = 0xB1) : pastCounts off = true := by
  rw [pastCounts, h]
  exact Bool.or_true _

/-- Both counts of a close: those admitted and those refused (R51). -/
def State.shownCounts (s : State) (x : Slice) : State :=
  (s.setFld x.die BOX_ADMIT_COUNT (x.codes.filter (· == 0)).length).setFld x.die BOX_REFUSE_COUNT
    (x.codes.length - (x.codes.filter (· == 0)).length)

theorem State.shownCounts_counts (s : State) (x : Slice) :
    (s.shownCounts x).fld x.die BOX_ADMIT_COUNT = (x.codes.filter (· == 0)).length % 2 ^ 18 ∧
    (s.shownCounts x).fld x.die BOX_REFUSE_COUNT = (x.codes.length - (x.codes.filter (· == 0)).length) % 2 ^ 18 ∧
    (s.shownCounts x).flag x.die LGR_EVENT_STOP = s.flag x.die LGR_EVENT_STOP := by
  have hne (d : Nat) {a b : Nat} (h : a ≠ b) : dkey d a ≠ dkey d b := by simp only [dkey]; omega
  refine ⟨?_, State.fld_setFld _ _ BOX_REFUSE_COUNT _ ⟨by decide, by decide⟩, ?_⟩
  · rw [State.shownCounts, State.fld_setFld_ne _ _ _ BOX_REFUSE_COUNT BOX_ADMIT_COUNT _ (hne _ (by decide)),
      State.fld_setFld _ _ BOX_ADMIT_COUNT _ ⟨by decide, by decide⟩]
    rfl
  · rw [State.shownCounts, State.flag, State.flag, State.fld_setFld_ne _ _ _ BOX_REFUSE_COUNT LGR_EVENT_STOP _ (hne _ (by decide)),
      State.fld_setFld_ne _ _ _ BOX_ADMIT_COUNT LGR_EVENT_STOP _ (hne _ (by decide))]

theorem State.setCounters_regs (s : State) (d : Nat) (v : Nat → Nat) (l : List Nat) :
    (l.foldl (fun s c => s.setCounter 1 d c (v c)) s).regs = s.regs :=
  State.foldl_same _ State.regs (fun u c => State.setCounter_regs u 1 d c _) l s

/-- What a close shows (R51). -/
theorem State.boxShow_shows (s : State) (x : Slice) (cap : Nat) : let t := s.boxShow x cap
    t.fld x.die BOX_ADMIT_COUNT = (x.codes.filter (· == 0)).length % 2 ^ 18 ∧
    t.fld x.die BOX_REFUSE_COUNT = (x.codes.length - (x.codes.filter (· == 0)).length) % 2 ^ 18 ∧
    t.flag x.die BOX_EVENT_DONE = true ∧ (x.codes.any capacityCode = true → t.flag x.die BOX_EVENT_REFUSED = true) ∧
    t.flag x.die LGR_EVENT_STOP = s.flag x.die LGR_EVENT_STOP := by
  obtain ⟨c1, c2, c3⟩ := s.shownCounts_counts x
  intro t
  obtain ⟨u, hu⟩ : ∃ u, u = s.shownCounts x := ⟨_, rfl⟩
  have ht : t = s.boxShow x cap := rfl
  clear_value t
  unfold State.boxShow at ht
  extract_lets d n s1 s2 s3 s4 s5 at ht
  have h2 : s2 = s.shownCounts x := rfl
  rw [← h2] at c1 c2 c3
  clear_value s2
  have h3 : RegsBut pastCounts s2 s3 := RegsBut.of_regs _ (s2.setCounters_regs d _ _)
  clear_value s3
  have h4 : RegsBut pastCounts s3 s4 := s3.setFld_but _ d BOX_HBM_LEFT_BYTES _ (by decide) (by decide)
  clear_value s4
  have h5 : RegsBut pastCounts s4 s5 ∧ (x.codes.any capacityCode = true → s5.flag d BOX_EVENT_REFUSED = true) := by
    dsimp only [s5]
    split
    · exact ⟨s4.event_but _ d BOX_EVENT_REFUSED (by decide) (by decide) pastCounts_src, fun _ => s4.flag_event d _ (by decide) rfl⟩
    · next h => exact ⟨RegsBut.refl _ s4, fun h' => absurd h' h⟩
  clear_value s5
  have hbut : RegsBut pastCounts s2 t := by
    rw [ht]
    exact ((h3.trans h4).trans h5.1).trans (s5.event_but _ d BOX_EVENT_DONE (by decide) (by decide) pastCounts_src)
  refine ⟨(hbut.fld x.die (by decide) (by decide)).trans c1, (hbut.fld x.die (by decide) (by decide)).trans c2, ?_, fun h => ?_,
    (hbut.flag x.die (by decide) (by decide)).trans c3⟩
  · rw [ht]
    exact s5.flag_event d _ (by decide) rfl
  · rw [ht]
    exact (s5.event_up d _).flag d rfl (h5.2 h)

/-- The parts of a pair, of any two values: the kernel would compare the values themselves. -/
theorem parts_of_pair {α β : Type} {r : α × β} {a : α} {b : β} (h : r = (a, b)) : r.1 = a ∧ r.2 = b := by
  subst h
  exact ⟨rfl, rfl⟩

theorem State.closeSlice_closes (s : State) {d at_ p code n : Nat} {r : State × Slice} (hr : r = s.closeSlice d at_ p code)
    (hn : n = (r.2.codes.filter (· == 0)).length) :
    r.2.codes.length = ((s.dropPassed d at_).due d at_).length ∧
    r.1.fld d BOX_ADMIT_COUNT = n % 2 ^ 18 ∧ r.1.fld d BOX_REFUSE_COUNT = (r.2.codes.length - n) % 2 ^ 18 ∧
    r.1.flag d BOX_EVENT_DONE = true ∧ (r.2.codes.any capacityCode = true → r.1.flag d BOX_EVENT_REFUSED = true) ∧
    (s.lgrFree d < lgrRoom → r.1.flag d LGR_EVENT_STOP = true) ∧ (s.sliceShut d = true → ∀ c ∈ r.2.codes, c = 0xD) := by
  obtain ⟨h1, h2, h3, h4⟩ := s.sliceDecided_decides d at_ p code
  rw [s.closeSlice_eq] at hr
  generalize s.sliceDecided d at_ p code = y at *
  obtain ⟨k1, k2, k3, k4, k5⟩ := y.1.boxShow_shows y.2 (s.nextSet.capacity d 1 p code)
  rw [h1] at k1 k2 k3 k4 k5
  obtain ⟨hr1, hr2⟩ := parts_of_pair hr
  rw [← hr1] at k1 k2 k3 k4 k5
  rw [← hr2] at k1 k2 k4 h2 h3
  subst hn
  exact ⟨h2, k1, k2, k3, k4, fun h => k5.trans (h4 h), h3⟩

-- batches placed

theorem State.exchange_actA (s : State) : s.exchange.actA = s.actS := (rfl)

/-- The acts of the next frame: those of the set that is in use then. -/
theorem State.nextSet_act (s : State) (a : Nat) : s.nextSet.act a = (get 0 (if s.swapNext = true then s.actS else s.actA) a).toNat := by
  unfold State.nextSet
  split
  · rw [State.act, State.exchange_actA]
  · rfl

theorem State.placeBatch_places (s : State) (b : OpenBatch) (n : Nat) : (s.placeBatch b n).frame = s.frame ∧
    (∀ a, (s.placeBatch b n).nextSet.act a = s.nextSet.act a) ∧
    ∀ k, ((s.placeBatch b n).core k).placed = (s.core k).placed ++
      if b.site = k then [⟨b.act, s.frame + 1, b.streams, n, false, 0⟩] else [] := by
  refine ⟨State.modCore_frame .., fun a => ?_, fun k => ?_⟩
  · have hswap : (s.placeBatch b n).swapNext = s.swapNext := by
      rw [State.swapNext, State.swapNext, State.placeBatch, State.modCore_swap, State.modCore_frame]
    rw [State.nextSet_act, State.nextSet_act, hswap, State.placeBatch, State.modCore_actA, State.modCore_actS]
  · by_cases h : b.site = k
    · subst h
      rw [if_pos rfl, State.placeBatch, State.core_modCore]
    · rw [if_neg h, State.placeBatch, State.core_modCore_ne s (Ne.symm h), List.append_nil]

/-- Batches placed each with its steps. -/
theorem State.placed_each (k : Nat) (l : List OpenBatch) : ∀ s : State,
    ((l.foldl (fun s b => s.placeBatch b b.streams.length) s).core k).placed = (s.core k).placed ++
      (l.filter (fun b => b.site == k)).map (fun b => ⟨b.act, s.frame + 1, b.streams, b.streams.length, false, 0⟩) := by
  induction l with
  | nil => exact fun s => (List.append_nil _).symm
  | cons b l ih =>
    intro s
    obtain ⟨h1, -, h3⟩ := s.placeBatch_places b b.streams.length
    have hk := h3 k
    rw [List.foldl_cons]
    generalize s.placeBatch b b.streams.length = u at h1 hk ⊢
    rw [ih u, hk, h1, List.append_assoc]
    by_cases h : b.site = k
    · rw [if_pos h, List.filter_cons_of_pos (by rw [h]; exact beq_self_eq_true k), List.map_cons, List.singleton_append]
    · rw [if_neg h, List.filter_cons_of_neg (by rw [beq_iff_eq]; exact h), List.nil_append]

/-- Batches of acts that do not span are placed on their sites in their order (R57, R64). -/
theorem State.placeAll_places (s : State) (xs : List Slice) (k : Nat)
    (h : ∀ b ∈ xs.flatMap Slice.batches, actSpan (s.nextSet.act b.act) = false) :
    ((s.placeAll xs true).core k).placed = (s.core k).placed ++
      ((xs.flatMap Slice.batches).filter (fun b => b.site == k)).map (fun b => ⟨b.act, s.frame + 1, b.streams, b.streams.length, false, 0⟩) := by
  unfold State.placeAll
  extract_lets bs total
  have hfold (l : List OpenBatch) : ∀ s : State, (∀ b ∈ l, actSpan (s.nextSet.act b.act) = false) →
      l.foldl (fun s b =>
        let span := actSpan (s.nextSet.act b.act)
        if span && !true then s else s.placeBatch b (if span then total b.act else b.streams.length)) s =
      l.foldl (fun s b => s.placeBatch b b.streams.length) s := by
    induction l with
    | nil => exact fun _ _ => rfl
    | cons b l ih =>
      intro s h
      have hb := h b List.mem_cons_self
      obtain ⟨-, hact, -⟩ := s.placeBatch_places b b.streams.length
      rw [List.foldl_cons, List.foldl_cons]
      dsimp only
      rw [hb, Bool.false_and, if_neg Bool.false_ne_true, if_neg Bool.false_ne_true]
      exact ih _ fun c hc => by rw [hact]; exact h c (List.mem_cons_of_mem b hc)
  rw [hfold bs s h]
  exact State.placed_each k bs s

end Sys2Proof.Machine
end

section
/-! O33: the box office decides. -/

namespace Sys2Proof.Machine

section Decided
variable {s : State} {x : Slice} {p code at_ : Nat} {q : Req}

/-- A request of an act invalid or not permitted is refused (R51). -/
theorem State.test_unfit (hl : Living s q) (h : actV (s.act (s.actOfStream q.stream)) = false ∨
    bitOf (actCtxMask (s.act (s.actOfStream q.stream))) (s.ent q.stream eCtx) = false) : s.test x false p code at_ q = (x, .refused 0x2) := by
  refine State.test_barred hl ?_
  obtain h | h := h <;> rw [h]
  · rfl
  · rw [Bool.not_false, Bool.or_true, Bool.true_or]

variable (had : Admissible s x q) {a e u size : Nat} (ha : a = s.actOfStream q.stream) (he : e = s.act a) (hs : actSpan e = false)
  (hue : u = s.slotUnits q.stream e) (hu : u ≤ actStgSize e)
include had ha he hs hue hu

/-- A request is weighed in the fullest open batch that takes it (R64). -/
theorem State.test_joins {i : Nat} {b : OpenBatch} (hb : x.batches[i]? = some b)
    (ht : b.act = a ∧ b.streams.length < actBatchMax e ∧ b.units + u ≤ actStgSize e) (hsite : b.site < 2048)
    (hbest : ∀ (j : Nat) (c : OpenBatch), x.batches[j]? = some c → c.act = a ∧ c.streams.length < actBatchMax e ∧ c.units + u ≤ actStgSize e →
      c.streams.length < b.streams.length ∨
        (c.streams.length = b.streams.length ∧ (b.site < c.site ∨ (b.site = c.site ∧ i ≤ j)))) :
    Weighed x (fun b => s.capacity x.die b p code) (s.fld x.die (BOX_CLASS_SHARE_SHARE (s.reqClass q))) (s.reqClass q)
      (stepCharges e b.site false) (s.test x false p code at_ q) b.site
      (x.batches.set i { b with streams := b.streams ++ [q.stream], units := b.units + u }) := by
  subst ha hue
  have hopen : x.openFor (s.actOfStream q.stream) (s.slotUnits q.stream e) (actBatchMax e) (actStgSize e) = some i :=
    Slice.openFor_best hb ((State.takes_iff b).2 ht) fun j c hc hct => by
      have := hbest j c hc ((State.takes_iff c).1 hct)
      unfold Slice.Before
      tauto
  exact State.test_open_weighed had he hs hu hopen hb hsite

/-- With no open batch that takes it, a request is weighed in a new one on the member with the most cycles left, if there is one (R64). -/
theorem State.test_opens (hnone : ∀ b ∈ x.batches, ¬ (b.act = a ∧ b.streams.length < actBatchMax e ∧ b.units + u ≤ actStgSize e)) :
    (s.members x.die a at_ = [] → s.test x false p code at_ q = (x, .refused 0xE)) ∧
    ∀ m ∈ s.members x.die a at_, m < 2048 → (∀ k ∈ s.members x.die a at_, get 0 x.used (budKey 0 m) < get 0 x.used (budKey 0 k) ∨
        (get 0 x.used (budKey 0 m) = get 0 x.used (budKey 0 k) ∧ m ≤ k)) →
      Weighed x (fun b => s.capacity x.die b p code) (s.fld x.die (BOX_CLASS_SHARE_SHARE (s.reqClass q))) (s.reqClass q)
        (stepCharges e m true) (s.test x false p code at_ q) m (x.batches ++ [⟨a, m, [q.stream], u⟩]) := by
  subst ha hue
  have hopen : x.openFor (s.actOfStream q.stream) (s.slotUnits q.stream e) (actBatchMax e) (actStgSize e) = none :=
    Slice.openFor_none fun b hb => by
      rw [Bool.eq_false_iff, ne_eq, State.takes_iff]
      exact hnone b hb
  refine ⟨fun hms => State.test_nowhere had he hs hu hopen (by rw [hms]; rfl), fun m hm hsite hbest => ?_⟩
  exact State.test_fresh_weighed had he hs hu hopen (Slice.freest_best (s.members_ascending x.die _ at_) hm hbest) hsite

end Decided

/-- Settles O33: the box office's commands over the curtain unit's state and the scrubbers, a request through its checks, its charges and its
placing, and a close as the decisions of the requests due. -/
theorem boxOfficeDecides : Obligations.BoxOfficeDecides := by
  unfold Obligations.BoxOfficeDecides
  refine ⟨⟨fun s r at_ d act v found => ?_, fun s x shut p code at_ q => ?_⟩, fun s x p code at_ q => ?_, fun s q site => ?_,
    fun s d at_ p code _ => ?_⟩
  · exact ⟨fun hrun => ⟨boxOfficeClose_closes hrun, boxOfficeClose_closed, guardBandStart_guards found hrun, refreshBurst_refreshes⟩,
      fun _ => s.breaches_hold, actRelease_releases s r d act, boxEnable_enables s r v⟩
  · intro st a latest alone refuses
    refine ⟨?_, ?_, ?_⟩
    · rintro rfl
      exact State.test_shut
    · rintro rfl l ⟨c, b, g, hh⟩ ha hl
      exact State.test_late ((s.tooLate_iff q).2 ⟨ha, c, b, l, g, hh, hl⟩)
    · rintro rfl h
      have ht := s.timely_of q h
      exact ⟨State.test_dead ht, fun hl hd hh => State.test_barred ⟨ht, hl, hd⟩ (by rw [hh]; exact Bool.or_true _),
        fun hl hd hf hv hm hs => State.test_big ⟨⟨ht, hl, hd⟩, hv, hm, hf⟩ rfl hs⟩
  · intro st a e cls ms u size decided refuses takes cap above spent weighed htime hlife hdoom hfree
    have hl : Living s q := by
      refine ⟨s.timely_of q (or_iff_not_imp_left.2 fun h => ?_), hlife, hdoom⟩
      rintro l ⟨c, b, g, hh⟩
      exact htime (not_not.1 h).1 (not_not.1 h).2 c b l g hh
    refine ⟨State.test_unfit hl, fun hv hm => ?_⟩
    have had : Admissible s x q := ⟨hl, hv, hm, hfree⟩
    refine ⟨fun hs => ⟨State.test_span_spent had rfl hs, fun hpos => ⟨fun h => ?_, State.test_span_places had rfl hs hpos⟩⟩,
      fun hs hu => ⟨fun i b hb ht hsite hbest => ?_, fun hnone => ?_⟩⟩
    · exact State.test_span_full had rfl hs (Nat.pos_iff_ne_zero.1 hpos) (Slice.dealTo_none h)
    · have hw := State.test_joins (p := p) (code := code) (at_ := at_) had rfl rfl hs rfl hu hb ht hsite hbest
      exact ⟨hw.first, hw.placed⟩
    · obtain ⟨h1, h2⟩ := State.test_opens (p := p) (code := code) (at_ := at_) had rfl rfl hs rfl hu hnone
      exact ⟨h1, fun m hm hsite hbest => ⟨(h2 m hm hsite hbest).first, (h2 m hm hsite hbest).placed⟩⟩
  · exact s.acceptReq_accepts q site
  · intro r n
    obtain ⟨h1, h2, h3, h4, h5, h6, h7⟩ := s.closeSlice_closes (r := r) rfl (n := n) rfl
    exact ⟨h1, h2, h3, h4, h5, h6, h7, s.placeAll_places⟩

end Sys2Proof.Machine
end

section
/-! What the directors work on: memory, the callboard, the steps, the records that wait and the signals; an equation per operation
(R64, R79 to R82). The cores and the registers stand apart. -/

namespace Sys2Proof.Machine

structure Desk where
  mem : SMap Byte
  poison : List Nat
  ueRead : List Nat
  cb : SMap (BitVec 512)
  steps : List Step
  backlog : List (Nat × EgrRec)
  signals : List Signal
  acts : SMap (BitVec 1024)
  frame : Nat
  rplUsed : SMap Nat
  siteBad : List Nat

def State.desk (s : State) : Desk :=
  ⟨s.mem, s.poison, s.ueRead, s.cb, s.steps, s.backlog, s.signals, s.actA, s.frame, s.rplUsed, s.siteBad⟩

-- what is read of it

section Reads
variable {s t : State}

theorem desk_steps (h : t.desk = s.desk) : t.steps = s.steps := congrArg Desk.steps h
theorem desk_cb (h : t.desk = s.desk) : t.cb = s.cb := congrArg Desk.cb h
theorem desk_mem (h : t.desk = s.desk) : t.mem = s.mem := congrArg Desk.mem h
theorem desk_signals (h : t.desk = s.desk) : t.signals = s.signals := congrArg Desk.signals h
theorem desk_backlog (h : t.desk = s.desk) : t.backlog = s.backlog := congrArg Desk.backlog h
theorem desk_ent (h : t.desk = s.desk) (x : Nat) (f : EF) : t.ent x f = s.ent x f := State.ent_of_cb (desk_cb h) x f
theorem desk_bytes (h : t.desk = s.desk) (a n : Nat) : t.bytes a n = s.bytes a n := by
  simp only [State.bytes, State.byte, desk_mem h]
theorem desk_poisoned (h : t.desk = s.desk) (a n : Nat) : t.poisoned a n = s.poisoned a n := by
  rw [State.poisoned, State.poisoned, show t.poison = s.poison from congrArg Desk.poison h,
    show t.ueRead = s.ueRead from congrArg Desk.ueRead h]
theorem desk_stepOf (h : t.desk = s.desk) (x : Nat) : t.stepOf x = s.stepOf x := by rw [State.stepOf, State.stepOf, desk_steps h]
theorem desk_act (h : t.desk = s.desk) (a : Nat) : t.act a = s.act a := by
  rw [State.act, State.act, show t.actA = s.actA from congrArg Desk.acts h]
theorem desk_siteBad (h : t.desk = s.desk) : t.siteBad = s.siteBad := congrArg Desk.siteBad h
theorem desk_channels (h : t.desk = s.desk) (x : Nat) : t.channels x = s.channels x := by rw [State.channels, State.channels, desk_ent h]
theorem desk_halfAddr (h : t.desk = s.desk) (x i : Nat) : t.halfAddr x i = s.halfAddr x i := by
  rw [State.halfAddr, State.halfAddr, desk_ent h, desk_ent h]
theorem desk_egrRoom (h : t.desk = s.desk) (a : Nat) : t.egrRoom a = s.egrRoom a := by rw [State.egrRoom, State.egrRoom, desk_act h]

end Reads

-- what operations leave of it

theorem Light.desk {s t : State} (h : Light s t) : t.desk = s.desk := h.same State.desk fun _ _ _ _ => rfl
theorem Metered.desk {s t : State} (h : Metered s t) : t.desk = s.desk := h.same State.desk fun _ _ _ => rfl
theorem Housekept.desk {s t : State} (h : Housekept s t) : t.desk = s.desk := h.same State.desk fun _ _ _ _ _ _ _ _ => rfl

@[simp] theorem State.modCore_desk (s : State) (k : Nat) (f : Core → Core) : (s.modCore k f).desk = s.desk := (rfl)
@[simp] theorem State.modThr_desk (s : State) (k : Nat) (t : Fin 4) (f : Thread → Thread) : (s.modThr k t f).desk = s.desk := (rfl)

theorem State.modStep_desk (s : State) (x : Nat) (f : Step → Step) :
    (s.modStep x f).desk = { s.desk with steps := (s.modStep x f).steps } := (rfl)
theorem State.dropStep_desk (s : State) (x : Nat) : (s.dropStep x).desk = { s.desk with steps := (s.dropStep x).steps } := (rfl)
theorem State.signal_desk (s : State) (g : Signal) : (s.signal g).desk = { s.desk with signals := s.signals ++ [g] } := (rfl)
theorem State.gate_desk (s : State) (st : Step) : (s.gate st).desk = s.desk := (rfl)
theorem State.withRecords_desk (s : State) (a b) : ({ s with lgrBuf := a, lgrSerial := b } : State).desk = s.desk := rfl

theorem State.lgrPush_desk (s : State) (d rec : Nat) : (s.lgrPush d rec).desk = s.desk := by
  unfold State.lgrPush
  split
  · extract_lets n phase free t
    have ht : t.desk = s.desk := s.withRecords_desk _ _
    clear_value t
    split
    · exact (t.event_light d _).desk.trans ht
    · exact ht
  · rfl

theorem State.lgrPush_cores (s : State) (d rec : Nat) : (s.lgrPush d rec).cores = s.cores := by
  obtain ⟨-, h⟩ := Prod.mk.inj (s.lgrPush_work d rec)
  obtain ⟨-, h⟩ := Prod.mk.inj h
  exact (Prod.mk.inj h).2

-- the steps

theorem State.stepOf_dropStep (s : State) (x : Nat) : (s.dropStep x).stepOf x = none := by
  refine List.find?_eq_none.2 fun st hst => ?_
  rw [beq_iff_eq]
  exact bne_iff_ne.1 (List.mem_filter.1 hst).2

/-- A step changed is the step of its stream. -/
theorem State.stepOf_modStep (s : State) (x : Nat) (f : Step → Step) (hf : ∀ st, (f st).stream = st.stream) :
    (s.modStep x f).stepOf x = (s.stepOf x).map f := by
  show (s.steps.map (fun st => if st.stream = x then f st else st)).find? (fun st => st.stream == x) = _
  rw [State.stepOf, List.find?_map]
  have he : ((fun st : Step => st.stream == x) ∘ fun st => if st.stream = x then f st else st) = fun st => st.stream == x := by
    funext st
    simp only [Function.comp]
    split <;> simp [hf]
  rw [he]
  cases h : s.steps.find? (fun st => st.stream == x) with
  | none => rfl
  | some st =>
    have hx : st.stream = x := beq_iff_eq.1 (List.find?_some (p := fun st : Step => st.stream == x) h)
    rw [Option.map_some, Option.map_some, if_pos hx]

/-- A step is that of its own stream. -/
theorem State.stream_of_stepOf {s : State} {x : Nat} {st : Step} (h : s.stepOf x = some st) : st.stream = x :=
  beq_iff_eq.1 (List.find?_some (p := fun st : Step => st.stream == x) h)

end Sys2Proof.Machine
end

section
/-! What staging reads and claims: a home's stack, room on a member, and its scratchpad (R79, R80, R229, R240, R253, R254). -/

namespace Sys2Proof.Machine

/-- An access of the ring by a director is metered, and that is all (R59, R79). -/
theorem State.access_meters (s : State) (a : Option Nat) (d g n : Nat) (w : Bool) : Metered s (s.access a d g n w) := by
  have hcharge : Metered s (s.charge g n w) := by
    refine (s.charge_light g n w).metered ?_
    unfold State.charge
    split
    · split
      · exact s.count_regs ..
      · rfl
    · rfl
  have hmeter (u : State) (a k p n : Nat) : Metered u (u.meter a k p n) := (u.meter_light a k p n).metered (u.meter_regs a k p n)
  unfold State.access
  extract_lets s1 h s2
  have h2 : Metered s1 s2 := by
    dsimp only [s2]
    split
    · exact s1.carry_metered a d h n
    · exact s1.carry_metered a h d n
  clear_value s2
  split
  · exact (hcharge.trans h2).trans (hmeter _ _ _ _ _)
  · exact hcharge.trans h2

/-- A whole read of a home's stack that nothing meets (R79). -/
theorem State.ringRead_ok (s : State) (act : Option Nat) (d : Nat) {a n : Nat} (h : hbmIn a n = true) :
    ∃ t, Metered s t ∧ s.ringRead act d a n .ok = (t, some (s.bytes a n, s.poisoned a n)) := by
  unfold State.ringRead
  rw [h, if_neg (by decide)]
  split
  · next h0 =>
    subst h0
    exact ⟨s, Metered.refl s, rfl⟩
  · have hm := s.access_meters act d a n false
    have hp : s.ringParity d a .ok = (s, false) := rfl
    have hl : ringLost d a .ok = false := rfl
    rw [hl, if_neg Bool.false_ne_true, if_neg (by decide)]
    dsimp only
    rw [hp]
    dsimp only
    refine ⟨s.access act d a n false, hm, ?_⟩
    rw [desk_bytes hm.desk, desk_poisoned hm.desk, Bool.false_or]

theorem State.stageRead_ok (s : State) (act : Option Nat) (d : Nat) {a n : Nat} (h : hbmIn a n = true) (hp : s.poisoned a n = false) :
    ∃ t, Metered s t ∧ s.stageRead act d a n .ok = (t, .ok (s.bytes a n)) := by
  obtain ⟨t, hm, ht⟩ := s.ringRead_ok act d h
  refine ⟨t, hm, ?_⟩
  rw [State.stageRead, ht, hp]
  rfl

/-- Whether a director's access to a member's scratchpad is refused (R229, R240). -/
def State.padBad (s : State) (site off n : Nat) : Bool := n != 0 && (!s.bankOk site off n .d || (s.core site).hitsSpill off n)

theorem State.directorPad_snd (s : State) (act : Option Nat) (d site off n : Nat) (w : Bool) :
    (s.directorPad act d site off n w).2 = s.padBad site off n := rfl

theorem Metered.padBad {s t : State} (h : Metered s t) (site off n : Nat) : t.padBad site off n = s.padBad site off n :=
  h.same (fun u => u.padBad site off n) fun _ _ _ => rfl

theorem State.directorPad_metered (s : State) (act : Option Nat) (d site off n : Nat) (w : Bool) :
    Metered s (s.directorPad act d site off n w).1 := by
  unfold State.directorPad
  extract_lets bad
  dsimp only
  split
  · exact Metered.refl s
  · split
    · exact s.carry_metered ..
    · exact s.carry_metered ..

theorem State.setRing_light (s : State) (site k : Nat) (r : Ring) : Light s (s.setRing site k r) :=
  ((((s.setCfld_light site _ _).trans (State.setCfld_light _ site _ _)).trans (State.setCfld_light _ site _ _)).trans
    (State.setCfld_light _ site _ _)).trans (State.setCfld_light _ site _ _)

/-- Room claimed on a member changes its ring's registers alone (R240). -/
theorem State.stageRoom_light {s t : State} {site k n base : Nat} (h : s.stageRoom site k n = some (t, base)) : Light s t := by
  unfold State.stageRoom at h
  split at h
  · rw [← (Prod.mk.inj (Option.some.inj h)).1]
    exact Light.refl s
  · split at h
    · split at h
      · next u v hc =>
        rw [← (Prod.mk.inj (Option.some.inj h)).1]
        have : u = s.setRing site k _ := (congrArg Prod.fst hc).symm
        rw [this]
        exact s.setRing_light _ _ _
      · exact absurd h (by simp)
    · exact absurd h (by simp)

end Sys2Proof.Machine
end

section
/-! One step staged on its member (R64, R79, R80). -/

namespace Sys2Proof.Machine

theorem State.slotHeader_length (s : State) (st : Step) (b : List Byte) : (s.slotHeader st b).length = 64 := by
  simp only [State.slotHeader, List.length_append, leBytes_length]

theorem Metered.egrRoom {s t : State} (h : Metered s t) (a : Nat) : t.egrRoom a = s.egrRoom a := h.same (fun u => u.egrRoom a) fun _ _ _ => rfl

theorem State.slotWay_ok (s : State) (d site off n : Nat) : s.slotWay d site off n .ok = (s, false) := by
  unfold State.slotWay
  split <;> rfl

/-- The flags of a step that is staged: ADM cleared and RUN set (R64). -/
def State.runSet (s : State) (x : Nat) : State := ((s.setEnt x eAdm 0).setEnt x eRun 1).setEnt x eSampNew 0

/-- A step staged, and counted (R64). -/
def State.stagedFor (s : State) (st : Step) : State :=
  ((s.runSet st.stream).modStep st.stream (fun y => { y with phase := .running })).count 6 (streamDie st.stream) 0 16 1

/-- The slot of a step at an offset of a scratchpad (R80). -/
def State.slotFor (s : State) (off : Nat) (st : Step) : SlotRec :=
  { stream := st.stream
    off := off
    len := 64 * (1 + s.channels st.stream + s.ent st.stream eStateUnits) + s.egrRoom st.act
    nchan := s.channels st.stream
    units := s.ent st.stream eStateUnits
    ended := false
    payload := 0
    cont := false
    struck := false
    suspect := st.suspect }

/-- A step of a stream without samples yet is staged with its state body (R79, R80). -/
theorem State.stageOne_stages (s : State) (site off : Nat) (st : Step) (hseen : s.ent st.stream eSeen = 0)
    (hin : hbmIn (s.halfAddr st.stream (s.ent st.stream eHalf)) (64 * s.ent st.stream eStateUnits) = true)
    (hpsn : s.poisoned (s.halfAddr st.stream (s.ent st.stream eHalf)) (64 * s.ent st.stream eStateUnits) = false)
    (hpad : s.padBad site off (s.slotFor off st).len = false) :
    ∃ (front room : List Byte) (v : State), Metered s v ∧ front.length = 64 * (1 + s.channels st.stream) ∧
      s.stageOne site false off .ok st = ((v.padWrite site off
        (front ++ s.bytes (s.halfAddr st.stream (s.ent st.stream eHalf)) (64 * s.ent st.stream eStateUnits) ++ room) false).stagedFor st,
        some (s.slotFor off st)) := by
  obtain ⟨v1, hv1, hr⟩ := s.stageRead_ok (st.payer false) (streamDie st.stream) hin hpsn
  have hv2 := v1.directorPad_metered (st.payer false) (streamDie st.stream) site off (s.slotFor off st).len true
  have hbad := v1.directorPad_snd (st.payer false) (streamDie st.stream) site off (s.slotFor off st).len true
  rw [hv1.padBad, hpad] at hbad
  obtain ⟨front, hf, hlen⟩ : ∃ front : List Byte, s.stageFront st false = (s, .ok front) ∧ front.length = 64 * (1 + s.channels st.stream) := by
    refine ⟨s.slotHeader st (List.replicate (64 * s.channels st.stream) 0) ++ List.replicate (64 * s.channels st.stream) 0, ?_, ?_⟩
    · rw [State.stageFront, if_neg Bool.false_ne_true, if_pos hseen]
    · rw [List.length_append, State.slotHeader_length, List.length_replicate]
      omega
  refine ⟨front, List.replicate (s.egrRoom st.act) 0, _, hv1.trans hv2, hlen, ?_⟩
  have hroom : v1.egrRoom st.act = s.egrRoom st.act := hv1.egrRoom _
  obtain ⟨⟨v2, bad⟩, hd⟩ : ∃ p, v1.directorPad (st.payer false) (streamDie st.stream) site off (s.slotFor off st).len true = p := ⟨_, rfl⟩
  rw [hd] at hbad ⊢
  dsimp only at hbad ⊢
  subst hbad
  have hlenEq : 64 * (1 + s.channels st.stream + s.ent st.stream eStateUnits) + v1.egrRoom st.act = (s.slotFor off st).len := by
    rw [hroom]
    rfl
  rw [State.stageOne]
  dsimp only
  rw [hf]
  dsimp only
  rw [hr]
  dsimp only
  rw [hlenEq, hd]
  dsimp only
  simp only [Bool.false_eq_true, if_false, State.slotWay_ok]
  rw [hroom]
  rfl

end Sys2Proof.Machine
end

section
/-! A batch begun on its member (R57, R64, R81): what the stage manager is shown, an empty data cache and the stage cue. -/

namespace Sys2Proof.Machine

-- what a director keeps of a member: its batches, and the registers of the batch that runs

structure Bench where
  batch : Option Running
  placed : List Placed
  queued : List Ready
  bud : Nat
  stgBase : Word
  stgCount : Word

def Core.bench (c : Core) : Bench := ⟨c.batch, c.placed, c.queued, c.bud, c.stgBase, c.stgCount⟩

theorem bench_of_cores {s t : State} (h : t.cores = s.cores) (site : Nat) : (t.core site).bench = (s.core site).bench := by
  rw [State.core_of_cores h]

theorem State.modThr_bench (s : State) (site : Nat) (t : Fin 4) (f : Thread → Thread) :
    ((s.modThr site t f).core site).bench = (s.core site).bench := by
  rw [State.core_modThr]
  rfl

section Clean
variable (s : State) (site : Nat)

theorem State.threadWrite_bench (t : Fin 4) (a : Nat) (b : List Byte) (psn back : Bool) :
    ((s.threadWrite site t a b psn back).core site).bench = (s.core site).bench := by
  rw [State.threadWrite]
  dsimp only
  rw [State.modThr_bench]
  exact bench_of_cores rfl site

theorem State.threadWrite_desk (t : Fin 4) (a : Nat) (b : List Byte) (psn back : Bool) :
    (s.threadWrite site t a b psn back).desk = s.desk := (rfl)

theorem State.cleanLine_bench (t : Fin 4) (l : Line) : ((s.cleanLine site t l).core site).bench = (s.core site).bench := by
  unfold State.cleanLine
  split
  · dsimp only
    rw [State.core_modCore]
    exact s.threadWrite_bench site t _ _ _ _
  · rfl

theorem State.cleanLine_desk (t : Fin 4) (l : Line) : (s.cleanLine site t l).desk = s.desk := by
  unfold State.cleanLine
  split
  · dsimp only
    rw [State.modCore_desk, State.threadWrite_desk]
  · rfl

theorem State.cleanAll_bench (t : Fin 4) : ((s.cleanAll site t).core site).bench = (s.core site).bench := by
  unfold State.cleanAll
  generalize (s.core site).lines = l
  induction l generalizing s with
  | nil => rfl
  | cons a l ih => rw [List.foldl_cons, ih, State.cleanLine_bench]

theorem State.cleanAll_desk (t : Fin 4) : (s.cleanAll site t).desk = s.desk := by
  unfold State.cleanAll
  generalize (s.core site).lines = l
  induction l generalizing s with
  | nil => rfl
  | cons a l ih => rw [List.foldl_cons, ih, State.cleanLine_desk]

theorem State.dropAll_bench : ((s.dropAll site).core site).bench = (s.core site).bench := by
  unfold State.dropAll
  dsimp only
  rw [State.core_modCore]
  exact bench_of_cores rfl site

theorem State.dropAll_lines : ((s.dropAll site).core site).lines = [] := by
  unfold State.dropAll
  dsimp only
  rw [State.core_modCore]

theorem State.dropAll_desk : (s.dropAll site).desk = s.desk := (rfl)

end Clean

/-- A batch begun: its member is shown it, the data cache is emptied, and its stage cue is signalled. -/
theorem State.beginBatch_parts (s : State) (site : Nat) (q : Ready) : ∃ f : Core → Core,
    s.beginBatch site q = (((s.modCore site f).cleanAll site 0).dropAll site).signal
      ⟨site, none, actStgCue ((((s.modCore site f).cleanAll site 0).dropAll site).act q.run.act), q.run.ctx, true, 1, [], 0⟩ ∧
    ∀ c : Core, (f c).resident = c.resident ∧ ∃ n, (f c).bench = ⟨some { q.run with num0 := n }, c.placed, c.queued, q.bud,
      BitVec.ofNat 32 (q.base * 64), BitVec.ofNat 32 (2 ^ 31 + q.run.slots.length)⟩ :=
  ⟨_, rfl, fun _ => ⟨rfl, _, rfl⟩⟩

/-- What a batch begun leaves. -/
theorem State.beginBatch_begins (s : State) (site : Nat) (q : Ready) : let t := s.beginBatch site q
    (∃ b : Running, (t.core site).bench = ⟨some b, (s.core site).placed, (s.core site).queued, q.bud, BitVec.ofNat 32 (q.base * 64),
      BitVec.ofNat 32 (2 ^ 31 + q.run.slots.length)⟩ ∧ b.act = q.run.act ∧ b.frame = q.run.frame ∧ b.slots = q.run.slots ∧
      b.started = q.run.started) ∧
    (t.core site).lines = [] ∧
    t.desk = { s.desk with signals := s.signals ++ [⟨site, none, actStgCue (s.act q.run.act), q.run.ctx, true, 1, [], 0⟩] } := by
  intro t
  obtain ⟨f, ht, hf⟩ := s.beginBatch_parts site q
  change t = _ at ht
  obtain ⟨-, n, hn⟩ := hf (s.core site)
  have hd : (((s.modCore site f).cleanAll site 0).dropAll site).desk = s.desk := by
    rw [State.dropAll_desk, State.cleanAll_desk, State.modCore_desk]
  have hb : ((((s.modCore site f).cleanAll site 0).dropAll site).core site).bench = (f (s.core site)).bench := by
    rw [State.dropAll_bench, State.cleanAll_bench, State.core_modCore]
  have hl := ((s.modCore site f).cleanAll site 0).dropAll_lines site
  rw [desk_act hd] at ht
  generalize ((s.modCore site f).cleanAll site 0).dropAll site = v at *
  clear_value t
  subst ht
  refine ⟨⟨_, hb.trans hn, rfl, rfl, rfl, rfl⟩, hl, ?_⟩
  rw [State.signal_desk, hd, desk_signals hd]

end Sys2Proof.Machine
end

section
/-! A placed batch of one step staged on its member (R64, R79, R80, R240). -/

namespace Sys2Proof.Machine

/-- A step is on its member: ADM clear, RUN set, running, and its state body at its place. -/
def State.OnStage (t : State) (x a : Nat) (body : List Byte) : Prop :=
  t.ent x eAdm = 0 ∧ t.ent x eRun = 1 ∧ (t.stepOf x).map Step.phase = some .running ∧ t.bytes a body.length = body

theorem State.OnStage.of_desk {s t : State} {x a : Nat} {body : List Byte} (h : s.OnStage x a body) (hcb : t.cb = s.cb)
    (hst : t.steps = s.steps) (hm : t.mem = s.mem) : t.OnStage x a body := by
  obtain ⟨ha, hr, hp, hb⟩ := h
  refine ⟨?_, ?_, ?_, ?_⟩
  · rwa [State.ent_of_cb hcb]
  · rwa [State.ent_of_cb hcb]
  · rwa [State.stepOf, hst]
  · simpa only [State.bytes, State.byte, hm] using hb

theorem State.runSet_board (s : State) (x : Nat) : BoardOnly s (s.runSet x) :=
  ((s.setEnt_board x eAdm 0).trans (State.setEnt_board _ x eRun 1)).trans (State.setEnt_board _ x eSampNew 0)

theorem State.runSet_ent (s : State) (x : Nat) : (s.runSet x).ent x eAdm = 0 ∧ (s.runSet x).ent x eRun = 1 := by
  unfold State.runSet
  constructor
  · rw [State.ent_setEnt_apart _ x (f := eSampNew) (g := eAdm) 0 (by decide) (.inl (by decide)),
      State.ent_setEnt_apart _ x (f := eRun) (g := eAdm) 1 (by decide) (.inr (by decide)), State.ent_setEnt _ x eAdm 0 (by decide)]
    rfl
  · rw [State.ent_setEnt_apart _ x (f := eSampNew) (g := eRun) 0 (by decide) (.inl (by decide)), State.ent_setEnt _ x eRun 1 (by decide)]
    rfl

theorem BoardOnly.desk {s t : State} (h : BoardOnly s t) : t.desk = { s.desk with cb := t.cb } :=
  h _ (fun u => { u.desk with cb := t.cb }) fun _ _ => rfl

@[simp] theorem State.count_desk (s : State) (unit d idx w n : Nat) : (s.count unit d idx w n).desk = s.desk := (rfl)
@[simp] theorem State.modStep_cores (s : State) (x : Nat) (f : Step → Step) : (s.modStep x f).cores = s.cores := (rfl)
theorem State.writeMem_desk (s : State) (a : Nat) (b : List Byte) (psn : Bool) : (s.writeMem a b psn).desk =
    { s.desk with mem := (s.writeMem a b psn).mem, poison := (s.writeMem a b psn).poison, ueRead := (s.writeMem a b psn).ueRead } := (rfl)

/-- A step staged is on its member; what the directors have beyond the callboard and the steps is as it was. -/
theorem State.stagedFor_stages (s : State) (st : Step) (hs : s.stepOf st.stream = some st) : let t := s.stagedFor st
    t.cores = s.cores ∧ t.ent st.stream eAdm = 0 ∧ t.ent st.stream eRun = 1 ∧
    (t.stepOf st.stream).map Step.phase = some .running ∧ ∃ b y, t.desk = { s.desk with cb := b, steps := y } := by
  intro t
  have hb := s.runSet_board st.stream
  obtain ⟨ha, hr⟩ := s.runSet_ent st.stream
  have ht : t = ((s.runSet st.stream).modStep st.stream (fun y => { y with phase := .running })).count 6 (streamDie st.stream) 0 16 1 := rfl
  clear_value t
  have hst : (s.runSet st.stream).stepOf st.stream = some st := (hb _ (fun u => u.stepOf st.stream) fun _ _ => rfl).trans hs
  generalize s.runSet st.stream = v at *
  have hd : t.desk = (v.modStep st.stream (fun y => { y with phase := .running })).desk := by rw [ht, State.count_desk]
  have hm := State.stepOf_modStep v st.stream (fun y => { y with phase := .running }) fun _ => rfl
  rw [hst] at hm
  have hvd := State.modStep_desk v st.stream (fun y => { y with phase := .running })
  refine ⟨?_, ?_, ?_, ?_, ?_⟩
  · rw [ht, State.count_cores, State.modStep_cores, hb _ State.cores fun _ _ => rfl]
  · rw [State.ent_of_cb ((desk_cb hd).trans (congrArg Desk.cb hvd)), ha]
  · rw [State.ent_of_cb ((desk_cb hd).trans (congrArg Desk.cb hvd)), hr]
  · rw [desk_stepOf hd, hm]
    rfl
  · rw [hd, hvd, hb.desk]
    exact ⟨_, _, rfl⟩

end Sys2Proof.Machine
end

section
/-! A placed batch of one step staged on its member, up to its begin (R64, R79, R80, R240). -/

namespace Sys2Proof.Machine

/-- The batch that a placed one of one step becomes on its member. -/
structure Readied (s : State) (p : Placed) (st : Step) (base : Nat) (q : Ready) : Prop where
  act : q.run.act = p.act
  frame : q.run.frame = p.frame
  ctx : q.run.ctx = actCtx (s.act p.act)
  fresh : q.run.started = false
  slots : q.run.slots.map SlotRec.stream = [st.stream]
  at_ : q.base = base
  bud : q.bud = min (2 ^ 32 - 1) (actCycBatch (s.act p.act) + p.n * actCycStep (s.act p.act))

/-- A part of the bytes written reads back. -/
theorem State.bytes_writeMem_part (s : State) (a : Nat) (x y z : List Byte) (p : Bool) :
    (s.writeMem a (x ++ y ++ z) p).bytes (a + x.length) y.length = y := by
  unfold State.bytes
  apply List.ext_getElem
  · simp
  · intro n _ h
    have hn : n + x.length < (x ++ y ++ z).length := by simp only [List.length_append]; omega
    rw [List.getElem_map, List.getElem_range, State.byte_writeMem, if_pos ⟨by omega, by omega⟩,
      show a + x.length + n - a = x.length + n by omega, List.append_assoc, List.getD_append_right _ _ _ _ (by omega),
      Nat.add_sub_cancel_left, List.getD_append _ _ _ _ h, List.getD_eq_getElem _ _ h]

/-- A step's bytes are in the scratchpad, and the step on its member. -/
theorem State.padded_stages (v : State) (site off : Nat) (st : Step) (front body room : List Byte) (hs : v.stepOf st.stream = some st) :
    let t := (v.padWrite site off (front ++ body ++ room) false).stagedFor st
    t.OnStage st.stream (padBase site + off + front.length) body ∧ t.cores = v.cores ∧
    ∃ m p r b y, t.desk = { v.desk with mem := m, poison := p, ueRead := r, cb := b, steps := y } := by
  intro t
  have hw : (v.padWrite site off (front ++ body ++ room) false).desk = _ := v.writeMem_desk (padBase site + off) _ _
  have hc : (v.padWrite site off (front ++ body ++ room) false).cores = v.cores := v.writeMem_cores _ _ _
  have hb : (v.padWrite site off (front ++ body ++ room) false).bytes (padBase site + off + front.length) body.length = body :=
    v.bytes_writeMem_part _ _ _ _ _
  have hst : (v.padWrite site off (front ++ body ++ room) false).stepOf st.stream = some st := by
    rw [State.stepOf, show (v.padWrite site off (front ++ body ++ room) false).steps = v.steps from congrArg Desk.steps hw]
    exact hs
  obtain ⟨kc, ka, kr, kp, b, y, kd⟩ := (v.padWrite site off (front ++ body ++ room) false).stagedFor_stages st hst
  have ht : t = (v.padWrite site off (front ++ body ++ room) false).stagedFor st := rfl
  clear_value t
  rw [← ht] at kc ka kr kp kd
  generalize v.padWrite site off (front ++ body ++ room) false = w at *
  refine ⟨⟨ka, kr, kp, ?_⟩, kc.trans hc, ?_⟩
  · have hm : t.mem = w.mem := congrArg Desk.mem kd
    simpa only [State.bytes, State.byte, hm] using hb
  · rw [kd, hw]
    exact ⟨_, _, _, _, _, rfl⟩


theorem State.stepOf_of_stepsOf {s : State} {p : Placed} {st : Step} (h : st ∈ s.stepsOf p) : s.stepOf st.stream = some st := by
  obtain ⟨x, -, hx⟩ := List.mem_filterMap.1 h
  have hx := Option.eq_some_of_filter_eq_some hx
  rw [State.stream_of_stepOf hx, hx]

theorem State.slotFor_len (s : State) (off : Nat) (st : Step) :
    (s.slotFor off st).len = 64 * (1 + s.channels st.stream + s.ent st.stream eStateUnits) + s.egrRoom st.act := (rfl)

theorem State.readyOf_readied (s u : State) (h : s.desk.acts = u.desk.acts) (p : Placed) (base n : Nat) {st : Step} {r : SlotRec}
    (hr : r.stream = st.stream) : Readied u p st base (s.readyOf p base n [r]) := by
  have ha : s.act p.act = u.act p.act := by
    rw [State.act, State.act, show s.actA = u.actA from h]
  refine ⟨rfl, rfl, congrArg actCtx ha, rfl, congrArg (fun x => [x]) hr, rfl, ?_⟩
  rw [← ha]
  rfl

/-- A batch of one step, of a stream without samples yet, that has its room on its member and meets nothing there. -/
structure Stageable (u : State) (site base : Nat) (p : Placed) (st : Step) (u1 : State) : Prop where
  steps : u.stepsOf p = [st]
  new : p.replay = false
  unseen : u.ent st.stream eSeen = 0
  inHbm : hbmIn (u.halfAddr st.stream (u.ent st.stream eHalf)) (64 * u.ent st.stream eStateUnits) = true
  clean : u.poisoned (u.halfAddr st.stream (u.ent st.stream eHalf)) (64 * u.ent st.stream eStateUnits) = false
  room : u.stageRoom site (actStgReg (u.act p.act)) (u.slotUnits st.stream (u.act p.act)) = some (u1, base)
  pad : u1.padBad site (base * 64) (64 * (1 + u.channels st.stream + u.ent st.stream eStateUnits) + u.egrRoom st.act) = false

/-- A step's slot in place. -/
def State.Slotted (u t : State) (site base : Nat) (st : Step) : Prop :=
  t.OnStage st.stream (padBase site + base * 64 + 64 * (1 + u.channels st.stream))
    (u.bytes (u.halfAddr st.stream (u.ent st.stream eHalf)) (64 * u.ent st.stream eStateUnits))

/-- What stands before the begin of a batch of one step that is staged. -/
theorem State.stagePlaced_stages (u : State) {site base : Nat} {p : Placed} (rest : List Placed) {st : Step} {u1 : State}
    (h : Stageable u site base p st u1) :
    ∃ (v : State) (q : Ready), u.stagePlaced site p rest .ok = v.beginOrQueue site q ∧ Readied u p st base q ∧
      (v.core site).bench = { (u.core site).bench with placed := rest } ∧
      u.Slotted v site base st ∧
      ∃ m p r b y, v.desk = { u.desk with mem := m, poison := p, ueRead := r, cb := b, steps := y } := by
  obtain ⟨hsteps, hnew, hseen, hin, hpsn, hroom, hpad⟩ := h
  have hl := State.stageRoom_light hroom
  unfold State.Slotted
  obtain ⟨x, hx⟩ : ∃ x, x = st.stream := ⟨_, rfl⟩
  rw [← hx] at hseen hin hpsn hpad hroom ⊢
  have hst : u.stepOf x = some st := hx ▸ State.stepOf_of_stepsOf (hsteps ▸ List.mem_singleton_self st)
  have hone := u1.stageOne_stages site (base * 64) st
  simp only [State.slotFor_len, ← hx, desk_ent hl.desk, desk_halfAddr hl.desk, desk_channels hl.desk, desk_egrRoom hl.desk,
    desk_poisoned hl.desk, desk_bytes hl.desk] at hone
  obtain ⟨front, room, v, hv, hlen, hone⟩ := hone hseen hin hpsn hpad
  have hvd : v.desk = u.desk := hv.desk.trans hl.desk
  have hvc : v.cores = u.cores := (hv.same State.cores fun _ _ _ => rfl).trans hl.cores
  obtain ⟨kst, kc, m, psn, ue, b, y, kd⟩ := v.padded_stages site (base * 64) st front
    (u.bytes (u.halfAddr x (u.ent x eHalf)) (64 * u.ent x eStateUnits)) room ((desk_stepOf hvd _).trans (hx ▸ hst))
  rw [hlen, ← hx] at kst
  generalize ((v.padWrite site (base * 64) _ false).stagedFor st) = w at hone kst kc kd
  have hslot : (u1.slotFor (base * 64) st).stream = st.stream := rfl
  generalize u1.slotFor (base * 64) st = slot at hone hslot
  have hdesk : (w.modCore site fun c => { c with placed := rest }).desk = w.desk := State.modCore_desk _ _ _
  refine ⟨w.modCore site fun c => { c with placed := rest },
    (w.modCore site fun c => { c with placed := rest }).readyOf p base (u.slotUnits x (u.act p.act)) [slot], ?_, ?_, ?_, ?_, ?_⟩
  · unfold State.stagePlaced
    dsimp only
    rw [hsteps, if_neg (by simp), List.map_singleton, List.foldl_cons, List.foldl_nil, Nat.zero_add, ← hx, hroom]
    dsimp only
    rw [hnew, State.stageAll, hone]
    dsimp only
    rw [State.stageAll, if_neg Bool.false_ne_true]
  · exact State.readyOf_readied _ u (by rw [hdesk, kd, hvd]) _ _ _ hslot
  · rw [State.core_modCore, State.core_of_cores (kc.trans hvc)]
    rfl
  · exact kst.of_desk (desk_cb hdesk) (desk_steps hdesk) (desk_mem hdesk)
  · rw [hdesk, kd, hvd]
    exact ⟨_, _, _, _, _, rfl⟩

/-- Where nothing keeps the batch from its member, the director stages it. -/
theorem State.stageNext_placed {u : State} {site : Nat} {p : Placed} {rest : List Placed} (hwork : u.workShut = false)
    (hreh : u.rehStopped site = false) (hp : (u.core site).placed = p :: rest) (hsafe : u.safe site = false) (hf : p.frame ≤ u.frame)
    (hnew : p.replay = false) (hq : (u.core site).batch = none → (u.core site).queued = []) :
    u.stageNext site .ok = u.stagePlaced site p rest .ok := by
  have ho : u.stageOnward site .ok = u.stagePlaced site p rest .ok := by
    unfold State.stageOnward
    dsimp only
    rw [hp]
    dsimp only
    rw [hsafe, hreh, hnew, decide_eq_false (Nat.not_lt.2 hf)]
    rfl
  unfold State.stageNext
  dsimp only
  rw [hwork, if_neg Bool.false_ne_true]
  split
  · next hb hl => exact absurd (hl.symm.trans (hq hb)) (List.cons_ne_nil _ _)
  · exact ho

/-- Behind a batch that runs, a batch staged waits. -/
theorem State.beginOrQueue_queues (v : State) {site : Nat} {b : Running} (hb : (v.core site).bench.batch = some b) (q : Ready) :
    ((v.beginOrQueue site q).core site).bench = { (v.core site).bench with queued := (v.core site).bench.queued ++ [q] } ∧
    (v.beginOrQueue site q).desk = v.desk := by
  have hb' : (v.core site).batch = some b := hb
  unfold State.beginOrQueue
  dsimp only
  rw [hb', if_neg (by simp), State.core_modCore]
  exact ⟨rfl, State.modCore_desk _ _ _⟩

/-- On a free member, a batch staged begins. -/
theorem State.beginOrQueue_begins (v : State) {site : Nat} (hb : (v.core site).bench.batch = none)
    (hq : (v.core site).bench.queued = []) (q : Ready) : v.beginOrQueue site q = v.beginBatch site q := by
  have hb' : (v.core site).batch = none := hb
  have hq' : (v.core site).queued = [] := hq
  unfold State.beginOrQueue
  dsimp only
  rw [hb', hq', if_pos (by simp)]

end Sys2Proof.Machine
end

section
/-! What the director's command stages and begins (R57, R64, R79, R80, R240, R342). -/

namespace Sys2Proof.Machine

section Stage
variable {u u1 : State} {site base : Nat} {p : Placed} {rest : List Placed} {st : Step}

/-- Staged behind the batch that runs. -/
theorem State.stagePlaced_queues (h : Stageable u site base p st u1) {b : Running} (hb : (u.core site).batch = some b) :
    let t := u.stagePlaced site p rest .ok
    u.Slotted t site base st ∧ t.signals = u.signals ∧ ∃ q, Readied u p st base q ∧
      (t.core site).bench = { (u.core site).bench with placed := rest, queued := (u.core site).queued ++ [q] } := by
  obtain ⟨v, q, hv, hq, hbench, hst, m, psn, ue, cb, y, hd⟩ := u.stagePlaced_stages rest h
  have hvb : (v.core site).bench.batch = some b := (congrArg Bench.batch hbench).trans hb
  obtain ⟨kb, kd⟩ := v.beginOrQueue_queues hvb q
  intro t
  have ht : t = v.beginOrQueue site q := hv
  clear_value t
  rw [← ht] at kb kd
  refine ⟨hst.of_desk (desk_cb kd) (desk_steps kd) (desk_mem kd), (desk_signals kd).trans (congrArg Desk.signals hd), q, hq, ?_⟩
  rw [kb, hbench]
  rfl

/-- Staged and begun. -/
theorem State.stagePlaced_begins (h : Stageable u site base p st u1) (hb : (u.core site).batch = none) (hq : (u.core site).queued = []) :
    let t := u.stagePlaced site p rest .ok
    u.Slotted t site base st ∧ (t.core site).lines = [] ∧
    t.signals = u.signals ++ [⟨site, none, actStgCue (u.act p.act), actCtx (u.act p.act), true, 1, [], 0⟩] ∧
    ∃ b : Running, b.act = p.act ∧ b.frame = p.frame ∧ b.started = false ∧ b.slots.map SlotRec.stream = [st.stream] ∧
      (t.core site).bench = ⟨some b, rest, [], min (2 ^ 32 - 1) (actCycBatch (u.act p.act) + p.n * actCycStep (u.act p.act)),
        BitVec.ofNat 32 (base * 64), 0x80000001⟩ := by
  obtain ⟨v, q, hv, hr, hbench, hst, m, psn, ue, cb, y, hd⟩ := u.stagePlaced_stages rest h
  obtain ⟨⟨b, kb, ka, kf, ks, kn⟩, kl, kd⟩ := v.beginBatch_begins site q
  have hbegin := v.beginOrQueue_begins ((congrArg Bench.batch hbench).trans hb) ((congrArg Bench.queued hbench).trans hq) q
  have hact : v.act q.run.act = u.act p.act := by
    rw [hr.act, State.act, State.act, show v.actA = u.actA from congrArg Desk.acts hd]
  have hsig : v.signals = u.signals := congrArg Desk.signals hd
  have hplaced : (v.core site).placed = rest := congrArg Bench.placed hbench
  have hqueued : (v.core site).queued = [] := (congrArg Bench.queued hbench).trans hq
  have hone : q.run.slots.length = 1 := by
    rw [← List.length_map (f := SlotRec.stream), hr.slots]
    rfl
  rw [hact, hr.ctx, hsig] at kd
  rw [hplaced, hqueued, hr.bud, hr.at_, hone] at kb
  intro t
  have ht : t = v.beginBatch site q := hv.trans hbegin
  clear_value t
  rw [← ht] at kb kl kd
  refine ⟨hst.of_desk (congrArg Desk.cb kd) (congrArg Desk.steps kd) (congrArg Desk.mem kd), kl, congrArg Desk.signals kd,
    b, ka.trans hr.act, kf.trans hr.frame, kn.trans hr.fresh, ?_, kb⟩
  rw [ks, hr.slots]

end Stage

/-- A batch staged behind another begins when its member is free. -/
theorem State.stageNext_queued {u : State} {site : Nat} {q : Ready} {rest : List Ready} (hwork : u.workShut = false)
    (hsafe : u.safe site = false) (hb : (u.core site).batch = none) (hq : (u.core site).queued = q :: rest) : let t := u.stageNext site .ok
    (∃ b : Running, (t.core site).batch = some b ∧ b.act = q.run.act ∧ b.frame = q.run.frame ∧ b.slots = q.run.slots) ∧
    (t.core site).queued = rest ∧ (t.core site).bud = q.bud ∧ (t.core site).lines = [] ∧
    (t.core site).stgBase = BitVec.ofNat 32 (q.base * 64) ∧
    t.signals = u.signals ++ [⟨site, none, actStgCue (u.act q.run.act), q.run.ctx, true, 1, [], 0⟩] := by
  intro t
  obtain ⟨v, hv⟩ : ∃ v, v = u.modCore site (fun c => { c with queued := rest }) := ⟨_, rfl⟩
  have ht : t = v.beginBatch site q := by
    have : t = u.stageNext site .ok := rfl
    clear_value t
    unfold State.stageNext at this
    dsimp only at this
    rw [hwork, if_neg Bool.false_ne_true, hb, hq] at this
    dsimp only at this
    rw [hsafe, if_neg Bool.false_ne_true, ← hv] at this
    exact this
  clear_value t
  have hvd : v.desk = u.desk := by rw [hv, State.modCore_desk]
  have hvq : (v.core site).queued = rest := by rw [hv, State.core_modCore]
  obtain ⟨⟨b, kb, ka, kf, ks, kn⟩, kl, kd⟩ := v.beginBatch_begins site q
  rw [hvq] at kb
  rw [desk_act hvd, desk_signals hvd] at kd
  rw [← ht] at kb kl kd
  exact ⟨⟨b, congrArg Bench.batch kb, ka, kf, ks⟩, congrArg Bench.queued kb, congrArg Bench.bud kb, kl, congrArg Bench.stgBase kb,
    congrArg Desk.signals kd⟩

end Sys2Proof.Machine
end

section
/-! The director's stage command (R57, R64, R79, R80, R240, R342). -/

namespace Sys2Proof.Machine

theorem State.settle_desk (s : State) : s.settle.desk = s.desk := (rfl)

theorem exec_stageBatch_good (s : State) {site : Nat} (at_ : Nat) (w : Arrival) (h : (s.tick at_).good site = true) :
    exec (.stageBatch site ⟨at_, w⟩) s = done ((s.tick at_).stageNext site w) := by
  show done (if (s.tick at_).good site then (s.tick at_).stageNext site w else s.tick at_) = _
  rw [if_pos h]

theorem State.stageNext_shut {u : State} (h : u.workShut = true) (site : Nat) (w : Arrival) : u.stageNext site w = u := by
  unfold State.stageNext
  dsimp only
  rw [if_pos h]

/-- A batch of a context in rehearsal that the debugger has stopped keeps what follows it from its member (R342). -/
theorem State.stageNext_rehStopped {u : State} {site : Nat} (h : u.rehStopped site = true) (w : Arrival) : u.stageNext site w = u := by
  have ho : u.stageOnward site w = u := by
    unfold State.stageOnward
    dsimp only
    split
    · rfl
    · rw [h, Bool.or_true, Bool.true_or, Bool.true_or, if_pos rfl]
  have hb : (u.core site).batch ≠ none := fun hb => by
    rw [State.rehStopped, hb] at h
    exact Bool.false_ne_true h
  unfold State.stageNext
  dsimp only
  split
  · rfl
  · split
    · next hn _ => exact absurd hn hb
    · exact ho

theorem State.bytes_len (s : State) (a n : Nat) : (s.bytes a n).length = n := by rw [State.bytes, List.length_map, List.length_range]

/-- Nothing is staged in a stop or a reset. -/
theorem exec_stage_shut {s : State} {at_ : Nat} (h : (s.tick at_).workShut = true) (site d : Nat) (w : Arrival) :
    ∀ c ∈ [Instr.stageBatch site ⟨at_, w⟩, .replayStage d ⟨at_, w⟩], exec c s = .next (s.tick at_).settle := by
  intro c hc
  rcases List.mem_pair.1 hc with rfl | rfl
  · show done (if (s.tick at_).good site then (s.tick at_).stageNext site w else s.tick at_) = _
    rw [State.stageNext_shut h, ite_self]
    rfl
  · show done (if d < 8 ∧ !(s.tick at_).workShut then _ else s.tick at_) = _
    rw [h, if_neg (by simp)]
    rfl

theorem exec_stage_rehStopped {s : State} {at_ site : Nat} (h : (s.tick at_).rehStopped site = true) (w : Arrival) :
    exec (.stageBatch site ⟨at_, w⟩) s = .next (s.tick at_).settle := by
  show done (if (s.tick at_).good site then (s.tick at_).stageNext site w else s.tick at_) = _
  rw [State.stageNext_rehStopped h, ite_self]
  rfl

theorem State.Slotted.settled {u t : State} {site base : Nat} {st : Step} (h : u.Slotted t site base st) :
    u.Slotted t.settle site base st :=
  State.OnStage.of_desk h (desk_cb t.settle_desk) (desk_steps t.settle_desk) (desk_mem t.settle_desk)

theorem State.Slotted.reads {u t : State} {site base : Nat} {st : Step} (h : u.Slotted t site base st) :
    t.ent st.stream eAdm = 0 ∧ t.ent st.stream eRun = 1 ∧ (t.stepOf st.stream).map Step.phase = some .running ∧
    t.bytes (padBase site + base * 64 + 64 * (1 + u.channels st.stream)) (64 * u.ent st.stream eStateUnits) =
      u.bytes (u.halfAddr st.stream (u.ent st.stream eHalf)) (64 * u.ent st.stream eStateUnits) := by
  obtain ⟨ha, hr, hp, hb⟩ := h
  rw [State.bytes_len] at hb
  exact ⟨ha, hr, hp, hb⟩

theorem settled_bench {t : State} {site : Nat} {b : Bench} (h : (t.core site).bench = b) : (t.settle.core site).bench = b := by
  rw [State.settle_core, h]

end Sys2Proof.Machine
end

section
/-! A slot struck and the room of struck batches returned (R82, R240), and what a step that is aborted leaves (R64, R366). -/

namespace Sys2Proof.Machine

-- a slot struck and room returned: the core and its circular region alone

theorem AtSites.desk {P : Nat → Prop} {s t : State} (h : AtSites P s t) : t.desk = s.desk := h.same State.desk fun _ _ _ => rfl

theorem State.setRing_at (s : State) (site : Nat) {k : Nat} (hk : k < 8) (r : Ring) : AtSites (· = site) s (s.setRing site k r) := by
  have hb {o : Nat} (ho : o < 0x1000) : o + 16 * k < 0x10000 := by omega
  exact ((((s.setCfld_at site (CR_PTR_HEAD k) _ (hb (by decide))).trans
    (State.setCfld_at _ site (CR_PTR_TAIL k) _ (hb (by decide)))).trans
    (State.setCfld_at _ site (CR_FILL_FILL k) _ (hb (by decide)))).trans
    (State.setCfld_at _ site (CR_FILL_WRAP k) _ (hb (by decide)))).trans
    (State.setCfld_at _ site (CR_FILL_FAIL k) _ (hb (by decide)))

theorem actStgReg_lt (e : Nat) : actStgReg e < 8 := Nat.mod_lt _ (by decide)

theorem State.freeStage_at (site : Nat) : ∀ (n : Nat) (s : State), AtSites (· = site) s (s.freeStage site n)
  | 0, s => AtSites.refl _ s
  | n + 1, s => by
    unfold State.freeStage
    split
    · next b t _ =>
      split
      · extract_lets v
        have hv : AtSites (· = site) s v := s.modCore_at site (fun c => { c with ended := t }) fun _ => rfl
        clear_value v
        split
        · exact hv.trans (State.freeStage_at site n v)
        · exact (hv.trans (v.setRing_at site (actStgReg_lt _) _)).trans (State.freeStage_at site n _)
      · exact AtSites.refl _ s
    · exact AtSites.refl _ s

theorem Core.markStruck_th (c : Core) (i : Nat) (y : Fin 4) : (c.markStruck i).th[y] = c.th[y] := by
  unfold Core.markStruck
  split <;> rfl

/-- What follows the strike of a slot. -/
theorem State.struck_at (s : State) (site slot n : Nat) :
    AtSites (· = site) s ((s.modCore site (fun c => c.markStruck slot)).freeStage site n) :=
  (s.modCore_at site _ fun y => Core.markStruck_th _ slot y).trans (State.freeStage_at site n _)

-- a step that is aborted

/-- A step let go: its stream neither admitted, run nor held (R64). -/
def State.letGo (s : State) (x : Nat) : State := (s.dropStep x).clearRun x

theorem State.clearRun_board (s : State) (x : Nat) : BoardOnly s (s.clearRun x) :=
  ((s.setEnt_board x eAdm 0).trans (State.setEnt_board _ x eRun 0)).trans (State.setEnt_board _ x eHeld 0)

theorem State.clearRun_ent (s : State) (x : Nat) : (s.clearRun x).ent x eRun = 0 ∧ (s.clearRun x).ent x eHeld = 0 ∧
    (s.clearRun x).ent x eHalf = s.ent x eHalf ∧ (s.clearRun x).ent x eStepCnt = s.ent x eStepCnt := by
  unfold State.clearRun
  refine ⟨?_, State.ent_setEnt _ x eHeld 0 (by decide), ?_, ?_⟩
  · rw [State.ent_setEnt_apart _ x (f := eHeld) (g := eRun) 0 (by decide) (.inr (by decide)), State.ent_setEnt _ x eRun 0 (by decide)]
    rfl
  · rw [State.ent_setEnt_apart _ x (f := eHeld) (g := eHalf) 0 (by decide) (.inl (by decide)),
      State.ent_setEnt_apart _ x (f := eRun) (g := eHalf) 0 (by decide) (.inl (by decide)),
      State.ent_setEnt_apart _ x (f := eAdm) (g := eHalf) 0 (by decide) (.inl (by decide))]
  · rw [State.ent_setEnt_apart _ x (f := eHeld) (g := eStepCnt) 0 (by decide) (.inr (by decide)),
      State.ent_setEnt_apart _ x (f := eRun) (g := eStepCnt) 0 (by decide) (.inr (by decide)),
      State.ent_setEnt_apart _ x (f := eAdm) (g := eStepCnt) 0 (by decide) (.inr (by decide))]

/-- What letting a step go leaves. -/
structure LetGo (s t : State) (x : Nat) : Prop where
  step : t.stepOf x = none
  run : t.ent x eRun = 0
  held : t.ent x eHeld = 0
  half : t.ent x eHalf = s.ent x eHalf
  mem : t.mem = s.mem
  cores : t.cores = s.cores
  up : BitsUp s t

theorem State.letGo_lets (s : State) (x : Nat) : LetGo s (s.letGo x) x ∧ (s.letGo x).ent x eStepCnt = s.ent x eStepCnt ∧
    (s.letGo x).desk = { s.desk with steps := (s.letGo x).steps, cb := (s.letGo x).cb } := by
  have hd := s.dropStep_desk x
  have hn := s.stepOf_dropStep x
  have hc : (s.dropStep x).cores = s.cores ∧ (s.dropStep x).regs = s.regs := ⟨rfl, rfl⟩
  unfold State.letGo
  generalize s.dropStep x = v at *
  have hb := v.clearRun_board x
  obtain ⟨hr, hh, hf, hk⟩ := v.clearRun_ent x
  generalize v.clearRun x = t at *
  have hm : v.mem = s.mem := congrArg Desk.mem hd
  have he (f : EF) : v.ent x f = s.ent x f := State.ent_of_cb (congrArg Desk.cb hd) x f
  refine ⟨⟨(hb _ (fun u => u.stepOf x) fun _ _ => rfl).trans hn, hr, hh, hf.trans (he eHalf), (hb _ State.mem fun _ _ => rfl).trans hm,
    (hb _ State.cores fun _ _ => rfl).trans hc.1, (BitsUp.of_regs hc.2).trans (BitsUp.of_board hb)⟩, hk.trans (he eStepCnt), ?_⟩
  rw [hb.desk, hd, show t.steps = v.steps from hb _ State.steps fun _ _ => rfl]

end Sys2Proof.Machine
end

section
/-! A step aborted whose stream is suspended (R64, R81, R366). -/

namespace Sys2Proof.Machine

theorem State.suspend_board (s : State) (x c : Nat) : BoardOnly s (s.suspend x c) :=
  (s.setEnt_board x eLife 2).trans (State.setEnt_board _ x eSusp c)

theorem State.suspend_ent (s : State) (x c : Nat) : (s.suspend x c).ent x eLife = 2 ∧ (s.suspend x c).ent x eSusp = c % 2 ^ 4 ∧
    (s.suspend x c).ent x eRun = s.ent x eRun ∧ (s.suspend x c).ent x eHeld = s.ent x eHeld ∧
    (s.suspend x c).ent x eHalf = s.ent x eHalf := by
  unfold State.suspend
  refine ⟨?_, State.ent_setEnt _ x eSusp c (by decide), ?_, ?_, ?_⟩
  · rw [State.ent_setEnt_apart _ x (f := eSusp) (g := eLife) c (by decide) (.inl (by decide)), State.ent_setEnt _ x eLife 2 (by decide)]
    rfl
  · rw [State.ent_setEnt_apart _ x (f := eSusp) (g := eRun) c (by decide) (.inr (by decide)),
      State.ent_setEnt_apart _ x (f := eLife) (g := eRun) 2 (by decide) (.inr (by decide))]
  · rw [State.ent_setEnt_apart _ x (f := eSusp) (g := eHeld) c (by decide) (.inr (by decide)),
      State.ent_setEnt_apart _ x (f := eLife) (g := eHeld) 2 (by decide) (.inr (by decide))]
  · rw [State.ent_setEnt_apart _ x (f := eSusp) (g := eHalf) c (by decide) (.inl (by decide)),
      State.ent_setEnt_apart _ x (f := eLife) (g := eHalf) 2 (by decide) (.inr (by decide))]

/-- A state as another but for what is gated and logged. -/
theorem LetGo.of_kept {s t u v : State} {x : Nat} (h : LetGo s t x) (hs : u.desk = s.desk) (hc : u.cores = s.cores) (hr : BitsUp u s)
    (kt : v.desk = t.desk) (kc : v.cores = t.cores) (kr : BitsUp t v) : LetGo u v x where
  step := (desk_stepOf kt x).trans h.step
  run := (desk_ent kt x eRun).trans h.run
  held := (desk_ent kt x eHeld).trans h.held
  half := ((desk_ent kt x eHalf).trans h.half).trans (desk_ent hs x eHalf).symm
  mem := ((desk_mem kt).trans h.mem).trans (desk_mem hs).symm
  cores := (kc.trans h.cores).trans hc.symm
  up := (hr.trans h.up).trans kr

theorem LetGo.board {s t u : State} {x : Nat} (h : LetGo s t x) (hb : BoardOnly t u) (hr : u.ent x eRun = t.ent x eRun)
    (hh : u.ent x eHeld = t.ent x eHeld) (hf : u.ent x eHalf = t.ent x eHalf) : LetGo s u x where
  step := (hb _ (fun v => v.stepOf x) fun _ _ => rfl).trans h.step
  run := hr.trans h.run
  held := hh.trans h.held
  half := hf.trans h.half
  mem := (hb _ State.mem fun _ _ => rfl).trans h.mem
  cores := (hb _ State.cores fun _ _ => rfl).trans h.cores
  up := h.up.trans (BitsUp.of_board hb)

/-- The state in which an aborted step leaves its gate. -/
def State.gatedFor (s : State) (st : Step) (cause : Nat) : State :=
  if st.phase = .accepted ∧ cause ≠ 0x03 ∧ cause ≠ 0x04 then s else s.gate st

theorem State.gatedFor_keeps (s : State) (st : Step) (cause : Nat) : (s.gatedFor st cause).desk = s.desk ∧
    (s.gatedFor st cause).cores = s.cores ∧ (s.gatedFor st cause).regs = s.regs := by
  unfold State.gatedFor
  split
  · exact ⟨rfl, rfl, rfl⟩
  · exact ⟨s.gate_desk st, rfl, rfl⟩

/-- The causes of an abort that suspend the stream and present nothing again, with the stream's SUSP (R366). -/
def suspCauses : List (Nat × Nat) := [(3, 4), (4, 3), (6, 3)]

theorem State.abortStep_suspends (s : State) (st : Step) {cause susp : Nat} (h : (cause, susp) ∈ suspCauses) :
    s.abortStep st cause = (((s.gatedFor st cause).letGo st.stream).suspend st.stream susp).lgrStep st 5 cause := by
  simp only [suspCauses, List.mem_cons, Prod.mk.injEq, List.not_mem_nil, or_false] at h
  rcases h with ⟨rfl, rfl⟩ | ⟨rfl, rfl⟩ | ⟨rfl, rfl⟩ <;> rfl

theorem State.abortStep_lets (s : State) (st : Step) {cause susp : Nat} (h : (cause, susp) ∈ suspCauses) : let t := s.abortStep st cause
    LetGo s t st.stream ∧ t.ent st.stream eLife = 2 ∧ t.ent st.stream eSusp = susp := by
  have hs : susp % 2 ^ 4 = susp := by
    simp only [suspCauses, List.mem_cons, Prod.mk.injEq, List.not_mem_nil, or_false] at h
    omega
  intro t
  have ht : t = _ := s.abortStep_suspends st h
  clear_value t
  obtain ⟨gd, gc, gr⟩ := s.gatedFor_keeps st cause
  obtain ⟨hl, -, -⟩ := (s.gatedFor st cause).letGo_lets st.stream
  generalize s.gatedFor st cause = g at *
  have hb := (g.letGo st.stream).suspend_board st.stream susp
  obtain ⟨e1, e2, e3, e4, e5⟩ := (g.letGo st.stream).suspend_ent st.stream susp
  have hv := hl.board hb e3 e4 e5
  generalize (g.letGo st.stream).suspend st.stream susp = v at *
  have hd : t.desk = v.desk := by rw [ht, State.lgrStep, State.lgrPush_desk]
  have hc : t.cores = v.cores := by rw [ht, State.lgrStep, State.lgrPush_cores]
  have hu : BitsUp v t := by
    rw [ht]
    exact v.lgrPush_up _ _
  exact ⟨hv.of_kept gd.symm gc.symm (BitsUp.of_regs gr) hd hc hu, (desk_ent hd _ _).trans e1, ((desk_ent hd _ _).trans e2).trans hs⟩

end Sys2Proof.Machine
end

section
/-! The strike of a slot whose bytes are not to be had (R64, R82, R253, R254). -/

namespace Sys2Proof.Machine

/-- A step aborted, and its stream suspended. -/
structure Aborted (s t : State) (x susp : Nat) : Prop where
  step : t.stepOf x = none
  half : t.ent x eHalf = s.ent x eHalf
  life : t.ent x eLife = 2
  susp : t.ent x eSusp = susp
  run : t.ent x eRun = 0
  mem : t.mem = s.mem

theorem Aborted.of_desk {s t u v : State} {x n : Nat} (h : Aborted s t x n) (hs : s.desk = u.desk) (ht : v.desk = t.desk) : Aborted u v x n :=
  ⟨(desk_stepOf ht x).trans h.step, ((desk_ent ht x _).trans h.half).trans (desk_ent hs x _), (desk_ent ht x _).trans h.life,
    (desk_ent ht x _).trans h.susp, (desk_ent ht x _).trans h.run, ((desk_mem ht).trans h.mem).trans (desk_mem hs)⟩

theorem State.abortStep_aborts (s : State) (st : Step) {cause susp : Nat} (h : (cause, susp) ∈ suspCauses) :
    Aborted s (s.abortStep st cause) st.stream susp ∧ BitsUp s (s.abortStep st cause) := by
  obtain ⟨hl, hlife, hsusp⟩ := s.abortStep_lets st h
  exact ⟨⟨hl.step, hl.half, hlife, hsusp, hl.run, hl.mem⟩, hl.up⟩

/-- A step whose place does not stand (R253). -/
theorem State.stageLost_aborts (s : State) (st : Step) : let t := s.stageLost st false
    Aborted s t st.stream 4 ∧ t.flag (streamDie st.stream) SD_EVENT_ADDR_FAULT = true ∧
    (s.flag (streamDie st.stream) MSH_EVENT_TIMEOUT = true → t.flag (streamDie st.stream) MSH_EVENT_TIMEOUT = true) := by
  intro t
  obtain ⟨d, hd⟩ : ∃ d, d = streamDie st.stream := ⟨_, rfl⟩
  obtain ⟨w, hw⟩ : ∃ w, w = (s.setFld d SD_FAULT_STREAM st.stream) := ⟨_, rfl⟩
  have ht : t = (w.event d SD_EVENT_ADDR_FAULT).abortStep st 0x03 := by
    have : t = s.stageLost st false := rfl
    clear_value t
    rw [this, State.stageLost, hw, hd, if_neg Bool.false_ne_true]
  have hflag : w.flag d MSH_EVENT_TIMEOUT = s.flag d MSH_EVENT_TIMEOUT := by
    rw [hw, State.flag, State.flag, State.fld_setFld_ne _ _ _ SD_FAULT_STREAM MSH_EVENT_TIMEOUT _ (by simp only [dkey]; omega)]
  have hdesk : (w.event d SD_EVENT_ADDR_FAULT).desk = s.desk := by
    rw [(w.event_housekept d _).desk, hw, (s.setFld_housekept d _ _).desk]
  obtain ⟨ha, hu⟩ := (w.event d SD_EVENT_ADDR_FAULT).abortStep_aborts st (cause := 3) (susp := 4) (by decide)
  rw [← ht] at ha hu
  rw [← hd]
  exact ⟨ha.of_desk hdesk rfl, hu.flag d rfl (w.flag_event d _ (by decide) rfl),
    fun h => hu.flag d rfl ((w.event_up d _).flag d rfl (hflag.trans h))⟩

section Strike
variable {u v : State} {st : Step} {site : Nat} {r : SlotRec} {bad : Bool}

/-- The bytes of a slot that its strike moves have passed to the director (R80, R82). -/
def Moved (u v : State) (st : Step) (site : Nat) (r : SlotRec) (bad : Bool) : Prop :=
  u.directorPad (some st.act) (streamDie st.stream) site (r.off + 64 * (1 + r.nchan)) (r.len - 64 * (1 + r.nchan)) false = (v, bad)

theorem Moved.metered (h : Moved u v st site r bad) : Metered u v := by
  have hm := u.directorPad_metered (some st.act) (streamDie st.stream) site (r.off + 64 * (1 + r.nchan)) (r.len - 64 * (1 + r.nchan)) false
  rw [Moved] at h
  rwa [h] at hm

theorem Moved.strike_shut (h : Moved u v st site r true) : u.strikeStep st site r .ok = v.stageLost st false := by
  unfold State.strikeStep
  dsimp only
  rw [h]
  simp only [show (Arrival.ok == Arrival.parity) = false from rfl, reduceCtorEq, if_false, if_true, Bool.false_eq_true]

theorem Moved.strike_parity (h : Moved u v st site r false) :
    u.strikeStep st site r .parity = ((v.meshParity (streamDie st.stream)).count 4 (streamDie st.stream) 10 32 1).abortStep st 0x06 := by
  unfold State.strikeStep
  dsimp only
  rw [h]
  simp only [show (Arrival.parity == Arrival.parity) = true from rfl, reduceCtorEq, if_false, if_true, Bool.false_eq_true, Bool.true_or]

theorem Moved.strike_lost (h : Moved u v st site r false) : u.strikeStep st site r .busError =
    (v.meshTimedOut (streamDie st.stream) (padBase site + r.off + 64 * (1 + r.nchan))).stageLost st false := by
  unfold State.strikeStep
  dsimp only
  rw [h]
  simp only [show (Arrival.busError == Arrival.parity) = false from rfl, reduceCtorEq, if_false, if_true, Bool.false_eq_true]

theorem Moved.strike_poisoned (h : Moved u v st site r false)
    (hp : v.poisoned (padBase site + r.off + 64 * (1 + r.nchan)) (r.len - 64 * (1 + r.nchan)) = true) :
    u.strikeStep st site r .ok = (v.count 4 (streamDie st.stream) 10 32 1).abortStep st 0x06 := by
  unfold State.strikeStep
  dsimp only
  rw [h]
  simp only [show (Arrival.ok == Arrival.parity) = false from rfl, reduceCtorEq, if_false, if_true, Bool.false_eq_true, Bool.false_or, hp]

/-- The slot's state body written back to the half that stands free (R82). -/
def State.writtenBack (v : State) (st : Step) (site : Nat) (r : SlotRec) : State :=
  v.ringWrite (some st.act) (streamDie st.stream) (v.halfAddr st.stream (1 - v.ent st.stream eHalf)) (v.slotState site r) false .ok

theorem Moved.strike_held (h : Moved u v st site r false) {w : State}
    (hp : v.poisoned (padBase site + r.off + 64 * (1 + r.nchan)) (r.len - 64 * (1 + r.nchan)) = false)
    (ha : (v.writtenBack st site r).auditDraw st = (w, false)) (hs : r.suspect ≠ 0) :
    u.strikeStep st site r .ok = w.holdStep st site r r.suspect := by
  unfold State.strikeStep
  dsimp only
  rw [h]
  rw [State.writtenBack] at ha
  simp only [show (Arrival.ok == Arrival.parity) = false from rfl, reduceCtorEq, if_false, Bool.false_eq_true, Bool.false_or, hp, ha,
    if_pos hs]

theorem Moved.strike_commits (h : Moved u v st site r false) {w : State}
    (hp : v.poisoned (padBase site + r.off + 64 * (1 + r.nchan)) (r.len - 64 * (1 + r.nchan)) = false)
    (ha : (v.writtenBack st site r).auditDraw st = (w, false)) (hs : r.suspect = 0) :
    u.strikeStep st site r .ok = w.commitStep st site r false := by
  unfold State.strikeStep
  dsimp only
  rw [h]
  rw [State.writtenBack] at ha
  simp only [show (Arrival.ok == Arrival.parity) = false from rfl, reduceCtorEq, if_false, Bool.false_eq_true, Bool.false_or, hp, ha,
    hs, ne_eq, not_true]

end Strike

end Sys2Proof.Machine
end

section
/-! What a strike leaves where its bytes are not to be had (R64, R82, R253, R254). -/

namespace Sys2Proof.Machine

theorem State.meshParity_desk (s : State) (d : Nat) : (s.meshParity d).desk = s.desk :=
  ((s.countFld d MSH_ERR_CNT_DATA 1).event_housekept d _).desk.trans (s.setFld_housekept d _ _).desk

theorem State.meshTimedOut_desk (s : State) (d g : Nat) : (s.meshTimedOut d g).desk = s.desk :=
  ((State.setRg_housekept _ _ _).desk.trans (State.setRg_housekept _ _ _).desk).trans (s.event_housekept d _).desk

section Strike
variable {u v : State} {st : Step} {site : Nat} {r : SlotRec}

theorem Moved.shut_aborts (h : Moved u v st site r true) : let t := u.strikeStep st site r .ok
    Aborted u t st.stream 4 ∧ t.flag (streamDie st.stream) SD_EVENT_ADDR_FAULT = true := by
  rw [h.strike_shut]
  obtain ⟨ha, hf, -⟩ := v.stageLost_aborts st
  exact ⟨ha.of_desk h.metered.desk rfl, hf⟩

theorem Moved.parity_aborts (h : Moved u v st site r false) : let t := u.strikeStep st site r .parity
    Aborted u t st.stream 3 ∧ t.flag (streamDie st.stream) MSH_EVENT_PARITY = true := by
  rw [h.strike_parity]
  obtain ⟨w, hw⟩ : ∃ w, w = v.meshParity (streamDie st.stream) := ⟨_, rfl⟩
  have hd : w.desk = v.desk := by rw [hw, State.meshParity_desk]
  have hf : w.flag (streamDie st.stream) MSH_EVENT_PARITY = true := by
    rw [hw]
    exact State.flag_event _ _ MSH_EVENT_PARITY (by decide) rfl
  rw [← hw]
  obtain ⟨ha, hu⟩ := (w.count 4 (streamDie st.stream) 10 32 1).abortStep_aborts st (cause := 6) (susp := 3) (by decide)
  refine ⟨ha.of_desk ((State.count_desk _ _ _ _ _ _).trans (hd.trans h.metered.desk)) rfl, hu.flag _ rfl ?_⟩
  rw [State.flag_of_regs (State.count_regs _ _ _ _ _ _), hf]

theorem Moved.lost_aborts (h : Moved u v st site r false) : let t := u.strikeStep st site r .busError
    Aborted u t st.stream 4 ∧ t.flag (streamDie st.stream) MSH_EVENT_TIMEOUT = true := by
  rw [h.strike_lost]
  obtain ⟨ha, -, hf⟩ := (v.meshTimedOut (streamDie st.stream) (padBase site + r.off + 64 * (1 + r.nchan))).stageLost_aborts st
  exact ⟨ha.of_desk ((v.meshTimedOut_desk _ _).trans h.metered.desk) rfl, hf (v.flag_meshTimedOut _ _)⟩

theorem Moved.poisoned_aborts (h : Moved u v st site r false)
    (hp : u.poisoned (padBase site + r.off + 64 * (1 + r.nchan)) (r.len - 64 * (1 + r.nchan)) = true) :
    Aborted u (u.strikeStep st site r .ok) st.stream 3 := by
  rw [h.strike_poisoned (by rw [desk_poisoned h.metered.desk, hp])]
  obtain ⟨ha, -⟩ := (v.count 4 (streamDie st.stream) 10 32 1).abortStep_aborts st (cause := 6) (susp := 3) (by decide)
  exact ha.of_desk ((State.count_desk _ _ _ _ _ _).trans h.metered.desk) rfl

end Strike

end Sys2Proof.Machine
end

section
/-! A slot's state body written back to the half of its stream that stands free (R79, R82). -/

namespace Sys2Proof.Machine

/-- A whole write to a home's stack that nothing meets. -/
theorem State.ringWrite_ok (s : State) (act : Option Nat) (d : Nat) {a : Nat} {l : List Byte} (hl : l ≠ []) (h : hbmIn a l.length = true)
    (psn : Bool) : s.ringWrite act d a l psn .ok = (s.access act d a l.length true).writeMem a l psn := by
  have hp : s.ringParity d a .ok = (s, false) := rfl
  have hm : ringLost d a .ok = false := rfl
  unfold State.ringWrite
  dsimp only
  rw [if_neg (by rw [List.isEmpty_iff]; exact hl), h, if_neg (by decide), hm, if_neg Bool.false_ne_true, hp]
  dsimp only
  rw [Bool.or_false]

theorem State.auditDraw_none (s : State) (st : Step) (h : actAud (s.act st.act) = false) : s.auditDraw st = (s, false) := by
  unfold State.auditDraw
  dsimp only
  rw [h, if_pos (by simp)]

theorem desk_slotState {s t : State} (h : t.desk = s.desk) (site : Nat) (r : SlotRec) : t.slotState site r = s.slotState site r :=
  desk_bytes h _ _

theorem MemBut.of_mem {s t u : State} {a n : Nat} (h : MemBut s t a n) (hm : s.mem = u.mem) : MemBut u t a n := fun b hb =>
  (h b hb).trans (State.byte_of_mem hm b)

theorem State.writeMem_but (s : State) (a : Nat) (l : List Byte) (p : Bool) : MemBut s (s.writeMem a l p) a l.length := fun b hb => by
  rw [State.byte_writeMem, if_neg hb]

section Strike
variable {u v : State} {st : Step} {site : Nat} {r : SlotRec}

/-- What a state body written back leaves. -/
structure WroteBack (u w : State) (st : Step) (site : Nat) (r : SlotRec) : Prop where
  cores : w.cores = u.cores
  regs : w.regs = u.regs
  body : w.bytes (u.halfAddr st.stream (1 - u.ent st.stream eHalf)) (64 * r.units) = u.slotState site r
  but : MemBut u w (u.halfAddr st.stream (1 - u.ent st.stream eHalf)) (64 * r.units)
  desk : ∃ m p e, w.desk = { u.desk with mem := m, poison := p, ueRead := e }

theorem Moved.writes (h : Moved u v st site r false) (hn : 0 < r.units)
    (hin : hbmIn (u.halfAddr st.stream (1 - u.ent st.stream eHalf)) (64 * r.units) = true) :
    WroteBack u (v.writtenBack st site r) st site r := by
  have hv := h.metered
  obtain ⟨a, ha⟩ : ∃ a, a = u.halfAddr st.stream (1 - u.ent st.stream eHalf) := ⟨_, rfl⟩
  obtain ⟨l, hl⟩ : ∃ l, l = u.slotState site r := ⟨_, rfl⟩
  have hlen : l.length = 64 * r.units := by
    rw [hl]
    exact u.bytes_len _ _
  rw [← ha, ← hlen] at hin
  have hne : l ≠ [] := fun e => by
    rw [e, List.length_nil] at hlen
    omega
  have hm := v.access_meters (some st.act) (streamDie st.stream) a l.length true
  have hw : v.writtenBack st site r = (v.access (some st.act) (streamDie st.stream) a l.length true).writeMem a l false := by
    rw [State.writtenBack, desk_halfAddr hv.desk, desk_ent hv.desk, desk_slotState hv.desk, ← ha, ← hl, v.ringWrite_ok _ _ hne hin]
  generalize v.access (some st.act) (streamDie st.stream) a l.length true = y at hm hw
  have hy := hv.trans hm
  refine ⟨?_, ?_, ?_, ?_, ?_⟩
  · rw [hw, State.writeMem_cores, hy.same State.cores fun _ _ _ => rfl]
  · rw [hw, State.writeMem_regs, hy.regs]
  · rw [hw, ← ha, ← hl, ← hlen, State.bytes_writeMem]
  · rw [hw, ← ha, ← hlen]
    exact (y.writeMem_but a l false).of_mem (desk_mem hy.desk)
  · rw [hw, State.writeMem_desk, hy.desk]
    exact ⟨_, _, _, rfl⟩

theorem WroteBack.same {w : State} (h : WroteBack u w st site r) :
    w.cb = u.cb ∧ w.steps = u.steps ∧ w.backlog = u.backlog ∧ w.actA = u.actA := by
  obtain ⟨m, p, e, hd⟩ := h.desk
  exact ⟨congrArg Desk.cb hd, congrArg Desk.steps hd, congrArg Desk.backlog hd, congrArg Desk.acts hd⟩

end Strike

end Sys2Proof.Machine
end

section
/-! A step committed (R64, R82, R85). -/

namespace Sys2Proof.Machine

theorem State.count_metered (s : State) (unit d idx w n : Nat) : Metered s (s.count unit d idx w n) :=
  (s.count_light unit d idx w n).metered (s.count_regs unit d idx w n)

theorem State.meterEgress_metered (s : State) (st : Step) (r : SlotRec) : Metered s (s.meterEgress st r) :=
  (s.meter_light _ _ _ _).metered (s.meter_regs _ _ _ _)

/-- The callboard at a commit: the half turned and the step counted (R82). -/
def State.turned (s : State) (x : Nat) : State :=
  (s.setEnt x eHalf (1 - s.ent x eHalf)).setEnt x eStepCnt ((s.setEnt x eHalf (1 - s.ent x eHalf)).ent x eStepCnt + 1)

theorem State.turned_ent (s : State) (x : Nat) : BoardOnly s (s.turned x) ∧ (s.turned x).ent x eHalf = 1 - s.ent x eHalf ∧
    (s.turned x).ent x eStepCnt = (s.ent x eStepCnt + 1) % 2 ^ 32 ∧ (s.turned x).ent x eRun = s.ent x eRun := by
  have hs : (s.setEnt x eHalf (1 - s.ent x eHalf)).ent x eStepCnt = s.ent x eStepCnt :=
    s.ent_setEnt_apart x (f := eHalf) (g := eStepCnt) _ (by decide) (.inr (by decide))
  unfold State.turned
  rw [hs]
  refine ⟨(s.setEnt_board x _ _).trans (State.setEnt_board _ x _ _), ?_, State.ent_setEnt _ x eStepCnt _ (by decide), ?_⟩
  · rw [State.ent_setEnt_apart _ x (f := eStepCnt) (g := eHalf) _ (by decide) (.inl (by decide)), s.ent_setEnt x eHalf _ (by decide)]
    exact Nat.mod_eq_of_lt (by show 1 - s.ent x eHalf < 2; omega)
  · rw [State.ent_setEnt_apart _ x (f := eStepCnt) (g := eRun) _ (by decide) (.inl (by decide)),
      s.ent_setEnt_apart x (f := eHalf) (g := eRun) _ (by decide) (.inr (by decide))]

/-- A commit's egress record made to wait, and its deliveries. -/
theorem State.withCommit_desk (s : State) (b : List (Nat × EgrRec)) (l : List Delivery) :
    ({ s with backlog := b, deliveries := l } : State).desk = { s.desk with backlog := b } := rfl

/-- What a commit leaves for the directors and the egress. -/
theorem State.commitStep_leaves (s : State) (st : Step) (site : Nat) {r : SlotRec} (hc : r.cont = false) :
    ∃ (v : State) (e : EgrRec), v = (s.letGo st.stream).turned st.stream ∧
      (s.commitStep st site r false).desk = { v.desk with backlog := v.backlog ++ [(streamDie st.stream, e)] } ∧
      e.stream = st.stream ∧ e.status = 0 ∧ e.frame = st.frame ∧ e.tag = st.tag ∧ e.stepCnt = v.ent st.stream eStepCnt := by
  obtain ⟨v, hv⟩ : ∃ v, v = (s.letGo st.stream).turned st.stream := ⟨_, rfl⟩
  obtain ⟨t, ht⟩ : ∃ t, t = s.commitStep st site r false := ⟨_, rfl⟩
  rw [← ht]
  unfold State.commitStep at ht
  extract_lets x d hdr flags seql p0 units p cont s1 s2 s3 s4 s5 e s6 s7 at ht
  have hcont : cont = false := by
    dsimp only [cont]
    rw [hc, Bool.false_and]
  have h3 : s3 = v := hv.symm
  clear_value s3
  have h4 : s4.desk = s3.desk := s3.lgrPush_desk _ _
  clear_value s4
  have h5 : s5 = s4 := by
    dsimp only [s5]
    rw [hcont, if_neg Bool.false_ne_true]
  clear_value s5
  have h7 : s7.desk = s5.desk :=
    (((s5.count_metered 6 d 1 16 1).trans (State.count_metered _ 6 0 14 32 1)).trans (s6.meterEgress_metered st r)).desk
  clear_value s7
  have hd : s7.desk = v.desk := h7.trans ((congrArg State.desk h5).trans (h4.trans (congrArg State.desk h3)))
  have hest : e.stepCnt = s5.ent x eStepCnt := rfl
  refine ⟨v, e, hv, ?_, rfl, rfl, rfl, rfl, ?_⟩
  · rw [ht, State.withCommit_desk, desk_backlog hd, hd]
  · rw [hest, h5, desk_ent h4, h3]

/-- A step committed: its record waits, its stream runs no more, and its state stands in the half it has turned to. -/
structure Committed (s t : State) (st : Step) : Prop where
  step : t.stepOf st.stream = none
  half : t.ent st.stream eHalf = 1 - s.ent st.stream eHalf
  count : t.ent st.stream eStepCnt = (s.ent st.stream eStepCnt + 1) % 2 ^ 32
  run : t.ent st.stream eRun = 0
  mem : t.mem = s.mem
  record : ∃ e : EgrRec, t.backlog = s.backlog ++ [(streamDie st.stream, e)] ∧ e.stream = st.stream ∧ e.status = 0 ∧
    e.frame = st.frame ∧ e.tag = st.tag ∧ e.stepCnt = (s.ent st.stream eStepCnt + 1) % 2 ^ 32

theorem State.commitStep_commits (s : State) (st : Step) (site : Nat) {r : SlotRec} (hc : r.cont = false) :
    Committed s (s.commitStep st site r false) st := by
  obtain ⟨v, e, hv, hd, r1, r2, r3, r4, r5⟩ := s.commitStep_leaves st site hc
  obtain ⟨hl, hk, hld⟩ := s.letGo_lets st.stream
  obtain ⟨hb, e1, e2, e3⟩ := (s.letGo st.stream).turned_ent st.stream
  rw [← hv] at hb e1 e2 e3
  generalize s.letGo st.stream = l at *
  generalize s.commitStep st site r false = t at hd ⊢
  have hcb : t.cb = v.cb := congrArg Desk.cb hd
  have hst : t.steps = v.steps := congrArg Desk.steps hd
  have hmem : t.mem = v.mem := congrArg Desk.mem hd
  have hlog : t.backlog = v.backlog ++ [(streamDie st.stream, e)] := congrArg Desk.backlog hd
  have hvlog : v.backlog = s.backlog := (hb _ State.backlog fun _ _ => rfl).trans (congrArg Desk.backlog hld)
  have hvst : v.stepOf st.stream = none := (hb _ (fun u => u.stepOf st.stream) fun _ _ => rfl).trans hl.step
  refine ⟨?_, ?_, ?_, ?_, ?_, e, ?_, r1, r2, r3, r4, ?_⟩
  · rw [← hvst, State.stepOf, State.stepOf, hst]
  · rw [State.ent_of_cb hcb, e1, hl.half]
  · rw [State.ent_of_cb hcb, e2, hk]
  · rw [State.ent_of_cb hcb, e3, hl.run]
  · rw [hmem, hb _ State.mem fun _ _ => rfl, hl.mem]
  · rw [hlog, hvlog]
  · rw [r5, e2, hk]

end Sys2Proof.Machine
end

section
/-! The strike of a slot whose step commits, or is held (R64, R82, R364). -/

namespace Sys2Proof.Machine

section Strike
variable {u v : State} {st : Step} {site : Nat} {r : SlotRec}

/-- Where the director's bytes are in order, a strike writes the state back. -/
theorem Moved.draws (h : Moved u v st site r false) (haud : actAud (u.act st.act) = false) (hn : 0 < r.units)
    (hin : hbmIn (u.halfAddr st.stream (1 - u.ent st.stream eHalf)) (64 * r.units) = true) :
    ∃ w, (v.writtenBack st site r).auditDraw st = (w, false) ∧ WroteBack u w st site r := by
  have hw := h.writes hn hin
  refine ⟨_, State.auditDraw_none _ st ?_, hw⟩
  rw [State.act, hw.same.2.2.2]
  exact haud

theorem Moved.commits (h : Moved u v st site r false)
    (hp : u.poisoned (padBase site + r.off + 64 * (1 + r.nchan)) (r.len - 64 * (1 + r.nchan)) = false)
    (haud : actAud (u.act st.act) = false) (hn : 0 < r.units)
    (hin : hbmIn (u.halfAddr st.stream (1 - u.ent st.stream eHalf)) (64 * r.units) = true) (hs : r.suspect = 0) (hc : r.cont = false) :
    ∃ w, WroteBack u w st site r ∧ Committed w (u.strikeStep st site r .ok) st := by
  obtain ⟨w, hd, hw⟩ := h.draws haud hn hin
  refine ⟨w, hw, ?_⟩
  rw [h.strike_commits (by rw [desk_poisoned h.metered.desk, hp]) hd hs]
  exact w.commitStep_commits st site hc

end Strike

-- a step held

/-- A step in the place of its stream's step. -/
def State.putStep (s : State) (x : Nat) (st : Step) : State := { s.dropStep x with steps := (s.dropStep x).steps ++ [st] }

theorem State.putStep_puts (s : State) {x : Nat} {st : Step} (h : st.stream = x) : (s.putStep x st).stepOf x = some st ∧
    (s.putStep x st).cb = s.cb ∧ (s.putStep x st).backlog = s.backlog := by
  refine ⟨?_, rfl, rfl⟩
  show ((s.dropStep x).steps ++ [st]).find? (fun st => st.stream == x) = _
  rw [List.find?_append, ← State.stepOf, s.stepOf_dropStep x, Option.none_or, List.find?_singleton, h, beq_self_eq_true, if_pos rfl]

/-- The callboard of a step held: RUN cleared and HELD set (R364). -/
def State.heldSet (s : State) (x : Nat) : State := (s.setEnt x eRun 0).setEnt x eHeld 1

theorem State.heldSet_ent (s : State) (x : Nat) : BoardOnly s (s.heldSet x) ∧ (s.heldSet x).ent x eHeld = 1 ∧ (s.heldSet x).ent x eRun = 0 ∧
    (s.heldSet x).ent x eHalf = s.ent x eHalf := by
  unfold State.heldSet
  refine ⟨(s.setEnt_board x _ _).trans (State.setEnt_board _ x _ _), ?_, ?_, ?_⟩
  · rw [State.ent_setEnt _ x eHeld _ (by decide)]
    rfl
  · rw [State.ent_setEnt_apart _ x (f := eHeld) (g := eRun) _ (by decide) (.inr (by decide)), State.ent_setEnt _ x eRun _ (by decide)]
    rfl
  · rw [State.ent_setEnt_apart _ x (f := eHeld) (g := eHalf) _ (by decide) (.inl (by decide)),
      State.ent_setEnt_apart _ x (f := eRun) (g := eHalf) _ (by decide) (.inl (by decide))]

theorem State.holdRecord_length (s : State) (site off n a b c e : Nat) : (leBytes 8 a ++ leBytes 2 b ++ leBytes 1 c ++ leBytes 1 e ++
    List.replicate 52 0 ++ s.padBytes site off n).length = 64 + n := by
  simp only [List.length_append, leBytes_length, List.length_replicate, State.padBytes, State.bytes_len]

/-- A step held: what it leaves of the callboard, the steps and the records that wait. -/
structure Held (s t : State) (x : Nat) : Prop where
  step : (t.stepOf x).map Step.phase = some .held
  held : t.ent x eHeld = 1
  run : t.ent x eRun = 0
  half : t.ent x eHalf = s.ent x eHalf
  backlog : t.backlog = s.backlog

theorem holdRecord_writes {s v : State} (hm : Metered s v) (d : Nat) {a : Nat} {l : List Byte} (hl : l.length ≠ 0)
    (hin : hbmIn a l.length = true) : (v.ringWrite none d a l false .ok).cb = s.cb ∧ (v.ringWrite none d a l false .ok).backlog = s.backlog := by
  have hne : l ≠ [] := fun e => hl (by rw [e, List.length_nil])
  rw [v.ringWrite_ok none d hne hin false]
  have hd := ((v.access_meters none d a l.length true).desk).trans hm.desk
  have hw := (v.access none d a l.length true).writeMem_desk a l false
  rw [hd] at hw
  exact ⟨congrArg Desk.cb hw, congrArg Desk.backlog hw⟩

theorem padBad_of {s t : State} (hc : t.cores = s.cores) (hr : t.regs = s.regs) (site off n : Nat) :
    t.padBad site off n = s.padBad site off n := by
  simp only [State.padBad, State.bankOk, State.bankCls, State.core_of_cores hc, State.cfld_of_regs hr]

theorem holdAddr_of {s t : State} (hr : t.regs = s.regs) (x : Nat) : t.holdAddr x = s.holdAddr x := by
  rw [State.holdAddr, State.holdAddr, State.rg64_of_regs hr]

theorem State.holdStep_holds (s : State) (st : Step) (site : Nat) {r : SlotRec} (why : Nat)
    (hpad : s.padBad site r.off (64 * (1 + r.nchan)) = false) (hin : hbmIn (s.holdAddr st.stream) (128 + 64 * r.nchan) = true) :
    Held s (s.holdStep st site r why) st.stream := by
  have hm := s.directorPad_metered (some st.act) (streamDie st.stream) site r.off (64 * (1 + r.nchan)) false
  have hbad := s.directorPad_snd (some st.act) (streamDie st.stream) site r.off (64 * (1 + r.nchan)) false
  obtain ⟨t, ht⟩ : ∃ t, t = s.holdStep st site r why := ⟨_, rfl⟩
  rw [← ht]
  unfold State.holdStep at ht
  extract_lets x d at ht
  split at ht
  next v bad hv =>
  have hv' : s.directorPad (some st.act) (streamDie st.stream) site r.off (64 * (1 + r.nchan)) false = (v, bad) := hv
  rw [hv'] at hm hbad
  have hb : bad = false := hbad.trans hpad
  rw [hb, if_neg Bool.false_ne_true] at ht
  extract_lets front rec_ s1 s2 s3 s4 at ht
  have hlen : rec_.length = 128 + 64 * r.nchan := by
    refine (v.holdRecord_length site r.off (64 * (1 + r.nchan)) (v.digest site st.act r).toNat site r.payload why).trans ?_
    omega
  have hin' : hbmIn (v.holdAddr x) rec_.length = true := by
    rw [hlen, hm.same (fun u => u.holdAddr x) fun _ _ _ => rfl]
    exact hin
  clear_value rec_
  have h1 : s1.cb = s.cb ∧ s1.backlog = s.backlog := holdRecord_writes hm d (by omega) hin'
  clear_value s1
  obtain ⟨hbd, e1, e2, e3⟩ := s1.heldSet_ent x
  have h2 : s2 = s1.heldSet x := rfl
  rw [← h2] at hbd e1 e2 e3
  clear_value s2
  obtain ⟨⟨st', hp, hs⟩, k2, k3⟩ : (∃ st', s4.stepOf x = some st' ∧ st'.phase = .held) ∧ s4.cb = s2.cb ∧ s4.backlog = s2.backlog := by
    obtain ⟨k1, k2, k3⟩ := s2.putStep_puts (x := x) (st := { st with phase := .held, site := site, suspect := why }) rfl
    exact ⟨⟨_, k1, rfl⟩, k2, k3⟩
  clear_value s4
  have hd : t.desk = s4.desk := by
    rw [ht, (State.meterEgress_metered _ st r).desk, State.count_desk]
    exact s4.lgrPush_desk _ _
  refine ⟨?_, ?_, ?_, ?_, ?_⟩
  · rw [desk_stepOf hd, hp, Option.map_some, hs]
  · rw [desk_ent hd, State.ent_of_cb k2, e1]
  · rw [desk_ent hd, State.ent_of_cb k2, e2]
  · rw [desk_ent hd, State.ent_of_cb k2, e3, State.ent_of_cb h1.1]
  · rw [desk_backlog hd, k3, hbd _ State.backlog fun _ _ => rfl, h1.2]

theorem Moved.holds {u v : State} {st : Step} {site : Nat} {r : SlotRec} (h : Moved u v st site r false)
    (hp : u.poisoned (padBase site + r.off + 64 * (1 + r.nchan)) (r.len - 64 * (1 + r.nchan)) = false)
    (haud : actAud (u.act st.act) = false) (hn : 0 < r.units)
    (hin : hbmIn (u.halfAddr st.stream (1 - u.ent st.stream eHalf)) (64 * r.units) = true) (hs : r.suspect ≠ 0)
    (hpad : u.padBad site r.off (64 * (1 + r.nchan)) = false) (hhold : hbmIn (u.holdAddr st.stream) (128 + 64 * r.nchan) = true) :
    Held u (u.strikeStep st site r .ok) st.stream := by
  obtain ⟨w, hd, hw⟩ := h.draws haud hn hin
  obtain ⟨hcb, -, hlog, -⟩ := hw.same
  rw [h.strike_held (by rw [desk_poisoned h.metered.desk, hp]) hd hs]
  obtain ⟨k1, k2, k3, k4, k5⟩ := w.holdStep_holds st site (r := r) r.suspect (by rw [padBad_of hw.cores hw.regs, hpad])
    (by rw [holdAddr_of hw.regs, hhold])
  exact ⟨k1, k2, k3, k4.trans (State.ent_of_cb hcb _ _), k5.trans hlog⟩

end Sys2Proof.Machine
end

section
/-! The strike's command (R64, R82, R240). -/

namespace Sys2Proof.Machine

/-- The slot that a strike finds, and the step that runs in it. -/
structure Struck (u : State) (site slot : Nat) (b : Running) (r : SlotRec) (st : Step) : Prop where
  on : u.resetting ≠ .stopped
  batch : (u.core site).batches.find? (strikable slot) = some b
  slot : b.slots[slot]? = some r
  step : u.stepOf r.stream = some st
  phase : st.phase = .running
  act : st.act = b.act
  frame : st.frame = b.frame

theorem Struck.strikes {s : State} {at_ site slot : Nat} {b : Running} {r : SlotRec} {st : Step} (h : Struck (s.tick at_) site slot b r st)
    (w : Arrival) : ∃ n, exec (.strike site slot ⟨at_, w⟩) s =
      done ((((s.tick at_).strikeStep st site r w).modCore site (fun c => c.markStruck slot)).freeStage site n) := by
  refine ⟨((((s.tick at_).strikeStep st site r w).modCore site (fun c => c.markStruck slot)).core site).ended.length, ?_⟩
  rw [exec_strike, execStrike]
  dsimp only
  rw [if_neg h.on, h.batch]
  dsimp only
  rw [h.slot]
  dsimp only
  rw [h.step]
  dsimp only
  rw [if_pos ⟨h.phase, h.act, h.frame⟩]

/-- What the directors work on, and the units' registers, are as the strike of the step leaves them. -/
theorem Struck.yields {s : State} {at_ site slot : Nat} {b : Running} {r : SlotRec} {st : Step} (h : Struck (s.tick at_) site slot b r st)
    (w : Arrival) {p : State → Prop} (hp : ∀ t : State, t.desk = ((s.tick at_).strikeStep st site r w).desk →
      (∀ d, ∀ f : RF, f.off < 0x1000000 → t.flag d f = ((s.tick at_).strikeStep st site r w).flag d f) → p t) :
    Yields (exec (Instr.strike site slot ⟨at_, w⟩) s) p := by
  obtain ⟨n, hn⟩ := h.strikes w
  rw [hn]
  have ha := ((s.tick at_).strikeStep st site r w).struck_at site slot n
  refine yields_done (hp _ ?_ fun d f hf => ?_)
  · rw [State.settle_desk, ha.desk]
  · rw [State.settle_flag, ha.flag d hf]

end Sys2Proof.Machine
end

section
/-! A held step without replay capacity (R364, R369). -/

namespace Sys2Proof.Machine

theorem State.packOpen_found (s : State) (x : Pack) (cyc i site own d stream u e : Nat) :
    (s.packOpen x cyc i site own d stream u e).2 ≠ .none_ := by
  unfold State.packOpen
  split
  · exact fun h => nomatch h
  · exact fun h => nomatch h

theorem State.packNew_found (s : State) (x : Pack) (cyc code site own d u e : Nat) (st : Step) :
    (s.packNew x cyc code site own d u e st).2 ≠ .none_ := by
  unfold State.packNew
  extract_lets p prep pc pb c
  split
  · exact fun h => nomatch h
  · exact fun h => nomatch h

theorem State.packFresh_found (s : State) (x : Pack) {code d u e : Nat} {cyc own v : Nat} {st : Step} :
    (if actStgSize e < u then (x, RplRes.carried) else s.packNew x cyc code v own d u e st).2 ≠ .none_ := by
  split
  · exact fun h => nomatch h
  · exact State.packNew_found s x _ _ _ _ _ _ _ _

/-- A step without replay capacity uses none. -/
theorem State.packOne_none {s : State} {x : Pack} {code d : Nat} {st : Step} (h : (s.packOne x code d st).2 = .none_) :
    (s.packOne x code d st).1 = x := by
  unfold State.packOne at h ⊢
  extract_lets e p us cyc own u other failed open_ site cs load at h
  by_cases hno : (actSpan e || !actDies e p || us.isEmpty || (failed && us.all (fun v => s.needsPrep x v st.act))) = true
  · exact congrArg Prod.fst (if_pos hno)
  · rw [if_neg hno] at h
    clear_value open_ site cs
    exfalso
    match open_, site, cs with
    | some i, some v, _ => exact State.packOpen_found s x _ _ _ _ _ _ _ _ h
    | none, _, [] => exact nomatch h
    | some _, none, [] => exact nomatch h
    | none, _, v :: l => exact State.packFresh_found s x h
    | some _, none, v :: l => exact State.packFresh_found s x h

theorem State.packAll_one (s : State) (x : Pack) (code d : Nat) (st : Step) :
    s.packAll code d x [st] = ((s.packOne x code d st).1, [(st, (s.packOne x code d st).2)]) := by
  unfold State.packAll
  generalize s.packOne x code d st = p
  unfold State.packAll
  rfl

theorem State.sameUse (s : State) : ({ s with rplUsed := s.rplUsed } : State) = s := rfl

/-- The one step due, without capacity. -/
theorem State.placeReplays_none {u : State} {d : Nat} {st : Step} (hdue : u.rplDue d u.frame = [st])
    (h : (u.packOne ⟨u.rplUsed, [], []⟩ (u.fld 0 CUR_CLK_CUR) d st).2 = .none_) : u.placeReplays d = u.noReplay st := by
  have hx := State.packOne_none h
  unfold State.placeReplays
  rw [hdue, State.packAll_one, hx, h]
  dsimp only
  rw [State.sameUse u, List.foldl_cons, List.foldl_nil, List.foldl_nil]

end Sys2Proof.Machine
end

section
/-! A held step aborted for want of replay capacity (R342, R364, R369). -/

namespace Sys2Proof.Machine

/-- The registers of a die's units stand below those of its control blocks (R263). -/
def unitOff (off : Nat) : Bool := decide (off < 0x1000000)

theorem unitOff_src (off : Nat) (h : off / 0x1000 = 0xB1) : unitOff off = true := decide_eq_true (by omega)

theorem logOff_unit (off : Nat) (h : unitOff off = false) : logOff off = false := by
  have ho : ¬ off < 0x1000000 := of_decide_eq_false h
  have h1 : (off == 0x100014) = false := beq_eq_false_iff_ne.2 (by omega)
  have h2 : (off == 0x10001C) = false := beq_eq_false_iff_ne.2 (by omega)
  have h3 : (off / 0x1000 == 0xB1) = false := beq_eq_false_iff_ne.2 (by omega)
  rw [logOff, h1, h2, h3]
  rfl

/-- Where only the units' registers differ, the cores' flags stand. -/
theorem RegsBut.cflag {s t : State} (h : RegsBut unitOff s t) (site : Nat) {f : RF} (hf : f.off < 0x10000) :
    t.cflag site f = s.cflag site f := by
  have hk : unitOff (ckey site f.off % 0x4000000) = false := by
    rw [(ckey_split site f.off hf).2]
    exact decide_eq_false (by simp only [siteOff]; omega)
  rw [State.cflag, State.cflag, State.cfld, State.cfld, State.fldAt, State.fldAt, h _ hk]

theorem State.integrity_keeps (s : State) (d : Nat) {f : RF} (site stream cause : Nat) (hf : f.off < 0x1000000) (hw : f.hi = f.lo)
    (hl : f.lo < 32) (hp : logOff f.off = false) :
    Housekept s (s.integrity d f site stream cause) ∧ RegsBut unitOff s (s.integrity d f site stream cause) ∧
    (s.integrity d f site stream cause).flag d f = true := by
  have he := s.event_but d f (p := unitOff) (by omega) (decide_eq_true hf) unitOff_src
  have hh := s.event_housekept d f
  have hflag := s.flag_event d f hl hw
  unfold State.integrity
  generalize s.event d f = v at *
  have hr : v.fresh.2.regs = v.regs := rfl
  have hv := v.fresh_housekept
  obtain ⟨⟨x, w⟩, hvw⟩ : ∃ y, v.fresh = y := ⟨_, rfl⟩
  rw [hvw] at hr hv ⊢
  dsimp only at hr hv ⊢
  obtain ⟨k1, -, k3⟩ := w.logRec_keeps (720 + f.lo) d site stream (x % 4) cause
  refine ⟨(hh.trans hv).trans k1, (he.trans (RegsBut.of_regs _ hr)).trans (k3.mono logOff_unit), ?_⟩
  rw [k3.flag d (by omega) hp, State.flag_of_regs hr, hflag]

theorem State.lgrPush_but (s : State) (d rec : Nat) : RegsBut unitOff s (s.lgrPush d rec) := by
  unfold State.lgrPush
  split
  · extract_lets n phase free t
    have ht : RegsBut unitOff s t := RegsBut.of_regs _ (s.withRecord_regs _ _)
    clear_value t
    split
    · exact ht.trans (t.event_but unitOff d LGR_EVENT_LOW (by decide) (by decide) unitOff_src)
    · exact ht
  · exact RegsBut.refl _ s

-- a request presented again

theorem State.withReqs_desk (s : State) (l : List Req) : ({ s with reqs := l } : State).desk = s.desk ∧
    ({ s with reqs := l } : State).cores = s.cores := ⟨rfl, rfl⟩

/-- What presenting a request again leaves: PEND set, and all but the requests and their count as it was. -/
theorem State.present_presents (s : State) (r : Req) : let t := s.present_ r
    t.desk = (s.setEnt r.stream ePend 1).desk ∧ t.cores = s.cores ∧ t.regs = s.regs := by
  have hb := s.setEnt_board r.stream ePend 1
  have hc : (s.setEnt r.stream ePend 1).cores = s.cores := hb _ State.cores fun _ _ => rfl
  have hr : (s.setEnt r.stream ePend 1).regs = s.regs := hb _ State.regs fun _ _ => rfl
  unfold State.present_
  generalize s.setEnt r.stream ePend 1 = v at *
  dsimp only
  split
  · obtain ⟨k1, k2⟩ := v.withReqs_desk (v.reqs ++ [r])
    exact ⟨k1, k2.trans hc, (v.withReqs_regs _).trans hr⟩
  · next q _ =>
    generalize hl : List.map _ _ = l
    obtain ⟨k1, k2⟩ := v.withReqs_desk l
    have kr := v.withReqs_regs l
    split
    · obtain ⟨w, hw⟩ : ∃ w : State, w = { v with reqs := l } := ⟨_, rfl⟩
      rw [← hw] at k1 k2 kr ⊢
      have hm := w.count_metered 0 (streamDie r.stream) 11 32 1
      exact ⟨hm.desk.trans k1, ((w.count_cores _ _ _ _ _).trans k2).trans hc, (hm.regs.trans kr).trans hr⟩
    · exact ⟨k1, k2.trans hc, kr.trans hr⟩

-- a step without replay capacity

theorem State.setEnt_other (s : State) (y x : Nat) {f g : EF} (v : Nat) (hg : g.lo + g.w ≤ 512) (h : f.apart g) :
    (s.setEnt y f v).ent x g = s.ent x g := by
  by_cases hx : x = y
  · rw [hx, s.ent_setEnt_apart y v hg h]
  · rw [s.ent_setEnt_ne hx]

theorem State.abortStep_again (s : State) (st : Step) : s.abortStep st 0x0C =
    (((s.gatedFor st 0x0C).letGo st.stream).lgrStep st 5 0x0C).present_ st.req := rfl

/-- What a step's abort for want of capacity leaves (R364). -/
structure Unreplayed (s t : State) (st : Step) : Prop where
  step : t.stepOf st.stream = none
  held : t.ent st.stream eHeld = 0
  pend : t.ent st.req.stream ePend = 1
  cores : t.cores = s.cores
  siteBad : t.siteBad = s.siteBad
  regs : RegsBut unitOff s t
  up : BitsUp s t

theorem State.letGo_regs (s : State) (x : Nat) : (s.letGo x).regs = s.regs := by
  have hd : (s.dropStep x).regs = s.regs := rfl
  unfold State.letGo
  generalize s.dropStep x = v at *
  exact ((v.clearRun_board x) _ State.regs fun _ _ => rfl).trans hd

theorem State.abortStep_unreplayed (s : State) (st : Step) : Unreplayed s (s.abortStep st 0x0C) st := by
  rw [s.abortStep_again st]
  obtain ⟨gd, gc, gr⟩ := s.gatedFor_keeps st 0x0C
  generalize s.gatedFor st 0x0C = g at *
  obtain ⟨hl, -, ld⟩ := g.letGo_lets st.stream
  have lr := g.letGo_regs st.stream
  generalize g.letGo st.stream = l at *
  obtain ⟨v, hv⟩ : ∃ v, v = l.lgrStep st 5 0x0C := ⟨_, rfl⟩
  have vd : v.desk = l.desk := by rw [hv, State.lgrStep, State.lgrPush_desk]
  have vc : v.cores = l.cores := by rw [hv, State.lgrStep, State.lgrPush_cores]
  have vr : RegsBut unitOff l v := by rw [hv]; exact l.lgrPush_but _ _
  have vu : BitsUp l v := by rw [hv]; exact l.lgrPush_up _ _
  rw [← hv]
  obtain ⟨pd, pc, pr⟩ := v.present_presents st.req
  have hb := v.setEnt_board st.req.stream ePend 1
  refine ⟨?_, ?_, ?_, ?_, ?_, ?_, ?_⟩
  · rw [desk_stepOf pd, hb _ (fun u => u.stepOf st.stream) fun _ _ => rfl, desk_stepOf vd, hl.step]
  · rw [desk_ent pd, v.setEnt_other (f := ePend) (g := eHeld) _ _ 1 (by decide) (.inl (by decide)), desk_ent vd, hl.held]
  · rw [desk_ent pd, v.ent_setEnt _ ePend 1 (by decide)]
    rfl
  · rw [pc, vc, hl.cores, gc]
  · rw [desk_siteBad pd, hb _ State.siteBad fun _ _ => rfl, desk_siteBad vd, ← desk_siteBad gd]
    exact congrArg Desk.siteBad ld
  · exact ((RegsBut.of_regs _ (lr.trans gr)).trans vr).trans (RegsBut.of_regs _ pr)
  · exact ((BitsUp.of_regs (lr.trans gr)).trans vu).trans (BitsUp.of_regs pr)

theorem State.noReplay_leaves (s : State) (st : Step) : let t := s.noReplay st
    t.stepOf st.stream = none ∧ t.ent st.stream eHeld = 0 ∧ t.ent st.req.stream ePend = 1 ∧
    t.flag (streamDie st.stream) CHK_EVENT_NO_RPL = true ∧ t.cores = s.cores ∧ t.siteBad = s.siteBad ∧ RegsBut unitOff s t := by
  intro t
  obtain ⟨hh, hr, hf⟩ := s.integrity_keeps (streamDie st.stream) (f := CHK_EVENT_NO_RPL) st.site st.stream 0x0C (by decide) rfl
    (by decide) (by decide)
  have ht : t = (s.integrity (streamDie st.stream) CHK_EVENT_NO_RPL st.site st.stream 0x0C).abortStep st 0x0C := rfl
  clear_value t
  generalize s.integrity (streamDie st.stream) CHK_EVENT_NO_RPL st.site st.stream 0x0C = v at *
  have ha := v.abortStep_unreplayed st
  rw [← ht] at ha
  exact ⟨ha.step, ha.held, ha.pend, ha.up.flag _ rfl hf, ha.cores.trans (hh.same State.cores fun _ _ _ _ _ _ _ _ => rfl),
    ha.siteBad.trans hh.siteBad, hr.trans ha.regs⟩

end Sys2Proof.Machine
end

section
/-! Replays placed and staged on the understudies (R364, R369). -/

namespace Sys2Proof.Machine

/-- The turn of an understudy after the placing of a die's replays. -/
def State.replayTurn (d : Nat) (w : Arrival) (s : State) (v : Nat) : State :=
  match (s.core v).placed with
  | p :: _ => if p.replay && p.home == d then s.stageNext v w else s
  | [] => s

theorem exec_replayStage_places {s : State} {d at_ : Nat} (hd : d < 8) (hw : (s.tick at_).workShut = false) (w : Arrival) :
    exec (.replayStage d ⟨at_, w⟩) s = done ((((s.tick at_).placeReplays d).understudies (partner d)).foldl (State.replayTurn d w)
      ((s.tick at_).placeReplays d)) := by
  rw [exec_replayStage, execReplayStage]
  dsimp only
  rw [if_pos ⟨hd, by rw [hw]; rfl⟩]
  rfl

theorem State.replayTurn_idle {s : State} {v : Nat} (h : (s.core v).placed = []) (d : Nat) (w : Arrival) : s.replayTurn d w v = s := by
  rw [State.replayTurn, h]

theorem State.replayTurns_idle {s : State} {l : List Nat} (h : ∀ v ∈ l, (s.core v).placed = []) (d : Nat) (w : Arrival) :
    l.foldl (State.replayTurn d w) s = s := by
  induction l with
  | nil => rfl
  | cons v l ih =>
    rw [List.foldl_cons, State.replayTurn_idle (h v (List.mem_cons_self ..)), ih fun y hy => h y (List.mem_cons_of_mem _ hy)]

theorem State.understudies_of {s t : State} (hs : t.siteBad = s.siteBad) (hr : ∀ j, (t.core j).role = (s.core j).role)
    (hf : ∀ j, t.safe j = s.safe j) (d : Nat) : t.understudies d = s.understudies d := by
  rw [State.understudies, State.understudies]
  congr 1
  funext j
  rw [State.isUnd, State.isUnd, State.good, State.good, hs, hr, hf]

/-- A step due without replay capacity. -/
theorem replayStage_none {s : State} {d at_ : Nat} {st : Step} (hd : d < 8) (hw : (s.tick at_).workShut = false)
    (hdue : (s.tick at_).rplDue d (s.tick at_).frame = [st])
    (hidle : ∀ v ∈ (s.tick at_).understudies (partner d), ((s.tick at_).core v).placed = [])
    (h : ((s.tick at_).packOne ⟨(s.tick at_).rplUsed, [], []⟩ ((s.tick at_).fld 0 CUR_CLK_CUR) d st).2 = .none_) :
    Yields (exec (.replayStage d ⟨at_, .ok⟩) s) (fun t => t.stepOf st.stream = none ∧ t.ent st.stream eHeld = 0 ∧
      t.ent st.req.stream ePend = 1 ∧ t.flag (streamDie st.stream) CHK_EVENT_NO_RPL = true ∧ t.cores = (s.tick at_).cores) := by
  rw [exec_replayStage_places hd hw, State.placeReplays_none hdue h]
  obtain ⟨h1, h2, h3, h4, hc, hs, hr⟩ := (s.tick at_).noReplay_leaves st
  generalize (s.tick at_).noReplay st = v at *
  generalize s.tick at_ = u at *
  have hu : v.understudies (partner d) = u.understudies (partner d) :=
    State.understudies_of hs (fun j => by rw [State.core_of_cores hc]) (fun j => hr.cflag j (by decide)) _
  rw [hu, State.replayTurns_idle fun y hy => by rw [State.core_of_cores hc, hidle y hy]]
  exact yields_done ⟨h1, h2, h3, (State.settle_flag _ _ _).trans h4, hc⟩

-- what staging leaves of every core's batches that are placed and its resident program

/-- The batches placed on a site and the act whose programs it holds. -/
def State.dock (s : State) (j : Nat) : List Placed × Option Nat := ((s.core j).placed, (s.core j).resident)

theorem State.dock_of_cores {s t : State} (h : t.cores = s.cores) : t.dock = s.dock := by
  funext j
  rw [State.dock, State.dock, State.core_of_cores h]

theorem State.modCore_dock (s : State) (k : Nat) (f : Core → Core) (hf : ∀ c, (f c).placed = c.placed ∧ (f c).resident = c.resident) :
    (s.modCore k f).dock = s.dock := by
  funext j
  rw [State.dock, State.dock]
  by_cases h : j = k
  · rw [h, State.core_modCore, (hf _).1, (hf _).2]
  · rw [State.core_modCore_ne s h]

theorem State.modThr_dock (s : State) (k : Nat) (t : Fin 4) (f : Thread → Thread) : (s.modThr k t f).dock = s.dock :=
  s.modCore_dock k _ fun _ => ⟨rfl, rfl⟩

theorem State.threadWrite_dock (s : State) (site : Nat) (t : Fin 4) (a : Nat) (b : List Byte) (psn back : Bool) :
    (s.threadWrite site t a b psn back).dock = s.dock := by
  rw [State.threadWrite]
  dsimp only
  rw [State.modThr_dock]
  exact State.dock_of_cores rfl

theorem State.cleanLine_dock (s : State) (site : Nat) (t : Fin 4) (l : Line) : (s.cleanLine site t l).dock = s.dock := by
  unfold State.cleanLine
  split
  · dsimp only
    rw [State.modCore_dock]
    · exact s.threadWrite_dock site t _ _ _ _
    · exact fun _ => ⟨rfl, rfl⟩
  · rfl

theorem State.cleanAll_dock (s : State) (site : Nat) (t : Fin 4) : (s.cleanAll site t).dock = s.dock :=
  State.foldl_same _ State.dock (fun u l => u.cleanLine_dock site t l) _ s

theorem State.dropAll_dock (s : State) (site : Nat) : (s.dropAll site).dock = s.dock := by
  unfold State.dropAll
  dsimp only
  rw [State.modCore_dock]
  · exact State.dock_of_cores rfl
  · exact fun _ => ⟨rfl, rfl⟩

theorem State.beginBatch_dock (s : State) (site : Nat) (q : Ready) : (s.beginBatch site q).dock = s.dock := by
  obtain ⟨f, ht, hf⟩ := s.beginBatch_parts site q
  have hd : (((s.modCore site f).cleanAll site 0).dropAll site).dock = s.dock := by
    rw [State.dropAll_dock, State.cleanAll_dock, State.modCore_dock]
    refine fun c => ⟨?_, (hf c).1⟩
    obtain ⟨-, n, hn⟩ := hf c
    exact congrArg Bench.placed hn
  rw [ht, ← hd]
  exact State.dock_of_cores rfl

end Sys2Proof.Machine
end

section
/-! A replay placed on an understudy that does not hold its act's programs yet (R369). -/

namespace Sys2Proof.Machine

/-- What a replay's placing is judged by: the batches placed, the steps and the use of replay capacity. -/
def State.places (s : State) : (Nat → List Placed × Option Nat) × List Step × SMap Nat := (s.dock, s.steps, s.rplUsed)

theorem places_of {s t : State} (hd : t.dock = s.dock) (h : t.desk = s.desk) : t.places = s.places := by
  rw [State.places, State.places, hd, desk_steps h, show t.rplUsed = s.rplUsed from congrArg Desk.rplUsed h]

theorem State.beginBatch_places (s : State) (site : Nat) (q : Ready) : (s.beginBatch site q).places = s.places := by
  obtain ⟨-, -, hd⟩ := s.beginBatch_begins site q
  have hk := s.beginBatch_dock site q
  generalize s.beginBatch site q = t at *
  rw [State.places, State.places, hk, show t.steps = s.steps from congrArg Desk.steps hd,
    show t.rplUsed = s.rplUsed from congrArg Desk.rplUsed hd]

/-- Where an understudy's programs do not stand, a replay waits: at most a batch staged before it begins. -/
theorem State.stageNext_waits {s : State} {site : Nat} {p : Placed} {l : List Placed} (hp : (s.core site).placed = p :: l)
    (hr : p.replay = true) (hres : (s.core site).resident = none) (w : Arrival) : (s.stageNext site w).places = s.places := by
  have ho : s.stageOnward site w = s := by
    unfold State.stageOnward
    dsimp only
    rw [hp, hres]
    dsimp only
    rw [hr, show ((none : Option Nat) != some p.act) = true from rfl, Bool.or_true, Bool.and_true, Bool.or_true, if_pos rfl]
  unfold State.stageNext
  dsimp only
  split
  · rfl
  · split
    · next q rest _ _ =>
      split
      · rfl
      · have hm := s.modCore_dock site (fun c => { c with queued := rest }) fun _ => ⟨rfl, rfl⟩
        exact (State.beginBatch_places _ site q).trans (places_of hm (s.modCore_desk site _))
    · rw [ho]

/-- The turns of understudies that hold no placed batch, or no programs, place nothing. -/
theorem State.replayTurns_wait (d : Nat) (w : Arrival) : ∀ (l : List Nat) (s : State),
    (∀ v ∈ l, (s.dock v).1 = [] ∨ (s.dock v).2 = none) → (l.foldl (State.replayTurn d w) s).places = s.places
  | [], _, _ => rfl
  | v :: l, s, h => by
    have hv : (s.replayTurn d w v).places = s.places := by
      unfold State.replayTurn
      split
      · next p rest hp =>
        split
        · next hr =>
          have hres := (h v (List.mem_cons_self ..)).resolve_left (by rw [State.dock, hp]; exact List.cons_ne_nil _ _)
          exact State.stageNext_waits hp (Bool.and_eq_true_iff.1 hr).1 hres w
        · rfl
      · rfl
    rw [List.foldl_cons]
    refine (State.replayTurns_wait d w l _ fun y hy => ?_).trans hv
    rw [show (s.replayTurn d w v).dock = s.dock from congrArg Prod.fst hv]
    exact h y (List.mem_cons_of_mem _ hy)

/-- A replay placed: its use taken, its step given its site and frame, and its batch placed. -/
def State.replayed (u : State) (y : Pack) (st : Step) (w : Nat) (b : OpenBatch) (d : Nat) : State :=
  (({ u with rplUsed := y.used } : State).modStep st.stream (fun x => { x with rpl := u.frame, site := w })).modCore b.site (fun c =>
    { c with placed := c.placed ++ [⟨b.act, u.frame, b.streams, b.streams.length, true, d⟩] })

theorem State.placeReplays_placed {u : State} {d w : Nat} {st : Step} {y : Pack} {b : OpenBatch} (hdue : u.rplDue d u.frame = [st])
    (h : u.packOne ⟨u.rplUsed, [], []⟩ (u.fld 0 CUR_CLK_CUR) d st = (y, .placed w)) (hb : y.batches = [b]) :
    u.placeReplays d = u.replayed y st w b d := by
  unfold State.placeReplays
  rw [hdue, State.packAll_one, h]
  dsimp only
  rw [hb, List.foldl_cons, List.foldl_nil, List.foldl_cons, List.foldl_nil]
  rfl

end Sys2Proof.Machine
end

section
/-! The die's replay command with a replay placed (R364, R369). -/

namespace Sys2Proof.Machine

theorem State.replayed_keeps (u : State) (y : Pack) (st : Step) (w : Nat) (b : OpenBatch) (d : Nat) :
    (u.replayed y st w b d).rplUsed = y.used ∧ (u.replayed y st w b d).regs = u.regs ∧ (u.replayed y st w b d).siteBad = u.siteBad ∧
    (u.replayed y st w b d).steps = (u.modStep st.stream (fun x => { x with rpl := u.frame, site := w })).steps := ⟨rfl, rfl, rfl, rfl⟩

theorem State.replayed_core (u : State) (y : Pack) (st : Step) (w : Nat) (b : OpenBatch) (d j : Nat) :
    ((u.replayed y st w b d).core j).role = (u.core j).role ∧ ((u.replayed y st w b d).core j).resident = (u.core j).resident ∧
    ((u.replayed y st w b d).core j).placed = if j = b.site then
      (u.core j).placed ++ [⟨b.act, u.frame, b.streams, b.streams.length, true, d⟩] else (u.core j).placed := by
  have hc : (({ u with rplUsed := y.used } : State).modStep st.stream (fun x => { x with rpl := u.frame, site := w })).cores = u.cores := rfl
  unfold State.replayed
  generalize ({ u with rplUsed := y.used } : State).modStep _ _ = v at *
  by_cases h : j = b.site
  · rw [h, State.core_modCore, if_pos rfl, State.core_of_cores hc]
    exact ⟨rfl, rfl, rfl⟩
  · rw [State.core_modCore_ne v h, if_neg h, State.core_of_cores hc]
    exact ⟨rfl, rfl, rfl⟩

theorem State.stepOf_of_rplDue {s : State} {d f : Nat} {st : Step} (h : st ∈ s.rplDue d f) : ∃ x, s.stepOf st.stream = some x := by
  have hm : st ∈ s.steps := by
    unfold State.rplDue rplOrder at h
    dsimp only at h
    simp only [List.mem_append, List.mem_filter] at h
    rcases h with (⟨⟨h, -⟩, -⟩ | ⟨⟨h, -⟩, -⟩) | ⟨⟨h, -⟩, -⟩ <;> exact h
  refine Option.isSome_iff_exists.1 ?_
  rw [State.stepOf, List.find?_isSome]
  exact ⟨st, hm, beq_self_eq_true _⟩

/-- A step due with replay capacity, its understudy without the act's programs. -/
theorem replayStage_placed {s : State} {d at_ w : Nat} {st : Step} {y : Pack} {b : OpenBatch} (hd : d < 8)
    (hw : (s.tick at_).workShut = false) (hdue : (s.tick at_).rplDue d (s.tick at_).frame = [st])
    (hidle : ∀ v ∈ (s.tick at_).understudies (partner d), ((s.tick at_).core v).placed = [])
    (h : (s.tick at_).packOne ⟨(s.tick at_).rplUsed, [], []⟩ ((s.tick at_).fld 0 CUR_CLK_CUR) d st = (y, .placed w)) (hb : y.batches = [b])
    (hp : ((s.tick at_).core b.site).placed = []) (hres : ((s.tick at_).core b.site).resident = none) :
    Yields (exec (.replayStage d ⟨at_, .ok⟩) s) (fun t => t.rplUsed = y.used ∧
      (t.core b.site).placed = [⟨b.act, (s.tick at_).frame, b.streams, b.streams.length, true, d⟩] ∧
      (t.stepOf st.stream).map Step.site = some w ∧ (t.stepOf st.stream).map Step.rpl = some (s.tick at_).frame) := by
  rw [exec_replayStage_places hd hw, State.placeReplays_placed hdue h hb]
  generalize s.tick at_ = u at *
  obtain ⟨hu, hr, hs, hst⟩ := u.replayed_keeps y st w b d
  have hcore := u.replayed_core y st w b d
  generalize u.replayed y st w b d = v at *
  have hund : v.understudies (partner d) = u.understudies (partner d) :=
    State.understudies_of hs (fun j => (hcore j).1) (fun j => State.cflag_of_regs hr j _) _
  have hplaces : ((v.understudies (partner d)).foldl (State.replayTurn d .ok) v).places = v.places := by
    refine State.replayTurns_wait d .ok _ v fun j hj => ?_
    rw [hund] at hj
    obtain ⟨-, hjres, hjp⟩ := hcore j
    by_cases he : j = b.site
    · exact .inr (hjres.trans (he ▸ hres))
    · rw [if_neg he] at hjp
      exact .inl (hjp.trans (hidle j hj))
  generalize (v.understudies (partner d)).foldl (State.replayTurn d .ok) v = t at *
  obtain ⟨htd, hts⟩ := Prod.mk.inj hplaces
  obtain ⟨hts, htu⟩ := Prod.mk.inj hts
  have hplaced : (t.core b.site).placed = (v.core b.site).placed := congrArg Prod.fst (congrFun htd b.site)
  obtain ⟨x, hx⟩ := State.stepOf_of_rplDue (hdue ▸ List.mem_singleton_self st)
  have hstep : t.stepOf st.stream = some { x with rpl := u.frame, site := w } := by
    rw [State.stepOf, hts, hst, ← State.stepOf, State.stepOf_modStep, hx, Option.map_some]
    exact fun _ => rfl
  refine yields_done ⟨htu.trans hu, ?_, ?_, ?_⟩
  · rw [State.settle_core, hplaced, (hcore b.site).2.2, if_pos rfl, hp, List.nil_append]
  · rw [desk_stepOf t.settle_desk, hstep]
    rfl
  · rw [desk_stepOf t.settle_desk, hstep]
    rfl

end Sys2Proof.Machine
end

section
/-! Directors stage and strike, clause by clause. -/

namespace Sys2Proof.Machine

section Stage
variable {s u1 : State} {site base at_ : Nat} {p : Placed} {rest : List Placed} {st : Step}

/-- What the director's command finds where it may stage. -/
structure MayStage (u : State) (site : Nat) (p : Placed) (rest : List Placed) : Prop where
  good : u.good site = true
  work : u.workShut = false
  heard : u.rehStopped site = false
  placed : (u.core site).placed = p :: rest
  safe : u.safe site = false
  due : p.frame ≤ u.frame

theorem stageBatch_queues (hm : MayStage (s.tick at_) site p rest) (h : Stageable (s.tick at_) site base p st u1) {b : Running}
    (hb : ((s.tick at_).core site).batch = some b) : Yields (exec (.stageBatch site ⟨at_, .ok⟩) s) (fun t =>
      (s.tick at_).Slotted t site base st ∧ t.signals = (s.tick at_).signals ∧ ∃ q, Readied (s.tick at_) p st base q ∧
      (t.core site).bench = { ((s.tick at_).core site).bench with placed := rest, queued := ((s.tick at_).core site).queued ++ [q] }) := by
  rw [exec_stageBatch_good s at_ .ok hm.good, State.stageNext_placed hm.work hm.heard hm.placed hm.safe hm.due h.new fun hn =>
    absurd (hb.symm.trans hn) (Option.some_ne_none _)]
  obtain ⟨hs, hg, q, hq, hk⟩ := State.stagePlaced_queues (rest := rest) h hb
  exact yields_done ⟨hs.settled, hg, q, hq, settled_bench hk⟩

theorem stageBatch_begins (hm : MayStage (s.tick at_) site p rest) (h : Stageable (s.tick at_) site base p st u1)
    (hb : ((s.tick at_).core site).batch = none) (hq : ((s.tick at_).core site).queued = []) :
    Yields (exec (.stageBatch site ⟨at_, .ok⟩) s) (fun t => (s.tick at_).Slotted t site base st ∧ (t.core site).lines = [] ∧
      t.signals = (s.tick at_).signals ++
        [⟨site, none, actStgCue ((s.tick at_).act p.act), actCtx ((s.tick at_).act p.act), true, 1, [], 0⟩] ∧
      ∃ b : Running, b.act = p.act ∧ b.frame = p.frame ∧ b.started = false ∧ b.slots.map SlotRec.stream = [st.stream] ∧
        (t.core site).bench = ⟨some b, rest, [],
          min (2 ^ 32 - 1) (actCycBatch ((s.tick at_).act p.act) + p.n * actCycStep ((s.tick at_).act p.act)),
          BitVec.ofNat 32 (base * 64), 0x80000001⟩) := by
  rw [exec_stageBatch_good s at_ .ok hm.good, State.stageNext_placed hm.work hm.heard hm.placed hm.safe hm.due h.new fun _ => hq]
  obtain ⟨hs, hl, hg, b, ka, kf, kn, ks, hk⟩ := State.stagePlaced_begins (rest := rest) h hb hq
  refine yields_done ⟨hs.settled, ?_, hg, b, ka, kf, kn, ks, settled_bench hk⟩
  rw [State.settle_core, hl]

theorem stageBatch_next {q : Ready} {rest : List Ready} (hg : (s.tick at_).good site = true) (hw : (s.tick at_).workShut = false)
    (hs : (s.tick at_).safe site = false) (hb : ((s.tick at_).core site).batch = none)
    (hq : ((s.tick at_).core site).queued = q :: rest) : Yields (exec (.stageBatch site ⟨at_, .ok⟩) s) (fun t =>
      (∃ b : Running, (t.core site).batch = some b ∧ b.act = q.run.act ∧ b.frame = q.run.frame ∧ b.slots = q.run.slots) ∧
      (t.core site).queued = rest ∧ (t.core site).bud = q.bud ∧ (t.core site).lines = [] ∧
      (t.core site).stgBase = BitVec.ofNat 32 (q.base * 64) ∧
      t.signals = (s.tick at_).signals ++ [⟨site, none, actStgCue ((s.tick at_).act q.run.act), q.run.ctx, true, 1, [], 0⟩]) := by
  rw [exec_stageBatch_good s at_ .ok hg]
  exact yields_done (State.stageNext_queued hw hs hb hq)

end Stage

section Strike
variable {s : State} {site slot at_ : Nat} {b : Running} {r : SlotRec} {st : Step}

theorem moved_of (u : State) (st : Step) (site : Nat) (r : SlotRec) {bad : Bool}
    (h : (u.directorPad (some st.act) (streamDie st.stream) site (r.off + 64 * (1 + r.nchan)) (r.len - 64 * (1 + r.nchan)) false).2 = bad) :
    ∃ v, Moved u v st site r bad :=
  ⟨_, Prod.ext rfl h⟩

theorem Struck.aborted (h : Struck (s.tick at_) site slot b r st) {w : Arrival} {susp : Nat}
    (ha : Aborted (s.tick at_) ((s.tick at_).strikeStep st site r w) st.stream susp) :
    Yields (exec (.strike site slot ⟨at_, w⟩) s) (fun t => Aborted (s.tick at_) t st.stream susp) :=
  h.yields w fun _ ht _ => ha.of_desk rfl ht

theorem Struck.aborted_shows (h : Struck (s.tick at_) site slot b r st) {w : Arrival} {susp : Nat} {f : RF} (hf : f.off < 0x1000000)
    (ha : Aborted (s.tick at_) ((s.tick at_).strikeStep st site r w) st.stream susp ∧
      ((s.tick at_).strikeStep st site r w).flag (streamDie st.stream) f = true) :
    Yields (exec (.strike site slot ⟨at_, w⟩) s) (fun t => Aborted (s.tick at_) t st.stream susp ∧ t.flag (streamDie st.stream) f = true) :=
  h.yields w fun _ ht hflag => ⟨ha.1.of_desk rfl ht, (hflag _ f hf).trans ha.2⟩

theorem Struck.commits (h : Struck (s.tick at_) site slot b r st) {w : State} (hw : WroteBack (s.tick at_) w st site r)
    (hc : Committed w ((s.tick at_).strikeStep st site r .ok) st) : Yields (exec (.strike site slot ⟨at_, .ok⟩) s) (fun t =>
      t.stepOf st.stream = none ∧ t.ent st.stream eHalf = 1 - (s.tick at_).ent st.stream eHalf ∧
      t.ent st.stream eStepCnt = ((s.tick at_).ent st.stream eStepCnt + 1) % 2 ^ 32 ∧ t.ent st.stream eRun = 0 ∧
      t.bytes ((s.tick at_).halfAddr st.stream (1 - (s.tick at_).ent st.stream eHalf)) (64 * r.units) = (s.tick at_).slotState site r ∧
      MemBut (s.tick at_) t ((s.tick at_).halfAddr st.stream (1 - (s.tick at_).ent st.stream eHalf)) (64 * r.units) ∧
      (∃ e : EgrRec, t.backlog = (s.tick at_).backlog ++ [(streamDie st.stream, e)] ∧ e.stream = st.stream ∧ e.status = 0 ∧
        e.frame = st.frame ∧ e.tag = st.tag ∧ e.stepCnt = ((s.tick at_).ent st.stream eStepCnt + 1) % 2 ^ 32)) := by
  obtain ⟨hcb, -, hlog, -⟩ := hw.same
  have he (f : EF) : w.ent st.stream f = (s.tick at_).ent st.stream f := State.ent_of_cb hcb _ f
  refine h.yields .ok fun t ht _ => ?_
  have hm : t.mem = w.mem := (desk_mem ht).trans hc.mem
  refine ⟨(desk_stepOf ht _).trans hc.step, ?_, ?_, (desk_ent ht _ _).trans hc.run, ?_, ?_, ?_⟩
  · rw [desk_ent ht, hc.half, he]
  · rw [desk_ent ht, hc.count, he]
  · rw [← hw.body, State.bytes, State.bytes]
    simp only [State.byte_of_mem hm]
  · exact fun j hj => (State.byte_of_mem hm j).trans (hw.but j hj)
  · obtain ⟨e, h1, h2⟩ := hc.record
    rw [hlog, he] at *
    exact ⟨e, (desk_backlog ht).trans h1, h2⟩

theorem Struck.holds (h : Struck (s.tick at_) site slot b r st) (hh : Held (s.tick at_) ((s.tick at_).strikeStep st site r .ok) st.stream) :
    Yields (exec (.strike site slot ⟨at_, .ok⟩) s) (fun t => Held (s.tick at_) t st.stream) :=
  h.yields .ok fun t ht _ => by
    refine ⟨?_, (desk_ent ht _ _).trans hh.held, (desk_ent ht _ _).trans hh.run, (desk_ent ht _ _).trans hh.half,
      (desk_backlog ht).trans hh.backlog⟩
    rw [desk_stepOf ht, hh.step]

end Strike

end Sys2Proof.Machine
end

section
/-! Directors stage and strike (O36). -/

namespace Sys2Proof.Machine

theorem Yields.imp {r : Res} {p q : State → Prop} (h : Yields r p) (hpq : ∀ t, p t → q t) : Yields r q := by
  obtain ⟨t, ht, hp⟩ := h
  exact ⟨t, ht, hpq t hp⟩

/-- Settles O36: a batch staged by its one step and its slot, begun or queued; a strike by what it meets; and a replay by its packing. -/
theorem directorsStageAndStrike : Obligations.DirectorsStageAndStrike := by
  unfold Obligations.DirectorsStageAndStrike
  intro s site d slot at_ st u x
  refine ⟨?_, fun h w => exec_stage_shut h site d w, fun h w => exec_stage_rehStopped h w,
    fun q rest hg hw hs hb hq => stageBatch_next hg hw hs hb hq, ?_, ?_⟩
  · intro p rest u1 base e n units half len hgood hwork hreh hplaced hsafe hdue hnew hsteps hseen hin hpsn hroom hpad staged
    have hm : MayStage u site p rest := ⟨hgood, hwork, hreh, hplaced, hsafe, hdue⟩
    have h : Stageable u site base p st u1 := ⟨hsteps, hnew, hseen, hin, hpsn, hroom, hpad⟩
    have hstaged {t : State} {k : Bench} (hs : u.Slotted t site base st) (hk : (t.core site).bench = k) (hr : k.placed = rest) : staged t := by
      obtain ⟨h1, h2, h3, h4⟩ := hs.reads
      exact ⟨(congrArg Bench.placed hk).trans hr, h1, h2, h3, h4⟩
    refine ⟨fun b hb => (stageBatch_queues hm h hb).imp ?_, fun hb hq => (stageBatch_begins hm h hb hq).imp ?_⟩
    · rintro t ⟨hs, hg, q, hq, hk⟩
      exact ⟨hstaged hs hk rfl, (congrArg Bench.batch hk).trans hb, congrArg Bench.bud hk, hg, q, congrArg Bench.queued hk, hq.act,
        hq.frame, hq.at_, hq.bud, hq.slots⟩
    · rintro t ⟨hs, hl, hg, b, ka, kf, kn, ks, hk⟩
      exact ⟨hstaged hs hk rfl, ⟨b, congrArg Bench.batch hk, ka, kf, kn, ks⟩, congrArg Bench.stgCount hk, congrArg Bench.stgBase hk,
        congrArg Bench.bud hk, hl, hg⟩
  · intro b r front half psn hon hbatch hslot hstep hx hphase hact hframe shut
    have h : Struck u site slot b r st := ⟨hon, hbatch, hslot, hstep, hphase, hact, hframe⟩
    refine ⟨fun hshut => ?_, fun hshut => ?_, fun hshut hp => ?_, fun hshut hp haud hn hin => ?_⟩ <;>
      obtain ⟨v, hv⟩ := moved_of u st site r hshut
    · exact (h.aborted_shows (by decide) hv.shut_aborts).imp fun t ⟨ha, hf⟩ =>
        ⟨ha.step, ha.half, ha.life, ha.susp, ha.run, hf, memSame_of_mem ha.mem⟩
    · exact ⟨(h.aborted_shows (by decide) hv.parity_aborts).imp fun t ⟨ha, hf⟩ =>
          ⟨ha.step, ha.half, ha.life, ha.susp, hf, memSame_of_mem ha.mem⟩,
        (h.aborted_shows (by decide) hv.lost_aborts).imp fun t ⟨ha, hf⟩ =>
          ⟨ha.step, ha.half, ha.life, ha.susp, hf, memSame_of_mem ha.mem⟩⟩
    · exact (h.aborted (hv.poisoned_aborts hp)).imp fun t ha => ⟨ha.step, ha.half, ha.life, ha.susp, ha.run, memSame_of_mem ha.mem⟩
    · refine ⟨fun hs hc => ?_, fun hs hpad hhold => ?_⟩
      · obtain ⟨w, hw, hcom⟩ := hv.commits hp haud hn hin hs hc
        exact h.commits hw hcom
      · exact (h.holds (hv.holds hp haud hn hin hs hpad hhold)).imp fun t ht => ⟨ht.step, ht.held, ht.run, ht.half, ht.backlog⟩
  · intro hd hw hdue packed hidle
    exact ⟨replayStage_none hd hw hdue hidle,
      fun y w b h hb hp hres => replayStage_placed hd hw hdue hidle h hb hp hres⟩

end Sys2Proof.Machine
end
